-- ==== Sys2Proof/Word.lean ====
section
/-! DEFINITION. The word types of the DXY-7512: bytes, 32-bit words and 64-bit image words, and the quality
codes of R8. Multi-byte fields are little-endian (R3); the byte-order helpers are in Machine/Ops.lean. -/

namespace Sys2Proof

/-- One byte of a memory, a frame or a record. -/
abbrev Byte := BitVec 8

/-- A 32-bit register or memory word. -/
abbrev Word := BitVec 32

/-- A 64-bit word of the process image. -/
abbrev DWord := BitVec 64

/-- The quality codes of R8, in the order of their codes. -/
inductive Quality where
  /-- 0b00, measured or received within its expected time and within its valid range. -/
  | good
  /-- 0b01, the last good value, held because no new value arrived in time. -/
  | stale
  /-- 0b10, a substitute value. -/
  | subst
  /-- 0b11, no usable value. -/
  | bad
  deriving DecidableEq, Repr, Inhabited

end Sys2Proof
end

