-- ==== Sys2Proof/Syntax.lean ====
section
/-! DEFINITION. The commands of the block: one constructor of `Instr` for each row of the command table, and the
types of the operands by which the environment says what happened. -/

namespace Sys2Proof

/-- R404, R408: the three PLLs. -/
inductive Pll where
  | sys
  | slv
  | ser
  deriving DecidableEq, Repr

/-- The users whose need makes a domain's demand (the five that the common block state machine of chapter 12 names). -/
inductive DomUser where
  | scheduled
  | work
  | host
  | mailbox
  | force
  deriving DecidableEq, Repr

/-- R477, R482: stored bits that have turned wrong: the memory (R489), the line and the bank in it (0 to 15 data, 16 P, 17 Q),
and whether two bits of the word are wrong, which its inner code detects and cannot correct, or one, which it corrects. -/
structure Upset where
  mem : Nat
  line : Nat
  bank : Nat
  double : Bool
  deriving DecidableEq, Repr

/-- R487: what the memory self-test finds in one bank: its redundant columns that fuses have put in use, the columns in
service that fail, the redundant columns in use and the spare ones that fail, and whether a cell fails outside every replaceable
column. -/
structure BistBank where
  fused : Nat := 0
  failing : Nat := 0
  usedBad : Nat := 0
  spareBad : Nat := 0
  cell : Bool := false
  deriving DecidableEq, Repr, Inhabited

/-- What the memory self-test finds: the banks of the fourteen memories of R489 in order (16 and 17 are P and Q); and the granules
of the non-volatile die that its inner code cannot correct in this boot, as NV window offsets of a byte in each (R435). -/
structure BistReport where
  mems : List (List BistBank) := []
  ecc : List Nat := []
  deriving DecidableEq, Repr, Inhabited


/-- R361: the value measured at an output channel's pins in a tick, and whether its driver reports a fault. -/
structure Readback where
  chan : Nat
  val : Rat
  fault : Bool
  deriving DecidableEq, Repr

/-- R350: the 1,600 samples of a waveform channel in a window, in volts at the channel. -/
structure WaveIn where
  chan : Nat
  samples : List Rat
  deriving DecidableEq, Repr

/-- What a sync link frame carries, by the streams of R501 (the codes of the kinds and the layouts of the payloads are
not in the spec; values that count from a tick travel as ages, so that the receiver can translate them). -/
inductive SyncMsg where
  /-- R500: the receiver's acknowledgement of a frame -/
  | ack
  /-- tick stream: CI words published at the tick -/
  | ci (words : List (Nat × DWord))
  /-- tick stream: a host write performed under R505, a patch or a CE_CMD command: address and data -/
  | write (addr : Nat) (data : Word)
  /-- tick stream at a headway start: a meter's registers and residues -/
  | meter (m : Nat) (regs : List Nat) (res : List Rat)
  /-- tick stream: ticks since the headway start, ticks since the schedule origin, headways since the optimiser period
  start, and the engines that are not idle as a bit mask -/
  | cadence (pos origin optCount busy : Nat)
  /-- the tick-end frame -/
  | tickEnd
  /-- input copy: the SI generation published at t_in -/
  | si (words : List (Nat × DWord))
  /-- end-of-headway record: headway number, output checksum, device state, fatal cause bits, digest, handover request -/
  | endHw (headway : Nat) (crc : Word) (mode : Nat) (fatal : Word) (digest : List Byte) (handover : Bool)
  /-- what a member tells its peer: its state, fitness and digest, and whether it is in lock-step -/
  | status (mode : Nat) (fit : Bool) (digest : List Byte) (lockstep : Bool)
  /-- the standby acknowledges an announced handover (R514 step 1) -/
  | handoverAck
  /-- record mirror: a record that became durable, or bytes of a staged replacement, with the NV offset -/
  | record (off : Nat) (bytes : List Byte)
  /-- alignment: an image region -/
  | image (region : Nat) (words : List (Nat × DWord))
  /-- alignment: an engine's data memory -/
  | data (engine : Nat) (cells : List (Nat × Byte))
  /-- alignment: the states of a loop: integral, derivative, u_prev, effective setpoint, previous measurement,
  feedforward, previous kp and ff_gain; then its flags -/
  | loop (k : Nat) (words : List Word) (flags : List Bool)
  /-- alignment: the wagons of a pipe: place, volume, temperature, age of the birth in ticks, quality -/
  | pipe (e : Nat) (wagons : List (Nat × Word × Word × Nat × Nat))
  /-- alignment: the HYD solution: flows and heads -/
  | hyd (flows heads : List Word)
  /-- alignment: the warm-start store: step, and tag, value, lower and upper multiplier of its entries -/
  | warm (step : Nat) (entries : List (Nat × Word × Word × Word))
  /-- alignment: the optimiser's plan: kind, sequence numbers of its solve and of the solve last started, step of step 0, step
  words by channel -/
  | plan (kind seq last step : Nat) (chans : List (Nat × List DWord))
  /-- alignment: lines left in the sweep -/
  | left (n : Nat)
  deriving DecidableEq, Repr, Inhabited

/-- The commands, one constructor for each row of spec/opcode_table.json; what the environment supplies is an operand. -/
inductive Instr where
  /-- TICK, R406: Each 1/1,024 s tick of the always-on time base advances the tick count and calendar and drives all per-tick work. -/
  | tick (energy : List Nat) (upsets : List Upset) (readback : List Readback)
  /-- HEADWAY_START, R14: At each headway start the device applies any due commit, sends the trains and begins the headway's work. -/
  | headwayStart
  /-- COMMIT_BOUNDARY, R461: At the commit boundary the commit strobe brings every staged register and section into force on one edge and a done mark is written. -/
  | commitBoundary
  /-- INPUT_CLOSE, R14: At t_in the device publishes the SI region, judges station dropouts and starts the hydraulic solve. -/
  | inputClose
  /-- OPT_PAUSE, R227: An optimiser unit on the fabric pauses at its next pause point so that HYD can take the fabric. -/
  | optPause
  /-- ESTIMATE_CLOSE, R15: At t_est an unfinished estimate is abandoned and NS is published with STALE values, setting est_late. -/
  | estimateClose
  /-- OUTPUT_FREEZE, R14: At t_out the device freezes the SO region for the next train and starts the state copy to a standby. -/
  | outputFreeze
  /-- FTR_MOVE_DONE, R165: The front tracker finishes moving the wagons with the solved flows and the device publishes the NS region. -/
  | ftrMoveDone
  /-- FABRIC_FACTORISATION_DONE, R241: The solver fabric completes a factorisation for HYD or OPT and sets the client's result. -/
  | fabricFactorisationDone
  /-- FABRIC_SOLVE_DONE, R246: The fabric completes a refined solve and the client takes its next Newton or interior-point step. -/
  | fabricSolveDone
  /-- FATAL_CAUSE_SAFE, R26: A fatal cause moves a device in RUN to SAFE at the next tick. -/
  | fatalCauseSafe
  /-- RUN, R33: The DEV_CMD RUN command enters RUN at the next headway start. -/
  | run (key : Nat)
  /-- STOP, R33: The DEV_CMD STOP command returns the device from RUN or STANDBY to READY at the next headway start. -/
  | stop (key : Nat)
  /-- HOLD, R33: The DEV_CMD HOLD command enters HOLD at the next tick. -/
  | hold (key : Nat)
  /-- LOAD_A, R74: The DEV_CMD LOAD_A command checks slot A, writes the active pointer and passes to BOOT. -/
  | loadA (key : Nat)
  /-- LOAD_B, R74: The DEV_CMD LOAD_B command checks slot B, writes the active pointer and passes to BOOT. -/
  | loadB (key : Nat)
  /-- CLEAR, R33: The DEV_CMD CLEAR command moves the device from SAFE to READY when no fatal cause bit is set. -/
  | clear (key : Nat)
  /-- RESET, R33: The DEV_CMD RESET command sends the device to BOOT at the next tick. -/
  | reset (key : Nat)
  /-- POWER_GOOD, R413: Power-good rises and the device performs its boot sequence up to READY or HOLD. -/
  | powerGood (bist : BistReport) (roleB : Bool)
  /-- POWER_GOOD_LOSS, R403: A main rail leaves its range, and the always-on domain records the cut time in PWR_CUT. -/
  | powerGoodLoss
  /-- RST_N_ASSERT, R416: An RST_N low pulse is filtered, its calendar time is recorded and switchable domains are cleared, after any running save. -/
  | rstNAssert (lowNs : Nat)
  /-- RST_N_RELEASE, R413: The end of an RST_N assertion starts the boot sequence. -/
  | rstNRelease (bist : BistReport)
  /-- BACKGROUND_SLOT_CHECK_DONE, R77: A background check of an unchecked slot completes and sets its valid bit and DEV_TT report. -/
  | backgroundSlotCheckDone (slot : Nat)
  /-- THROUGH_FORWARD_START, R130: 40 ms after power-good, hardware forwarding starts on every through pair named in the boot block. -/
  | throughForwardStart
  /-- VAO_RISE, R406: VAO rises, and the tick count starts at 0 with the always-on registers at their reset values. -/
  | vaoRise (vbatHeld : Bool) (elapsed : Nat)
  /-- XTAL_FAIL, R407: The crystal misses four cycles, the tick moves to the RC oscillator and calendar time becomes not valid. -/
  | xtalFail
  /-- XTAL_RETURN, R407: After 1,024 good crystal cycles the tick returns to the crystal at the next tick boundary. -/
  | xtalReturn
  /-- REF_FAIL, R408: The 25 MHz reference deviates by more than 1,000 ppm over a tick and ref_fail is set. -/
  | refFail
  /-- PLL_UNLOCK, R408: A PLL loses lock or fails to lock within 100 us; loss of PLL_SYS or PLL_SLV is fatal, loss of PLL_SER takes the sync link down. -/
  | pllUnlock (pll : Pll)
  /-- VBAT_LOW, R427: VBAT falls below its range and vbat_low is set. -/
  | vbatLow
  /-- POWER_FAIL_WARNING, R417: A filtered low on PFW_N stops work domains and runs the ordered power-fail save. -/
  | powerFailWarning (lowNs : Nat)
  /-- PFW_RECOVER_TIMEOUT, R423: After a complete save, PFW_N high for the recover time with power-good true makes the device perform a RESET. -/
  | pfwRecoverTimeout
  /-- DOMAIN_ENABLE_REQUEST, R409: A rise of a domain's demand starts it or sets its restart-pending flag. -/
  | domainEnableRequest (d : Nat) (u : DomUser)
  /-- DOMAIN_DISABLE_REQUEST, R409: A fall of a domain's demand starts STOPPING or clears its restart-pending flag. -/
  | domainDisableRequest (d : Nat) (u : DomUser)
  /-- DOMAIN_START_DONE, R409: A STARTING domain completes its start and becomes ON, or stops at once if demand has gone. -/
  | domainStartDone (d : Nat)
  /-- DOMAIN_STOP_DONE, R409: A STOPPING domain completes its stop and becomes OFF, or restarts if a restart is pending. -/
  | domainStopDone (d : Nat)
  /-- DOMAIN_START_TIMEOUT, R410: A domain that is not ON within 200 us returns to OFF and sets start_fail. -/
  | domainStartTimeout (d : Nat)
  /-- SCHEDULED_WAKE, R411: The wake controller raises a domain's demand lead sub-ticks before a scheduled use. -/
  | scheduledWake (d : Nat)
  /-- LINGER_EXPIRE, R411: A domain whose next scheduled use lies beyond the linger time loses its demand after its work ends. -/
  | lingerExpire (d : Nat)
  /-- HOST_LINGER_EXPIRE, R412: host_linger after the last host access to a domain, the demand raised by host access falls. -/
  | hostLingerExpire (d : Nat)
  /-- DOMAIN_FORCE_ON, R428: A write of PWR_DOMk.force_on sets or removes the host's demand for the domain. -/
  | domainForceOn (d : Nat) (on : Bool)
  /-- HEALTH_SAMPLE, R531: Every 100 ms the device samples the temperature sensors and rails and raises temperature and voltage causes. -/
  | healthSample (temps : List Word) (mv : List Nat)
  /-- WATCHDOG_EXPIRE, R526: The management watchdog expires, causing a RESET in BOOT or the watchdog fatal cause and a firmware restart otherwise. -/
  | watchdogExpire
  /-- READ_WIDTH_1, R580: Host READ command 0x03 reads 1 to 4,096 bytes on one lane and returns status, data, end word and CRC. -/
  | readWidth1 (addr : Nat) (n : Nat) (crc : Nat) (ecc : Option Nat)
  /-- READ_WIDTH_4, R580: Host READ command 0xEB reads 1 to 4,096 bytes on four lanes. -/
  | readWidth4 (addr : Nat) (n : Nat) (crc : Nat) (ecc : Option Nat)
  /-- WRITE_WIDTH_1, R587: Host WRITE command 0x02 buffers data on one lane and performs or stages it once its CRC holds. -/
  | writeWidth1 (addr : Nat) (n : Nat) (data : List Byte) (crc : Nat)
  /-- WRITE_WIDTH_4, R587: Host WRITE command 0x38 buffers data on four lanes and performs or stages it once its CRC holds. -/
  | writeWidth4 (addr : Nat) (n : Nat) (data : List Byte) (crc : Nat)
  /-- STATUS_WIDTH_1, R580: Host STATUS command 0x05 returns the status word and interrupt summary on one lane. -/
  | statusWidth1 (crc : Nat)
  /-- STATUS_WIDTH_4, R580: Host STATUS command 0x75 returns the status word and interrupt summary on four lanes. -/
  | statusWidth4 (crc : Nat)
  /-- BAD_CMD, R580: An unknown command byte leaves the outputs high impedance until HOST_CS_N rises and sets bad_cmd. -/
  | badCmd (cmd : Byte)
  /-- HOST_CS_N_EARLY_RISE, R589: HOST_CS_N rises before the request CRC or during a response, aborting or truncating the transaction. -/
  | hostCsNEarlyRise (fetched : Option Nat)
  /-- HOST_WRITE_PERFORM, R588: After HOST_CS_N rises, the buffered words of a write are performed in ascending order, stopping at the first refused word. -/
  | hostWritePerform
  /-- REGISTER_WRITE, R5: A host write to a register without a behaviour of its own is performed under its field types. -/
  | registerWrite (addr : Nat) (data : Word)
  /-- MB_ACK, R595: A write of HIF_MB_ACK.ack acknowledges a done mailbox reply and returns the mailbox to idle. -/
  | mbAck
  /-- MB_UNKNOWN_COMMAND, R527: A doorbell with an unknown command code ends with result 7. -/
  | mbUnknownCommand
  /-- INFO, R528: Mailbox command INFO returns firmware slot, versions, floor and MGT_STAT. -/
  | info
  /-- TT_OPEN, R529: Mailbox command TT_OPEN opens a timetable slot for writing, zeroing its magic and possibly staging a replacement. -/
  | ttOpen
  /-- TT_WRITE, R529: Mailbox command TT_WRITE writes data into the open slot and returns when it is durable. -/
  | ttWrite
  /-- TT_CLOSE, R529: Mailbox command TT_CLOSE checks the image CRC, writes the magic last, closes the writer and starts the slot check. -/
  | ttClose
  /-- TT_ABORT, R529: Mailbox command TT_ABORT closes the writer and leaves the slot incomplete. -/
  | ttAbort
  /-- TT_READ, R528: Mailbox command TT_READ returns bytes of a timetable slot. -/
  | ttRead
  /-- TIMETABLE_CHECK_DONE, R75: A slot check started by TT_CLOSE, LOAD or COMMIT completes and reports its code. -/
  | timetableCheckDone (slot : Nat)
  /-- FW_OPEN, R529: Mailbox command FW_OPEN opens the non-running firmware slot and zeroes its magic. -/
  | fwOpen
  /-- FW_WRITE, R529: Mailbox command FW_WRITE writes data into the open firmware slot. -/
  | fwWrite
  /-- FW_CLOSE, R529: Mailbox command FW_CLOSE checks the firmware image and writes its magic last if good. -/
  | fwClose
  /-- FW_ACTIVATE, R529: Mailbox command FW_ACTIVATE writes the firmware pointer naming a slot as trial for the next boot. -/
  | fwActivate
  /-- FW_CONFIRM, R525: Mailbox command FW_CONFIRM confirms the running trial image and raises the svn floor. -/
  | fwConfirm
  /-- FW_READ, R528: Mailbox command FW_READ returns bytes of a firmware slot. -/
  | fwRead
  /-- EVR_READ, R530: Mailbox command EVR_READ returns event records by sequence number, including buffered ones. -/
  | evrRead
  /-- EVR_FLUSH, R540: Mailbox command EVR_FLUSH writes every buffered event record to the recorder. -/
  | evrFlush
  /-- LOG_READ, R530: Mailbox command LOG_READ returns metrological log records. -/
  | logRead
  /-- ARCH_READ, R530: Mailbox command ARCH_READ returns station archive records. -/
  | archRead
  /-- JNL_READ, R528: Mailbox command JNL_READ returns raw bytes of a journal segment. -/
  | jnlRead
  /-- KEY_INFO, R568: Key command KEY_INFO returns an entry's state, attributes, generation, KCV and mask time. -/
  | keyInfo
  /-- KEY_GENERATE, R568: Key command KEY_GENERATE writes a freshly drawn key into a slot. -/
  | keyGenerate
  /-- KEY_IMPORT, R569: Key command KEY_IMPORT unwraps a key blob under a wrap-only slot and writes it into a slot. -/
  | keyImport
  /-- KEY_DERIVE, R569: Key command KEY_DERIVE derives a key by HKDF from a derive-only source slot. -/
  | keyDerive
  /-- KEY_EXPORT, R568: Key command KEY_EXPORT returns an exportable key wrapped under a wrap-only slot. -/
  | keyExport
  /-- KEY_DESTROY, R558: Key command KEY_DESTROY makes an empty pointer durable and zeroises both halves. -/
  | keyDestroy
  /-- KEY_REMASK, R555: Key command KEY_REMASK starts a re-masking round at once. -/
  | keyRemask
  /-- REMASK_DUE, R555: An entry whose re-mask period has passed is re-masked with fresh shares. -/
  | remaskDue
  /-- COMPAT_MASK, R568: Key command COMPAT_MASK unwraps and loads the VX-300 site mask entry. -/
  | compatMask
  /-- COMPAT_LOAD, R556: Key command COMPAT_LOAD writes a VX-300 blob and attribute word into a compatibility slot. -/
  | compatLoad
  /-- MA_EXTEND, R561: Key command MA_EXTEND extends MA5 to MA7 with a host value. -/
  | maExtend
  /-- MA_READ, R568: Key command MA_READ returns the eight accumulators and their counts. -/
  | maRead
  /-- MA_LOG, R563: Key command MA_LOG returns extension log entries. -/
  | maLog
  /-- ENCRYPT, R570: Key command ENCRYPT performs AES-GCM encryption under an encrypt-only slot. -/
  | encrypt
  /-- DECRYPT, R570: Key command DECRYPT performs AES-GCM decryption under a decrypt-only slot. -/
  | decrypt
  /-- STATION_KEY, R564: Key command STATION_KEY derives a station base key and returns it wrapped. -/
  | stationKey
  /-- ATTEST, R573: Key command ATTEST returns a signed attestation statement over the host nonce. -/
  | attest
  /-- IDENTITY, R571: Key command IDENTITY returns the device identity public key and certificate. -/
  | identity
  /-- SIGNER_SET, R566: Key command SIGNER_SET writes, replaces or clears a signer entry under an authorising signature. -/
  | signerSet
  /-- SIGNER_INFO, R568: Key command SIGNER_INFO returns a signer entry's role and key. -/
  | signerInfo
  /-- RNG_HEALTH_FAIL, R567: The entropy source fails its health test, setting KEY_CAUSE.rng and refusing random-value commands until reseeded. -/
  | rngHealthFail
  /-- BEGIN, R453: Transaction command BEGIN opens a transaction when none is active. -/
  | begin (key : Nat)
  /-- COMMIT, R459: Transaction command COMMIT validates the staged set, writes the commit record and loads the shadows for the next headway boundary. -/
  | commit (key : Nat)
  /-- COMMIT_PROMPT, R459: Transaction command COMMIT_PROMPT commits the staged set with its boundary at the next tick. -/
  | commitPrompt (key : Nat)
  /-- ROLLBACK, R463: Transaction command ROLLBACK discards an open transaction. -/
  | rollback (key : Nat)
  /-- TX_IDLE_ABORT, R458: An open transaction idle for tx_idle is aborted. -/
  | txIdleAbort
  /-- JOURNAL_COPY_A_WRITTEN, R445: Copy A of a journal record is written and verified, making the record durable or starting a retry. -/
  | journalCopyAWritten (readback : Option (List Byte))
  /-- JOURNAL_COPY_B_WRITTEN, R446: Copy B of a journal record is written and verified, retried in place, or left for repair. -/
  | journalCopyBWritten (readback : Option (List Byte))
  /-- PS_UNLOCK, R437: JNL_PS_CMD unlock compares a password and unlocks a partition for reading or writing, or starts a lockout. -/
  | psUnlock (p : Nat) (wr : Bool) (key : Nat)
  /-- PS_LOCK, R437: JNL_PS_CMD lock locks a partition for one kind. -/
  | psLock (p : Nat) (wr : Bool) (key : Nat)
  /-- PS_SET_PASSWORD, R437: JNL_PS_CMD set password replaces the password of an unlocked kind. -/
  | psSetPassword (p : Nat) (wr : Bool) (key : Nat)
  /-- PS_LOCKOUT_EXPIRE, R438: A parameter store lockout counts down to zero and unlock attempts are accepted again. -/
  | psLockoutExpire (p : Nat) (wr : Bool)
  /-- PS_WRITE_BURST, R439: A host write burst to the parameter store is collected in the page buffer and programming starts at the end of the transaction. -/
  | psWriteBurst (addr : Nat) (data : List Byte)
  /-- PS_PAGE_PROGRAMMED, R439: Programming of a parameter store page completes and BUSY answers end. -/
  | psPageProgrammed
  /-- CAL_SET, R533: MGT_CAL_CMD set slews or steps calendar time at the next tick boundary. -/
  | calSet (key : Nat)
  /-- CAL_INVALIDATE, R532: MGT_CAL_CMD invalidate marks calendar time not valid at the next tick boundary and ends any slew. -/
  | calInvalidate (key : Nat)
  /-- CAL_SLEW_STEP, R533: Every 32 ticks during a slew one calendar unit is added or withheld. -/
  | calSlewStep
  /-- PPS_EDGE, R534: A rising PPS_IN edge is captured and slews the calendar or is rejected. -/
  | ppsEdge (offUs : Rat)
  /-- PPS_TIMEOUT, R534: 4 s without a PPS edge ends PPS lock. -/
  | ppsTimeout
  /-- LEAP_SECOND, R535: At the end of the named UTC day the calendar inserts or deletes a second and clears MGT_CAL_LEAP. -/
  | leapSecond
  /-- EVR_CTL_FLUSH, R540: A write of MGT_EVR_CTL.flush writes every buffered record. -/
  | evrCtlFlush
  /-- EVR_FLUSH_PERIOD, R540: Every flush_period seconds the event buffer is flushed. -/
  | evrFlushPeriod
  /-- EVR_BUCKET_REFILL, R541: Every 1,024th tick each rate bucket gains rate units. -/
  | evrBucketRefill
  /-- EVR_SUMMARY, R541: At each whole hour every bucket with an uncarried suppressed count writes a summary record. -/
  | evrSummary
  /-- EVR_SCAN_DONE, R542: The ring scan after loss of VAO ends and waiting records are written. -/
  | evrScanDone
  /-- SNAP_FIRE, R543: A write of MGT_SNAP_CTL.fire requests a strobe and drives SNAP for the peer. -/
  | snapFire
  /-- SNAP_EDGE, R543: A rising edge at SNAP requests a strobe while pin_in is set. -/
  | snapEdge
  /-- SNAP_PERIODIC, R543: Every MGT_SNAP_PER headway starts a strobe is requested. -/
  | snapPeriodic
  /-- SNAP_STROBE, R543: At the tick boundary after a request all snapshot registers latch on one edge, or the strobe is counted missed. -/
  | snapStrobe
  /-- PC_LO_READ, R357: A read of CHN_PCn_LO returns count bits [31:0] and latches bits [63:32]. -/
  | pcLoRead (n : Nat)
  /-- TICK_LO_READ, R427: A read of PWR_TICK_LO latches PWR_TICK_HI. -/
  | tickLoRead
  /-- E_TOT_LO_READ, R429: A read of PWR_E_TOTg_LO latches PWR_E_TOTg_HI. -/
  | eTotLoRead (g : Nat)
  /-- JNL_SEQ_LO_READ, R469: A read of JNL_SEQ_LO latches JNL_SEQ_HI. -/
  | jnlSeqLoRead
  /-- CAL_SEC_READ, R547: A read of MGT_CAL_SEC latches MGT_CAL_FRAC. -/
  | calSecRead
  /-- EVR_SEQ_LO_READ, R548: A read of MGT_EVR_SEQ_LO latches MGT_EVR_SEQ_HI. -/
  | evrSeqLoRead
  /-- KEY_CTR_LO_READ, R577: A read of KEY_CTR_LO latches KEY_CTR_HI. -/
  | keyCtrLoRead
  /-- TRAPPC_READ, R307: A read of CE_En_TRAPPC clears the trap valid bit. -/
  | trappcRead (e : Nat)
  /-- SLK_STN_SEL_WRITE, R142: A write to SLK_STN_SEL selects the station shown by the detail registers. -/
  | slkStnSelWrite (data : Word)
  /-- CHN_SEL_WRITE, R363: A write to CHN_SEL selects the channel shown by the detail registers. -/
  | chnSelWrite (data : Word)
  /-- MTR_SEL_WRITE, R399: A write to MTR_SEL selects a meter and latches a coherent copy of its registers. -/
  | mtrSelWrite (data : Word)
  /-- MTR_IVL_SEL_WRITE, R400: A write to MTR_IVL_SEL copies the selected interval record into the data registers. -/
  | mtrIvlSelWrite (data : Word)
  /-- TARIFF_SUBMIT, R395: A write to MTR_TAR_D2 submits one weekday of a tariff table, applied with a log record or staged. -/
  | tariffSubmit (data : Word)
  /-- DAYOFS_WRITE, R395: A write to MTR_DAYOFS changes the local day offset with a log record, or is refused or staged. -/
  | dayofsWrite (data : Word)
  /-- TOTALS_SAVE, R384: A write of MTR_SAVE.save writes a totals record at the next sample boundary. -/
  | totalsSave
  /-- TOTALS_SAVE_PERIODIC, R384: Every MTR_SAVE.period seconds a totals record is written. -/
  | totalsSavePeriodic
  /-- HYD_COLD_REQUEST, R176: A write of HYD_CTL.cold makes the next hydraulic solve start cold. -/
  | hydColdRequest
  /-- OPT_COLD_REQUEST, R222: A write of OPT_CTL.cold makes the next optimiser solve start cold. -/
  | optColdRequest
  /-- SLV_SELFTEST_START, R249: A write of SLV_CTL.selftest in HOLD or READY starts the fabric self-test. -/
  | slvSelftestStart
  /-- SLV_SELFTEST_DONE, R249: The fabric self-test completes and reports pass or fail. -/
  | slvSelftestDone (pass : Bool)
  /-- LOOP_COEFFICIENT_WRITE, R268: A direct write to a loop coefficient register is validated and takes effect at the loop's next sample. -/
  | loopCoefficientWrite (addr : Nat) (data : Word)
  /-- LOOP_MODE_WRITE, R265: A write of LPE_Lk_CTL.mode switches the loop between automatic and manual at its next sample. -/
  | loopModeWrite (k : Nat) (manual : Bool)
  /-- LOOP_REINIT, R264: A write of LPE_Lk_CTL.reinit makes the loop start bumplessly at its next sample. -/
  | loopReinit (k : Nat)
  /-- LOOP_SAMPLE, R257: A due loop copies in its inputs, computes its law with fallback and limits and copies out its output. -/
  | loopSample
  /-- INJECTION_START, R272: A write of LPE_INJc_CTL.start starts an injection at the loop's next sample. -/
  | injectionStart (c : Nat) (data : Word)
  /-- INJECTION_STOP, R272: A write of LPE_INJc_CTL.stop aborts an injection. -/
  | injectionStop (c : Nat)
  /-- INJECTION_END, R272: An injection ends after LEN samples and sets inj_end. -/
  | injectionEnd (c : Nat)
  /-- CAPTURE_START, R274: A write of LPE_CAPc_CTL.start arms or starts a capture. -/
  | captureStart (c : Nat) (data : Word)
  /-- CAPTURE_STOP, R273: A write of LPE_CAPc_CTL.stop stops a capture. -/
  | captureStop (c : Nat)
  /-- CAPTURE_DONE, R273: A single capture stops after LEN samples and sets cap_done. -/
  | captureDone (c : Nat)
  /-- TASK_RELEASE, R282: A cyclic task falls due, is released or skipped as an overrun, and may preempt a lower priority task. -/
  | taskRelease (e : Nat) (k : Nat)
  /-- EVENT_TASK_RELEASE, R287: An edge of an event reference releases its task, or is held pending or counted lost. -/
  | eventTaskRelease (e : Nat) (k : Nat)
  /-- TASK_DISPATCH, R283: A released task is dispatched, its copy-in list is read and its execution starts. -/
  | taskDispatch (e : Nat)
  /-- BUDGET_EXPIRE, R285: A release exceeding its budget takes the budget trap. -/
  | budgetExpire (e : Nat)
  /-- TASK_STOP, R304: CE_CMD stop stops a task at the next instruction boundary and writes its outputs SUBST. -/
  | taskStop (e : Nat) (k : Nat) (key : Nat)
  /-- TASK_START, R304: CE_CMD start makes a task due at its next release tick. -/
  | taskStart (e : Nat) (k : Nat) (key : Nat)
  /-- TASK_RESTART, R304: CE_CMD restart abandons the current release and restarts the task from its entry address. -/
  | taskRestart (e : Nat) (k : Nat) (key : Nat)
  /-- PATCH_SUBMIT, R301: A write of CE_PATCH_CTL.go submits a patch or refuses it with a reason. -/
  | patchSubmit (data : Word)
  /-- PATCH_APPLY, R300: A pending patch is written indivisibly at its task's next cycle boundary. -/
  | patchApply (e : Nat)
  /-- RETENTIVE_SAVE, R296: A write of CE_RET_CTL.save requests retentive records of every engine. -/
  | retentiveSave
  /-- RETENTIVE_SAVE_PERIODIC, R296: Every CE_RET_CTL.period seconds retentive records of every engine are requested. -/
  | retentiveSavePeriodic
  /-- RETENTIVE_CAPTURE, R297: An engine's retentive area is captured at an idle tick, or at the next END after one headway, and written to the journal. -/
  | retentiveCapture (e : Nat)
  /-- ADD, R319: Instruction ADD adds two registers modulo 2^32. -/
  | ceAdd (e : Nat)
  /-- SUB, R319: Instruction SUB subtracts two registers modulo 2^32. -/
  | ceSub (e : Nat)
  /-- AND, R319: Instruction AND forms the bitwise and of two registers. -/
  | ceAnd (e : Nat)
  /-- OR, R319: Instruction OR forms the bitwise or of two registers. -/
  | ceOr (e : Nat)
  /-- XOR, R319: Instruction XOR forms the bitwise exclusive-or of two registers. -/
  | ceXor (e : Nat)
  /-- SLL, R319: Instruction SLL shifts left by a register amount. -/
  | ceSll (e : Nat)
  /-- SRL, R319: Instruction SRL shifts right with zero fill by a register amount. -/
  | ceSrl (e : Nat)
  /-- SRA, R319: Instruction SRA shifts right with sign fill by a register amount. -/
  | ceSra (e : Nat)
  /-- SLT, R319: Instruction SLT sets 1 if ra < rb signed. -/
  | ceSlt (e : Nat)
  /-- SLTU, R319: Instruction SLTU sets 1 if ra < rb unsigned. -/
  | ceSltu (e : Nat)
  /-- MIN, R319: Instruction MIN takes the signed minimum. -/
  | ceMin (e : Nat)
  /-- MAX, R319: Instruction MAX takes the signed maximum. -/
  | ceMax (e : Nat)
  /-- MUL, R319: Instruction MUL gives the low 32 bits of the product. -/
  | ceMul (e : Nat)
  /-- MULH, R319: Instruction MULH gives the high 32 bits of the signed product. -/
  | ceMulh (e : Nat)
  /-- MULHU, R319: Instruction MULHU gives the high 32 bits of the unsigned product. -/
  | ceMulhu (e : Nat)
  /-- DIV, R320: Instruction DIV divides signed, trapping on a zero divisor. -/
  | ceDiv (e : Nat)
  /-- DIVU, R320: Instruction DIVU divides unsigned, trapping on a zero divisor. -/
  | ceDivu (e : Nat)
  /-- REM, R320: Instruction REM gives the signed remainder, trapping on a zero divisor. -/
  | ceRem (e : Nat)
  /-- REMU, R320: Instruction REMU gives the unsigned remainder, trapping on a zero divisor. -/
  | ceRemu (e : Nat)
  /-- SLLI, R319: Instruction SLLI shifts left by an immediate amount. -/
  | ceSlli (e : Nat)
  /-- SRLI, R319: Instruction SRLI shifts right with zero fill by an immediate amount. -/
  | ceSrli (e : Nat)
  /-- SRAI, R319: Instruction SRAI shifts right with sign fill by an immediate amount. -/
  | ceSrai (e : Nat)
  /-- CLZ, R319: Instruction CLZ counts leading zero bits. -/
  | ceClz (e : Nat)
  /-- ADDI, R320: Instruction ADDI adds a sign-extended immediate. -/
  | ceAddi (e : Nat)
  /-- ANDI, R320: Instruction ANDI ands with a zero-extended immediate. -/
  | ceAndi (e : Nat)
  /-- ORI, R320: Instruction ORI ors with a zero-extended immediate. -/
  | ceOri (e : Nat)
  /-- XORI, R320: Instruction XORI exclusive-ors with a zero-extended immediate. -/
  | ceXori (e : Nat)
  /-- SLTI, R320: Instruction SLTI compares signed with an immediate. -/
  | ceSlti (e : Nat)
  /-- SLTIU, R320: Instruction SLTIU compares unsigned with a sign-extended immediate. -/
  | ceSltiu (e : Nat)
  /-- LUI, R320: Instruction LUI loads an immediate into the upper half. -/
  | ceLui (e : Nat)
  /-- FADD, R321: Instruction FADD adds two binary32 values. -/
  | ceFadd (e : Nat)
  /-- FSUB, R321: Instruction FSUB subtracts two binary32 values. -/
  | ceFsub (e : Nat)
  /-- FMUL, R321: Instruction FMUL multiplies two binary32 values. -/
  | ceFmul (e : Nat)
  /-- FDIV, R321: Instruction FDIV divides two binary32 values. -/
  | ceFdiv (e : Nat)
  /-- FSQRT, R321: Instruction FSQRT takes a binary32 square root. -/
  | ceFsqrt (e : Nat)
  /-- FMADD, R321: Instruction FMADD performs a fused multiply-add into rd. -/
  | ceFmadd (e : Nat)
  /-- FMIN, R321: Instruction FMIN takes the minimum with the NaN rule. -/
  | ceFmin (e : Nat)
  /-- FMAX, R321: Instruction FMAX takes the maximum with the NaN rule. -/
  | ceFmax (e : Nat)
  /-- FABS, R321: Instruction FABS clears the sign bit. -/
  | ceFabs (e : Nat)
  /-- FNEG, R321: Instruction FNEG inverts the sign bit. -/
  | ceFneg (e : Nat)
  /-- FEQ, R321: Instruction FEQ tests binary32 equality. -/
  | ceFeq (e : Nat)
  /-- FLT, R321: Instruction FLT tests binary32 less than. -/
  | ceFlt (e : Nat)
  /-- FLE, R321: Instruction FLE tests binary32 less or equal. -/
  | ceFle (e : Nat)
  /-- FCVT_WS, R321: Instruction FCVT.WS converts binary32 to a saturated signed integer. -/
  | ceFcvtWs (e : Nat)
  /-- FCVT_SW, R321: Instruction FCVT.SW converts a signed integer to binary32. -/
  | ceFcvtSw (e : Nat)
  /-- FCLAMP, R321: Instruction FCLAMP clamps rd between ra and rb. -/
  | ceFclamp (e : Nat)
  /-- LB, R324: Instruction LB loads a sign-extended byte from data memory. -/
  | ceLb (e : Nat)
  /-- LBU, R324: Instruction LBU loads a zero-extended byte. -/
  | ceLbu (e : Nat)
  /-- LH, R324: Instruction LH loads a sign-extended halfword. -/
  | ceLh (e : Nat)
  /-- LHU, R324: Instruction LHU loads a zero-extended halfword. -/
  | ceLhu (e : Nat)
  /-- LW, R324: Instruction LW loads a word. -/
  | ceLw (e : Nat)
  /-- LD, R324: Instruction LD loads 8 bytes into a register pair. -/
  | ceLd (e : Nat)
  /-- SB, R324: Instruction SB stores a byte. -/
  | ceSb (e : Nat)
  /-- SH, R324: Instruction SH stores a halfword. -/
  | ceSh (e : Nat)
  /-- SW, R324: Instruction SW stores a word. -/
  | ceSw (e : Nat)
  /-- SD, R324: Instruction SD stores a register pair. -/
  | ceSd (e : Nat)
  /-- LIT, R326: Instruction LIT reads 4 bytes from the literal area. -/
  | ceLit (e : Nat)
  /-- LIT_D, R326: Instruction LIT.D reads 8 bytes from the literal area into a pair. -/
  | ceLitD (e : Nat)
  /-- BEQ, R327: Instruction BEQ branches if equal. -/
  | ceBeq (e : Nat)
  /-- BNE, R327: Instruction BNE branches if not equal. -/
  | ceBne (e : Nat)
  /-- BLT, R327: Instruction BLT branches if signed less. -/
  | ceBlt (e : Nat)
  /-- BGE, R327: Instruction BGE branches if signed greater or equal. -/
  | ceBge (e : Nat)
  /-- BLTU, R327: Instruction BLTU branches if unsigned less. -/
  | ceBltu (e : Nat)
  /-- BGEU, R327: Instruction BGEU branches if unsigned greater or equal. -/
  | ceBgeu (e : Nat)
  /-- JAL, R327: Instruction JAL jumps and writes the link register. -/
  | ceJal (e : Nat)
  /-- JALR, R327: Instruction JALR jumps to a register target and writes rd. -/
  | ceJalr (e : Nat)
  /-- IRD, R329: Instruction IRD reads one image word from the latest published generation. -/
  | ceIrd (e : Nat)
  /-- IWR, R330: Instruction IWR writes an owned image word at once. -/
  | ceIwr (e : Nat)
  /-- QMAX, R328: Instruction QMAX takes the larger of two quality codes. -/
  | ceQmax (e : Nat)
  /-- QOK, R328: Instruction QOK tests whether a quality code is usable. -/
  | ceQok (e : Nat)
  /-- TON, R294: Instruction TON evaluates an on-delay timer cell. -/
  | ceTon (e : Nat)
  /-- TOF, R331: Instruction TOF evaluates an off-delay timer cell. -/
  | ceTof (e : Nat)
  /-- TP, R331: Instruction TP evaluates a pulse timer cell. -/
  | ceTp (e : Nat)
  /-- TRST, R331: Instruction TRST resets a timer cell. -/
  | ceTrst (e : Nat)
  /-- EDR, R332: Instruction EDR reports a rising edge of an edge cell. -/
  | ceEdr (e : Nat)
  /-- EDF, R332: Instruction EDF reports a falling edge of an edge cell. -/
  | ceEdf (e : Nat)
  /-- EDB, R332: Instruction EDB reports either edge of an edge cell. -/
  | ceEdb (e : Nat)
  /-- NOP, R333: Instruction NOP does nothing. -/
  | ceNop (e : Nat)
  /-- END, R334: Instruction END ends the release and performs its copy-out, or takes the budget trap. -/
  | ceEnd (e : Nat)
  /-- TRAP, R333: Instruction TRAP takes a program trap code. -/
  | ceTrap (e : Nat)
  /-- EVT, R333: Instruction EVT records a program event. -/
  | ceEvt (e : Nat)
  /-- RDT, R333: Instruction RDT reads a tick, calendar or identity quantity. -/
  | ceRdt (e : Nat)
  /-- FSTAT, R333: Instruction FSTAT reads and clears the sticky floating-point flags. -/
  | ceFstat (e : Nat)
  /-- JOIN_TRAIN_DEPART, R124: During a join phase a join train departs every 102 ticks within the headway window. -/
  | joinTrainDepart
  /-- JOIN_PHASE_END, R124: A line's join phase ends when SLK_JOIN_LIM trains have been sent. -/
  | joinPhaseEnd
  /-- TIME_CAR_RETURN, R113: A returning time car gives the round trip and correction for the next time car. -/
  | timeCarReturn (p : Nat) (frame : List Byte) (rt : Nat)
  /-- OUTPUT_CAR_RETURN, R97: A returning output car reports stations' acknowledgements and faults. -/
  | outputCarReturn (p : Nat) (frame : List Byte)
  /-- INPUT_CAR_RETURN, R126: A returning input car delivers station input slots, marks stations PRESENT and detects ring breaks. -/
  | inputCarReturn (p : Nat) (frame : List Byte)
  /-- JOIN_CAR_RETURN, R120: A returning join car's requests are admitted or refused for the next train. -/
  | joinCarReturn (p : Nat) (frame : List Byte)
  /-- FRAME_DISCARD, R94: A received frame with a bad FCS or foreign content is discarded and counted. -/
  | frameDiscard (p : Nat) (frame : List Byte)
  /-- PRESENCE_STALE_EXPIRE, R127: After stale_headways without inputs a station's presence quality turns BAD. -/
  | presenceStaleExpire (st : Nat)
  /-- EPOCH_ADVANCE, R104: A higher key epoch comes into force, is made durable and enters the next train. -/
  | epochAdvance
  /-- PHY_LINK_POLL, R613: Every 64 ticks the device reads each PHY's link status over MDIO. -/
  | phyLinkPoll (up : Nat)
  /-- THROUGH_CAR_ARRIVE, R130: In through mode a car is forwarded in hardware and its own slots, time car and join are processed. -/
  | throughCarArrive (q : Nat) (frame : List Byte) (time : Int) (residence : Int) (onward : Bool)
  /-- CONVERSION_DONE, R345: A channel conversion completes and its averaged primary and secondary CI words are written. -/
  | conversionDone (c : Nat) (code : Nat) (v1 : Rat) (v2 : Rat) (full : Bool) (exc : Bool)
  /-- ACCEPTED_EDGE, R351: A digital input level held for the debounce time is accepted and written with chatter and stuck checks. -/
  | acceptedEdge (c : Nat) (level : Bool) (us : Nat)
  /-- CHATTER_EXIT, R352: A chattering input leaves chatter when its edge count in the window falls to half. -/
  | chatterExit (c : Nat) (us : Nat)
  /-- STUCK_TIMEOUT, R353: A digital input at 1 for longer than the stuck time becomes STUCK. -/
  | stuckTimeout (c : Nat)
  /-- COUNTED_EDGE, R355: A pulse edge held for the stable time is counted and opens a filter window, or is an overrate. -/
  | countedEdge (n : Nat)
  /-- FILTER_WINDOW_END, R355: A pulse channel's filter window closes. -/
  | filterWindowEnd (n : Nat)
  /-- WAVEFORM_WINDOW, R350: Every 200 ms the waveform channels write RMS and mean values. -/
  | waveformWindow (wins : List WaveIn) (secondEnd : Bool)
  /-- PWM_PERIOD_START, R360: A PWM output takes its new duty at the start of a period. -/
  | pwmPeriodStart (c : Nat)
  /-- TEST_PULSE, R396: A queued meter test pulse is emitted on a mode 20 channel. -/
  | testPulse (c : Nat)
  /-- THERMAL_SAMPLE, R370: Every 0.25 s a thermal meter computes flow and energy and accumulates its registers. -/
  | thermalSample
  /-- INTERVAL_CLOSE, R379: At its calendar boundary a meter interval closes, produces an interval record and the next opens. -/
  | intervalClose (m : Nat)
  /-- MIDNIGHT_ARCHIVE, R391: After each local midnight the device writes a daily archive record for every metering station and meter. -/
  | midnightArchive (stop : Option Nat) (fails : List Nat)
  /-- ACT_IN_N_CHANGE, R495: ACT_IN_N changes and the interlock gate opens or closes within 1 us. -/
  | actInNChange (asserted : Bool)
  /-- CLAIM_SAMPLE, R496: 4 sub-ticks after claiming, a member samples ACT_IN_N and yields or enters RUN. -/
  | claimSample
  /-- INTERLOCK_CONFLICT, R498: Both members asserting ACT_OUT_N for more than 4 sub-ticks raises the interlock fatal cause. -/
  | interlockConflict
  /-- SYNC_FRAME, R500: A sync link frame is received and acknowledged, delivering a stream to the standby. -/
  | syncFrame (seq : Nat) (msg : SyncMsg)
  /-- SYNC_RESEND_TIMEOUT, R500: A sync frame not acknowledged within 20 us is resent. -/
  | syncResendTimeout (seq : Nat)
  /-- SYNC_LINK_TIMEOUT, R500: No valid frame or idle word for 100 us takes the sync link down. -/
  | syncLinkTimeout
  /-- STANDBY_TICK_WORK, R502: A standby performs the active member's tick k at its own tick k + 1 once the streams have arrived. -/
  | standbyTickWork
  /-- LAG_TIMEOUT, R502: A standby whose streams miss lag_allow loses step and aligns again. -/
  | lagTimeout
  /-- TAKEOVER, R511: A fit standby enters RUN when ACT_IN_N and the sync link have been down for the takeover guard. -/
  | takeover
  /-- HANDOVER, R514: RED_CMD handover hands the active role to the standby at the next headway start. -/
  | handover
  /-- REALIGN, R507: RED_CMD realign makes the standby align again. -/
  | realign
  /-- PROVING_SWAP, R516: A due proving swap starts a handover at swap_minute, or is deferred. -/
  | provingSwap
  /-- SYNC_LINK_UP, R500: The sync link comes up when PLL_SER is locked and valid frames or idle words arrive again, letting a waiting member pass from READY to STANDBY under R496. -/
  | syncLinkUp
  /-- SYNC_LANE_LOSS, R500: Loss of one of two sync lanes moves all traffic to the other lane and sets RED_CAUSE.lane. -/
  | syncLaneLoss (lane : Nat)
  /-- RNG_RESEED, R567: A successful reseed of the CTR_DRBG ends the refusal of commands that need random values. -/
  | rngReseed
  /-- ILLEGAL_INSTRUCTION, R317: An engine executes an encoding whose op is not in the opcode map and takes trap 0x01. -/
  | illegalInstruction (e : Nat)
  /-- FETCH_AT_TEXT_END, R327: A sequential fetch at text_end takes trap 0x04 with CE_En_TRAPPC holding text_end. -/
  | fetchAtTextEnd (e : Nat)
  deriving DecidableEq, Repr

end Sys2Proof
end

