-- ==== Sys2Proof/Decode.lean ====
section
/-! DEFINITION. Decoding. The command table gives no row any bits: commands reach the block as register writes, frames,
events and ticks, not as words. So no word spells a command. -/

namespace Sys2Proof

/-- The command that a word of `nbits` bits spells by the command table's bits: none, since no row gives bits. -/
def decodeTableWord (_nbits _w : Nat) : Option Instr := none

end Sys2Proof
end

