-- ==== Sys2Proof/Config.lean ====
section
/-! DEFINITION. What the spec leaves open: constants without a body. Nothing in Lean can evaluate them, so whatever
is proved holds for every value. Each has a row in notes/assumptions. -/

namespace Sys2Proof

/-- The binary32 value the device gives for an exact real result where the spec states no rounding (log entry 3). -/
opaque Config.roundF32 : Rat → Word

/-- The integer the device gives for an exact real result where the spec states no rounding (log entry 3). -/
opaque Config.roundInt : Rat → Int

/-- Which of two zeros of different sign FMIN and FMAX give (R321; log entry 9): true for the first operand. -/
opaque Config.zeroFirst : Word → Word → Bool

/-- The DRBG's output (R567): 256 fresh bits for each draw, numbered by the state's own counter (log entry 4). -/
opaque Config.random : Nat → BitVec 256

/-- A free 32-bit value for the n-th use (log entry 5). -/
opaque Config.freeWord : Nat → Word

/-- R527: whether the n-th write of a slot fails after its retries, a free value (log entry 89). -/
opaque Config.nvFails : Nat → Bool

/-- Byte `o` of the management firmware image in slot A at delivery (R523, R626; log entry 6). -/
opaque Config.fwImage : Nat → Byte

/-- Version of the delivered firmware image (R523; log entry 6). -/
opaque Config.fwVersion : Word

/-- Security version number of the delivered firmware image (R523; log entry 6). -/
opaque Config.fwSvn : BitVec 16

/-- Where in system SRAM, as a number of 64-bit words from its start, the device places generation `g` of image region `r`, for
regions of the given sizes (R476, R632; log entry 7). -/
opaque Config.imgBase : List Nat → Nat → Nat → Nat

/-- What a system SRAM byte outside the image reads as (R632; log entry 7). -/
opaque Config.sramByte : Nat → Byte

/-- The device's unique identifier in KEY_UID (log entry 8). -/
opaque Config.uid : Nat → Word

/-- SHA-384 of the ROM (R561; log entry 8). -/
opaque Config.romDigest : List Byte

/-- SHA-384 of the microcode images that the firmware loads, in the order of R561 (log entry 8). -/
opaque Config.microcode : List (List Byte)

/-- Digest of the delivered firmware image (R561, R626; log entry 6). -/
opaque Config.fwDigest : List Byte

/-- The fused public key of signer S0 (R565; log entry 8). -/
opaque Config.signer0 : List Byte

/-- The identity private key derived from the fused secret (R571; log entry 8). -/
opaque Config.identityKey : Nat

/-- The factory certificate of the identity key (R571; log entry 8). -/
opaque Config.certificate : List Byte

/-- Bytes 1 to 4 of the header of a wrapped station key, which R569 does not give (log entry 10). -/
opaque Config.ksHeader : Nat → Byte

/-- The binary32 value the device gives for the square root of an exact real (R350, R375; log entry 3). -/
opaque Config.roundSqrt : Rat → Word

/-- Entries of the ROM fluid tables that R148 does not list: property (0 ρ, 1 c, 2 ν), fluid code, °C (log entry 13). -/
opaque Config.fluid : Nat → Nat → Int → Rat

/-- Where inside a bracket of 2⁻⁴⁸ of its span the inverse of an RTD law lies (R348; log entry 3). -/
opaque Config.inBracket : Nat → Rat → Rat

/-- R270, R376: the sine of an angle given in turns, as the device computes it (log entry 3). -/
opaque Config.sinTurns : Rat → Rat

/-- R383: the binary32 fundamental power factor for P1 and Q1 (log entry 3). -/
opaque Config.powerFactor : Rat → Rat → Word

/-- R149, R150, R167: logarithm to base 10, power and exponential of the device (log entry 3). -/
opaque Config.log10 : Rat → Rat

/-- R149, R150: x to the power y (log entry 3). -/
opaque Config.rpow : Rat → Rat → Rat

/-- R167: the exponential function (log entry 3). -/
opaque Config.rexp : Rat → Rat

/-- R149, R167: the constant π the device uses (log entry 3). -/
opaque Config.pi : Rat

/-- R623: the manufacturer field of the IDCODE of the test access port (log entry 98). -/
opaque Config.manufacturer : BitVec 11

/-- R347: the factory-calibrated excitation current of a platform at an excitation level, in amperes (log entry 96). -/
opaque Config.excCurrent : Nat → Nat → Rat

/-- R168: which of the free wagons of the parcel store a new wagon takes, for the n-th use (log entry 16). -/
opaque Config.wagonPick : Nat → Nat

/-- R242, R245, R246: the order in which the terms of a sum are taken, from the kind of the sum (0 UPDATE, 1 FACTOR, 2 forward,
3 backward, 4 residual), the place it is for and the number of terms (log entry 17). -/
opaque Config.laneOrder : Nat → Nat → Nat → List Nat

/-- R242: which two of the factors l, d, m of a term are multiplied first: by kind and place (log entry 17). -/
opaque Config.laneGroup : Nat → Nat → Nat

/-- R242, R245: a scaling by a pivot multiplies by its reciprocal, and does not divide (log entry 17). -/
opaque Config.laneRecip : Bool

/-- R249: how many entries of the factor store the self-test uses (log entry 75). -/
opaque Config.selftestEntries : Nat

/-- R208: the scaling of a route's variables (false) and constraints (true): the value of 1 scaled unit (log entry 18). -/
opaque Config.optUnit : List Byte → Bool → Nat → Rat

/-- R184: entry i of the barrier diagonals D_x (false) and D_r (true) at an iterate (log entry 18). -/
opaque Config.optDiag : List Byte → List Word → List Word → Bool → Nat → Word

/-- R209 steps 7 and 9: the right-hand side of the predictor system (no solution yet) and of the corrector system (given
the predictor's solution and σ), in original row order (log entry 18). -/
opaque Config.optRhs : List Byte → List Word → List Word → Option (List Word × Rat) → Nat → Word

/-- R209 steps 8 and 10: what the full step of a system's solution adds to entry i of the iterate, for the slacks and
multipliers (log entry 18). -/
opaque Config.optDir : List Byte → List Word → List Word → List Word → Nat → Rat

/-- R213: the natural light forecast of a zone in mol/m² from one instant to another (seconds of local time), from the
forecast series; the spec does not say which series a zone uses (log entry 19). -/
opaque Config.natural : Nat → List (Nat × Nat × List Word) → Nat → Nat → Rat

/-- R9, R213: the largest quality code among the series that such a forecast takes in (log entry 19). -/
opaque Config.naturalCode : Nat → List (Nat × Nat × List Word) → Nat → Nat → Nat

end Sys2Proof
end

