-- ==== Sys2Proof/Machine/Bytes.lean ====
section
/-! DEFINITION. Pure helpers: byte order (R3), bit fields, sparse maps in canonical form, CRCs (R42 and the CRC-16
of the host interface), quality codes (R8, R9). Nothing here reads the machine's state. -/

namespace Sys2Proof.Machine

/-! ### Sparse maps: sorted lists of keys and values -/

/-- Look a key up in a sorted list of pairs; `d` says what an unlisted key reads as. -/
def smGet {α : Type} (d : Nat → α) (m : List (Nat × α)) (k : Nat) : α :=
  match m with
  | [] => d k
  | (k', v) :: rest => if k' = k then v else if k < k' then d k else smGet d rest k

/-- Put a value at a key without looking at the default: the list stays sorted. -/
def smInsert {α : Type} (m : List (Nat × α)) (k : Nat) (v : α) : List (Nat × α) :=
  match m with
  | [] => [(k, v)]
  | (k', v') :: rest =>
    if k < k' then (k, v) :: (k', v') :: rest
    else if k = k' then (k, v) :: rest
    else (k', v') :: smInsert rest k v

/-- Take a key out of a sorted list. -/
def smErase {α : Type} (m : List (Nat × α)) (k : Nat) : List (Nat × α) :=
  match m with
  | [] => []
  | (k', v') :: rest =>
    if k < k' then (k', v') :: rest
    else if k = k' then rest
    else (k', v') :: smErase rest k

/-- Write a value at a key, keeping the canonical form: writing what an unlisted key reads as removes the entry. -/
def smPut {α : Type} [DecidableEq α] (d : Nat → α) (m : List (Nat × α)) (k : Nat) (v : α) : List (Nat × α) :=
  if v = d k then smErase m k else smInsert m k v

/-- Keys strictly rising from `lo`, no entry equal to its default. -/
def smWfFrom {α : Type} [DecidableEq α] (d : Nat → α) (lo : Nat) (m : List (Nat × α)) : Bool :=
  match m with
  | [] => true
  | (k, v) :: rest => decide (lo ≤ k) && !(decide (v = d k)) && smWfFrom d (k + 1) rest

/-- The canonical form of a sparse map. -/
def smWf {α : Type} [DecidableEq α] (d : Nat → α) (m : List (Nat × α)) : Bool := smWfFrom d 0 m

/-- Update the value at a key. -/
def smUpd {α : Type} [DecidableEq α] (d : Nat → α) (m : List (Nat × α)) (k : Nat) (f : α → α) : List (Nat × α) :=
  smPut d m k (f (smGet d m k))

/-- Write consecutive keys. -/
def smPutList {α : Type} [DecidableEq α] (d : Nat → α) (m : List (Nat × α)) (k : Nat) (vs : List α) :
    List (Nat × α) :=
  match vs with
  | [] => m
  | v :: rest => smPutList d (smPut d m k v) (k + 1) rest

/-- Read `n` consecutive keys. -/
def smGetList {α : Type} (d : Nat → α) (m : List (Nat × α)) (k : Nat) : Nat → List α
  | 0 => []
  | n + 1 => smGet d m k :: smGetList d m (k + 1) n

/-! ### Lists -/

/-- Element `i` of a list, or `d` past its end. -/
def nth {α : Type} (xs : List α) (i : Nat) (d : α) : α := (xs[i]?).getD d

/-- The list with element `i` replaced (unchanged past its end). -/
def setNth {α : Type} (xs : List α) (i : Nat) (v : α) : List α := xs.set i v

/-- The `n` elements from offset `o`. -/
def slice {α : Type} (xs : List α) (o n : Nat) : List α := (xs.drop o).take n

/-- A list cut or padded with `d` to exactly `n` elements. -/
def fit {α : Type} (d : α) (n : Nat) (xs : List α) : List α := xs.take n ++ List.replicate (n - xs.length) d

/-- Fold over 0 to n - 1. -/
def forN {σ : Type} (n : Nat) (s : σ) (f : Nat → σ → σ) : σ := (List.range n).foldl (fun s i => f i s) s

/-- Fold over a list. -/
def forL {α σ : Type} (xs : List α) (s : σ) (f : α → σ → σ) : σ := xs.foldl (fun s x => f x s) s

/-- Cut a list into groups of `n` (the last may be shorter); `fuel` bounds the number of groups. -/
def chunks {α : Type} (n : Nat) : Nat → List α → List (List α)
  | 0, _ => []
  | fuel + 1, xs => if xs.isEmpty then [] else xs.take n :: chunks n fuel (xs.drop n)

/-- Insert into a list sorted by a key, after equal keys. -/
def insertBy {α : Type} (key : α → Nat) (x : α) : List α → List α
  | [] => [x]
  | y :: rest => if key x < key y then x :: y :: rest else y :: insertBy key x rest

/-- Sort by a key, keeping the order of equal keys. -/
def sortBy {α : Type} (key : α → Nat) (xs : List α) : List α := xs.foldl (fun acc x => insertBy key x acc) []

/-! ### Little-endian fields (R3) -/

/-- The number a little-endian byte string spells. -/
def leNat (bs : List Byte) : Nat :=
  match bs with
  | [] => 0
  | b :: rest => b.toNat + 256 * leNat rest

/-- The number a big-endian byte string spells (fields of external standards). -/
def beNat (bs : List Byte) : Nat := leNat bs.reverse

/-- A number as `n` little-endian bytes. -/
def leBytes (n : Nat) (v : Nat) : List Byte :=
  match n with
  | 0 => []
  | n + 1 => BitVec.ofNat 8 (v % 256) :: leBytes n (v / 256)

/-- A number as `n` big-endian bytes. -/
def beBytes (n : Nat) (v : Nat) : List Byte := (leBytes n v).reverse

/-- Byte at an offset of a record. -/
def u8 (bs : List Byte) (o : Nat) : Nat := leNat (slice bs o 1)
/-- 16-bit field at an offset. -/
def u16 (bs : List Byte) (o : Nat) : Nat := leNat (slice bs o 2)
/-- 32-bit field at an offset. -/
def u32 (bs : List Byte) (o : Nat) : Nat := leNat (slice bs o 4)
/-- 64-bit field at an offset. -/
def u64 (bs : List Byte) (o : Nat) : Nat := leNat (slice bs o 8)
/-- 32-bit word at an offset. -/
def w32 (bs : List Byte) (o : Nat) : Word := BitVec.ofNat 32 (u32 bs o)

/-- True when the bytes in [o, o + n) are all zero. -/
def zeros (bs : List Byte) (o n : Nat) : Bool := (slice bs o n).all (· == 0)

/-- A word as four little-endian bytes. -/
def wordBytes (w : Word) : List Byte := leBytes 4 w.toNat

/-! ### Bit fields -/

/-- Bits [hi:lo] of a number. -/
def bits (v hi lo : Nat) : Nat := v / 2 ^ lo % 2 ^ (hi + 1 - lo)

/-- Bit `i` of a number. -/
def bit (v i : Nat) : Bool := v.testBit i

/-- Bits [hi:lo] of a word as a number. -/
def field (w : Word) (hi lo : Nat) : Nat := bits w.toNat hi lo

/-- A word with bits [hi:lo] replaced by `v` (taken modulo the field's width). -/
def setField (w : Word) (hi lo v : Nat) : Word :=
  let m := (BitVec.ofNat 32 (2 ^ (hi + 1 - lo) - 1)) <<< lo
  (w &&& ~~~ m) ||| (BitVec.ofNat 32 (v % 2 ^ (hi + 1 - lo)) <<< lo)

/-- Bit as a number. -/
def b2n (b : Bool) : Nat := if b then 1 else 0

/-- A list of words OR-ed together bit by bit is built with this: bit `i` set. -/
def bitMask (i : Nat) : Word := BitVec.ofNat 32 (2 ^ i)

/-- A 32-bit number read as signed. -/
def sx32 (v : Nat) : Int := (BitVec.ofNat 32 v).toInt

/-- A 64-bit number read as signed. -/
def sx64 (v : Nat) : Int := (BitVec.ofNat 64 v).toInt

/-- Saturating increment of an n-bit counter. -/
def satInc (n v : Nat) : Nat := if v + 1 < 2 ^ n then v + 1 else 2 ^ n - 1

/-- Saturating addition to an n-bit counter. -/
def satAdd (n v d : Nat) : Nat := if v + d < 2 ^ n then v + d else 2 ^ n - 1

/-! ### Quality (R8, R9) -/

/-- The code of a quality. -/
def qCode (q : Quality) : Nat :=
  match q with
  | .good => 0
  | .stale => 1
  | .subst => 2
  | .bad => 3

/-- The quality of a 2-bit code. -/
def qualityOf (n : Nat) : Quality :=
  match n % 4 with
  | 0 => .good
  | 1 => .stale
  | 2 => .subst
  | _ => .bad

/-- R9: the numerically largest quality code. -/
def qMax (a b : Quality) : Quality := if qCode a < qCode b then b else a

/-- R9 over a list. -/
def qMaxList (qs : List Quality) : Quality := qs.foldl qMax .good

/-! ### CRCs -/

/-- One bit of a reflected CRC of width 32. -/
def crcBit (poly : BitVec 32) (c : BitVec 32) : BitVec 32 :=
  if c.getLsbD 0 then (c >>> 1) ^^^ poly else c >>> 1

/-- Eight bits of a reflected CRC. -/
def crcByte (poly : BitVec 32) (c : BitVec 32) (b : Byte) : BitVec 32 :=
  let c0 := c ^^^ b.setWidth 32
  crcBit poly (crcBit poly (crcBit poly (crcBit poly (crcBit poly (crcBit poly (crcBit poly (crcBit poly c0)))))))

/-- CRC-32C of R42: Castagnoli 0x1EDC_6F41 reflected (0x82F6_3B78), initial value and final exclusive-or of ones. -/
def crc32c (bs : List Byte) : Word := ~~~ (bs.foldl (crcByte 0x82F63B78#32) 0xFFFFFFFF#32)

/-- The Ethernet frame check sequence: CRC-32 0x04C1_1DB7 reflected (0xEDB8_8320), the standard's own (PRESUMED from IEEE 802.3). -/
def crc32eth (bs : List Byte) : Word := ~~~ (bs.foldl (crcByte 0xEDB88320#32) 0xFFFFFFFF#32)

/-- One bit of the CRC-16 of R119 and R581. -/
def crc16Bit (c : BitVec 16) : BitVec 16 := if c.getLsbD 15 then (c <<< 1) ^^^ 0x1021#16 else c <<< 1

/-- CRC-16/CCITT of R119 and R581: polynomial 0x1021, initial value 0xFFFF, no reflection, no final exclusive-or. -/
def crc16 (bs : List Byte) : BitVec 16 :=
  bs.foldl (fun c b =>
    let d : BitVec 16 := b.setWidth 16
    (List.range 8).foldl (fun x _ => crc16Bit x) (c ^^^ (d <<< (8 : Nat)))) 0xFFFF#16

/-- True when bytes are pairwise equal and equally many. -/
def bytesEq (a b : List Byte) : Bool := a == b

/-! ### The memories (R473, R477) -/

/-- R473, R477, R489: the lines of memory `k`: of system SRAM, the factor store, the pattern store, the parcel store, the
capture buffer, the event buffer, and the local memory of an engine. -/
def memLines (k : Nat) : Nat :=
  match k with
  | 0 => 65536
  | 1 => 262144
  | 2 => 65536
  | 3 => 32768
  | 4 => 8192
  | 5 => 1024
  | _ => 2048

/-- R477: system SRAM and the factor store have the check banks P and Q beside their sixteen data banks. -/
def memBanks (k : Nat) : Nat := if k < 2 then 18 else 16

end Sys2Proof.Machine
end

