-- ==== Sys2Proof/Machine/Flags.lean ====
section
/-! DEFINITION. Binary32 arithmetic of R225, R321 and R322: rounding to nearest with ties to even, subnormal operands
and results replaced by zero of the same sign, one rounding for a fused multiply-add, NaN results 0x7FC0_0000, and the
four sticky flags. Results are exact integers times powers of two, rounded once at the end. -/

namespace Sys2Proof.Machine

/-- The sticky flags of R322. -/
structure FFlags where
  invalid : Bool := false
  divZero : Bool := false
  overflow : Bool := false
  flushed : Bool := false
  deriving DecidableEq, Repr, Inhabited

/-- Either set of flags. -/
def FFlags.or (a b : FFlags) : FFlags :=
  ⟨a.invalid || b.invalid, a.divZero || b.divZero, a.overflow || b.overflow, a.flushed || b.flushed⟩

/-- The flags as bits 0 to 3 (R322). -/
def FFlags.word (a : FFlags) : Word :=
  BitVec.ofNat 32 (b2n a.invalid + 2 * b2n a.divZero + 4 * b2n a.overflow + 8 * b2n a.flushed)

/-- Sign bit. -/
def f32Neg (w : Word) : Bool := w.getLsbD 31
/-- Exponent field. -/
def f32Exp (w : Word) : Nat := field w 30 23
/-- Fraction field. -/
def f32Frac (w : Word) : Nat := field w 22 0
/-- Not a number. -/
def f32IsNaN (w : Word) : Bool := f32Exp w == 255 && f32Frac w != 0
/-- An infinity. -/
def f32IsInf (w : Word) : Bool := f32Exp w == 255 && f32Frac w == 0
/-- Finite. -/
def f32IsFin (w : Word) : Bool := f32Exp w != 255
/-- Subnormal and not zero. -/
def f32IsSub (w : Word) : Bool := f32Exp w == 0 && f32Frac w != 0
/-- Zero of a sign. -/
def f32Zero (neg : Bool) : Word := if neg then 0x80000000#32 else 0#32
/-- Infinity of a sign. -/
def f32Inf (neg : Bool) : Word := if neg then 0xFF800000#32 else 0x7F800000#32
/-- The one NaN result of R322. -/
def f32NaN : Word := 0x7FC00000#32

/-- R225: a subnormal operand becomes zero of the same sign. -/
def f32Ftz (w : Word) : Word := if f32IsSub w then f32Zero (f32Neg w) else w

/-- Integer significand of a finite value: value = m × 2^e. -/
def f32Mant (w : Word) : Nat := if f32Exp w = 0 then f32Frac w else f32Frac w + 2 ^ 23
/-- Exponent of that significand. -/
def f32Scale (w : Word) : Int := if f32Exp w = 0 then -149 else (f32Exp w : Int) - 150

/-- 2 to an integer power. -/
def ratPow2 (e : Int) : Rat := if 0 ≤ e then ((2 ^ e.toNat : Nat) : Rat) else 1 / ((2 ^ (-e).toNat : Nat) : Rat)

/-- The exact value of a finite binary32 number; none for an infinity or NaN. -/
def f32Rat (w : Word) : Option Rat :=
  if f32IsFin w then
    let v := (f32Mant w : Rat) * ratPow2 (f32Scale w)
    some (if f32Neg w then -v else v)
  else none

/-- The exact value, zero for an infinity or NaN. -/
def f32RatD (w : Word) : Rat := (f32Rat w).getD 0

/-- Round ±m × 2^e (plus something below the last unit when `sticky`) to binary32 (R225), with overflow and flush
flags. `m = 0` without sticky is an exact zero. -/
def f32Round (neg : Bool) (m : Nat) (e : Int) (sticky : Bool) : Word × FFlags :=
  if m = 0 then (f32Zero neg, { flushed := sticky })
  else
    let top : Int := (Nat.log2 m : Int) + e
    let q : Int := max (top - 23) (-149)
    let d := q - e
    let r : Nat :=
      if d ≤ 0 then m * 2 ^ (-d).toNat
      else
        let dd := d.toNat
        let k := m / 2 ^ dd
        let rem := m % 2 ^ dd
        let half := 2 ^ (dd - 1)
        if half < rem || (rem == half && (sticky || k % 2 == 1)) then k + 1 else k
    -- value r × 2^q, r at most 2^24
    let (r, q) := if r = 2 ^ 24 then (2 ^ 23, q + 1) else (r, q)
    if r < 2 ^ 23 then (f32Zero neg, { flushed := true })
    else
      let ex := q + 150
      if 255 ≤ ex then (f32Inf neg, { overflow := true })
      else (BitVec.ofNat 32 ((if neg then 2 ^ 31 else 0) + ex.toNat * 2 ^ 23 + (r - 2 ^ 23)), {})

/-- The flag of subnormal operands. -/
def f32OpFlags (ws : List Word) : FFlags := { flushed := ws.any f32IsSub }

/-- A signed significand over a common exponent. -/
def f32Signed (w : Word) : Int := if f32Neg w then -(f32Mant w : Int) else (f32Mant w : Int)

/-- Round a signed exact value n × 2^e; an exact zero has sign `zneg`. -/
def f32RoundInt (n : Int) (e : Int) (zneg : Bool) : Word × FFlags :=
  if n = 0 then (f32Zero zneg, {}) else f32Round (n < 0) n.natAbs e false

/-- a × b + c with one rounding; operands already flushed. -/
def f32FmaCore (a b c : Word) : Word × FFlags :=
  if f32IsNaN a || f32IsNaN b || f32IsNaN c then (f32NaN, {})
  else
    let pn := f32Neg a != f32Neg b
    let za := f32Mant a == 0 && f32IsFin a
    let zb := f32Mant b == 0 && f32IsFin b
    if f32IsInf a || f32IsInf b then
      if za || zb then (f32NaN, { invalid := true })
      else if f32IsInf c && f32Neg c != pn then (f32NaN, { invalid := true })
      else (f32Inf pn, {})
    else if f32IsInf c then (c, {})
    else
      let ep := f32Scale a + f32Scale b
      let ec := f32Scale c
      let e := min ep ec
      let n := f32Signed a * f32Signed b * ((2 ^ (ep - e).toNat : Nat) : Int) +
        f32Signed c * ((2 ^ (ec - e).toNat : Nat) : Int)
      f32RoundInt n e (pn && f32Neg c)

/-- FMADD: a × b + c. -/
def f32Fma (a b c : Word) : Word × FFlags :=
  let r := f32FmaCore (f32Ftz a) (f32Ftz b) (f32Ftz c)
  (r.1, r.2.or (f32OpFlags [a, b, c]))

/-- FADD. -/
def f32Add (a b : Word) : Word × FFlags :=
  let a' := f32Ftz a
  let b' := f32Ftz b
  let fl := f32OpFlags [a, b]
  if f32IsNaN a' || f32IsNaN b' then (f32NaN, fl)
  else if f32IsInf a' then
    if f32IsInf b' && f32Neg a' != f32Neg b' then (f32NaN, fl.or { invalid := true }) else (a', fl)
  else if f32IsInf b' then (b', fl)
  else
    let e := min (f32Scale a') (f32Scale b')
    let n := f32Signed a' * ((2 ^ (f32Scale a' - e).toNat : Nat) : Int) +
      f32Signed b' * ((2 ^ (f32Scale b' - e).toNat : Nat) : Int)
    let r := f32RoundInt n e (f32Neg a' && f32Neg b')
    (r.1, r.2.or fl)

/-- The sign bit inverted. -/
def f32Flip (w : Word) : Word := w ^^^ 0x80000000#32

/-- FSUB. -/
def f32Sub (a b : Word) : Word × FFlags := if f32IsNaN b then f32Add a b else f32Add a (f32Flip b)

/-- FMUL. -/
def f32Mul (a b : Word) : Word × FFlags :=
  let a' := f32Ftz a
  let b' := f32Ftz b
  let fl := f32OpFlags [a, b]
  let sn := f32Neg a' != f32Neg b'
  if f32IsNaN a' || f32IsNaN b' then (f32NaN, fl)
  else if f32IsInf a' || f32IsInf b' then
    if (f32IsFin a' && f32Mant a' == 0) || (f32IsFin b' && f32Mant b' == 0) then (f32NaN, fl.or { invalid := true })
    else (f32Inf sn, fl)
  else
    let r := f32Round sn (f32Mant a' * f32Mant b') (f32Scale a' + f32Scale b') false
    (r.1, r.2.or fl)

/-- FDIV. -/
def f32Div (a b : Word) : Word × FFlags :=
  let a' := f32Ftz a
  let b' := f32Ftz b
  let fl := f32OpFlags [a, b]
  let sn := f32Neg a' != f32Neg b'
  if f32IsNaN a' || f32IsNaN b' then (f32NaN, fl)
  else if f32IsInf a' then
    if f32IsInf b' then (f32NaN, fl.or { invalid := true }) else (f32Inf sn, fl)
  else if f32IsInf b' then (f32Zero sn, fl)
  else if f32Mant b' = 0 then
    if f32Mant a' = 0 then (f32NaN, fl.or { invalid := true }) else (f32Inf sn, fl.or { divZero := true })
  else if f32Mant a' = 0 then (f32Zero sn, fl)
  else
    let num := f32Mant a' * 2 ^ 32
    let r := f32Round sn (num / f32Mant b') (f32Scale a' - f32Scale b' - 32) (num % f32Mant b' != 0)
    (r.1, r.2.or fl)

/-- The bits of a square root from the top one down: the largest r with r² ≤ n below 2^fuel. -/
def isqrtBits : Nat → Nat → Nat → Nat
  | 0, _, r => r
  | fuel + 1, n, r =>
    let t := r + 2 ^ fuel
    isqrtBits fuel n (if t * t ≤ n then t else r)

/-- FSQRT. -/
def f32Sqrt (a : Word) : Word × FFlags :=
  let a' := f32Ftz a
  let fl := f32OpFlags [a]
  if f32IsNaN a' then (f32NaN, fl)
  else if f32IsFin a' && f32Mant a' == 0 then (a', fl)
  else if f32Neg a' then (f32NaN, fl.or { invalid := true })
  else if f32IsInf a' then (a', fl)
  else
    let e := f32Scale a'
    let odd := e % 2 != 0
    let m := f32Mant a' * (if odd then 2 else 1) * 2 ^ 30
    let e' := (if odd then e - 1 else e) - 30
    let r := isqrtBits 28 m 0
    let x := f32Round false r (e' / 2) (r * r != m)
    (x.1, x.2.or fl)

/-- a < b for numbers (no NaN), operands flushed. -/
def f32LtNum (a b : Word) : Bool :=
  if f32IsInf a then f32Neg a && !(f32IsInf b && f32Neg b)
  else if f32IsInf b then !f32Neg b
  else
    let e := min (f32Scale a) (f32Scale b)
    decide (f32Signed a * ((2 ^ (f32Scale a - e).toNat : Nat) : Int) <
      f32Signed b * ((2 ^ (f32Scale b - e).toNat : Nat) : Int))

/-- FLT as a truth value (a NaN gives false). -/
def f32Lt (a b : Word) : Bool := !f32IsNaN a && !f32IsNaN b && f32LtNum (f32Ftz a) (f32Ftz b)
/-- FLE as a truth value. -/
def f32Le (a b : Word) : Bool := !f32IsNaN a && !f32IsNaN b && !f32LtNum (f32Ftz b) (f32Ftz a)
/-- FEQ as a truth value. -/
def f32Eq (a b : Word) : Bool :=
  !f32IsNaN a && !f32IsNaN b && !f32LtNum (f32Ftz a) (f32Ftz b) && !f32LtNum (f32Ftz b) (f32Ftz a)

/-- FMIN (`mx` false) and FMAX (`mx` true): a NaN operand yields the other; which of two zeros of different sign comes
out is open. -/
def f32MinMax (mx : Bool) (a b : Word) : Word × FFlags :=
  let a' := f32Ftz a
  let b' := f32Ftz b
  let fl := f32OpFlags [a, b]
  if f32IsNaN a' then (if f32IsNaN b' then f32NaN else b', fl)
  else if f32IsNaN b' then (a', fl)
  else if f32LtNum a' b' then (if mx then b' else a', fl)
  else if f32LtNum b' a' then (if mx then a' else b', fl)
  else if a' = b' then (a', fl)
  else (if Config.zeroFirst a' b' then a' else b', fl)

/-- FCLAMP: FMIN(FMAX(d, a), b). -/
def f32Clamp (d a b : Word) : Word × FFlags :=
  let x := f32MinMax true d a
  let y := f32MinMax false x.1 b
  (y.1, x.2.or y.2)

/-- FCVT.WS: towards zero, saturated; NaN gives 0. -/
def f32ToInt (a : Word) : Word × FFlags :=
  let a' := f32Ftz a
  let fl := f32OpFlags [a]
  if f32IsNaN a' then (0#32, fl.or { invalid := true })
  else if f32IsInf a' then (if f32Neg a' then 0x80000000#32 else 0x7FFFFFFF#32, fl.or { invalid := true })
  else
    let e := f32Scale a'
    let m := if 0 ≤ e then f32Mant a' * 2 ^ e.toNat else f32Mant a' / 2 ^ (-e).toNat
    if f32Neg a' then
      if 2 ^ 31 < m then (0x80000000#32, fl.or { invalid := true }) else (BitVec.ofInt 32 (-(m : Int)), fl)
    else if 2 ^ 31 ≤ m then (0x7FFFFFFF#32, fl.or { invalid := true }) else (BitVec.ofNat 32 m, fl)

/-- FCVT.SW. -/
def f32OfInt (a : Word) : Word × FFlags := f32RoundInt a.toInt 0 false

/-- An exact natural number as binary32 (rounded once). -/
def f32OfNat (n : Nat) : Word := (f32Round false n 0 false).1

/-- Binary32 of an exact real: itself when it is a binary32 number, else the device's own rounding, which the spec does
not state (log entry 3). -/
def f32OfRat (r : Rat) : Word :=
  let k := Nat.log2 r.den
  let w := (f32RoundInt r.num (-(k : Int)) false).1
  if r.den = 2 ^ k ∧ f32Rat w = some r then w else Config.roundF32 r

end Sys2Proof.Machine
end

