-- ==== Sys2Proof/Machine/Fluid.lean ====
section
/-! DEFINITION. The ROM fluid tables of R148 and the laws of resistance thermometers (R348). -/

namespace Sys2Proof.Machine

/-- R148: an entry of the ROM tables: property (0 density, 1 specific heat, 2 kinematic viscosity), fluid code
(0 water, 1 to 3 ethylene glycol 20 %, 30 %, 40 %), temperature in °C. The representative entries are the spec's; the
others are open (log entry 13). -/
def fluidEntry (prop fluid : Nat) (t : Int) : Rat :=
  let rows : List (Nat × Int × Rat × Rat × Rat) :=
    [(0, 10, 9997/10, 4192, 1306/1000), (0, 50, 988, 4181, 553/1000), (0, 80, 9718/10, 4197, 365/1000),
     (1, 10, 1030, 3900, 22/10), (1, 80, 1000, 4000, 55/100),
     (2, 10, 1045, 3740, 3), (2, 80, 1012, 3860, 7/10),
     (3, 10, 1060, 3570, 43/10), (3, 80, 1025, 3730, 85/100)]
  match rows.find? (fun r => r.1 == fluid && r.2.1 == t) with
  | some r => if prop = 0 then r.2.2.1 else if prop = 1 then r.2.2.2.1 else r.2.2.2.2
  | none => Config.fluid prop fluid t

/-- R148: linear interpolation at 1 K spacing, clamped to −20 °C and 150 °C. -/
def fluidAt (prop fluid : Nat) (t : Rat) : Rat :=
  if t ≤ -20 then fluidEntry prop fluid (-20)
  else if 150 ≤ t then fluidEntry prop fluid 150
  else
    let k := t.floor
    let a := fluidEntry prop fluid k
    if (k : Rat) = t then a else a + (t - k) * (fluidEntry prop fluid (k + 1) - a)

/-- R348: the law of an RTD of a range code (0 Pt100, 1 Pt500, 2 Pt1000, 3 Ni1000): resistance at a temperature. -/
def rtdLaw (range : Nat) (t : Rat) : Rat :=
  if range = 3 then
    1000 * (1 + 5485/1000000 * t + 665/100000000 * t ^ 2 + 2805/100000000000000 * t ^ 4
      - 2/100000000000000000 * t ^ 6)
  else
    let r0 : Rat := if range = 0 then 100 else if range = 1 then 500 else 1000
    let c : Rat := if t < 0 then -4183/1000000000000000 else 0
    r0 * (1 + 39083/10000000 * t + (-5775/10000000000) * t ^ 2 + c * (t - 100) * t ^ 3)

/-- R348: the span of a type. -/
def rtdSpan (range : Nat) : Rat × Rat := if range = 3 then (-60, 180) else (-200, 850)

/-- Halve a bracket of temperatures around the one whose law gives `r`. -/
def rtdBisect (range : Nat) (r : Rat) : Nat → Rat → Rat → Rat × Rat
  | 0, lo, hi => (lo, hi)
  | fuel + 1, lo, hi =>
    let m := (lo + hi) / 2
    if rtdLaw range m ≤ r then rtdBisect range r fuel m hi else rtdBisect range r fuel lo m

/-- R348: the temperature of a resistance inside the span: its ends exactly, else within 2⁻⁴⁸ of the span (where the
device's own inversion lies in that bracket is open, log entry 3). -/
def rtdTemp (range : Nat) (r : Rat) : Rat :=
  let sp := rtdSpan range
  if r = rtdLaw range sp.1 then sp.1
  else if r = rtdLaw range sp.2 then sp.2
  else
    let b := rtdBisect range r 48 sp.1 sp.2
    b.1 + (b.2 - b.1) * max 0 (min 1 (Config.inBracket range r))

end Sys2Proof.Machine
end

