-- ==== Sys2Proof/Machine/RegTable.lean ====
section
/-! DEFINITION. The register map: every host register of the spec's register tables with its address (block id
times 0x1_0000 plus the offset), its repetition, and its fields with access type (R5) and reset value. The rule of
each register stands in the comment above it. Fields the spec gives no reset value for have 0 (DESIGN CHOICE, log
entry 8). -/

namespace Sys2Proof.Machine

/-- The access types of R5. -/
inductive FType where
  | ro
  | rw
  | rwh
  | w1c
  | wo
  deriving DecidableEq, Repr

/-- One field of a register. -/
structure FieldDef where
  name : String
  hi : Nat
  lo : Nat
  type : FType
  reset : Nat
  deriving DecidableEq, Repr

/-- A register, or a bank of `n1` registers with stride `s1` (times `n2` with stride `s2`). -/
structure RegDef where
  name : String
  base : Nat
  n1 : Nat
  s1 : Nat
  n2 : Nat
  s2 : Nat
  fields : List FieldDef
  deriving DecidableEq, Repr

/-- DEV_ID, R30. -/
abbrev Reg.DEV_ID : Nat := 0x00000
/-- DEV_STATE, R31. -/
abbrev Reg.DEV_STATE : Nat := 0x00004
/-- DEV_CMD, R32. -/
abbrev Reg.DEV_CMD : Nat := 0x00008
/-- DEV_CAUSE, R34. -/
abbrev Reg.DEV_CAUSE : Nat := 0x0000C
/-- DEV_HEADWAY, R35. -/
abbrev Reg.DEV_HEADWAY : Nat := 0x00010
/-- DEV_PHASE, R36. -/
abbrev Reg.DEV_PHASE : Nat := 0x00014
/-- DEV_LATE, R37. -/
abbrev Reg.DEV_LATE : Nat := 0x00018
/-- DEV_PLAN0, R38. -/
abbrev Reg.DEV_PLAN0 : Nat := 0x0001C
/-- DEV_PLAN1, R38. -/
abbrev Reg.DEV_PLAN1 : Nat := 0x00020
/-- DEV_PLAN2, R38. -/
abbrev Reg.DEV_PLAN2 : Nat := 0x00024
/-- DEV_TT_SLOTA, R83. -/
abbrev Reg.DEV_TT_SLOTA : Nat := 0x00028
/-- DEV_TT_SLOTB, R83. -/
abbrev Reg.DEV_TT_SLOTB : Nat := 0x0002C
/-- DEV_TT_IDXA, R84. -/
abbrev Reg.DEV_TT_IDXA : Nat := 0x00030
/-- DEV_TT_IDXB, R84. -/
abbrev Reg.DEV_TT_IDXB : Nat := 0x00034
/-- DEV_TT_SERIAL, R85. -/
abbrev Reg.DEV_TT_SERIAL : Nat := 0x00038
/-- DEV_TT_DIGEST, R86. -/
abbrev Reg.DEV_TT_DIGEST : Nat := 0x00040
/-- DEV_TT_PTR, R87. -/
abbrev Reg.DEV_TT_PTR : Nat := 0x00070
/-- PWR_STAT, R427. -/
abbrev Reg.PWR_STAT : Nat := 0x10000
/-- PWR_CAUSE, R427. -/
abbrev Reg.PWR_CAUSE : Nat := 0x10004
/-- PWR_CTL, R427. -/
abbrev Reg.PWR_CTL : Nat := 0x10008
/-- PWR_PFW, R427. -/
abbrev Reg.PWR_PFW : Nat := 0x1000C
/-- PWR_SAVE, R427. -/
abbrev Reg.PWR_SAVE : Nat := 0x10010
/-- PWR_CUT, R427. -/
abbrev Reg.PWR_CUT : Nat := 0x10018
/-- PWR_RSTTIME, R427. -/
abbrev Reg.PWR_RSTTIME : Nat := 0x1001C
/-- PWR_TICK_LO, R427. -/
abbrev Reg.PWR_TICK_LO : Nat := 0x10020
/-- PWR_TICK_HI, R427. -/
abbrev Reg.PWR_TICK_HI : Nat := 0x10024
/-- PWR_DOM, R428. -/
abbrev Reg.PWR_DOM : Nat := 0x10044
/-- PWR_E_HW, R429. -/
abbrev Reg.PWR_E_HW : Nat := 0x10100
/-- PWR_E_HYD, R429. -/
abbrev Reg.PWR_E_HYD : Nat := 0x10104
/-- PWR_E_HWG, R429. -/
abbrev Reg.PWR_E_HWG : Nat := 0x10110
/-- PWR_E_TOT_LO, R429. -/
abbrev Reg.PWR_E_TOT_LO : Nat := 0x10140
/-- PWR_E_TOT_HI, R429. -/
abbrev Reg.PWR_E_TOT_HI : Nat := 0x10144
/-- PWR_NET_CTL, R430. -/
abbrev Reg.PWR_NET_CTL : Nat := 0x10200
/-- PWR_NET_PER, R430. -/
abbrev Reg.PWR_NET_PER : Nat := 0x10204
/-- PWR_NET_DAY, R430. -/
abbrev Reg.PWR_NET_DAY : Nat := 0x10208
/-- PWR_NET_Q, R430. -/
abbrev Reg.PWR_NET_Q : Nat := 0x1020C
/-- PWR_NET_PRIM, R430. -/
abbrev Reg.PWR_NET_PRIM : Nat := 0x10210
/-- PWR_NET_PUMP, R430. -/
abbrev Reg.PWR_NET_PUMP : Nat := 0x10214
/-- PWR_NET_DELIV, R430. -/
abbrev Reg.PWR_NET_DELIV : Nat := 0x10218
/-- PWR_NLS_REF, R431. -/
abbrev Reg.PWR_NLS_REF : Nat := 0x10300
/-- PWR_NLS_FAC, R431. -/
abbrev Reg.PWR_NLS_FAC : Nat := 0x10304
/-- PWR_NLS_CFG, R431. -/
abbrev Reg.PWR_NLS_CFG : Nat := 0x10308
/-- PWR_SNAP_STAT, R432. -/
abbrev Reg.PWR_SNAP_STAT : Nat := 0x10400
/-- PWR_SNAP_E_LO, R432. -/
abbrev Reg.PWR_SNAP_E_LO : Nat := 0x10404
/-- PWR_SNAP_E_HI, R432. -/
abbrev Reg.PWR_SNAP_E_HI : Nat := 0x10408
/-- PWR_SNAP_TICK_LO, R432. -/
abbrev Reg.PWR_SNAP_TICK_LO : Nat := 0x1040C
/-- PWR_SNAP_TICK_HI, R432. -/
abbrev Reg.PWR_SNAP_TICK_HI : Nat := 0x10410
/-- JNL_STAT, R469. -/
abbrev Reg.JNL_STAT : Nat := 0x20000
/-- JNL_CAUSE, R469. -/
abbrev Reg.JNL_CAUSE : Nat := 0x20004
/-- JNL_SEQ_LO, R469. -/
abbrev Reg.JNL_SEQ_LO : Nat := 0x20008
/-- JNL_SEQ_HI, R469. -/
abbrev Reg.JNL_SEQ_HI : Nat := 0x2000C
/-- JNL_CNT, R469. -/
abbrev Reg.JNL_CNT : Nat := 0x20010
/-- JNL_CNT2, R469. -/
abbrev Reg.JNL_CNT2 : Nat := 0x20014
/-- JNL_TX_CMD, R470. -/
abbrev Reg.JNL_TX_CMD : Nat := 0x20020
/-- JNL_TX_STAT, R470. -/
abbrev Reg.JNL_TX_STAT : Nat := 0x20024
/-- JNL_TX_FAIL, R470. -/
abbrev Reg.JNL_TX_FAIL : Nat := 0x20028
/-- JNL_TX_ID, R470. -/
abbrev Reg.JNL_TX_ID : Nat := 0x2002C
/-- JNL_TX_IDLE, R470. -/
abbrev Reg.JNL_TX_IDLE : Nat := 0x20030
/-- JNL_TX_BOUND, R470. -/
abbrev Reg.JNL_TX_BOUND : Nat := 0x20034
/-- JNL_PS_KEY, R471. -/
abbrev Reg.JNL_PS_KEY : Nat := 0x20040
/-- JNL_PS_CMD, R471. -/
abbrev Reg.JNL_PS_CMD : Nat := 0x20050
/-- JNL_PS_STAT, R471. -/
abbrev Reg.JNL_PS_STAT : Nat := 0x20054
/-- JNL_PS_FAIL, R471. -/
abbrev Reg.JNL_PS_FAIL : Nat := 0x20060
/-- JNL_PS_CNT, R471. -/
abbrev Reg.JNL_PS_CNT : Nat := 0x20070
/-- JNL_SNAP_SEQ_LO, R472. -/
abbrev Reg.JNL_SNAP_SEQ_LO : Nat := 0x20080
/-- JNL_SNAP_SEQ_HI, R472. -/
abbrev Reg.JNL_SNAP_SEQ_HI : Nat := 0x20084
/-- JNL_SNAP_TX, R472. -/
abbrev Reg.JNL_SNAP_TX : Nat := 0x20088
/-- MEM_STAT, R489. -/
abbrev Reg.MEM_STAT : Nat := 0x30000
/-- MEM_CAUSE, R489. -/
abbrev Reg.MEM_CAUSE : Nat := 0x30004
/-- MEM_CTL, R489. -/
abbrev Reg.MEM_CTL : Nat := 0x30008
/-- MEM_M_CNT, R490. -/
abbrev Reg.MEM_M_CNT : Nat := 0x30100
/-- MEM_M_UNC, R490. -/
abbrev Reg.MEM_M_UNC : Nat := 0x30104
/-- MEM_M_ADDR, R490. -/
abbrev Reg.MEM_M_ADDR : Nat := 0x30108
/-- MEM_BIST_M, R490. -/
abbrev Reg.MEM_BIST_M : Nat := 0x3010C
/-- MEM_BIST_CHK, R490. -/
abbrev Reg.MEM_BIST_CHK : Nat := 0x301F0
/-- MEM_IMG_BASE, R491. -/
abbrev Reg.MEM_IMG_BASE : Nat := 0x30200
/-- MEM_IMG_SIZE, R491. -/
abbrev Reg.MEM_IMG_SIZE : Nat := 0x30204
/-- MEM_IMG_GEN, R491. -/
abbrev Reg.MEM_IMG_GEN : Nat := 0x30208
/-- MEM_SNAP_CNT, R492. -/
abbrev Reg.MEM_SNAP_CNT : Nat := 0x30300
/-- MEM_SNAP_UNC, R492. -/
abbrev Reg.MEM_SNAP_UNC : Nat := 0x30304
/-- SLK_CTL, R134. -/
abbrev Reg.SLK_CTL : Nat := 0x40000
/-- SLK_STAT, R135. -/
abbrev Reg.SLK_STAT : Nat := 0x40004
/-- SLK_EPOCH, R136. -/
abbrev Reg.SLK_EPOCH : Nat := 0x40008
/-- SLK_RUNID, R136. -/
abbrev Reg.SLK_RUNID : Nat := 0x4000C
/-- SLK_JOIN_LIM, R137. -/
abbrev Reg.SLK_JOIN_LIM : Nat := 0x40010
/-- SLK_CAUSE, R138. -/
abbrev Reg.SLK_CAUSE : Nat := 0x40014
/-- SLK_THRU_OFS, R139. -/
abbrev Reg.SLK_THRU_OFS : Nat := 0x40018
/-- SLK_THRU_STAT, R139. -/
abbrev Reg.SLK_THRU_STAT : Nat := 0x4001C
/-- SLK_PRES, R140. -/
abbrev Reg.SLK_PRES : Nat := 0x40100
/-- SLK_ABS, R140. -/
abbrev Reg.SLK_ABS : Nat := 0x40200
/-- SLK_LSTAT, R141. -/
abbrev Reg.SLK_LSTAT : Nat := 0x40400
/-- SLK_LTRAIN, R141. -/
abbrev Reg.SLK_LTRAIN : Nat := 0x40404
/-- SLK_LRT, R141. -/
abbrev Reg.SLK_LRT : Nat := 0x40408
/-- SLK_LRTMAX, R141. -/
abbrev Reg.SLK_LRTMAX : Nat := 0x4040C
/-- SLK_LCNT_TX, R141. -/
abbrev Reg.SLK_LCNT_TX : Nat := 0x40410
/-- SLK_LCNT_RX, R141. -/
abbrev Reg.SLK_LCNT_RX : Nat := 0x40414
/-- SLK_LCNT_FCS, R141. -/
abbrev Reg.SLK_LCNT_FCS : Nat := 0x40418
/-- SLK_LCNT_LOST, R141. -/
abbrev Reg.SLK_LCNT_LOST : Nat := 0x4041C
/-- SLK_LCNT_MAC, R141. -/
abbrev Reg.SLK_LCNT_MAC : Nat := 0x40420
/-- SLK_LCNT_DROP, R141. -/
abbrev Reg.SLK_LCNT_DROP : Nat := 0x40424
/-- SLK_STN_SEL, R142. -/
abbrev Reg.SLK_STN_SEL : Nat := 0x40600
/-- SLK_STN_INFO, R142. -/
abbrev Reg.SLK_STN_INFO : Nat := 0x40604
/-- SLK_STN_LAST, R142. -/
abbrev Reg.SLK_STN_LAST : Nat := 0x40608
/-- SLK_STN_ERR, R142. -/
abbrev Reg.SLK_STN_ERR : Nat := 0x4060C
/-- SLK_SNAP_L, R143. -/
abbrev Reg.SLK_SNAP_L : Nat := 0x40700
/-- SLK_SNAP_PRES, R143. -/
abbrev Reg.SLK_SNAP_PRES : Nat := 0x40720
/-- HYD_CTL, R176. -/
abbrev Reg.HYD_CTL : Nat := 0x50000
/-- HYD_QTOL, R177. -/
abbrev Reg.HYD_QTOL : Nat := 0x50004
/-- HYD_HTOL, R177. -/
abbrev Reg.HYD_HTOL : Nat := 0x50008
/-- HYD_STAT, R178. -/
abbrev Reg.HYD_STAT : Nat := 0x5000C
/-- HYD_CAUSE, R179. -/
abbrev Reg.HYD_CAUSE : Nat := 0x50010
/-- HYD_TIME, R180. -/
abbrev Reg.HYD_TIME : Nat := 0x50014
/-- HYD_TIMEMAX, R180. -/
abbrev Reg.HYD_TIMEMAX : Nat := 0x50018
/-- HYD_CNT, R180. -/
abbrev Reg.HYD_CNT : Nat := 0x5001C
/-- HYD_RES_P, R180. -/
abbrev Reg.HYD_RES_P : Nat := 0x50020
/-- HYD_RES_Q, R180. -/
abbrev Reg.HYD_RES_Q : Nat := 0x50024
/-- HYD_RLIM_P, R180. -/
abbrev Reg.HYD_RLIM_P : Nat := 0x50028
/-- HYD_RLIM_Q, R180. -/
abbrev Reg.HYD_RLIM_Q : Nat := 0x5002C
/-- HYD_RLIM_N, R180. -/
abbrev Reg.HYD_RLIM_N : Nat := 0x50030
/-- HYD_SNAP_STAT, R180. -/
abbrev Reg.HYD_SNAP_STAT : Nat := 0x50040
/-- HYD_SNAP_HW, R180. -/
abbrev Reg.HYD_SNAP_HW : Nat := 0x50044
/-- FTR_CTL, R181. -/
abbrev Reg.FTR_CTL : Nat := 0x60000
/-- FTR_STAT, R182. -/
abbrev Reg.FTR_STAT : Nat := 0x60004
/-- FTR_WMAX, R183. -/
abbrev Reg.FTR_WMAX : Nat := 0x60008
/-- FTR_TOL, R183. -/
abbrev Reg.FTR_TOL : Nat := 0x6000C
/-- FTR_CAUSE, R183. -/
abbrev Reg.FTR_CAUSE : Nat := 0x60010
/-- FTR_TIME, R183. -/
abbrev Reg.FTR_TIME : Nat := 0x60014
/-- FTR_TIMEMAX, R183. -/
abbrev Reg.FTR_TIMEMAX : Nat := 0x60018
/-- FTR_SNAP_WAGONS, R183. -/
abbrev Reg.FTR_SNAP_WAGONS : Nat := 0x60040
/-- OPT_CTL, R222. -/
abbrev Reg.OPT_CTL : Nat := 0x70000
/-- OPT_STAT, R222. -/
abbrev Reg.OPT_STAT : Nat := 0x70004
/-- OPT_CAUSE, R222. -/
abbrev Reg.OPT_CAUSE : Nat := 0x70008
/-- OPT_COVER, R223. -/
abbrev Reg.OPT_COVER : Nat := 0x7000C
/-- OPT_COVTH, R223. -/
abbrev Reg.OPT_COVTH : Nat := 0x70010
/-- OPT_EPS_P, R223. -/
abbrev Reg.OPT_EPS_P : Nat := 0x70014
/-- OPT_EPS_D, R223. -/
abbrev Reg.OPT_EPS_D : Nat := 0x70018
/-- OPT_EPS_G, R223. -/
abbrev Reg.OPT_EPS_G : Nat := 0x7001C
/-- OPT_ACC, R223. -/
abbrev Reg.OPT_ACC : Nat := 0x70020
/-- OPT_REG, R223. -/
abbrev Reg.OPT_REG : Nat := 0x70024
/-- OPT_LAG, R223. -/
abbrev Reg.OPT_LAG : Nat := 0x70028
/-- OPT_LOCAL, R223. -/
abbrev Reg.OPT_LOCAL : Nat := 0x7002C
/-- OPT_KEY, R223. -/
abbrev Reg.OPT_KEY : Nat := 0x70030
/-- OPT_TIME, R223. -/
abbrev Reg.OPT_TIME : Nat := 0x70034
/-- OPT_TIMEMAX, R223. -/
abbrev Reg.OPT_TIMEMAX : Nat := 0x70038
/-- OPT_ENERGY, R223. -/
abbrev Reg.OPT_ENERGY : Nat := 0x7003C
/-- OPT_STEP0, R223. -/
abbrev Reg.OPT_STEP0 : Nat := 0x70040
/-- OPT_MERIT, R223. -/
abbrev Reg.OPT_MERIT : Nat := 0x70044
/-- OPT_CNT, R223. -/
abbrev Reg.OPT_CNT : Nat := 0x70048
/-- OPT_FAIL, R223. -/
abbrev Reg.OPT_FAIL : Nat := 0x7004C
/-- OPT_ULIST, R223. -/
abbrev Reg.OPT_ULIST : Nat := 0x70050
/-- OPT_SNAP_STAT, R223. -/
abbrev Reg.OPT_SNAP_STAT : Nat := 0x70080
/-- OPT_SNAP_STEP, R223. -/
abbrev Reg.OPT_SNAP_STEP : Nat := 0x70084
/-- OPT_FC_STEP, R224. -/
abbrev Reg.OPT_FC_STEP : Nat := 0x70200
/-- OPT_FC_CTL, R224. -/
abbrev Reg.OPT_FC_CTL : Nat := 0x70204
/-- OPT_FC_DATA, R224. -/
abbrev Reg.OPT_FC_DATA : Nat := 0x78000
/-- SLV_CTL, R250. -/
abbrev Reg.SLV_CTL : Nat := 0x80000
/-- SLV_TAU, R250. -/
abbrev Reg.SLV_TAU : Nat := 0x80004
/-- SLV_DPIV, R250. -/
abbrev Reg.SLV_DPIV : Nat := 0x80008
/-- SLV_RTOL, R250. -/
abbrev Reg.SLV_RTOL : Nat := 0x8000C
/-- SLV_STAT, R250. -/
abbrev Reg.SLV_STAT : Nat := 0x80010
/-- SLV_CAUSE, R250. -/
abbrev Reg.SLV_CAUSE : Nat := 0x80014
/-- SLV_HYD_RES, R251. -/
abbrev Reg.SLV_HYD_RES : Nat := 0x80020
/-- SLV_HYD_PIV, R251. -/
abbrev Reg.SLV_HYD_PIV : Nat := 0x80024
/-- SLV_HYD_PIVIDX, R251. -/
abbrev Reg.SLV_HYD_PIVIDX : Nat := 0x80028
/-- SLV_HYD_FAILIDX, R251. -/
abbrev Reg.SLV_HYD_FAILIDX : Nat := 0x8002C
/-- SLV_HYD_RESID, R251. -/
abbrev Reg.SLV_HYD_RESID : Nat := 0x80030
/-- SLV_HYD_TFAC, R251. -/
abbrev Reg.SLV_HYD_TFAC : Nat := 0x80034
/-- SLV_HYD_TSOL, R251. -/
abbrev Reg.SLV_HYD_TSOL : Nat := 0x80038
/-- SLV_HYD_CNT, R251. -/
abbrev Reg.SLV_HYD_CNT : Nat := 0x8003C
/-- SLV_OPT_RES, R251. -/
abbrev Reg.SLV_OPT_RES : Nat := 0x80040
/-- SLV_OPT_PIV, R251. -/
abbrev Reg.SLV_OPT_PIV : Nat := 0x80044
/-- SLV_OPT_PIVIDX, R251. -/
abbrev Reg.SLV_OPT_PIVIDX : Nat := 0x80048
/-- SLV_OPT_FAILIDX, R251. -/
abbrev Reg.SLV_OPT_FAILIDX : Nat := 0x8004C
/-- SLV_OPT_RESID, R251. -/
abbrev Reg.SLV_OPT_RESID : Nat := 0x80050
/-- SLV_OPT_TFAC, R251. -/
abbrev Reg.SLV_OPT_TFAC : Nat := 0x80054
/-- SLV_OPT_TSOL, R251. -/
abbrev Reg.SLV_OPT_TSOL : Nat := 0x80058
/-- SLV_OPT_CNT, R251. -/
abbrev Reg.SLV_OPT_CNT : Nat := 0x8005C
/-- SLV_HROUTE, R252. -/
abbrev Reg.SLV_HROUTE : Nat := 0x8007C
/-- SLV_OROUTE, R252. -/
abbrev Reg.SLV_OROUTE : Nat := 0x80080
/-- SLV_FILL, R252. -/
abbrev Reg.SLV_FILL : Nat := 0x800C0
/-- SLV_PATFILL, R252. -/
abbrev Reg.SLV_PATFILL : Nat := 0x800C4
/-- SLV_SNAP_STAT, R252. -/
abbrev Reg.SLV_SNAP_STAT : Nat := 0x80100
/-- SLV_SNAP_CNT, R252. -/
abbrev Reg.SLV_SNAP_CNT : Nat := 0x80104
/-- LPE_STAT, R275. -/
abbrev Reg.LPE_STAT : Nat := 0x90000
/-- LPE_CAUSE, R275. -/
abbrev Reg.LPE_CAUSE : Nat := 0x90004
/-- LPE_CNT, R275. -/
abbrev Reg.LPE_CNT : Nat := 0x90008
/-- LPE_TIME, R275. -/
abbrev Reg.LPE_TIME : Nat := 0x9000C
/-- LPE_FB, R275. -/
abbrev Reg.LPE_FB : Nat := 0x90020
/-- LPE_SNAP_FB, R275. -/
abbrev Reg.LPE_SNAP_FB : Nat := 0x90040
/-- LPE_SNAP_CNT, R275. -/
abbrev Reg.LPE_SNAP_CNT : Nat := 0x90060
/-- LPE_CAP_CTL, R276. -/
abbrev Reg.LPE_CAP_CTL : Nat := 0x90200
/-- LPE_CAP_SIG, R276. -/
abbrev Reg.LPE_CAP_SIG : Nat := 0x90204
/-- LPE_CAP_REF, R276. -/
abbrev Reg.LPE_CAP_REF : Nat := 0x90208
/-- LPE_CAP_LEN, R276. -/
abbrev Reg.LPE_CAP_LEN : Nat := 0x9020C
/-- LPE_CAP_STAT, R276. -/
abbrev Reg.LPE_CAP_STAT : Nat := 0x90210
/-- LPE_CAP_T0, R276. -/
abbrev Reg.LPE_CAP_T0 : Nat := 0x90214
/-- LPE_INJ_CTL, R277. -/
abbrev Reg.LPE_INJ_CTL : Nat := 0x90300
/-- LPE_INJ_AMP, R277. -/
abbrev Reg.LPE_INJ_AMP : Nat := 0x90304
/-- LPE_INJ_F0, R277. -/
abbrev Reg.LPE_INJ_F0 : Nat := 0x90308
/-- LPE_INJ_F1, R277. -/
abbrev Reg.LPE_INJ_F1 : Nat := 0x9030C
/-- LPE_INJ_LEN, R277. -/
abbrev Reg.LPE_INJ_LEN : Nat := 0x90310
/-- LPE_INJ_STAT, R277. -/
abbrev Reg.LPE_INJ_STAT : Nat := 0x90314
/-- LPE_L_CTL, R278. -/
abbrev Reg.LPE_L_CTL : Nat := 0x91000
/-- LPE_L_STAT, R278. -/
abbrev Reg.LPE_L_STAT : Nat := 0x91004
/-- LPE_L_KP, R278. -/
abbrev Reg.LPE_L_KP : Nat := 0x91008
/-- LPE_L_TI, R278. -/
abbrev Reg.LPE_L_TI : Nat := 0x9100C
/-- LPE_L_TD, R278. -/
abbrev Reg.LPE_L_TD : Nat := 0x91010
/-- LPE_L_OMIN, R278. -/
abbrev Reg.LPE_L_OMIN : Nat := 0x91014
/-- LPE_L_OMAX, R278. -/
abbrev Reg.LPE_L_OMAX : Nat := 0x91018
/-- LPE_L_ORATE, R278. -/
abbrev Reg.LPE_L_ORATE : Nat := 0x9101C
/-- LPE_L_SP, R278. -/
abbrev Reg.LPE_L_SP : Nat := 0x91020
/-- LPE_L_SPRATE, R278. -/
abbrev Reg.LPE_L_SPRATE : Nat := 0x91024
/-- LPE_L_FFGAIN, R278. -/
abbrev Reg.LPE_L_FFGAIN : Nat := 0x91028
/-- LPE_L_DBAND, R278. -/
abbrev Reg.LPE_L_DBAND : Nat := 0x9102C
/-- LPE_L_HOLD, R278. -/
abbrev Reg.LPE_L_HOLD : Nat := 0x91030
/-- LPE_L_MAN, R278. -/
abbrev Reg.LPE_L_MAN : Nat := 0x91034
/-- LPE_L_OUT, R278. -/
abbrev Reg.LPE_L_OUT : Nat := 0x91038
/-- LPE_L_SPEFF, R278. -/
abbrev Reg.LPE_L_SPEFF : Nat := 0x9103C
/-- CE_STAT, R306. -/
abbrev Reg.CE_STAT : Nat := 0xA0000
/-- CE_CAUSE, R306. -/
abbrev Reg.CE_CAUSE : Nat := 0xA0004
/-- CE_CMD, R306. -/
abbrev Reg.CE_CMD : Nat := 0xA0008
/-- CE_CMDSTAT, R306. -/
abbrev Reg.CE_CMDSTAT : Nat := 0xA000C
/-- CE_PATCH_CTL, R306. -/
abbrev Reg.CE_PATCH_CTL : Nat := 0xA0010
/-- CE_PATCH_ADDR, R306. -/
abbrev Reg.CE_PATCH_ADDR : Nat := 0xA0014
/-- CE_PATCH_LO, R306. -/
abbrev Reg.CE_PATCH_LO : Nat := 0xA0018
/-- CE_PATCH_HI, R306. -/
abbrev Reg.CE_PATCH_HI : Nat := 0xA001C
/-- CE_RET_CTL, R306. -/
abbrev Reg.CE_RET_CTL : Nat := 0xA0020
/-- CE_RET_STAT, R306. -/
abbrev Reg.CE_RET_STAT : Nat := 0xA0024
/-- CE_RET_SEQ, R306. -/
abbrev Reg.CE_RET_SEQ : Nat := 0xA0028
/-- CE_CNT, R306. -/
abbrev Reg.CE_CNT : Nat := 0xA0030
/-- CE_SNAP_STAT, R306. -/
abbrev Reg.CE_SNAP_STAT : Nat := 0xA0040
/-- CE_SNAP_CNT, R306. -/
abbrev Reg.CE_SNAP_CNT : Nat := 0xA0044
/-- CE_E_STAT, R307. -/
abbrev Reg.CE_E_STAT : Nat := 0xA1000
/-- CE_E_LOAD, R307. -/
abbrev Reg.CE_E_LOAD : Nat := 0xA1004
/-- CE_E_TRAP, R307. -/
abbrev Reg.CE_E_TRAP : Nat := 0xA1008
/-- CE_E_TRAPPC, R307. -/
abbrev Reg.CE_E_TRAPPC : Nat := 0xA100C
/-- CE_T_STAT, R308. -/
abbrev Reg.CE_T_STAT : Nat := 0xA1100
/-- CE_T_TIME, R308. -/
abbrev Reg.CE_T_TIME : Nat := 0xA1104
/-- CE_T_REL, R308. -/
abbrev Reg.CE_T_REL : Nat := 0xA1108
/-- CE_T_LOST, R308. -/
abbrev Reg.CE_T_LOST : Nat := 0xA110C
/-- CHN_STAT, R362. -/
abbrev Reg.CHN_STAT : Nat := 0xB0000
/-- CHN_CAUSE, R362. -/
abbrev Reg.CHN_CAUSE : Nat := 0xB0004
/-- CHN_CNT, R362. -/
abbrev Reg.CHN_CNT : Nat := 0xB0008
/-- CHN_BAD, R362. -/
abbrev Reg.CHN_BAD : Nat := 0xB0040
/-- CHN_PF_STAT, R362. -/
abbrev Reg.CHN_PF_STAT : Nat := 0xB0100
/-- CHN_SEL, R363. -/
abbrev Reg.CHN_SEL : Nat := 0xB0200
/-- CHN_CINFO, R363. -/
abbrev Reg.CHN_CINFO : Nat := 0xB0204
/-- CHN_CRAW, R363. -/
abbrev Reg.CHN_CRAW : Nat := 0xB0208
/-- CHN_CVAL, R363. -/
abbrev Reg.CHN_CVAL : Nat := 0xB020C
/-- CHN_CSEC, R363. -/
abbrev Reg.CHN_CSEC : Nat := 0xB0210
/-- CHN_SNAP_BAD, R362. -/
abbrev Reg.CHN_SNAP_BAD : Nat := 0xB0300
/-- CHN_PC_LO, R364. -/
abbrev Reg.CHN_PC_LO : Nat := 0xB1000
/-- CHN_PC_HI, R364. -/
abbrev Reg.CHN_PC_HI : Nat := 0xB1004
/-- CHN_PC_CFG, R364. -/
abbrev Reg.CHN_PC_CFG : Nat := 0xB1008
/-- CHN_PC_STAT, R364. -/
abbrev Reg.CHN_PC_STAT : Nat := 0xB100C
/-- CHN_SNAP_PC_LO, R365. -/
abbrev Reg.CHN_SNAP_PC_LO : Nat := 0xB1800
/-- CHN_SNAP_PC_HI, R365. -/
abbrev Reg.CHN_SNAP_PC_HI : Nat := 0xB1804
/-- MTR_STAT, R397. -/
abbrev Reg.MTR_STAT : Nat := 0xC0000
/-- MTR_CAUSE, R397. -/
abbrev Reg.MTR_CAUSE : Nat := 0xC0004
/-- MTR_SAVE, R397. -/
abbrev Reg.MTR_SAVE : Nat := 0xC0008
/-- MTR_SAVESEQ, R397. -/
abbrev Reg.MTR_SAVESEQ : Nat := 0xC000C
/-- MTR_DAYOFS, R397. -/
abbrev Reg.MTR_DAYOFS : Nat := 0xC0010
/-- MTR_LOG, R397. -/
abbrev Reg.MTR_LOG : Nat := 0xC0018
/-- MTR_LOG_LAST, R397. -/
abbrev Reg.MTR_LOG_LAST : Nat := 0xC001C
/-- MTR_CNT, R397. -/
abbrev Reg.MTR_CNT : Nat := 0xC0020
/-- MTR_CNT2, R397. -/
abbrev Reg.MTR_CNT2 : Nat := 0xC0024
/-- MTR_ARCH, R397. -/
abbrev Reg.MTR_ARCH : Nat := 0xC0028
/-- MTR_TAR_SEL, R398. -/
abbrev Reg.MTR_TAR_SEL : Nat := 0xC0080
/-- MTR_TAR_D, R398. -/
abbrev Reg.MTR_TAR_D : Nat := 0xC0084
/-- MTR_SEL, R399. -/
abbrev Reg.MTR_SEL : Nat := 0xC0100
/-- MTR_MINFO, R399. -/
abbrev Reg.MTR_MINFO : Nat := 0xC0104
/-- MTR_MREG_LO, R399. -/
abbrev Reg.MTR_MREG_LO : Nat := 0xC0110
/-- MTR_MREG_HI, R399. -/
abbrev Reg.MTR_MREG_HI : Nat := 0xC0114
/-- MTR_MPEAK, R399. -/
abbrev Reg.MTR_MPEAK : Nat := 0xC0160
/-- MTR_MERR, R399. -/
abbrev Reg.MTR_MERR : Nat := 0xC0164
/-- MTR_MTP, R399. -/
abbrev Reg.MTR_MTP : Nat := 0xC0168
/-- MTR_IVL_SEL, R400. -/
abbrev Reg.MTR_IVL_SEL : Nat := 0xC0200
/-- MTR_IVL_STAT, R400. -/
abbrev Reg.MTR_IVL_STAT : Nat := 0xC0204
/-- MTR_IVL_DATA, R400. -/
abbrev Reg.MTR_IVL_DATA : Nat := 0xC0210
/-- MTR_TPW, R400. -/
abbrev Reg.MTR_TPW : Nat := 0xC0400
/-- MTR_SNAP_E_LO, R401. -/
abbrev Reg.MTR_SNAP_E_LO : Nat := 0xC1000
/-- MTR_SNAP_E_HI, R401. -/
abbrev Reg.MTR_SNAP_E_HI : Nat := 0xC1004
/-- MTR_SNAP_STAT, R401. -/
abbrev Reg.MTR_SNAP_STAT : Nat := 0xC1240
/-- RED_STAT, R518. -/
abbrev Reg.RED_STAT : Nat := 0xD0000
/-- RED_CAUSE, R518. -/
abbrev Reg.RED_CAUSE : Nat := 0xD0004
/-- RED_CTL, R519. -/
abbrev Reg.RED_CTL : Nat := 0xD0008
/-- RED_CMD, R519. -/
abbrev Reg.RED_CMD : Nat := 0xD000C
/-- RED_CMDSTAT, R519. -/
abbrev Reg.RED_CMDSTAT : Nat := 0xD0010
/-- RED_CMP, R520. -/
abbrev Reg.RED_CMP : Nat := 0xD0020
/-- RED_CRC_OWN, R520. -/
abbrev Reg.RED_CRC_OWN : Nat := 0xD0024
/-- RED_CRC_PEER, R520. -/
abbrev Reg.RED_CRC_PEER : Nat := 0xD0028
/-- RED_CMP_HW, R520. -/
abbrev Reg.RED_CMP_HW : Nat := 0xD002C
/-- RED_LAG, R520. -/
abbrev Reg.RED_LAG : Nat := 0xD0030
/-- RED_LINK, R520. -/
abbrev Reg.RED_LINK : Nat := 0xD0034
/-- RED_ALIGN, R520. -/
abbrev Reg.RED_ALIGN : Nat := 0xD0038
/-- RED_SWAP_LAST, R520. -/
abbrev Reg.RED_SWAP_LAST : Nat := 0xD003C
/-- RED_PRIV, R520. -/
abbrev Reg.RED_PRIV : Nat := 0xD0040
/-- RED_PRIV_VAL, R520. -/
abbrev Reg.RED_PRIV_VAL : Nat := 0xD0044
/-- RED_SNAP_STAT, R521. -/
abbrev Reg.RED_SNAP_STAT : Nat := 0xD0080
/-- RED_SNAP_CMP, R521. -/
abbrev Reg.RED_SNAP_CMP : Nat := 0xD0084
/-- MGT_STAT, R546. -/
abbrev Reg.MGT_STAT : Nat := 0xE0000
/-- MGT_CAUSE, R546. -/
abbrev Reg.MGT_CAUSE : Nat := 0xE0004
/-- MGT_FW_VERA, R546. -/
abbrev Reg.MGT_FW_VERA : Nat := 0xE0008
/-- MGT_FW_VERB, R546. -/
abbrev Reg.MGT_FW_VERB : Nat := 0xE000C
/-- MGT_FW_SVN, R546. -/
abbrev Reg.MGT_FW_SVN : Nat := 0xE0010
/-- MGT_WDG, R546. -/
abbrev Reg.MGT_WDG : Nat := 0xE0014
/-- MGT_CAL_SEC, R547. -/
abbrev Reg.MGT_CAL_SEC : Nat := 0xE0020
/-- MGT_CAL_FRAC, R547. -/
abbrev Reg.MGT_CAL_FRAC : Nat := 0xE0024
/-- MGT_CAL_SETSEC, R547. -/
abbrev Reg.MGT_CAL_SETSEC : Nat := 0xE0028
/-- MGT_CAL_SETFRAC, R547. -/
abbrev Reg.MGT_CAL_SETFRAC : Nat := 0xE002C
/-- MGT_CAL_CMD, R547. -/
abbrev Reg.MGT_CAL_CMD : Nat := 0xE0030
/-- MGT_CAL_LEAP, R547. -/
abbrev Reg.MGT_CAL_LEAP : Nat := 0xE0034
/-- MGT_CAL_PPS, R547. -/
abbrev Reg.MGT_CAL_PPS : Nat := 0xE0038
/-- MGT_CAL_SLEW, R547. -/
abbrev Reg.MGT_CAL_SLEW : Nat := 0xE003C
/-- MGT_CAL_PPSERR, R547. -/
abbrev Reg.MGT_CAL_PPSERR : Nat := 0xE0040
/-- MGT_CAL_CNT, R547. -/
abbrev Reg.MGT_CAL_CNT : Nat := 0xE0044
/-- MGT_TEMP, R547. -/
abbrev Reg.MGT_TEMP : Nat := 0xE0080
/-- MGT_TLIM, R547. -/
abbrev Reg.MGT_TLIM : Nat := 0xE0090
/-- MGT_VOLT, R547. -/
abbrev Reg.MGT_VOLT : Nat := 0xE00A0
/-- MGT_EVR_STAT, R548. -/
abbrev Reg.MGT_EVR_STAT : Nat := 0xE0100
/-- MGT_EVR_SEQ_LO, R548. -/
abbrev Reg.MGT_EVR_SEQ_LO : Nat := 0xE0104
/-- MGT_EVR_SEQ_HI, R548. -/
abbrev Reg.MGT_EVR_SEQ_HI : Nat := 0xE0108
/-- MGT_EVR_WRAP, R548. -/
abbrev Reg.MGT_EVR_WRAP : Nat := 0xE010C
/-- MGT_EVR_CTL, R548. -/
abbrev Reg.MGT_EVR_CTL : Nat := 0xE0110
/-- MGT_EVR_CNT, R548. -/
abbrev Reg.MGT_EVR_CNT : Nat := 0xE0114
/-- MGT_EVR_LOST, R548. -/
abbrev Reg.MGT_EVR_LOST : Nat := 0xE0118
/-- MGT_SNAP_CTL, R549. -/
abbrev Reg.MGT_SNAP_CTL : Nat := 0xE0180
/-- MGT_SNAP_PER, R549. -/
abbrev Reg.MGT_SNAP_PER : Nat := 0xE0184
/-- MGT_SNAP_SEQ, R549. -/
abbrev Reg.MGT_SNAP_SEQ : Nat := 0xE0188
/-- MGT_SNAP_MISS, R549. -/
abbrev Reg.MGT_SNAP_MISS : Nat := 0xE018C
/-- MGT_SNAP_CAL, R549. -/
abbrev Reg.MGT_SNAP_CAL : Nat := 0xE01A0
/-- MGT_SNAP_FRAC, R549. -/
abbrev Reg.MGT_SNAP_FRAC : Nat := 0xE01A4
/-- MGT_SNAP_EVR, R549. -/
abbrev Reg.MGT_SNAP_EVR : Nat := 0xE01A8
/-- MGT_SNAP_STAT, R549. -/
abbrev Reg.MGT_SNAP_STAT : Nat := 0xE01AC
/-- KEY_STAT, R576. -/
abbrev Reg.KEY_STAT : Nat := 0xE0800
/-- KEY_CAUSE, R576. -/
abbrev Reg.KEY_CAUSE : Nat := 0xE0804
/-- KEY_LOADED, R577. -/
abbrev Reg.KEY_LOADED : Nat := 0xE0810
/-- KEY_DAMAGED, R577. -/
abbrev Reg.KEY_DAMAGED : Nat := 0xE0818
/-- KEY_CTR_LO, R577. -/
abbrev Reg.KEY_CTR_LO : Nat := 0xE0820
/-- KEY_CTR_HI, R577. -/
abbrev Reg.KEY_CTR_HI : Nat := 0xE0824
/-- KEY_REMASK, R577. -/
abbrev Reg.KEY_REMASK : Nat := 0xE0828
/-- KEY_MA_CNT0, R577. -/
abbrev Reg.KEY_MA_CNT0 : Nat := 0xE0830
/-- KEY_MA_CNT1, R577. -/
abbrev Reg.KEY_MA_CNT1 : Nat := 0xE0834
/-- KEY_UID, R577. -/
abbrev Reg.KEY_UID : Nat := 0xE0840
/-- KEY_SNAP_STAT, R578. -/
abbrev Reg.KEY_SNAP_STAT : Nat := 0xE0880
/-- KEY_SNAP_CTR, R578. -/
abbrev Reg.KEY_SNAP_CTR : Nat := 0xE0884
/-- HIF_STAT, R597. -/
abbrev Reg.HIF_STAT : Nat := 0xF0000
/-- HIF_CAUSE, R597. -/
abbrev Reg.HIF_CAUSE : Nat := 0xF0004
/-- HIF_CNT, R597. -/
abbrev Reg.HIF_CNT : Nat := 0xF0008
/-- HIF_CNT2, R597. -/
abbrev Reg.HIF_CNT2 : Nat := 0xF000C
/-- HIF_INT_CTL, R598. -/
abbrev Reg.HIF_INT_CTL : Nat := 0xF0010
/-- HIF_INT_STAT, R598. -/
abbrev Reg.HIF_INT_STAT : Nat := 0xF0014
/-- HIF_LAST_ADDR, R597. -/
abbrev Reg.HIF_LAST_ADDR : Nat := 0xF0018
/-- HIF_LAST_RES, R597. -/
abbrev Reg.HIF_LAST_RES : Nat := 0xF001C
/-- HIF_INT_MASK, R598. -/
abbrev Reg.HIF_INT_MASK : Nat := 0xF0040
/-- HIF_SNAP_CNT, R600. -/
abbrev Reg.HIF_SNAP_CNT : Nat := 0xF00C0
/-- HIF_SNAP_SEQ, R600. -/
abbrev Reg.HIF_SNAP_SEQ : Nat := 0xF00C4
/-- HIF_MB_CMD, R599. -/
abbrev Reg.HIF_MB_CMD : Nat := 0xF0100
/-- HIF_MB_DOOR, R599. -/
abbrev Reg.HIF_MB_DOOR : Nat := 0xF0104
/-- HIF_MB_STAT, R599. -/
abbrev Reg.HIF_MB_STAT : Nat := 0xF0108
/-- HIF_MB_ACK, R599. -/
abbrev Reg.HIF_MB_ACK : Nat := 0xF010C
/-- HIF_MB_SEQ, R599. -/
abbrev Reg.HIF_MB_SEQ : Nat := 0xF0110

/-- Registers of DEV, part 0. -/
def regsDEV0 : List RegDef := [
  ⟨"DEV_ID", Reg.DEV_ID, 1, 0, 1, 0, [
   ⟨"member", 15, 0, .ro, 0x7512⟩,
   ⟨"revision", 23, 16, .ro, 0x1⟩,
   ⟨"family", 31, 24, .ro, 0xD⟩]⟩,
  ⟨"DEV_STATE", Reg.DEV_STATE, 1, 0, 1, 0, [
   ⟨"state", 2, 0, .ro, 0x0⟩,
   ⟨"prev_state", 6, 4, .ro, 0x0⟩,
   ⟨"active_slot", 8, 8, .ro, 0x0⟩,
   ⟨"slot_a_valid", 9, 9, .ro, 0x0⟩,
   ⟨"slot_b_valid", 10, 10, .ro, 0x0⟩,
   ⟨"auto_run", 11, 11, .ro, 0x0⟩,
   ⟨"good_start", 12, 12, .ro, 0x0⟩,
   ⟨"cmd_status", 15, 14, .ro, 0x0⟩]⟩,
  ⟨"DEV_CMD", Reg.DEV_CMD, 1, 0, 1, 0, [
   ⟨"cmd", 7, 0, .wo, 0x0⟩,
   ⟨"key", 31, 16, .wo, 0x0⟩]⟩,
  ⟨"DEV_CAUSE", Reg.DEV_CAUSE, 1, 0, 1, 0, [
   ⟨"tt_bad", 0, 0, .w1c, 0x0⟩,
   ⟨"tt_none", 1, 1, .w1c, 0x0⟩,
   ⟨"bist", 2, 2, .w1c, 0x0⟩,
   ⟨"trap", 8, 8, .w1c, 0x0⟩,
   ⟨"mem_fatal", 9, 9, .w1c, 0x0⟩,
   ⟨"clk_loss", 10, 10, .w1c, 0x0⟩,
   ⟨"interlock", 11, 11, .w1c, 0x0⟩,
   ⟨"watchdog", 12, 12, .w1c, 0x0⟩,
   ⟨"est_late", 16, 16, .w1c, 0x0⟩,
   ⟨"opt_skip", 17, 17, .w1c, 0x0⟩,
   ⟨"opt_fallback", 18, 18, .w1c, 0x0⟩,
   ⟨"pfw", 19, 19, .w1c, 0x0⟩]⟩,
  ⟨"DEV_HEADWAY", Reg.DEV_HEADWAY, 1, 0, 1, 0, [
   ⟨"headway", 31, 0, .ro, 0x0⟩]⟩,
  ⟨"DEV_PHASE", Reg.DEV_PHASE, 1, 0, 1, 0, [
   ⟨"tick", 13, 0, .ro, 0x0⟩,
   ⟨"phase", 17, 16, .ro, 0x0⟩,
   ⟨"opt_headway", 31, 20, .ro, 0x0⟩]⟩,
  ⟨"DEV_LATE", Reg.DEV_LATE, 1, 0, 1, 0, [
   ⟨"est_late", 15, 0, .ro, 0x0⟩,
   ⟨"out_late", 31, 16, .ro, 0x0⟩]⟩,
  ⟨"DEV_PLAN0", Reg.DEV_PLAN0, 1, 0, 1, 0, [
   ⟨"headway", 13, 0, .ro, 0x0⟩,
   ⟨"t_in", 29, 16, .ro, 0x0⟩]⟩,
  ⟨"DEV_PLAN1", Reg.DEV_PLAN1, 1, 0, 1, 0, [
   ⟨"t_est", 13, 0, .ro, 0x0⟩,
   ⟨"t_out", 29, 16, .ro, 0x0⟩]⟩,
  ⟨"DEV_PLAN2", Reg.DEV_PLAN2, 1, 0, 1, 0, [
   ⟨"opt_headways", 15, 0, .ro, 0x0⟩]⟩,
  ⟨"DEV_TT_SLOTA", Reg.DEV_TT_SLOTA, 1, 0, 1, 0, [
   ⟨"result", 3, 0, .ro, 0xF⟩,
   ⟨"done", 4, 4, .ro, 0x0⟩,
   ⟨"checking", 5, 5, .ro, 0x0⟩,
   ⟨"offset", 15, 8, .ro, 0x0⟩,
   ⟨"section", 31, 16, .ro, 0x0⟩]⟩,
  ⟨"DEV_TT_SLOTB", Reg.DEV_TT_SLOTB, 1, 0, 1, 0, [
   ⟨"result", 3, 0, .ro, 0xF⟩,
   ⟨"done", 4, 4, .ro, 0x0⟩,
   ⟨"checking", 5, 5, .ro, 0x0⟩,
   ⟨"offset", 15, 8, .ro, 0x0⟩,
   ⟨"section", 31, 16, .ro, 0x0⟩]⟩,
  ⟨"DEV_TT_IDXA", Reg.DEV_TT_IDXA, 1, 0, 1, 0, [
   ⟨"index", 31, 0, .ro, 0x0⟩]⟩,
  ⟨"DEV_TT_IDXB", Reg.DEV_TT_IDXB, 1, 0, 1, 0, [
   ⟨"index", 31, 0, .ro, 0x0⟩]⟩,
  ⟨"DEV_TT_SERIAL", Reg.DEV_TT_SERIAL, 1, 0, 1, 0, [
   ⟨"serial", 31, 0, .ro, 0x0⟩]⟩,
  ⟨"DEV_TT_DIGEST", Reg.DEV_TT_DIGEST, 12, 4, 1, 0, [
   ⟨"bytes", 31, 0, .ro, 0x0⟩]⟩,
  ⟨"DEV_TT_PTR", Reg.DEV_TT_PTR, 1, 0, 1, 0, [
   ⟨"slot", 0, 0, .ro, 0x0⟩,
   ⟨"valid", 1, 1, .ro, 0x0⟩,
   ⟨"staged", 2, 2, .ro, 0x0⟩,
   ⟨"writer_open", 3, 3, .ro, 0x0⟩,
   ⟨"writer_slot", 4, 4, .ro, 0x0⟩]⟩]

/-- Registers of PWR, part 0. -/
def regsPWR0 : List RegDef := [
  ⟨"PWR_STAT", Reg.PWR_STAT, 1, 0, 1, 0, [
   ⟨"xtal_ok", 0, 0, .ro, 0x0⟩,
   ⟨"rc_clock", 1, 1, .ro, 0x0⟩,
   ⟨"ref_ok", 2, 2, .ro, 0x0⟩,
   ⟨"sys_lock", 3, 3, .ro, 0x0⟩,
   ⟨"slv_lock", 4, 4, .ro, 0x0⟩,
   ⟨"ser_lock", 5, 5, .ro, 0x0⟩,
   ⟨"pfw_now", 6, 6, .ro, 0x0⟩,
   ⟨"saving", 7, 7, .ro, 0x0⟩,
   ⟨"saved", 8, 8, .ro, 0x0⟩,
   ⟨"vbat_ok", 9, 9, .ro, 0x0⟩]⟩,
  ⟨"PWR_CAUSE", Reg.PWR_CAUSE, 1, 0, 1, 0, [
   ⟨"pfw", 0, 0, .w1c, 0x0⟩,
   ⟨"save_slow", 1, 1, .w1c, 0x0⟩,
   ⟨"xtal_fail", 2, 2, .w1c, 0x0⟩,
   ⟨"ref_fail", 3, 3, .w1c, 0x0⟩,
   ⟨"ser_unlock", 4, 4, .w1c, 0x0⟩,
   ⟨"start_fail", 5, 5, .w1c, 0x0⟩,
   ⟨"vbat_low", 6, 6, .w1c, 0x0⟩]⟩,
  ⟨"PWR_CTL", Reg.PWR_CTL, 1, 0, 1, 0, [
   ⟨"lead", 3, 0, .rw, 0x3⟩,
   ⟨"linger", 11, 8, .rw, 0x4⟩,
   ⟨"host_linger", 23, 16, .rw, 0xA⟩]⟩,
  ⟨"PWR_PFW", Reg.PWR_PFW, 1, 0, 1, 0, [
   ⟨"filter", 5, 0, .rwh, 0xA⟩,
   ⟨"recover", 15, 8, .rwh, 0x64⟩]⟩,
  ⟨"PWR_SAVE", Reg.PWR_SAVE, 1, 0, 1, 0, [
   ⟨"step", 2, 0, .ro, 0x0⟩,
   ⟨"complete", 3, 3, .ro, 0x0⟩,
   ⟨"time", 31, 16, .ro, 0x0⟩]⟩,
  ⟨"PWR_CUT", Reg.PWR_CUT, 1, 0, 1, 0, [
   ⟨"seconds", 31, 0, .ro, 0x0⟩]⟩,
  ⟨"PWR_RSTTIME", Reg.PWR_RSTTIME, 1, 0, 1, 0, [
   ⟨"seconds", 31, 0, .ro, 0x0⟩]⟩,
  ⟨"PWR_TICK_LO", Reg.PWR_TICK_LO, 1, 0, 1, 0, [
   ⟨"tick", 31, 0, .ro, 0x0⟩]⟩,
  ⟨"PWR_TICK_HI", Reg.PWR_TICK_HI, 1, 0, 1, 0, [
   ⟨"tick", 15, 0, .ro, 0x0⟩,
   ⟨"sub", 20, 16, .ro, 0x0⟩]⟩,
  ⟨"PWR_DOM", Reg.PWR_DOM, 17, 4, 1, 0, [
   ⟨"state", 1, 0, .ro, 0x0⟩,
   ⟨"restart_pending", 2, 2, .ro, 0x0⟩,
   ⟨"demand", 3, 3, .ro, 0x0⟩,
   ⟨"force_on", 4, 4, .rw, 0x0⟩,
   ⟨"starts", 31, 16, .ro, 0x0⟩]⟩,
  ⟨"PWR_E_HW", Reg.PWR_E_HW, 1, 0, 1, 0, [
   ⟨"energy", 31, 0, .ro, 0x0⟩]⟩,
  ⟨"PWR_E_HYD", Reg.PWR_E_HYD, 1, 0, 1, 0, [
   ⟨"energy", 31, 0, .ro, 0x0⟩]⟩,
  ⟨"PWR_E_HWG", Reg.PWR_E_HWG, 10, 4, 1, 0, [
   ⟨"energy", 31, 0, .ro, 0x0⟩]⟩,
  ⟨"PWR_E_TOT_LO", Reg.PWR_E_TOT_LO, 10, 8, 1, 0, [
   ⟨"energy", 31, 0, .ro, 0x0⟩]⟩,
  ⟨"PWR_E_TOT_HI", Reg.PWR_E_TOT_HI, 10, 8, 1, 0, [
   ⟨"energy", 31, 0, .ro, 0x0⟩]⟩,
  ⟨"PWR_NET_CTL", Reg.PWR_NET_CTL, 1, 0, 1, 0, [
   ⟨"stations", 0, 0, .rw, 0x1⟩]⟩,
  ⟨"PWR_NET_PER", Reg.PWR_NET_PER, 1, 0, 1, 0, [
   ⟨"ratio", 31, 0, .ro, 0x0⟩]⟩,
  ⟨"PWR_NET_DAY", Reg.PWR_NET_DAY, 1, 0, 1, 0, [
   ⟨"ratio", 31, 0, .ro, 0x0⟩]⟩,
  ⟨"PWR_NET_Q", Reg.PWR_NET_Q, 1, 0, 1, 0, [
   ⟨"per_q", 1, 0, .ro, 0x3⟩,
   ⟨"day_q", 3, 2, .ro, 0x3⟩]⟩,
  ⟨"PWR_NET_PRIM", Reg.PWR_NET_PRIM, 1, 0, 1, 0, [
   ⟨"kwh", 31, 0, .ro, 0x0⟩]⟩,
  ⟨"PWR_NET_PUMP", Reg.PWR_NET_PUMP, 1, 0, 1, 0, [
   ⟨"kwh", 31, 0, .ro, 0x0⟩]⟩,
  ⟨"PWR_NET_DELIV", Reg.PWR_NET_DELIV, 1, 0, 1, 0, [
   ⟨"kwh", 31, 0, .ro, 0x0⟩]⟩,
  ⟨"PWR_NLS_REF", Reg.PWR_NLS_REF, 32, 16, 1, 0, [
   ⟨"ref", 31, 0, .rw, 0xFFFFFFFF⟩]⟩,
  ⟨"PWR_NLS_FAC", Reg.PWR_NLS_FAC, 32, 16, 1, 0, [
   ⟨"factor", 31, 0, .rw, 0x3F800000⟩]⟩,
  ⟨"PWR_NLS_CFG", Reg.PWR_NLS_CFG, 32, 16, 1, 0, [
   ⟨"role", 1, 0, .rw, 0x0⟩]⟩,
  ⟨"PWR_SNAP_STAT", Reg.PWR_SNAP_STAT, 1, 0, 1, 0, [
   ⟨"stat", 31, 0, .ro, 0x0⟩]⟩,
  ⟨"PWR_SNAP_E_LO", Reg.PWR_SNAP_E_LO, 1, 0, 1, 0, [
   ⟨"energy", 31, 0, .ro, 0x0⟩]⟩,
  ⟨"PWR_SNAP_E_HI", Reg.PWR_SNAP_E_HI, 1, 0, 1, 0, [
   ⟨"energy", 31, 0, .ro, 0x0⟩]⟩,
  ⟨"PWR_SNAP_TICK_LO", Reg.PWR_SNAP_TICK_LO, 1, 0, 1, 0, [
   ⟨"tick", 31, 0, .ro, 0x0⟩]⟩,
  ⟨"PWR_SNAP_TICK_HI", Reg.PWR_SNAP_TICK_HI, 1, 0, 1, 0, [
   ⟨"tick", 20, 0, .ro, 0x0⟩]⟩]

/-- Registers of JNL, part 0. -/
def regsJNL0 : List RegDef := [
  ⟨"JNL_STAT", Reg.JNL_STAT, 1, 0, 1, 0, [
   ⟨"head", 2, 0, .ro, 0x0⟩,
   ⟨"free", 6, 4, .ro, 0x0⟩,
   ⟨"writing", 8, 8, .ro, 0x0⟩,
   ⟨"compacting", 9, 9, .ro, 0x0⟩,
   ⟨"repair_due", 10, 10, .ro, 0x0⟩,
   ⟨"sealed", 11, 11, .ro, 0x0⟩]⟩,
  ⟨"JNL_CAUSE", Reg.JNL_CAUSE, 1, 0, 1, 0, [
   ⟨"integrity", 0, 0, .w1c, 0x0⟩,
   ⟨"torn", 1, 1, .w1c, 0x0⟩,
   ⟨"lost", 2, 2, .w1c, 0x0⟩,
   ⟨"write_fail", 3, 3, .w1c, 0x0⟩,
   ⟨"tx_abort", 4, 4, .w1c, 0x0⟩,
   ⟨"tx_fail", 5, 5, .w1c, 0x0⟩,
   ⟨"tx_discard", 6, 6, .w1c, 0x0⟩,
   ⟨"tx_stale", 7, 7, .w1c, 0x0⟩,
   ⟨"tx_applied", 8, 8, .w1c, 0x0⟩,
   ⟨"ps_lockout", 9, 9, .w1c, 0x0⟩,
   ⟨"ps_refused", 10, 10, .w1c, 0x0⟩,
   ⟨"ps_ecc", 11, 11, .w1c, 0x0⟩]⟩,
  ⟨"JNL_SEQ_LO", Reg.JNL_SEQ_LO, 1, 0, 1, 0, [
   ⟨"seq", 31, 0, .ro, 0x0⟩]⟩,
  ⟨"JNL_SEQ_HI", Reg.JNL_SEQ_HI, 1, 0, 1, 0, [
   ⟨"seq", 31, 0, .ro, 0x0⟩]⟩,
  ⟨"JNL_CNT", Reg.JNL_CNT, 1, 0, 1, 0, [
   ⟨"torn", 15, 0, .ro, 0x0⟩,
   ⟨"integrity", 31, 16, .ro, 0x0⟩]⟩,
  ⟨"JNL_CNT2", Reg.JNL_CNT2, 1, 0, 1, 0, [
   ⟨"compactions", 15, 0, .ro, 0x0⟩,
   ⟨"retries", 31, 16, .ro, 0x0⟩]⟩,
  ⟨"JNL_TX_CMD", Reg.JNL_TX_CMD, 1, 0, 1, 0, [
   ⟨"cmd", 2, 0, .wo, 0x0⟩,
   ⟨"key", 31, 16, .wo, 0x0⟩]⟩,
  ⟨"JNL_TX_STAT", Reg.JNL_TX_STAT, 1, 0, 1, 0, [
   ⟨"state", 2, 0, .ro, 0x0⟩,
   ⟨"staged_tt", 3, 3, .ro, 0x0⟩,
   ⟨"prompt", 4, 4, .ro, 0x0⟩,
   ⟨"cmd_status", 9, 8, .ro, 0x0⟩,
   ⟨"result", 14, 12, .ro, 0x0⟩,
   ⟨"entries", 28, 16, .ro, 0x0⟩]⟩,
  ⟨"JNL_TX_FAIL", Reg.JNL_TX_FAIL, 1, 0, 1, 0, [
   ⟨"reason", 7, 0, .ro, 0x0⟩,
   ⟨"entry", 27, 16, .ro, 0x0⟩]⟩,
  ⟨"JNL_TX_ID", Reg.JNL_TX_ID, 1, 0, 1, 0, [
   ⟨"number", 31, 0, .ro, 0x0⟩]⟩,
  ⟨"JNL_TX_IDLE", Reg.JNL_TX_IDLE, 1, 0, 1, 0, [
   ⟨"seconds", 15, 0, .ro, 0x0⟩]⟩,
  ⟨"JNL_TX_BOUND", Reg.JNL_TX_BOUND, 1, 0, 1, 0, [
   ⟨"headway", 31, 0, .ro, 0x0⟩]⟩,
  ⟨"JNL_PS_KEY", Reg.JNL_PS_KEY, 4, 4, 1, 0, [
   ⟨"bytes", 31, 0, .wo, 0x0⟩]⟩,
  ⟨"JNL_PS_CMD", Reg.JNL_PS_CMD, 1, 0, 1, 0, [
   ⟨"partition", 1, 0, .wo, 0x0⟩,
   ⟨"cmd", 3, 2, .wo, 0x0⟩,
   ⟨"kind", 4, 4, .wo, 0x0⟩,
   ⟨"key", 31, 16, .wo, 0x0⟩]⟩,
  ⟨"JNL_PS_STAT", Reg.JNL_PS_STAT, 1, 0, 1, 0, [
   ⟨"read_open", 3, 0, .ro, 0x0⟩,
   ⟨"write_open", 7, 4, .ro, 0x0⟩,
   ⟨"programming", 8, 8, .ro, 0x0⟩,
   ⟨"frozen", 9, 9, .ro, 0x0⟩,
   ⟨"locked_out", 19, 16, .ro, 0x0⟩,
   ⟨"cmd_status", 25, 24, .ro, 0x0⟩]⟩,
  ⟨"JNL_PS_FAIL", Reg.JNL_PS_FAIL, 4, 4, 1, 0, [
   ⟨"read_fails", 3, 0, .ro, 0x0⟩,
   ⟨"write_fails", 7, 4, .ro, 0x0⟩,
   ⟨"remaining", 31, 12, .ro, 0x0⟩]⟩,
  ⟨"JNL_PS_CNT", Reg.JNL_PS_CNT, 1, 0, 1, 0, [
   ⟨"pages", 15, 0, .ro, 0x0⟩,
   ⟨"refused", 31, 16, .ro, 0x0⟩]⟩,
  ⟨"JNL_SNAP_SEQ_LO", Reg.JNL_SNAP_SEQ_LO, 1, 0, 1, 0, [
   ⟨"seq", 31, 0, .ro, 0x0⟩]⟩,
  ⟨"JNL_SNAP_SEQ_HI", Reg.JNL_SNAP_SEQ_HI, 1, 0, 1, 0, [
   ⟨"seq", 31, 0, .ro, 0x0⟩]⟩,
  ⟨"JNL_SNAP_TX", Reg.JNL_SNAP_TX, 1, 0, 1, 0, [
   ⟨"stat", 31, 0, .ro, 0x0⟩]⟩]

/-- Registers of MEM, part 0. -/
def regsMEM0 : List RegDef := [
  ⟨"MEM_STAT", Reg.MEM_STAT, 1, 0, 1, 0, [
   ⟨"bist_done", 0, 0, .ro, 0x0⟩,
   ⟨"bist_pass", 1, 1, .ro, 0x0⟩,
   ⟨"scrubbing", 2, 2, .ro, 0x0⟩]⟩,
  ⟨"MEM_CAUSE", Reg.MEM_CAUSE, 1, 0, 1, 0, [
   ⟨"corrected", 0, 0, .w1c, 0x0⟩,
   ⟨"rebuilt", 1, 1, .w1c, 0x0⟩,
   ⟨"uncorrectable", 2, 2, .w1c, 0x0⟩,
   ⟨"repair", 3, 3, .w1c, 0x0⟩,
   ⟨"unmapped", 4, 4, .w1c, 0x0⟩]⟩,
  ⟨"MEM_CTL", Reg.MEM_CTL, 1, 0, 1, 0, [
   ⟨"scrub_lines", 4, 0, .rw, 0x1⟩]⟩,
  ⟨"MEM_M_CNT", Reg.MEM_M_CNT, 14, 16, 1, 0, [
   ⟨"corrected", 15, 0, .ro, 0x0⟩,
   ⟨"rebuilt", 31, 16, .ro, 0x0⟩]⟩,
  ⟨"MEM_M_UNC", Reg.MEM_M_UNC, 14, 16, 1, 0, [
   ⟨"count", 15, 0, .ro, 0x0⟩]⟩,
  ⟨"MEM_M_ADDR", Reg.MEM_M_ADDR, 14, 16, 1, 0, [
   ⟨"addr", 31, 0, .ro, 0x0⟩]⟩,
  ⟨"MEM_BIST_M", Reg.MEM_BIST_M, 14, 16, 1, 0, [
   ⟨"fused", 7, 0, .ro, 0x0⟩,
   ⟨"soft", 15, 8, .ro, 0x0⟩,
   ⟨"unrepaired", 31, 16, .ro, 0x0⟩]⟩,
  ⟨"MEM_BIST_CHK", Reg.MEM_BIST_CHK, 1, 0, 1, 0, [
   ⟨"sram", 1, 0, .ro, 0x0⟩,
   ⟨"factor", 3, 2, .ro, 0x0⟩]⟩,
  ⟨"MEM_IMG_BASE", Reg.MEM_IMG_BASE, 7, 16, 1, 0, [
   ⟨"base", 31, 0, .ro, 0x0⟩]⟩,
  ⟨"MEM_IMG_SIZE", Reg.MEM_IMG_SIZE, 7, 16, 1, 0, [
   ⟨"words", 27, 0, .ro, 0x0⟩]⟩,
  ⟨"MEM_IMG_GEN", Reg.MEM_IMG_GEN, 7, 16, 1, 0, [
   ⟨"count", 31, 0, .ro, 0x0⟩]⟩,
  ⟨"MEM_SNAP_CNT", Reg.MEM_SNAP_CNT, 1, 0, 1, 0, [
   ⟨"corrected", 31, 0, .ro, 0x0⟩]⟩,
  ⟨"MEM_SNAP_UNC", Reg.MEM_SNAP_UNC, 1, 0, 1, 0, [
   ⟨"rebuilt", 15, 0, .ro, 0x0⟩,
   ⟨"uncorrectable", 31, 16, .ro, 0x0⟩]⟩]

/-- Registers of SLK, part 0. -/
def regsSLK0 : List RegDef := [
  ⟨"SLK_CTL", Reg.SLK_CTL, 1, 0, 1, 0, [
   ⟨"headway", 13, 0, .ro, 0x0⟩,
   ⟨"ring_heal", 16, 16, .rw, 0x1⟩]⟩,
  ⟨"SLK_STAT", Reg.SLK_STAT, 1, 0, 1, 0, [
   ⟨"active", 7, 0, .ro, 0x0⟩,
   ⟨"join_phase", 15, 8, .ro, 0x0⟩,
   ⟨"broken", 23, 16, .ro, 0x0⟩,
   ⟨"forwarding", 31, 24, .ro, 0x0⟩]⟩,
  ⟨"SLK_EPOCH", Reg.SLK_EPOCH, 1, 0, 1, 0, [
   ⟨"epoch", 31, 0, .ro, 0x0⟩]⟩,
  ⟨"SLK_RUNID", Reg.SLK_RUNID, 1, 0, 1, 0, [
   ⟨"run_id", 31, 0, .ro, 0x0⟩]⟩,
  ⟨"SLK_JOIN_LIM", Reg.SLK_JOIN_LIM, 1, 0, 1, 0, [
   ⟨"trains", 15, 0, .rw, 0x100⟩]⟩,
  ⟨"SLK_CAUSE", Reg.SLK_CAUSE, 1, 0, 1, 0, [
   ⟨"absent", 0, 0, .w1c, 0x0⟩,
   ⟨"refused", 1, 1, .w1c, 0x0⟩,
   ⟨"ring_break", 2, 2, .w1c, 0x0⟩,
   ⟨"ring_heal", 3, 3, .w1c, 0x0⟩,
   ⟨"lost", 4, 4, .w1c, 0x0⟩,
   ⟨"join_done", 5, 5, .w1c, 0x0⟩,
   ⟨"epoch", 6, 6, .w1c, 0x0⟩,
   ⟨"thru_link", 7, 7, .w1c, 0x0⟩]⟩,
  ⟨"SLK_THRU_OFS", Reg.SLK_THRU_OFS, 1, 0, 1, 0, [
   ⟨"offset", 31, 0, .ro, 0x0⟩]⟩,
  ⟨"SLK_THRU_STAT", Reg.SLK_THRU_STAT, 1, 0, 1, 0, [
   ⟨"joined", 7, 0, .ro, 0x0⟩,
   ⟨"record", 15, 8, .ro, 0x0⟩]⟩,
  ⟨"SLK_PRES", Reg.SLK_PRES, 64, 4, 1, 0, [
   ⟨"present", 31, 0, .ro, 0x0⟩]⟩,
  ⟨"SLK_ABS", Reg.SLK_ABS, 64, 4, 1, 0, [
   ⟨"absent", 31, 0, .ro, 0x0⟩]⟩,
  ⟨"SLK_LSTAT", Reg.SLK_LSTAT, 8, 64, 1, 0, [
   ⟨"link_up", 0, 0, .ro, 0x0⟩,
   ⟨"join_done", 1, 1, .ro, 0x0⟩,
   ⟨"broken", 2, 2, .ro, 0x0⟩,
   ⟨"guest", 3, 3, .ro, 0x0⟩,
   ⟨"turn_pos", 24, 16, .ro, 0x0⟩]⟩,
  ⟨"SLK_LTRAIN", Reg.SLK_LTRAIN, 8, 64, 1, 0, [
   ⟨"train", 31, 0, .ro, 0x0⟩]⟩,
  ⟨"SLK_LRT", Reg.SLK_LRT, 8, 64, 1, 0, [
   ⟨"rt", 31, 0, .ro, 0x0⟩]⟩,
  ⟨"SLK_LRTMAX", Reg.SLK_LRTMAX, 8, 64, 1, 0, [
   ⟨"rt_max", 31, 0, .ro, 0x0⟩]⟩,
  ⟨"SLK_LCNT_TX", Reg.SLK_LCNT_TX, 8, 64, 1, 0, [
   ⟨"cars", 31, 0, .ro, 0x0⟩]⟩,
  ⟨"SLK_LCNT_RX", Reg.SLK_LCNT_RX, 8, 64, 1, 0, [
   ⟨"cars", 31, 0, .ro, 0x0⟩]⟩,
  ⟨"SLK_LCNT_FCS", Reg.SLK_LCNT_FCS, 8, 64, 1, 0, [
   ⟨"fcs", 15, 0, .ro, 0x0⟩,
   ⟨"foreign", 31, 16, .ro, 0x0⟩]⟩,
  ⟨"SLK_LCNT_LOST", Reg.SLK_LCNT_LOST, 8, 64, 1, 0, [
   ⟨"lost", 15, 0, .ro, 0x0⟩,
   ⟨"late", 31, 16, .ro, 0x0⟩]⟩,
  ⟨"SLK_LCNT_MAC", Reg.SLK_LCNT_MAC, 8, 64, 1, 0, [
   ⟨"mac_fail", 15, 0, .ro, 0x0⟩,
   ⟨"join_refused", 31, 16, .ro, 0x0⟩]⟩,
  ⟨"SLK_LCNT_DROP", Reg.SLK_LCNT_DROP, 8, 64, 1, 0, [
   ⟨"dropouts", 15, 0, .ro, 0x0⟩,
   ⟨"restarts", 31, 16, .ro, 0x0⟩]⟩,
  ⟨"SLK_STN_SEL", Reg.SLK_STN_SEL, 1, 0, 1, 0, [
   ⟨"station", 10, 0, .rw, 0x0⟩]⟩,
  ⟨"SLK_STN_INFO", Reg.SLK_STN_INFO, 1, 0, 1, 0, [
   ⟨"state", 2, 0, .ro, 0x0⟩,
   ⟨"optional", 3, 3, .ro, 0x0⟩,
   ⟨"line", 6, 4, .ro, 0x0⟩,
   ⟨"missed", 15, 8, .ro, 0x0⟩,
   ⟨"position", 23, 16, .ro, 0x0⟩]⟩,
  ⟨"SLK_STN_LAST", Reg.SLK_STN_LAST, 1, 0, 1, 0, [
   ⟨"train", 31, 0, .ro, 0x0⟩]⟩,
  ⟨"SLK_STN_ERR", Reg.SLK_STN_ERR, 1, 0, 1, 0, [
   ⟨"mac_fail", 15, 0, .ro, 0x0⟩,
   ⟨"dropouts", 31, 16, .ro, 0x0⟩]⟩,
  ⟨"SLK_SNAP_L", Reg.SLK_SNAP_L, 8, 4, 1, 0, [
   ⟨"train", 31, 0, .ro, 0x0⟩]⟩,
  ⟨"SLK_SNAP_PRES", Reg.SLK_SNAP_PRES, 1, 0, 1, 0, [
   ⟨"present", 11, 0, .ro, 0x0⟩,
   ⟨"absent", 27, 16, .ro, 0x0⟩]⟩]

/-- Registers of HYD, part 0. -/
def regsHYD0 : List RegDef := [
  ⟨"HYD_CTL", Reg.HYD_CTL, 1, 0, 1, 0, [
   ⟨"max_iter", 3, 0, .rw, 0x8⟩,
   ⟨"line_search", 4, 4, .rw, 0x1⟩,
   ⟨"cold", 8, 8, .wo, 0x0⟩]⟩,
  ⟨"HYD_QTOL", Reg.HYD_QTOL, 1, 0, 1, 0, [
   ⟨"tol", 31, 0, .rw, 0x3C23D70A⟩]⟩,
  ⟨"HYD_HTOL", Reg.HYD_HTOL, 1, 0, 1, 0, [
   ⟨"tol", 31, 0, .rw, 0x3A83126F⟩]⟩,
  ⟨"HYD_STAT", Reg.HYD_STAT, 1, 0, 1, 0, [
   ⟨"iterations", 3, 0, .ro, 0x0⟩,
   ⟨"converged", 4, 4, .ro, 0x0⟩,
   ⟨"cold", 5, 5, .ro, 0x0⟩,
   ⟨"failed", 6, 6, .ro, 0x0⟩,
   ⟨"busy", 7, 7, .ro, 0x0⟩,
   ⟨"worst", 9, 8, .ro, 0x0⟩,
   ⟨"fail_run", 19, 16, .ro, 0x0⟩]⟩,
  ⟨"HYD_CAUSE", Reg.HYD_CAUSE, 1, 0, 1, 0, [
   ⟨"no_conv", 0, 0, .w1c, 0x0⟩,
   ⟨"solve_fail", 1, 1, .w1c, 0x0⟩,
   ⟨"cold_start", 2, 2, .w1c, 0x0⟩,
   ⟨"resid", 3, 3, .w1c, 0x0⟩,
   ⟨"subst", 4, 4, .w1c, 0x0⟩,
   ⟨"no_ref", 5, 5, .w1c, 0x0⟩]⟩,
  ⟨"HYD_TIME", Reg.HYD_TIME, 1, 0, 1, 0, [
   ⟨"last", 31, 0, .ro, 0x0⟩]⟩,
  ⟨"HYD_TIMEMAX", Reg.HYD_TIMEMAX, 1, 0, 1, 0, [
   ⟨"max", 31, 0, .ro, 0x0⟩]⟩,
  ⟨"HYD_CNT", Reg.HYD_CNT, 1, 0, 1, 0, [
   ⟨"no_conv", 15, 0, .ro, 0x0⟩,
   ⟨"fail", 31, 16, .ro, 0x0⟩]⟩,
  ⟨"HYD_RES_P", Reg.HYD_RES_P, 1, 0, 1, 0, [
   ⟨"rms", 31, 0, .ro, 0x0⟩]⟩,
  ⟨"HYD_RES_Q", Reg.HYD_RES_Q, 1, 0, 1, 0, [
   ⟨"rms", 31, 0, .ro, 0x0⟩]⟩,
  ⟨"HYD_RLIM_P", Reg.HYD_RLIM_P, 1, 0, 1, 0, [
   ⟨"limit", 31, 0, .rw, 0x41A00000⟩]⟩,
  ⟨"HYD_RLIM_Q", Reg.HYD_RLIM_Q, 1, 0, 1, 0, [
   ⟨"limit", 31, 0, .rw, 0x40A00000⟩]⟩,
  ⟨"HYD_RLIM_N", Reg.HYD_RLIM_N, 1, 0, 1, 0, [
   ⟨"headways", 7, 0, .rw, 0x3C⟩]⟩,
  ⟨"HYD_SNAP_STAT", Reg.HYD_SNAP_STAT, 1, 0, 1, 0, [
   ⟨"stat", 31, 0, .ro, 0x0⟩]⟩,
  ⟨"HYD_SNAP_HW", Reg.HYD_SNAP_HW, 1, 0, 1, 0, [
   ⟨"headway", 31, 0, .ro, 0x0⟩]⟩]

/-- Registers of FTR, part 0. -/
def regsFTR0 : List RegDef := [
  ⟨"FTR_CTL", Reg.FTR_CTL, 1, 0, 1, 0, [
   ⟨"lookahead", 12, 0, .rw, 0x258⟩,
   ⟨"predict", 16, 16, .rw, 0x1⟩]⟩,
  ⟨"FTR_STAT", Reg.FTR_STAT, 1, 0, 1, 0, [
   ⟨"wagons", 18, 0, .ro, 0x0⟩,
   ⟨"busy", 24, 24, .ro, 0x0⟩,
   ⟨"raised", 25, 25, .ro, 0x0⟩]⟩,
  ⟨"FTR_WMAX", Reg.FTR_WMAX, 1, 0, 1, 0, [
   ⟨"peak", 18, 0, .ro, 0x0⟩]⟩,
  ⟨"FTR_TOL", Reg.FTR_TOL, 1, 0, 1, 0, [
   ⟨"tol", 31, 0, .ro, 0x0⟩]⟩,
  ⟨"FTR_CAUSE", Reg.FTR_CAUSE, 1, 0, 1, 0, [
   ⟨"store_high", 0, 0, .w1c, 0x0⟩,
   ⟨"store_full", 1, 1, .w1c, 0x0⟩,
   ⟨"reseed", 2, 2, .w1c, 0x0⟩,
   ⟨"temp_subst", 3, 3, .w1c, 0x0⟩,
   ⟨"trace_cut", 4, 4, .w1c, 0x0⟩]⟩,
  ⟨"FTR_TIME", Reg.FTR_TIME, 1, 0, 1, 0, [
   ⟨"last", 31, 0, .ro, 0x0⟩]⟩,
  ⟨"FTR_TIMEMAX", Reg.FTR_TIMEMAX, 1, 0, 1, 0, [
   ⟨"max", 31, 0, .ro, 0x0⟩]⟩,
  ⟨"FTR_SNAP_WAGONS", Reg.FTR_SNAP_WAGONS, 1, 0, 1, 0, [
   ⟨"wagons", 18, 0, .ro, 0x0⟩]⟩]

/-- Registers of OPT, part 0. -/
def regsOPT0 : List RegDef := [
  ⟨"OPT_CTL", Reg.OPT_CTL, 1, 0, 1, 0, [
   ⟨"enable", 0, 0, .rw, 0x1⟩,
   ⟨"warm", 1, 1, .rw, 0x1⟩,
   ⟨"cold", 2, 2, .wo, 0x0⟩,
   ⟨"iter_cold", 15, 8, .rw, 0x28⟩,
   ⟨"iter_warm", 23, 16, .rw, 0x12⟩]⟩,
  ⟨"OPT_STAT", Reg.OPT_STAT, 1, 0, 1, 0, [
   ⟨"outcome", 2, 0, .ro, 0x0⟩,
   ⟨"warm", 3, 3, .ro, 0x0⟩,
   ⟨"route", 7, 4, .ro, 0x0⟩,
   ⟨"iterations", 15, 8, .ro, 0x0⟩,
   ⟨"retries", 17, 16, .ro, 0x0⟩,
   ⟨"plan", 20, 18, .ro, 0x0⟩,
   ⟨"busy", 24, 24, .ro, 0x0⟩,
   ⟨"paused", 25, 25, .ro, 0x0⟩]⟩,
  ⟨"OPT_CAUSE", Reg.OPT_CAUSE, 1, 0, 1, 0, [
   ⟨"inexact", 0, 0, .w1c, 0x0⟩,
   ⟨"no_solution", 1, 1, .w1c, 0x0⟩,
   ⟨"retry", 2, 2, .w1c, 0x0⟩,
   ⟨"cold_cover", 3, 3, .w1c, 0x0⟩,
   ⟨"no_route", 4, 4, .w1c, 0x0⟩,
   ⟨"route_switch", 5, 5, .w1c, 0x0⟩,
   ⟨"no_time", 6, 6, .w1c, 0x0⟩,
   ⟨"list_full", 7, 7, .w1c, 0x0⟩,
   ⟨"subst", 8, 8, .w1c, 0x0⟩,
   ⟨"stall", 9, 9, .w1c, 0x0⟩,
   ⟨"abandoned", 10, 10, .w1c, 0x0⟩]⟩,
  ⟨"OPT_COVER", Reg.OPT_COVER, 1, 0, 1, 0, [
   ⟨"coverage", 31, 0, .ro, 0x0⟩]⟩,
  ⟨"OPT_COVTH", Reg.OPT_COVTH, 1, 0, 1, 0, [
   ⟨"threshold", 31, 0, .rw, 0x3F4CCCCD⟩]⟩,
  ⟨"OPT_EPS_P", Reg.OPT_EPS_P, 1, 0, 1, 0, [
   ⟨"eps", 31, 0, .rw, 0x38D1B717⟩]⟩,
  ⟨"OPT_EPS_D", Reg.OPT_EPS_D, 1, 0, 1, 0, [
   ⟨"eps", 31, 0, .rw, 0x38D1B717⟩]⟩,
  ⟨"OPT_EPS_G", Reg.OPT_EPS_G, 1, 0, 1, 0, [
   ⟨"eps", 31, 0, .rw, 0x38D1B717⟩]⟩,
  ⟨"OPT_ACC", Reg.OPT_ACC, 1, 0, 1, 0, [
   ⟨"factor", 7, 0, .rw, 0x64⟩]⟩,
  ⟨"OPT_REG", Reg.OPT_REG, 1, 0, 1, 0, [
   ⟨"delta", 31, 0, .rw, 0x33D6BF95⟩]⟩,
  ⟨"OPT_LAG", Reg.OPT_LAG, 1, 0, 1, 0, [
   ⟨"hyst", 5, 0, .rw, 0xA⟩]⟩,
  ⟨"OPT_LOCAL", Reg.OPT_LOCAL, 1, 0, 1, 0, [
   ⟨"offset", 15, 0, .rw, 0x0⟩]⟩,
  ⟨"OPT_KEY", Reg.OPT_KEY, 1, 0, 1, 0, [
   ⟨"key", 31, 0, .ro, 0x0⟩]⟩,
  ⟨"OPT_TIME", Reg.OPT_TIME, 1, 0, 1, 0, [
   ⟨"last", 31, 0, .ro, 0x0⟩]⟩,
  ⟨"OPT_TIMEMAX", Reg.OPT_TIMEMAX, 1, 0, 1, 0, [
   ⟨"max", 31, 0, .ro, 0x0⟩]⟩,
  ⟨"OPT_ENERGY", Reg.OPT_ENERGY, 1, 0, 1, 0, [
   ⟨"energy", 31, 0, .ro, 0x0⟩]⟩,
  ⟨"OPT_STEP0", Reg.OPT_STEP0, 1, 0, 1, 0, [
   ⟨"step", 31, 0, .ro, 0x0⟩]⟩,
  ⟨"OPT_MERIT", Reg.OPT_MERIT, 1, 0, 1, 0, [
   ⟨"merit", 31, 0, .ro, 0x0⟩]⟩,
  ⟨"OPT_CNT", Reg.OPT_CNT, 1, 0, 1, 0, [
   ⟨"solves", 15, 0, .ro, 0x0⟩,
   ⟨"cold", 31, 16, .ro, 0x0⟩]⟩,
  ⟨"OPT_FAIL", Reg.OPT_FAIL, 1, 0, 1, 0, [
   ⟨"retries", 15, 0, .ro, 0x0⟩,
   ⟨"no_solution", 31, 16, .ro, 0x0⟩]⟩,
  ⟨"OPT_ULIST", Reg.OPT_ULIST, 1, 0, 1, 0, [
   ⟨"entries", 18, 0, .ro, 0x0⟩,
   ⟨"full", 31, 31, .ro, 0x0⟩]⟩,
  ⟨"OPT_SNAP_STAT", Reg.OPT_SNAP_STAT, 1, 0, 1, 0, [
   ⟨"stat", 31, 0, .ro, 0x0⟩]⟩,
  ⟨"OPT_SNAP_STEP", Reg.OPT_SNAP_STEP, 1, 0, 1, 0, [
   ⟨"step", 31, 0, .ro, 0x0⟩]⟩,
  ⟨"OPT_FC_STEP", Reg.OPT_FC_STEP, 32, 8, 1, 0, [
   ⟨"step", 31, 0, .rw, 0x0⟩]⟩,
  ⟨"OPT_FC_CTL", Reg.OPT_FC_CTL, 32, 8, 1, 0, [
   ⟨"count", 8, 0, .rw, 0x0⟩,
   ⟨"quality", 17, 16, .rw, 0x3⟩]⟩,
  ⟨"OPT_FC_DATA", Reg.OPT_FC_DATA, 32, 1024, 256, 4, [
   ⟨"entry", 31, 0, .rw, 0x0⟩]⟩]

/-- Registers of SLV, part 0. -/
def regsSLV0 : List RegDef := [
  ⟨"SLV_CTL", Reg.SLV_CTL, 1, 0, 1, 0, [
   ⟨"refine_max", 2, 0, .rw, 0x2⟩,
   ⟨"selftest", 8, 8, .rwh, 0x0⟩]⟩,
  ⟨"SLV_TAU", Reg.SLV_TAU, 1, 0, 1, 0, [
   ⟨"tau", 31, 0, .rw, 0x35800000⟩]⟩,
  ⟨"SLV_DPIV", Reg.SLV_DPIV, 1, 0, 1, 0, [
   ⟨"dpiv", 31, 0, .rw, 0x39800000⟩]⟩,
  ⟨"SLV_RTOL", Reg.SLV_RTOL, 1, 0, 1, 0, [
   ⟨"rtol", 31, 0, .rw, 0x35800000⟩]⟩,
  ⟨"SLV_STAT", Reg.SLV_STAT, 1, 0, 1, 0, [
   ⟨"busy", 0, 0, .ro, 0x0⟩,
   ⟨"client", 2, 1, .ro, 0x0⟩,
   ⟨"opt_paused", 3, 3, .ro, 0x0⟩,
   ⟨"awake", 4, 4, .ro, 0x0⟩,
   ⟨"selftest", 9, 8, .ro, 0x0⟩]⟩,
  ⟨"SLV_CAUSE", Reg.SLV_CAUSE, 1, 0, 1, 0, [
   ⟨"replaced", 0, 0, .w1c, 0x0⟩,
   ⟨"failed", 1, 1, .w1c, 0x0⟩,
   ⟨"list", 2, 2, .w1c, 0x0⟩,
   ⟨"mem", 3, 3, .w1c, 0x0⟩,
   ⟨"value", 4, 4, .w1c, 0x0⟩,
   ⟨"pattern", 5, 5, .w1c, 0x0⟩,
   ⟨"selftest", 6, 6, .w1c, 0x0⟩]⟩,
  ⟨"SLV_HYD_RES", Reg.SLV_HYD_RES, 1, 0, 1, 0, [
   ⟨"result", 2, 0, .ro, 0x0⟩,
   ⟨"refine", 6, 4, .ro, 0x0⟩,
   ⟨"route", 11, 8, .ro, 0x0⟩]⟩,
  ⟨"SLV_HYD_PIV", Reg.SLV_HYD_PIV, 1, 0, 1, 0, [
   ⟨"tiny", 15, 0, .ro, 0x0⟩,
   ⟨"wrong_sign", 31, 16, .ro, 0x0⟩]⟩,
  ⟨"SLV_HYD_PIVIDX", Reg.SLV_HYD_PIVIDX, 1, 0, 1, 0, [
   ⟨"row", 27, 0, .ro, 0x0⟩,
   ⟨"valid", 31, 31, .ro, 0x0⟩]⟩,
  ⟨"SLV_HYD_FAILIDX", Reg.SLV_HYD_FAILIDX, 1, 0, 1, 0, [
   ⟨"index", 27, 0, .ro, 0x0⟩,
   ⟨"location", 31, 28, .ro, 0x0⟩]⟩,
  ⟨"SLV_HYD_RESID", Reg.SLV_HYD_RESID, 1, 0, 1, 0, [
   ⟨"resid", 31, 0, .ro, 0x0⟩]⟩,
  ⟨"SLV_HYD_TFAC", Reg.SLV_HYD_TFAC, 1, 0, 1, 0, [
   ⟨"cycles", 31, 0, .ro, 0x0⟩]⟩,
  ⟨"SLV_HYD_TSOL", Reg.SLV_HYD_TSOL, 1, 0, 1, 0, [
   ⟨"cycles", 31, 0, .ro, 0x0⟩]⟩,
  ⟨"SLV_HYD_CNT", Reg.SLV_HYD_CNT, 1, 0, 1, 0, [
   ⟨"factors", 15, 0, .ro, 0x0⟩,
   ⟨"failures", 31, 16, .ro, 0x0⟩]⟩,
  ⟨"SLV_OPT_RES", Reg.SLV_OPT_RES, 1, 0, 1, 0, [
   ⟨"result", 2, 0, .ro, 0x0⟩,
   ⟨"refine", 6, 4, .ro, 0x0⟩,
   ⟨"route", 11, 8, .ro, 0x0⟩]⟩,
  ⟨"SLV_OPT_PIV", Reg.SLV_OPT_PIV, 1, 0, 1, 0, [
   ⟨"tiny", 15, 0, .ro, 0x0⟩,
   ⟨"wrong_sign", 31, 16, .ro, 0x0⟩]⟩,
  ⟨"SLV_OPT_PIVIDX", Reg.SLV_OPT_PIVIDX, 1, 0, 1, 0, [
   ⟨"row", 27, 0, .ro, 0x0⟩,
   ⟨"valid", 31, 31, .ro, 0x0⟩]⟩,
  ⟨"SLV_OPT_FAILIDX", Reg.SLV_OPT_FAILIDX, 1, 0, 1, 0, [
   ⟨"index", 27, 0, .ro, 0x0⟩,
   ⟨"location", 31, 28, .ro, 0x0⟩]⟩,
  ⟨"SLV_OPT_RESID", Reg.SLV_OPT_RESID, 1, 0, 1, 0, [
   ⟨"resid", 31, 0, .ro, 0x0⟩]⟩,
  ⟨"SLV_OPT_TFAC", Reg.SLV_OPT_TFAC, 1, 0, 1, 0, [
   ⟨"cycles", 31, 0, .ro, 0x0⟩]⟩,
  ⟨"SLV_OPT_TSOL", Reg.SLV_OPT_TSOL, 1, 0, 1, 0, [
   ⟨"cycles", 31, 0, .ro, 0x0⟩]⟩,
  ⟨"SLV_OPT_CNT", Reg.SLV_OPT_CNT, 1, 0, 1, 0, [
   ⟨"factors", 15, 0, .ro, 0x0⟩,
   ⟨"failures", 31, 16, .ro, 0x0⟩]⟩,
  ⟨"SLV_HROUTE", Reg.SLV_HROUTE, 1, 0, 1, 0, [
   ⟨"resident", 0, 0, .ro, 0x0⟩,
   ⟨"broken", 1, 1, .ro, 0x0⟩,
   ⟨"values_valid", 2, 2, .ro, 0x0⟩]⟩,
  ⟨"SLV_OROUTE", Reg.SLV_OROUTE, 16, 4, 1, 0, [
   ⟨"as_SLV_HROUTE", 2, 0, .ro, 0x0⟩]⟩,
  ⟨"SLV_FILL", Reg.SLV_FILL, 1, 0, 1, 0, [
   ⟨"entries", 23, 0, .ro, 0x0⟩]⟩,
  ⟨"SLV_PATFILL", Reg.SLV_PATFILL, 1, 0, 1, 0, [
   ⟨"bytes", 23, 0, .ro, 0x0⟩]⟩,
  ⟨"SLV_SNAP_STAT", Reg.SLV_SNAP_STAT, 1, 0, 1, 0, [
   ⟨"stat", 31, 0, .ro, 0x0⟩]⟩,
  ⟨"SLV_SNAP_CNT", Reg.SLV_SNAP_CNT, 1, 0, 1, 0, [
   ⟨"factors", 31, 0, .ro, 0x0⟩]⟩]

/-- Registers of LPE, part 0. -/
def regsLPE0 : List RegDef := [
  ⟨"LPE_STAT", Reg.LPE_STAT, 1, 0, 1, 0, [
   ⟨"loops", 8, 0, .ro, 0x0⟩,
   ⟨"running", 16, 16, .ro, 0x0⟩,
   ⟨"fallback", 24, 17, .ro, 0x0⟩]⟩,
  ⟨"LPE_CAUSE", Reg.LPE_CAUSE, 1, 0, 1, 0, [
   ⟨"fallback", 0, 0, .w1c, 0x0⟩,
   ⟨"refused", 1, 1, .w1c, 0x0⟩,
   ⟨"owner", 2, 2, .w1c, 0x0⟩,
   ⟨"inj_end", 3, 3, .w1c, 0x0⟩,
   ⟨"inj_abort", 4, 4, .w1c, 0x0⟩,
   ⟨"cap_done", 5, 5, .w1c, 0x0⟩]⟩,
  ⟨"LPE_CNT", Reg.LPE_CNT, 1, 0, 1, 0, [
   ⟨"owner", 15, 0, .ro, 0x0⟩,
   ⟨"fallbacks", 31, 16, .ro, 0x0⟩]⟩,
  ⟨"LPE_TIME", Reg.LPE_TIME, 1, 0, 1, 0, [
   ⟨"max", 15, 0, .ro, 0x0⟩]⟩,
  ⟨"LPE_FB", Reg.LPE_FB, 8, 4, 1, 0, [
   ⟨"loops", 31, 0, .ro, 0x0⟩]⟩,
  ⟨"LPE_SNAP_FB", Reg.LPE_SNAP_FB, 8, 4, 1, 0, [
   ⟨"loops", 31, 0, .ro, 0x0⟩]⟩,
  ⟨"LPE_SNAP_CNT", Reg.LPE_SNAP_CNT, 1, 0, 1, 0, [
   ⟨"cnt", 31, 0, .ro, 0x0⟩]⟩,
  ⟨"LPE_CAP_CTL", Reg.LPE_CAP_CTL, 4, 32, 1, 0, [
   ⟨"loop", 7, 0, .rw, 0x0⟩,
   ⟨"start", 8, 8, .wo, 0x0⟩,
   ⟨"stop", 9, 9, .wo, 0x0⟩,
   ⟨"continuous", 10, 10, .rw, 0x0⟩,
   ⟨"trigger", 13, 12, .rw, 0x0⟩,
   ⟨"dec", 31, 16, .rw, 0x1⟩]⟩,
  ⟨"LPE_CAP_SIG", Reg.LPE_CAP_SIG, 4, 32, 1, 0, [
   ⟨"sel", 31, 0, .rw, 0x3020100⟩]⟩,
  ⟨"LPE_CAP_REF", Reg.LPE_CAP_REF, 4, 32, 1, 0, [
   ⟨"ref", 31, 0, .rw, 0xFFFFFFFF⟩]⟩,
  ⟨"LPE_CAP_LEN", Reg.LPE_CAP_LEN, 4, 32, 1, 0, [
   ⟨"samples", 14, 0, .rw, 0x4000⟩]⟩,
  ⟨"LPE_CAP_STAT", Reg.LPE_CAP_STAT, 4, 32, 1, 0, [
   ⟨"pos", 14, 0, .ro, 0x0⟩,
   ⟨"running", 16, 16, .ro, 0x0⟩,
   ⟨"armed", 17, 17, .ro, 0x0⟩,
   ⟨"wrapped", 18, 18, .ro, 0x0⟩,
   ⟨"suspect", 19, 19, .ro, 0x0⟩]⟩,
  ⟨"LPE_CAP_T0", Reg.LPE_CAP_T0, 4, 32, 1, 0, [
   ⟨"tick", 31, 0, .ro, 0x0⟩]⟩,
  ⟨"LPE_INJ_CTL", Reg.LPE_INJ_CTL, 4, 32, 1, 0, [
   ⟨"loop", 7, 0, .rw, 0x0⟩,
   ⟨"point", 8, 8, .rw, 0x0⟩,
   ⟨"kind", 11, 10, .rw, 0x0⟩,
   ⟨"start", 12, 12, .wo, 0x0⟩,
   ⟨"stop", 13, 13, .wo, 0x0⟩,
   ⟨"order", 19, 16, .rw, 0x7⟩,
   ⟨"hold", 31, 24, .rw, 0x1⟩]⟩,
  ⟨"LPE_INJ_AMP", Reg.LPE_INJ_AMP, 4, 32, 1, 0, [
   ⟨"amp", 31, 0, .rw, 0x0⟩]⟩,
  ⟨"LPE_INJ_F0", Reg.LPE_INJ_F0, 4, 32, 1, 0, [
   ⟨"f0", 31, 0, .rw, 0x0⟩]⟩,
  ⟨"LPE_INJ_F1", Reg.LPE_INJ_F1, 4, 32, 1, 0, [
   ⟨"f1", 31, 0, .rw, 0x0⟩]⟩,
  ⟨"LPE_INJ_LEN", Reg.LPE_INJ_LEN, 4, 32, 1, 0, [
   ⟨"samples", 31, 0, .rw, 0x1⟩]⟩,
  ⟨"LPE_INJ_STAT", Reg.LPE_INJ_STAT, 4, 32, 1, 0, [
   ⟨"k", 21, 0, .ro, 0x0⟩,
   ⟨"running", 24, 24, .ro, 0x0⟩]⟩,
  ⟨"LPE_L_CTL", Reg.LPE_L_CTL, 256, 64, 1, 0, [
   ⟨"mode", 0, 0, .rw, 0x0⟩,
   ⟨"reinit", 1, 1, .wo, 0x0⟩,
   ⟨"law", 15, 8, .ro, 0x0⟩,
   ⟨"period", 31, 16, .ro, 0x0⟩]⟩,
  ⟨"LPE_L_STAT", Reg.LPE_L_STAT, 256, 64, 1, 0, [
   ⟨"pv_q", 1, 0, .ro, 0x3⟩,
   ⟨"out_q", 3, 2, .ro, 0x3⟩,
   ⟨"fallback", 4, 4, .ro, 0x0⟩,
   ⟨"at_max", 5, 5, .ro, 0x0⟩,
   ⟨"at_min", 6, 6, .ro, 0x0⟩,
   ⟨"rate", 7, 7, .ro, 0x0⟩,
   ⟨"frozen", 8, 8, .ro, 0x0⟩]⟩,
  ⟨"LPE_L_KP", Reg.LPE_L_KP, 256, 64, 1, 0, [
   ⟨"kp", 31, 0, .rw, 0x0⟩]⟩,
  ⟨"LPE_L_TI", Reg.LPE_L_TI, 256, 64, 1, 0, [
   ⟨"ti", 31, 0, .rw, 0x0⟩]⟩,
  ⟨"LPE_L_TD", Reg.LPE_L_TD, 256, 64, 1, 0, [
   ⟨"td", 31, 0, .rw, 0x0⟩]⟩,
  ⟨"LPE_L_OMIN", Reg.LPE_L_OMIN, 256, 64, 1, 0, [
   ⟨"out_min", 31, 0, .rw, 0x0⟩]⟩,
  ⟨"LPE_L_OMAX", Reg.LPE_L_OMAX, 256, 64, 1, 0, [
   ⟨"out_max", 31, 0, .rw, 0x0⟩]⟩,
  ⟨"LPE_L_ORATE", Reg.LPE_L_ORATE, 256, 64, 1, 0, [
   ⟨"out_rate", 31, 0, .rw, 0x0⟩]⟩,
  ⟨"LPE_L_SP", Reg.LPE_L_SP, 256, 64, 1, 0, [
   ⟨"sp", 31, 0, .rw, 0x0⟩]⟩,
  ⟨"LPE_L_SPRATE", Reg.LPE_L_SPRATE, 256, 64, 1, 0, [
   ⟨"sp_rate", 31, 0, .rw, 0x0⟩]⟩,
  ⟨"LPE_L_FFGAIN", Reg.LPE_L_FFGAIN, 256, 64, 1, 0, [
   ⟨"ff_gain", 31, 0, .rw, 0x0⟩]⟩]

/-- Registers of LPE, part 1. -/
def regsLPE1 : List RegDef := [
  ⟨"LPE_L_DBAND", Reg.LPE_L_DBAND, 256, 64, 1, 0, [
   ⟨"deadband", 31, 0, .rw, 0x0⟩]⟩,
  ⟨"LPE_L_HOLD", Reg.LPE_L_HOLD, 256, 64, 1, 0, [
   ⟨"hold", 31, 0, .rw, 0x0⟩]⟩,
  ⟨"LPE_L_MAN", Reg.LPE_L_MAN, 256, 64, 1, 0, [
   ⟨"man", 31, 0, .rw, 0x0⟩]⟩,
  ⟨"LPE_L_OUT", Reg.LPE_L_OUT, 256, 64, 1, 0, [
   ⟨"out", 31, 0, .ro, 0x0⟩]⟩,
  ⟨"LPE_L_SPEFF", Reg.LPE_L_SPEFF, 256, 64, 1, 0, [
   ⟨"sp_eff", 31, 0, .ro, 0x0⟩]⟩]

/-- Registers of CE, part 0. -/
def regsCE0 : List RegDef := [
  ⟨"CE_STAT", Reg.CE_STAT, 1, 0, 1, 0, [
   ⟨"running", 7, 0, .ro, 0x0⟩,
   ⟨"loaded", 15, 8, .ro, 0x0⟩,
   ⟨"restarting", 23, 16, .ro, 0x0⟩]⟩,
  ⟨"CE_CAUSE", Reg.CE_CAUSE, 1, 0, 1, 0, [
   ⟨"trap", 0, 0, .w1c, 0x0⟩,
   ⟨"overrun", 1, 1, .w1c, 0x0⟩,
   ⟨"lost_event", 2, 2, .w1c, 0x0⟩,
   ⟨"owner", 3, 3, .w1c, 0x0⟩,
   ⟨"patch_done", 4, 4, .w1c, 0x0⟩,
   ⟨"patch_refused", 5, 5, .w1c, 0x0⟩,
   ⟨"ret_init", 6, 6, .w1c, 0x0⟩,
   ⟨"restart", 7, 7, .w1c, 0x0⟩]⟩,
  ⟨"CE_CMD", Reg.CE_CMD, 1, 0, 1, 0, [
   ⟨"engine", 2, 0, .wo, 0x0⟩,
   ⟨"task", 7, 4, .wo, 0x0⟩,
   ⟨"cmd", 9, 8, .wo, 0x0⟩,
   ⟨"key", 31, 16, .wo, 0x0⟩]⟩,
  ⟨"CE_CMDSTAT", Reg.CE_CMDSTAT, 1, 0, 1, 0, [
   ⟨"status", 1, 0, .ro, 0x0⟩]⟩,
  ⟨"CE_PATCH_CTL", Reg.CE_PATCH_CTL, 1, 0, 1, 0, [
   ⟨"engine", 2, 0, .rw, 0x0⟩,
   ⟨"task", 7, 4, .rw, 0x0⟩,
   ⟨"size", 9, 8, .rw, 0x0⟩,
   ⟨"space", 10, 10, .rw, 0x0⟩,
   ⟨"go", 16, 16, .wo, 0x0⟩,
   ⟨"status", 19, 18, .ro, 0x0⟩,
   ⟨"reason", 23, 20, .ro, 0x0⟩]⟩,
  ⟨"CE_PATCH_ADDR", Reg.CE_PATCH_ADDR, 1, 0, 1, 0, [
   ⟨"addr", 16, 0, .rw, 0x0⟩]⟩,
  ⟨"CE_PATCH_LO", Reg.CE_PATCH_LO, 1, 0, 1, 0, [
   ⟨"data", 31, 0, .rw, 0x0⟩]⟩,
  ⟨"CE_PATCH_HI", Reg.CE_PATCH_HI, 1, 0, 1, 0, [
   ⟨"data", 31, 0, .rw, 0x0⟩]⟩,
  ⟨"CE_RET_CTL", Reg.CE_RET_CTL, 1, 0, 1, 0, [
   ⟨"period", 15, 0, .rw, 0x3C⟩,
   ⟨"save", 16, 16, .wo, 0x0⟩]⟩,
  ⟨"CE_RET_STAT", Reg.CE_RET_STAT, 1, 0, 1, 0, [
   ⟨"restored", 7, 0, .ro, 0x0⟩,
   ⟨"initialised", 15, 8, .ro, 0x0⟩,
   ⟨"mid_task", 23, 16, .ro, 0x0⟩]⟩,
  ⟨"CE_RET_SEQ", Reg.CE_RET_SEQ, 1, 0, 1, 0, [
   ⟨"seq", 31, 0, .ro, 0x0⟩]⟩,
  ⟨"CE_CNT", Reg.CE_CNT, 1, 0, 1, 0, [
   ⟨"owner", 15, 0, .ro, 0x0⟩,
   ⟨"traps", 31, 16, .ro, 0x0⟩]⟩,
  ⟨"CE_SNAP_STAT", Reg.CE_SNAP_STAT, 1, 0, 1, 0, [
   ⟨"stat", 31, 0, .ro, 0x0⟩]⟩,
  ⟨"CE_SNAP_CNT", Reg.CE_SNAP_CNT, 1, 0, 1, 0, [
   ⟨"cnt", 31, 0, .ro, 0x0⟩]⟩,
  ⟨"CE_E_STAT", Reg.CE_E_STAT, 8, 512, 1, 0, [
   ⟨"running", 0, 0, .ro, 0x0⟩,
   ⟨"idle", 1, 1, .ro, 0x0⟩,
   ⟨"task", 7, 4, .ro, 0x0⟩]⟩,
  ⟨"CE_E_LOAD", Reg.CE_E_LOAD, 8, 512, 1, 0, [
   ⟨"last", 15, 0, .ro, 0x0⟩,
   ⟨"peak", 31, 16, .ro, 0x0⟩]⟩,
  ⟨"CE_E_TRAP", Reg.CE_E_TRAP, 8, 512, 1, 0, [
   ⟨"code", 7, 0, .ro, 0x0⟩,
   ⟨"task", 11, 8, .ro, 0x0⟩,
   ⟨"valid", 12, 12, .ro, 0x0⟩]⟩,
  ⟨"CE_E_TRAPPC", Reg.CE_E_TRAPPC, 8, 512, 1, 0, [
   ⟨"pc", 16, 0, .ro, 0x0⟩]⟩,
  ⟨"CE_T_STAT", Reg.CE_T_STAT, 8, 512, 16, 16, [
   ⟨"state", 2, 0, .ro, 0x0⟩,
   ⟨"kind", 3, 3, .ro, 0x0⟩,
   ⟨"priority", 7, 4, .ro, 0x0⟩,
   ⟨"pending", 8, 8, .ro, 0x0⟩,
   ⟨"overruns", 31, 16, .ro, 0x0⟩]⟩,
  ⟨"CE_T_TIME", Reg.CE_T_TIME, 8, 512, 16, 16, [
   ⟨"last", 15, 0, .ro, 0x0⟩,
   ⟨"max", 31, 16, .ro, 0x0⟩]⟩,
  ⟨"CE_T_REL", Reg.CE_T_REL, 8, 512, 16, 16, [
   ⟨"releases", 31, 0, .ro, 0x0⟩]⟩,
  ⟨"CE_T_LOST", Reg.CE_T_LOST, 8, 512, 16, 16, [
   ⟨"lost", 15, 0, .ro, 0x0⟩,
   ⟨"late", 31, 16, .ro, 0x0⟩]⟩]

/-- Registers of CHN, part 0. -/
def regsCHN0 : List RegDef := [
  ⟨"CHN_STAT", Reg.CHN_STAT, 1, 0, 1, 0, [
   ⟨"counters", 6, 0, .ro, 0x0⟩,
   ⟨"drive", 8, 8, .ro, 0x0⟩,
   ⟨"hold", 9, 9, .ro, 0x0⟩,
   ⟨"disabled", 10, 10, .ro, 0x0⟩]⟩,
  ⟨"CHN_CAUSE", Reg.CHN_CAUSE, 1, 0, 1, 0, [
   ⟨"bad", 0, 0, .w1c, 0x0⟩,
   ⟨"overrate", 1, 1, .w1c, 0x0⟩,
   ⟨"chatter", 2, 2, .w1c, 0x0⟩,
   ⟨"stuck", 3, 3, .w1c, 0x0⟩,
   ⟨"out_fault", 4, 4, .w1c, 0x0⟩,
   ⟨"pc_reset", 5, 5, .w1c, 0x0⟩,
   ⟨"exc_fault", 6, 6, .w1c, 0x0⟩]⟩,
  ⟨"CHN_CNT", Reg.CHN_CNT, 1, 0, 1, 0, [
   ⟨"bad", 15, 0, .ro, 0x0⟩,
   ⟨"out_faults", 31, 16, .ro, 0x0⟩]⟩,
  ⟨"CHN_BAD", Reg.CHN_BAD, 16, 4, 1, 0, [
   ⟨"bad", 31, 0, .ro, 0x0⟩]⟩,
  ⟨"CHN_PF_STAT", Reg.CHN_PF_STAT, 32, 4, 1, 0, [
   ⟨"rate", 11, 0, .ro, 0x0⟩,
   ⟨"slots", 20, 16, .ro, 0x0⟩,
   ⟨"exc_fault", 24, 24, .ro, 0x0⟩]⟩,
  ⟨"CHN_SEL", Reg.CHN_SEL, 1, 0, 1, 0, [
   ⟨"channel", 8, 0, .rw, 0x0⟩]⟩,
  ⟨"CHN_CINFO", Reg.CHN_CINFO, 1, 0, 1, 0, [
   ⟨"mode", 7, 0, .ro, 0x0⟩,
   ⟨"range", 11, 8, .ro, 0x0⟩,
   ⟨"quality", 13, 12, .ro, 0x3⟩,
   ⟨"overrate", 16, 16, .ro, 0x0⟩,
   ⟨"chatter", 17, 17, .ro, 0x0⟩,
   ⟨"stuck", 18, 18, .ro, 0x0⟩,
   ⟨"out_fault", 19, 19, .ro, 0x0⟩,
   ⟨"subst", 20, 20, .ro, 0x0⟩]⟩,
  ⟨"CHN_CRAW", Reg.CHN_CRAW, 1, 0, 1, 0, [
   ⟨"code", 23, 0, .ro, 0x0⟩]⟩,
  ⟨"CHN_CVAL", Reg.CHN_CVAL, 1, 0, 1, 0, [
   ⟨"value", 31, 0, .ro, 0x0⟩]⟩,
  ⟨"CHN_CSEC", Reg.CHN_CSEC, 1, 0, 1, 0, [
   ⟨"value", 31, 0, .ro, 0x0⟩]⟩,
  ⟨"CHN_SNAP_BAD", Reg.CHN_SNAP_BAD, 1, 0, 1, 0, [
   ⟨"bad", 9, 0, .ro, 0x0⟩]⟩,
  ⟨"CHN_PC_LO", Reg.CHN_PC_LO, 64, 16, 1, 0, [
   ⟨"count", 31, 0, .ro, 0x0⟩]⟩,
  ⟨"CHN_PC_HI", Reg.CHN_PC_HI, 64, 16, 1, 0, [
   ⟨"count", 31, 0, .ro, 0x0⟩]⟩,
  ⟨"CHN_PC_CFG", Reg.CHN_PC_CFG, 64, 16, 1, 0, [
   ⟨"channel", 8, 0, .ro, 0x0⟩,
   ⟨"configured", 12, 12, .ro, 0x0⟩,
   ⟨"edge", 13, 13, .ro, 0x0⟩]⟩,
  ⟨"CHN_PC_STAT", Reg.CHN_PC_STAT, 64, 16, 1, 0, [
   ⟨"overrates", 15, 0, .ro, 0x0⟩,
   ⟨"overrate", 16, 16, .w1c, 0x0⟩]⟩,
  ⟨"CHN_SNAP_PC_LO", Reg.CHN_SNAP_PC_LO, 64, 8, 1, 0, [
   ⟨"count", 31, 0, .ro, 0x0⟩]⟩,
  ⟨"CHN_SNAP_PC_HI", Reg.CHN_SNAP_PC_HI, 64, 8, 1, 0, [
   ⟨"count", 31, 0, .ro, 0x0⟩]⟩]

/-- Registers of MTR, part 0. -/
def regsMTR0 : List RegDef := [
  ⟨"MTR_STAT", Reg.MTR_STAT, 1, 0, 1, 0, [
   ⟨"meters", 6, 0, .ro, 0x0⟩,
   ⟨"running", 8, 8, .ro, 0x0⟩,
   ⟨"log_full", 9, 9, .ro, 0x0⟩,
   ⟨"saving", 10, 10, .ro, 0x0⟩,
   ⟨"archiving", 11, 11, .ro, 0x0⟩]⟩,
  ⟨"MTR_CAUSE", Reg.MTR_CAUSE, 1, 0, 1, 0, [
   ⟨"suspect", 0, 0, .w1c, 0x0⟩,
   ⟨"overrate", 1, 1, .w1c, 0x0⟩,
   ⟨"input", 2, 2, .w1c, 0x0⟩,
   ⟨"unsaved", 3, 3, .w1c, 0x0⟩,
   ⟨"log_high", 4, 4, .w1c, 0x0⟩,
   ⟨"log_full", 5, 5, .w1c, 0x0⟩,
   ⟨"tp_overflow", 6, 6, .w1c, 0x0⟩,
   ⟨"save_fail", 7, 7, .w1c, 0x0⟩,
   ⟨"archive", 8, 8, .w1c, 0x0⟩]⟩,
  ⟨"MTR_SAVE", Reg.MTR_SAVE, 1, 0, 1, 0, [
   ⟨"period", 11, 0, .rw, 0x3C⟩,
   ⟨"save", 16, 16, .wo, 0x0⟩]⟩,
  ⟨"MTR_SAVESEQ", Reg.MTR_SAVESEQ, 1, 0, 1, 0, [
   ⟨"seq", 31, 0, .ro, 0x0⟩]⟩,
  ⟨"MTR_DAYOFS", Reg.MTR_DAYOFS, 1, 0, 1, 0, [
   ⟨"offset", 15, 0, .rw, 0x0⟩]⟩,
  ⟨"MTR_LOG", Reg.MTR_LOG, 1, 0, 1, 0, [
   ⟨"used", 16, 0, .ro, 0x0⟩,
   ⟨"torn", 31, 24, .ro, 0x0⟩]⟩,
  ⟨"MTR_LOG_LAST", Reg.MTR_LOG_LAST, 1, 0, 1, 0, [
   ⟨"seconds", 31, 0, .ro, 0x0⟩]⟩,
  ⟨"MTR_CNT", Reg.MTR_CNT, 1, 0, 1, 0, [
   ⟨"suspect", 15, 0, .ro, 0x0⟩,
   ⟨"unsaved", 31, 16, .ro, 0x0⟩]⟩,
  ⟨"MTR_CNT2", Reg.MTR_CNT2, 1, 0, 1, 0, [
   ⟨"log_lost", 15, 0, .ro, 0x0⟩,
   ⟨"archive_fail", 31, 16, .ro, 0x0⟩]⟩,
  ⟨"MTR_ARCH", Reg.MTR_ARCH, 1, 0, 1, 0, [
   ⟨"day", 15, 0, .ro, 0x0⟩]⟩,
  ⟨"MTR_TAR_SEL", Reg.MTR_TAR_SEL, 1, 0, 1, 0, [
   ⟨"table", 2, 0, .rw, 0x0⟩,
   ⟨"weekday", 6, 4, .rw, 0x0⟩]⟩,
  ⟨"MTR_TAR_D", Reg.MTR_TAR_D, 3, 4, 1, 0, [
   ⟨"slots", 31, 0, .rw, 0x0⟩]⟩,
  ⟨"MTR_SEL", Reg.MTR_SEL, 1, 0, 1, 0, [
   ⟨"meter", 6, 0, .rw, 0x0⟩]⟩,
  ⟨"MTR_MINFO", Reg.MTR_MINFO, 1, 0, 1, 0, [
   ⟨"class", 1, 0, .ro, 0x0⟩,
   ⟨"source", 2, 2, .ro, 0x0⟩,
   ⟨"configured", 3, 3, .ro, 0x0⟩,
   ⟨"rate", 5, 4, .ro, 0x0⟩,
   ⟨"no_load", 8, 8, .ro, 0x0⟩,
   ⟨"reverse", 9, 9, .ro, 0x0⟩,
   ⟨"suspect", 10, 10, .ro, 0x0⟩]⟩,
  ⟨"MTR_MREG_LO", Reg.MTR_MREG_LO, 10, 8, 1, 0, [
   ⟨"value", 31, 0, .ro, 0x0⟩]⟩,
  ⟨"MTR_MREG_HI", Reg.MTR_MREG_HI, 10, 8, 1, 0, [
   ⟨"value", 31, 0, .ro, 0x0⟩]⟩,
  ⟨"MTR_MPEAK", Reg.MTR_MPEAK, 1, 0, 1, 0, [
   ⟨"peak", 31, 0, .ro, 0x0⟩]⟩,
  ⟨"MTR_MERR", Reg.MTR_MERR, 1, 0, 1, 0, [
   ⟨"ms", 31, 0, .ro, 0x0⟩]⟩,
  ⟨"MTR_MTP", Reg.MTR_MTP, 1, 0, 1, 0, [
   ⟨"pending", 15, 0, .ro, 0x0⟩]⟩,
  ⟨"MTR_IVL_SEL", Reg.MTR_IVL_SEL, 1, 0, 1, 0, [
   ⟨"meter", 6, 0, .rw, 0x0⟩,
   ⟨"age", 14, 8, .rw, 0x0⟩]⟩,
  ⟨"MTR_IVL_STAT", Reg.MTR_IVL_STAT, 1, 0, 1, 0, [
   ⟨"valid", 0, 0, .ro, 0x0⟩]⟩,
  ⟨"MTR_IVL_DATA", Reg.MTR_IVL_DATA, 16, 4, 1, 0, [
   ⟨"bytes", 31, 0, .ro, 0x0⟩]⟩,
  ⟨"MTR_TPW", Reg.MTR_TPW, 72, 4, 1, 0, [
   ⟨"weight", 19, 0, .rw, 0x3E8⟩]⟩,
  ⟨"MTR_SNAP_E_LO", Reg.MTR_SNAP_E_LO, 72, 8, 1, 0, [
   ⟨"value", 31, 0, .ro, 0x0⟩]⟩,
  ⟨"MTR_SNAP_E_HI", Reg.MTR_SNAP_E_HI, 72, 8, 1, 0, [
   ⟨"value", 31, 0, .ro, 0x0⟩]⟩,
  ⟨"MTR_SNAP_STAT", Reg.MTR_SNAP_STAT, 1, 0, 1, 0, [
   ⟨"stat", 31, 0, .ro, 0x0⟩]⟩]

/-- Registers of RED, part 0. -/
def regsRED0 : List RegDef := [
  ⟨"RED_STAT", Reg.RED_STAT, 1, 0, 1, 0, [
   ⟨"role", 0, 0, .ro, 0x0⟩,
   ⟨"pair", 1, 1, .ro, 0x0⟩,
   ⟨"act_out", 2, 2, .ro, 0x0⟩,
   ⟨"act_in", 3, 3, .ro, 0x0⟩,
   ⟨"gate", 4, 4, .ro, 0x0⟩,
   ⟨"sync", 5, 5, .ro, 0x0⟩,
   ⟨"lanes_up", 7, 6, .ro, 0x0⟩,
   ⟨"aligning", 8, 8, .ro, 0x0⟩,
   ⟨"lockstep", 9, 9, .ro, 0x0⟩,
   ⟨"mismatch", 10, 10, .ro, 0x0⟩,
   ⟨"fit", 11, 11, .ro, 0x0⟩,
   ⟨"peer_state", 14, 12, .ro, 0x0⟩,
   ⟨"swap_due", 15, 15, .ro, 0x0⟩]⟩,
  ⟨"RED_CAUSE", Reg.RED_CAUSE, 1, 0, 1, 0, [
   ⟨"takeover", 0, 0, .w1c, 0x0⟩,
   ⟨"takeover_unaligned", 1, 1, .w1c, 0x0⟩,
   ⟨"handover", 2, 2, .w1c, 0x0⟩,
   ⟨"swap_deferred", 3, 3, .w1c, 0x0⟩,
   ⟨"mismatch", 4, 4, .w1c, 0x0⟩,
   ⟨"lag", 5, 5, .w1c, 0x0⟩,
   ⟨"sync_loss", 6, 6, .w1c, 0x0⟩,
   ⟨"lane", 7, 7, .w1c, 0x0⟩,
   ⟨"interlock_fault", 8, 8, .w1c, 0x0⟩,
   ⟨"claim_lost", 9, 9, .w1c, 0x0⟩,
   ⟨"digest", 10, 10, .w1c, 0x0⟩]⟩,
  ⟨"RED_CTL", Reg.RED_CTL, 1, 0, 1, 0, [
   ⟨"lag_allow", 4, 0, .rw, 0x8⟩,
   ⟨"swap_inhibit", 8, 8, .rw, 0x0⟩]⟩,
  ⟨"RED_CMD", Reg.RED_CMD, 1, 0, 1, 0, [
   ⟨"cmd", 1, 0, .wo, 0x0⟩,
   ⟨"key", 31, 16, .wo, 0x0⟩]⟩,
  ⟨"RED_CMDSTAT", Reg.RED_CMDSTAT, 1, 0, 1, 0, [
   ⟨"status", 1, 0, .ro, 0x0⟩]⟩,
  ⟨"RED_CMP", Reg.RED_CMP, 1, 0, 1, 0, [
   ⟨"run", 15, 0, .ro, 0x0⟩,
   ⟨"total", 31, 16, .ro, 0x0⟩]⟩,
  ⟨"RED_CRC_OWN", Reg.RED_CRC_OWN, 1, 0, 1, 0, [
   ⟨"crc", 31, 0, .ro, 0x0⟩]⟩,
  ⟨"RED_CRC_PEER", Reg.RED_CRC_PEER, 1, 0, 1, 0, [
   ⟨"crc", 31, 0, .ro, 0x0⟩]⟩,
  ⟨"RED_CMP_HW", Reg.RED_CMP_HW, 1, 0, 1, 0, [
   ⟨"headway", 31, 0, .ro, 0x0⟩]⟩,
  ⟨"RED_LAG", Reg.RED_LAG, 1, 0, 1, 0, [
   ⟨"max", 4, 0, .ro, 0x0⟩]⟩,
  ⟨"RED_LINK", Reg.RED_LINK, 1, 0, 1, 0, [
   ⟨"resends", 15, 0, .ro, 0x0⟩,
   ⟨"downs", 31, 16, .ro, 0x0⟩]⟩,
  ⟨"RED_ALIGN", Reg.RED_ALIGN, 1, 0, 1, 0, [
   ⟨"lines", 23, 0, .ro, 0x0⟩]⟩,
  ⟨"RED_SWAP_LAST", Reg.RED_SWAP_LAST, 1, 0, 1, 0, [
   ⟨"seconds", 31, 0, .ro, 0x0⟩]⟩,
  ⟨"RED_PRIV", Reg.RED_PRIV, 1, 0, 1, 0, [
   ⟨"channel", 8, 0, .rw, 0x0⟩]⟩,
  ⟨"RED_PRIV_VAL", Reg.RED_PRIV_VAL, 1, 0, 1, 0, [
   ⟨"value", 31, 0, .ro, 0x0⟩]⟩,
  ⟨"RED_SNAP_STAT", Reg.RED_SNAP_STAT, 1, 0, 1, 0, [
   ⟨"stat", 31, 0, .ro, 0x0⟩]⟩,
  ⟨"RED_SNAP_CMP", Reg.RED_SNAP_CMP, 1, 0, 1, 0, [
   ⟨"cmp", 31, 0, .ro, 0x0⟩]⟩]

/-- Registers of MGT, part 0. -/
def regsMGT0 : List RegDef := [
  ⟨"MGT_STAT", Reg.MGT_STAT, 1, 0, 1, 0, [
   ⟨"fw_slot", 0, 0, .ro, 0x0⟩,
   ⟨"trial", 1, 1, .ro, 0x0⟩,
   ⟨"recovery", 2, 2, .ro, 0x0⟩,
   ⟨"fw_running", 3, 3, .ro, 0x0⟩,
   ⟨"cal_valid", 4, 4, .ro, 0x0⟩,
   ⟨"pps_locked", 5, 5, .ro, 0x0⟩,
   ⟨"leap_pending", 6, 6, .ro, 0x0⟩,
   ⟨"evr_ready", 7, 7, .ro, 0x0⟩]⟩,
  ⟨"MGT_CAUSE", Reg.MGT_CAUSE, 1, 0, 1, 0, [
   ⟨"watchdog", 0, 0, .w1c, 0x0⟩,
   ⟨"fw_trial_fail", 1, 1, .w1c, 0x0⟩,
   ⟨"fw_fallback", 2, 2, .w1c, 0x0⟩,
   ⟨"temp", 3, 3, .w1c, 0x0⟩,
   ⟨"temp_crit", 4, 4, .w1c, 0x0⟩,
   ⟨"volt", 5, 5, .w1c, 0x0⟩,
   ⟨"evr_full", 6, 6, .w1c, 0x0⟩,
   ⟨"evr_suppressed", 7, 7, .w1c, 0x0⟩,
   ⟨"cal_step", 8, 8, .w1c, 0x0⟩,
   ⟨"pps_fault", 9, 9, .w1c, 0x0⟩,
   ⟨"snap_missed", 10, 10, .w1c, 0x0⟩,
   ⟨"evr_lost", 11, 11, .w1c, 0x0⟩]⟩,
  ⟨"MGT_FW_VERA", Reg.MGT_FW_VERA, 1, 0, 1, 0, [
   ⟨"version", 31, 0, .ro, 0x0⟩]⟩,
  ⟨"MGT_FW_VERB", Reg.MGT_FW_VERB, 1, 0, 1, 0, [
   ⟨"version", 31, 0, .ro, 0x0⟩]⟩,
  ⟨"MGT_FW_SVN", Reg.MGT_FW_SVN, 1, 0, 1, 0, [
   ⟨"floor", 15, 0, .ro, 0x0⟩,
   ⟨"running", 31, 16, .ro, 0x0⟩]⟩,
  ⟨"MGT_WDG", Reg.MGT_WDG, 1, 0, 1, 0, [
   ⟨"period", 10, 0, .rwh, 0xFA⟩]⟩,
  ⟨"MGT_CAL_SEC", Reg.MGT_CAL_SEC, 1, 0, 1, 0, [
   ⟨"seconds", 31, 0, .ro, 0x0⟩]⟩,
  ⟨"MGT_CAL_FRAC", Reg.MGT_CAL_FRAC, 1, 0, 1, 0, [
   ⟨"fraction", 15, 0, .ro, 0x0⟩,
   ⟨"valid", 16, 16, .ro, 0x0⟩,
   ⟨"leap_now", 17, 17, .ro, 0x0⟩,
   ⟨"slewing", 18, 18, .ro, 0x0⟩,
   ⟨"stepped", 19, 19, .ro, 0x0⟩]⟩,
  ⟨"MGT_CAL_SETSEC", Reg.MGT_CAL_SETSEC, 1, 0, 1, 0, [
   ⟨"seconds", 31, 0, .rw, 0x0⟩]⟩,
  ⟨"MGT_CAL_SETFRAC", Reg.MGT_CAL_SETFRAC, 1, 0, 1, 0, [
   ⟨"fraction", 15, 0, .rw, 0x0⟩]⟩,
  ⟨"MGT_CAL_CMD", Reg.MGT_CAL_CMD, 1, 0, 1, 0, [
   ⟨"cmd", 1, 0, .wo, 0x0⟩,
   ⟨"key", 31, 16, .wo, 0x0⟩]⟩,
  ⟨"MGT_CAL_LEAP", Reg.MGT_CAL_LEAP, 1, 0, 1, 0, [
   ⟨"day", 15, 0, .rw, 0x0⟩,
   ⟨"kind", 17, 16, .rw, 0x0⟩]⟩,
  ⟨"MGT_CAL_PPS", Reg.MGT_CAL_PPS, 1, 0, 1, 0, [
   ⟨"enable", 0, 0, .rw, 0x0⟩]⟩,
  ⟨"MGT_CAL_SLEW", Reg.MGT_CAL_SLEW, 1, 0, 1, 0, [
   ⟨"remaining", 31, 0, .ro, 0x0⟩]⟩,
  ⟨"MGT_CAL_PPSERR", Reg.MGT_CAL_PPSERR, 1, 0, 1, 0, [
   ⟨"error", 31, 0, .ro, 0x0⟩]⟩,
  ⟨"MGT_CAL_CNT", Reg.MGT_CAL_CNT, 1, 0, 1, 0, [
   ⟨"pps_rejected", 15, 0, .ro, 0x0⟩,
   ⟨"steps", 31, 16, .ro, 0x0⟩]⟩,
  ⟨"MGT_TEMP", Reg.MGT_TEMP, 4, 4, 1, 0, [
   ⟨"temp", 31, 0, .ro, 0x0⟩]⟩,
  ⟨"MGT_TLIM", Reg.MGT_TLIM, 1, 0, 1, 0, [
   ⟨"limit", 31, 0, .rw, 0x42C80000⟩]⟩,
  ⟨"MGT_VOLT", Reg.MGT_VOLT, 7, 4, 1, 0, [
   ⟨"mv", 15, 0, .ro, 0x0⟩]⟩,
  ⟨"MGT_EVR_STAT", Reg.MGT_EVR_STAT, 1, 0, 1, 0, [
   ⟨"ready", 0, 0, .ro, 0x0⟩,
   ⟨"flushing", 1, 1, .ro, 0x0⟩,
   ⟨"scanning", 2, 2, .ro, 0x0⟩,
   ⟨"buffered", 28, 16, .ro, 0x0⟩]⟩,
  ⟨"MGT_EVR_SEQ_LO", Reg.MGT_EVR_SEQ_LO, 1, 0, 1, 0, [
   ⟨"seq", 31, 0, .ro, 0x0⟩]⟩,
  ⟨"MGT_EVR_SEQ_HI", Reg.MGT_EVR_SEQ_HI, 1, 0, 1, 0, [
   ⟨"seq", 15, 0, .ro, 0x0⟩]⟩,
  ⟨"MGT_EVR_WRAP", Reg.MGT_EVR_WRAP, 1, 0, 1, 0, [
   ⟨"wraps", 28, 0, .ro, 0x0⟩]⟩,
  ⟨"MGT_EVR_CTL", Reg.MGT_EVR_CTL, 1, 0, 1, 0, [
   ⟨"flush_period", 11, 0, .rw, 0x258⟩,
   ⟨"flush", 16, 16, .wo, 0x0⟩]⟩,
  ⟨"MGT_EVR_CNT", Reg.MGT_EVR_CNT, 1, 0, 1, 0, [
   ⟨"suppressed", 15, 0, .ro, 0x0⟩,
   ⟨"direct_full", 31, 16, .ro, 0x0⟩]⟩,
  ⟨"MGT_EVR_LOST", Reg.MGT_EVR_LOST, 1, 0, 1, 0, [
   ⟨"lost", 15, 0, .ro, 0x0⟩]⟩,
  ⟨"MGT_SNAP_CTL", Reg.MGT_SNAP_CTL, 1, 0, 1, 0, [
   ⟨"fire", 0, 0, .wo, 0x0⟩,
   ⟨"drive", 1, 1, .rw, 0x1⟩,
   ⟨"hold", 2, 2, .rw, 0x0⟩,
   ⟨"pin_in", 3, 3, .rw, 0x1⟩]⟩,
  ⟨"MGT_SNAP_PER", Reg.MGT_SNAP_PER, 1, 0, 1, 0, [
   ⟨"headways", 15, 0, .rw, 0x0⟩]⟩,
  ⟨"MGT_SNAP_SEQ", Reg.MGT_SNAP_SEQ, 1, 0, 1, 0, [
   ⟨"count", 31, 0, .ro, 0x0⟩]⟩,
  ⟨"MGT_SNAP_MISS", Reg.MGT_SNAP_MISS, 1, 0, 1, 0, [
   ⟨"missed", 15, 0, .ro, 0x0⟩]⟩]

/-- Registers of MGT, part 1. -/
def regsMGT1 : List RegDef := [
  ⟨"MGT_SNAP_CAL", Reg.MGT_SNAP_CAL, 1, 0, 1, 0, [
   ⟨"seconds", 31, 0, .ro, 0x0⟩]⟩,
  ⟨"MGT_SNAP_FRAC", Reg.MGT_SNAP_FRAC, 1, 0, 1, 0, [
   ⟨"fraction", 15, 0, .ro, 0x0⟩,
   ⟨"valid", 16, 16, .ro, 0x0⟩]⟩,
  ⟨"MGT_SNAP_EVR", Reg.MGT_SNAP_EVR, 1, 0, 1, 0, [
   ⟨"seq", 31, 0, .ro, 0x0⟩]⟩,
  ⟨"MGT_SNAP_STAT", Reg.MGT_SNAP_STAT, 1, 0, 1, 0, [
   ⟨"stat", 31, 0, .ro, 0x0⟩]⟩]

/-- Registers of KEY, part 0. -/
def regsKEY0 : List RegDef := [
  ⟨"KEY_STAT", Reg.KEY_STAT, 1, 0, 1, 0, [
   ⟨"ready", 0, 0, .ro, 0x0⟩,
   ⟨"busy", 1, 1, .ro, 0x0⟩,
   ⟨"remasking", 2, 2, .ro, 0x0⟩,
   ⟨"rng_ok", 3, 3, .ro, 0x0⟩,
   ⟨"log_full", 4, 4, .ro, 0x0⟩,
   ⟨"site_mask", 5, 5, .ro, 0x0⟩,
   ⟨"signers", 15, 8, .ro, 0x0⟩]⟩,
  ⟨"KEY_CAUSE", Reg.KEY_CAUSE, 1, 0, 1, 0, [
   ⟨"slot_bad", 0, 0, .w1c, 0x0⟩,
   ⟨"zeroised", 1, 1, .w1c, 0x0⟩,
   ⟨"rng", 2, 2, .w1c, 0x0⟩,
   ⟨"unwrap", 3, 3, .w1c, 0x0⟩,
   ⟨"key_change", 4, 4, .w1c, 0x0⟩,
   ⟨"signer_change", 5, 5, .w1c, 0x0⟩,
   ⟨"write_fail", 6, 6, .w1c, 0x0⟩]⟩,
  ⟨"KEY_LOADED", Reg.KEY_LOADED, 2, 4, 1, 0, [
   ⟨"slots", 31, 0, .ro, 0x0⟩]⟩,
  ⟨"KEY_DAMAGED", Reg.KEY_DAMAGED, 2, 4, 1, 0, [
   ⟨"slots", 31, 0, .ro, 0x0⟩]⟩,
  ⟨"KEY_CTR_LO", Reg.KEY_CTR_LO, 1, 0, 1, 0, [
   ⟨"count", 31, 0, .ro, 0x0⟩]⟩,
  ⟨"KEY_CTR_HI", Reg.KEY_CTR_HI, 1, 0, 1, 0, [
   ⟨"count", 31, 0, .ro, 0x0⟩]⟩,
  ⟨"KEY_REMASK", Reg.KEY_REMASK, 1, 0, 1, 0, [
   ⟨"hours", 7, 0, .ro, 0x18⟩,
   ⟨"rounds", 31, 16, .ro, 0x0⟩]⟩,
  ⟨"KEY_MA_CNT0", Reg.KEY_MA_CNT0, 1, 0, 1, 0, [
   ⟨"counts", 31, 0, .ro, 0x0⟩]⟩,
  ⟨"KEY_MA_CNT1", Reg.KEY_MA_CNT1, 1, 0, 1, 0, [
   ⟨"counts", 31, 0, .ro, 0x0⟩]⟩,
  ⟨"KEY_UID", Reg.KEY_UID, 4, 4, 1, 0, [
   ⟨"uid", 31, 0, .ro, 0x0⟩]⟩,
  ⟨"KEY_SNAP_STAT", Reg.KEY_SNAP_STAT, 1, 0, 1, 0, [
   ⟨"stat", 31, 0, .ro, 0x0⟩]⟩,
  ⟨"KEY_SNAP_CTR", Reg.KEY_SNAP_CTR, 1, 0, 1, 0, [
   ⟨"count", 31, 0, .ro, 0x0⟩]⟩]

/-- Registers of HIF, part 0. -/
def regsHIF0 : List RegDef := [
  ⟨"HIF_STAT", Reg.HIF_STAT, 1, 0, 1, 0, [
   ⟨"seq", 15, 0, .ro, 0x0⟩,
   ⟨"write_pending", 16, 16, .ro, 0x0⟩]⟩,
  ⟨"HIF_CAUSE", Reg.HIF_CAUSE, 1, 0, 1, 0, [
   ⟨"crc", 0, 0, .w1c, 0x0⟩,
   ⟨"refused", 1, 1, .w1c, 0x0⟩,
   ⟨"aborted", 2, 2, .w1c, 0x0⟩,
   ⟨"bad_cmd", 3, 3, .w1c, 0x0⟩,
   ⟨"mb_done", 4, 4, .w1c, 0x0⟩,
   ⟨"mb_abort", 5, 5, .w1c, 0x0⟩,
   ⟨"mb_refused", 6, 6, .w1c, 0x0⟩]⟩,
  ⟨"HIF_CNT", Reg.HIF_CNT, 1, 0, 1, 0, [
   ⟨"crc", 15, 0, .ro, 0x0⟩,
   ⟨"busy", 31, 16, .ro, 0x0⟩]⟩,
  ⟨"HIF_CNT2", Reg.HIF_CNT2, 1, 0, 1, 0, [
   ⟨"refused", 15, 0, .ro, 0x0⟩,
   ⟨"aborted", 31, 16, .ro, 0x0⟩]⟩,
  ⟨"HIF_INT_CTL", Reg.HIF_INT_CTL, 1, 0, 1, 0, [
   ⟨"enable", 0, 0, .rw, 0x1⟩]⟩,
  ⟨"HIF_INT_STAT", Reg.HIF_INT_STAT, 1, 0, 1, 0, [
   ⟨"summary", 16, 0, .ro, 0x0⟩]⟩,
  ⟨"HIF_LAST_ADDR", Reg.HIF_LAST_ADDR, 1, 0, 1, 0, [
   ⟨"addr", 31, 0, .ro, 0x0⟩]⟩,
  ⟨"HIF_LAST_RES", Reg.HIF_LAST_RES, 1, 0, 1, 0, [
   ⟨"code", 3, 0, .ro, 0x0⟩,
   ⟨"reason", 7, 4, .ro, 0x0⟩,
   ⟨"write", 8, 8, .ro, 0x0⟩]⟩,
  ⟨"HIF_INT_MASK", Reg.HIF_INT_MASK, 17, 4, 1, 0, [
   ⟨"mask", 31, 0, .rw, 0xFFFFFFFF⟩]⟩,
  ⟨"HIF_SNAP_CNT", Reg.HIF_SNAP_CNT, 1, 0, 1, 0, [
   ⟨"cnt", 31, 0, .ro, 0x0⟩]⟩,
  ⟨"HIF_SNAP_SEQ", Reg.HIF_SNAP_SEQ, 1, 0, 1, 0, [
   ⟨"seq", 15, 0, .ro, 0x0⟩]⟩,
  ⟨"HIF_MB_CMD", Reg.HIF_MB_CMD, 1, 0, 1, 0, [
   ⟨"code", 7, 0, .rw, 0x0⟩,
   ⟨"length", 28, 16, .rw, 0x0⟩]⟩,
  ⟨"HIF_MB_DOOR", Reg.HIF_MB_DOOR, 1, 0, 1, 0, [
   ⟨"ring", 0, 0, .wo, 0x0⟩,
   ⟨"key", 31, 16, .wo, 0x0⟩]⟩,
  ⟨"HIF_MB_STAT", Reg.HIF_MB_STAT, 1, 0, 1, 0, [
   ⟨"state", 1, 0, .ro, 0x0⟩,
   ⟨"result", 11, 8, .ro, 0x0⟩,
   ⟨"reply_length", 28, 16, .ro, 0x0⟩]⟩,
  ⟨"HIF_MB_ACK", Reg.HIF_MB_ACK, 1, 0, 1, 0, [
   ⟨"ack", 0, 0, .wo, 0x0⟩]⟩,
  ⟨"HIF_MB_SEQ", Reg.HIF_MB_SEQ, 1, 0, 1, 0, [
   ⟨"count", 31, 0, .ro, 0x0⟩]⟩]

/-- Every register. -/
def regTable : List RegDef :=
  regsDEV0 ++ regsPWR0 ++ regsJNL0 ++ regsMEM0 ++ regsSLK0 ++ regsHYD0 ++ regsFTR0 ++ regsOPT0 ++ regsSLV0 ++ regsLPE0 ++ regsLPE1 ++ regsCE0 ++ regsCHN0 ++ regsMTR0 ++ regsRED0 ++ regsMGT0 ++ regsMGT1 ++ regsKEY0 ++ regsHIF0

/-- Whether an address is one of a register's places. -/
def regAt (r : RegDef) (a : Nat) : Bool :=
  if a < r.base then false
  else
    let d := a - r.base
    if r.n1 = 1 ∧ r.n2 = 1 then d == 0
    else if r.n2 = 1 then d % r.s1 == 0 && decide (d / r.s1 < r.n1)
    else decide (d / r.s1 < r.n1) && (d % r.s1) % r.s2 == 0 && decide ((d % r.s1) / r.s2 < r.n2)

/-- The registers of the block window an address lies in. -/
def regsOfWindow (b : Nat) : List RegDef :=
  match b with
  | 0 => regsDEV0
  | 1 => regsPWR0
  | 2 => regsJNL0
  | 3 => regsMEM0
  | 4 => regsSLK0
  | 5 => regsHYD0
  | 6 => regsFTR0
  | 7 => regsOPT0
  | 8 => regsSLV0
  | 9 => regsLPE0 ++ regsLPE1
  | 10 => regsCE0
  | 11 => regsCHN0
  | 12 => regsMTR0
  | 13 => regsRED0
  | 14 => regsMGT0 ++ regsMGT1 ++ regsKEY0
  | 15 => regsHIF0
  | _ => []

/-- The register at an address, if there is one. -/
def regFind (a : Nat) : Option RegDef := (regsOfWindow (a / 0x10000)).find? (fun r => regAt r a)

/-- The word whose fields hold their reset values. -/
def regDefReset (r : RegDef) : Word :=
  r.fields.foldl (fun w f => w ||| BitVec.ofNat 32 (f.reset * 2 ^ f.lo)) 0#32

/-- The reset value of the register at an address (zero where there is none). -/
def regReset (a : Nat) : Word :=
  match regFind a with
  | some r => regDefReset r
  | none => 0#32

/-- The bits of a register whose fields have one of the given types. -/
def regMask (r : RegDef) (p : FType → Bool) : Word :=
  r.fields.foldl (fun w f => if p f.type then setField w f.hi f.lo (2 ^ (f.hi + 1 - f.lo) - 1) else w) 0#32

end Sys2Proof.Machine
end

