-- ==== Sys2Proof/Machine/TTRecords.lean ====
section
/-! DEFINITION. The records of the timetable's sections (R49 to R69) as typed data, each with the function that
reads it from its bytes, and the placed timetable that the device runs from (R76 step 3, R78). -/

namespace Sys2Proof.Machine

/-- R49, the Plan record. -/
structure Plan where
  headway : Nat := 0
  tIn : Nat := 0
  tEst : Nat := 0
  tOut : Nat := 0
  optHeadways : Nat := 0
  flags : Nat := 0
  txIdle : Nat := 0
  deriving DecidableEq, Repr, Inhabited

/-- R49. -/
def Plan.ofBytes (b : List Byte) : Plan :=
  ⟨u16 b 0, u16 b 2, u16 b 4, u16 b 6, u16 b 8, u16 b 0xA, u16 b 0xC⟩

/-- R50, one platform. -/
structure Platform where
  platform : Nat := 0
  excitation : Nat := 0
  excLevel : Nat := 0
  reference : Nat := 0
  rateDiv : Nat := 0
  scanMask : Nat := 0
  deriving DecidableEq, Repr, Inhabited

/-- R50. -/
def Platform.ofBytes (b : List Byte) : Platform := ⟨u8 b 0, u8 b 1, u16 b 2, u8 b 4, u8 b 5, u16 b 6⟩

/-- R51, one channel. -/
structure Channel where
  channel : Nat := 0
  mode : Nat := 0
  range : Nat := 0
  p0 : Nat := 0
  p1 : Nat := 0
  hold : Word := 0
  flags : Nat := 0
  partner : Nat := 0
  deriving DecidableEq, Repr, Inhabited

/-- R51. -/
def Channel.ofBytes (b : List Byte) : Channel :=
  ⟨u16 b 0, u8 b 2, u8 b 3, u16 b 4, u16 b 6, w32 b 8, u16 b 0xC, u16 b 0xE⟩

/-- R52, one meter. -/
structure Meter where
  meter : Nat := 0
  cls : Nat := 0
  source : Nat := 0
  interval : Nat := 0
  inA : Nat := 0
  inB : Nat := 0
  inC : Nat := 0
  threshold : Word := 0
  scaleA : Word := 0
  scaleB : Nat := 0
  tariff : Nat := 0
  flags : Nat := 0
  paramCrc : Word := 0
  deriving DecidableEq, Repr, Inhabited

/-- R52. -/
def Meter.ofBytes (b : List Byte) : Meter :=
  ⟨u8 b 0, u8 b 1, u8 b 2, u8 b 3, u32 b 4, u32 b 8, u32 b 0xC, w32 b 0x10, w32 b 0x14, u16 b 0x18, u8 b 0x1A,
   u8 b 0x1B, w32 b 0x1C⟩

/-- R54, one line port. -/
structure Line where
  port : Nat := 0
  mode : Nat := 0
  partner : Nat := 0
  phy : Nat := 0
  stations : Nat := 0
  ethertype : Nat := 0
  keySlot : Nat := 0
  staleHeadways : Nat := 0
  sourceMac : List Byte := []
  deriving DecidableEq, Repr, Inhabited

/-- R54. -/
def Line.ofBytes (b : List Byte) : Line :=
  ⟨u8 b 0, u8 b 1, u8 b 2, u8 b 3, u16 b 4, u16 b 6, u8 b 8, u8 b 9, slice b 0x10 6⟩

/-- R55, one station. -/
structure Station where
  station : Nat := 0
  line : Nat := 0
  position : Nat := 0
  member : Nat := 0
  flags : Nat := 0
  stationId : Word := 0
  node : Nat := 0
  deriving DecidableEq, Repr, Inhabited

/-- R55. -/
def Station.ofBytes (b : List Byte) : Station :=
  ⟨u16 b 0, u8 b 2, u8 b 3, u16 b 4, u16 b 6, w32 b 8, u16 b 0xC⟩

/-- R57, one network node. -/
structure Node where
  node : Nat := 0
  kind : Nat := 0
  circuit : Nat := 0
  elevation : Word := 0
  pRef : Nat := 0
  tRef : Nat := 0
  qRef : Nat := 0
  deriving DecidableEq, Repr, Inhabited

/-- R57. -/
def Node.ofBytes (b : List Byte) : Node := ⟨u16 b 0, u8 b 2, u8 b 3, w32 b 4, u32 b 8, u32 b 0xC, u32 b 0x10⟩

/-- R58, one network element. -/
structure Element where
  element : Nat := 0
  type : Nat := 0
  flags : Nat := 0
  src : Nat := 0
  dst : Nat := 0
  p0 : Word := 0
  p1 : Word := 0
  p2 : Word := 0
  p3 : Word := 0
  ctlRef : Nat := 0
  measRef : Nat := 0
  deriving DecidableEq, Repr, Inhabited

/-- R58. -/
def Element.ofBytes (b : List Byte) : Element :=
  ⟨u16 b 0, u8 b 2, u8 b 3, u16 b 4, u16 b 6, w32 b 8, w32 b 0xC, w32 b 0x10, w32 b 0x14, u32 b 0x18, u32 b 0x1C⟩

/-- R59, the tracker parameters. -/
structure Tracker where
  maxWagons : Nat := 0
  mergeTol : Word := 0
  minVolume : Word := 0
  groundRef : Nat := 0xFFFFFFFF
  groundDefault : Word := 0
  fluid : Nat := 0
  deriving DecidableEq, Repr, Inhabited

/-- R59. -/
def Tracker.ofBytes (b : List Byte) : Tracker := ⟨u32 b 0, w32 b 4, w32 b 8, u32 b 0xC, w32 b 0x10, u8 b 0x14⟩

/-- R60, one loop. -/
structure LoopRec where
  loop : Nat := 0
  law : Nat := 0
  period : Nat := 0
  pvRef : Nat := 0
  spSource : Nat := 0
  flags : Nat := 0
  fallback : Nat := 0
  sp : Word := 0
  outRef : Nat := 0
  ffRef : Nat := 0
  kp : Word := 0
  ti : Word := 0
  td : Word := 0
  outMin : Word := 0
  outMax : Word := 0
  outRate : Word := 0
  hold : Word := 0
  spRate : Word := 0
  ffGain : Word := 0
  deadband : Word := 0
  deriving DecidableEq, Repr, Inhabited

/-- R60. -/
def LoopRec.ofBytes (b : List Byte) : LoopRec :=
  ⟨u8 b 0, u8 b 1, u16 b 2, u32 b 4, u8 b 8, u8 b 9, u8 b 0xA, w32 b 0xC, u32 b 0x10, u32 b 0x14, w32 b 0x18,
   w32 b 0x1C, w32 b 0x20, w32 b 0x24, w32 b 0x28, w32 b 0x2C, w32 b 0x30, w32 b 0x34, w32 b 0x38, w32 b 0x3C⟩

/-- R61, one task. -/
structure TaskRec where
  engine : Nat := 0
  task : Nat := 0
  priority : Nat := 0
  kind : Nat := 0
  period : Nat := 0
  offset : Nat := 0
  entry : Nat := 0
  eventRef : Nat := 0
  edge : Nat := 0
  trapPolicy : Nat := 0
  budget : Nat := 0
  inList : Nat := 0
  outList : Nat := 0
  stack : Nat := 0
  deriving DecidableEq, Repr, Inhabited

/-- R61. -/
def TaskRec.ofBytes (b : List Byte) : TaskRec :=
  ⟨u8 b 0, u8 b 1, u8 b 2, u8 b 3, u16 b 4, u16 b 6, u32 b 8, u32 b 0xC, u8 b 0x10, u8 b 0x11, u16 b 0x12,
   u32 b 0x14, u32 b 0x18, u32 b 0x1C⟩

/-- R62, one event class. -/
structure EventClass where
  code : Nat := 0
  mode : Nat := 1
  severity : Nat := 0
  rate : Nat := 0
  deriving DecidableEq, Repr, Inhabited

/-- R62. -/
def EventClass.ofBytes (b : List Byte) : EventClass := ⟨u16 b 0, u8 b 2, u8 b 3, u16 b 4⟩

/-- R64, the security policy. -/
structure Security where
  flags : Nat := 0
  remaskHours : Nat := 0
  lockoutBase : Nat := 0
  hostWriteMask : Nat := 0
  hostReadMask : Nat := 0
  psMode : List Byte := []
  lineAuth : List Byte := []
  epochHours : Nat := 0
  deriving DecidableEq, Repr, Inhabited

/-- R64. -/
def Security.ofBytes (b : List Byte) : Security :=
  ⟨u32 b 0, u16 b 4, u16 b 6, u16 b 8, u16 b 0xA, slice b 0xC 4, slice b 0x10 8, u16 b 0x18⟩

/-- R66, the redundancy record. -/
structure Redundancy where
  mode : Nat := 0
  preferred : Nat := 0
  takeover : Nat := 0
  swapHours : Nat := 0
  swapMinute : Nat := 0
  lanes : Nat := 0
  compare : Nat := 0
  mismatchLimit : Nat := 0
  deriving DecidableEq, Repr, Inhabited

/-- R66. -/
def Redundancy.ofBytes (b : List Byte) : Redundancy :=
  ⟨u8 b 0, u8 b 1, u16 b 2, u16 b 4, u16 b 6, u8 b 8, u8 b 9, u16 b 0xA⟩

/-- R67, the retentive area of one engine. -/
structure Retentive where
  engine : Nat := 0
  offset : Nat := 0
  length : Nat := 0
  layoutHash : Word := 0
  deriving DecidableEq, Repr, Inhabited

/-- R67. -/
def Retentive.ofBytes (b : List Byte) : Retentive := ⟨u8 b 0, u32 b 4, u32 b 8, w32 b 0xC⟩

/-- R68, one light recipe. -/
structure Recipe where
  recipe : Nat := 0
  bands : Nat := 0
  dli : Word := 0
  maxPhoto : Word := 0
  startMin : Nat := 0
  endMin : Nat := 0
  fraction : List Word := []
  maxPpfd : Word := 0
  minDark : Word := 0
  deriving DecidableEq, Repr, Inhabited

/-- R68. -/
def Recipe.ofBytes (b : List Byte) : Recipe :=
  ⟨u8 b 0, u8 b 1, w32 b 4, w32 b 8, u16 b 0xC, u16 b 0xE, [w32 b 0x10, w32 b 0x14, w32 b 0x18, w32 b 0x1C],
   w32 b 0x20, w32 b 0x24⟩

/-- R69, one lighting zone. -/
structure Zone where
  zone : Nat := 0
  recipe : Nat := 0
  heatNode : Nat := 0
  area : Word := 0
  pFull : Word := 0
  heatShare : Word := 0
  parRef : Nat := 0
  dimRef : Nat := 0
  meter : Nat := 0
  deriving DecidableEq, Repr, Inhabited

/-- R69. -/
def Zone.ofBytes (b : List Byte) : Zone :=
  ⟨u8 b 0, u8 b 1, u16 b 2, w32 b 4, w32 b 8, w32 b 0xC, u32 b 0x10, u32 b 0x14, u8 b 0x18⟩

/-- A section of variable length that repeats (R45: engine code and data, routes, problem map). -/
structure Blob where
  id : Nat := 0
  inst : Nat := 0xFFFF
  bytes : List Byte := []
  deriving DecidableEq, Repr, Inhabited

/-- The placed timetable: every record of every section, and what identifies the image. -/
structure Timetable where
  serial : Word := 0
  buildTime : Word := 0
  networkId : List Byte := []
  digest : List Byte := []
  plan : Plan := {}
  platforms : List Platform := []
  channels : List Channel := []
  meters : List Meter := []
  lines : List Line := []
  roster : List Station := []
  nodes : List Node := []
  elements : List Element := []
  tracker : Tracker := {}
  loops : List LoopRec := []
  tasks : List TaskRec := []
  eventClasses : List EventClass := []
  security : Security := {}
  securityBytes : List Byte := []
  redundancy : Redundancy := {}
  retentive : List Retentive := []
  recipes : List Recipe := []
  zones : List Zone := []
  blobs : List Blob := []
  deriving DecidableEq, Repr, Inhabited

/-- The bytes of the section with an id and an instance (empty when absent, R45). -/
def Timetable.blob (t : Timetable) (id inst : Nat) : List Byte :=
  match t.blobs.find? (fun b => b.id == id && b.inst == inst) with
  | some b => b.bytes
  | none => []

/-- Whether a section of variable length is present. -/
def Timetable.hasBlob (t : Timetable) (id inst : Nat) : Bool := t.blobs.any (fun b => b.id == id && b.inst == inst)

/-- The channel record of a channel, if it has one. -/
def Timetable.chan (t : Timetable) (c : Nat) : Option Channel := t.channels.find? (fun r => r.channel == c)
/-- The platform record of a platform. -/
def Timetable.platform (t : Timetable) (p : Nat) : Platform :=
  (t.platforms.find? (fun r => r.platform == p)).getD {}
/-- The line record of a port. -/
def Timetable.line (t : Timetable) (p : Nat) : Line := (t.lines.find? (fun r => r.port == p)).getD {}
/-- The roster record of a station. -/
def Timetable.stn (t : Timetable) (n : Nat) : Option Station := t.roster.find? (fun r => r.station == n)
/-- The loop record of a loop. -/
def Timetable.loopRec (t : Timetable) (k : Nat) : Option LoopRec := t.loops.find? (fun r => r.loop == k)
/-- The task record of an engine's task. -/
def Timetable.task (t : Timetable) (e k : Nat) : Option TaskRec :=
  t.tasks.find? (fun r => r.engine == e && r.task == k)
/-- The meter record of a meter number (0x00 to 0x3F, 0x80 to 0x87). -/
def Timetable.meter (t : Timetable) (m : Nat) : Option Meter := t.meters.find? (fun r => r.meter == m)
/-- The retentive record of an engine. -/
def Timetable.ret (t : Timetable) (e : Nat) : Option Retentive := t.retentive.find? (fun r => r.engine == e)
/-- The event class of a code: R62 gives the class of a code without a record, R63 that of the metering block. -/
def Timetable.eventClass (t : Timetable) (code : Nat) : EventClass :=
  (t.eventClasses.find? (fun r => r.code == code)).getD { code := code }

/-- R195: one output record of the problem map. -/
structure OutRec where
  channel : Nat := 0
  mode : Nat := 0
  tag : Nat := 0
  dflt : Word := 0
  scale : Word := 0
  deriving DecidableEq, Repr, Inhabited

/-- R195. -/
def OutRec.ofBytes (b : List Byte) : OutRec := ⟨u16 b 0, u8 b 2, u32 b 4, w32 b 8, w32 b 0xC⟩

/-- The problem map (section 0x0112). -/
def Timetable.probMap (t : Timetable) : List Byte := t.blob 0x0112 0xFFFF

/-- R190: N, the number of steps (0 without a problem map). -/
def Timetable.mapSteps (t : Timetable) : Nat := u16 t.probMap 0

/-- R195: the output records, in the order of the map. -/
def Timetable.mapOutputs (t : Timetable) : List OutRec :=
  let b := t.probMap
  (List.range (u16 b 8)).map (fun k => OutRec.ofBytes (slice b (u32 b 0x24 + 16 * k) 16))

/-- R624: the highest channel number in the output records, plus one. -/
def Timetable.tjTop (t : Timetable) : Nat := t.mapOutputs.foldl (fun m o => max m (o.channel + 1)) 0

/-- R624: the size of each region (0 SI, 1 SO, 2 CI, 3 CO, 4 NS, 5 MI, 6 TJ) in 64-bit words. -/
def Timetable.regionWords (t : Timetable) (r : Nat) : Nat :=
  let top := t.roster.foldl (fun m x => max m (x.station + 1)) 0
  match r with
  | 0 => 16 * top
  | 1 => 16 * top
  | 2 => 1024
  | 3 => 512
  | 4 => 0xC011
  | 5 => 2304
  | 6 => 256 * t.tjTop
  | _ => 0

/-- R172: an NS index that names a word: of a defined node or element, a circuit, or the status. -/
def Timetable.nsDefined (t : Timetable) (i : Nat) : Bool :=
  if i < 0x8000 then t.nodes.any (fun n => n.node == i % 0x2000)
  else if i < 0xC000 then t.elements.any (fun e => e.element == i - 0x8000)
  else decide (i ≤ 0xC010)

/-- R47: a reference that names a word (the value for none is not one). -/
def Timetable.refValid (t : Timetable) (ref : Nat) : Bool :=
  let r := ref / 2 ^ 28
  let i := ref % 2 ^ 28
  decide (i < t.regionWords r) && (r != 4 || t.nsDefined i)

end Sys2Proof.Machine
end

