-- ==== Sys2Proof/Machine/StateA.lean ====
section
/-! DEFINITION. The state of device control, power, journal, transactions, parameter store, memory, management and
host interface: everything chapters 1, 2, 12, 13, 14, 16 and 18 give the machine that is no plain register. Plain
registers live in `State.regs`. Default field values are the values at reset. -/

namespace Sys2Proof.Machine

/-- R23, R31: the device states, in the order of their codes. -/
inductive Mode where
  | boot
  | hold
  | ready
  | run
  | standby
  | safe
  deriving DecidableEq, Repr, Inhabited

/-- R32: the commands of DEV_CMD, in the order of their codes 1 to 7. -/
inductive DevCmd where
  | run
  | stop
  | hold
  | loadA
  | loadB
  | clear
  | reset
  deriving DecidableEq, Repr

/-- What a device that has entered BOOT at a tick goes on to do: the steps of R413, or only those of R76 (LOAD). -/
inductive BootKind where
  | full
  | load
  deriving DecidableEq, Repr

/-- R83, R84: the report of the last check of a timetable slot. -/
structure SlotReport where
  result : Nat := 0xF
  done : Bool := false
  checking : Bool := false
  /-- the running check is the background check of R76 step 6 (the model's own field) -/
  background : Bool := false
  offset : Nat := 0
  section_ : Nat := 0
  index : Nat := 0
  deriving DecidableEq, Repr, Inhabited

/-- Device control (chapters 1 and 2). -/
structure DevState where
  /-- R31 state -/
  mode : Mode := .boot
  /-- R31 prev_state -/
  prevMode : Mode := .boot
  /-- R31 active_slot -/
  activeSlot : Nat := 0
  slotAValid : Bool := false
  slotBValid : Bool := false
  goodStart : Bool := false
  /-- R31 cmd_status: 0 none, 1 pending, 2 done, 3 refused -/
  cmdStatus : Nat := 0
  /-- R33: the command that is pending -/
  cmd : Option DevCmd := none
  /-- R33, R74: the pending LOAD has passed its check and its pointer is durable -/
  loadReady : Bool := false
  /-- R76: the placed timetable; none in BOOT before placing, and in HOLD -/
  tt : Option Timetable := none
  /-- R83, R84 for slot A -/
  repA : SlotReport := {}
  /-- R83, R84 for slot B -/
  repB : SlotReport := {}
  /-- R415: a headway has started since the entry into READY -/
  hwRunning : Bool := false
  /-- R356: the length in ticks of the headway that runs -/
  hwLen : Nat := 0
  /-- R36 tick: ticks since the headway start -/
  tickInHw : Nat := 0
  /-- the next tick boundary is a headway start (R415) -/
  hwDue : Bool := false
  /-- R36 opt_headway (saturating at 0xFFF) -/
  optHw : Nat := 0
  /-- headways since the last optimiser period start, not saturating -/
  optCount : Nat := 0
  /-- R35 -/
  headway : Nat := 0
  /-- R18: the schedule origin as a tick count -/
  schedOrigin : Nat := 0
  /-- R14 step 3 has been performed in this headway -/
  siPublished : Bool := false
  /-- R14 step 4 has been performed in this headway -/
  nsPublished : Bool := false
  /-- R14 step 6 has been performed in this headway -/
  outFrozen : Bool := false
  /-- R26: a fatal cause set its bit and the move to SAFE is due at the next tick -/
  fatalDue : Bool := false
  /-- R27: a HOLD that RUN alone refused has arrived since the last tick -/
  holdRefused : Bool := false
  /-- R24: the auto-run of a good start has not been used yet -/
  autoRunDue : Bool := false
  /-- what remains of a boot that a tick entered -/
  bootPending : Option BootKind := none
  /-- R72, R73, R87: the active pointer record (slot), none without a valid one -/
  ptr : Option Nat := none
  /-- R71, R87: the slot open in the timetable writer -/
  writer : Option Nat := none
  deriving DecidableEq, Repr, Inhabited

/-- R409: the states of a switchable domain, in the order of their codes. -/
inductive DomSt where
  | off
  | starting
  | on
  | stopping
  deriving DecidableEq, Repr, Inhabited

/-- R409, R428: one switchable domain. -/
structure Domain where
  st : DomSt := .off
  restart : Bool := false
  scheduled : Bool := false
  work : Bool := false
  host : Bool := false
  mailbox : Bool := false
  forceOn : Bool := false
  starts : Nat := 0
  /-- R412: the tick of the last host access -/
  hostTick : Nat := 0
  deriving DecidableEq, Repr, Inhabited

/-- R419: what the power-fail save is doing. -/
inductive SaveStep where
  | idle
  | timestamp
  | totals
  | retentive (left : List Nat)
  | events
  | seal
  deriving DecidableEq, Repr, Inhabited

/-- Power, clocks, wake and start-up (chapter 12). -/
structure PwrState where
  /-- R403 -/
  powerGood : Bool := false
  /-- VAO inside its range (R406) -/
  vao : Bool := true
  /-- R427 vbat_ok -/
  vbatOk : Bool := false
  /-- R416: RST_N is asserted -/
  rstLow : Bool := false
  /-- R422: an RST_N assertion is held off until the save is complete -/
  rstHeld : Bool := false
  /-- R422: that assertion has ended meanwhile -/
  rstGone : Bool := false
  /-- R407, R427 -/
  xtalOk : Bool := false
  rcClock : Bool := false
  refOk : Bool := false
  sysLock : Bool := false
  slvLock : Bool := false
  serLock : Bool := false
  /-- R406: the tick count (48 bits) -/
  tick : Nat := 0
  /-- R406: the sub-tick (5 bits) -/
  sub : Nat := 0
  /-- R417 -/
  pfwNow : Bool := false
  saving : Bool := false
  saved : Bool := false
  /-- R419 -/
  save : SaveStep := .idle
  /-- R447 kind 0x08, R466: the transaction state that the seal of the running save records -/
  sealTx : Nat := 0
  /-- R404, R409: domains 1 to 17 -/
  doms : List Domain := List.replicate 17 {}
  /-- R429: group totals since VAO rose, µJ -/
  eTot : List Nat := List.replicate 10 0
  /-- energy of each group in the running headway -/
  eHw : List Nat := List.replicate 10 0
  /-- group 0 energy of the running hydraulic solve -/
  eHyd : Nat := 0
  /-- R221: energy of the running optimiser solve -/
  eOpt : Nat := 0
  /-- R425: ticks of the running ledger headway in BOOT and HOLD -/
  ledgerTick : Nat := 0
  /-- R426: the source entries in force since the last period start: reference, factor, role -/
  nls : List (Nat × Word × Nat) := []
  /-- R426: source words at the last period start -/
  nlsMark : List Nat := []
  /-- R426: v8 of the metering stations at the last period start -/
  v8Mark : List (Nat × Nat) := []
  /-- R426: a period start has been seen -/
  nlsStarted : Bool := false
  /-- R426: the day's sums: primary, pump, delivered -/
  daySums : List Rat := [0, 0, 0]
  /-- R426: worst quality of the day -/
  dayQ : Quality := .good
  deriving DecidableEq, Repr, Inhabited

/-- Who asked for a journal record, and so who goes on when it is durable or has failed (R445, R446). -/
inductive JOwner where
  /-- nobody waits -/
  | none_
  /-- a LOAD command waits for its pointer (R74) -/
  | load
  /-- the commit record (R459 step 2) -/
  | commit
  /-- the pointer record that follows a commit record (R81) -/
  | commitPtr
  /-- the done mark (R459 step 5) -/
  | done
  /-- a totals record (R384) -/
  | totals
  /-- the retentive record of an engine (R297) -/
  | retentive (engine : Nat)
  /-- a record of the power-fail save (R419) -/
  | save
  /-- a key slot pointer record for an entry: the mailbox command or re-mask that waits (R557) -/
  | key (entry : Nat)
  /-- the monotonic counter has counted an entry write (R575) -/
  | keyCtr
  /-- the firmware pointer, with a mailbox command waiting (R529): the one that HIF_MB_SEQ counted as `tag` -/
  | fwPtr (tag : Word)
  /-- a partition record (R438) -/
  | partition
  /-- the through record (R130, R448) -/
  | through
  /-- a live record that compaction writes again (R451) -/
  | compaction
  deriving DecidableEq, Repr, Inhabited

/-- A request to the journal writer (R445): kind, instance and payload of R447. -/
structure JReq where
  kind : Nat := 0
  inst : Nat := 0
  payload : List Byte := []
  owner : JOwner := .none_
  deriving DecidableEq, Repr, Inhabited

/-- The record in progress (R445, R446). -/
structure JCur where
  req : JReq := {}
  pair : Nat := 0
  off : Nat := 0
  bytes : List Byte := []
  /-- copy A has been verified -/
  durable : Bool := false
  retries : Nat := 0
  deriving DecidableEq, Repr, Inhabited

/-- A live record (R447, R451): where it stands and what it holds. -/
structure JLive where
  kind : Nat := 0
  inst : Nat := 0
  seq : Nat := 0
  pair : Nat := 0
  payload : List Byte := []
  deriving DecidableEq, Repr, Inhabited

/-- The journal writer (R443 to R452). -/
structure JnlState where
  /-- pairs in use, oldest first; the last is the head -/
  pairs : List Nat := []
  /-- next free offset in the head pair -/
  off : Nat := 64
  /-- seg_seq of the pair opened last -/
  segSeq : Nat := 0
  /-- the last durable sequence number -/
  seq : Nat := 0
  /-- waiting requests, oldest first -/
  queue : List JReq := []
  cur : Option JCur := none
  live : List JLive := []
  /-- live records of the oldest pair that compaction has still to write (kind, instance) -/
  compact : List (Nat × Nat) := []
  compacting : Bool := false
  /-- rewrites under R449: destination NV offset and bytes -/
  rewrites : List (Nat × List Byte) := []
  /-- R469 sealed -/
  sealed : Bool := false
  /-- transaction state and number carried by the seal of the last boot (R447 kind 0x08) -/
  sealTx : Option (Nat × Nat) := none
  deriving DecidableEq, Repr, Inhabited

/-- R453 to R467: the transaction. -/
structure TxState where
  /-- R470: 0 none, 1 open, 2 validating, 3 writing, 4 awaiting boundary -/
  st : Nat := 0
  number : Nat := 0
  /-- staged entries in order of arrival -/
  entries : List (Nat × Word) := []
  /-- R457: a replacement is staged in this slot -/
  stagedSlot : Option Nat := none
  /-- the checked replacement -/
  stagedTt : Option Timetable := none
  prompt : Bool := false
  cmdStatus : Nat := 0
  result : Nat := 0
  reason : Nat := 0
  failEntry : Nat := 0
  /-- ticks since the last activity (R458) -/
  idleTicks : Nat := 0
  /-- R461: the tick count at which step 3 of R459 completed -/
  shadowTick : Nat := 0
  /-- DEV_HEADWAY at the last commit boundary (JNL_TX_BOUND) -/
  bound : Nat := 0
  deriving DecidableEq, Repr, Inhabited

/-- R437, R438, R447 kind 0x0B: one partition of the parameter store. -/
structure Partition where
  readCheck : List Byte := []
  writeCheck : List Byte := []
  readFails : Nat := 0
  writeFails : Nat := 0
  /-- remaining lockouts in ticks (recorded in seconds) -/
  readLock : Nat := 0
  writeLock : Nat := 0
  readOpen : Bool := false
  writeOpen : Bool := false
  deriving DecidableEq, Repr, Inhabited

/-- The parameter store (R436 to R442). -/
structure PsState where
  parts : List Partition := List.replicate 4 {}
  /-- JNL_PS_KEY0 to JNL_PS_KEY3, write only -/
  key : List Byte := List.replicate 16 0
  cmdStatus : Nat := 0
  /-- the granules of a burst still to program: NV offset and 8 bytes -/
  page : List (Nat × List Byte) := []
  programming : Bool := false
  /-- R442 -/
  frozen : Bool := false
  deriving DecidableEq, Repr, Inhabited

/-- The process image (R10, R624, R625): the published generation and the working generation of the double-buffered
regions, the single regions, and how many switches each double-buffered region has made. -/
structure Image where
  si : List (Nat × DWord) := []
  siWork : List (Nat × DWord) := []
  so : List (Nat × DWord) := []
  soWork : List (Nat × DWord) := []
  ns : List (Nat × DWord) := []
  nsWork : List (Nat × DWord) := []
  tj : List (Nat × DWord) := []
  tjWork : List (Nat × DWord) := []
  ci : List (Nat × DWord) := []
  co : List (Nat × DWord) := []
  mi : List (Nat × DWord) := []
  /-- MEM_IMG_GENr for regions 0 to 6 -/
  gen : List Nat := List.replicate 7 0
  deriving DecidableEq, Repr, Inhabited

/-- The memory system (chapter 14). -/
structure MemState where
  bistDone : Bool := false
  bistPass : Bool := false
  /-- what the next self-test of this die finds (kept from the last power-up or RST_N) -/
  faults : BistReport := {}
  /-- the words whose stored bits are wrong (R482, R484); every other word, P and Q included, is as it was written -/
  upsets : List Upset := []
  /-- the line of each memory that the scrubber reads next (R486) -/
  scrubPos : List Nat := List.replicate 14 0
  /-- system SRAM bytes the host has written in HOLD (R632), keyed by host address -/
  sram : List (Nat × Byte) := []
  /-- the model's own: numbers the free contents of system SRAM that stay as they are throughout one HOLD (R632) -/
  era : Nat := 0
  deriving DecidableEq, Repr, Inhabited

/-- R541: one rate bucket. -/
structure Bucket where
  code : Nat := 0
  source : Nat := 0
  tokens : Nat := 0
  suppressed : Nat := 0
  deriving DecidableEq, Repr, Inhabited

/-- The event recorder (R536 to R542). -/
structure EvrState where
  /-- next sequence number (48 bits, always-on) -/
  seq : Nat := 0
  ready : Bool := false
  scanning : Bool := false
  /-- the event buffer: records of R536, ascending seq -/
  buffer : List (List Byte) := []
  /-- R539: records on their way into the die, in the order in which they are written -/
  queue : List (List Byte) := []
  /-- R542: records that wait for the scan, without their seq; true: direct mode -/
  waiting : List (Bool × List Byte) := []
  buckets : List Bucket := []
  overflow : Bucket := { tokens := 2160000 }
  deriving DecidableEq, Repr, Inhabited

/-- Calendar time (R532 to R535); it lies in the always-on domain. -/
structure CalState where
  seconds : Nat := 0
  /-- 1/65,536 s -/
  frac : Nat := 0
  valid : Bool := false
  /-- signed slew left, in units -/
  slew : Int := 0
  /-- R533: ticks since the last slew unit -/
  slewTick : Nat := 0
  leapNow : Bool := false
  stepped : Bool := false
  /-- a set command waits for the tick boundary -/
  setPending : Bool := false
  invPending : Bool := false
  ppsLocked : Bool := false
  ppsGood : Nat := 0
  /-- ticks since the last PPS edge -/
  ppsTicks : Nat := 0
  /-- R535: the second before a leap has ended, and the leap is due -/
  leapDone : Bool := false
  deriving DecidableEq, Repr, Inhabited

/-- The management subsystem (chapter 16). -/
structure MgtState where
  /-- running firmware slot; meaningful while fwRunning -/
  fwSlot : Nat := 0
  trial : Bool := false
  recovery : Bool := false
  fwRunning : Bool := false
  /-- R523: the firmware pointer: active, state, confirmed, tries, floor; none without a valid record -/
  fwPtr : Option (Nat × Nat × Nat × Nat × Nat) := none
  /-- svn of the running image -/
  fwSvn : Nat := 0
  /-- the firmware slot open for writing -/
  fwWriter : Option Nat := none
  cal : CalState := {}
  evr : EvrState := {}
  /-- R543: a strobe is requested (sub-tick of the request) -/
  snapReq : Bool := false
  /-- a tick boundary has come since the request: the strobe fires at it -/
  snapDue : Bool := false
  /-- SNAP is to be driven in the next tick (R544) -/
  snapDrive : Bool := false
  /-- SNAP is driven high in this tick, from sub-tick 16 for 4 sub-ticks (R544) -/
  snapOut : Bool := false
  /-- headway starts since the last periodic strobe -/
  snapCount : Nat := 0
  /-- ticks since the last periodic flush -/
  flushTicks : Nat := 0
  /-- R531: a temperature condition of sensor k is in force -/
  tempHigh : List Bool := [false, false, false, false]
  deriving DecidableEq, Repr, Inhabited

/-- The host interface (chapter 18). -/
structure HifState where
  /-- HIF_STAT.seq (always-on) -/
  seq : Nat := 0
  /-- R588: a write that waits to be performed: address and bytes -/
  pending : Option (Nat × List Byte) := none
  /-- R587: how its register words were judged: whether each was staged -/
  pendStaged : List Bool := []
  /-- R589: a response is being sent, of this many bytes -/
  inResponse : Bool := false
  /-- the bytes of the last response -/
  response : List Byte := []
  /-- R589: what the words of the last read latched: word of the burst, register, value before and after -/
  latched : List (Nat × Nat × Word × Word) := []
  /-- R599: mailbox state, result, reply length -/
  mbState : Nat := 0
  mbResult : Nat := 0
  mbReply : Nat := 0
  /-- the command that the mailbox is busy with waits for a record to be durable (R529, R558) -/
  mbWait : Bool := false
  reqBuf : List (Nat × Byte) := []
  repBuf : List (Nat × Byte) := []
  deriving DecidableEq, Repr, Inhabited

end Sys2Proof.Machine
end

