-- ==== Sys2Proof/Machine/StateB.lean ====
section
/-! DEFINITION. The state of the key store (chapter 17): the key array, the pointers in force, the accumulators, the
counters and the entry write in progress. -/

namespace Sys2Proof.Machine

/-- R557: the pointer record of an entry. -/
structure KeyPtr where
  half : Nat := 0
  /-- 0 empty, 1 loaded -/
  st : Nat := 0
  type : Nat := 0
  attr : Nat := 0
  flags : Nat := 0
  mask : Nat := 0
  gen : Nat := 0
  crc : Nat := 0
  maskTime : Nat := 0
  deriving DecidableEq, Repr, Inhabited

/-- R550, R554: one entry of the key array: two halves of 128 bytes (an empty list is a zeroised half), the pointer in
force, and whether the boot found it damaged (R559). -/
structure KeyEntry where
  half0 : List Byte := []
  half1 : List Byte := []
  ptr : KeyPtr := {}
  damaged : Bool := false
  /-- ticks count at which the shares were written in this boot (R555) -/
  maskTick : Nat := 0
  deriving DecidableEq, Repr, Inhabited

/-- R558: an entry write whose pointer record is not durable yet. -/
structure KeyWrite where
  entry : Nat := 0
  ptr : KeyPtr := {}
  remask : Bool := false
  destroy : Bool := false
  /-- a mailbox command waits for it, with this reply -/
  mailbox : Bool := false
  reply : List Byte := []
  /-- HIF_MB_SEQ of that command -/
  tag : Word := 0
  deriving DecidableEq, Repr, Inhabited

/-- The key store. -/
structure KeyState where
  entries : List (Nat × KeyEntry) := []
  /-- R575 -/
  ctr : Nat := 0
  /-- a step of the counter waits for its record (R557, R575) -/
  counting : Bool := false
  /-- R557: highest station key epoch used -/
  epochHigh : Nat := 0
  /-- R561: MA0 to MA7 -/
  ma : List (List Byte) := List.replicate 8 (List.replicate 48 0)
  maCnt : List Nat := List.replicate 8 0
  /-- R563: logged extensions, 64 bytes each -/
  maLog : List (List Byte) := []
  logFull : Bool := false
  /-- R567, R576 -/
  rngOk : Bool := false
  /-- boot checks of R559 done -/
  ready : Bool := false
  wr : Option KeyWrite := none
  /-- entries that a running re-mask round has still to do (R555) -/
  round : List Nat := []
  /-- tick count at the last boot (R555) -/
  bootTick : Nat := 0
  deriving DecidableEq, Repr, Inhabited

end Sys2Proof.Machine
end

