-- ==== Sys2Proof/Machine/StateC.lean ====
section
/-! DEFINITION. The state of the field channels (chapter 10), of metering (chapter 11) and of the redundant pair
(chapter 15) that is no plain register. -/

namespace Sys2Proof.Machine

/-- One channel (R345, R351 to R353, R359 to R361). -/
structure ChanState where
  /-- the last conversions that the mean covers (temperatures in modes 3 to 5), newest first -/
  vals : List Rat := []
  /-- the resistances of the same conversions -/
  secs : List Rat := []
  /-- CHN_CRAW -/
  code : Nat := 0
  /-- CHN_CVAL -/
  last : Word := 0
  /-- digital input: the accepted level after inversion; none until one has been accepted -/
  level : Option Bool := none
  /-- digital input: instants of accepted edges inside the chatter window, in 1/16 µs -/
  edges : List Nat := []
  chatter : Bool := false
  stuck : Bool := false
  /-- tick at which the accepted level became 1 -/
  highTick : Nat := 0
  outFault : Bool := false
  /-- R359: the CO word has been written since the entry into RUN -/
  coWritten : Bool := false
  /-- PWM: the duty of the running period -/
  duty : Rat := 0
  /-- mode 20: the tick of the last test pulse -/
  pulseTick : Option Nat := none
  /-- R396: mode 20: the test pulses queued -/
  tpQueue : Nat := 0
  deriving DecidableEq, Repr, Inhabited

/-- R354 to R358: one pulse counter of the always-on domain. -/
structure PulseCtr where
  configured : Bool := false
  channel : Nat := 0
  falling : Bool := false
  window : Nat := 0
  stable : Nat := 0
  /-- the 64-bit count -/
  count : Nat := 0
  /-- R355: a filter window is open -/
  winOpen : Bool := false
  /-- pulses and overrates of the running headway -/
  hwCount : Nat := 0
  hwOver : Bool := false
  /-- R388: cleared and reassigned since the latest totals record -/
  reassigned : Bool := true
  deriving DecidableEq, Repr, Inhabited

/-- The field channels. -/
structure ChnState where
  chans : List (Nat × ChanState) := []
  pcs : List PulseCtr := List.replicate 64 {}
  /-- conversions of each platform in the running second -/
  convs : List Nat := List.replicate 32 0
  /-- R344: the scan of each platform in the running second: the place in the order of the channel that comes next, and the
  slots used -/
  scanPos : List Nat := List.replicate 32 0
  scanUsed : List Nat := List.replicate 32 0
  /-- R504: CI words written in this tick by a member of a pair, published at the next tick (index and word) -/
  ciNext : List (Nat × DWord) := []
  deriving DecidableEq, Repr, Inhabited

/-- R371, R373, R377 to R381, R396: one meter. -/
structure MeterSt where
  configured : Bool := false
  cls : Nat := 0
  /-- param_crc of the record in force, the baseline of R53 -/
  paramCrc : Nat := 0
  regs : List Nat := List.replicate 10 0
  res : List Rat := List.replicate 10 0
  /-- R371: the flow rate and the tick of the last sample that counted pulses -/
  q : Rat := 0
  tLast : Nat := 0
  /-- R366: the flow channel of a meter whose flow is pulses -/
  flow : Option Nat := none
  /-- the flow pulse count at the previous sample -/
  lastCount : Nat := 0
  /-- R506: bits [31:0] of the flow channel's secondary CI word at the previous sample -/
  lastCi : Nat := 0
  noLoad : Bool := false
  reverse : Bool := false
  /-- the current tariff rate - 1 -/
  rate : Nat := 0
  /-- R379, R380: the open interval -/
  ivlStart : Nat := 0
  ivlBase : List Nat := List.replicate 10 0
  ivlFlags : Nat := 0
  ivlErr : Nat := 0
  ivlPeak : Rat := 0
  ivlOver : Nat := 0
  ivlCounted : Bool := false
  /-- R381: |power| of the samples of the running rate block -/
  block : List Rat := []
  /-- R382: the last 96 closed interval records, newest first -/
  ring : List (List Byte) := []
  /-- R396: the Wh added since the last test pulse -/
  tpWh : Nat := 0
  /-- R390: the running billing day -/
  dayPeak : Rat := 0
  dayFlags : Nat := 0
  dayErr : Nat := 0
  deriving DecidableEq, Repr, Inhabited

/-- R390: the running billing day of a metering station. -/
structure StnDay where
  peak : Option Rat := none
  notGood : Bool := false
  restart : Bool := false
  /-- ticks spent ABSENT -/
  absent : Nat := 0
  /-- R391: the slot that waits for the input close was received before midnight and is booked in the day before -/
  taken : Bool := false
  deriving DecidableEq, Repr, Inhabited

/-- A kind 5 record that waits for the first valid calendar time (R387): meter, t_save, peak, detail flags. -/
structure Bound where
  meter : Nat := 0
  tSave : Nat := 0
  peak : Rat := 0
  detail : Nat := 0
  deriving DecidableEq, Repr, Inhabited

/-- Metering. -/
structure MtrState where
  meters : List (Nat × MeterSt) := []
  /-- R381: peak rate since the last totals save, mirrored into always-on retention -/
  peaks : List (Nat × Rat) := []
  /-- metering has started since the boot -/
  started : Bool := false
  /-- R387: the latest totals record was written for the boot that follows -/
  cleanSave : Bool := false
  /-- the always-on domain has kept the peaks and the cut time since the last save -/
  aoKept : Bool := false
  /-- R384: a totals save waits for the next sample boundary, with its kind -/
  saveDue : Option Nat := none
  /-- a totals record is on its way, with its sequence number -/
  saving : Option Nat := none
  /-- save sequence number of the last capture (R385) -/
  saveSeq : Nat := 0
  /-- tick of the last periodic save -/
  saveTick : Nat := 0
  /-- tick of the last thermal sample -/
  sampleTick : Option Nat := none
  /-- R378, R398: tariff tables, keyed (table × 7 + weekday) × 3 + register -/
  tariff : List (Nat × Word) := []
  /-- R392: seconds are in MTR_LOG_LAST; records used in MTR_LOG -/
  pend5 : List Bound := []
  /-- R391: local day of the running billing day -/
  day : Option Nat := none
  stnDays : List (Nat × StnDay) := []
  /-- R391: the archive run that is due or was interrupted: day, and the records still to write with their sources -/
  archDue : Option (Nat × List (Nat × List Byte)) := none
  /-- peaks that the capture in flight carries, put back if it fails -/
  savePeaks : List (Nat × Rat) := []
  /-- R388: the counters whose new configuration the capture in flight takes in -/
  saveRe : List Nat := []
  deriving DecidableEq, Repr, Inhabited

/-- R500: a frame sent and not acknowledged. -/
structure SyncTx where
  seq : Nat := 0
  msg : SyncMsg := .tickEnd
  tick : Nat := 0
  deriving DecidableEq, Repr, Inhabited

/-- The redundant pair (chapter 15). -/
structure RedState where
  /-- R493: PAIR_ROLE as sampled at power-good: true on member B -/
  roleB : Bool := false
  /-- R495: the gate is armed -/
  armed : Bool := false
  actOut : Bool := false
  /-- ACT_IN_N is asserted -/
  actIn : Bool := false
  sync : Bool := false
  /-- lanes that carry traffic, bit mask -/
  lanes : Nat := 0
  /-- R496, R511: the first tick boundary after ACT_IN_N was last seen to change to deasserted -/
  actInTick : Nat := 0
  /-- R511: the first tick boundary after ACT_IN_N deasserted and the sync link down first held together -/
  downTick : Option Nat := none
  /-- R496 step 3: claiming -/
  claiming : Bool := false
  /-- R496: a RUN command or auto-run of this member waits to claim -/
  wantRun : Bool := false
  /-- R496 step 1: waits in READY for the link to come up -/
  waitSync : Bool := false
  aligning : Bool := false
  lockstep : Bool := false
  /-- RED_STAT.lockstep has been set since the last headway start -/
  lockWhole : Bool := false
  mismatch : Bool := false
  peerMode : Nat := 0
  peerFit : Bool := false
  peerDigest : List Byte := []
  /-- R509: own checksum and headway at the last t_out -/
  ownCrc : Option (Nat × Word) := none
  /-- R514: a handover at the next headway start has been announced -/
  handover : Bool := false
  /-- R514: the peer has acknowledged it, or (standby) has announced it -/
  handAck : Bool := false
  /-- R514 step 2 has been performed by this member: it keeps ACT_OUT_N asserted until the peer's is seen -/
  handKeep : Bool := false
  /-- R516: tick of the last swap or of the pair's forming -/
  swapTick : Nat := 0
  swapDue : Bool := false
  cmdStatus : Nat := 0
  /-- R500: frames sent and not acknowledged, oldest first -/
  tx : List SyncTx := []
  txSeq : Nat := 0
  /-- the frame received and acknowledged last -/
  rxSeq : Option Nat := none
  /-- R502: what has arrived of the active member's ticks and has not been worked off, oldest first -/
  rx : List SyncMsg := []
  rxSi : Option (List (Nat × DWord)) := none
  /-- R503: the private view: own CI words of a standby -/
  priv : List (Nat × DWord) := []
  /-- R507: engines, and the optimiser, that have not joined the lock-step yet and stay on the mirror -/
  engWait : List Nat := []
  optWait : Bool := false
  /-- engines of the active member that are not idle, as its tick stream says (bit mask) -/
  busy : Nat := 0
  /-- R507: the sweep of this alignment has begun to arrive -/
  swept : Bool := false
  /-- (active) the standby is in lock-step; while it is not, swept lines and their later writes are sent (R501) -/
  peerLock : Bool := false
  /-- R18: a schedule origin has arrived since the entry into STANDBY -/
  originGot : Bool := false
  /-- R509: the active member's checksum of the running comparison -/
  peerCrc : Option Word := none
  /-- R516: the pair has formed: the link has been up since the boot -/
  formed : Bool := false
  /-- a handover was asked for by RED_CMD -/
  handCmd : Bool := false
  /-- R502: (standby) the streams for the tick that runs have arrived and been worked off -/
  stepped : Bool := false
  /-- R500: the frame put on the link last: the sequence number it carries (for an acknowledgement, the one it names) -/
  sent : Option (Nat × SyncMsg) := none
  /-- R516: the calendar day on which a due proving swap was put off -/
  swapDay : Option Nat := none
  deriving DecidableEq, Repr, Inhabited

end Sys2Proof.Machine
end

