-- ==== Sys2Proof/Machine/StateD.lean ====
section
/-! DEFINITION. The state of the loop engine (chapter 7) and of the control engines (chapters 8 and 9) that is no plain
register. -/

namespace Sys2Proof.Machine

/-- R257, R260, R261, R264: the states of one loop, as binary32 values. -/
structure LoopSt where
  i : Word := 0
  d : Word := 0
  uPrev : Word := 0
  spEff : Word := 0
  pvPrev : Word := 0
  /-- the feedforward term held -/
  f : Word := 0
  /-- R261: a setpoint, a feedforward has been used since the start -/
  spKnown : Bool := false
  fKnown : Bool := false
  /-- R267: kp and ff_gain at the previous sample -/
  kpPrev : Word := 0
  ffPrev : Word := 0
  gainKnown : Bool := false
  /-- R264: a start is due at the next sample -/
  start : Bool := true
  fb : Bool := false
  /-- R262 code 3: the BAD word has been written -/
  released : Bool := false
  /-- R265: manual mode has begun -/
  manual : Bool := false
  /-- R264: LPE_Lk_CTL.reinit has been written -/
  reinit : Bool := false
  /-- R9: the quality of the inputs from which the integrator was last computed -/
  iq : Quality := .good
  deriving DecidableEq, Repr, Inhabited

/-- R270 to R272: one injector. -/
structure Injector where
  running : Bool := false
  k : Nat := 0
  /-- R270: the PRBS register, the bit produced last first -/
  prbs : List Bool := []
  deriving DecidableEq, Repr, Inhabited

/-- R273, R274: one capture unit. -/
structure Capture where
  armed : Bool := false
  /-- triggered: it starts at the loop's next sample -/
  go : Bool := false
  running : Bool := false
  wrapped : Bool := false
  suspect : Bool := false
  pos : Nat := 0
  /-- samples of the loop since the last record -/
  skip : Nat := 0
  /-- single mode: LEN samples are in -/
  full : Bool := false
  deriving DecidableEq, Repr, Inhabited

/-- The loop engine. -/
structure LpeState where
  loops : List (Nat × LoopSt) := []
  inj : List Injector := List.replicate 4 {}
  cap : List Capture := List.replicate 4 {}
  /-- the capture buffer, keyed by host address -/
  buf : List (Nat × Byte) := []
  /-- R254: the tick of the last sample, and the loop number from which due loops are still to sample in it -/
  tick : Nat := 0
  next : Nat := 0
  deriving DecidableEq, Repr, Inhabited

/-- R308: the states of a task that is defined, in the order of their codes from 1. -/
inductive TaskMode where
  | idle
  | released
  | running
  | preempted
  | stopped
  deriving DecidableEq, Repr, Inhabited

/-- R309, R282 to R287: one task of an engine. -/
structure TaskSt where
  mode : TaskMode := .idle
  /-- R309: w0 to w31, the program counter, the sticky flags of R322 -/
  w : List Word := List.replicate 32 0
  pc : Nat := 0
  flags : Nat := 0
  /-- the release tick of the current release (R294, R333) -/
  relTick : Nat := 0
  /-- execution time of the current release, in cycles of 2.5 ns (R285, R335) -/
  cycles : Nat := 0
  /-- R286: the truth value of the event reference, none before the first evaluation -/
  truth : Option Bool := none
  /-- tick of the last evaluation or due check -/
  evalTick : Option Nat := none
  /-- R287: an event release is pending -/
  pendingRel : Bool := false
  /-- R300: released since the entry into RUN -/
  everReleased : Bool := false
  /-- R308 counters -/
  overruns : Nat := 0
  last : Nat := 0
  longest : Nat := 0
  releases : Nat := 0
  lost : Nat := 0
  late : Nat := 0
  deriving DecidableEq, Repr, Inhabited

/-- R300: a patch that waits for its task's cycle boundary. -/
structure Patch where
  task : Nat := 0
  /-- 0 data memory, 1 literal area -/
  space : Nat := 0
  addr : Nat := 0
  bytes : List Byte := []
  deriving DecidableEq, Repr, Inhabited

/-- One control engine. -/
structure EngineSt where
  /-- code memory and data memory, what differs from zero -/
  code : List (Nat × Byte) := []
  data : List (Nat × Byte) := []
  /-- R279: the data image -/
  image : List Byte := []
  tasks : List (Nat × TaskSt) := []
  /-- the task that executes -/
  run : Option Nat := none
  patches : List Patch := []
  /-- execution cycles in the running headway (R307) -/
  hwCycles : Nat := 0
  /-- R297: the tick at which a retentive capture was requested -/
  retReq : Option Nat := none
  /-- R297: the tick of the END that was the last thing the engine did; none when an instruction has run since -/
  atEnd : Option Nat := none
  deriving DecidableEq, Repr, Inhabited

/-- The control engines. -/
structure CeState where
  engines : List EngineSt := List.replicate 8 {}
  /-- R298: retentive areas have been restored or initialised since the boot -/
  retDone : Bool := false
  /-- tick of the last periodic retentive save -/
  retTick : Nat := 0
  /-- engines whose records of the running save are not durable yet -/
  retLeft : List Nat := []
  /-- a record of the save has failed -/
  retFailed : Bool := false
  deriving DecidableEq, Repr, Inhabited

end Sys2Proof.Machine
end

