-- ==== Sys2Proof/Machine/StateE.lean ====
section
/-! DEFINITION. The state of the hydraulic estimator and front tracker (chapter 4), of the optimiser sequencer
(chapter 5) and of the solver fabric (chapter 6) that is no plain register. -/

namespace Sys2Proof.Machine

/-- R226: a unit of work. -/
inductive FabUnit where
  | none
  | factor
  | solve
  deriving DecidableEq, Repr, Inhabited

/-- One client of the fabric: the unit it has requested and what the fabric latches for it (R228). -/
structure FabClient where
  unit : FabUnit := .none
  /-- the unit has been started, so its settings are latched -/
  latched : Bool := false
  /-- section instance of its route -/
  route : Nat := 0
  /-- the update list of R199: targets and values -/
  list : List (Nat × Word) := []
  delta : Word := 0
  tau : Word := 0
  dpiv : Word := 0
  rtol : Word := 0
  refineMax : Nat := 0
  /-- pivots were replaced in the last factorisation (R247) -/
  replaced : Bool := false
  /-- R240: its work area has lost a word during the unit -/
  memFail : Bool := false
  deriving DecidableEq, Repr, Inhabited

/-- The solver fabric. -/
structure SlvState where
  hyd : FabClient := {}
  opt : FabClient := {}
  /-- R237: the factor store, what differs from zero, keyed by entry -/
  fs : List (Nat × Word) := []
  /-- who runs: 0 none, 1 HYD, 2 OPT -/
  holder : Nat := 0
  /-- R17: HYD has the fabric from t_in until NS is published -/
  hydHolds : Bool := false
  /-- R227: OPT is to pause at its next pause point -/
  pauseDue : Bool := false
  paused : Bool := false
  /-- R249, R250: 0 not run, 1 running, 2 passed, 3 failed -/
  selftest : Nat := 0
  /-- R252: factorisations of both clients since entry into READY -/
  factors : Nat := 0
  deriving DecidableEq, Repr, Inhabited

/-- The hydraulic estimator. -/
structure HydState where
  busy : Bool := false
  /-- HYD has written this headway's pressures and flows (the tracker moves) -/
  done : Bool := false
  /-- R156: the next solve starts cold -/
  coldDue : Bool := true
  cold : Bool := false
  /-- DEV_HEADWAY of the running estimate -/
  headway : Word := 0
  /-- R160: the words read for this solve, keyed by reference -/
  inputs : List (Nat × DWord) := []
  /-- values used since the entry into RUN, keyed 0x10000 × kind + number: 0 demand of a node, 1 control of an element,
  2 pressure of a reference node, 3 temperature of a node -/
  used : List (Nat × Word) := []
  /-- R145 to R151: demand, control and reference pressure in force in this solve, same keys, with their qualities -/
  now : List (Nat × DWord) := []
  /-- the iterate: flows in element order, heads in node order -/
  q : List Word := []
  h : List Word := []
  /-- the last converged solution -/
  conv : Option (List Word × List Word) := none
  /-- R177: the tolerances latched for this solve -/
  qtol : Word := 0
  htol : Word := 0
  iter : Nat := 0
  /-- R152: which elements are open check valves in the running iteration, and whether one changed -/
  cvOpen : List Bool := []
  cvChanged : Bool := false
  /-- R157: the residual measure of the iterate -/
  merit : Rat := 0
  converged : Bool := false
  failed : Bool := false
  failRun : Nat := 0
  /-- R161: consecutive headways beyond the limit, 256 more for a suspect one, keyed node, 0x10000 + element -/
  suspect : List (Nat × Nat) := []
  /-- flows and heads that the tracker moves with: the last ones published -/
  flows : List Word := []
  heads : List Word := []
  deriving DecidableEq, Repr, Inhabited

/-- R163: a wagon and the place it has in the parcel store. -/
structure Wagon where
  ix : Nat := 0
  vol : Word := 0
  temp : Word := 0
  birth : Nat := 0
  q : Quality := .good
  deriving DecidableEq, Repr, Inhabited

/-- R165, R173, R174: what the tracker keeps of a node. -/
structure NodeMix where
  temp : Word := 0
  birth : Nat := 0
  q : Quality := .bad
  /-- R166: overridden in the latest move -/
  source : Bool := false
  /-- the element that delivered most in the latest move -/
  dominant : Option Nat := none
  deriving DecidableEq, Repr, Inhabited

/-- The front tracker. -/
structure FtrState where
  busy : Bool := false
  /-- pipes: element number and queue from the from end to the to end -/
  pipes : List (Nat × List Wagon) := []
  mixes : List (Nat × NodeMix) := []
  /-- R173: the birth from which a node counts its delay that no water has reached yet -/
  birth0 : Nat := 0
  /-- R169: the pipes are to be seeded at the entry into RUN -/
  seeded : Bool := false
  /-- tick of the last completed move, or of the seeding -/
  moveTick : Nat := 0
  /-- bytes of the parcel store that the host has written in HOLD or READY (R171), keyed by offset -/
  cells : List (Nat × Byte) := []
  /-- R485: pipes that are reseeded at their next move (element numbers) -/
  reseed : List Nat := []
  deriving DecidableEq, Repr, Inhabited

/-- R205: an entry of the warm-start store: tag, value or activity, lower and upper multiplier. -/
structure WarmEntry where
  tag : Nat := 0
  val : Word := 0
  lo : Word := 0
  hi : Word := 0
  deriving DecidableEq, Repr, Inhabited

/-- What the sequencer waits for in a solve (R209). -/
inductive OptPhase where
  | idle
  | factor
  | predictor
  | corrector
  deriving DecidableEq, Repr, Inhabited

/-- R216: a plan: its kind, the sequence number of its solve, the absolute step of its step 0, the step words by channel. -/
structure SolvedPlan where
  kind : Nat := 0
  seq : Nat := 0
  step : Nat := 0
  chans : List (Nat × List DWord) := []
  deriving DecidableEq, Repr, Inhabited

/-- The optimiser sequencer. -/
structure OptState where
  phase : OptPhase := .idle
  /-- R20: this period's solve starts at the publication of NS -/
  due : Bool := false
  /-- R20: the first period after entry into RUN has started; every line had ended its joins at a period start -/
  first : Bool := true
  cold : Bool := false
  /-- the solve in progress -/
  route : Nat := 0
  step0 : Nat := 0
  start : Nat := 0
  warm : Bool := false
  iter : Nat := 0
  limit : Nat := 0
  /-- R209: the exponent of 16 that multiplies δ, and the retries of this iteration -/
  boost : Nat := 0
  retries : Nat := 0
  mostRetries : Nat := 0
  /-- merits of the iterations, latest first -/
  merits : List Rat := []
  /-- the data list of R200 that waits for the first factorisation -/
  dataList : List (Nat × Word) := []
  /-- the iterate: x, lower and upper bound multipliers, row activities, lower and upper row multipliers -/
  iterate : List Word := []
  pred : List Word := []
  /-- R219 -/
  quality : Quality := .good
  /-- R196: the series copied at step 1: first step, quality, entries -/
  series : List (Nat × Quality × List Word) := []
  /-- R197: the value each record entry used last, keyed 65,536 × record + entry -/
  lastUsed : List (Nat × Word) := []
  /-- R201, R202: value of each switch: service 0 or 1, lag in steps -/
  switches : List (Nat × Nat) := []
  /-- R197, R200: replaced inputs and full reloads since entry into READY -/
  replaced : Nat := 0
  reloads : Nat := 0
  lastRoute : Option Nat := none
  /-- R205 -/
  store : List WarmEntry := []
  storeStep : Nat := 0
  /-- R216 to R218: the plan in force: kind, sequence number, step of step 0, and for each channel its N step words -/
  kind : Nat := 0
  planSeq : Nat := 0
  planStep : Nat := 0
  plan : List (Nat × List DWord) := []
  /-- a plan solved and not yet written -/
  ready : Option SolvedPlan := none
  /-- R215: the sequence number of the solve last started -/
  seq : Nat := 0
  /-- R217: the absolute step of the latest headway start with valid time -/
  stepSeen : Option Nat := none
  /-- R219: OPT_CTL.enable was 0 at the latest period start -/
  off : Bool := false
  /-- R22: the fallback is due at the next headway start -/
  fallbackDue : Bool := false
  /-- R213: achieved integral of each zone, and the local day for which it counts -/
  light : List (Nat × Rat × Nat) := []
  /-- R9, R213: the largest quality code among the inputs of each integral -/
  lightQ : List (Nat × Quality) := []
  deriving DecidableEq, Repr, Inhabited

end Sys2Proof.Machine
end

