-- ==== Sys2Proof/Machine/StateF.lean ====
section
/-! DEFINITION. The state of the station link (chapter 3): the head-end lines with the train each has sent, the
stations, and the through pairs on which the device itself is a station. -/

namespace Sys2Proof.Machine

/-- One car of a port's current train, as it was sent, and what has come back of it (R93 to R97, R111). -/
structure CarSent where
  kind : Nat := 0
  frame : List Byte := []
  returned : Bool := false
  late : Bool := false
  /-- ack_mask and fault_mask as returned (R97) -/
  ack : Nat := 0
  fault : Nat := 0
  deriving DecidableEq, Repr, Inhabited

/-- R120: an admission or a refusal that the next train carries, at a position (minus 1), for a station number. -/
structure SlotCmd where
  pos : Nat := 0
  station : Nat := 0
  admits : Bool := false
  nonce : Nat := 0
  deriving DecidableEq, Repr, Inhabited

/-- One port that heads a line. -/
structure LineSt where
  /-- SLK_LSTAT.link_up -/
  link : Bool := false
  /-- R117, R125: number of the next train -/
  next : Nat := 0
  /-- number of the current train; none before the first -/
  train : Option Nat := none
  /-- the current train is a regular one -/
  regular : Bool := false
  /-- epoch of the current train (R104) -/
  epoch : Nat := 0
  cars : List CarSent := []
  joinPhase : Bool := false
  joinDone : Bool := false
  /-- trains sent since the start of the join phase -/
  round : Nat := 0
  /-- R113: prev_train, prev_rt, prev_cret -/
  prev : Nat × Nat × Nat := (0xFFFFFFFF, 0, 0)
  cmds : List SlotCmd := []
  /-- R90: a car of the current train came back from the own last station of the line -/
  full : Bool := false
  broken : Bool := false
  /-- R90: position after which the line is broken -/
  breakPos : Nat := 0
  /-- R90: this port carries guest cars for its partner -/
  guest : Bool := false
  turnPos : Nat := 0
  /-- R560: the line master key that the trains of this headway use -/
  master : List Byte := []
  deriving DecidableEq, Repr, Inhabited

/-- One rostered station (R117 to R127, R142). `state`: 0 NONE, 1 JOINING, 2 PRESENT, 3 ABSENT, 4 REFUSED. -/
structure StnSt where
  state : Nat := 0
  missed : Nat := 0
  last : Nat := 0
  macFail : Nat := 0
  drops : Nat := 0
  /-- R126: the inputs received in this headway: train number and the slot's 56 data bytes -/
  got : Option (Nat × List Byte) := none
  deriving DecidableEq, Repr, Inhabited

/-- R131 to R133: the device as a station, on the through pair of one lower port. -/
structure ThruSt where
  /-- learned from ordinary outbound cars: the line's port number and the position minus 1 -/
  line : Nat := 0
  pos : Option Nat := none
  /-- run_id of the latest time car, and that of the run in which the device joined -/
  run : Option Nat := none
  joinedRun : Option Nat := none
  /-- train number of the last accepted output slot -/
  last : Nat := 0
  /-- highest epoch accepted -/
  epoch : Nat := 0
  /-- nonce of the last request -/
  nonce : Option Nat := none
  /-- R122: no request before this many further trains -/
  wait : Nat := 0
  /-- R119: the train in which the last request was made -/
  asked : Option Nat := none
  /-- R115 for the latest outbound time car: train, a, c_in, origin -/
  outTime : Option (Nat × Int × Int × Int) := none
  /-- R115: f − a and c_up of the time car of a train -/
  retTime : Option (Nat × Int × Int) := none
  /-- R115: the offset in use, head-end time minus local time, in 1/65,536 tick -/
  offset : Option Int := none
  /-- R101, R114: local time of the start of this headway, and the headway's length -/
  start : Option Int := none
  period : Int := 0
  /-- R101: local time at which the next headway is expected -/
  nextStart : Option Int := none
  /-- R101: the latched SO words, and the local time of the latch -/
  latch : Option (List DWord × Int) := none
  /-- R114: local time at which the outputs of the current train apply, and how long after a headway start that is -/
  applyAt : Int := 0
  applyAfter : Int := 0
  /-- R560: the device's base key as the trains of this headway use it -/
  key : Option (List Byte) := none
  /-- R114: accepted output slots that wait for their instant: the instant, the station, the 24 data bytes -/
  held : List (Int × Nat × List Byte) := []
  deriving DecidableEq, Repr, Inhabited

/-- The station link. -/
structure SlkState where
  lines : List LineSt := List.replicate 8 {}
  stns : List (Nat × StnSt) := []
  /-- R104: an epoch whose record is not durable yet -/
  epochWait : Option Nat := none
  /-- tick at which join trains last departed -/
  joinTick : Option Nat := none
  /-- payload of the valid through record in force (R130, R447) -/
  thruRec : List Byte := List.replicate 8 0
  /-- a valid through record exists -/
  thruValid : Bool := false
  /-- through-mode forwarding runs -/
  thruOn : Bool := false
  /-- by lower port -/
  thru : List (Nat × ThruSt) := []
  /-- the frame forwarded last: port it leaves by, and its bytes -/
  fwd : Option (Nat × List Byte) := none
  deriving DecidableEq, Repr, Inhabited

end Sys2Proof.Machine
end

