-- ==== Sys2Proof/Machine/State.lean ====
section
/-! DEFINITION. The machine's state: the queue of waiting commands, the register file, the non-volatile die and one
structure per block. Plain data throughout; every register has a value at reset. -/

namespace Sys2Proof.Machine

/-- No command of this model faults: the closed type the interface asks for has one constructor that no meaning
raises (safe: nothing stops the run). -/
inductive Fault where
  /-- Raised by nobody. -/
  | never
  deriving DecidableEq, Repr

/-- Why a command is refused by the model. -/
inductive Refusal where
  /-- Raised by an arm of `exec` whose command has no meaning yet (safe: the run stops). -/
  | notModelled (mnemonic : String)
  deriving DecidableEq, Repr

/-- The device. `pending` is the block's queue of commands, first in, first out; `free` numbers the draws of free
values (both are the model's own, not the spec's). -/
structure State where
  pending : List Instr := []
  free : Nat := 0
  /-- the register file: what differs from the reset values of the register map -/
  regs : List (Nat × Word) := []
  /-- the non-volatile die: what differs from its contents at delivery (R626), keyed by NV offset -/
  nv : List Host.Cell := []
  dev : DevState := {}
  pwr : PwrState := {}
  jnl : JnlState := {}
  tx : TxState := {}
  ps : PsState := {}
  img : Image := {}
  mem : MemState := {}
  mgt : MgtState := {}
  hif : HifState := {}
  key : KeyState := {}
  chn : ChnState := {}
  mtr : MtrState := {}
  red : RedState := {}
  lpe : LpeState := {}
  ce : CeState := {}
  slv : SlvState := {}
  hyd : HydState := {}
  ftr : FtrState := {}
  opt : OptState := {}
  slk : SlkState := {}
  deriving DecidableEq, Repr

/-- The machine right after VAO has risen: BOOT, tick count 0, every register at its reset value, the die as at
delivery, nothing waiting. -/
def State.reset : State := {}

end Sys2Proof.Machine
end

