-- ==== Sys2Proof/Machine/Ops.lean ====
section
/-! DEFINITION. The named operations over the state that every block shares: the register file, the non-volatile
die, the process image, free values, cause bits with their events, and the event recorder (R536 to R541). -/

namespace Sys2Proof.Machine

/-- The outcome of a command that has an effect: the next state. -/
abbrev Result := Host.Outcome State Fault Refusal

/-! ### Registers -/

/-- The value a register holds. -/
def getReg (s : State) (a : Nat) : Word := smGet regReset s.regs a

/-- Set a register. -/
def setReg (a : Nat) (v : Word) (s : State) : State := { s with regs := smPut regReset s.regs a v }

/-- A field of a register. -/
def getFld (s : State) (a hi lo : Nat) : Nat := field (getReg s a) hi lo

/-- Set a field of a register. -/
def setFld (a hi lo v : Nat) (s : State) : State := setReg a (setField (getReg s a) hi lo v) s

/-- One bit of a register. -/
def getBit (s : State) (a i : Nat) : Bool := (getReg s a).getLsbD i

/-- Set one bit of a register. -/
def setBit (a i : Nat) (b : Bool) (s : State) : State := setFld a i i (b2n b) s

/-- Count one up in a saturating field. -/
def incFld (a hi lo : Nat) (s : State) : State := setFld a hi lo (satInc (hi + 1 - lo) (getFld s a hi lo)) s

/-- Count up in a saturating field. -/
def addFld (a hi lo n : Nat) (s : State) : State := setFld a hi lo (satAdd (hi + 1 - lo) (getFld s a hi lo) n) s

/-- Count one up in a register that wraps. -/
def incReg (a : Nat) (s : State) : State := setReg a (getReg s a + 1) s

/-- Raise a field to a value if that is larger. -/
def maxFld (a hi lo v : Nat) (s : State) : State := if getFld s a hi lo < v then setFld a hi lo v s else s

/-! ### Free values (the model's own counter) -/

/-- R473: where memory `k` begins. -/
def memBase (k : Nat) : Nat :=
  match k with
  | 0 => 0x1000000
  | 1 => 0x2000000
  | 2 => 0x4000000
  | 3 => 0x1800000
  | 4 => 0x1C00000
  | 5 => 0x1D00000
  | k => 0x200000 + 0x40000 * (k - 6)

/-- R477, R490: the host address of the word that an upset is in; a word of P or Q has none, and its line's first word stands
for it (log entry 99). -/
def upsetAddr (u : Upset) : Nat := memBase u.mem + 128 * u.line + 8 * (if u.bank < 16 then u.bank else 0)

/-- The upset is in one of the data words of [a, a + n) (host addresses). -/
def upsetIn (a n : Nat) (u : Upset) : Bool :=
  decide (u.bank < 16) && decide (upsetAddr u < a + n) && decide (a < upsetAddr u + 8)

/-- R482, R484: a write of whole 64-bit words of a memory stores them with a new code: what was wrong there is gone. -/
def memHeal (a n : Nat) (s : State) : State :=
  { s with mem := { s.mem with
    upsets := s.mem.upsets.filter (fun u => !(decide (u.bank < 16) && decide (a ≤ upsetAddr u) && decide (upsetAddr u + 8 ≤ a + n))) } }

/-- The next number for a free value, and the state in which it is used up. -/
def fresh (s : State) : Nat × State := (s.free, { s with free := s.free + 1 })

/-! ### The non-volatile die (R433, R626) -/

/-- What a byte of the die holds at delivery: the metrological log 0xFF, firmware slot A its image, all else 0. -/
def nvDelivery (a : Nat) : Byte :=
  if 0x04800000 ≤ a ∧ a < 0x04A00000 then 0xFF#8
  else if 0x02000000 ≤ a ∧ a < 0x02400000 then Config.fwImage (a - 0x02000000)
  else 0#8

/-- Read bytes of the die. -/
def nvRead (s : State) (off n : Nat) : List Byte := smGetList nvDelivery s.nv off n

/-- Program bytes of the die. -/
def nvWrite (off : Nat) (bs : List Byte) (s : State) : State := { s with nv := smPutList nvDelivery s.nv off bs }

/-! ### The process image (R10, R106, R624, R625) -/

/-- A value word: value in [31:0], quality in [33:32]. -/
def mkWord (v : Word) (q : Quality) : DWord := BitVec.ofNat 64 (v.toNat + qCode q * 2 ^ 32)

/-- The value of a value word. -/
def wordVal (w : DWord) : Word := w.setWidth 32

/-- The quality of a value word. -/
def wordQ (w : DWord) : Quality := qualityOf (w.toNat / 2 ^ 32)

/-- The word with value zero and quality BAD (R625). -/
def badWord : DWord := mkWord 0 .bad

/-- R624, R625: what a word of a region holds from placement until its writer first writes it. Words without a quality code
hold zero: SO word 0, words 14 and 15 of each station, and the TJ header. The TJ words past the plan of an output channel are
made zero when the timetable is placed, since their number is the timetable's (`tjUnused`). -/
def imgInit (r i : Nat) : DWord :=
  match r with
  | 0 => if i % 16 = 14 ∨ i % 16 = 15 then 0 else badWord
  | 1 => if i % 16 = 0 ∨ i % 16 = 14 ∨ i % 16 = 15 then 0 else badWord
  | 6 => if i % 256 = 1 then 0 else badWord
  | _ => badWord

/-- A word of the generation of a region that is published now. -/
def imgGet (s : State) (r i : Nat) : DWord :=
  match r with
  | 0 => smGet (imgInit 0) s.img.si i
  | 1 => smGet (imgInit 1) s.img.so i
  | 2 => smGet (imgInit 2) s.img.ci i
  | 3 => smGet (imgInit 3) s.img.co i
  | 4 => smGet (imgInit 4) s.img.ns i
  | 5 => smGet (imgInit 5) s.img.mi i
  | 6 => smGet (imgInit 6) s.img.tj i
  | _ => 0

/-- A word of the working generation (of the one generation of CI, CO and MI). -/
def imgGetWork (s : State) (r i : Nat) : DWord :=
  match r with
  | 0 => smGet (imgInit 0) s.img.siWork i
  | 1 => smGet (imgInit 1) s.img.soWork i
  | 4 => smGet (imgInit 4) s.img.nsWork i
  | 6 => smGet (imgInit 6) s.img.tjWork i
  | _ => imgGet s r i

/-- R106: what an SO word can hold: the command bits of word 0, 34 bits of a value word, nothing in words 14 and 15. -/
def soForm (i : Nat) (w : DWord) : DWord :=
  if i % 16 = 0 then w &&& 0xFFFF#64 else if 14 ≤ i % 16 then 0 else w &&& 0x3FFFFFFFF#64

/-- Write a word into the working generation (the one generation of CI, CO and MI). -/
def imgPut (r i : Nat) (w : DWord) (s : State) : State :=
  match r with
  | 0 => { s with img := { s.img with siWork := smPut (imgInit 0) s.img.siWork i w } }
  | 1 => { s with img := { s.img with soWork := smPut (imgInit 1) s.img.soWork i (soForm i w) } }
  | 2 => { s with img := { s.img with ci := smPut (imgInit 2) s.img.ci i w } }
  | 3 => { s with img := { s.img with co := smPut (imgInit 3) s.img.co i w } }
  | 4 => { s with img := { s.img with nsWork := smPut (imgInit 4) s.img.nsWork i w } }
  | 5 => { s with img := { s.img with mi := smPut (imgInit 5) s.img.mi i w } }
  | 6 => { s with img := { s.img with tjWork := smPut (imgInit 6) s.img.tjWork i w } }
  | _ => s

/-- R10: publish a region: the working generation becomes the published one, and the new working generation equals
it. MEM_IMG_GENr counts the switch (R476). -/
def imgPublish (r : Nat) (s : State) : State :=
  let g := setNth s.img.gen r ((nth s.img.gen r 0 + 1) % 2 ^ 32)
  match r with
  | 0 => { s with img := { s.img with si := s.img.siWork, gen := g } }
  | 1 => { s with img := { s.img with so := s.img.soWork, gen := g } }
  | 4 => { s with img := { s.img with ns := s.img.nsWork, gen := g } }
  | 6 => { s with img := { s.img with tj := s.img.tjWork, gen := g } }
  | _ => s

/-- The region and index of an image reference (R47), none for 0xFFFF_FFFF. -/
def refSplit (ref : Nat) : Option (Nat × Nat) :=
  if ref = 0xFFFFFFFF then none else some (ref / 2 ^ 28, ref % 2 ^ 28)

/-- The word an image reference names, in the generation published now; none for no reference. -/
def refGet (s : State) (ref : Nat) : Option DWord := (refSplit ref).map (fun p => imgGet s p.1 p.2)

/-! ### The timetable in force -/

/-- The placed timetable, or an empty one. -/
def theTt (s : State) : Timetable := s.dev.tt.getD {}

/-- R18: the ticks since the schedule origin; the tick count wraps (R406). -/
def sinceOrigin (s : State) : Nat := (s.pwr.tick + 2 ^ 48 - s.dev.schedOrigin) % 2 ^ 48

/-- A flag of the Security policy in force (R64). -/
def secFlag (s : State) (i : Nat) : Bool := bit (theTt s).security.flags i

/-! ### Calendar stamps -/

/-- R536: the seconds and fraction that a record raised now carries. -/
def stamp (s : State) : Nat × Nat :=
  if s.mgt.cal.valid then (s.mgt.cal.seconds, s.mgt.cal.frac)
  else (s.pwr.tick / 1024 % 2 ^ 32, s.pwr.tick % 1024 * 64)

/-! ### The event recorder -/

/-- The 32 bytes of an event record (R536). -/
def evBytes (sec frac code seq source : Nat) (d0 d1 : Word) (flags supp : Nat) : List Byte :=
  let body := leBytes 4 sec ++ leBytes 2 frac ++ leBytes 2 code ++ leBytes 6 seq ++ leBytes 2 source ++
    wordBytes d0 ++ wordBytes d1 ++ leBytes 1 flags ++ leBytes 1 supp ++ leBytes 1 0
  body ++ wordBytes (crc32c body) ++ [0xA5#8]

/-- A record with its sequence number and flags rewritten, and its CRC with them. -/
def evRestamp (r : List Byte) (seq : Nat) (orFlags : Nat) : List Byte :=
  let body := slice r 0 8 ++ leBytes 6 seq ++ slice r 0xE 10 ++ leBytes 1 (u8 r 0x18 ||| orFlags) ++ slice r 0x19 2
  body ++ wordBytes (crc32c body) ++ [0xA5#8]

/-- R538: the position of record `seq` in the die. -/
def evPos (seq : Nat) : Nat := 0x03800000 + 32 * (seq % 524288)

/-- R539: write a record at its position. -/
def evWrite (r : List Byte) (s : State) : State := nvWrite (evPos (leNat (slice r 8 6))) r s

/-- R542: until the head of the ring is known, which it is not after a loss of VAO, every record waits. -/
def evWaits (s : State) : Bool := !s.mgt.evr.ready

/-- R539: the records on their way into the die are written, each with its mark last. -/
def evProgram (s : State) : State :=
  let s1 := forL s.mgt.evr.queue s evWrite
  { s1 with mgt := { s1.mgt with evr := { s1.mgt.evr with queue := [] } } }

/-- R539, R445: records on their way are written once no journal record is written or waits, while the supplies are good.
DESIGN CHOICE (log entry 107): they are then written together at the end of a tick. -/
def evTick (s : State) : State :=
  if s.pwr.powerGood ∧ !s.pwr.rstLow ∧ s.jnl.cur.isNone ∧ s.jnl.queue = [] then evProgram s else s

/-- Whether a record was raised in buffered mode (R536). -/
def evBuffered (r : List Byte) : Bool := (nth r 0x18 0#8).getLsbD 2

/-- R540: every buffered record goes on its way to its position; the power-fail save sets flag 3 and writes them at once. -/
def evFlush (save : Bool) (s : State) : State :=
  if evWaits s then s
  else
    let e := s.mgt.evr
    let rs := if save then e.buffer.map (fun r => evRestamp r (leNat (slice r 8 6)) 8) else e.buffer
    let s1 := { s with mgt := { s.mgt with evr := { e with queue := e.queue ++ rs, buffer := [] }, flushTicks := 0 } }
    if save then evProgram s1 else s1

/-- R540: the flush before the device enters BOOT of its own or by a command is complete before it does. -/
def evDrain (s : State) : State := evProgram (evFlush false s)

/-- A record goes on its way into the die in direct mode (R539). -/
def evDirect (r : List Byte) (s : State) : State :=
  { s with mgt := { s.mgt with evr := { s.mgt.evr with queue := s.mgt.evr.queue ++ [r] } } }

/-- Take the next sequence number (48 bits). -/
def evNextSeq (s : State) : Nat × State :=
  (s.mgt.evr.seq, { s with mgt := { s.mgt with evr := { s.mgt.evr with seq := (s.mgt.evr.seq + 1) % 2 ^ 48 } } })

/-- R539, R540, R542: store a record (made with seq 0) in direct or buffered mode. -/
def evStore (direct : Bool) (r : List Byte) (s : State) : State :=
  if evWaits s then
    { s with mgt := { s.mgt with evr := { s.mgt.evr with waiting := s.mgt.evr.waiting ++ [(direct, r)] } } }
  else
    let (q, s1) := evNextSeq s
    if direct then evDirect (evRestamp r q 0) s1
    else if 4096 ≤ s1.mgt.evr.buffer.length then
      let s2 := evDirect (evRestamp r q 0) s1
      incFld Reg.MGT_EVR_CNT 31 16 (setBit Reg.MGT_CAUSE 6 true s2)
    else
      let s2 := { s1 with mgt := { s1.mgt with evr :=
        { s1.mgt.evr with buffer := s1.mgt.evr.buffer ++ [evRestamp r q 4] } } }
      if 3072 ≤ s2.mgt.evr.buffer.length then evFlush false s2 else s2

/-- R62, R63, R541: records per hour of an event code. -/
def evRate (s : State) (code : Nat) : Nat :=
  let r := (theTt s).eventClass code
  let rate := if r.rate = 0 then 60 else r.rate
  if code / 4096 = 12 then max 60 rate else rate

/-- Where the bucket of a code and source is: an index, a new one, or the overflow bucket (R541). -/
def evBucketIx (bs : List Bucket) (code source : Nat) : Option Nat :=
  bs.findIdx? (fun b => b.code == code && b.source == source)

/-- R62: the severity of an event code: that of its Event classes record; without one 0, but the temperature events keep what
R531 calls them, a warning and an alarm.
DEDUCED (log entry 106): R531's word against R62's default. -/
def evSeverity (s : State) (code : Nat) : Nat :=
  match (theTt s).eventClasses.find? (fun r => r.code == code) with
  | some r => r.severity
  | none => if code = 0xE043 then 1 else if code = 0xE044 then 2 else 0

/-- Write a record without a rate limit (summaries; records the limit has passed).
DESIGN CHOICE (log entry 88): a severity above 3 is carried modulo 4. -/
def evRecord (code source : Nat) (d0 d1 : Word) (extraFlags supp : Nat) (s : State) : State :=
  let cls := (theTt s).eventClass code
  let direct := cls.mode == 0 || code / 4096 == 12
  let t := stamp s
  let flags := b2n s.mgt.cal.leapNow + 2 * b2n (!s.mgt.cal.valid) + 16 * (evSeverity s code % 4) + extraFlags
  evStore direct (evBytes t.1 t.2 code 0 source d0 d1 flags (min 255 supp)) s

/-- R541: the two outcomes at a bucket: spend 3,600 units and hand on the suppressed count, or count the refusal. -/
def bucketTry (b : Bucket) : Option Nat × Bucket :=
  if 3600 ≤ b.tokens then (some b.suppressed, { b with tokens := b.tokens - 3600, suppressed := 0 })
  else (none, { b with suppressed := b.suppressed + 1 })

/-- Raise an event (R536, R537, R541). -/
def evRaise (code source : Nat) (d0 d1 : Word) (s : State) : State :=
  let e := s.mgt.evr
  let done (o : Option Nat) (e' : EvrState) : State :=
    let s1 := { s with mgt := { s.mgt with evr := e' } }
    match o with
    | some n => evRecord code source d0 d1 0 n s1
    | none => incFld Reg.MGT_EVR_CNT 15 0 (setBit Reg.MGT_CAUSE 7 true s1)
  match evBucketIx e.buckets code source with
  | some i =>
    let (o, b) := bucketTry (nth e.buckets i {})
    done o { e with buckets := setNth e.buckets i b }
  | none =>
    if e.buckets.length < 2048 then
      let (o, b) := bucketTry { code := code, source := source, tokens := evRate s code * 3600, suppressed := 0 }
      done o { e with buckets := e.buckets ++ [b] }
    else
      let (o, b) := bucketTry e.overflow
      done o { e with overflow := { b with code := code, source := source } }

/-- R537: set bit `b` of a CAUSE register and record its event; `src`, `d0`, `d1` are what the raising rule names. The
events of KEY_CAUSE are 0xE060 + b (17, head of the register section). -/
def causeD (reg b src : Nat) (d0 d1 : Word) (s : State) : State :=
  let s1 := setBit reg b true s
  if reg = Reg.MGT_CAUSE ∧ (b = 6 ∨ b = 7) then s1
  else if reg = Reg.KEY_CAUSE then evRaise (0xE060 + b) src d0 d1 s1
  else evRaise (reg / 0x10000 * 0x1000 + 0x40 + b) src d0 d1 s1

/-- A cause without source and data. -/
def cause (reg b : Nat) (s : State) : State := causeD reg b 0 0 0 s

/-- A cause with a source. -/
def causeS (reg b src : Nat) (s : State) : State := causeD reg b src 0 0 s

/-! ### Device states -/

/-- The code of a state (R31). -/
def modeCode (m : Mode) : Nat :=
  match m with
  | .boot => 0
  | .hold => 1
  | .ready => 2
  | .run => 3
  | .standby => 4
  | .safe => 5

/-! ### The sync link's sending side (R500, R501) -/

/-- A member of a pair whose sync link is up sends a frame: it waits for its acknowledgement. -/
def redSend (m : SyncMsg) (s : State) : State :=
  if (theTt s).redundancy.mode = 1 ∧ s.red.sync then
    { s with red := { s.red with
      tx := s.red.tx ++ [{ seq := s.red.txSeq, msg := m, tick := s.pwr.tick % 2 ^ 32 }]
      sent := some (s.red.txSeq, m)
      txSeq := (s.red.txSeq + 1) % 2 ^ 32 } }
  else s

/-- A frame of a stream that only the active member sends (R501). -/
def redStream (m : SyncMsg) (s : State) : State :=
  if s.dev.mode = .run ∨ s.dev.mode = .safe then redSend m s else s

/-- R508: no fatal cause bit is set. -/
def noFatal (s : State) : Bool := getFld s Reg.DEV_CAUSE 12 8 == 0

/-- R502: the work of the tick may be done: a standby's waits for the active member's streams. -/
def tickOpen (s : State) : Bool := s.dev.mode != .standby || s.red.stepped

/-- The loops, tasks, HYD and the optimiser compute: in RUN, and in STANDBY in shadow once the tick's streams are there (R502),
unless the member aligns (R507) or a fatal cause has stopped it (R508). -/
def computes (s : State) : Bool :=
  s.dev.mode == .run || (s.dev.mode == .standby && s.red.stepped && !s.red.aligning && noFatal s)

/-- A member tells its peer its state, fitness (R508), digest, and whether it is in lock-step. -/
def redStatus (s : State) : State :=
  redSend (.status (modeCode s.dev.mode) (s.dev.mode == .standby && noFatal s) (theTt s).digest s.red.lockstep) s

/-- A standby leaves the lock-step. -/
def loseStep (s : State) : State := { s with red := { s.red with lockstep := false, lockWhole := false } }

/-- R26: a fatal cause sets its bit, flushes the event buffer (R540), and in RUN the move to SAFE is due; a HOLD of the
same tick is then judged against SAFE (R27). In STANDBY the member reports itself unfit (R508). -/
def fatal (b src : Nat) (s : State) : State :=
  let s1 := evFlush false (causeS Reg.DEV_CAUSE b src s)
  match s1.dev.mode with
  | .run =>
    let s2 := { s1 with dev := { s1.dev with fatalDue := true } }
    if s2.dev.holdRefused ∧ s2.dev.cmd = none then { s2 with dev := { s2.dev with cmd := some .hold, cmdStatus := 1 } }
    else s2
  | .standby => redStatus (loseStep s1)
  | _ => s1

/-- The states in which headways count (R23). -/
def hwStates (m : Mode) : Bool := m == .ready || m == .run || m == .standby || m == .safe

/-- R459, R461: a commit boundary is due at this tick for what is durable. -/
def commitDue (s : State) : Bool :=
  s.tx.st == 4 && decide (s.tx.shadowTick + 2 ≤ s.pwr.tick) && (s.tx.prompt || s.dev.hwDue)

/-- Record a change of state (R31, R537: code 0x0080), and tell the peer. Every change of mode goes through here. -/
def setMode (m : Mode) (s : State) : State :=
  redStatus (evRaise 0x0080 0 (BitVec.ofNat 32 (modeCode s.dev.mode)) (BitVec.ofNat 32 (modeCode m))
    { s with dev := { s.dev with prevMode := s.dev.mode, mode := m } })

/-! ### Memory errors (R485, R486, R490) -/

/-- R490: a single-bit correction in memory `mem`. -/
def memCorrected (mem : Nat) (s : State) : State := cause Reg.MEM_CAUSE 0 (incFld (Reg.MEM_M_CNT + 0x10 * mem) 15 0 s)

/-- R490: `n` words rebuilt in a line of memory `mem`; `a` is the last one's address. -/
def memRebuilt (mem n a : Nat) (s : State) : State :=
  cause Reg.MEM_CAUSE 1 (setReg (Reg.MEM_M_ADDR + 0x10 * mem) (BitVec.ofNat 32 a)
    (forN n s (fun _ s => incFld (Reg.MEM_M_CNT + 0x10 * mem) 31 16 s)))

/-- R485, R490: an error in memory `mem` that is neither corrected nor rebuilt. -/
def memUncorrected (mem a : Nat) (s : State) : State :=
  cause Reg.MEM_CAUSE 2 (setReg (Reg.MEM_M_ADDR + 0x10 * mem) (BitVec.ofNat 32 a)
    (incFld (Reg.MEM_M_UNC + 0x10 * mem) 15 0 s))

end Sys2Proof.Machine
end

