-- ==== Sys2Proof/Machine/Pwr.lean ====
section
/-! DEFINITION. Power, clocks and the common block state machine (R402 to R412, R427, R428): domains, demand, PLL lock,
clock faults, and the energy books (R425). -/

namespace Sys2Proof.Machine

/-- Domain `d` (1 to 17). -/
def dom (s : State) (d : Nat) : Domain := nth s.pwr.doms (d - 1) {}

/-- Replace domain `d`. -/
def setDom (d : Nat) (x : Domain) (s : State) : State :=
  if d = 0 then s else { s with pwr := { s.pwr with doms := setNth s.pwr.doms (d - 1) x } }

/-- The five users' demand (chapter 12, before R409). -/
def Domain.demand (x : Domain) : Bool := x.scheduled || x.work || x.host || x.mailbox || x.forceOn

/-- A domain with one user's demand set or taken away. -/
def Domain.setUser (x : Domain) (u : DomUser) (b : Bool) : Domain :=
  match u with
  | .scheduled => { x with scheduled := b }
  | .work => { x with work := b }
  | .host => { x with host := b }
  | .mailbox => { x with mailbox := b }
  | .force => { x with forceOn := b }

/-- Enter STARTING: counted in PWR_DOMk.starts. -/
def Domain.start (x : Domain) : Domain := { x with st := .starting, starts := satInc 16 x.starts }

/-- R409: an enable request. -/
def Domain.enable (x : Domain) : Domain :=
  match x.st with
  | .off => x.start
  | .starting => x
  | .on => x
  | .stopping => { x with restart := true }

/-- R409: a disable request. -/
def Domain.disable (x : Domain) : Domain :=
  match x.st with
  | .off => x
  | .starting => x
  | .on => { x with st := .stopping }
  | .stopping => { x with restart := false }

/-- R409: set or take away a user's demand; a rise of the domain's demand is an enable request, a fall a disable
request, and nothing else changes the state. -/
def Domain.request (x : Domain) (u : DomUser) (b : Bool) : Domain :=
  let y := x.setUser u b
  if !x.demand && y.demand then y.enable
  else if x.demand && !y.demand then y.disable
  else y

/-- R409: completion of STARTING. -/
def Domain.startDone (x : Domain) : Domain :=
  match x.st with
  | .starting => if x.demand then { x with st := .on } else { x with st := .stopping }
  | _ => x

/-- R409: completion of STOPPING. -/
def Domain.stopDone (x : Domain) : Domain :=
  match x.st with
  | .stopping => if x.restart then ({ x with restart := false } : Domain).start else { x with st := .off }
  | _ => x

/-- R404: the domains a PLL clocks. -/
def pllDoms (p : Pll) : List Nat :=
  match p with
  | .sys => [1, 3, 4, 6, 7, 8, 9, 10, 11, 12, 13, 14, 16]
  | .slv => [5]
  | .ser => [17]

/-- R408: a PLL that clocks no STARTING or ON domain stops, and so is not locked. -/
def pllStop (s : State) : State :=
  let runs (p : Pll) : Bool := (pllDoms p).any (fun d => (dom s d).st == .on || (dom s d).st == .starting)
  { s with pwr := { s.pwr with
      sysLock := s.pwr.sysLock && runs .sys,
      slvLock := s.pwr.slvLock && runs .slv,
      serLock := s.pwr.serLock && runs .ser } }

/-- R408, R410: a domain that completes its start has its PLL locked. -/
def pllStarted (d : Nat) (s : State) : State :=
  { s with pwr := { s.pwr with
      sysLock := s.pwr.sysLock || (pllDoms .sys).contains d,
      slvLock := s.pwr.slvLock || (pllDoms .slv).contains d,
      serLock := s.pwr.serLock || (pllDoms .ser).contains d } }

/-- A domain exists (R404). -/
def domOk (d : Nat) : Bool := decide (1 ≤ d) && decide (d ≤ 17)

/-- A domain is ON. -/
def domOn (s : State) (d : Nat) : Bool := (dom s d).st == .on

/-- R411: the domains that stay ON regardless: their work goes on. -/
def domStays (s : State) (d : Nat) : Bool :=
  let t := theTt s
  if d = 15 then hwStates s.dev.mode
  else if 7 ≤ d ∧ d ≤ 14 then
    (s.dev.mode == .run || s.dev.mode == .standby) && t.tasks.any (fun r => r.engine == d - 7 && r.kind == 1)
  else if d = 2 then
    t.lines.any (fun l => l.mode == 3) || (s.slk.thruOn && (List.range 8).any (fun p => u8 s.slk.thruRec p % 4 != 0))
  else if d = 1 then (List.range 16).any (fun i => (dom s (i + 2)).st != .off)
  else false

/-- Set or take away a user's demand for a domain. A domain that stays ON regardless keeps the demand of its work when the
last other demand falls (R411). -/
def domRequest (d : Nat) (u : DomUser) (b : Bool) (s : State) : State :=
  let x := dom s d
  let y := x.setUser u b
  let z := if !b && x.demand && !y.demand && domStays s d then { y with work := true } else x.request u b
  if domOk d then pllStop (setDom d z s) else s

/-- R411: a domain that stays ON regardless and has no demand yet gets that of its work, while the supplies are good.
DESIGN CHOICE (log entry 64): at the tick after it has become one. -/
def domKeep (s : State) : State :=
  if s.pwr.powerGood ∧ !s.pwr.rstLow then
    forN 17 s (fun k s => if domStays s (k + 1) && !(dom s (k + 1)).demand then domRequest (k + 1) .work true s else s)
  else s

/-- R412: the sub-ticks of `host_linger` and those that can have passed since the last host access to domain `d`. -/
def hostLingers (s : State) (d : Nat) : Bool :=
  decide (((s.pwr.tick + 2 ^ 48 - (dom s d).hostTick) % 2 ^ 48 + 1) * 1000 ≤ getFld s Reg.PWR_CTL 23 16 * 1024)

/-- R412: a host access to the domains `ds` is noted with its tick. -/
def hostTouch (ds : List Nat) (s : State) : State :=
  forL ds s (fun d s => setDom d { dom s d with hostTick := s.pwr.tick } s)

/-- R406: the sub-tick goes on inside a tick, by a free amount, up to `hi` (log entry 101). -/
def subPass (hi : Nat) (s : State) : State :=
  let x := (fresh s).2
  { x with pwr := { x.pwr with
      sub := s.pwr.sub + (Config.freeWord (fresh s).1).toNat % max 1 (hi + 1 - s.pwr.sub) } }

/-- R428: PWR_DOMk as read. -/
def domWord (x : Domain) : Word :=
  let st := match x.st with
    | .off => 0
    | .starting => 1
    | .on => 2
    | .stopping => 3
  BitVec.ofNat 32 (st + 4 * b2n x.restart + 8 * b2n x.demand + 16 * b2n x.forceOn + 2 ^ 16 * x.starts)

/-- R427: PWR_STAT as read. -/
def pwrStat (s : State) : Word :=
  let p := s.pwr
  BitVec.ofNat 32 (b2n p.xtalOk + 2 * b2n p.rcClock + 4 * b2n p.refOk + 8 * b2n p.sysLock + 16 * b2n p.slvLock +
    32 * b2n p.serLock + 64 * b2n p.pfwNow + 128 * b2n p.saving + 256 * b2n p.saved + 512 * b2n p.vbatOk)

/-- R403: the calendar seconds of a loss of the main supplies. -/
def powerLost (s : State) : State :=
  setReg Reg.PWR_CUT (BitVec.ofNat 32 s.mgt.cal.seconds)
    { s with pwr := { s.pwr with powerGood := false } }

/-- R425: book the energy of a tick, in µJ per group. -/
def bookEnergy (e : List Nat) (s : State) : State :=
  let g (i : Nat) : Nat := nth e i 0
  let add (xs : List Nat) (n : Nat) : List Nat := (List.range 10).map (fun i => (nth xs i 0 + g i) % 2 ^ n)
  { s with pwr := { s.pwr with
      eTot := add s.pwr.eTot 64, eHw := add s.pwr.eHw 64,
      eHyd := s.pwr.eHyd + g 0, eOpt := s.pwr.eOpt + g 0 } }

/-- R28, R429: a ledger headway ends: the headway's energies are shown and counting starts again. -/
def ledgerHeadway (s : State) : State :=
  let s1 := forN 10 s (fun g s => setReg (Reg.PWR_E_HWG + 4 * g) (BitVec.ofNat 32 (nth s.pwr.eHw g 0)) s)
  let s2 := setReg Reg.PWR_E_HW (BitVec.ofNat 32 (s.pwr.eHw.foldl (· + ·) 0)) s1
  { s2 with pwr := { s2.pwr with eHw := List.replicate 10 0, ledgerTick := 0 } }

/-! ### Meanings -/

/-- DOMAIN_ENABLE_REQUEST: a user's demand rises (R409). -/
def execDomainEnableRequest (d : Nat) (u : DomUser) (s : State) : Result := .next (domRequest d u true s)

/-- DOMAIN_DISABLE_REQUEST: a user's demand falls (R409). -/
def execDomainDisableRequest (d : Nat) (u : DomUser) (s : State) : Result := .next (domRequest d u false s)

/-- DOMAIN_START_DONE: a STARTING domain completes its start (R409). -/
def execDomainStartDone (d : Nat) (s : State) : Result :=
  if domOk d ∧ (dom s d).st = .starting then .next (pllStop (setDom d (dom s d).startDone (pllStarted d s)))
  else .next s

/-- DOMAIN_STOP_DONE: a STOPPING domain completes its stop (R409). -/
def execDomainStopDone (d : Nat) (s : State) : Result :=
  if domOk d ∧ (dom s d).st = .stopping then .next (pllStop (setDom d (dom s d).stopDone s)) else .next s

/-- DOMAIN_START_TIMEOUT: a domain not ON within 200 µs returns to OFF (R410). -/
def execDomainStartTimeout (d : Nat) (s : State) : Result :=
  if domOk d ∧ (dom s d).st = .starting then
    .next (cause Reg.PWR_CAUSE 5 (pllStop (setDom d { dom s d with st := .off } s)))
  else .next s

/-- HOST_LINGER_EXPIRE: host_linger has passed since the last host access (R412). -/
def execHostLingerExpire (d : Nat) (s : State) : Result :=
  .next (if hostLingers s d then s else domRequest d .host false s)

/-- XTAL_FAIL: the tick goes on from the RC oscillator; calendar time is not valid (R407). -/
def execXtalFail (s : State) : Result :=
  if s.pwr.rcClock then .next s
  else
    let s1 := { s with pwr := { s.pwr with xtalOk := false, rcClock := true } }
    let s2 := { s1 with mgt := { s1.mgt with cal := { s1.mgt.cal with valid := false } } }
    .next (cause Reg.PWR_CAUSE 2 s2)

/-- XTAL_RETURN: the tick returns to the crystal; calendar time stays as it is (R407). -/
def execXtalReturn (s : State) : Result :=
  if s.pwr.rcClock then .next { s with pwr := { s.pwr with xtalOk := true, rcClock := false } } else .next s

/-- REF_FAIL: the 25 MHz reference deviates (R408). -/
def execRefFail (s : State) : Result :=
  .next (cause Reg.PWR_CAUSE 3 { s with pwr := { s.pwr with refOk := false } })

/-- VBAT_LOW: VBAT falls below its range (R427). -/
def execVbatLow (s : State) : Result :=
  .next (cause Reg.PWR_CAUSE 6 { s with pwr := { s.pwr with vbatOk := false } })

/-- TICK_LO_READ: the read latches PWR_TICK_HI (R427). The value read is the tick count's low word. -/
def tickLoRead (s : State) : Word × State :=
  let s1 := subPass 31 s
  (BitVec.ofNat 32 s.pwr.tick,
   setReg Reg.PWR_TICK_HI (BitVec.ofNat 32 (s.pwr.tick / 2 ^ 32 % 2 ^ 16 + s1.pwr.sub % 32 * 2 ^ 16)) s1)

/-- E_TOT_LO_READ: the read latches PWR_E_TOTg_HI (R429). -/
def eTotLoRead (g : Nat) (s : State) : Word × State :=
  let e := nth s.pwr.eTot g 0
  (BitVec.ofNat 32 e, setReg (Reg.PWR_E_TOT_HI + 8 * g) (BitVec.ofNat 32 (e / 2 ^ 32)) s)

end Sys2Proof.Machine
end

