-- ==== Sys2Proof/Machine/Chn.lean ====
section
/-! DEFINITION. Field channels (chapter 10): conversions, digital inputs, pulse counters, waveform words, outputs. -/

namespace Sys2Proof.Machine

/-! ### Pairs: the gate, and how CI words travel -/

/-- R495: the loaded timetable makes this device a member of a pair. -/
def paired (s : State) : Bool := (theTt s).redundancy.mode == 1

/-- R495: the gate is open: disarmed, or ACT_OUT_N asserted and ACT_IN_N not. -/
def gateOpen (s : State) : Bool := !s.red.armed || (s.red.actOut && !s.red.actIn)

/-- R494: what a channel needs its own front end to drive: excitation, burden or wetting current. -/
def needsDrive (r : Channel) : Bool :=
  decide (2 ≤ r.mode ∧ r.mode ≤ 6) || (r.mode == 7 && bit r.range 2) || (r.mode == 8 && bit r.range 0)

/-- The word that the channel block itself last wrote at a CI index: in STANDBY the private view (R503), in a member of
a pair what waits for the next tick (R504), else the region. -/
def ciOwn (s : State) (i : Nat) : DWord :=
  if s.dev.mode = .standby then smGet (imgInit 2) s.red.priv i
  else
    match s.chn.ciNext.find? (fun p => p.1 == i) with
    | some p => p.2
    | none => imgGet s 2 i

/-- Write a CI word: at once in a single device, at the start of the next tick in a member of a pair (R504), into the
private view in STANDBY (R503). -/
def ciPut (i : Nat) (w : DWord) (s : State) : State :=
  if s.dev.mode = .standby then { s with red := { s.red with priv := smPut (imgInit 2) s.red.priv i w } }
  else if paired s then
    { s with chn := { s.chn with ciNext := s.chn.ciNext.filter (fun p => p.1 != i) ++ [(i, w)] } }
  else imgPut 2 i w s

/-- R504: publish at the start of a tick what the last tick wrote; the active member sends it in the tick's stream (R501), and in
STANDBY it goes into the private view (R503). -/
def ciPublish (s : State) : State :=
  let l := s.chn.ciNext
  let s1 := { s with chn := { s.chn with ciNext := [] } }
  if s.dev.mode = .standby then forL l s1 (fun p s => ciPut p.1 p.2 s)
  else
    let s2 := forL l s1 (fun p s => imgPut 2 p.1 p.2 s)
    if l.isEmpty then s2 else redStream (.ci l) s2

/-- R512: in the private view, the words of a channel whose front end is off are BAD. -/
def ciBlind (s : State) : State :=
  let dark (i : Nat) (s : State) : State := ciPut i (mkWord (wordVal (ciOwn s i)) .bad) s
  forL ((theTt s).channels.filter needsDrive) s (fun r s => dark (512 + r.channel) (dark r.channel s))

/-- Write a primary CI word; a change to BAD is counted and sets CHN_CAUSE.bad (R362). -/
def ciPrimary (c : Nat) (w : DWord) (s : State) : State :=
  let old := wordQ (ciOwn s c)
  let s1 := ciPut c w s
  if old ≠ .bad ∧ wordQ w = .bad then causeS Reg.CHN_CAUSE 0 c (incFld Reg.CHN_CNT 15 0 s1) else s1

/-- Write a primary word in the CI region itself, with the count of R362. -/
def ciImage (c : Nat) (w : DWord) (s : State) : State :=
  let old := wordQ (imgGet s 2 c)
  let s1 := imgPut 2 c w s
  if s.dev.tt.isSome ∧ old ≠ .bad ∧ wordQ w = .bad then causeS Reg.CHN_CAUSE 0 c (incFld Reg.CHN_CNT 15 0 s1) else s1

/-- Write a secondary CI word. -/
def ciSecondary (c : Nat) (w : DWord) (s : State) : State := ciPut (512 + c) w s

/-! ### Channel records and state -/

/-- The state of a channel. -/
def chanSt (s : State) (c : Nat) : ChanState := smGet (fun _ => ({} : ChanState)) s.chn.chans c

/-- Set the state of a channel. -/
def setChan (c : Nat) (x : ChanState) (s : State) : State :=
  { s with chn := { s.chn with chans := smPut (fun _ => ({} : ChanState)) s.chn.chans c x } }

/-- The mode of a channel in the placed timetable (0 without a record). -/
def chanMode (s : State) (c : Nat) : Nat :=
  match (theTt s).chan c with
  | some r => r.mode
  | none => 0

/-- Modes 16 to 20 drive their pins (R339). -/
def isOutMode (m : Nat) : Bool := decide (16 ≤ m ∧ m ≤ 20)

/-- R494, R512: the front end's currents are off, so the channel can measure nothing. -/
def blind (s : State) (r : Channel) : Bool := needsDrive r && !gateOpen s

/-- R494, R512: the front end of channel `c` is off. -/
def chanBlind (s : State) (c : Nat) : Bool :=
  match (theTt s).chan c with
  | some r => blind s r
  | none => false

/-! ### Scan (R343, R344) -/

/-- R339: scan slots of a mode. -/
def modeSlots (m : Nat) : Nat :=
  match m with
  | 1 => 1
  | 2 => 1
  | 3 => 1
  | 4 => 2
  | 5 => 1
  | 6 => 1
  | _ => 0

/-- R344: the scanned channels of a platform with their slots, in ascending order. -/
def scanList (t : Timetable) (p : Nat) : List (Nat × Nat) :=
  (List.range 16).filterMap (fun k =>
    match t.chan (16 * p + k) with
    | some r => if 0 < modeSlots r.mode then some (16 * p + k, modeSlots r.mode) else none
    | none => none)

/-- R344: S, the total number of slots of a platform. -/
def platformSlots (t : Timetable) (p : Nat) : Nat := (scanList t p).foldl (fun n x => n + x.2) 0

/-- R344: the channel that a platform converts next: none when the slots of the next one no longer fit into the running
second. -/
def scanNext (s : State) (p : Nat) : Option Nat :=
  match (scanList (theTt s) p)[nth s.chn.scanPos p 0]? with
  | some (c, k) =>
    if nth s.chn.scanUsed p 0 + k ≤ 2560 / max 1 ((theTt s).platform p).rateDiv then some c else none
  | none => none

/-- R344: the converter of a platform goes on to the next channel of its order. -/
def scanStep (p : Nat) (s : State) : State :=
  let l := scanList (theTt s) p
  let k := nth s.chn.scanPos p 0
  let slots := match l[k]? with
    | some x => x.2
    | none => 0
  { s with chn := { s.chn with
    scanPos := setNth s.chn.scanPos p (if k + 1 < l.length then k + 1 else 0)
    scanUsed := setNth s.chn.scanUsed p (nth s.chn.scanUsed p 0 + slots)
    convs := setNth s.chn.convs p (nth s.chn.convs p 0 + 1) } }

/-- R344, R494: the voltage at PFkk_EXC of platform `p`, in volts: continuous while the device is in READY, RUN, STANDBY or
SAFE and the gate lets the front end drive. -/
def excVoltage (s : State) (p : Nat) : Option Rat :=
  let pf := (theTt s).platform p
  if pf.excitation = 2 ∧ hwStates s.dev.mode ∧ gateOpen s then some ((pf.excLevel : Rat) / 1000) else none

/-- R344, R494: the excitation current through channel `c`, in microamperes: only during the channel's own slots. -/
def excCurrent (s : State) (c : Nat) : Option Rat :=
  let pf := (theTt s).platform (c / 16)
  let m := chanMode s c
  if pf.excitation = 1 ∧ 3 ≤ m ∧ m ≤ 6 ∧ scanNext s (c / 16) = some c ∧ gateOpen s then some (pf.excLevel : Rat) else none

/-- R344: the order of a platform starts afresh. -/
def scanRestart (p : Nat) (s : State) : State :=
  { s with chn := { s.chn with scanPos := setNth s.chn.scanPos p 0, scanUsed := setNth s.chn.scanUsed p 0 } }

/-- R344: conversions of channel `c` in a whole second of the scan: floor(N / S), and one more if it lies before the point
at which the last pass stops. -/
def scanRate (t : Timetable) (c : Nat) : Nat :=
  let p := c / 16
  let n := 2560 / max 1 (t.platform p).rateDiv
  let S := platformSlots t p
  if S = 0 then 0
  else
    -- the last pass stops at the first channel whose slots do not fit
    let last := (scanList t p).foldl (fun (acc : Nat × Bool × List Nat) x =>
      if acc.2.1 && decide (x.2 ≤ acc.1) then (acc.1 - x.2, true, acc.2.2 ++ [x.1]) else (acc.1, false, acc.2.2))
      (n % S, true, [])
    if (scanList t p).any (fun x => x.1 == c) then n / S + (if last.2.2.contains c then 1 else 0) else 0

/-! ### Conversions (R345 to R348) -/

/-- The reading of one conversion: value in the unit of the primary word, resistance for an RTD, in range or BAD. -/
structure Reading where
  val : Option Rat
  sec : Rat
  bad : Bool
  deriving DecidableEq, Repr

/-- Absolute value. -/
def rabs (x : Rat) : Rat := if x < 0 then -x else x

/-- R347: resistance from the converter's reading `v` (volts, or with reference 1 the ratio to the reference); without a
reference it is divided by the factory-calibrated excitation current (free, log entry 96). -/
def convRes (pf : Platform) (r : Channel) (v : Rat) : Rat :=
  if pf.reference = 1 then v * ((r.p1 : Rat) / 10) else v / Config.excCurrent (r.channel / 16) pf.excLevel

/-- R339, R346 to R348: judge one conversion. -/
def convRead (pf : Platform) (r : Channel) (v1 v2 : Rat) (full exc : Bool) : Reading :=
  let fails := full || exc
  if r.mode = 1 then
    let lim : Rat := if r.range = 0 then 5/2 else if r.range = 1 then 625/1000 else if r.range = 2 then 15625/100000
      else 390625/10000000
    ⟨some v1, 0, fails || decide (lim * 105 / 100 < rabs v1)⟩
  else if r.mode = 2 then
    let ma := v1 * 10
    let bad := if r.range = 1 then decide (ma < 36/10) || decide (21 < ma) else decide (252/10 < ma)
    ⟨some ma, 0, fails || bad⟩
  else if r.mode = 6 then
    let ohm := convRes pf r v1
    let top : Rat := if r.range = 0 then 400 else if r.range = 1 then 4000 else 40000
    ⟨some ohm, 0, fails || decide (top * 105 / 100 < ohm)⟩
  else
    let ohm := convRes pf r (if r.mode = 4 then v1 - v2 else v1)
    let sp := rtdSpan r.range
    let outside := decide (ohm < rtdLaw r.range sp.1) || decide (rtdLaw r.range sp.2 < ohm)
    ⟨if outside then none else some (rtdTemp r.range ohm), ohm, fails || outside⟩

/-- Mean of a nonempty list. -/
def ratMean (xs : List Rat) : Rat := xs.foldl (· + ·) 0 / (xs.length : Rat)

/-- The averaging count of R341 (0 selects 1). -/
def avgCount (r : Channel) : Nat := max 1 r.p0

/-- R345, R348: a good conversion joins the mean; both words are written GOOD. -/
def convGood (r : Channel) (x : Rat) (ohm : Rat) (s : State) : State :=
  let c := r.channel
  let st := chanSt s c
  let vals := (x :: st.vals).take (avgCount r)
  let secs := (ohm :: st.secs).take (avgCount r)
  let s1 := ciPrimary c (mkWord (f32OfRat (ratMean vals)) .good) (setChan c { st with vals := vals, secs := secs } s)
  if 3 ≤ r.mode ∧ r.mode ≤ 5 then ciSecondary c (mkWord (f32OfRat (ratMean secs)) .good) s1 else s1

/-- R345, R346, R348: a BAD conversion restarts the means; the primary word takes the hold value with SUBST when flags
bit 0 is set and else keeps its value with BAD; the secondary word of an RTD keeps its value with the same quality. A channel
whose front end is off is BAD in any case (R512). -/
def convBad (r : Channel) (s : State) : State :=
  let c := r.channel
  let st := chanSt s c
  let sub := bit r.flags 0 && !blind s r
  let q : Quality := if sub then .subst else .bad
  let v := if sub then r.hold else wordVal (ciOwn s c)
  let sec := wordVal (ciOwn s (512 + c))
  let s1 := ciPrimary c (mkWord v q) (setChan c { st with vals := [], secs := [] } s)
  if 3 ≤ r.mode ∧ r.mode ≤ 5 then ciSecondary c (mkWord sec q) s1 else s1

/-- R346: the excitation's report, with the cause when a fault appears. -/
def excReport (p : Nat) (exc : Bool) (s : State) : State :=
  let a := Reg.CHN_PF_STAT + 4 * p
  let s1 := setBit a 24 exc s
  if exc && !getBit s a 24 then causeS Reg.CHN_CAUSE 6 p s1 else s1

/-- CONVERSION_DONE (R345): the converter of channel `c` gives its code, its reading `v1` (in mode 4 the two slots `v1`
and `v2`), whether it reached full scale and whether the excitation reports a fault. Readings are in volts, or the ratio
to the reference on a platform with reference 1 (R347). Only the channel that the scan of its platform has reached is
converted (R344). -/
def execConversionDone (c code : Nat) (v1 v2 : Rat) (full exc : Bool) (s : State) : Result :=
  match (theTt s).chan c with
  | none => .next s
  | some r =>
    if !domOn s 15 ∨ modeSlots r.mode = 0 ∨ scanNext s (c / 16) ≠ some c then .next s
    else
      let pf := (theTt s).platform (c / 16)
      let rd := convRead pf r v1 v2 full exc
      let fr := fresh s
      let (cval, s0) := match rd.val with
        | some x => (f32OfRat x, s)
        | none => (Config.freeWord fr.1, fr.2)
      let s1 := excReport (c / 16) exc s0
      let s2 := scanStep (c / 16) s1
      let s3 := setChan c { chanSt s2 c with code := code % 2 ^ 24, last := cval } s2
      match rd.val, rd.bad || blind s r with
      | some x, false => .next (convGood r x rd.sec s3)
      | _, _ => .next (convBad r s3)

/-- R344, R362: at the tick that begins a second, each platform's conversion count becomes its rate, and its order starts
afresh. -/
def chnSecond (s : State) : State :=
  let s1 := forN 32 s (fun p s => setFld (Reg.CHN_PF_STAT + 4 * p) 11 0 (min 0xFFF (nth s.chn.convs p 0)) s)
  { s1 with chn := { s1.chn with
    convs := List.replicate 32 0, scanPos := List.replicate 32 0, scanUsed := List.replicate 32 0 } }

/-! ### Digital inputs (R351 to R353) -/

/-- Microseconds into the running tick as an instant in 1/16 µs (a tick is 15,625/16 µs). -/
def instant (s : State) (us : Nat) : Nat := s.pwr.tick * 15625 + 16 * us

/-- The value word of a level. -/
def levelWord (b : Bool) (q : Quality) : DWord := mkWord (if b then 0x3F800000#32 else 0#32) q

/-- R352: the accepted edges within the last p0 ms of an instant. -/
def edgesWithin (p0 now : Nat) (es : List Nat) : List Nat := es.filter (fun t => decide (now ≤ t + p0 * 16000))

/-- R351 to R353: an accepted edge to level `b` at an instant. -/
def digitalEdge (r : Channel) (b : Bool) (now : Nat) (s : State) : State :=
  let c := r.channel
  let st := chanSt s c
  let es := if r.p0 = 0 then [] else edgesWithin r.p0 now (st.edges ++ [now])
  let n := r.p1 % 256
  let enter := r.p0 != 0 && !st.chatter && decide (n < es.length)
  let st1 := { st with
    level := some b, edges := es, chatter := st.chatter || enter,
    stuck := st.stuck && b, highTick := if b then s.pwr.tick else st.highTick }
  let cnt := wordVal (ciOwn s (512 + c)) + 1
  let s1 := ciSecondary c (mkWord cnt .good) (setChan c st1 s)
  if st1.chatter then
    let s2 := ciPrimary c (mkWord (wordVal (ciOwn s c)) .bad) s1
    if enter then causeS Reg.CHN_CAUSE 2 c s2 else s2
  else ciPrimary c (levelWord b .good) s1

/-- ACCEPTED_EDGE (R351): channel `c`'s pin has held `level` (before inversion) for the debounce time, `us` into the
tick. The first accepted level is written GOOD and is no edge. -/
def execAcceptedEdge (c : Nat) (level : Bool) (us : Nat) (s : State) : Result :=
  match (theTt s).chan c with
  | none => .next s
  | some r =>
    if !domOn s 15 ∨ r.mode ≠ 7 ∨ blind s r then .next s
    else
      let b := level != bit r.p1 15
      let st := chanSt s c
      match st.level with
      | none =>
        .next (ciPrimary c (levelWord b .good)
          (setChan c { st with level := some b, highTick := s.pwr.tick } s))
      | some old => if old = b then .next s else .next (digitalEdge r b (instant s us) s)

/-- CHATTER_EXIT (R352): the edges of a chattering input within the last p0 ms number at most floor(N / 2). An input whose front
end is off stays BAD (R512). -/
def execChatterExit (c us : Nat) (s : State) : Result :=
  match (theTt s).chan c with
  | none => .next s
  | some r =>
    let st := chanSt s c
    let es := edgesWithin r.p0 (instant s us) st.edges
    if domOn s 15 ∧ r.mode = 7 ∧ st.chatter ∧ !blind s r ∧ es.length ≤ r.p1 % 256 / 2 then
      .next (ciPrimary c (levelWord (st.level.getD false) .good) (setChan c { st with chatter := false, edges := es } s))
    else .next s

/-- STUCK_TIMEOUT (R353): an accepted level of 1 for longer than the stuck time (0 disables). -/
def execStuckTimeout (c : Nat) (s : State) : Result :=
  match (theTt s).chan c with
  | none => .next s
  | some r =>
    let st := chanSt s c
    let h := bits r.p1 13 8
    if domOn s 15 ∧ r.mode = 7 ∧ h ≠ 0 ∧ st.level = some true ∧ !st.stuck ∧ h * 3600 * 1024 < s.pwr.tick - st.highTick then
      .next (causeS Reg.CHN_CAUSE 3 c (setChan c { st with stuck := true } s))
    else .next s

/-! ### Pulse counters (R354 to R358) -/

/-- Counter `n`. -/
def pcGet (s : State) (n : Nat) : PulseCtr := nth s.chn.pcs n {}

/-- Replace counter `n`. -/
def pcSet (n : Nat) (x : PulseCtr) (s : State) : State := { s with chn := { s.chn with pcs := setNth s.chn.pcs n x } }

/-- The counter of a channel. -/
def pcOfChan (s : State) (c : Nat) : Option Nat :=
  s.chn.pcs.findIdx? (fun x => x.configured && x.channel == c)

/-- The count of the counter of a channel (0 without one). -/
def pcCount (s : State) (c : Nat) : Nat :=
  match pcOfChan s c with
  | some n => (pcGet s n).count
  | none => 0

/-- R355: a recognised edge: counted when no window is open, and an overrate inside one. The overrate flag tells
metering. Without its wetting current a channel recognises none (R512). -/
def pulseEdge (n : Nat) (s : State) : State × Bool :=
  let x := pcGet s n
  if !x.configured || chanBlind s x.channel then (s, false)
  else if x.winOpen then
    let s1 := pcSet n { x with hwOver := true } s
    let s2 := setBit (Reg.CHN_PC_STAT + 0x10 * n) 16 true (incFld (Reg.CHN_PC_STAT + 0x10 * n) 15 0 s1)
    (causeS Reg.CHN_CAUSE 1 x.channel s2, true)
  else (pcSet n { x with winOpen := true, count := (x.count + 1) % 2 ^ 64, hwCount := x.hwCount + 1 } s, false)

/-- FILTER_WINDOW_END (R355): the filter window of counter `n` closes. -/
def execFilterWindowEnd (n : Nat) (s : State) : Result :=
  let x := pcGet s n
  if x.winOpen then .next (pcSet n { x with winOpen := false } s) else .next s

/-- R356: at every tick the count's low bits go to the secondary word of each counter's channel. -/
def pcTick (s : State) : State :=
  if s.dev.tt.isNone then s
  else forN 64 s (fun n s =>
    let x := pcGet s n
    if x.configured then
      ciSecondary x.channel (mkWord (BitVec.ofNat 32 x.count) (if chanBlind s x.channel then .bad else .good)) s
    else s)

/-- R356: at every headway start the rate of the previous headway, of the length that it had, goes to the primary word. The
first headway start has no headway before it: counting begins with it. -/
def pcHeadway (s : State) : State :=
  let h := s.dev.hwLen
  forN 64 s (fun n s =>
    let x := pcGet s n
    if x.configured then
      let s1 := pcSet n { x with hwCount := 0, hwOver := false } s
      if !s.dev.hwRunning ∨ h = 0 then s1
      else
        let rate := f32OfRat ((x.hwCount : Rat) * 1024 / (h : Rat))
        ciPrimary x.channel
          (mkWord rate (if chanBlind s x.channel then .bad else if x.hwOver then .subst else .good)) s1
    else s)

/-- PC_LO_READ (R357): a read of CHN_PCn_LO returns bits [31:0] and latches bits [63:32] in CHN_PCn_HI. -/
def pcLoRead (n : Nat) (s : State) : Word × State :=
  let k := (pcGet s n).count
  let s1 := setReg (Reg.CHN_PC_HI + 0x10 * n) (BitVec.ofNat 32 (k / 2 ^ 32))
    (setReg (Reg.CHN_PC_LO + 0x10 * n) (BitVec.ofNat 32 k) s)
  (BitVec.ofNat 32 k, s1)

/-- PC_LO_READ (R357). -/
def execPcLoRead (n : Nat) (s : State) : Result := if n < 64 then .next (pcLoRead n s).2 else .next s

/-- R358: assign counter `n` to a channel record, or to none: unchanged it keeps counting, else it is cleared. -/
def pcAssign (n : Nat) (r : Option Channel) (s : State) : State :=
  let x := pcGet s n
  let y : PulseCtr := match r with
    | some c => { configured := true, channel := c.channel, falling := bit c.p1 8, window := c.p0, stable := c.p1 % 256 }
    | none => {}
  if x.configured = y.configured ∧ x.channel = y.channel ∧ x.falling = y.falling ∧ x.window = y.window ∧
      x.stable = y.stable then s
  else
    let cfg := setField (setField (setField 0#32 8 0 y.channel) 12 12 (b2n y.configured)) 13 13 (b2n y.falling)
    causeS Reg.CHN_CAUSE 5 (if y.configured then y.channel else x.channel)
      (setReg (Reg.CHN_PC_CFG + 0x10 * n) cfg (setReg (Reg.CHN_PC_STAT + 0x10 * n) 0#32
        (pcSet n y { s with mtr := { s.mtr with saveRe := s.mtr.saveRe.filter (· != n) } })))

/-- The channel records in mode 8, in ascending channel order (R354). -/
def pulseChans (t : Timetable) : List Channel := sortBy (fun r => r.channel) (t.channels.filter (fun r => r.mode == 8))

/-- R354, R358: place the pulse configuration of a timetable. -/
def pcPlace (t : Timetable) (s : State) : State :=
  let cs := pulseChans t
  forN 64 s (fun n s => pcAssign n (cs[n]?) s)

/-! ### Placement (R351, R354) -/

/-- Values of changed channels that a member of a pair still holds back are dropped: what waits for the next tick, and a
standby's own values, whose words are then those of the process image. -/
def ciForget (changed : Nat → Bool) (s : State) : State :=
  let s1 := { s with chn := { s.chn with ciNext := s.chn.ciNext.filter (fun p => !changed (p.1 % 512)) } }
  forL ((List.range 1024).filter (fun i => changed (i % 512))) s1 (fun i s =>
    { s with red := { s.red with priv := smPut (imgInit 2) s.red.priv i (imgGet s 2 i) } })

/-- R340: modes 16 to 19: the CO word of the channel can have an owner. -/
def coOwned (r : Option Channel) : Bool :=
  match r with
  | some r => decide (16 ≤ r.mode ∧ r.mode ≤ 19)
  | none => false

/-- Bring the channel records of a timetable into force: every channel whose record is new or changed starts afresh, with
both CI words at zero and BAD (R351, R625); the CO word of an output that stays one is still written since the
entry into RUN (R359). `old` is the timetable in force before, if any. -/
def chnPlace (old : Option Timetable) (t : Timetable) (s : State) : State :=
  let was (c : Nat) : Option Channel := match old with
    | some o => o.chan c
    | none => none
  let s0 := forN 32 s (fun p s =>
    if old.isSome ∧ scanList (old.getD {}) p = scanList t p ∧ (old.getD {}).platform p = t.platform p then s
    else scanRestart p s)
  let s1 := forN 512 s0 (fun c s =>
    if was c = t.chan c ∧ old.isSome then s
    else setChan c (if coOwned (was c) ∧ coOwned (t.chan c) then
      { coWritten := (chanSt s c).coWritten, duty := (chanSt s c).duty } else {}) s)
  let s2 := forL t.channels s1 (fun r s =>
    if old.isSome ∧ was r.channel = some r then s
    else
      setFld (Reg.CHN_PF_STAT + 4 * (r.channel / 16)) 24 24 0
        (imgPut 2 (512 + r.channel) badWord (ciImage r.channel badWord s)))
  let s3 := match old with
    | some o => forL o.channels s2 (fun r s =>
        if (t.chan r.channel).isSome then s
        else imgPut 2 (512 + r.channel) badWord (imgPut 2 r.channel badWord s))
    | none => s2
  let s4 := forN 32 s3 (fun p s => setFld (Reg.CHN_PF_STAT + 4 * p) 20 16 (min 31 (platformSlots t p)) s)
  pcPlace t (ciForget (fun c => was c ≠ t.chan c) s4)

/-! ### Waveform channels (R349, R350) -/

/-- Mean of squares. -/
def meanSq (xs : List Rat) : Rat := ratMean (xs.map (fun x => x * x))

/-- Peak of the range of a waveform channel (R339). -/
def waveRange (s : State) (c : Nat) : Rat :=
  match (theTt s).chan c with
  | some r => if r.range = 0 then 1 else if r.range = 1 then 1/4 else 625/10000
  | none => 1

/-- R350: a sample of the window stands at ±100 % of the channel's range. -/
def waveFull (s : State) (w : WaveIn) : Bool := w.samples.any (fun x => decide (waveRange s w.chan ≤ rabs x))

/-- R350: RMS and mean of a window; a sample at full scale makes both BAD (the words keep their values). -/
def waveWords (w : WaveIn) (s : State) : State :=
  if chanMode s w.chan = 9 then
    if waveFull s w then
      ciSecondary w.chan (mkWord (wordVal (ciOwn s (512 + w.chan))) .bad)
        (ciPrimary w.chan (mkWord (wordVal (ciOwn s w.chan)) .bad) s)
    else
      ciSecondary w.chan (mkWord (f32OfRat (ratMean w.samples)) .good)
        (ciPrimary w.chan (mkWord (Config.roundSqrt (meanSq w.samples)) .good) s)
  else s

/-! ### Outputs (R359 to R361) -/

/-- The owned CO word of a channel is written (R289, R257): the first write since the entry into RUN ends the hold. -/
def coWrite (c : Nat) (w : DWord) (s : State) : State :=
  setChan c { chanSt s c with coWritten := true } (imgPut 3 c w s)

/-- R289, R255: write an owned word of the SO or CO region. -/
def outWrite (ref : Nat) (w : DWord) (s : State) : State :=
  match refSplit ref with
  | some (1, i) => imgPut 1 i w s
  | some (3, c) => coWrite c w s
  | _ => s

/-- R16: a copy-out to the SO region after t_out is late. -/
def outIsLate (s : State) (ref : Nat) : Bool := ref / 2 ^ 28 == 1 && s.dev.outFrozen

/-- R16: count a late copy-out. -/
def countLate (s : State) : State := incFld Reg.DEV_LATE 31 16 s

/-- At the entry into RUN no CO word counts as written (R359). -/
def chnEnterRun (s : State) : State :=
  forL (theTt s).channels s (fun r s =>
    if isOutMode r.mode then setChan r.channel { chanSt s r.channel with coWritten := false } s else s)

/-- R360: a non-finite value counts as BAD; a digital output is off for a NaN (the row of its mode speaks of it: DEDUCED, log
entry 100). -/
def coUsable (r : Channel) (v : Word) : Bool := f32IsFin v || (r.mode == 18 && f32IsNaN v)

/-- R359: the value that a channel is to drive, none when its pins are high impedance. -/
def chnTarget (s : State) (r : Channel) : Option Word :=
  if !isOutMode r.mode then none
  else
    match s.dev.mode with
    | .boot => none
    | .hold => none
    | .standby => none
    | .ready => if paired s then none else some r.hold
    | .safe => if gateOpen s then some r.hold else none
    | .run =>
      if !gateOpen s then none
      else
        let w := imgGet s 3 r.channel
        if (chanSt s r.channel).coWritten && wordQ w != .bad && coUsable r (wordVal w) then some (wordVal w)
        else some r.hold

/-- Clamp. -/
def rclamp (lo hi x : Rat) : Rat := max lo (min hi x)

/-- R360: the value that the pins take for a target: volts, mA, 0 or 1, or a duty. -/
def chnApplied (r : Channel) (v : Word) : Rat :=
  match r.mode with
  | 16 => rclamp 0 (4096/1000) (f32RatD v)
  | 17 => if r.range = 1 then rclamp 4 20 (f32RatD v) else rclamp 0 24 (f32RatD v)
  | 18 => if f32Lt 0x3F000000#32 v then 1 else 0
  | 19 => rclamp 0 1 (f32RatD v)
  | _ => if f32Lt 0x3F000000#32 v then 1 else 0

/-- R396: a test pulse of p1 ms is on the pin. -/
def pulseOn (s : State) (r : Channel) : Bool :=
  match (chanSt s r.channel).pulseTick with
  | some t => decide ((s.pwr.tick - t) * 1000 < r.p1 * 1024)
  | none => false

/-- The value driven at a channel's pins now (R359, R360, R396). -/
def chnDriven (s : State) (r : Channel) : Option Rat :=
  match chnTarget s r with
  | none => none
  | some v =>
    if r.mode = 19 ∧ s.dev.mode = .run then some (chanSt s r.channel).duty
    else if r.mode = 20 ∧ s.dev.mode = .run then some (if pulseOn s r then 1 else 0)
    else some (chnApplied r v)

/-- PWM_PERIOD_START (R360): a PWM output takes its new duty. -/
def execPwmPeriodStart (c : Nat) (s : State) : Result :=
  match (theTt s).chan c with
  | none => .next s
  | some r =>
    if !domOn s 15 ∨ r.mode ≠ 19 then .next s
    else
      match chnTarget s r with
      | some v => .next (setChan c { chanSt s c with duty := chnApplied r v } s)
      | none => .next s

/-- The range of an output, for R361's 1 %. -/
def outRange (r : Channel) : Rat :=
  match r.mode with
  | 16 => 4096/1000
  | 17 => if r.range = 1 then 16 else 24
  | _ => 1

/-- R361: the readback of one output at a tick. The fault ends at the first readback within 1 % of range of the driven
value. -/
def chnReadback (x : Readback) (s : State) : State :=
  match (theTt s).chan x.chan with
  | none => s
  | some r =>
    if !isOutMode r.mode then s
    else
      let st := chanSt s x.chan
      let near := match chnDriven s r with
        | some d => decide (rabs (x.val - d) ≤ outRange r / 100)
        | none => false
      -- R517: in STANDBY no readback tests a driver
      let fault := if s.dev.mode = .standby then st.outFault else x.fault || (st.outFault && !near)
      let v := f32OfRat (if r.mode = 18 ∨ r.mode = 20 then (if 1/2 < x.val then 1 else 0) else x.val)
      let s1 := ciPrimary x.chan (mkWord v (if fault then .bad else .good)) (setChan x.chan { st with outFault := fault } s)
      if fault && !st.outFault then causeS Reg.CHN_CAUSE 4 x.chan (incFld Reg.CHN_CNT 31 16 s1) else s1

/-! ### Views of the registers (R362, R363) -/

/-- CHN_STAT. -/
def chnStat (s : State) : Word :=
  let n := (s.chn.pcs.filter (fun x => x.configured)).length
  let drive := s.dev.mode == .run && gateOpen s
  let hold := (s.dev.mode == .ready && !paired s) || (s.dev.mode == .safe && gateOpen s)
  let disabled := s.dev.mode == .standby || (hwStates s.dev.mode && !drive && !hold)
  setField (setField (setField (setField 0#32 6 0 n) 8 8 (b2n drive)) 9 9 (b2n hold)) 10 10 (b2n disabled)

/-- CHN_BADk: bit b, the primary word of channel 32k + b is BAD; zero while no timetable is placed. -/
def chnBadWord (s : State) (k : Nat) : Word :=
  if s.dev.tt.isNone then 0#32
  else forN 32 0#32 (fun b w => if wordQ (imgGet s 2 (32 * k + b)) = .bad then w ||| bitMask b else w)

/-- CHN_SNAP_BAD's count: channels with a BAD primary word. -/
def chnBadCount (s : State) : Nat :=
  ((List.range 512).filter (fun c => decide (wordQ (imgGet s 2 c) = .bad))).length

/-- CHN_CINFO of the selected channel. -/
def chnInfo (s : State) : Word :=
  let c := getFld s Reg.CHN_SEL 8 0
  let st := chanSt s c
  let r := ((theTt s).chan c).getD {}
  let hwOver := match pcOfChan s c with
    | some n => (pcGet s n).hwOver
    | none => false
  let q := wordQ (imgGet s 2 c)
  let w := setField (setField (setField 0#32 7 0 r.mode) 11 8 r.range) 13 12 (qCode q)
  let w := setField (setField (setField w 16 16 (b2n hwOver)) 17 17 (b2n st.chatter)) 18 18 (b2n st.stuck)
  setField (setField w 19 19 (b2n st.outFault)) 20 20
    (b2n (q == .subst && decide (1 ≤ r.mode ∧ r.mode ≤ 6)))

/-- CHN_SEL_WRITE (R363): a write to CHN_SEL selects the channel shown by the detail registers. -/
def chnSelect (data : Word) (s : State) : State := setFld Reg.CHN_SEL 8 0 (field data 8 0) s

end Sys2Proof.Machine
end

