-- ==== Sys2Proof/Machine/Journal.lean ====
section
/-! DEFINITION. The journal writer (R443 to R446, R451) and its recovery at boot (R449, R450, R452). The verify
outcome of a copy is the read-back that the commands JOURNAL_COPY_A_WRITTEN and JOURNAL_COPY_B_WRITTEN carry. -/

namespace Sys2Proof.Machine

/-- NV offset of copy A of pair `k` (R443). -/
def segA (k : Nat) : Nat := 0x02800000 + k * 0x100000
/-- NV offset of copy B of pair `k` (R443). -/
def segB (k : Nat) : Nat := 0x03000000 + k * 0x100000

/-- The bytes of a record (R444), padded to a multiple of 8. -/
def jnlBytes (kind inst seq : Nat) (payload : List Byte) : List Byte :=
  let body := [0x44#8, 0x4A#8] ++ leBytes 1 kind ++ leBytes 1 inst ++ leBytes 4 payload.length ++ leBytes 8 seq ++
    payload
  let r := body ++ wordBytes (crc32c body)
  r ++ List.replicate ((8 - r.length % 8) % 8) 0#8

/-- A segment header (R443). -/
def jnlHeader (pair segSeq firstSeq : Nat) : List Byte :=
  let body := [0x44#8, 0x4A#8, 0x53#8, 0x47#8] ++ leBytes 1 pair ++ List.replicate 3 0#8 ++ leBytes 8 segSeq ++
    leBytes 8 firstSeq ++ List.replicate 36 0#8
  body ++ wordBytes (crc32c body)

/-- R435: no granule of these bytes was unreadable when the boot read the die. -/
def nvReadable (s : State) (a n : Nat) : Bool := !s.mem.faults.ecc.any (fun g => decide (a / 8 ≤ g / 8 ∧ g / 8 ≤ (a + n - 1) / 8))

/-- The head pair. -/
def jnlHead (j : JnlState) : Nat := j.pairs.getLastD 0

/-- The first pair after `k` in the ring that is not in use. -/
def jnlNextFree (j : JnlState) (k : Nat) : Nat :=
  (((List.range 8).map (fun i => (k + 1 + i) % 8)).find? (fun p => !j.pairs.contains p)).getD ((k + 1) % 8)

/-- The live records of the oldest pair, by kind and instance in order of their numbers (R451; never a seal). -/
def jnlOldLive (j : JnlState) (oldest : Nat) : List (Nat × Nat) :=
  (sortBy (fun l => l.seq) (j.live.filter (fun l => l.pair == oldest && l.kind != 8))).map
    (fun l => (l.kind, l.inst))

/-- R451 steps 2 and 3: open the next free pair, and list what is to be written again. -/
def jnlOpen (s : State) : State :=
  let j := s.jnl
  let k := jnlNextFree j (jnlHead j)
  let h := jnlHeader k (j.segSeq + 1) (j.seq + 1)
  let s1 := nvWrite (segB k) h (nvWrite (segA k) h s)
  let pairs := j.pairs ++ [k]
  let start := !j.compacting && !s.pwr.saving && !s.pwr.saved
  { s1 with jnl := { j with
      pairs := pairs, off := 64, segSeq := j.segSeq + 1,
      compacting := j.compacting || start,
      compact := if start then jnlOldLive j (pairs.headD 0) else j.compact } }

/-- R444: the payload length of a pad record that fills `room` bytes, when one fits. -/
def padLen (room : Nat) : Option Nat := if 24 ≤ room then some (room - 20) else none

/-- R447 kind 0x04: a done mark names the number under which its commit record was last written. -/
def jnlPayload (s : State) (r : JReq) : List Byte :=
  if r.kind = 4 then
    match s.jnl.live.find? (fun l => l.kind == 3) with
    | some l => leBytes 8 l.seq
    | none => r.payload
  else r.payload

/-- Give a record its place: the next free position, or past a pad record at the start of the next pair (R444). -/
def jnlPlace (r : JReq) (retries : Nat) (s : State) : State :=
  let r := { r with payload := jnlPayload s r }
  let bs := jnlBytes r.kind r.inst (s.jnl.seq + 1) r.payload
  let s1 :=
    if s.jnl.off + bs.length ≤ 0x100000 then s
    else
      let k := jnlHead s.jnl
      let sp :=
        match padLen (0x100000 - s.jnl.off) with
        | some n =>
          let p := jnlBytes 0xF 0 (s.jnl.seq + 1) (List.replicate n 0#8)
          nvWrite (segB k + s.jnl.off) p (nvWrite (segA k + s.jnl.off) p s)
        | none => s
      jnlOpen sp
  let j := s1.jnl
  { s1 with jnl := { j with
      off := j.off + bs.length,
      cur := some { req := r, pair := jnlHead j, off := j.off, bytes := bs, durable := false, retries := retries } } }

/-- R449, R452 step 6: perform the rewrites that are due. -/
def jnlRepair (s : State) : State :=
  let s1 := forL s.jnl.rewrites s (fun w s => nvWrite w.1 w.2 s)
  { s1 with jnl := { s1.jnl with rewrites := [] } }

/-- R451: a pair that is still to be compacted stays in use and is compacted later: compaction goes on while a pair beside the
head is in use. -/
def jnlCompactOn (s : State) : State :=
  let more := decide (2 ≤ s.jnl.pairs.length)
  { s with jnl := { s.jnl with
      compacting := more
      compact := if more then jnlOldLive s.jnl (s.jnl.pairs.headD 0) else [] } }

/-- R451 step 4: free the oldest pair by zeroing its two magics. -/
def jnlFreeOldest (s : State) : State :=
  let k := s.jnl.pairs.headD 0
  if s.jnl.pairs.length < 2 then jnlCompactOn s
  else
    let z := List.replicate 4 0#8
    let s2 := nvWrite (segB k) z (nvWrite (segA k) z s)
    jnlCompactOn (incFld Reg.JNL_CNT2 15 0 { s2 with jnl := { s2.jnl with pairs := s2.jnl.pairs.tail } })

/-- The next request of compaction, or the freeing of the oldest pair (R451); `fuel` bounds the skipped records. -/
def jnlCompactNext : Nat → State → State
  | 0, s => s
  | fuel + 1, s =>
    match s.jnl.compact with
    | [] => jnlFreeOldest s
    | (k, i) :: rest =>
      let s1 := { s with jnl := { s.jnl with compact := rest } }
      match s.jnl.live.find? (fun l => l.kind == k && l.inst == i && l.pair == s.jnl.pairs.headD 0) with
      | some l => jnlPlace { kind := k, inst := i, payload := l.payload, owner := .compaction } 0 s1
      | none => jnlCompactNext fuel s1

/-- Begin the next record when none is in progress (R445): a waiting request first, compaction only when none waits, or when
one pair alone is left free (R451); while a save runs, only the save's own records (R445, R451), and after its seal none (R423). -/
def jnlKick (s : State) : State :=
  if s.jnl.pairs = [] then s
  else
    match s.jnl.cur with
    | some _ => s
    | none =>
      if s.pwr.saving ∨ s.pwr.saved then
        match s.jnl.queue with
        | r :: rest =>
          if r.owner = .save then jnlPlace r 0 { (jnlRepair s) with jnl := { (jnlRepair s).jnl with queue := rest } }
          else s
        | [] => s
      else if s.jnl.compacting ∧ 7 ≤ s.jnl.pairs.length then jnlCompactNext 600 s
      else
        match s.jnl.queue with
        | r :: rest => jnlPlace r 0 { (jnlRepair s) with jnl := { (jnlRepair s).jnl with queue := rest } }
        | [] => if s.jnl.compacting then jnlCompactNext 600 s else s

/-- Ask for a record; a record of the power-fail save goes ahead of every waiting request (R445). -/
def jnlRequest (r : JReq) (s : State) : State :=
  let q := if r.owner = .save then r :: s.jnl.queue else s.jnl.queue ++ [r]
  jnlKick { s with jnl := { s.jnl with queue := q } }

/-- What becomes of the live records when a record is durable (R447). -/
def jnlLive (l : List JLive) (kind inst seq pair : Nat) (payload : List Byte) : List JLive :=
  let rest := l.filter (fun x => !(x.kind == kind && x.inst == inst))
  if kind = 4 then l.filter (fun x => x.kind != 3)
  else if kind = 0xF then l
  else rest ++ [{ kind := kind, inst := inst, seq := seq, pair := pair, payload := payload }]

/-- The payload of the latest live record of a kind and instance. -/
def jnlLatest (s : State) (kind inst : Nat) : Option (List Byte) :=
  (s.jnl.live.find? (fun l => l.kind == kind && l.inst == inst)).map (·.payload)

/-- Copy A has been written and read back (R445, R446). The second component says whose record is durable or failed. -/
def jnlCopyA (readback : Option (List Byte)) (s : State) : State × Option (JOwner × Bool) :=
  match s.jnl.cur with
  | none => (s, none)
  | some c =>
    if c.durable then (s, none)
    else
      let got := fit 0#8 c.bytes.length (readback.getD c.bytes)
      let s1 := nvWrite (segA c.pair + c.off) got s
      if got = c.bytes then
        let q := s1.jnl.seq + 1
        ({ s1 with jnl := { s1.jnl with
            seq := q, cur := some { c with durable := true, retries := 0 },
            live := jnlLive s1.jnl.live c.req.kind c.req.inst q c.pair c.req.payload } },
         some (c.req.owner, true))
      else
        let s2 := { s1 with jnl := { s1.jnl with cur := none } }
        if c.retries < 2 then
          (jnlPlace c.req (c.retries + 1) (incFld Reg.JNL_CNT2 31 16 s2), none)
        else (jnlKick (cause Reg.JNL_CAUSE 3 s2), some (c.req.owner, false))

/-- Copy B has been written and read back (R446). -/
def jnlCopyB (readback : Option (List Byte)) (s : State) : State :=
  match s.jnl.cur with
  | none => s
  | some c =>
    if !c.durable then s
    else
      let got := fit 0#8 c.bytes.length (readback.getD c.bytes)
      let s1 := nvWrite (segB c.pair + c.off) got s
      if got = c.bytes then jnlKick { s1 with jnl := { s1.jnl with cur := none } }
      else if c.retries < 2 then
        incFld Reg.JNL_CNT2 31 16
          { s1 with jnl := { s1.jnl with cur := some { c with retries := c.retries + 1 } } }
      else
        let s2 := cause Reg.JNL_CAUSE 1 { s1 with jnl := { s1.jnl with cur := none } }
        jnlKick { s2 with jnl := { s2.jnl with rewrites := s2.jnl.rewrites ++ [(segB c.pair + c.off, c.bytes)] } }

/-- Write a record whole, both copies verified, as the boot sequence does (R524, R76; log entry 12). A record of compaction in
progress is completed first (R445), and compaction goes on after it (R451). -/
def jnlWriteNow (kind inst : Nat) (payload : List Byte) (s : State) : State :=
  let whole (s : State) : State := jnlCopyB none (jnlCopyA none s).1
  let s1 := whole { s with jnl := { s.jnl with compacting := false } }
  let s2 := whole (jnlPlace { kind := kind, inst := inst, payload := payload } 0 (jnlRepair s1))
  if s.jnl.compacting then jnlKick (jnlCompactOn s2) else s2

/-! ### Recovery (R449, R450, R452) -/

/-- A record read at an offset of a segment. -/
structure JRead where
  kind : Nat
  inst : Nat
  seq : Nat
  payload : List Byte
  total : Nat
  deriving DecidableEq, Repr

/-- R447: the record kinds. -/
def jnlKind (k : Nat) : Bool := decide (1 ≤ k ∧ k ≤ 0xB) || k == 0xF

/-- Read one copy at NV offset `base + off`; none when its CRC does not hold, its kind is none of R447, or a granule of it is
unreadable (R435). -/
def jnlRead (s : State) (base off : Nat) : Option JRead :=
  if 0x100000 < off + 24 then none
  else
    let h := nvRead s (base + off) 16
    let n := u32 h 4
    if u16 h 0 ≠ 0x4A44 ∨ !jnlKind (u8 h 2) ∨ 0x100000 < off + 20 + n then none
    else
      let body := h ++ nvRead s (base + off + 16) n
      if leNat (nvRead s (base + off + 16 + n) 4) = (crc32c body).toNat ∧ nvReadable s (base + off) (20 + n) then
        some { kind := u8 h 2, inst := u8 h 3, seq := u64 h 8, payload := body.drop 16, total := (20 + n + 7) / 8 * 8 }
      else none

/-- The step past a position whose copies are both invalid: by the length field of copy A where the die reads it and it stays
in the segment, or else of copy B. -/
def jnlStepLen (s : State) (k off : Nat) : Option Nat :=
  let step (base : Nat) : Option Nat :=
    let t := (20 + leNat (nvRead s (base + off + 4) 4) + 7) / 8 * 8
    if off + 16 ≤ 0x100000 ∧ nvReadable s (base + off) 8 ∧ off + t ≤ 0x100000 then some t else none
  (step (segA k)).orElse (fun _ => step (segB k))

/-- The copies at a position that carry the number `q`. -/
def jnlAt (s : State) (k off q : Nat) : Option JRead × Option JRead :=
  let ok (r : Option JRead) : Option JRead := r.filter (fun x => x.seq == q)
  (ok (jnlRead s (segA k) off), ok (jnlRead s (segB k) off))

/-- R450 case 4: past further positions of the kind, is there a record of number `q` or a pad record? -/
def jnlAhead (s : State) (k q : Nat) : Nat → Nat → Bool
  | 0, _ => false
  | fuel + 1, off =>
    let p := jnlAt s k off q
    if p.1.isSome || p.2.isSome then true
    else
      match jnlStepLen s k off with
      | some t => jnlAhead s k q fuel (off + t)
      | none => false

/-- What the scan carries along. -/
structure JScan where
  off : Nat := 64
  /-- the number expected next -/
  expect : Nat := 0
  live : List JLive := []
  /-- the live records before the one accepted last, which a second write of its number supersedes -/
  before : List JLive := []
  last : Option JRead := none
  any : Bool := false
  torn : Nat := 0
  integ : Nat := 0
  rewrites : List (Nat × List Byte) := []
  ended : Bool := false
  padded : Bool := false
  deriving DecidableEq, Repr

/-- R449: judge two copies of one position and note the rewrite that is due. -/
def jnlJudge (s : State) (k off : Nat) (a b : Option JRead) (sc : JScan) : JScan × Option JRead :=
  match a, b with
  | some x, some y =>
    if x = y then (sc, some x)
    else ({ sc with integ := sc.integ + 1, rewrites := sc.rewrites ++ [(segB k + off, nvRead s (segA k + off) x.total)] }, some x)
  | some x, none =>
    ({ sc with torn := sc.torn + 1, rewrites := sc.rewrites ++ [(segB k + off, nvRead s (segA k + off) x.total)] }, some x)
  | none, some y =>
    ({ sc with torn := sc.torn + 1, rewrites := sc.rewrites ++ [(segA k + off, nvRead s (segB k + off) y.total)] }, some y)
  | none, none => (sc, none)

/-- R450: scan pair `k` from the scan's offset; `fuel` bounds the number of positions. -/
def jnlScan (s : State) (k : Nat) : Nat → JScan → JScan
  | 0, sc => sc
  | fuel + 1, sc =>
    let p := jnlAt s k sc.off sc.expect
    if p.1.isSome || p.2.isSome then
      let (sc1, r) := jnlJudge s k sc.off p.1 p.2 sc
      match r with
      | none => sc1
      | some x =>
        if x.kind = 0xF then { sc1 with ended := true, padded := true }
        else
          jnlScan s k fuel { sc1 with
            off := sc.off + x.total, expect := sc.expect + 1, last := some x, any := true,
            before := sc1.live, live := jnlLive sc1.live x.kind x.inst x.seq k x.payload }
    else
      let p2 := if sc.any then jnlAt s k sc.off (sc.expect - 1) else (none, none)
      if p2.1.isSome || p2.2.isSome then
        let (sc1, r) := jnlJudge s k sc.off p2.1 p2.2 sc
        match r with
        | none => sc1
        | some x =>
          jnlScan s k fuel { sc1 with
            off := sc.off + x.total, last := some x, live := jnlLive sc1.before x.kind x.inst x.seq k x.payload }
      else
        match jnlStepLen s k sc.off with
        | some t =>
          if jnlAhead s k sc.expect 43691 (sc.off + t) then jnlScan s k fuel { sc with off := sc.off + t }
          else { sc with ended := true }
        | none => { sc with ended := true }

/-- A valid segment header at an offset: pair, seg_seq, first_seq. -/
def jnlSegHeader (s : State) (base : Nat) : Option (Nat × Nat × Nat) :=
  let h := nvRead s base 64
  if slice h 0 4 = [0x44#8, 0x4A#8, 0x53#8, 0x47#8] ∧ u32 h 0x3C = (crc32c (h.take 0x3C)).toNat ∧ nvReadable s base 64 then
    some (u8 h 4, u64 h 8, u64 h 0x10)
  else none

/-- R452 step 1: the pairs in use by seg_seq: pair, seg_seq, first_seq. -/
def jnlInUse (s : State) : List (Nat × Nat × Nat) :=
  sortBy (fun u => u.2.1) ((List.range 8).filterMap (fun k =>
    ((jnlSegHeader s (segA k)).orElse (fun _ => jnlSegHeader s (segB k))).map (fun h => (k, h.2.1, h.2.2))))

/-- R452 steps 1, 2 and 6, and R450's loss of a pair's end: the journal as the boot finds it. An empty journal gets
pair 0. The causes are set as R449 and R450 say. -/
def jnlRecover (s : State) : State :=
  match jnlInUse s with
  | [] =>
    let h := jnlHeader 0 1 1
    let s1 := nvWrite (segB 0) h (nvWrite (segA 0) h s)
    { s1 with jnl := { pairs := [0], segSeq := 1 } }
  | us =>
    -- the scan, how many pairs have ended under case 5, and how many of them before a later pair that holds records
    let r := us.foldl (fun (acc : JScan × Nat × Nat) u =>
      let sc := jnlScan s u.1 131072 { acc.1 with off := 64, expect := u.2.2, any := false, ended := false, padded := false }
      let cut := sc.ended && !sc.padded && decide (sc.off + 24 ≤ 0x100000)
      (sc, acc.2.1 + b2n cut, if sc.any then acc.2.1 else acc.2.2)) (({ } : JScan), 0, 0)
    let sc := r.1
    let lastPair := us.getLastD (0, 0, 0)
    let s1 := { s with jnl := {
      pairs := us.map (fun (u : Nat × Nat × Nat) => u.1), off := sc.off, segSeq := lastPair.2.1, seq := sc.expect - 1,
      live := sc.live, rewrites := sc.rewrites } }
    let s2 := { s1 with jnl := { s1.jnl with
      sealed := match sc.last with
        | some x => x.kind == 8
        | none => false
      sealTx := match sc.last with
        | some x => if x.kind = 8 then some (u8 x.payload 9, u32 x.payload 12) else none
        | none => none } }
    let s3 := addFld Reg.JNL_CNT 15 0 sc.torn (addFld Reg.JNL_CNT 31 16 sc.integ s2)
    let s4 := forN sc.torn s3 (fun _ s => cause Reg.JNL_CAUSE 1 s)
    let s5 := forN sc.integ s4 (fun _ s => cause Reg.JNL_CAUSE 0 s)
    let s6 := forN r.2.2 s5 (fun _ s => cause Reg.JNL_CAUSE 2 s)
    jnlCompactOn (jnlRepair { s6 with jnl := { s6.jnl with live := s6.jnl.live.filter (fun l => l.kind != 8) } })

end Sys2Proof.Machine
end

