-- ==== Sys2Proof/Machine/Mtr.lean ====
section
/-! DEFINITION. Metering (chapter 11): thermal and electrical meters, intervals, tariffs, totals, the metrological log
and the test pulses. Meter index m is k for TMk and 64 + k for EMk (R366). -/

namespace Sys2Proof.Machine

/-! ### Meters -/

/-- The meter index of a Meters.meter code (R366). -/
def meterIx (code : Nat) : Nat := if code < 0x80 then code else code - 0x80 + 64

/-- The Meters record of a meter index. -/
def meterRec (t : Timetable) (m : Nat) : Option Meter := t.meter (if m < 64 then m else m - 64 + 0x80)

/-- The state of meter `m`. -/
def meterGet (s : State) (m : Nat) : MeterSt := smGet (fun _ => ({} : MeterSt)) s.mtr.meters m

/-- Set the state of meter `m`. -/
def meterSet (m : Nat) (x : MeterSt) (s : State) : State :=
  { s with mtr := { s.mtr with meters := smPut (fun _ => ({} : MeterSt)) s.mtr.meters m x } }

/-- Change the state of meter `m`. -/
def meterUpd (m : Nat) (f : MeterSt → MeterSt) (s : State) : State := meterSet m (f (meterGet s m)) s

/-- Do something for each meter of the placed timetable, in index order. -/
def forMeters (f : Nat → Meter → State → State) (s : State) : State :=
  forN 72 s (fun m s =>
    match meterRec (theTt s) m with
    | some r => f m r s
    | none => s)

/-- R381: the peak rate of meter `m` since the last totals save. -/
def peakGet (s : State) (m : Nat) : Rat := smGet (fun _ => (0 : Rat)) s.mtr.peaks m

/-- Two maps of peaks in one, the larger value of each meter. -/
def peakMerge (a b : List (Nat × Rat)) : List (Nat × Rat) :=
  a.foldl (fun m p => smUpd (fun _ => (0 : Rat)) m p.1 (max p.2)) b

/-- R387: the peak rate of meter `m` since the latest durable totals record: a capture on its way does not count. -/
def peakSince (s : State) (m : Nat) : Rat := max (peakGet s m) (smGet (fun _ => (0 : Rat)) s.mtr.savePeaks m)

/-- Set that peak. -/
def peakSet (m : Nat) (x : Rat) (s : State) : State :=
  { s with mtr := { s.mtr with peaks := smPut (fun _ => (0 : Rat)) s.mtr.peaks m x, aoKept := true } }

/-! ### The metrological log (R392 to R394) -/

/-- Records used. -/
def logUsed (s : State) : Nat := getFld s Reg.MTR_LOG 16 0

/-- R394: full for every change of metrological parameters. -/
def logFull (s : State) : Bool := decide (65280 ≤ logUsed s)

/-- NV offset of record k. -/
def logPos (k : Nat) : Nat := 0x04800000 + 32 * k

/-- Write a log record (R392, R394): one that finds no place is counted and goes to the event recorder. A standby writes none: its
log is the mirror of the active member's (R505). -/
def mtrLog (kind meter detail : Nat) (data : List Byte) (s : State) : State :=
  let k := logUsed s
  if s.dev.mode = .standby then s
  else if 65536 ≤ k ∨ (65280 ≤ k ∧ kind ≠ 5 ∧ kind ≠ 6) then
    causeD Reg.MTR_CAUSE 5 meter (BitVec.ofNat 32 kind) (BitVec.ofNat 32 (u32 data 0)) (incFld Reg.MTR_CNT2 15 0 s)
  else
    let sec := if s.mgt.cal.valid then s.mgt.cal.seconds else 0
    let body := leBytes 4 k ++ leBytes 4 sec ++ leBytes 1 kind ++ leBytes 1 meter ++ leBytes 2 detail ++ fit 0#8 16 data
    let rec_ := body ++ wordBytes (crc32c body)
    let s1 := redStream (.record (logPos k) rec_) (nvWrite (logPos k) rec_ s)
    let s2 := setReg Reg.MTR_LOG_LAST (BitVec.ofNat 32 sec) (setFld Reg.MTR_LOG 16 0 (k + 1) s1)
    if k + 1 = 64512 then cause Reg.MTR_CAUSE 4 s2 else s2

/-- R392: find the end of the log at boot, counting torn records; `fuel` bounds the search. -/
def logScan (s : State) : Nat → Nat → Nat → Nat × Nat × Nat
  | 0, k, torn => (k, torn, 0)
  | fuel + 1, k, torn =>
    let r := nvRead s (logPos k) 32
    if r.all (· == 0xFF#8) then (k, torn, 0)
    else
      let bad := decide (u32 r 0x1C ≠ (crc32c (r.take 0x1C)).toNat) || !nvReadable s (logPos k) 32
      logScan s fuel (k + 1) (torn + b2n bad)

/-- R392: the log as the boot finds it. -/
def mtrLogBoot (s : State) : State :=
  let (k, torn, _) := logScan s 65536 0 0
  let last := if k = 0 then 0 else u32 (nvRead s (logPos (k - 1)) 32) 4
  let s1 := setReg Reg.MTR_LOG_LAST (BitVec.ofNat 32 last) (setFld Reg.MTR_LOG 31 24 (min 255 torn) (setFld Reg.MTR_LOG 16 0 k s))
  if 64512 ≤ k then cause Reg.MTR_CAUSE 4 s1 else s1

/-! ### Local time and tariffs (R378, R395, R398) -/

/-- Seconds since 2000-01-01 in local time; below 0 before it. -/
def localSeconds (s : State) : Int :=
  let ofs : Int := (BitVec.ofNat 16 (getFld s Reg.MTR_DAYOFS 15 0)).toInt
  (s.mgt.cal.seconds : Int) + ofs * 60

/-- The billing day: days since 2000-01-01 in local time. DESIGN CHOICE (log entry 105): a local time before 2000-01-01,
which no day number of the archive can name, belongs to day 0. -/
def localDay (s : State) : Nat := (localSeconds s / 86400).toNat

/-- A register of a tariff table's weekday. -/
def tariffWord (s : State) (table day k : Nat) : Word := smGet (fun _ => 0#32) s.mtr.tariff ((table * 7 + day) * 3 + k)

/-- R378: rate - 1 of a table at this instant (rate 1 while calendar time is not valid). -/
def tariffRate (s : State) (table : Nat) : Nat :=
  if !s.mgt.cal.valid then 0
  else
    let sec := localSeconds s
    let wd := ((sec / 86400 + 5) % 7).toNat
    let slot := (sec % 86400 / 1800).toNat
    field (tariffWord s table wd (slot / 16)) (2 * (slot % 16) + 1) (2 * (slot % 16))

/-- The 84 bytes of a table (R393 kind 3). -/
def tariffBytes (s : State) (table : Nat) : List Byte :=
  (List.range 21).flatMap (fun k => wordBytes (smGet (fun _ => 0#32) s.mtr.tariff (table * 21 + k)))

/-- R398: show the selected table and weekday. -/
def tariffSelect (data : Word) (s : State) : State :=
  let t := field data 2 0
  let d := field data 6 4
  let s1 := setFld Reg.MTR_TAR_SEL 6 4 d (setFld Reg.MTR_TAR_SEL 2 0 t s)
  forN 3 s1 (fun k s => setReg (Reg.MTR_TAR_D + 4 * k) (tariffWord s t d k) s)

/-- R395: the three data registers of the selected weekday take effect, with their log record of kind 3. A full log
refuses the change. -/
def tariffApply (d2 : Word) (s : State) : State :=
  if logFull s then cause Reg.MTR_CAUSE 5 s
  else
    let t := getFld s Reg.MTR_TAR_SEL 2 0
    let d := getFld s Reg.MTR_TAR_SEL 6 4
    let s1 := setReg (Reg.MTR_TAR_D + 8) d2 s
    let ws := (List.range 3).map (fun k => getReg s1 (Reg.MTR_TAR_D + 4 * k))
    let s2 := { s1 with mtr := { s1.mtr with tariff := smPutList (fun _ => 0#32) s1.mtr.tariff ((t * 7 + d) * 3) ws } }
    mtrLog 3 0xFF t (wordBytes (crc32c (tariffBytes s2 t))) s2

/-- R395: the day offset takes effect, with its log record of kind 4. -/
def dayofsApply (data : Word) (s : State) : State :=
  if logFull s then cause Reg.MTR_CAUSE 5 s
  else
    let old := getFld s Reg.MTR_DAYOFS 15 0
    let new := field data 15 0
    mtrLog 4 0xFF 0 (leBytes 2 old ++ leBytes 2 new) (setFld Reg.MTR_DAYOFS 15 0 new s)

/-! ### Registers of a meter (R373, R377) -/

/-- Add a quantity in register units; the fraction stays in the residue. Answers the whole units added. -/
def addQty (i : Nat) (x : Rat) (m : MeterSt) : MeterSt × Nat :=
  let t := nth m.res i 0 + x
  let n := t.floor.toNat
  ({ m with regs := setNth m.regs i ((nth m.regs i 0 + n) % 2 ^ 64), res := setNth m.res i (t - n) }, n)

/-- Set flags of the open interval. -/
def ivlFlag (bits_ : Nat) (m : MeterSt) : MeterSt :=
  { m with ivlFlags := m.ivlFlags ||| bits_, dayFlags := if bits_ &&& 1 ≠ 0 then m.dayFlags ||| 4 else m.dayFlags }

/-- R374, R377: a sample or window that is not accumulated: error time in ms, flags, cause. -/
def ivlError (m ms flags : Nat) (s : State) : State :=
  causeS Reg.MTR_CAUSE 2 m
    (meterUpd m (fun x => { ivlFlag (1 + flags) x with
      ivlErr := min (2 ^ 32 - 1) (x.ivlErr + ms), dayErr := x.dayErr + ms }) s)

/-- The channels in mode 20 that emit the test pulses of meter `m` (R396). -/
def testPulseChans (t : Timetable) (m : Nat) : List Channel := t.channels.filter (fun r => r.mode == 20 && meterIx r.p0 == m)

/-- R396: `k` more pulses for a channel: above 65,535 they are dropped. -/
def testPulseQueue (m k : Nat) (r : Channel) (s : State) : State :=
  let x := chanSt s r.channel
  let s1 := setChan r.channel { x with tpQueue := min 65535 (x.tpQueue + k) } s
  if 65535 < x.tpQueue + k then causeS Reg.MTR_CAUSE 6 m s1 else s1

/-- R396: test pulses for `n` Wh just added: in RUN every channel in mode 20 of the meter queues them. -/
def testPulseAdd (m n : Nat) (r : Meter) (s : State) : State :=
  if !bit r.flags 1 then s
  else
    let w := max 1 (getFld s (Reg.MTR_TPW + 4 * m) 19 0)
    let total := (meterGet s m).tpWh + n
    let s1 := meterUpd m (fun x => { x with tpWh := total % w }) s
    if s.dev.mode = .run then forL (testPulseChans (theTt s) m) s1 (testPulseQueue m (total / w)) else s1

/-- R396: leaving RUN clears every queue. -/
def testPulseClear (s : State) : State :=
  let none_ (m : List (Nat × ChanState)) (p : Nat × ChanState) : List (Nat × ChanState) :=
    smPut (fun _ => ({} : ChanState)) m p.1 { p.2 with tpQueue := 0 }
  { s with chn := { s.chn with chans := List.foldl none_ [] s.chn.chans } }

/-- R381: close a rate block if it holds all of its samples: the mean of |power| may raise the peaks. -/
def blockEnd (m need : Nat) (s : State) : State :=
  let x := meterGet s m
  if x.block.length = need then
    let p := ratMean x.block
    let s1 := meterSet m { x with block := [], ivlPeak := max x.ivlPeak p, dayPeak := max x.dayPeak p } s
    peakSet m (max (peakGet s1 m) p) s1
  else meterSet m { x with block := [] } s

/-! ### Intervals (R379, R380) -/

/-- The length in seconds of an interval code (R52). -/
def ivlSeconds (code : Nat) : Nat :=
  match code with
  | 0 => 60
  | 1 => 300
  | 2 => 900
  | _ => 3600

/-- R380: the record of the open interval of meter `m`. -/
def ivlRecord (m code : Nat) (x : MeterSt) : List Byte :=
  let f := x.ivlFlags ||| (if x.ivlCounted then 0 else 32)
  let f := if f &&& 0b101010110 ≠ 0 then f ||| 1 else f
  let d (i : Nat) : List Byte := leBytes 4 ((nth x.regs i 0 + 2 ^ 64 - nth x.ivlBase i 0) % 2 ^ 32)
  let body := leBytes 4 x.ivlStart ++ leBytes 1 m ++ leBytes 1 code ++ leBytes 2 f ++ leBytes 4 x.ivlErr ++
    wordBytes (f32OfRat x.ivlPeak) ++ (List.range 10).flatMap d ++ leBytes 4 (min (2 ^ 32 - 1) x.ivlOver)
  body ++ wordBytes (crc32c body)

/-- Open an interval of a meter that starts at `start` with the given flags. -/
def ivlOpen (start flags : Nat) (x : MeterSt) : MeterSt :=
  { x with ivlStart := start, ivlBase := x.regs, ivlFlags := flags, ivlErr := 0, ivlPeak := 0, ivlOver := 0,
           ivlCounted := false }

/-- R379, R380: close the open interval of meter `m` with more flags, and open the next. While calendar time is not valid no
interval closes.
Flags that make the interval suspect make its day hold a suspect interval (R390). -/
def ivlClose (m code flags start newFlags : Nat) (s : State) : State :=
  let x := meterGet s m
  if !x.configured || !s.mgt.cal.valid then s
  else
    let x := { x with
      ivlFlags := x.ivlFlags ||| flags
      dayFlags := if flags &&& 0b101010111 ≠ 0 then x.dayFlags ||| 4 else x.dayFlags }
    let r := ivlRecord m code x
    let s1 := meterSet m (ivlOpen start newFlags { x with ring := (r :: x.ring).take 96 }) s
    if bit (u16 r 6) 0 then causeS Reg.MTR_CAUSE 0 m (incFld Reg.MTR_CNT 15 0 s1) else s1

/-- Calendar seconds, or 0 while calendar time is not valid. -/
def calSeconds (s : State) : Nat := if s.mgt.cal.valid then s.mgt.cal.seconds else 0

/-- The partial flag of an interval that opens now: set off a boundary (R379). -/
def partialNow (s : State) (code : Nat) : Nat :=
  if s.mgt.cal.valid && s.mgt.cal.seconds % ivlSeconds code == 0 && decide (s.mgt.cal.frac < 64) then 0 else 8

/-- R379: close the interval of meter `m` if its calendar boundary has come. -/
def ivlDue (m : Nat) (r : Meter) (s : State) : State :=
  let x := meterGet s m
  let L := ivlSeconds r.interval
  if s.mgt.cal.valid ∧ x.configured ∧ (x.ivlStart / L + 1) * L ≤ s.mgt.cal.seconds then
    ivlClose m r.interval 0 (s.mgt.cal.seconds / L * L) 0 s
  else s

/-- INTERVAL_CLOSE (R379): meter `m`'s calendar boundary. -/
def execIntervalClose (m : Nat) (s : State) : Result :=
  match meterRec (theTt s) m with
  | some r => if domOn s 16 ∧ hwStates s.dev.mode then .next (ivlDue m r s) else .next s
  | none => .next s

/-- Close every open interval early (R379): partial, with more flags. -/
def ivlCloseAll (flags : Nat) (s : State) : State :=
  forMeters (fun m r s => ivlClose m r.interval (8 + flags) (calSeconds s) (partialNow s r.interval) s) s

/-- R379, R393 kind 6: calendar time has stepped by more than 1 s, or has become valid. -/
def mtrCalStep (became : Bool) (old : Nat) (s : State) : State :=
  let s1 := mtrLog 6 0xFF 0 (leBytes 4 old ++ leBytes 4 s.mgt.cal.seconds) s
  if hwStates s.dev.mode then ivlCloseAll (if became then 64 + 1 else 64) s1 else s1

/-! ### Thermal meters (R370 to R374, R383) -/

/-- A value word as a rational with its quality; a value that is not finite counts as BAD. -/
def wordRat (w : DWord) : Rat × Quality :=
  if f32IsFin (wordVal w) then (f32RatD (wordVal w), wordQ w) else (0, .bad)

/-- An input of a meter: a channel's primary word, or an image word for source 1. In READY no trains run, and station
values are held as STALE (R23). -/
def meterInput (s : State) (source x : Nat) : Rat × Quality :=
  if source = 0 then wordRat (imgGet s 2 (x % 65536))
  else
    match refGet s x with
    | some w =>
      let v := wordRat w
      if s.dev.mode = .ready ∧ x / 2 ^ 28 = 0 ∧ v.2 = .good then (v.1, .stale) else v
    | none => (0, .bad)

/-- What a thermal sample sees: pulses, litres per pulse, signed flow for source 1, direction, quality. -/
structure FlowIn where
  n : Nat
  rev : Bool
  q : Rat
  vol : Rat
  qual : Quality
  deriving DecidableEq, Repr

/-- R371: the flow of a sample, and the meter with its pulse bookkeeping done. -/
def thermalFlow (s : State) (r : Meter) (x : MeterSt) : FlowIn × MeterSt :=
  if r.source = 1 then
    let f := meterInput s 1 r.inA
    ({ n := 0, rev := decide (f.1 < 0), q := rabs f.1, vol := rabs f.1 * (1/4) / (36/10), qual := f.2 }, x)
  else
    let fc := r.inA % 65536
    let dc := r.inA / 65536
    let own := pcCount s fc
    let ci := (wordVal (imgGet s 2 (512 + fc))).toNat
    let n : Nat := if s.dev.mode = .standby then (ci + 2 ^ 32 - x.lastCi) % 2 ^ 32
      else (own + 2 ^ 64 - x.lastCount) % 2 ^ 64
    let w := f32RatD r.scaleA
    let dt : Rat := ((s.pwr.tick - x.tLast : Nat) : Rat) / 1024
    let q := if dt = 0 then x.q
      else if 0 < n then 36/10 * w * n / dt else min x.q (36/10 * w / dt)
    let dir := imgGet s 2 dc
    let rev := dc != 0xFFFF && f32Lt 0x3F000000#32 (wordVal dir)
    let fq := (wordQ (imgGet s 2 fc))
    ({ n := n, rev := rev, q := q, vol := n * w, qual := if dc = 0xFFFF then fq else qMax fq (wordQ dir) },
     { x with lastCount := own, lastCi := ci, q := q, tLast := if 0 < n then s.pwr.tick else x.tLast })

/-- R383: floor(register ÷ d) mod 2³² as a GOOD word. -/
def totalWord (reg d : Nat) : DWord := mkWord (BitVec.ofNat 32 (reg / d)) .good

/-- R383: the image words of a thermal meter. The spec gives the status word (word 11) no quality: the model writes it GOOD,
as the totals (DESIGN CHOICE, log entry 97). -/
def thermalWords (m : Nat) (p q ts tr : Rat × Quality) (dT : Rat) (s : State) : State :=
  let x := meterGet s m
  let put (k : Nat) (w : DWord) (s : State) : State := imgPut 5 (32 * m + k) w s
  let val (v : Rat × Quality) : DWord := mkWord (f32OfRat v.1) v.2
  let st := b2n x.noLoad + 2 * b2n x.reverse + 4 * (x.ivlFlags % 2) + 16 * x.rate
  put 11 (mkWord (BitVec.ofNat 32 st) .good) <| put 10 (totalWord (nth x.regs 5 0) 1000) <|
  put 9 (totalWord (nth x.regs 4 0) 1000) <| put 8 (totalWord (nth x.regs 1 0) 1000000) <|
  put 7 (totalWord (nth x.regs 0 0) 1000000) <| put 6 (totalWord (nth x.regs 3 0) 1000) <|
  put 5 (totalWord (nth x.regs 2 0) 1000) <| put 4 (val (dT, qMax ts.2 tr.2)) <|
  put 3 (val tr) <| put 2 (val ts) <| put 1 (val q) <| put 0 (val p) s

/-- R372 to R374: add a counted sample's volume (m³) and, when the temperatures are GOOD, its energy. -/
def thermalAdd (m : Nat) (r : Meter) (rev : Bool) (volMl e : Rat) (dT : Rat) (tempOk : Bool) (s : State) : State :=
  let d := b2n rev
  let rate := tariffRate s r.tariff
  let x := { meterGet s m with noLoad := false, reverse := rev, rate := rate, ivlCounted := true }
  let x := if rev then ivlFlag 128 x else x
  let x := (addQty d volMl x).1
  if !tempOk then meterSet m x s
  else if r.cls = 2 then
    if 0 < dT then
      let (x, n) := addQty (2 + d) e x
      let x := if rev then x else (addQty (6 + rate) e x).1
      let s1 := meterSet m x s
      if rev then s1 else testPulseAdd m n r s1
    else if dT < 0 then meterSet m (addQty (4 + d) (rabs e) x).1 s
    else meterSet m x s
  else if 0 < dT then
    let (x, n) := addQty (2 + d) e x
    let x := if rev then x else (addQty (6 + rate) e x).1
    let s1 := meterSet m x s
    if rev then s1 else testPulseAdd m n r s1
  else meterSet m x s

/-- R370 to R374: one sample of thermal meter `m`. -/
def thermalOne (m : Nat) (r : Meter) (s : State) : State :=
  if r.cls = 3 then s
  else
    let s := ivlDue m r s
    let (f, x) := thermalFlow s r (meterGet s m)
    let s := meterSet m { x with rate := tariffRate s r.tariff } s
    let ts := meterInput s r.source r.inB
    let tr := meterInput s r.source r.inC
    let tempOk := decide (ts.2 = .good ∧ tr.2 = .good)
    let fluid := r.scaleB % 256
    let tv := if bit r.scaleB 8 then tr.1 else ts.1
    let rho := fluidAt 0 fluid tv
    let cbar := (fluidAt 1 fluid ts.1 + fluidAt 1 fluid tr.1) / 2
    let dT := if r.cls = 1 then tr.1 - ts.1 else ts.1 - tr.1
    let qs := if f.rev then -f.q else f.q
    let power := rho * cbar * dT * qs / 3600000
    let e := f.vol / 1000 * rho * cbar * dT / 3600
    let counts := decide (f32RatD r.threshold ≤ f.q)
    let s1 :=
      if f.qual ≠ .good then ivlError m 250 4 s
      else
        let s1 := if counts then thermalAdd m r f.rev (f.vol * 1000) e dT tempOk s
          else meterUpd m (fun x => { x with noLoad := true }) s
        if tempOk then s1 else ivlError m 250 (4 + (if counts then 256 else 0)) s1
    let p := if f.qual = .good ∧ counts ∧ tempOk then rabs power else 0
    let s2 := meterUpd m (fun x => { x with block := x.block ++ [p] }) s1
    let s3 := if s.pwr.tick % 4096 = 0 then blockEnd m 16 s2 else s2
    thermalWords m (power, qMax f.qual (qMax ts.2 tr.2)) (qs, f.qual) ts tr dT s3

/-! ### Totals (R384 to R388) -/

/-- R385: the block of meter `m`. -/
def totalsBlock (s : State) (m : Nat) : List Byte :=
  let x := meterGet s m
  let cnt := match x.flow with
    | some c => pcCount s c
    | none => 0
  x.regs.flatMap (leBytes 8) ++ x.res.flatMap (fun q => wordBytes (f32OfRat q)) ++
    wordBytes (f32OfRat (peakSince s m)) ++ leBytes 4 (x.cls % 4 + 128 * b2n x.configured) ++ leBytes 8 cnt ++
    leBytes 4 (if x.configured then x.paramCrc else 0) ++ leBytes 4 0

/-- R385: the payload of a totals record of a kind, captured now. -/
def totalsPayload (kind seq : Nat) (s : State) : List Byte :=
  leBytes 8 seq ++ leBytes 4 (stamp s).1 ++ leBytes 2 (stamp s).2 ++ leBytes 1 kind ++ leBytes 17 0 ++
    (List.range 72).flatMap (totalsBlock s)

/-- Capture all totals (R384): the payload, and the state in which the peaks start anew. -/
def totalsCapture (kind : Nat) (s : State) : List Byte × State :=
  let p := totalsPayload kind (s.mtr.saveSeq + 1) s
  (p, { s with mtr := { s.mtr with
    saveSeq := s.mtr.saveSeq + 1
    saving := some (s.mtr.saveSeq + 1)
    savePeaks := peakMerge s.mtr.peaks s.mtr.savePeaks
    peaks := []
    saveRe := (List.range 64).filter (fun n => (pcGet s n).reassigned) } })

/-- The totals record has become durable, or has failed (R384, MTR_CAUSE.save_fail). -/
def totalsDone (ok : Bool) (s : State) : State :=
  match s.mtr.saving with
  | none => s
  | some q =>
    let s1 := { s with mtr := { s.mtr with
      saving := none
      savePeaks := []
      saveRe := [] } }
    if ok then
      setReg Reg.MTR_SAVESEQ (BitVec.ofNat 32 q)
        (forL s.mtr.saveRe s1 (fun n s => pcSet n { pcGet s n with reassigned := false } s))
    else cause Reg.MTR_CAUSE 7 { s1 with mtr := { s1.mtr with peaks := peakMerge s.mtr.savePeaks s.mtr.peaks } }

/-- Ask for a totals record of a kind (R384); a standby writes none of its own (R505). -/
def totalsRequest (kind : Nat) (owner : JOwner) (s : State) : State :=
  if s.dev.mode = .standby then { s with mtr := { s.mtr with saveDue := none } }
  else
    let (p, s1) := totalsCapture kind { s with mtr := { s.mtr with saveDue := none } }
    jnlRequest { kind := 5, inst := 0, payload := p, owner := owner } s1

/-- R384: the save before a change of state to BOOT or HOLD by a command, written whole before the change. -/
def totalsNow (s : State) : State :=
  if !s.mtr.started ∨ s.dev.mode = .standby then s
  else
    let (p, s1) := totalsCapture 1 s
    let s2 := totalsDone true (jnlWriteNow 5 0 p s1)
    { s2 with mtr := { s2.mtr with cleanSave := true } }

/-- R384: a save by command: captured at the next sample boundary; at once in HOLD, where no samples are taken and the meters
keep what they had. Before metering has started since the boot there is nothing to save. -/
def totalsCommand (s : State) : State :=
  if s.dev.mode = .hold ∧ s.mtr.started then totalsRequest 1 .totals s
  else { s with mtr := { s.mtr with saveDue := some 1 } }

/-- TOTALS_SAVE (R384): a totals record is captured at the next sample boundary. -/
def execTotalsSave (s : State) : Result := .next (totalsCommand s)

/-- TOTALS_SAVE_PERIODIC (R384): MTR_SAVE.period seconds have passed since the last periodic save. -/
def execTotalsSavePeriodic (s : State) : Result :=
  if hwStates s.dev.mode ∧ getFld s Reg.MTR_SAVE 11 0 * 1024 ≤ s.pwr.tick - s.mtr.saveTick then
    .next { s with mtr := { s.mtr with saveTick := s.pwr.tick, saveDue := some (s.mtr.saveDue.getD 0) } }
  else .next s

/-- A save that is due is taken at a sample boundary; during a power-fail save, which writes the totals itself, it
waits. -/
def totalsBoundary (s : State) : State :=
  match (if s.pwr.saving then none else s.mtr.saveDue) with
  | some k => totalsRequest k .totals s
  | none => s

/-- THERMAL_SAMPLE (R370): every tick whose count is a multiple of 256 since the second's start, once; in STANDBY from the copied CI
words of the tick's streams, unless the member aligns (R502, R506, R507). -/
def execThermalSample (s : State) : Result :=
  if domOn s 16 ∧ hwStates s.dev.mode ∧ (s.dev.mode ≠ .standby ∨ computes s) ∧ s.pwr.tick % 256 = 0 ∧ s.mtr.sampleTick ≠ some s.pwr.tick then
    let s1 := forMeters thermalOne { s with mtr := { s.mtr with sampleTick := some s.pwr.tick } }
    .next (totalsBoundary s1)
  else .next s

/-! ### Electrical meters (R375 to R377) -/

/-- The samples of a waveform channel in a window, none when it is missing or BAD. -/
def waveOf (s : State) (ws : List WaveIn) (c : Nat) : Option (List Rat) :=
  match ws.find? (fun w => w.chan == c) with
  | some w => if waveFull s w ∨ chanMode s c ≠ 9 then none else some w.samples
  | none => none

/-- The three phases' samples from a first channel, times a ratio: primary volts or amperes (R375). -/
def wave3 (s : State) (ws : List WaveIn) (c : Nat) (k : Rat) : List (Option (List Rat)) :=
  (List.range 3).map (fun j => (waveOf s ws (c + j)).map (fun l => l.map (fun x => x * k)))

/-- R376: the rising zero crossings of a window, in samples from its first, each between two samples by linear
interpolation. DESIGN CHOICE (log entry 14): the spec names the zero crossings and not how they are read. -/
def risingZeros (i : Nat) : List Rat → List Rat
  | a :: b :: rest =>
    if a < 0 ∧ 0 ≤ b then ((i : Rat) + (-a) / (b - a)) :: risingZeros (i + 1) (b :: rest) else risingZeros (i + 1) (b :: rest)
  | _ => []

/-- R376: the frequency of the 8,000 samples a second of R349, over the whole cycles between the first and the last rising
zero crossing; none of fewer than two. -/
def zeroFreq (l : List Rat) : Option Rat :=
  let z := risingZeros 0 l
  if z.length < 2 then none else some (8000 * (z.length - 1 : Nat) / (z.getLastD 0 - z.headD 0))

/-- The value of a window at a place between its samples, by linear interpolation. -/
def sampleAt (l : List Rat) (x : Rat) : Rat :=
  let i := x.floor.toNat
  nth l i 0 + (x - (i : Rat)) * (nth l (i + 1) 0 - nth l i 0)

/-- R376: the single-bin DFT at `f`: the largest whole number of cycles of `f`, 128 points each, that end at the window's
last sample; the means of the points times the cosine and times the negative sine, half the peak phasor. -/
def phasorAt (f : Rat) (l : List Rat) : Rat × Rat :=
  let last : Rat := ((l.length - 1 : Nat) : Rat)
  let step : Rat := 8000 / (128 * f)
  let n := 128 * ((last / step + 1) / 128).floor.toNat
  let pts := (List.range n).map (fun j => (sampleAt l (last - ((n - 1 - j : Nat) : Rat) * step), ((j : Nat) : Rat) / 128))
  (ratMean (pts.map (fun p => p.1 * Config.sinTurns (p.2 + 1/4))), -ratMean (pts.map (fun p => p.1 * Config.sinTurns p.2)))

/-- R376: the fundamental frequency, from the first voltage that is not below 10 % of range (`lim` its square); none when
a voltage that it needs is BAD, when no phase reaches 10 %, or outside 45 Hz to 65 Hz. -/
def elecFreq (vs : List (Option (List Rat))) (lim : List Rat) : Option Rat :=
  let stops (k : Nat) : Bool := match nth vs k none with
    | some l => decide (nth lim k 0 ≤ meanSq l)
    | none => true
  match (List.range 3).find? stops with
  | none => none
  | some k =>
    match nth vs k none with
    | none => none
    | some l =>
      match zeroFreq l with
      | some f => if 45 ≤ f ∧ f ≤ 65 then some f else none
      | none => none

/-- What a window of six good channels measures (R375, R376): the active power in W, the squares of the RMS currents, and
the fundamental powers P1 and Q1, none when they are BAD. -/
structure ElecIn where
  p : Rat
  i2 : List Rat
  fund : Option (Rat × Rat)
  deriving DecidableEq, Repr

/-- R375, R376. `vs`, `is` are the samples in primary volts and amperes, `f` the frequency. The product of two RMS phasors is
twice that of two half-peak phasors. -/
def elecMeasure (vs is : List (List Rat)) (f : Option Rat) : ElecIn :=
  { p := (List.zipWith (fun v i => ratMean (List.zipWith (· * ·) v i)) vs is).foldl (· + ·) 0
    i2 := is.map meanSq
    fund := f.map (fun f =>
      let ph := List.zipWith (fun v i => (phasorAt f v, phasorAt f i)) vs is
      ((ph.map (fun x => 2 * (x.1.1 * x.2.1 + x.1.2 * x.2.2))).foldl (· + ·) 0,
       (ph.map (fun x => 2 * (x.1.2 * x.2.1 - x.1.1 * x.2.2))).foldl (· + ·) 0)) }

/-- A window in which all six channels are good. -/
def elecWhole (vs is : List (Option (List Rat))) (f : Option Rat) : Option ElecIn :=
  if (vs ++ is).all (fun l => l.isSome) then some (elecMeasure (vs.filterMap id) (is.filterMap id) f) else none

/-- R377: add a signed quantity to the register of its direction. -/
def addSigned (i : Nat) (x : Rat) (m : MeterSt) : MeterSt × Nat :=
  if 0 < x then addQty i x m else if x < 0 then ((addQty (i + 1) (rabs x) m).1, 0) else (m, 0)

/-- R383, R9: the image words of an electrical meter. Each instantaneous word is GOOD when the channels it is computed from
are, and keeps its value with BAD otherwise; the spec gives the status word no quality, and the model writes it GOOD (DESIGN
CHOICE, log entry 97). -/
def elecWords (m : Nat) (vs is : List (Option (List Rat))) (f : Option Rat) (e : Option ElecIn) (s : State) : State :=
  let x := meterGet s m
  let put (k : Nat) (w : DWord) (s : State) : State := imgPut 5 (32 * m + k) w s
  let val (k : Nat) (w : Option Word) : DWord := match w with
    | some w => mkWord w .good
    | none => mkWord (wordVal (imgGet s 5 (32 * m + k))) .bad
  let rms (l : List (Option (List Rat))) (k : Nat) : Option Word := (nth l k none).map (fun l => Config.roundSqrt (meanSq l))
  let fund := e.bind (fun e => e.fund)
  let st := b2n x.noLoad + 2 * b2n x.reverse + 4 * (x.ivlFlags % 2) + 16 * x.rate
  let s1 := forN 3 s (fun k s => put (2 + k) (val (2 + k) (rms vs k)) s)
  let s2 := forN 3 s1 (fun k s => put (5 + k) (val (5 + k) (rms is k)) s)
  let s3 := forN 6 s2 (fun k s => put (12 + k) (totalWord (nth x.regs k 0) 1000) s)
  put 11 (mkWord (BitVec.ofNat 32 st) .good) <| put 10 (val 10 (fund.map (fun d => Config.powerFactor d.1 d.2))) <|
  put 9 (val 9 (fund.map (fun d => f32OfRat (d.2 / 1000)))) <| put 8 (val 8 (fund.map (fun d => f32OfRat (d.1 / 1000)))) <|
  put 1 (val 1 (f.map f32OfRat)) <| put 0 (val 0 (e.map (fun e => f32OfRat (e.p / 1000)))) s3

/-- R377: a window of six good channels is booked. -/
def elecBook (m : Nat) (r : Meter) (e : ElecIn) (s : State) : State :=
  let rate := tariffRate s r.tariff
  let thr := f32RatD r.threshold
  let idle := e.i2.all (fun q => decide (q < thr ^ 2))
  let wh := e.p / 5 / 3600
  let s1 :=
    if idle then meterUpd m (fun x => { x with noLoad := true, rate := rate }) s
    else
      let x := { meterGet s m with noLoad := false, reverse := decide (e.p < 0), rate := rate, ivlCounted := true }
      let x := if e.p < 0 then ivlFlag 128 x else x
      let (x, n) := addSigned 0 wh x
      let x := if 0 < wh then (addQty (6 + rate) wh x).1 else x
      let x := match e.fund with
        | some (p1, q1) => (addSigned 4 (q1 / 5 / 3600) (addSigned 2 (p1 / 5 / 3600) x).1).1
        | none => x
      testPulseAdd m n r (meterSet m x s)
  let s2 := if e.fund.isSome then s1 else meterUpd m (ivlFlag 1) s1
  let p := if idle then 0 else rabs e.p / 1000
  meterUpd m (fun x => { x with block := x.block ++ [p] }) s2

/-- R377: one window of electrical meter `m`. -/
def elecOne (ws : List WaveIn) (secondEnd : Bool) (m : Nat) (r : Meter) (s : State) : State :=
  if r.cls ≠ 3 then s
  else
    let s := ivlDue m r s
    let kv : Rat := (r.scaleB : Rat) / 10
    let vs := wave3 s ws r.inA kv
    let is := wave3 s ws r.inB (f32RatD r.scaleA)
    let f := elecFreq vs ((List.range 3).map (fun k => (waveRange s (r.inA + k) * kv / 10) ^ 2))
    let e := elecWhole vs is f
    let s1 := match e with
      | some e => elecBook m r e s
      | none => ivlError m 200 4 (meterUpd m (fun x => { x with
          block := x.block ++ [0], rate := tariffRate s r.tariff }) s)
    elecWords m vs is f e (if secondEnd then blockEnd m 5 s1 else s1)

/-- WAVEFORM_WINDOW (R350, R375): the samples of every waveform channel in a 200 ms window; `secondEnd` says that the
window ends with the second. A member that aligns computes nothing (R507). -/
def execWaveformWindow (wins : List WaveIn) (secondEnd : Bool) (s : State) : Result :=
  if hwStates s.dev.mode ∧ (s.dev.mode ≠ .standby ∨ !s.red.aligning) then
    let s1 := if domOn s 15 then forL wins s waveWords else s
    .next (if domOn s 16 then forMeters (elecOne (if domOn s 15 then wins else []) secondEnd) s1 else s1)
  else .next s

/-! ### Overrates and test pulses -/

/-- R374: every overrate of a flow channel marks the open interval of its meter. -/
def overrateMark (c : Nat) (s : State) : State :=
  forMeters (fun m r s =>
    if r.cls ≠ 3 ∧ r.source = 0 ∧ r.inA % 65536 = c then
      causeS Reg.MTR_CAUSE 1 m (meterUpd m (fun x => { ivlFlag 3 x with ivlOver := min (2 ^ 32 - 1) (x.ivlOver + 1) }) s)
    else s) s

/-- COUNTED_EDGE (R355): an edge of the counted polarity has held for the stable time on counter `n`. -/
def execCountedEdge (n : Nat) (s : State) : Result :=
  let (s1, overrate) := pulseEdge n s
  if overrate ∧ hwStates s.dev.mode then .next (overrateMark (pcGet s n).channel s1) else .next s1

/-- TEST_PULSE (R396): channel `c` emits a queued pulse, in RUN, at least p1 ms after the end of the last. -/
def execTestPulse (c : Nat) (s : State) : Result :=
  match (theTt s).chan c with
  | none => .next s
  | some r =>
    let st := chanSt s c
    let spaced : Bool := match st.pulseTick with
      | some t => decide (2 * r.p1 * 1024 ≤ (s.pwr.tick - t) * 1000)
      | none => true
    if domOn s 15 ∧ r.mode = 20 ∧ s.dev.mode = .run ∧ 0 < st.tpQueue ∧ spaced then
      .next (setChan c { st with
        pulseTick := some s.pwr.tick
        tpQueue := st.tpQueue - 1 } s)
    else .next s

/-! ### Start, stop and change of meters (R53, R379, R386 to R388) -/

/-- A meter block of a totals payload. -/
def totalsBlockOf (p : List Byte) (m : Nat) : List Byte := slice p (32 + 144 * m) 144

/-- R53: the baseline of a meter in the latest valid totals record: param_crc, none when not configured. -/
def totalsBaseline (s : State) (m : Nat) : Option Nat :=
  match jnlLatest s 5 0 with
  | some p => let b := totalsBlockOf p m; if bit (u8 b 0x7C) 7 then some (u32 b 0x88) else none
  | none => none

/-- R386: the meter that a block restores: registers, residues. -/
def meterOfBlock (b : List Byte) : MeterSt :=
  { regs := (List.range 10).map (fun i => u64 b (8 * i)),
    res := (List.range 10).map (fun i => f32RatD (w32 b (0x50 + 4 * i))) }

/-- The register that a kind 1 record carries: 2 of a thermal meter, 0 of an electrical one. -/
def logReg (m : Nat) (x : MeterSt) : Nat := if m < 64 then nth x.regs 2 0 else nth x.regs 0 0

/-- Data of a kind 1 record. -/
def logParam (old new reg : Nat) : List Byte := leBytes 4 old ++ leBytes 4 new ++ leBytes 8 reg

/-- R387: a kind 5 record: t_save, t_cut, B, peak. -/
def logBound (m tSave tCut : Nat) (peak : Rat) (detail : Nat) (s : State) : State :=
  let b := (Config.roundInt (((tCut - tSave : Nat) : Rat) * peak / (36/10))).toNat
  let s1 := mtrLog 5 m detail (leBytes 4 tSave ++ leBytes 4 tCut ++ leBytes 4 b ++ wordBytes (f32OfRat peak)) s
  causeS Reg.MTR_CAUSE 3 m (incFld Reg.MTR_CNT 31 16 s1)

/-- R387: the records that waited for a valid calendar time are written. -/
def mtrPending (s : State) : State :=
  if s.mgt.cal.valid then
    forL s.mtr.pend5 { s with mtr := { s.mtr with pend5 := [] } } (fun b s =>
      logBound b.meter b.tSave s.mgt.cal.seconds b.peak (b.detail ||| 1) s)
  else s

/-- R387: the bound of one meter after a boot, from the first sources that hold its inputs. -/
def mtrBound (m : Nat) (p : List Byte) (s : State) : State :=
  let b := totalsBlockOf p m
  let tSave := u32 p 8
  let seqOf (k : Nat) : Nat := ((s.jnl.live.find? (fun l => l.kind == k)).map (fun l => l.seq)).getD 0
  let pf := if seqOf 5 < seqOf 7 then jnlLatest s 7 0 else none
  if s.mtr.aoKept then
    let peak := peakGet s m
    if peak = 0 then s
    else logBound m tSave (max (getReg s Reg.PWR_CUT).toNat (getReg s Reg.PWR_RSTTIME).toNat) peak 0 s
  else
    match pf with
    | some q =>
      let peak := f32RatD (w32 q (16 + 4 * m))
      if peak = 0 then s else logBound m tSave (u32 q 0) peak 0 s
    | none =>
      let peak := f32RatD (w32 b 0x78)
      if peak = 0 then s
      else mtrPending { s with mtr := { s.mtr with pend5 := s.mtr.pend5 ++ [⟨m, tSave, peak, 2⟩] } }

/-- R388: litres counted by a pulse flow counter while metering was stopped. -/
def mtrMissed (m : Nat) (r : Meter) (b : List Byte) (s : State) : State :=
  if r.cls = 3 ∨ r.source ≠ 0 then s
  else
    match pcOfChan s (r.inA % 65536) with
    | none => s
    | some n =>
      let c := pcGet s n
      if c.reassigned then s
      else
        let d : Nat := (c.count + 2 ^ 64 - u64 b 0x80) % 2 ^ 64
        let litres := (Config.roundInt ((d : Rat) * f32RatD r.scaleA)).toNat
        mtrLog 7 m 0 (leBytes 8 litres ++ leBytes 4 (u64 b 0x80 % 2 ^ 32) ++ leBytes 4 (c.count % 2 ^ 32)) s

/-- R366: the flow channel of a meter whose flow is pulses. -/
def meterPulse (r : Meter) : Option Nat := if r.cls ≠ 3 ∧ r.source = 0 then some (r.inA % 65536) else none

/-- The count of its flow channel from which a meter takes its next sample: where it left off when it had that channel
before, or from zero when a commit has cleared the counter (R358); the count as it stands when the channel is new. -/
def meterBase (s : State) (r : Meter) (x : MeterSt) : MeterSt :=
  match meterPulse r with
  | none => { x with flow := none }
  | some c =>
    let n := pcCount s c
    let ci := (wordVal (imgGet s 2 (512 + c))).toNat
    if x.flow = some c then
      { x with
        lastCount := if n = 0 then 0 else x.lastCount
        lastCi := if ci = 0 then 0 else x.lastCi }
    else
      { x with
        flow := some c
        lastCount := n
        lastCi := ci }

/-- R386 to R388 for one meter at the first entry into READY after a boot.
The first interval is suspect (R379, R388), and so is the day (R390 flags 2 and 3). -/
def meterStart (p : Option (List Byte)) (m : Nat) (r : Meter) (s : State) : State :=
  let b := totalsBlockOf (p.getD []) m
  let conf := p.isSome && bit (u8 b 0x7C) 7
  let same := conf && u8 b 0x7C % 4 == r.cls
  let base : MeterSt := if same then meterOfBlock b else {}
  let x := { base with configured := true, cls := r.cls, paramCrc := r.paramCrc.toNat, tLast := s.pwr.tick,
                       ring := (meterGet s m).ring, dayFlags := 12 }
  let x := meterBase s r x
  let s1 := meterSet m (ivlOpen (calSeconds s) (partialNow s r.interval ||| 16 ||| 1) x) s
  let s2 := if !same then
      mtrLog 1 m ((if conf then 0 else 1) + 4) (logParam (if conf then u32 b 0x88 else 0) r.paramCrc.toNat
        (if conf then logReg m (meterOfBlock b) else 0)) s1
    else if u32 b 0x88 ≠ r.paramCrc.toNat then
      mtrLog 1 m 0 (logParam (u32 b 0x88) r.paramCrc.toNat (logReg m x)) s1
    else s1
  if conf then mtrMissed m r b s2 else s2

/-- R387: the latest totals record was written for the boot just completed. -/
def cleanTotals (s : State) : Bool :=
  s.mtr.cleanSave || (s.jnl.sealed && (match jnlLatest s 5 0 with
    | some p => u8 p 0xE == 2
    | none => false))

/-- R386 to R388: metering starts at the first entry into READY after a boot. -/
def mtrStart (s : State) : State :=
  let p := jnlLatest s 5 0
  let s0 := { s with mtr := { s.mtr with meters := [], saveDue := none } }
  -- meters that the image no longer has
  let s1 := forN 72 s0 (fun m s =>
    match totalsBaseline s m, meterRec (theTt s) m with
    | some old, none => mtrLog 1 m 2 (logParam old 0 (logReg m (meterOfBlock (totalsBlockOf (p.getD []) m)))) s
    | _, _ => s)
  let s2 := forMeters (meterStart p) s1
  let s3 := match p with
    | some q => if cleanTotals s2 then s2
      else forN 72 s2 (fun m s => if bit (u8 (totalsBlockOf q m) 0x7C) 7 then mtrBound m q s else s)
    | none => s2
  let seq := match p with
    | some q => u64 q 0
    | none => 0
  { s3 with
    mtr := { s3.mtr with started := true, cleanSave := false, aoKept := true, peaks := [],
                         savePeaks := [], saveRe := [], saveSeq := seq, saving := none, saveTick := s3.pwr.tick, sampleTick := none } }

/-- R371: at each later entry into READY, t_last is the time of that entry. -/
def mtrReady (s : State) : State :=
  if s.mtr.started then forMeters (fun m _ s => meterUpd m (fun x => { x with tLast := s.pwr.tick }) s) s
  else mtrStart s

/-- R379: metering stops (BOOT, HOLD): open intervals close early. -/
def mtrStop (s : State) : State :=
  if hwStates s.dev.mode then ivlCloseAll 0 s else s

/-- R53, R81, R379, R393: a commit boundary brings a new Meters section into force. -/
def mtrCommit (old new : Timetable) (s : State) : State :=
  forN 72 s (fun m s =>
    let x := meterGet s m
    match meterRec old m, meterRec new m with
    | some a, some b =>
      if a = b then meterSet m (meterBase s b x) s
      else
        let s1 := ivlClose m a.interval 8 (calSeconds s) (partialNow s b.interval) s
        let keep := a.cls == b.cls
        let y := meterGet s1 m
        let y := if keep then y else { y with regs := List.replicate 10 0, res := List.replicate 10 0 }
        let y := { y with cls := b.cls, paramCrc := b.paramCrc.toNat }
        let y := meterBase s b y
        mtrLog 1 m (if keep then 0 else 4) (logParam a.paramCrc.toNat b.paramCrc.toNat (logReg m x))
          (meterSet m (if keep then y else ivlOpen y.ivlStart y.ivlFlags y) s1)
    | none, some b =>
      let y : MeterSt := { configured := true, cls := b.cls, paramCrc := b.paramCrc.toNat, tLast := s.pwr.tick }
      let y := meterBase s b y
      mtrLog 1 m 5 (logParam 0 b.paramCrc.toNat 0) (meterSet m (ivlOpen (calSeconds s) (partialNow s b.interval) y) s)
    | some a, none =>
      let s1 := ivlClose m a.interval 8 0 0 s
      mtrLog 1 m 2 (logParam a.paramCrc.toNat 0 (logReg m x)) (meterSet m { ring := (meterGet s1 m).ring } s1)
    | none, none => s)

/-! ### Register views (R397 to R400) -/

/-- MTR_STAT. -/
def mtrStat (s : State) : Word :=
  let n := (s.mtr.meters.filter (fun p => p.2.configured)).length
  let w := setField (setField 0#32 6 0 n) 8 8 (b2n (hwStates s.dev.mode && s.mtr.started))
  setField (setField (setField w 9 9 (b2n (logFull s))) 10 10 (b2n s.mtr.saving.isSome)) 11 11 (b2n s.mtr.archDue.isSome)

/-- MTR_SEL_WRITE (R399): select a meter and latch a coherent copy of its registers.
MTR_MTP shows the queue of the first channel in mode 20 of the meter (log entry 100). -/
def mtrSelect (data : Word) (s : State) : State :=
  let m := field data 6 0
  let x := meterGet s m
  let src := match meterRec (theTt s) m with
    | some r => r.source
    | none => 0
  let info := setField (setField (setField (setField 0#32 1 0 x.cls) 2 2 src) 3 3 (b2n x.configured)) 5 4 x.rate
  let info := setField (setField (setField info 8 8 (b2n x.noLoad)) 9 9 (b2n x.reverse)) 10 10 (x.ivlFlags % 2)
  let s1 := setReg Reg.MTR_MINFO info (setFld Reg.MTR_SEL 6 0 m s)
  let s2 := forN 10 s1 (fun k s => setReg (Reg.MTR_MREG_HI + 8 * k) (BitVec.ofNat 32 (nth x.regs k 0 / 2 ^ 32))
    (setReg (Reg.MTR_MREG_LO + 8 * k) (BitVec.ofNat 32 (nth x.regs k 0)) s))
  let queued := match testPulseChans (theTt s) m with
    | r :: _ => (chanSt s r.channel).tpQueue
    | [] => 0
  setFld Reg.MTR_MTP 15 0 queued (setReg Reg.MTR_MERR (BitVec.ofNat 32 x.ivlErr)
    (setReg Reg.MTR_MPEAK (if peakGet s m = 0 then 0#32 else f32OfRat (peakGet s m)) s2))

/-- MTR_IVL_SEL_WRITE (R400): copy the selected interval record into the data registers. -/
def mtrIvlSelect (data : Word) (s : State) : State :=
  let m := field data 6 0
  let age := field data 14 8
  let s1 := setFld Reg.MTR_IVL_SEL 14 8 age (setFld Reg.MTR_IVL_SEL 6 0 m s)
  match (meterGet s m).ring[age]? with
  | some r => forN 16 (setFld Reg.MTR_IVL_STAT 0 0 1 s1) (fun k s => setReg (Reg.MTR_IVL_DATA + 4 * k) (w32 r (4 * k)) s)
  | none => forN 16 (setFld Reg.MTR_IVL_STAT 0 0 0 s1) (fun k s => setReg (Reg.MTR_IVL_DATA + 4 * k) 0#32 s)

end Sys2Proof.Machine
end

