-- ==== Sys2Proof/Machine/Crypto.lean ====
section
/-! DEFINITION. The cryptographic functions the spec names by their standards (R43, R103, R437, R556, R562, R564, R569,
R570, R573): SHA-384, HMAC, HKDF, AES, CMAC, AES key wrap, AES-GCM and ECDSA P-384. The standards' constants are
PRESUMED from FIPS 180-4, FIPS 197, RFC 3394 and SEC 2, which the spec names and does not print. -/

namespace Sys2Proof.Machine

/-! ### SHA-384 -/

/-- The round constants of SHA-512 (FIPS 180-4), used by SHA-384. -/
def shaK0 : List (BitVec 64) := [
   0x428A2F98D728AE22, 0x7137449123EF65CD, 0xB5C0FBCFEC4D3B2F, 0xE9B5DBA58189DBBC,
   0x3956C25BF348B538, 0x59F111F1B605D019, 0x923F82A4AF194F9B, 0xAB1C5ED5DA6D8118,
   0xD807AA98A3030242, 0x12835B0145706FBE, 0x243185BE4EE4B28C, 0x550C7DC3D5FFB4E2,
   0x72BE5D74F27B896F, 0x80DEB1FE3B1696B1, 0x9BDC06A725C71235, 0xC19BF174CF692694,
   0xE49B69C19EF14AD2, 0xEFBE4786384F25E3, 0x0FC19DC68B8CD5B5, 0x240CA1CC77AC9C65,
   0x2DE92C6F592B0275, 0x4A7484AA6EA6E483, 0x5CB0A9DCBD41FBD4, 0x76F988DA831153B5,
   0x983E5152EE66DFAB, 0xA831C66D2DB43210, 0xB00327C898FB213F, 0xBF597FC7BEEF0EE4,
   0xC6E00BF33DA88FC2, 0xD5A79147930AA725, 0x06CA6351E003826F, 0x142929670A0E6E70,
   0x27B70A8546D22FFC, 0x2E1B21385C26C926, 0x4D2C6DFC5AC42AED, 0x53380D139D95B3DF,
   0x650A73548BAF63DE, 0x766A0ABB3C77B2A8, 0x81C2C92E47EDAEE6, 0x92722C851482353B]
/-- The other forty. -/
def shaK1 : List (BitVec 64) := [
   0xA2BFE8A14CF10364, 0xA81A664BBC423001, 0xC24B8B70D0F89791, 0xC76C51A30654BE30,
   0xD192E819D6EF5218, 0xD69906245565A910, 0xF40E35855771202A, 0x106AA07032BBD1B8,
   0x19A4C116B8D2D0C8, 0x1E376C085141AB53, 0x2748774CDF8EEB99, 0x34B0BCB5E19B48A8,
   0x391C0CB3C5C95A63, 0x4ED8AA4AE3418ACB, 0x5B9CCA4F7763E373, 0x682E6FF3D6B2B8A3,
   0x748F82EE5DEFB2FC, 0x78A5636F43172F60, 0x84C87814A1F0AB72, 0x8CC702081A6439EC,
   0x90BEFFFA23631E28, 0xA4506CEBDE82BDE9, 0xBEF9A3F7B2C67915, 0xC67178F2E372532B,
   0xCA273ECEEA26619C, 0xD186B8C721C0C207, 0xEADA7DD6CDE0EB1E, 0xF57D4F7FEE6ED178,
   0x06F067AA72176FBA, 0x0A637DC5A2C898A6, 0x113F9804BEF90DAE, 0x1B710B35131C471B,
   0x28DB77F523047D84, 0x32CAAB7B40C72493, 0x3C9EBE0A15C9BEBC, 0x431D67C49C100D4C,
   0x4CC5D4BECB3E42B6, 0x597F299CFC657E2A, 0x5FCB6FAB3AD6FAEC, 0x6C44198C4A475817]
/-- The initial hash value of SHA-384. -/
def shaH : List (BitVec 64) := [
   0xCBBB9D5DC1059ED8, 0x629A292A367CD507, 0x9159015A3070DD17, 0x152FECD8F70E5939,
   0x67332667FFC00B31, 0x8EB44A8768581511, 0xDB0C2E0D64F98FA7, 0x47B5481DBEFA4FA4]

/-- The message schedule: grows a list, newest first, by `n` words. -/
def shaExtend : Nat → List (BitVec 64) → List (BitVec 64)
  | 0, w => w
  | n + 1, w =>
    let g (i : Nat) : BitVec 64 := nth w i 0
    let x := g 14
    let y := g 1
    let s0 := x.rotateRight 1 ^^^ x.rotateRight 8 ^^^ (x >>> 7)
    let s1 := y.rotateRight 19 ^^^ y.rotateRight 61 ^^^ (y >>> 6)
    shaExtend n ((g 15 + s0 + g 6 + s1) :: w)

/-- The eight working variables. -/
structure ShaVars where
  a : BitVec 64
  b : BitVec 64
  c : BitVec 64
  d : BitVec 64
  e : BitVec 64
  f : BitVec 64
  g : BitVec 64
  h : BitVec 64

/-- One round. -/
def shaRound (v : ShaVars) (kw : BitVec 64 × BitVec 64) : ShaVars :=
  let s1 := v.e.rotateRight 14 ^^^ v.e.rotateRight 18 ^^^ v.e.rotateRight 41
  let ch := (v.e &&& v.f) ^^^ (~~~ v.e &&& v.g)
  let t1 := v.h + s1 + ch + kw.1 + kw.2
  let s0 := v.a.rotateRight 28 ^^^ v.a.rotateRight 34 ^^^ v.a.rotateRight 39
  let mj := (v.a &&& v.b) ^^^ (v.a &&& v.c) ^^^ (v.b &&& v.c)
  ⟨t1 + s0 + mj, v.a, v.b, v.c, v.d + t1, v.e, v.f, v.g⟩

/-- Compress one block of 128 bytes. -/
def shaBlock (h : ShaVars) (blk : List Byte) : ShaVars :=
  let w0 := (chunks 8 16 blk).map (fun c => BitVec.ofNat 64 (beNat c))
  let w := (shaExtend 64 w0.reverse).reverse
  let v := ((shaK0 ++ shaK1).zip w).foldl shaRound h
  ⟨h.a + v.a, h.b + v.b, h.c + v.c, h.d + v.d, h.e + v.e, h.f + v.f, h.g + v.g, h.h + v.h⟩

/-- SHA-384 (FIPS 180-4). -/
def sha384 (m : List Byte) : List Byte :=
  let z := (240 - (m.length + 1) % 128) % 128
  let pad := m ++ [0x80#8] ++ List.replicate (z % 128) 0#8 ++ beBytes 16 (8 * m.length)
  let g (i : Nat) : BitVec 64 := nth shaH i 0
  let v := (chunks 128 (pad.length / 128) pad).foldl shaBlock ⟨g 0, g 1, g 2, g 3, g 4, g 5, g 6, g 7⟩
  [v.a, v.b, v.c, v.d, v.e, v.f].flatMap (fun x => beBytes 8 x.toNat)

/-- HMAC-SHA-384. -/
def hmac384 (key m : List Byte) : List Byte :=
  let k := fit 0#8 128 (if 128 < key.length then sha384 key else key)
  sha384 (k.map (· ^^^ 0x5C#8) ++ sha384 (k.map (· ^^^ 0x36#8) ++ m))

/-- HKDF-SHA-384's first block of output (RFC 5869), at most 48 bytes. -/
def hkdf384 (salt ikm info : List Byte) (n : Nat) : List Byte :=
  (hmac384 (hmac384 (if salt.isEmpty then List.replicate 48 0#8 else salt) ikm) (info ++ [1#8])).take n

/-! ### AES -/

/-- Multiply by x in GF(2^8) of AES. -/
def aesX (b : Byte) : Byte := if b.getLsbD 7 then (b <<< 1) ^^^ 0x1B#8 else b <<< 1

/-- Multiply in GF(2^8), over the bits of `b` from `fuel` down. -/
def aesMul (a b : Byte) : Byte :=
  (List.range 8).foldl (fun (acc : Byte × Byte) i => (if b.getLsbD i then acc.1 ^^^ acc.2 else acc.1, aesX acc.2)) (0#8, a) |>.1

/-- The inverse in GF(2^8): the 254th power. -/
def aesInv (a : Byte) : Byte :=
  let sq (x : Byte) : Byte := aesMul x x
  let a2 := sq a
  let a4 := sq a2
  let a8 := sq a4
  let a16 := sq a8
  let a32 := sq a16
  let a64 := sq a32
  let a128 := sq a64
  aesMul a2 (aesMul a4 (aesMul a8 (aesMul a16 (aesMul a32 (aesMul a64 a128)))))

/-- One entry of the S-box (FIPS 197). -/
def aesSubOf (a : Byte) : Byte :=
  let i := aesInv a
  i ^^^ i.rotateLeft 1 ^^^ i.rotateLeft 2 ^^^ i.rotateLeft 3 ^^^ i.rotateLeft 4 ^^^ 0x63#8

/-- The S-box. -/
def aesSbox : List Byte := (List.range 256).map (fun i => aesSubOf (BitVec.ofNat 8 i))

/-- The inverse S-box. -/
def aesInvSbox : List Byte := (List.range 256).map (fun i => BitVec.ofNat 8 (aesSbox.findIdx (· == BitVec.ofNat 8 i)))

/-- Substitute a byte. -/
def aesSub (b : Byte) : Byte := nth aesSbox b.toNat 0

/-- Exclusive-or of byte strings. -/
def xorBytes (a b : List Byte) : List Byte := List.zipWith (· ^^^ ·) a b

/-- Key expansion: words of four bytes, newest first, grown by `n` words; `nk` words in the key, `i` the next index. -/
def aesExpand (nk : Nat) : Nat → Nat → Byte → List (List Byte) → List (List Byte)
  | 0, _, _, w => w
  | n + 1, i, rcon, w =>
    let prev := nth w 0 []
    let (t, rcon') :=
      if i % nk = 0 then
        (xorBytes ((prev.drop 1 ++ prev.take 1).map aesSub) [rcon, 0, 0, 0], aesX rcon)
      else if 6 < nk ∧ i % nk = 4 then (prev.map aesSub, rcon)
      else (prev, rcon)
    aesExpand nk n (i + 1) rcon' (xorBytes (nth w (nk - 1) []) t :: w)

/-- The round keys of a 16- or 32-byte key. -/
def aesKeys (key : List Byte) : List (List Byte) :=
  let nk := key.length / 4
  let total := 4 * (nk + 7)
  let ws := (aesExpand nk (total - nk) nk 1#8 (chunks 4 nk key).reverse).reverse
  (chunks 4 (nk + 7) ws).map List.flatten

/-- ShiftRows on a block in column order. -/
def aesShift (b : List Byte) : List Byte := (List.range 16).map (fun i => nth b ((i + 4 * (i % 4)) % 16) 0)
/-- Inverse ShiftRows. -/
def aesUnshift (b : List Byte) : List Byte := (List.range 16).map (fun i => nth b ((i + 16 - 4 * (i % 4)) % 16) 0)

/-- MixColumns with the four coefficients of its first row. -/
def aesMix (m : List Byte) (b : List Byte) : List Byte :=
  (List.range 16).map (fun i =>
    (List.range 4).foldl (fun acc j => acc ^^^ aesMul (nth m ((j + 4 - i % 4) % 4) 0) (nth b (i / 4 * 4 + j) 0)) 0#8)

/-- Encrypt one block with round keys. -/
def aesEncK (ks : List (List Byte)) (blk : List Byte) : List Byte :=
  let n := ks.length - 1
  let s0 := xorBytes blk (nth ks 0 [])
  let s := (List.range (n - 1)).foldl (fun st r =>
    xorBytes (aesMix [2, 3, 1, 1] (aesShift (st.map aesSub))) (nth ks (r + 1) [])) s0
  xorBytes (aesShift (s.map aesSub)) (nth ks n [])

/-- Decrypt one block with round keys. -/
def aesDecK (ks : List (List Byte)) (blk : List Byte) : List Byte :=
  let n := ks.length - 1
  let inv (b : Byte) : Byte := nth aesInvSbox b.toNat 0
  let s0 := (aesUnshift (xorBytes blk (nth ks n []))).map inv
  let s := (List.range (n - 1)).foldl (fun st r =>
    (aesUnshift (aesMix [14, 11, 13, 9] (xorBytes st (nth ks (n - 1 - r) [])))).map inv) s0
  xorBytes s (nth ks 0 [])

/-- AES encryption of one block under a 16- or 32-byte key. -/
def aesEnc (key blk : List Byte) : List Byte := aesEncK (aesKeys key) blk

/-- Shift a block left by one bit, reducing by the CMAC constant. -/
def cmacDbl (b : List Byte) : List Byte :=
  let v := BitVec.ofNat 128 (beNat b)
  beBytes 16 ((v <<< 1) ^^^ (if v.getLsbD 127 then 0x87#128 else 0#128)).toNat

/-- AES-CMAC (NIST SP 800-38B). -/
def aesCmac (key m : List Byte) : List Byte :=
  let ks := aesKeys key
  let k1 := cmacDbl (aesEncK ks (List.replicate 16 0#8))
  let n := max 1 ((m.length + 15) / 16)
  let last := m.drop (16 * (n - 1))
  let fin := if last.length = 16 then xorBytes last k1
    else xorBytes (fit 0#8 16 (last ++ [0x80#8])) (cmacDbl k1)
  let x := (chunks 16 (n - 1) (m.take (16 * (n - 1)))).foldl (fun c b => aesEncK ks (xorBytes c b)) (List.replicate 16 0#8)
  aesEncK ks (xorBytes x fin)

/-- One step of AES key wrap: register A, the blocks done (newest first), the counter. -/
def kwPass (ks : List (List Byte)) : List (List Byte) → Nat → List Byte → List Byte × List (List Byte)
  | [], _, a => (a, [])
  | r :: rest, t, a =>
    let b := aesEncK ks (a ++ r)
    let a' := xorBytes (b.take 8) (beBytes 8 t)
    let (af, rs) := kwPass ks rest (t + 1) a'
    (af, b.drop 8 :: rs)

/-- AES key wrap (RFC 3394) of a multiple of 8 bytes. -/
def aesWrap (key m : List Byte) : List Byte :=
  let ks := aesKeys key
  let n := m.length / 8
  let st := (List.range 6).foldl (fun (acc : List Byte × List (List Byte)) j => kwPass ks acc.2 (n * j + 1) acc.1)
    (List.replicate 8 0xA6#8, chunks 8 n m)
  st.1 ++ st.2.flatten

/-- One backward pass of unwrapping over the blocks in reverse. -/
def kwUnpass (ks : List (List Byte)) : List (List Byte) → Nat → List Byte → List Byte × List (List Byte)
  | [], _, a => (a, [])
  | r :: rest, t, a =>
    let b := aesDecK ks (xorBytes a (beBytes 8 t) ++ r)
    let (af, rs) := kwUnpass ks rest (t - 1) (b.take 8)
    (af, b.drop 8 :: rs)

/-- AES key unwrap (RFC 3394): the plaintext when the integrity check holds. -/
def aesUnwrap (key c : List Byte) : Option (List Byte) :=
  let ks := aesKeys key
  let n := c.length / 8 - 1
  let st := (List.range 6).foldl (fun (acc : List Byte × List (List Byte)) j => kwUnpass ks acc.2 (n * (6 - j)) acc.1)
    (c.take 8, (chunks 8 n (c.drop 8)).reverse)
  if st.1 = List.replicate 8 0xA6#8 then some st.2.reverse.flatten else none

/-- Multiply in the field of GHASH. -/
def gmul (x y : BitVec 128) : BitVec 128 :=
  ((List.range 128).foldl (fun (acc : BitVec 128 × BitVec 128) i =>
    (if x.getLsbD (127 - i) then acc.1 ^^^ acc.2 else acc.1,
     if acc.2.getLsbD 0 then (acc.2 >>> 1) ^^^ 0xE1000000000000000000000000000000#128 else acc.2 >>> 1)) (0#128, y)).1

/-- GHASH of a padded byte string. -/
def ghash (h : BitVec 128) (m : List Byte) : BitVec 128 :=
  (chunks 16 (m.length / 16) m).foldl (fun acc b => gmul (acc ^^^ BitVec.ofNat 128 (beNat b)) h) 0#128

/-- Zero padding to a multiple of 16. -/
def pad16 (m : List Byte) : List Byte := m ++ List.replicate ((16 - m.length % 16) % 16) 0#8

/-- AES counter mode from a counter block number. -/
def aesCtr (ks : List (List Byte)) (iv : List Byte) (ctr : Nat) (m : List Byte) : List Byte :=
  ((chunks 16 ((m.length + 15) / 16) m).zipIdx.map (fun x =>
    List.zipWith (· ^^^ ·) x.1 (aesEncK ks (iv ++ beBytes 4 (ctr + x.2))))).flatten

/-- The tag of AES-GCM over AAD and ciphertext with a 12-byte IV (NIST SP 800-38D). -/
def gcmTag (ks : List (List Byte)) (iv aad c : List Byte) : List Byte :=
  let h := BitVec.ofNat 128 (beNat (aesEncK ks (List.replicate 16 0#8)))
  let s := ghash h (pad16 aad ++ pad16 c ++ beBytes 8 (8 * aad.length) ++ beBytes 8 (8 * c.length))
  xorBytes (beBytes 16 s.toNat) (aesEncK ks (iv ++ beBytes 4 1))

/-- AES-GCM encryption: ciphertext and tag. -/
def gcmEnc (key iv aad m : List Byte) : List Byte × List Byte :=
  let ks := aesKeys key
  let c := aesCtr ks iv 2 m
  (c, gcmTag ks iv aad c)

/-- AES-GCM decryption when the tag holds. -/
def gcmDec (key iv aad c tag : List Byte) : Option (List Byte) :=
  let ks := aesKeys key
  if gcmTag ks iv aad c = tag then some (aesCtr ks iv 2 c) else none

/-! ### ECDSA P-384 -/

/-- The field prime of P-384. -/
def ecP : Nat := 2 ^ 384 - 2 ^ 128 - 2 ^ 96 + 2 ^ 32 - 1
/-- The order of the base point. -/
def ecN : Nat := 0xFFFFFFFFFFFFFFFFFFFFFFFFFFFFFFFFFFFFFFFFFFFFFFFFC7634D81F4372DDF581A0DB248B0A77AECEC196ACCC52973
/-- The curve coefficient b (a is -3). -/
def ecB : Nat := 0xB3312FA7E23EE7E4988E056BE3F82D19181D9C6EFE8141120314088F5013875AC656398D8A2ED19D2A85C8EDD3EC2AEF
/-- The base point. -/
def ecG : Nat × Nat :=
  (0xAA87CA22BE8B05378EB1C71EF320AD746E1D3B628BA79B9859F741E082542A385502F25DBF55296C3A545E3872760AB7,
   0x3617DE4A96262C6F5D9E98BF9292DC29F8F41DBD289A147CE9DA3113B5F0B8C00A60B1CE1D7E819D7A431D7C90EA0E5F)

/-- a^e mod m over the low `bits` bits of e. -/
def powMod (a e m bits : Nat) : Nat :=
  ((List.range bits).foldl (fun (acc : Nat × Nat) i =>
    (if e.testBit i then acc.1 * acc.2 % m else acc.1, acc.2 * acc.2 % m)) (1 % m, a % m)).1

/-- Inverse modulo a prime below 2^384. -/
def invMod (a m : Nat) : Nat := powMod a (m - 2) m 384

/-- Point addition; none is the point at infinity. -/
def ecAdd (p q : Option (Nat × Nat)) : Option (Nat × Nat) :=
  match p, q with
  | none, q => q
  | p, none => p
  | some (x1, y1), some (x2, y2) =>
    if x1 = x2 ∧ (y1 + y2) % ecP = 0 then none
    else
      let l :=
        if x1 = x2 then (3 * x1 * x1 + 3 * (ecP - 1)) % ecP * invMod (2 * y1) ecP % ecP
        else (y2 + ecP - y1) % ecP * invMod ((x2 + ecP - x1) % ecP) ecP % ecP
      let x3 := (l * l + 2 * ecP - x1 - x2) % ecP
      some (x3, (l * ((x1 + ecP - x3) % ecP) + ecP - y1) % ecP)

/-- Scalar multiplication over 384 bits. -/
def ecMul (k : Nat) (p : Option (Nat × Nat)) : Option (Nat × Nat) :=
  ((List.range 384).foldl (fun (acc : Option (Nat × Nat) × Option (Nat × Nat)) i =>
    (if k.testBit i then ecAdd acc.1 acc.2 else acc.1, ecAdd acc.2 acc.2)) (none, p)).1

/-- A public key 0x04 ‖ X ‖ Y on the curve. -/
def ecPub (key : List Byte) : Option (Nat × Nat) :=
  let x := beNat (slice key 1 48)
  let y := beNat (slice key 49 48)
  if key.length = 97 ∧ u8 key 0 = 4 ∧ x < ecP ∧ y < ecP ∧ (y * y) % ecP = (x * x * x + (ecP - 3) * x + ecB) % ecP then
    some (x, y)
  else none

/-- ECDSA P-384 verification of r, s (big-endian) over a digest of 48 bytes. -/
def ecdsaVerify (key digest rb sb : List Byte) : Bool :=
  let r := beNat rb
  let sv := beNat sb
  match ecPub key with
  | none => false
  | some q =>
    if r = 0 ∨ sv = 0 ∨ ecN ≤ r ∨ ecN ≤ sv then false
    else
      let w := invMod sv ecN
      match ecAdd (ecMul (beNat digest * w % ecN) (some ecG)) (ecMul (r * w % ecN) (some q)) with
      | none => false
      | some pt => pt.1 % ecN == r

/-- ECDSA P-384 signature with private key `d` and nonce `k`: r and s, big-endian. -/
def ecdsaSign (d k : Nat) (digest : List Byte) : List Byte × List Byte :=
  let k := k % (ecN - 1) + 1
  match ecMul k (some ecG) with
  | none => (beBytes 48 0, beBytes 48 0)
  | some pt =>
    let r := pt.1 % ecN
    (beBytes 48 r, beBytes 48 (invMod k ecN * (beNat digest + r * d) % ecN))

/-- The public key of a private key as 0x04 ‖ X ‖ Y. -/
def ecPubOf (d : Nat) : List Byte :=
  match ecMul (d % (ecN - 1) + 1) (some ecG) with
  | none => List.replicate 97 0#8
  | some pt => [4#8] ++ beBytes 48 pt.1 ++ beBytes 48 pt.2

end Sys2Proof.Machine
end

