-- ==== Sys2Proof/Machine/Mailbox.lean ====
section
/-! DEFINITION. The mailbox (R527, R595, R596): the request that waits, the reply, and the rules by which a command is
accepted. A mailbox command's row executes the request in the buffer when the mailbox is busy with that command. -/

namespace Sys2Proof.Machine

/-- The command code in HIF_MB_CMD. -/
def mbCode (s : State) : Nat := getFld s Reg.HIF_MB_CMD 7 0

/-- The request data: HIF_MB_CMD.length bytes of the request buffer. -/
def mbReq (s : State) : List Byte := smGetList (fun _ => 0) s.hif.reqBuf 0 (getFld s Reg.HIF_MB_CMD 28 16)

/-- The mailbox is busy with the command of a code, which does not already wait for a record. -/
def mbIs (code : Nat) (s : State) : Bool := s.hif.mbState == 1 && mbCode s == code && !s.hif.mbWait

/-- The command that the mailbox is busy with goes on when its record is durable. -/
def mbHold (s : State) : State := { s with hif := { s.hif with mbWait := true } }

/-- R595 step 5: the reply is in the buffer, result and reply_length are set, the state is 2 (done). -/
def mbReply (result : Nat) (data : List Byte) (s : State) : State :=
  let data := data.take 4096
  let s1 := { s with hif := { s.hif with
    mbState := 2, mbResult := result, mbReply := data.length, mbWait := false, repBuf := smPutList (fun _ => 0) [] 0 data } }
  cause Reg.HIF_CAUSE 4 (domRequest 1 .mailbox false s1)

/-- The reply of the command that HIF_MB_SEQ counted as `tag`, when its record is durable or has failed; none where that
command has been aborted (R526, R596). -/
def mbLate (tag : Word) (result : Nat) (data : List Byte) (s : State) : State :=
  if s.hif.mbState = 1 ∧ getReg s Reg.HIF_MB_SEQ = tag then mbReply result data s else s

/-- R596: a command in progress ends with result 6. -/
def mbAbort (s : State) : State :=
  if s.hif.mbState = 1 then
    cause Reg.HIF_CAUSE 5 (domRequest 1 .mailbox false
      { s with hif := { s.hif with mbState := 2, mbResult := 6, mbReply := 0, mbWait := false, repBuf := [] } })
  else s

/-- R64: block `b` accepts RW writes in RUN; bits 0 and 15 count as set (R592). -/
def writeMaskBit (s : State) (b : Nat) : Bool := b == 0 || b == 15 || bit (theTt s).security.hostWriteMask b

/-- R64, R592: block `b` is readable in RUN. -/
def readMaskBit (s : State) (b : Nat) : Bool := b == 0 || b == 15 || bit (theTt s).security.hostReadMask b

/-- R528: in RUN a command needs the MGT bit of host_write_mask. -/
def mbRunOk (s : State) : Bool := s.dev.mode != .run || writeMaskBit s 14

/-- Run a mailbox command: nothing unless the mailbox is busy with it; result 2 unless `ok`; otherwise `f` on the
request data. -/
def mbDo (code : Nat) (ok : State → Bool) (f : List Byte → State → State) (s : State) : Result :=
  if mbIs code s then (if ok s then .next (f (mbReq s) s) else .next (mbReply 2 [] s)) else .next s

/-- MB_ACK: a write of HIF_MB_ACK.ack returns a done mailbox to idle (R595 step 6). -/
def execMbAck (s : State) : Result :=
  if s.hif.mbState = 2 then .next { s with hif := { s.hif with mbState := 0 } } else .next s

/-- The command codes of R528 and R568. -/
def mbKnown : List Nat :=
  [0x01, 0x10, 0x11, 0x12, 0x13, 0x14, 0x20, 0x21, 0x22, 0x23, 0x24, 0x25, 0x30, 0x31, 0x32, 0x33, 0x34,
   0x40, 0x41, 0x42, 0x43, 0x44, 0x45, 0x46, 0x47, 0x48, 0x49, 0x4A, 0x4B, 0x4C, 0x4D, 0x4E, 0x50, 0x51, 0x52, 0x53]

/-- MB_UNKNOWN_COMMAND: a code that no command has ends with result 7 (R527). -/
def execMbUnknownCommand (s : State) : Result :=
  if s.hif.mbState = 1 ∧ ¬ mbKnown.contains (mbCode s) then .next (mbReply 7 [] s) else .next s

end Sys2Proof.Machine
end

