-- ==== Sys2Proof/Machine/Key.lean ====
section
/-! DEFINITION. The key store and attestation (chapter 17): slots and their use, entry writes through the journal,
accumulators, signers, the mailbox commands 0x40 to 0x53, re-masking and the boot checks. -/

namespace Sys2Proof.Machine

/-- Replace the key store's state. -/
def setKey (k : KeyState) (s : State) : State := { s with key := k }

/-- An entry of the key array. -/
def keyEntry (s : State) (e : Nat) : KeyEntry := smGet (fun _ => {}) s.key.entries e

/-- Replace an entry. -/
def setKeyEntry (e : Nat) (x : KeyEntry) (s : State) : State :=
  { s with key := { s.key with entries := smPut (fun _ => {}) s.key.entries e x } }

/-- The half in force. -/
def KeyEntry.half (x : KeyEntry) : List Byte := fit 0#8 128 (if x.ptr.half = 0 then x.half0 else x.half1)

/-- R556: while the site mask entry is empty, every compatibility slot acts as empty. -/
def keyHidden (s : State) (e : Nat) : Bool :=
  decide (56 ≤ e ∧ e ≤ 63) && !((keyEntry s 0x48).ptr.st == 1 && !(keyEntry s 0x48).damaged)

/-- Whether an entry is loaded and not damaged; a compatibility slot also needs the site mask (R556). -/
def keyLoaded (s : State) (e : Nat) : Bool :=
  let x := keyEntry s e
  x.ptr.st == 1 && !x.damaged && !keyHidden s e

/-- A fresh random value of 32 bytes (R567). -/
def keyRandom (s : State) : List Byte × State :=
  let (n, s1) := fresh s
  (beBytes 32 (Config.random n).toNat, s1)

/-- The native key of an entry: the exclusive-or of its two shares (R554). -/
def keyNative (x : KeyEntry) : List Byte := xorBytes (slice x.half 0x10 32) (slice x.half 0x30 32)

/-- The stored key of an entry: native, or formed by the forerunner's scheme (R554, R556). -/
def keyStored (s : State) (e : Nat) : List Byte :=
  if 56 ≤ e ∧ e ≤ 63 then
    let b := slice (keyEntry s e).half 0x10 32
    let m := keyNative (keyEntry s 0x48)
    (List.range 32).map (fun i => nth b ((11 * i + 5) % 32) 0 ^^^ nth m i 0)
  else keyNative (keyEntry s e)

/-- Bytes of ASCII text. -/
def ascii (t : List Char) : List Byte := t.map (fun c => BitVec.ofNat 8 c.toNat)

/-- The first 16 or 32 bytes of a key, by its type. -/
def keyCut (type : Nat) (k : List Byte) : List Byte := k.take (if type = 0 then 16 else 32)

/-- R562: the effective key of a slot at this moment. -/
def keyEffective (s : State) (e : Nat) : List Byte :=
  let x := (keyEntry s e).ptr
  let k := keyStored s e
  if x.mask = 0 then keyCut x.type k
  else
    let salt := sha384 (((List.range 8).filter (fun i => bit x.mask i)).flatMap (fun i => nth s.key.ma i []))
    let prk := hmac384 salt k
    keyCut x.type (hmac384 prk (ascii ['D', 'X', 'K', 'Y'] ++ leBytes 1 e ++ leBytes 1 x.type ++ leBytes 1 x.attr ++ [1#8]))

/-- R552: a slot serves an operation of one attribute. -/
def keyServes (s : State) (e attr : Nat) : Bool := decide (e < 64) && keyLoaded s e && (keyEntry s e).ptr.attr == attr

/-! ### Accumulators (R561, R563) -/

/-- Extend MA_i with a value of 48 bytes. -/
def maExtend (i : Nat) (v : List Byte) (s : State) : State :=
  let k := s.key
  let entry := leBytes 1 i ++ List.replicate 3 0#8 ++ leBytes 4 (s.pwr.tick % 2 ^ 32) ++ leBytes 4 s.mgt.cal.seconds ++
    List.replicate 4 0#8 ++ fit 0#8 48 v
  let full := decide (64 ≤ k.maLog.length)
  setKey { k with
    ma := setNth k.ma i (sha384 (nth k.ma i [] ++ v)),
    maCnt := setNth k.maCnt i (satInc 8 (nth k.maCnt i 0)),
    maLog := if full then k.maLog else k.maLog ++ [entry],
    logFull := k.logFull || full } s

/-! ### Entry writes (R557, R558) -/

/-- The bytes of a half (R554). -/
def keyHalf (e : Nat) (p : KeyPtr) (body : List Byte) : List Byte :=
  let h := ascii ['D', 'X', 'K', 'H'] ++ leBytes 1 e ++ leBytes 1 p.type ++ leBytes 1 p.attr ++ leBytes 1 p.flags ++
    leBytes 1 p.mask ++ List.replicate 3 0#8 ++ leBytes 4 p.gen ++ fit 0#8 104 body ++ List.replicate 4 0#8
  h ++ wordBytes (crc32c h)

/-- The payload of a pointer record (R557). -/
def keyPtrBytes (p : KeyPtr) : List Byte :=
  leBytes 1 p.half ++ leBytes 1 p.st ++ leBytes 1 p.type ++ leBytes 1 p.attr ++ leBytes 1 p.flags ++ leBytes 1 p.mask ++
    List.replicate 2 0#8 ++ leBytes 4 p.gen ++ leBytes 4 p.crc ++ leBytes 4 p.maskTime ++ List.replicate 4 0#8

/-- A pointer from the payload of its record. -/
def keyPtrOf (b : List Byte) : KeyPtr :=
  ⟨u8 b 0, u8 b 1, u8 b 2, u8 b 3, u8 b 4, u8 b 5, u32 b 8, u32 b 0xC, u32 b 0x10⟩

/-- The payload of the record of instance 0x49 (R557).
An epoch that waits for its record (R104) is in every record written from then on. -/
def keyCtrBytes (s : State) : List Byte :=
  leBytes 8 s.key.ctr ++ leBytes 4 (max s.key.epochHigh (s.slk.epochWait.getD 0)) ++ List.replicate 4 0#8

/-- R575: the counter increases by 1, which writes its record (R557).
DESIGN CHOICE (log entry 107): a power-fail warning does not stop the record, and until it is durable the key store is busy, so
that no statement carries a value that a loss of power could bring back. -/
def keyCount (s : State) : State :=
  let s1 := setKey { s.key with ctr := (s.key.ctr + 1) % 2 ^ 64, counting := true } s
  jnlRequest { kind := 9, inst := 0x49, payload := keyCtrBytes s1, owner := .keyCtr } s1

/-- The record of the counter's step is durable, or has failed. -/
def keyCounted (s : State) : State := setKey { s.key with counting := false } s

/-- R568, R576: a key command or an entry write runs; one runs until its step of the counter is durable. -/
def keyBusy (s : State) : Bool := s.key.wr.isSome || s.key.counting

/-- R558 steps 1 and 2: the new half goes into the half not in force, and the pointer record is asked for. -/
def keyWrite (e : Nat) (p : KeyPtr) (body : List Byte) (remask mailbox : Bool) (reply : List Byte) (s : State) : State :=
  let x := keyEntry s e
  let h := if x.ptr.half = 0 then 1 else 0
  let p1 := { p with half := h, st := 1, gen := (x.ptr.gen + 1) % 2 ^ 32,
                     maskTime := if s.mgt.cal.valid then s.mgt.cal.seconds else 0 }
  let bs := keyHalf e p1 body
  let p2 := { p1 with crc := u32 bs 0x7C }
  let s1 := setKeyEntry e (if h = 0 then { x with half0 := bs } else { x with half1 := bs }) s
  let s2 := setKey { s1.key with wr := some ⟨e, p2, remask, false, mailbox, reply, getReg s Reg.HIF_MB_SEQ⟩ } s1
  jnlRequest { kind := 9, inst := e, payload := keyPtrBytes p2, owner := .key e } (if mailbox then mbHold s2 else s2)

/-- The generation that a write of an entry will give, as a reply. -/
def keyNextGen (s : State) (e : Nat) : List Byte := leBytes 4 (((keyEntry s e).ptr.gen + 1) % 2 ^ 32)

/-- R558: a destroy first asks for a pointer with state 0. -/
def keyDestroy (e : Nat) (mailbox : Bool) (s : State) : State :=
  let p := { (keyEntry s e).ptr with st := 0 }
  let s1 := setKey { s.key with wr := some ⟨e, p, false, true, mailbox, [], getReg s Reg.HIF_MB_SEQ⟩ } s
  jnlRequest { kind := 9, inst := e, payload := keyPtrBytes p, owner := .key e } (if mailbox then mbHold s1 else s1)

/-- A native key as a half's body: two shares of which one is random. -/
def keyShares (k r : List Byte) : List Byte := xorBytes k r ++ r

/-- R558 step 3, or the end of a destroy: the pointer record is durable (or has failed, result 5). -/
def keyDurable (ok : Bool) (s : State) : State :=
  match s.key.wr with
  | none => s
  | some w =>
    let s1 := setKey { s.key with wr := none } s
    if ok then
      let x := keyEntry s1 w.entry
      let x1 :=
        if w.destroy then { x with ptr := w.ptr, half0 := [], half1 := [], damaged := false }
        else if w.ptr.half = 0 then { x with ptr := w.ptr, half1 := [], damaged := false, maskTick := s.pwr.tick }
        else { x with ptr := w.ptr, half0 := [], damaged := false, maskTick := s.pwr.tick }
      let s2 := setKeyEntry w.entry x1 s1
      let s3 :=
        if w.remask then
          setKey { s2.key with round := s2.key.round.filter (· != w.entry) } (incFld Reg.KEY_REMASK 31 16 s2)
        else
          causeS Reg.KEY_CAUSE (if 0x40 ≤ w.entry ∧ w.entry ≤ 0x47 then 5 else 4) w.entry (keyCount s2)
      if w.mailbox then mbLate w.tag 0 w.reply s3 else s3
    else
      let s2 := causeS Reg.KEY_CAUSE 6 w.entry (setKey { s1.key with round := s1.key.round.filter (· != w.entry) } s1)
      if w.mailbox then mbLate w.tag 5 [] s2 else s2

/-! ### Command conditions (R568) -/

/-- Accepted in every state except BOOT. -/
def okNotBoot (s : State) : Bool := s.dev.mode != .boot && !s.mgt.recovery

/-- Key-changing: HOLD and READY, and RUN, STANDBY and SAFE with the MGT bit of host_write_mask; never in recovery. -/
def okKeyChange (s : State) : Bool :=
  okNotBoot s && (s.dev.mode == .hold || s.dev.mode == .ready || writeMaskBit s 14)

/-- Run a key command: result 1 while another key command or a re-mask runs. -/
def keyDo (code : Nat) (ok : State → Bool) (f : List Byte → State → State) (s : State) : Result :=
  mbDo code ok (fun r s => if keyBusy s then mbReply 1 [] s else f r s) s

/-- R551: the attributes of a native key for slot `e`. -/
def keyAttrsOk (e type attr flags : Nat) : Bool :=
  decide (e < 56) && decide (type ≤ 2) && decide (1 ≤ attr ∧ attr ≤ 4) && (type != 2 || attr == 4) && decide (flags ≤ 1) &&
    (flags == 0 || decide (e ≤ 3))

/-- A key of a type: AES-128 keeps bytes 16 to 31 zero (R551). -/
def keyOfType (type : Nat) (k : List Byte) : List Byte := if type = 0 then k.take 16 ++ List.replicate 16 0#8 else k.take 32

/-- Write a native key with fresh shares. -/
def keyLoad (e type attr flags mask : Nat) (k : List Byte) (reply : List Byte) (s : State) : State :=
  let (r, s1) := keyRandom s
  keyWrite e { type := type, attr := attr, flags := flags, mask := mask } (keyShares (keyOfType type k) r) false true reply s1

/-- The KCV of a slot (R568): 4 bytes of CMAC over zeros under the effective key; open for an entry that holds no key. -/
def keyKcv (s : State) (e : Nat) : List Byte × State :=
  if e < 64 ∧ keyLoaded s e then ((aesCmac (keyEffective s e) (List.replicate 16 0#8)).take 4, s)
  else
    let (n, s1) := fresh s
    (wordBytes (Config.freeWord n), s1)

/-! ### Meanings: information and generation -/

/-- What KEY_INFO does with its request. -/
def keyInfoDo (r : List Byte) (s : State) : State :=
  let e := u8 r 0
  if r.length ≠ 1 ∨ 0x48 < e then mbReply 3 [] s
  else
    let p := (keyEntry s e).ptr
    let (kcv, s1) := keyKcv s e
    mbReply 0 (leBytes 1 (if keyHidden s e then 0 else p.st) ++ leBytes 1 p.type ++ leBytes 1 p.attr ++ leBytes 1 p.flags ++ leBytes 1 p.mask ++
      leBytes 4 p.gen ++ kcv ++ leBytes 4 p.maskTime) s1

/-- KEY_INFO. -/
def execKeyInfo (s : State) : Result := keyDo 0x40 okNotBoot keyInfoDo s

/-- What KEY_GENERATE does with its request. -/
def keyGenerateDo (r : List Byte) (s : State) : State :=
  if r.length ≠ 5 ∨ ¬ keyAttrsOk (u8 r 0) (u8 r 1) (u8 r 2) (u8 r 3) then mbReply 3 [] s
  else if !s.key.rngOk then mbReply 2 [] s
  else
    let (k, s1) := keyRandom s
    keyLoad (u8 r 0) (u8 r 1) (u8 r 2) (u8 r 3) (u8 r 4) k (keyNextGen s (u8 r 0)) s1

/-- KEY_GENERATE: a freshly drawn key. -/
def execKeyGenerate (s : State) : Result := keyDo 0x41 okKeyChange keyGenerateDo s

/-- What KEY_IMPORT does with its request. -/
def keyImportDo (r : List Byte) (s : State) : State :=
  let e := u8 r 0
  let w := u8 r 1
  if r.length ≠ 50 ∨ 56 ≤ e then mbReply 3 [] s
  else if !keyServes s w 3 || !s.key.rngOk then mbReply 2 [] s
  else
    match aesUnwrap (keyEffective s w) (r.drop 2) with
    | none => mbReply 4 [] (causeS Reg.KEY_CAUSE 3 e s)
    | some b =>
      if u8 b 4 ≠ e then mbReply 4 [] (causeS Reg.KEY_CAUSE 3 e s)
      else if !keyAttrsOk e (u8 b 0) (u8 b 1) (u8 b 2) then mbReply 3 [] s
      else keyLoad e (u8 b 0) (u8 b 1) (u8 b 2) (u8 b 3) (b.drop 8) (keyNextGen s e) s

/-- KEY_IMPORT: a key blob under a wrap-only slot (R569). -/
def execKeyImport (s : State) : Result := keyDo 0x42 okKeyChange keyImportDo s

/-- What KEY_DERIVE does with its request. -/
def keyDeriveDo (r : List Byte) (s : State) : State :=
  let e := u8 r 0
  let src := u8 r 1
  let n := u8 r 10
  let exp := decide (u8 r 4 = 0) || bit (keyEntry s src).ptr.flags 0
  if r.length ≠ 11 + n ∨ 64 < n ∨ u8 r 6 ≠ e ∨ ¬ keyAttrsOk e (u8 r 2) (u8 r 3) (u8 r 4) then mbReply 3 [] s
  else if !keyServes s src 4 || !s.key.rngOk then mbReply 2 [] s
  else if !exp then mbReply 3 [] s
  else
    keyLoad e (u8 r 2) (u8 r 3) (u8 r 4) (u8 r 5) (hkdf384 [] (keyEffective s src) (r.drop 11) 32) (keyNextGen s e) s

/-- KEY_DERIVE: HKDF-SHA-384 from a derive-only source (R569). -/
def execKeyDerive (s : State) : Result := keyDo 0x43 okKeyChange keyDeriveDo s

/-- The 8-byte header of a key blob (R569). -/
def keyBlobHead (s : State) (e : Nat) : List Byte :=
  let p := (keyEntry s e).ptr
  leBytes 1 p.type ++ leBytes 1 p.attr ++ leBytes 1 p.flags ++ leBytes 1 p.mask ++ leBytes 1 e ++ List.replicate 3 0#8

/-- What KEY_EXPORT does with its request. -/
def keyExportDo (r : List Byte) (s : State) : State :=
  let e := u8 r 0
  let w := u8 r 1
  if r.length ≠ 2 then mbReply 3 [] s
  else if !(decide (e < 64) && keyLoaded s e && bit (keyEntry s e).ptr.flags 0) || !keyServes s w 3 then mbReply 2 [] s
  else mbReply 0 (aesWrap (keyEffective s w) (keyBlobHead s e ++ keyStored s e)) s

/-- KEY_EXPORT: an exportable key wrapped under a wrap-only slot, in HOLD and READY. -/
def execKeyExport (s : State) : Result := keyDo 0x44 (fun s => okNotBoot s && (s.dev.mode == .hold || s.dev.mode == .ready)) keyExportDo s

/-- What KEY_DESTROY does with its request; a slot that is empty or damaged answers 2 (R552). -/
def keyDestroyDo (r : List Byte) (s : State) : State :=
  let e := u8 r 0
  if r.length ≠ 1 ∨ (64 ≤ e ∧ e ≠ 0x48) then mbReply 3 [] s
  else if !keyLoaded s e then mbReply 2 [] s
  else keyDestroy e true s

/-- KEY_DESTROY: an empty pointer is made durable, then both halves are zeroised (R558). -/
def execKeyDestroy (s : State) : Result := keyDo 0x45 okKeyChange keyDestroyDo s

/-- A native entry that holds a key: a slot up to KS55 or the site mask. -/
def keyMaskable (s : State) (e : Nat) : Bool :=
  (decide (e < 56) || e == 0x48) && (keyEntry s e).ptr.st == 1 && !(keyEntry s e).damaged

/-- All entries that can be re-masked, ascending. -/
def keyMaskables (s : State) : List Nat := (List.range 0x49).filter (fun e => keyMaskable s e)

/-- What KEY_REMASK does with its request: entries that a running round has still to do stay in it. -/
def keyRemaskDo (r : List Byte) (s : State) : State :=
  let e := u8 r 0
  if r.length ≠ 1 ∨ (e ≠ 0xFF ∧ ¬ (e < 56 ∨ e = 0x48)) then mbReply 3 [] s
  else if !s.key.rngOk then mbReply 2 [] s
  else if e = 0xFF then mbReply 0 [] (setKey { s.key with round := keyMaskables s } s)
  else if !keyMaskable s e then mbReply 2 [] s
  else mbReply 0 [] (setKey { s.key with round := (keyMaskables s).filter (fun x => x == e || s.key.round.contains x) } s)

/-- KEY_REMASK: start a round of one entry or all at once (R555). -/
def execKeyRemask (s : State) : Result := keyDo 0x46 okNotBoot keyRemaskDo s

/-- The re-mask period in hours (R64, R555): 24 in HOLD, and 0 selects 24. -/
def remaskHours (s : State) : Nat :=
  let h := (theTt s).security.remaskHours
  if s.dev.tt.isNone ∨ h = 0 then 24 else h

/-- An entry's period has passed: by the calendar, or by the tick since boot while the calendar is not valid (R555). -/
def keyDue (s : State) (e : Nat) : Bool :=
  let x := keyEntry s e
  if s.mgt.cal.valid then decide (x.ptr.maskTime + remaskHours s * 3600 ≤ s.mgt.cal.seconds)
  else decide (remaskHours s * 3600 * 1024 + max s.key.bootTick x.maskTick ≤ s.pwr.tick)

/-- REMASK_DUE: the first entry of a round, or the first due entry, is re-masked with a fresh r (R555). -/
def execRemaskDue (s : State) : Result :=
  let first := (s.key.round.filter (fun e => keyMaskable s e)).head?.orElse
    (fun _ => ((keyMaskables s).filter (fun e => keyDue s e)).head?)
  match first with
  | none => .next s
  | some e =>
    if keyBusy s ∨ s.dev.mode = .boot ∨ ¬ s.key.rngOk then .next s
    else
      let x := keyEntry s e
      let (r, s1) := keyRandom s
      .next (keyWrite e x.ptr (xorBytes (slice x.half 0x10 32) r ++ xorBytes (slice x.half 0x30 32) r) true false [] s1)

/-- What COMPAT_MASK does with its request. -/
def compatMaskDo (r : List Byte) (s : State) : State :=
  let w := u8 r 0
  if r.length ≠ 49 then mbReply 3 [] s
  else if !keyServes s w 3 || !s.key.rngOk then mbReply 2 [] s
  else
    match aesUnwrap (keyEffective s w) (r.drop 1) with
    | none => mbReply 4 [] (causeS Reg.KEY_CAUSE 3 0x48 s)
    | some b =>
      if u8 b 0 ≠ 2 then mbReply 3 [] s
      else keyLoad 0x48 2 (u8 b 1) 0 0 (b.drop 8) [] s

/-- COMPAT_MASK: unwrap and load the site mask, a blob of type 2 (R556, R568). -/
def execCompatMask (s : State) : Result := keyDo 0x47 okKeyChange compatMaskDo s

/-- What COMPAT_LOAD does with its request. -/
def compatLoadDo (r : List Byte) (s : State) : State :=
  let e := u8 r 0
  let a := u32 r 33
  if r.length ≠ 37 ∨ ¬ (56 ≤ e ∧ e ≤ 63) ∨ 16 ≤ a ∨ a % 8 = 0 ∨ 4 < a % 8 then mbReply 3 [] s
  else
    keyWrite e { type := a / 8, attr := a % 8 } (r.drop 1) false true (keyNextGen s e) s

/-- COMPAT_LOAD: a VX-300 blob and its attribute word, exactly as given (R556). -/
def execCompatLoad (s : State) : Result := keyDo 0x48 okKeyChange compatLoadDo s

/-! ### Meanings: accumulators -/

/-- What MA_EXTEND does with its request. -/
def maExtendDo (r : List Byte) (s : State) : State :=
  let i := u8 r 0
  if r.length ≠ 49 ∨ ¬ (5 ≤ i ∧ i ≤ 7) then mbReply 3 [] s
  else
    let s1 := maExtend i (r.drop 1) s
    mbReply 0 (nth s1.key.ma i []) s1

/-- MA_EXTEND: extend MA5 to MA7 with a host value. -/
def execMaExtend (s : State) : Result := keyDo 0x49 okNotBoot maExtendDo s

/-- What MA_READ does with its request. -/
def maReadDo (_r : List Byte) (s : State) : State :=
  mbReply 0 (s.key.ma.flatten ++ s.key.maCnt.map (fun n => BitVec.ofNat 8 n)) s

/-- MA_READ: the eight accumulators and their counts. -/
def execMaRead (s : State) : Result := keyDo 0x4A okNotBoot maReadDo s

/-- What MA_LOG does with its request. -/
def maLogDo (r : List Byte) (s : State) : State :=
  let a := u8 r 0
  let n := u8 r 1
  if r.length ≠ 2 ∨ n = 0 ∨ 63 < n then mbReply 3 [] s
  else if s.key.maLog.length < a + n then mbReply 8 [] s
  else mbReply 0 (slice s.key.maLog a n).flatten s

/-- MA_LOG: extension log entries; result 8 where the log has none. -/
def execMaLog (s : State) : Result := keyDo 0x4B okNotBoot maLogDo s

/-! ### Meanings: encryption and station keys -/

/-- What ENCRYPT does with its request. -/
def encryptDo (r : List Byte) (s : State) : State :=
  let e := u8 r 0
  let n := u16 r 1
  if r.length < 3 + n ∨ 256 < n ∨ 3584 < r.length - 3 - n then mbReply 3 [] s
  else if !keyServes s e 1 || !s.key.rngOk then mbReply 2 [] s
  else
    let (x, s1) := keyRandom s
    let iv := x.take 12
    let (c, t) := gcmEnc (keyEffective s e) iv (slice r 3 n) (r.drop (3 + n))
    mbReply 0 (iv ++ c ++ t) s1

/-- ENCRYPT: AES-GCM with a drawn IV (R570). The request is slot (1), AAD length (2), AAD, data. -/
def execEncrypt (s : State) : Result := keyDo 0x4C okNotBoot encryptDo s

/-- What DECRYPT does with its request. -/
def decryptDo (r : List Byte) (s : State) : State :=
  let e := u8 r 0
  let n := u16 r 1
  let b := r.drop (3 + n)
  if r.length < 3 + n + 28 ∨ 256 < n ∨ 3584 < b.length - 28 then mbReply 3 [] s
  else if !keyServes s e 2 then mbReply 2 [] s
  else
    match gcmDec (keyEffective s e) (b.take 12) (slice r 3 n) (slice b 12 (b.length - 28)) (b.drop (b.length - 16)) with
    | some m => mbReply 0 m s
    | none => mbReply 4 [] s

/-- DECRYPT: AES-GCM; result 4 when the tag does not hold (R568). -/
def execDecrypt (s : State) : Result := keyDo 0x4D okNotBoot decryptDo s

/-- R564: the base key of station `st` on port `p` under a master key. -/
def stationKey (km : List Byte) (st p : Nat) : List Byte :=
  aesCmac km (ascii ['D', 'X', 'S', 'T'] ++ leBytes 2 st ++ leBytes 1 p ++ List.replicate 9 0#8)

/-- What STATION_KEY does with its request. -/
def stationKeyDo (r : List Byte) (s : State) : State :=
  let m := u8 r 0
  let st := u16 r 1
  let p := u8 r 3
  let w := u8 r 4
  if r.length ≠ 5 ∨ 2048 ≤ st ∨ 8 ≤ p then mbReply 3 [] s
  else if !keyServes s m 4 || (keyEntry s m).ptr.type != 1 || !keyServes s w 3 then mbReply 2 [] s
  else
    let head := [0#8] ++ (List.range 4).map Config.ksHeader ++ List.replicate 3 0#8
    mbReply 0 (aesWrap (keyEffective s w) (head ++ stationKey (keyEffective s m) st p)) s

/-- STATION_KEY: a station base key, wrapped (R564, R569). -/
def execStationKey (s : State) : Result := keyDo 0x4E okKeyChange stationKeyDo s

/-! ### Meanings: attestation and signers -/

/-- Which signers hold a key, as bits (R576); S0 always does. -/
def signerBits (s : State) : Nat :=
  if s.key.ready then
    1 + (List.range 7).foldl (fun acc i => acc + (if keyLoaded s (0x41 + i) then 2 ^ (i + 1) else 0)) 0
  else 0

/-- A signer's role bits (1 firmware, 2 timetable) and public key; none when empty or damaged (R565). -/
def signer (s : State) (i : Nat) : Option (Nat × List Byte) :=
  if i = 0 then some (1, Config.signer0)
  else if i < 8 ∧ keyLoaded s (0x40 + i) then
    some ((keyEntry s (0x40 + i)).ptr.attr, slice (keyEntry s (0x40 + i)).half 0x10 97)
  else none

/-- R565: a timetable signing key is provisioned.
DESIGN CHOICE (log entry 88): a damaged entry is not provisioned. -/
def ttSigner (s : State) : Bool :=
  (List.range 8).any (fun i => match signer s i with
    | some x => bit x.1 1
    | none => false)

/-- R565: a signature verifies under the signer named, which must hold the role. -/
def signerVerify (s : State) (i role : Nat) (digest r sg : List Byte) : Bool :=
  match signer s i with
  | some x => bit x.1 role && ecdsaVerify x.2 digest r sg
  | none => false

/-- The damaged entries. -/
def keyAnyDamaged (s : State) : Bool := s.key.entries.any (fun x => x.2.damaged)

/-- The attestation statement (R572). -/
def attestStatement (s : State) (nonce : List Byte) (otherVersion fwVersion : Word) : List Byte :=
  let t := theTt s
  let sec := b2n (secFlag s 1) + 2 * b2n (ttSigner s) + 4 * b2n s.mgt.trial + 8 * b2n s.mgt.recovery +
    16 * b2n (secFlag s 0) + 32 * b2n s.mgt.cal.valid +
    64 * b2n ((List.range 8).any (fun i => keyLoaded s (56 + i))) + 128 * b2n (keyAnyDamaged s)
  let floor := match s.mgt.fwPtr with
    | some p => p.2.2.2.2
    | none => 0
  ascii ['D', 'X', 'A', 'T'] ++ leBytes 2 1 ++ leBytes 2 0x7512 ++ leBytes 1 1 ++ leBytes 1 sec ++ leBytes 2 0 ++
    (List.range 4).flatMap (fun i => wordBytes (Config.uid i)) ++ wordBytes fwVersion ++ leBytes 2 s.mgt.fwSvn ++
    leBytes 2 floor ++ wordBytes otherVersion ++ s.key.ma.flatten ++
    fit 0#8 48 t.digest ++ wordBytes t.serial ++ leBytes 1 (modeCode s.dev.mode) ++ leBytes 1 s.dev.activeSlot ++
    leBytes 2 0 ++ leBytes 8 s.key.ctr ++ leBytes 4 s.mgt.cal.seconds ++ leBytes 2 s.mgt.cal.frac ++
    leBytes 2 (b2n s.mgt.cal.valid) ++ fit 0#8 32 nonce ++ s.key.maCnt.map (fun n => BitVec.ofNat 8 n)

/-- What ATTEST does with its request. -/
def attestDo (r : List Byte) (s : State) : State :=
  if r.length ≠ 32 then mbReply 3 [] s
  else if !s.key.rngOk then mbReply 2 [] s
  else
    let ver := if s.mgt.fwSlot = 0 then getReg s Reg.MGT_FW_VERA else getReg s Reg.MGT_FW_VERB
    let oth := if s.mgt.fwSlot = 0 then getReg s Reg.MGT_FW_VERB else getReg s Reg.MGT_FW_VERA
    let st := attestStatement s r oth ver
    let (k1, s1) := keyRandom s
    let (k2, s2) := keyRandom s1
    let sg := ecdsaSign (Config.identityKey % (ecN - 1) + 1) (beNat (k1 ++ k2)) (sha384 st)
    mbReply 0 (st ++ sg.1 ++ sg.2) s2

/-- ATTEST: a signed statement over the host's nonce (R571 to R574). -/
def execAttest (s : State) : Result := keyDo 0x50 (fun s => okNotBoot s && (s.dev.mode == .hold || secFlag s 0)) attestDo s

/-- What IDENTITY does with its request. -/
def identityDo (_r : List Byte) (s : State) : State :=
  let c := Config.certificate.take 2048
  mbReply 0 (ecPubOf Config.identityKey ++ leBytes 2 c.length ++ c) s

/-- IDENTITY: the identity public key and certificate (R571). -/
def execIdentity (s : State) : Result := keyDo 0x51 okNotBoot identityDo s

/-- What SIGNER_SET does with its request. -/
def signerSetDo (r : List Byte) (s : State) : State :=
  let i := u8 r 0
  let role := u8 r 1
  let k := slice r 2 97
  let e := 0x40 + i
  let clear := zeros k 0 97
  let auth := u8 r 99
  if r.length ≠ 196 ∨ i = 0 ∨ 7 < i ∨ 3 < role ∨ (role = 0 ∧ ¬ clear) then mbReply 3 [] s
  else if (keyEntry s e).ptr.st = 0 then
    if s.dev.mode ≠ .hold then mbReply 2 [] s
    else if clear || (ecPub k).isNone then mbReply 3 [] s
    else keyWrite e { attr := role } k false true [] s
  else
    let msg := ascii ['D', 'X', 'S', 'G'] ++ leBytes 1 i ++ leBytes 1 role ++ k ++ leBytes 8 s.key.ctr
    let old := (keyEntry s e).ptr.attr
    let shares := match signer s auth with
      | some x => (bit x.1 0 && bit old 0) || (bit x.1 1 && bit old 1)
      | none => false
    let okSig := match signer s auth with
      | some x => ecdsaVerify x.2 (sha384 msg) (slice r 100 48) (slice r 148 48)
      | none => false
    if !shares || !okSig then mbReply 4 [] (causeS Reg.KEY_CAUSE 3 e s)
    else if clear then keyDestroy e true s
    else if (ecPub k).isNone then mbReply 3 [] s
    else keyWrite e { attr := role } k false true [] s

/-- SIGNER_SET: write an empty entry in HOLD, or replace or clear one under an authorising signature (R566). -/
def execSignerSet (s : State) : Result := keyDo 0x52 okNotBoot signerSetDo s

/-- What SIGNER_INFO does with its request. -/
def signerInfoDo (r : List Byte) (s : State) : State :=
  if r.length ≠ 1 ∨ 8 ≤ u8 r 0 then mbReply 3 [] s
  else
    match signer s (u8 r 0) with
    | some x => mbReply 0 (leBytes 1 x.1 ++ fit 0#8 97 x.2) s
    | none => mbReply 8 [] s

/-- SIGNER_INFO: a signer's role and key; result 8 when empty. -/
def execSignerInfo (s : State) : Result := keyDo 0x53 okNotBoot signerInfoDo s

/-- RNG_HEALTH_FAIL: the entropy source fails its health test (R567). -/
def execRngHealthFail (s : State) : Result :=
  .next (cause Reg.KEY_CAUSE 2 (setKey { s.key with rngOk := false } s))

/-- RNG_RESEED: a reseed ends the refusals (R567). -/
def execRngReseed (s : State) : Result := .next (setKey { s.key with rngOk := true } s)

/-- KEY_CTR_LO_READ: the read latches KEY_CTR_HI (R577). -/
def keyCtrLoRead (s : State) : Word × State :=
  (BitVec.ofNat 32 s.key.ctr, setReg Reg.KEY_CTR_HI (BitVec.ofNat 32 (s.key.ctr / 2 ^ 32)) s)

/-- R576: a re-mask round is running: an entry is being re-masked, or waits in a round. -/
def keyRemasking (s : State) : Bool :=
  s.key.round.any (fun e => keyMaskable s e) ||
    (match s.key.wr with
     | some w => w.remask
     | none => false)

/-- R576: KEY_STAT as read. -/
def keyStat (s : State) : Word :=
  BitVec.ofNat 32 (b2n s.key.ready + 2 * b2n (keyBusy s) + 4 * b2n (keyRemasking s) + 8 * b2n s.key.rngOk +
    16 * b2n s.key.logFull + 32 * b2n (keyLoaded s 0x48) + 256 * signerBits s)

/-- R577: bit b of a slot word: slot 32k + b satisfies `p`. -/
def slotWord (p : Nat → Bool) (k : Nat) : Word :=
  (List.range 32).foldl (fun w b => if p (32 * k + b) then w ||| bitMask b else w) 0#32

/-! ### Boot (R559) -/

/-- R559: check one entry against its latest pointer record. -/
def keyBootEntry (e : Nat) (s : State) : State :=
  let x := keyEntry s e
  let p := (jnlLatest s 9 e).map keyPtrOf
  match p with
  | none =>
    let stray := !(x.half0.all (· == 0) && x.half1.all (· == 0))
    let s1 := setKeyEntry e { x with half0 := [], half1 := [], ptr := {}, damaged := false, maskTick := 0 } s
    if stray then causeS Reg.KEY_CAUSE 1 e s1 else s1
  | some p =>
    if p.st = 0 then
      let stray := !(x.half0.all (· == 0) && x.half1.all (· == 0))
      let s1 := setKeyEntry e { x with half0 := [], half1 := [], ptr := p, damaged := false, maskTick := 0 } s
      if stray then causeS Reg.KEY_CAUSE 1 e s1 else s1
    else
      let h := fit 0#8 128 (if p.half = 0 then x.half0 else x.half1)
      let other := if p.half = 0 then x.half1 else x.half0
      let good := slice h 0 4 == ascii ['D', 'X', 'K', 'H'] && u32 h 0x7C == (crc32c (h.take 0x7C)).toNat && u32 h 0x7C == p.crc
      if good then
        let x1 := if p.half = 0 then { x with half1 := [] } else { x with half0 := [] }
        let s1 := setKeyEntry e { x1 with ptr := p, damaged := false, maskTick := 0 } s
        if other.all (· == 0) then s1 else causeS Reg.KEY_CAUSE 1 e s1
      else causeS Reg.KEY_CAUSE 0 e (setKeyEntry e { x with ptr := p, damaged := true, maskTick := 0 } s)

/-- The key store at boot: counter and epoch from their record, every entry checked, the counter stepped (R557, R559,
R575). The journal has been recovered. -/
def keyBoot (s : State) : State :=
  let rec49 := (jnlLatest s 9 0x49).getD []
  let s1 := setKey { s.key with
    ctr := u64 rec49 0, epochHigh := u32 rec49 8, wr := none, round := [], counting := false, rngOk := true, bootTick := s.pwr.tick } s
  let s2 := forN 0x49 s1 keyBootEntry
  let s3 := setKey { s2.key with ctr := (s2.key.ctr + 1) % 2 ^ 64, ready := true } s2
  jnlWriteNow 9 0x49 (keyCtrBytes s3) s3

/-- The key store at step 1 of R413: accumulators, counts and log are cleared. -/
def keyClear (s : State) : State :=
  setKey { s.key with
    ma := List.replicate 8 (List.replicate 48 0), maCnt := List.replicate 8 0, maLog := [], logFull := false,
    wr := none, counting := false, round := [], ready := false, rngOk := false } s

end Sys2Proof.Machine
end

