-- ==== Sys2Proof/Machine/Mgt.lean ====
section
/-! DEFINITION. The management subsystem's clocks and recorder: calendar time (R532 to R535), health (R531), the event
recorder's flushes, buckets, summaries and scan (R540 to R542), and the requests of the snap strobe (R543, R544). -/

namespace Sys2Proof.Machine

/-- Replace the calendar. -/
def setCal (c : CalState) (s : State) : State := { s with mgt := { s.mgt with cal := c } }
/-- Replace the recorder. -/
def setEvr (e : EvrState) (s : State) : State := { s with mgt := { s.mgt with evr := e } }

/-- The key that commands with a key field need. -/
def theKey : Nat := 0xC0DE

/-! ### Calendar -/

/-- R535: the leap setting: UTC day and kind (0 none, 1 insert, 2 delete). -/
def leapSet (s : State) : Nat × Nat := (getFld s Reg.MGT_CAL_LEAP 15 0, getFld s Reg.MGT_CAL_LEAP 17 16)

/-- R535, R546: a leap second is set for today. -/
def leapPending (s : State) : Bool :=
  let l := leapSet s
  s.mgt.cal.valid && (l.2 == 1 || l.2 == 2) && s.mgt.cal.seconds / 86400 == l.1

/-- R535: the end of the leap day: MGT_CAL_LEAP is cleared and the event recorded. -/
def leapEnd (s : State) : State :=
  let l := leapSet s
  evRaise 0xE081 0 (BitVec.ofNat 32 l.1) (BitVec.ofNat 32 l.2) (setReg Reg.MGT_CAL_LEAP 0 s)

/-- R535: the leap that the calendar has come to is performed: an inserted second keeps the seconds value for one further
second; a deletion passes to the next day, which ends the leap day; with the setting taken back meanwhile neither is. -/
def leapDo (s : State) : State :=
  let c := s.mgt.cal
  let l := leapSet s
  match l.2 with
  | 1 => setCal { c with leapNow := true, leapDone := false } s
  | 2 => leapEnd (setCal { c with seconds := (l.1 * 86400 + 86400) % 2 ^ 32, leapDone := false } s)
  | _ => setCal { c with seconds := (c.seconds + 1) % 2 ^ 32, leapDone := false } s

/-- R535: the second that now ends is the one that an inserted second follows, or that a deletion ends the day with. -/
def leapAt (s : State) : Bool :=
  let c := s.mgt.cal
  let l := leapSet s
  c.valid && !c.leapNow && ((l.2 == 1 && c.seconds == l.1 * 86400 + 86399) || (l.2 == 2 && c.seconds == l.1 * 86400 + 86397))

/-- The calendar advances by `n` units of 1/65,536 s. At the end of a second that a leap follows the seconds are held, and the
row LEAP_SECOND performs the leap; one that has not come by the next advance is performed before it. An inserted second
ends the leap day. -/
def calForward (n : Nat) (s : State) : State :=
  let s0 := if s.mgt.cal.leapDone then leapDo s else s
  let c := s0.mgt.cal
  let f := c.frac + n
  if f < 65536 then setCal { c with frac := f } s0
  else if leapAt s0 then setCal { c with frac := f - 65536, leapDone := true } s0
  else
    let s1 := setCal { c with frac := f - 65536, seconds := (c.seconds + 1) % 2 ^ 32, leapNow := false } s0
    if c.leapNow then leapEnd s1 else s1

/-- The calendar goes back by one unit: from the start of an inserted second, or of a leap that is due, into the second
before it, which has the same seconds value.
DESIGN CHOICE (log entry 107): from the start of the day after a deletion it goes back into that day's second 86,399. -/
def calBack (s : State) : State :=
  let c := s.mgt.cal
  if 0 < c.frac then setCal { c with frac := c.frac - 1 } s
  else if c.leapNow ∨ c.leapDone then setCal { c with frac := 65535, leapNow := false, leapDone := false } s
  else setCal { c with frac := 65535, seconds := (c.seconds + 2 ^ 32 - 1) % 2 ^ 32 } s

/-- The calendar advances by 64 units at a tick (R406, chapter 16). -/
def calAdvance (s : State) : State := calForward 64 s

/-- The calendar as one number of units of 1/65,536 s. -/
def calUnits (c : CalState) : Int := (c.seconds * 65536 + c.frac : Nat)

/-- A number of units as seconds and fraction. -/
def calOfUnits (u : Int) : Nat × Nat :=
  let n := (u % ((2 ^ 48 : Nat) : Int)).toNat
  (n / 65536, n % 65536)

/-- R533: what a set command does at the boundary: slew within 1 s of a valid time, else step. The second component says
that the calendar stepped (which closes meter intervals and writes the metrological log). -/
def calSetApply (s : State) : State × Bool :=
  let c := { s.mgt.cal with setPending := false }
  let v : Int := ((getReg s Reg.MGT_CAL_SETSEC).toNat * 65536 + getFld s Reg.MGT_CAL_SETFRAC 15 0 : Nat)
  let diff := v - calUnits c
  if c.valid ∧ -65536 ≤ diff ∧ diff ≤ 65536 then (setCal { c with slew := diff, slewTick := 0 } s, false)
  else
    let p := calOfUnits v
    let s1 := setCal { c with seconds := p.1, frac := p.2, valid := true, slew := 0, slewTick := 0, stepped := true,
                              leapNow := false, leapDone := false } s
    (cause Reg.MGT_CAUSE 8 (incFld Reg.MGT_CAL_CNT 31 16 s1), true)

/-- The calendar's work at a tick boundary: advance, count the slew's ticks and the PPS timeout, apply an invalidate
and a set (R532, R533). -/
def calTick (s : State) : State × Bool :=
  let s1 := calAdvance s
  let c := s1.mgt.cal
  let s2 := setCal { c with slewTick := if c.slew = 0 then 0 else c.slewTick + 1, ppsTicks := c.ppsTicks + 1 } s1
  let s3 := if s2.mgt.cal.invPending then
      setCal { s2.mgt.cal with invPending := false, valid := false, slew := 0, slewTick := 0 } s2
    else s2
  if s3.mgt.cal.setPending then calSetApply s3 else (s3, false)

/-- CAL_SET: MGT_CAL_CMD 1 with its key (R533). -/
def execCalSet (key : Nat) (s : State) : Result :=
  if key = theKey then .next (setCal { s.mgt.cal with setPending := true } s) else .next s

/-- CAL_INVALIDATE: MGT_CAL_CMD 2 with its key (R532). -/
def execCalInvalidate (key : Nat) (s : State) : Result :=
  if key = theKey then .next (setCal { s.mgt.cal with invPending := true } s) else .next s

/-- CAL_SLEW_STEP: every 32 ticks of a slew one unit is added or withheld (R533). -/
def execCalSlewStep (s : State) : Result :=
  let c := s.mgt.cal
  if c.slew ≠ 0 ∧ 32 ≤ c.slewTick then
    let d : Int := if 0 < c.slew then 1 else -1
    let s1 := setCal { c with slew := c.slew - d, slewTick := c.slewTick - 32 } s
    .next (if 0 < c.slew then calForward 1 s1 else calBack s1)
  else .next s

/-- The error of a PPS edge `offUs` µs after the last tick boundary: calendar time minus the nearest whole second, in µs
(R534). -/
def ppsError (c : CalState) (offUs : Rat) : Rat :=
  let t : Rat := (c.frac : Rat) * 1000000 / 65536 + offUs
  if t ≤ 500000 then t else t - 1000000

/-- PPS_EDGE: a rising PPS_IN edge (R534). -/
def execPpsEdge (offUs : Rat) (s : State) : Result :=
  let c := s.mgt.cal
  if getBit s Reg.MGT_CAL_PPS 0 ∧ c.valid then
    let e := ppsError c offUs
    let s1 := setReg Reg.MGT_CAL_PPSERR (BitVec.ofInt 32 (Config.roundInt e)) s
    let near := decide (-100 ≤ e ∧ e ≤ 100)
    let good := if near then c.ppsGood + 1 else 0
    let c1 := { c with ppsTicks := 0, ppsGood := good, ppsLocked := near && (c.ppsLocked || decide (8 ≤ good)) }
    if -100000 ≤ e ∧ e ≤ 100000 then
      .next (setCal { c1 with slew := Config.roundInt (-e * 65536 / 1000000), slewTick := 0 } s1)
    else .next (cause Reg.MGT_CAUSE 9 (incFld Reg.MGT_CAL_CNT 15 0 (setCal c1 s1)))
  else .next s

/-- PPS_TIMEOUT: 4 s without an edge end PPS lock (R534). -/
def execPpsTimeout (s : State) : Result :=
  let c := s.mgt.cal
  if 4096 ≤ c.ppsTicks then .next (setCal { c with ppsLocked := false, ppsGood := 0 } s) else .next s

/-- LEAP_SECOND: the leap that the calendar has come to is performed (R535). -/
def execLeapSecond (s : State) : Result := .next (if s.mgt.cal.leapDone then leapDo s else s)

/-- CAL_SEC_READ: the read latches MGT_CAL_FRAC (R547). -/
def calSecRead (s : State) : Word × State :=
  let c := s.mgt.cal
  (BitVec.ofNat 32 c.seconds,
   setReg Reg.MGT_CAL_FRAC (BitVec.ofNat 32 (c.frac + 2 ^ 16 * b2n c.valid + 2 ^ 17 * b2n c.leapNow +
     2 ^ 18 * b2n (c.slew != 0) + 2 ^ 19 * b2n c.stepped)) s)

/-! ### Event recorder -/

/-- EVR_SEQ_LO_READ: the read latches MGT_EVR_SEQ_HI (R548). -/
def evrSeqLoRead (s : State) : Word × State :=
  (BitVec.ofNat 32 s.mgt.evr.seq, setReg Reg.MGT_EVR_SEQ_HI (BitVec.ofNat 32 (s.mgt.evr.seq / 2 ^ 32)) s)

/-- EVR_CTL_FLUSH: a write of MGT_EVR_CTL.flush (R540). -/
def execEvrCtlFlush (s : State) : Result := .next (evFlush false s)

/-- EVR_FLUSH_PERIOD: flush_period seconds have passed; 0 disables (R540, R548). -/
def execEvrFlushPeriod (s : State) : Result :=
  let p := getFld s Reg.MGT_EVR_CTL 11 0
  if 0 < p ∧ p * 1024 ≤ s.mgt.flushTicks then
    let s1 := evFlush false s
    .next { s1 with mgt := { s1.mgt with flushTicks := 0 } }
  else .next s

/-- EVR_BUCKET_REFILL: at every 1,024th tick each bucket gains rate units, up to rate × 3,600 (R541). -/
def execEvrBucketRefill (s : State) : Result :=
  if s.pwr.tick % 1024 = 0 then
    let up (rate : Nat) (b : Bucket) : Bucket := { b with tokens := min (rate * 3600) (b.tokens + rate) }
    let e := s.mgt.evr
    .next (setEvr { e with buckets := e.buckets.map (fun b => up (evRate s b.code) b),
                           overflow := up 600 e.overflow } s)
  else .next s

/-- The summary record of a bucket with an uncarried count (R541). -/
def evSummary (b : Bucket) (s : State) : State :=
  if b.suppressed = 0 then s
  else evRecord 0xE080 b.source (BitVec.ofNat 32 b.code) (BitVec.ofNat 32 b.suppressed) 64 0 s

/-- EVR_SUMMARY: at each whole hour of the seconds that records carry (R541). -/
def execEvrSummary (s : State) : Result :=
  if (stamp s).1 % 3600 = 0 then
    let s1 := forL (s.mgt.evr.buckets ++ [s.mgt.evr.overflow]) s evSummary
    let e := s1.mgt.evr
    .next (setEvr { e with buckets := e.buckets.map (fun b => { b with suppressed := 0 }),
                           overflow := { e.overflow with suppressed := 0 } } s1)
  else .next s

/-- R538: whether a record of 32 bytes is valid at the position of `seq`. -/
def evValid (r : List Byte) (seq : Nat) : Bool :=
  u8 r 0x1F == 0xA5 && u32 r 0x1B == (crc32c (r.take 0x1B)).toNat && leNat (slice r 8 6) == seq

/-- R542: the highest valid seq in the ring, found from the marks that the die holds. -/
def evScan (s : State) : Option Nat :=
  s.nv.foldl (fun best c =>
    if 0x03800000 ≤ c.1 ∧ c.1 < 0x04800000 ∧ c.1 % 32 = 31 ∧ c.2 = 0xA5#8 then
      let r := nvRead s (c.1 - 31) 32
      let q := leNat (slice r 8 6)
      if evValid r q && evPos q + 31 == c.1 then
        match best with
        | some b => some (max b q)
        | none => some q
      else best
    else best) none

/-- EVR_SCAN_DONE: the ring scan after a loss of VAO ends; direct records are written first, the others enter the buffer
(R542). -/
def execEvrScanDone (s : State) : Result :=
  if s.mgt.evr.scanning then
    let next := match evScan s with
      | some q => (q + 1) % 2 ^ 48
      | none => 0
    let w := s.mgt.evr.waiting
    let s1 := setEvr { s.mgt.evr with seq := next, ready := true, scanning := false, waiting := [] } s
    .next (forL (w.filter (·.1) ++ w.filter (fun x => !x.1)) s1 (fun x s => evStore x.1 x.2 s))
  else .next s

/-- R548: MGT_EVR_STAT as read. Records that wait for the scan wait in the event buffer (R542), and those that a flush has on
their way lie in it until they are written. -/
def evrStat (s : State) : Word :=
  let e := s.mgt.evr
  let going := (e.queue.filter evBuffered).length
  BitVec.ofNat 32 (b2n e.ready + 2 * b2n (going != 0) + 4 * b2n e.scanning +
    2 ^ 16 * min 4096 (going + e.buffer.length + e.waiting.length))

/-- R546: MGT_STAT as read. -/
def mgtStat (s : State) : Word :=
  let m := s.mgt
  BitVec.ofNat 32 (m.fwSlot % 2 + 2 * b2n m.trial + 4 * b2n m.recovery + 8 * b2n m.fwRunning + 16 * b2n m.cal.valid +
    32 * b2n m.cal.ppsLocked + 64 * b2n (leapPending s) + 128 * b2n m.evr.ready)

/-! ### Health -/

/-- R602: the operating range of rail r (order of MGT_VOLTr) in mV. -/
def railRange (r : Nat) : Rat × Rat :=
  match r with
  | 0 => (1455 / 2, 1545 / 2)
  | 1 => (776, 824)
  | 2 => (1710, 1890)
  | 3 => (2000, 3600)
  | 4 => (3135, 3465)
  | 5 => (1710, 1890)
  | _ => (4750, 5250)

/-- R531: one temperature reading: warning with 5 K hysteresis, alarm at 110 °C. -/
def healthTemp (k : Nat) (t : Word) (s : State) : State :=
  let s1 := setReg (Reg.MGT_TEMP + 4 * k) t s
  let v := f32RatD t
  let lim := f32RatD (getReg s Reg.MGT_TLIM)
  let high := nth s.mgt.tempHigh k false
  let s2 :=
    if !high && decide (lim ≤ v) then
      cause Reg.MGT_CAUSE 3 { s1 with mgt := { s1.mgt with tempHigh := setNth s1.mgt.tempHigh k true } }
    else if high && decide (v ≤ lim - 5) then
      { s1 with mgt := { s1.mgt with tempHigh := setNth s1.mgt.tempHigh k false } }
    else s1
  if 110 ≤ v then cause Reg.MGT_CAUSE 4 s2 else s2

/-- R531: one rail reading; within 1 % of either end of its range sets volt. VBAT's range also gives PWR_STAT.vbat_ok. -/
def healthRail (r mv : Nat) (s : State) : State :=
  let s1 := setFld (Reg.MGT_VOLT + 4 * r) 15 0 mv s
  let lo := (railRange r).1
  let hi := (railRange r).2
  let v : Rat := mv
  let s2 := if r = 3 then { s1 with pwr := { s1.pwr with vbatOk := decide (lo ≤ v ∧ v ≤ hi) } } else s1
  if v ≤ lo * 101 / 100 ∨ hi * 99 / 100 ≤ v then cause Reg.MGT_CAUSE 5 s2 else s2

/-- HEALTH_SAMPLE: four temperatures (f32, °C) and seven rails (mV) (R531). -/
def execHealthSample (temps : List Word) (mv : List Nat) (s : State) : Result :=
  let s1 := forL (temps.take 4).zipIdx s (fun x s => healthTemp x.2 x.1 s)
  .next (forL (mv.take 7).zipIdx s1 (fun x s => healthRail x.2 x.1 s))

/-! ### Snap strobe requests -/

/-- A fire: with MGT_SNAP_CTL.drive set, SNAP is driven in the next tick, and both members fire at the boundary that ends
it (R544, last row of the table of R545); else the strobe is requested at once (R543).
DEDUCED (log entry 28): a fire that drives SNAP requests the device's own strobe with its edge. -/
def snapFire (s : State) : State :=
  if getBit s Reg.MGT_SNAP_CTL 1 then { s with mgt := { s.mgt with snapDrive := true } }
  else { s with mgt := { s.mgt with snapReq := true } }

/-- SNAP_FIRE: a write of MGT_SNAP_CTL.fire requests a strobe (R543, R544). -/
def execSnapFire (s : State) : Result := .next (snapFire s)

/-- SNAP_EDGE: a rising edge at SNAP requests a strobe while pin_in is set (R543). -/
def execSnapEdge (s : State) : Result :=
  if getBit s Reg.MGT_SNAP_CTL 3 then .next { s with mgt := { s.mgt with snapReq := true } } else .next s

/-- SNAP_PERIODIC: every MGT_SNAP_PER headway starts a strobe is requested; 0 disables (R543). -/
def execSnapPeriodic (s : State) : Result :=
  let p := getFld s Reg.MGT_SNAP_PER 15 0
  if 0 < p ∧ p ≤ s.mgt.snapCount then .next { s with mgt := { s.mgt with snapReq := true, snapCount := 0 } }
  else .next s

end Sys2Proof.Machine
end

