-- ==== Sys2Proof/Machine/Slk.lean ====
section
/-! DEFINITION. The station link's head end (R88 to R129): cars and slots, slot MACs, trains, returned cars, joining,
dropout, ring breaks and guest service, key epochs, and the link poll. -/

namespace Sys2Proof.Machine

/-! ### State access -/

/-- Replace the station link's state. -/
def setSlk (k : SlkState) (s : State) : State := { s with slk := k }

/-- Port `p`. -/
def lineSt (s : State) (p : Nat) : LineSt := nth s.slk.lines p {}

/-- Replace port `p`. -/
def setLine (p : Nat) (x : LineSt) (s : State) : State := setSlk { s.slk with lines := setNth s.slk.lines p x } s

/-- Station `n`. -/
def stnSt (s : State) (n : Nat) : StnSt := smGet (fun _ => ({} : StnSt)) s.slk.stns n

/-- Replace station `n`. -/
def setStn (n : Nat) (x : StnSt) (s : State) : State :=
  setSlk { s.slk with stns := smPut (fun _ => ({} : StnSt)) s.slk.stns n x } s

/-- R140: change a station's state together with its bits in SLK_PRES and SLK_ABS. -/
def stnState (n st : Nat) (s : State) : State :=
  setBit (Reg.SLK_ABS + 4 * (n / 32)) (n % 32) (st == 3)
    (setBit (Reg.SLK_PRES + 4 * (n / 32)) (n % 32) (st == 2) (setStn n { stnSt s n with state := st } s))

/-- R88: the port heads a line. -/
def headsLine (t : Timetable) (p : Nat) : Bool := (t.line p).mode == 1 || (t.line p).mode == 2

/-- The ports that head a line. -/
def headPorts (t : Timetable) : List Nat := (List.range 8).filter (fun p => headsLine t p)

/-- The roster of one line. -/
def lineRoster (t : Timetable) (p : Nat) : List Station := t.roster.filter (fun r => r.line == p)

/-- The stations of every headed line (a through pair's own record is no station of the device's lines, R131). -/
def headRoster (t : Timetable) : List Station := t.roster.filter (fun r => headsLine t r.line)

/-- The station at a position (minus 1) of a line. -/
def stationAt (t : Timetable) (p pos : Nat) : Option Station :=
  t.roster.find? (fun r => r.line == p && r.position == pos)

/-- R418, R423: from a power-fail warning on no train is sent and no headway work is begun. -/
def workHalted (s : State) : Bool := s.pwr.saving || s.pwr.saved

/-- R23, R117: the device sends trains. -/
def trainsRun (s : State) : Bool := (s.dev.mode == .run || s.dev.mode == .safe) && !workHalted s

/-- R495, R405: the transmit signals of the ports that head a line are driven, and their domain is ON: a train leaves the port. -/
def trainsLeave (s : State) : Bool := trainsRun s && gateOpen s && domOn s 2

/-- R447: the kind of a port in the through record: 0 none, 1 lower, 2 upper. -/
def thruKind (s : State) (p : Nat) : Nat := u8 s.slk.thruRec p % 4

/-- R130: the port forwards. -/
def thruForwards (s : State) (p : Nat) : Bool := s.slk.thruOn && thruKind s p != 0

/-! ### MACs (R102, R103, R105) -/

/-- R103: the epoch key of a station. -/
def epochKey (ks : List Byte) (e st p : Nat) : List Byte :=
  aesCmac ks (ascii ['D', 'X', 'E', 'P'] ++ leBytes 4 e ++ leBytes 2 st ++ leBytes 1 p ++ List.replicate 5 0#8)

/-- R102: the context of a slot MAC. -/
def macContext (train st p kind e : Nat) : List Byte :=
  leBytes 4 train ++ leBytes 2 st ++ leBytes 1 p ++ leBytes 1 kind ++ leBytes 4 e

/-- R102: the slot MAC under a station's base key. -/
def slotMacOf (ks : List Byte) (train st p kind e : Nat) (data : List Byte) : List Byte :=
  (aesCmac (epochKey ks e st p) (macContext train st p kind e ++ data)).take 8

/-- R105: the port uses MACs. -/
def lineAuth (t : Timetable) (p : Nat) : Bool := (nth t.security.lineAuth p 0) != 0#8

/-- The MAC field of a slot of line `p` as the head end writes it; zero on a port without line_auth (R105). -/
def slotMac (s : State) (p train st kind e : Nat) (data : List Byte) : List Byte :=
  if lineAuth (theTt s) p then slotMacOf (stationKey (lineSt s p).master st p) train st p kind e data
  else List.replicate 8 0#8

/-- The MAC of a received slot verifies (always on a port without line_auth). -/
def macOk (s : State) (p train st kind e : Nat) (data mac : List Byte) : Bool :=
  !lineAuth (theTt s) p || mac == slotMac s p train st kind e data

/-! ### Frames (R93 to R97) -/

/-- R93: the destination address of a train sent by port `p`. -/
def destMac (p : Nat) : List Byte := [0x03#8, 0x44#8, 0x58#8, 0x4C#8, 0x00#8, BitVec.ofNat 8 p]

/-- R93: the EtherType of a port. -/
def etherType (t : Timetable) (p : Nat) : Nat := if (t.line p).ethertype = 0 then 0x88B5 else (t.line p).ethertype

/-- A frame: header, payload and frame check sequence. -/
def frameOf (dest src : List Byte) (ether : Nat) (payload : List Byte) : List Byte :=
  let body := dest ++ fit 0#8 6 src ++ beBytes 2 ether ++ payload
  body ++ wordBytes (crc32eth body)

/-- R94: the frame is long enough and its check sequence is good. -/
def frameOk (f : List Byte) : Bool :=
  decide (64 ≤ f.length) && f.drop (f.length - 4) == wordBytes (crc32eth (f.take (f.length - 4)))

/-- The payload of a frame. -/
def framePayload (f : List Byte) : List Byte := (f.take (f.length - 4)).drop 14

/-- R95: the car header and R97: the trailer, as read from a payload. -/
structure Car where
  word : Nat := 0
  index : Nat := 0
  count : Nat := 0
  train : Nat := 0
  epoch : Nat := 0
  hops : Nat := 0
  slots : Nat := 0
  first : Nat := 0
  last : Nat := 0
  headway : Nat := 0
  round : Nat := 0
  body : List Byte := []
  ack : Nat := 0
  fault : Nat := 0
  retHops : Nat := 0
  deriving DecidableEq, Repr, Inhabited

/-- Kind of a car: 1 time, 2 output, 3 input, 4 join. -/
def Car.kind (c : Car) : Nat := c.word % 16
/-- The port number of the line whose slots the car carries. -/
def Car.line (c : Car) : Nat := bits c.word 10 8
/-- Returning. -/
def Car.dir (c : Car) : Bool := bit c.word 11
/-- The extend bit. -/
def Car.extend (c : Car) : Bool := bit c.word 12
/-- The guest bit. -/
def Car.guest (c : Car) : Bool := bit c.word 13

/-- R94, R95, R113, R118: the body length that a kind and a slots field give; none where they do not go together. -/
def carBodyLen (kind slots : Nat) : Option Nat :=
  match kind with
  | 1 => if slots = 0 then some 48 else none
  | 2 => if 1 ≤ slots ∧ slots ≤ 12 then some (32 * slots) else none
  | 3 => if 1 ≤ slots ∧ slots ≤ 12 then some (64 * slots) else none
  | 4 => if slots = 16 then some 512 else none
  | _ => none

/-- A payload as a car; none unless version, kind, slots and length agree with R94. -/
def carOf (b : List Byte) : Option Car :=
  let w := u16 b 0
  let n := u8 b 0xE
  match carBodyLen (w % 16) n with
  | none => none
  | some m =>
    if bits w 7 4 = 1 ∧ b.length = 24 + m + 8 then
      let t := b.drop (24 + m)
      some { word := w, index := u8 b 2, count := u8 b 3, train := u32 b 4, epoch := u32 b 8, hops := u16 b 0xC,
             slots := n, first := u8 b 0xF, last := u8 b 0x10, headway := u16 b 0x12, round := u16 b 0x14,
             body := slice b 24 m, ack := u16 t 0, fault := u16 t 2, retHops := u16 t 4 }
    else none

/-- A car as a payload. -/
def Car.bytes (c : Car) : List Byte :=
  leBytes 2 c.word ++ leBytes 1 c.index ++ leBytes 1 c.count ++ leBytes 4 c.train ++ leBytes 4 c.epoch ++
  leBytes 2 c.hops ++ leBytes 1 c.slots ++ leBytes 1 c.first ++ leBytes 1 c.last ++ leBytes 1 0 ++
  leBytes 2 c.headway ++ leBytes 2 c.round ++ leBytes 2 0 ++ c.body ++
  leBytes 2 c.ack ++ leBytes 2 c.fault ++ leBytes 2 c.retHops ++ leBytes 2 0

/-! ### Building a train -/

/-- R98, R107, R108, R120, R124: the station number and the 24 data bytes of the output slot at a position of line `p`. -/
def outSlotData (s : State) (cmds : List SlotCmd) (p pos : Nat) (regular : Bool) : Nat × List Byte :=
  let safe := s.dev.mode == .safe
  let hold := b2n safe
  match cmds.find? (fun c => c.pos == pos) with
  | some c =>
    (c.station, leBytes 2 (hold + (if c.admits then 2 else 4)) ++ leBytes 2 0 ++ leBytes 4 (if c.admits then c.nonce else 0) ++
      List.replicate 16 0#8)
  | none =>
    match stationAt (theTt s) p pos with
    | none => (0, leBytes 2 hold ++ List.replicate 22 0#8)
    | some r =>
      if regular then
        let w (k : Nat) : DWord := imgGet s 1 (16 * r.station + k)
        let good (k : Nat) : Bool := wordQ (w (k + 1)) == .good || wordQ (w (k + 1)) == .subst
        let valid := if safe then 0 else (List.range 5).foldl (fun a k => a + (if good k then 2 ^ k else 0)) 0
        let ident := if bit (w 0).toNat 3 then 8 else 0
        (r.station, leBytes 2 (hold + ident) ++ leBytes 2 valid ++
          (List.range 5).flatMap (fun k => wordBytes (wordVal (w (k + 1)))))
      else (r.station, leBytes 2 hold ++ List.replicate 22 0#8)

/-- An output slot with its MAC. -/
def outSlot (s : State) (cmds : List SlotCmd) (p pos train epoch : Nat) (regular : Bool) : List Byte :=
  let d := outSlotData s cmds p pos regular
  d.2 ++ slotMac s p train d.1 1 epoch d.2

/-- R96: cars of up to twelve slots each: first and count, for `n` slots. -/
def carGroups (n : Nat) : List (Nat × Nat) := (List.range ((n + 11) / 12)).map (fun i => (12 * i, min 12 (n - 12 * i)))

/-- A car to be sent: kind, line, guest, slots, first_pos, line_last and body. -/
structure CarPlan where
  kind : Nat
  line : Nat
  guest : Bool
  slots : Nat
  first : Nat
  last : Nat
  body : List Byte

/-- R113: the body of the time car. -/
def timeBody (s : State) (x : LineSt) (regular : Bool) (frac : Nat) : List Byte :=
  let c := s.mgt.cal
  let flags := b2n c.valid + 2 * b2n c.ppsLocked + 4 * b2n (leapPending s) + 8 * b2n x.joinPhase
  leBytes 8 (s.pwr.tick * 65536 + frac) ++ leBytes 4 c.seconds ++ leBytes 4 (s.pwr.tick + 2 ^ 32 - c.frac / 64) ++
  leBytes 4 0 ++ leBytes 4 0 ++ leBytes 4 x.prev.1 ++ leBytes 4 x.prev.2.1 ++ leBytes 4 x.prev.2.2 ++
  wordBytes (getReg s Reg.SLK_RUNID) ++ leBytes 2 (if regular then (theTt s).plan.tIn else 0) ++ leBytes 2 flags ++
  leBytes 4 0

/-- The cars of line `p`'s own stations. -/
def ownCars (s : State) (p train epoch : Nat) (regular : Bool) : List CarPlan :=
  let n := ((theTt s).line p).stations
  let last := n - 1
  let cmds := (lineSt s p).cmds
  let outs := (carGroups n).map (fun g =>
    CarPlan.mk 2 p false g.2 g.1 last ((List.range g.2).flatMap (fun k => outSlot s cmds p (g.1 + k) train epoch regular)))
  let ins := (carGroups n).map (fun g => CarPlan.mk 3 p false g.2 g.1 last (List.replicate (64 * g.2) 0#8))
  if regular then outs ++ ins else outs

/-- R90: the guest cars for the stations of line `b` beyond its break, in descending order of position. -/
def guestCars (s : State) (b train epoch : Nat) : List CarPlan :=
  let n := ((theTt s).line b).stations
  let brk := (lineSt s b).breakPos
  let gs := carGroups (n - brk)
  let outs := gs.map (fun g => CarPlan.mk 2 b true g.2 (n - 1 - g.1) (n - 1)
    ((List.range g.2).flatMap (fun k => outSlot s [] b (n - 1 - g.1 - k) train epoch true)))
  let ins := gs.map (fun g => CarPlan.mk 3 b true g.2 (n - 1 - g.1) (n - 1) (List.replicate (64 * g.2) 0#8))
  outs ++ ins

/-- The cars of a train in the order of chapter 3: time, output, input, guest, join. DESIGN CHOICE (log entry 91): the
line_last of a line without stations is 0. -/
def trainCars (s : State) (p train epoch : Nat) (regular : Bool) (frac : Nat) : List CarPlan :=
  let x := lineSt s p
  let last := ((theTt s).line p).stations - 1
  let guests := if x.guest ∧ regular then guestCars s ((theTt s).line p).partner train epoch else []
  [CarPlan.mk 1 p false 0 0 last (timeBody s x regular frac)] ++ ownCars s p train epoch regular ++ guests ++
    [CarPlan.mk 4 p false 16 0 last (List.replicate 512 0#8)]

/-- R95: the frame of one car. DESIGN CHOICE (log entry 91): join_round counts the trains before this one, so it is 0 in the
first train of a join phase. -/
def carFrame (s : State) (p train epoch count i : Nat) (c : CarPlan) : List Byte :=
  let t := theTt s
  let hold := c.kind == 2 && s.dev.mode == .safe
  let word := c.kind + 16 + 256 * c.line + 4096 * b2n (lineSt s p).guest + 8192 * b2n c.guest + 16384 * b2n hold
  let car : Car := { word := word, index := i, count := count, train := train, epoch := epoch, slots := c.slots,
                     first := c.first, last := c.last, headway := t.plan.headway, round := (lineSt s p).round,
                     body := c.body }
  frameOf (destMac p) (t.line p).sourceMac (etherType t p) car.bytes

/-- R111: the cars of the port's last train are counted when the next departs. -/
def tallyTrain (p : Nat) (s : State) : State :=
  let x := lineSt s p
  let late := (x.cars.filter (fun c => c.late)).length
  let lost := (x.cars.filter (fun c => !c.returned)).length
  let s1 := addFld (Reg.SLK_LCNT_LOST + 0x40 * p) 31 16 late (addFld (Reg.SLK_LCNT_LOST + 0x40 * p) 15 0 lost s)
  if 0 < late + lost then causeS Reg.SLK_CAUSE 4 p s1 else s1

/-- R14 step 2, R111, R113, R125: port `p` sends a train. The fraction of a tick by which the first car leaves after the
tick is open up to 2 µs (134 units of 1/65,536 tick).
DESIGN CHOICE (log entry 104): after a train whose time car did not return, or returned late, prev_train, prev_rt and
prev_cret go on to describe the last time car that did return. -/
def sendTrain (regular : Bool) (p : Nat) (s : State) : State :=
  let s1 := tallyTrain p s
  let (n, s2) := fresh s1
  let frac := (Config.freeWord n).toNat % 135
  let x := lineSt s2 p
  let train := x.next
  let epoch := (getReg s2 Reg.SLK_EPOCH).toNat
  let plan := trainCars s2 p train epoch regular frac
  let cars := plan.zipIdx.map (fun c =>
    ({ kind := c.1.kind, frame := carFrame s2 p train epoch plan.length c.2 c.1 } : CarSent))
  let s3 := setLine p { x with
      next := (train + 1) % 2 ^ 32, train := some train, regular := regular, epoch := epoch, cars := cars,
      round := satInc 16 x.round, cmds := [], full := false,
      prev := x.prev } s2
  let r := Reg.SLK_LCNT_TX + 0x40 * p
  setReg r (getReg s3 r + BitVec.ofNat 32 cars.length) (setReg (Reg.SLK_LTRAIN + 0x40 * p) (BitVec.ofNat 32 train) s3)

/-- R90: whether port `p` serves its broken partner line in the headway that starts. -/
def guestNow (s : State) (p : Nat) : Bool :=
  let t := theTt s
  let b := (t.line p).partner
  (t.line p).mode == 2 && (lineSt s b).broken && getBit s Reg.SLK_CTL 16 && (lineSt s p).full && !(lineSt s b).guest

/-- R90, R91, R560: at a headway start each line takes the master key in force and the guest service that now holds. -/
def lineHeadway (p : Nat) (s : State) : State :=
  setLine p { lineSt s p with
    guest := guestNow s p, master := keyEffective s ((theTt s).line p).keySlot } s

/-- R14 step 2: the trains of a headway start. -/
def slkHeadway (s : State) : State :=
  if trainsLeave s then
    let ps := headPorts (theTt s)
    forL ps (forL ps s lineHeadway) (sendTrain true)
  else s

/-- The ticks at which join trains depart (R124). -/
def joinTime (s : State) : Bool :=
  let k := s.dev.tickInHw
  let p := (theTt s).plan
  decide (0 < k ∧ k % 102 = 0 ∧ p.tIn ≤ k ∧ k + 102 ≤ p.headway)

/-- R137: the join limit. -/
def joinLimit (s : State) : Nat := getFld s Reg.SLK_JOIN_LIM 15 0

/-- JOIN_TRAIN_DEPART: every line in its join phase sends a join train (R124), once at its tick. -/
def execJoinTrainDepart (s : State) : Result :=
  if trainsLeave s ∧ joinTime s ∧ s.slk.joinTick ≠ some s.pwr.tick then
    let ps := (headPorts (theTt s)).filter (fun p => (lineSt s p).joinPhase && decide ((lineSt s p).round < joinLimit s))
    .next (forL ps (setSlk { s.slk with joinTick := some s.pwr.tick } s) (sendTrain false))
  else .next s

/-! ### Join phases -/

/-- R20, R138: every line that the device heads has ended its join phase. -/
def allJoined (s : State) : Bool := (headPorts (theTt s)).all (fun p => !(lineSt s p).joinPhase)

/-- R124: a line's join phase ends; with the last one SLK_CAUSE.join_done is set. -/
def joinEnd (p : Nat) (s : State) : State :=
  if (lineSt s p).joinPhase then
    let s1 := setLine p { lineSt s p with joinPhase := false, joinDone := true } s
    if allJoined s1 then cause Reg.SLK_CAUSE 5 s1 else s1
  else s

/-- R55: the roster marks a station optional. -/
def Station.optional (r : Station) : Bool := bit r.flags 1

/-- R124: end the join phase of a line whose stations are all PRESENT but for optional ones. -/
def joinCheck (p : Nat) (s : State) : State :=
  if (lineRoster (theTt s) p).all (fun r => r.optional || (stnSt s r.station).state == 2) then joinEnd p s else s

/-- JOIN_PHASE_END: the lines that have sent SLK_JOIN_LIM trains end their join phase (R124). -/
def execJoinPhaseEnd (s : State) : Result :=
  .next (forL (headPorts (theTt s)) s (fun p s => if joinLimit s ≤ (lineSt s p).round then joinEnd p s else s))

/-! ### Returned cars (R90, R91, R94, R111, R126) -/

/-- What R94 makes of a received frame. -/
inductive RxFrame where
  | badFcs
  | foreign
  | car (c : Car)
  deriving DecidableEq, Repr

/-- R94: judge a frame received on a port that is not in through mode. -/
def rxJudge (s : State) (p : Nat) (f : List Byte) : RxFrame :=
  if !frameOk f then .badFcs
  else if f.take 6 != destMac p || beNat (slice f 12 2) != etherType (theTt s) p then .foreign
  else
    match carOf (framePayload f) with
    | none => .foreign
    | some c => if (lineSt s p).train = some c.train then .car c else .foreign

/-- R111: the car came back after the input close of a regular train's headway. -/
def carLate (s : State) (p : Nat) : Bool := (lineSt s p).regular && s.dev.siPublished

/-- R90, R91: what the hops of a returned ordinary car of a ring say. -/
def ringJudge (p : Nat) (c : Car) (s : State) : State :=
  let x := lineSt s p
  let full := decide (c.last + 1 ≤ c.hops)
  let s1 := setLine p { x with full := x.full || full } s
  if ((theTt s).line p).mode ≠ 2 ∨ ((theTt s).line p).stations = 0 then s1
  else if full then
    if x.broken then causeS Reg.SLK_CAUSE 3 p (setLine p { lineSt s1 p with broken := false } s1) else s1
  else if x.broken then setLine p { lineSt s1 p with breakPos := c.hops } s1
  else causeS Reg.SLK_CAUSE 2 p (setLine p { lineSt s1 p with broken := true, breakPos := c.hops } s1)

/-- R111, R141: a car of the current train has come back: it is counted and marked. -/
def carBack (p : Nat) (c : Car) (late : Bool) (s : State) : State :=
  let x := lineSt s p
  let mark (y : CarSent) : CarSent :=
    if y.returned then y else { y with returned := true, late := late, ack := c.ack, fault := c.fault }
  incReg (Reg.SLK_LCNT_RX + 0x40 * p)
    (setLine p { x with cars := setNth x.cars c.index (mark (nth x.cars c.index {})) } s)

/-- Act on a returned car of a kind: nothing happens unless the frame is such a car of the current train; the content
of a late one is ignored (R111).
DESIGN CHOICE (log entry 104): the round trip of a time car that returns late is content too, so SLK_LRT and
SLK_LRTMAX stay. -/
def onCar (kind p : Nat) (f : List Byte) (act : Car → State → State) (s : State) : Result :=
  match rxJudge s p f with
  | .car c =>
    if c.kind = kind then
      let late := carLate s p
      let s1 := carBack p c late s
      .next (if late then s1 else act c (if c.guest then s1 else ringJudge p c s1))
    else .next s
  | _ => .next s

/-- TIME_CAR_RETURN: round trip and correction for the next time car (R113, R115, R141); `rt` in 1/65,536 tick. -/
def execTimeCarReturn (p : Nat) (f : List Byte) (rt : Nat) (s : State) : Result :=
  onCar 1 p f (fun c s =>
    let v := rt % 2 ^ 32
    let s1 := setReg (Reg.SLK_LRT + 0x40 * p) (BitVec.ofNat 32 v) (maxFld (Reg.SLK_LRTMAX + 0x40 * p) 31 0 v s)
    setLine p { lineSt s1 p with prev := (c.train, v, u32 c.body 0x14), turnPos := c.hops % 512 } s1) s

/-- OUTPUT_CAR_RETURN: the car's masks are taken (R97); an output slot is never sent again (R128). -/
def execOutputCarReturn (p : Nat) (f : List Byte) (s : State) : Result := onCar 2 p f (fun _ s => s) s

/-- R96: the position (minus 1) of slot `k` of a car; none below the first position. -/
def slotPos (c : Car) (k : Nat) : Option Nat :=
  if c.guest then (if k ≤ c.first then some (c.first - k) else none) else some (c.first + k)

/-- R121, R126, R127: one input slot of a returned car.
DESIGN CHOICE (log entry 104): a failed MAC in a guest car is counted at the port of the broken line, whose station it is,
not at the port that carried the car. -/
def inputSlot (p : Nat) (c : Car) (k : Nat) (s : State) : State :=
  match (slotPos c k).bind (stationAt (theTt s) c.line) with
  | none => s
  | some r =>
    if !bit c.ack k then s
    else
      let data := slice c.body (64 * k) 56
      let x := stnSt s r.station
      if macOk s c.line c.train r.station 2 (lineSt s p).epoch data (slice c.body (64 * k + 56) 8) then
        let s1 := setStn r.station { x with got := some (c.train, data) } s
        if x.state = 1 ∨ x.state = 3 then joinCheck c.line (stnState r.station 2 s1) else s1
      else
        incFld (Reg.SLK_LCNT_MAC + 0x40 * c.line) 15 0 (setStn r.station { x with macFail := satInc 16 x.macFail } s)

/-- INPUT_CAR_RETURN: the input slots of a car (R121, R126, R127). -/
def execInputCarReturn (p : Nat) (f : List Byte) (s : State) : Result :=
  onCar 3 p f (fun c s => forN c.slots s (fun k s => inputSlot p c k s)) s

/-- R120: set the command for the next train at a position; a refusal takes the slot's place.
DESIGN CHOICE (log entry 104): of two refused requests that carry one position in one train, the later one gets the
refusal slot. -/
def addCmd (p : Nat) (c : SlotCmd) (s : State) : State :=
  let x := lineSt s p
  let refused := x.cmds.any (fun y => y.pos == c.pos && !y.admits)
  if c.admits && refused then s
  else setLine p { x with cmds := x.cmds.filter (fun y => y.pos != c.pos) ++ [c] } s

/-- R390 flag 3: the billing day of station `n` held a restart. -/
def stnRestarted (n : Nat) (s : State) : State :=
  let ds := smUpd (fun _ => ({} : StnDay)) s.mtr.stnDays n (fun d => { d with restart := true })
  { s with mtr := { s.mtr with stnDays := ds } }

/-- R120, R123: a request that is admitted. -/
def joinAdmit (p : Nat) (r : Station) (nonce : Nat) (s : State) : State :=
  let st := (stnSt s r.station).state
  let s1 := if st = 2 ∨ st = 3 then
      evRaise 0x4080 r.station (BitVec.ofNat 32 p) (BitVec.ofNat 32 (r.position + 1))
        (stnRestarted r.station (incFld (Reg.SLK_LCNT_DROP + 0x40 * p) 31 16 s))
    else s
  addCmd p { pos := r.position, station := r.station, admits := true, nonce := nonce } (stnState r.station 1 s1)

/-- R120: a request that is refused; `r` is the request's station when it is rostered on the car's line. -/
def joinRefuse (p pos station : Nat) (r : Option Station) (s : State) : State :=
  let s1 := if pos < ((theTt s).line p).stations then addCmd p { pos := pos, station := station } s else s
  let s2 := match r with
    | some r => stnState r.station 4 s1
    | none => s1
  causeS Reg.SLK_CAUSE 1 station (incFld (Reg.SLK_LCNT_MAC + 0x40 * p) 31 16 s2)

/-- R118, R120: one join slot of a returned join car.
DESIGN CHOICE (log entry 104): a slot of state 1 whose ack_mask bit is clear was written by no station (R97): it is neither
admitted nor refused. -/
def joinSlot (p : Nat) (c : Car) (k : Nat) (s : State) : State :=
  let b := slice c.body (32 * k) 32
  if !bit c.ack k || u8 b 3 != 1 then s
  else
    let n := u16 b 0
    let r := (lineRoster (theTt s) p).find? (fun r => r.station == n)
    let good := macOk s p c.train n 3 (lineSt s p).epoch (b.take 24) (b.drop 24)
    match r with
    | some r =>
      if good ∧ u8 b 2 = r.position ∧ u32 b 4 = r.stationId.toNat ∧ (r.member = 0 ∨ u16 b 8 = r.member) then
        joinAdmit p r (u32 b 0xC) s
      else joinRefuse p (u8 b 2) n (some r) s
    | none => joinRefuse p (u8 b 2) n none s

/-- JOIN_CAR_RETURN: the requests of a join car are admitted or refused for the next train (R118 to R123). -/
def execJoinCarReturn (p : Nat) (f : List Byte) (s : State) : Result :=
  onCar 4 p f (fun c s => forN 16 s (fun k s => joinSlot p c k s)) s

/-- FRAME_DISCARD: a frame that R94 discards is counted. -/
def execFrameDiscard (p : Nat) (f : List Byte) (s : State) : Result :=
  if thruForwards s p then .next s
  else
    match rxJudge s p f with
    | .badFcs => .next (incFld (Reg.SLK_LCNT_FCS + 0x40 * p) 15 0 s)
    | .foreign => .next (incFld (Reg.SLK_LCNT_FCS + 0x40 * p) 31 16 s)
    | .car _ => .next s

/-! ### Input close (R106, R126, R127) -/

/-- A word with a worse quality where `q` is worse. -/
def worsen (q : Quality) (w : DWord) : DWord := BitVec.ofNat 64 (w.toNat % 2 ^ 32 + qCode (qMax (wordQ w) q) * 2 ^ 32 +
  w.toNat / 2 ^ 34 * 2 ^ 34)

/-- R106: the SI words of received inputs, with presence quality GOOD. -/
def stnWrite (n train : Nat) (data : List Byte) (s : State) : State :=
  let qual := u32 data 0
  let w0 : DWord := BitVec.ofNat 64 (train + bits qual 26 24 * 2 ^ 40)
  let s1 := imgPut 0 (16 * n) w0 s
  let s2 := forN 12 s1 (fun k s =>
    imgPut 0 (16 * n + 1 + k) (mkWord (w32 data (4 + 4 * k)) (qualityOf (bits qual (2 * k + 1) (2 * k)))) s)
  imgPut 0 (16 * n + 13) (mkWord (w32 data 0x34) .good) s2

/-- R127: the SI words of a station without inputs keep their values; presence quality and value qualities worsen. -/
def stnWorsen (q : Quality) (n : Nat) (s : State) : State :=
  let s1 := imgPut 0 (16 * n) (worsen q (imgGetWork s 0 (16 * n))) s
  forN 13 s1 (fun k s => imgPut 0 (16 * n + 1 + k) (worsen q (imgGetWork s 0 (16 * n + 1 + k))) s)

/-- R54: headways for which a dropped station's inputs are STALE. -/
def staleHeadways (t : Timetable) (p : Nat) : Nat := if (t.line p).staleHeadways = 0 then 3 else (t.line p).staleHeadways

/-- R127: a PRESENT station drops off: it becomes ABSENT. -/
def stnDrop (r : Station) (s : State) : State :=
  let n := r.station
  let s1 := stnState n 3 (setStn n { stnSt s n with drops := satInc 16 (stnSt s n).drops } s)
  let s2 := incFld (Reg.SLK_LCNT_DROP + 0x40 * r.line) 15 0 s1
  if r.optional then setBit Reg.SLK_CAUSE 0 true s2 else causeS Reg.SLK_CAUSE 0 n s2

/-- R126, R127: one station at input close. The inputs of a station that is not PRESENT are not taken, and its qualities
go on to worsen in every state. DESIGN CHOICE (log entry 91): also in JOINING and REFUSED. -/
def stnClose (r : Station) (s : State) : State :=
  let n := r.station
  let x := stnSt s n
  match x.got, x.state with
  | some g, 2 => stnWrite n g.1 g.2 (setStn n { x with got := none, missed := 0, last := g.1 } s)
  | _, _ =>
    let missed := satInc 16 x.missed
    let s1 := setStn n { x with got := none, missed := missed } s
    let s2 := if x.state = 2 then stnDrop r s1 else s1
    stnWorsen (if missed ≤ staleHeadways (theTt s) r.line then .stale else .bad) n s2

/-- R14 step 3 for the headed lines: every station is judged, then SI is published. -/
def slkInputClose (s : State) : State :=
  let t := theTt s
  let s1 := forL (headRoster t) s stnClose
  forL (headPorts t) s1 joinCheck

/-- PRESENCE_STALE_EXPIRE: stale_headways have passed without inputs of station `st`: from the next input close its
presence quality is BAD (R127). -/
def execPresenceStaleExpire (st : Nat) (s : State) : Result :=
  match (headRoster (theTt s)).find? (fun r => r.station == st) with
  | some r =>
    let x := stnSt s st
    if trainsRun s ∧ x.state ≠ 2 ∧ x.got = none ∧ staleHeadways (theTt s) r.line ≤ x.missed then
      .next (stnWorsen .bad st s)
    else .next s
  | none => .next s

/-! ### Entry into RUN and placement -/

/-- The SI words of a station get a presence quality of BAD in both generations; values are kept (R117). -/
def stnBad (n : Nat) (s : State) : State :=
  let bad (w : DWord) : DWord := BitVec.ofNat 64 (w.toNat % 2 ^ 32 + 3 * 2 ^ 32 + w.toNat / 2 ^ 34 * 2 ^ 34)
  let f (m : List (Nat × DWord)) : List (Nat × DWord) :=
    (List.range 14).foldl (fun m k => smUpd (imgInit 0) m (16 * n + k) bad) m
  { s with img := { s.img with si := f s.img.si, siWork := f s.img.siWork } }

/-- A new random 32-bit number (R117); the old one stays in use while the entropy source has failed (R567). -/
def slkDraw (old : Nat) (s : State) : Nat × State :=
  if s.key.rngOk then
    let (b, s1) := keyRandom s
    (u32 b 0, s1)
  else (old, s)

/-- R117, R124: a line begins a run, with the master key in force. -/
def lineStart (p : Nat) (s : State) : State :=
  let (n, s1) := slkDraw (lineSt s p).next s
  setLine p { lineSt s1 p with
    next := n, joinPhase := true, joinDone := false, round := 0, prev := (0xFFFFFFFF, 0, 0), cmds := [],
    full := false, broken := false, breakPos := 0, guest := false,
    master := keyEffective s1 ((theTt s1).line p).keySlot } s1

/-- R117, R515: entry into RUN, from READY or by takeover or handover. -/
def slkEnterRun (fromReady : Bool) (s : State) : State :=
  let t := theTt s
  let (rid, s1) := slkDraw (getReg s Reg.SLK_RUNID).toNat s
  let s2 := setReg Reg.SLK_RUNID (BitVec.ofNat 32 rid) s1
  let s3 := forL (headPorts t) s2 lineStart
  forL (headRoster t) s3 (fun r s =>
    let x := stnSt s r.station
    let s1 := setStn r.station { x with missed := 0, got := none } s
    if fromReady then stnBad r.station (stnState r.station 0 s1) else stnState r.station 2 s1)

/-- Entry into READY clears the stations' counters (chapter 3, registers). -/
def slkReady (s : State) : State :=
  setSlk { s.slk with stns := s.slk.stns.map (fun x => (x.1, { x.2 with macFail := 0, drops := 0 })) } s

/-- A timetable is placed: no station and no line has run yet. -/
def slkPlace (s : State) : State :=
  let s1 := setSlk { s.slk with lines := (List.replicate 8 {} : List LineSt), stns := [], epochWait := none, joinTick := none } s
  setReg Reg.SLK_EPOCH (BitVec.ofNat 32 s1.key.epochHigh) s1

/-- R81: the roster keeps a station: its place on the line and what a request is compared with (R120) stay. -/
def rosterKeeps (t : Timetable) (r : Station) : Bool :=
  t.roster.any (fun x => x.station == r.station && x.line == r.line && x.position == r.position &&
    x.stationId == r.stationId && x.member == r.member)

/-- R81: a removed station leaves the train: no command waits for it any more. -/
def stnLeave (r : Station) (s : State) : State :=
  let s1 := stnBad r.station (setStn r.station {} (stnState r.station 0 s))
  setSlk { s1.slk with lines := s1.slk.lines.map (fun (x : LineSt) =>
    { x with cmds := x.cmds.filter (fun c => c.station != r.station) }) } s1

/-- R81: a commit boundary: removed stations leave the train, added ones join; a port that begins to head a line
starts its join phase. The new timetable is in force. -/
def slkCommit (old : Timetable) (s : State) : State :=
  let t := theTt s
  let s1 := forL (old.roster.filter (fun r => !rosterKeeps t r)) s stnLeave
  let new := (headPorts t).filter (fun p => !headsLine old p)
  if trainsRun s then forL new s1 lineStart else s1

/-! ### Key epochs (R104) -/

/-- R64, R104: the computed epoch. -/
def epochComputed (s : State) : Nat :=
  if s.mgt.cal.valid then s.mgt.cal.seconds / (3600 * (theTt s).security.epochHours) else 0

/-- EPOCH_ADVANCE: a higher computed epoch is made durable in the record of instance 0x49 (R104, R557). -/
def execEpochAdvance (s : State) : Result :=
  let e := epochComputed s
  if hwStates s.dev.mode ∧ s.slk.epochWait = none ∧ (getReg s Reg.SLK_EPOCH).toNat < e then
    let s1 := setSlk { s.slk with epochWait := some e } s
    .next (jnlRequest { kind := 9, inst := 0x49, payload := keyCtrBytes s1, owner := .key 0x49 } s1)
  else .next s

/-- The record of a higher epoch is durable, and the epoch comes into force, or it has failed. -/
def epochDurable (ok : Bool) (s : State) : State :=
  match s.slk.epochWait with
  | none => s
  | some e =>
    let s1 := setSlk { s.slk with epochWait := none } s
    if ok then
      cause Reg.SLK_CAUSE 6
        (setReg Reg.SLK_EPOCH (BitVec.ofNat 32 e) (setKey { s1.key with epochHigh := max e s1.key.epochHigh } s1))
    else s1

/-! ### Link poll and views -/

/-- PHY_LINK_POLL: every 64 ticks the link of every port that is not unused is read (R613); `up` has bit p for port p.
A member whose gate is closed reads 0 and raises no cause. -/
def execPhyLinkPoll (up : Nat) (s : State) : Result :=
  if s.dev.tt.isSome ∧ s.pwr.tick % 64 = 0 then
    .next (forN 8 s (fun p s =>
      let x := lineSt s p
      let mode := ((theTt s).line p).mode
      if mode = 0 then s
      else
        let now := gateOpen s && bit up p
        let s1 := setLine p { x with link := now } s
        if mode = 3 ∧ x.link ∧ ¬ now ∧ gateOpen s then causeS Reg.SLK_CAUSE 7 p s1 else s1))
  else .next s

/-- Bits of the ports that satisfy `f`. -/
def portBits (f : Nat → Bool) : Nat := (List.range 8).foldl (fun a p => a + (if f p then 2 ^ p else 0)) 0

/-- R135: SLK_STAT as read. -/
def slkStat (s : State) : Word :=
  let t := theTt s
  let heads (p : Nat) : Bool := headsLine t p
  BitVec.ofNat 32 (portBits (fun p => trainsRun s && heads p) +
    2 ^ 8 * portBits (fun p => trainsRun s && heads p && (lineSt s p).joinPhase) +
    2 ^ 16 * portBits (fun p => (lineSt s p).broken) + 2 ^ 24 * portBits (thruForwards s))

/-- R141: SLK_LSTAT of port `p` as read. -/
def slkLstat (s : State) (p : Nat) : Word :=
  let x := lineSt s p
  BitVec.ofNat 32 (b2n x.link + 2 * b2n x.joinDone + 4 * b2n x.broken + 8 * b2n x.guest + 2 ^ 16 * x.turnPos)

/-- The station that SLK_STN_SEL selects. -/
def selStn (s : State) : Nat := getFld s Reg.SLK_STN_SEL 10 0

/-- R142: SLK_STN_INFO, SLK_STN_LAST and SLK_STN_ERR of the selected station; their reset values while no timetable is
loaded. -/
def slkStn (s : State) (i : Nat) : Word :=
  match (theTt s).stn (selStn s) with
  | none => if i = 0 ∧ s.dev.tt.isSome then 5 else 0
  | some r =>
    let x := stnSt s r.station
    match i with
    | 0 => BitVec.ofNat 32 (x.state + 8 * b2n r.optional + 16 * r.line + 2 ^ 8 * min 255 x.missed + 2 ^ 16 * r.position)
    | 1 => BitVec.ofNat 32 x.last
    | _ => BitVec.ofNat 32 (x.macFail + 2 ^ 16 * x.drops)

/-- R139: SLK_THRU_STAT as read. -/
def slkThruStat (s : State) : Word :=
  BitVec.ofNat 32 (portBits (fun p => match s.slk.thru.find? (fun x => x.1 == p) with
      | some x => x.2.joinedRun.isSome && x.2.joinedRun == x.2.run
      | none => false) +
    2 ^ 8 * portBits (fun p => s.slk.thruValid && thruKind s p != 0))

/-- R143: the snapshot registers of the link. -/
def slkSnap (s : State) : State :=
  let s1 := forN 8 s (fun p s => setReg (Reg.SLK_SNAP_L + 4 * p) (getReg s (Reg.SLK_LTRAIN + 0x40 * p)) s)
  let n (st : Nat) : Nat := (s.slk.stns.filter (fun x => x.2.state == st)).length
  setReg Reg.SLK_SNAP_PRES (BitVec.ofNat 32 (n 2 + 2 ^ 16 * n 3)) s1

end Sys2Proof.Machine
end

