-- ==== Sys2Proof/Machine/Arch.lean ====
section
/-! DEFINITION. The station archive (R389 to R391) and the network ledger (R29, R426, R430, R431), which share the
billing day. -/

namespace Sys2Proof.Machine

/-! ### The network ledger -/

/-- The low word of the image word that a reference names. -/
def ledgerWord (s : State) (ref : Nat) : Nat :=
  match refGet s ref with
  | some w => w.toNat % 2 ^ 32
  | none => 0

/-- R431: the source entries as the registers hold them: reference, factor, role. -/
def ledgerEntries (s : State) : List (Nat × Word × Nat) :=
  (List.range 32).map (fun k =>
    ((getReg s (Reg.PWR_NLS_REF + 0x10 * k)).toNat, getReg s (Reg.PWR_NLS_FAC + 0x10 * k),
     getFld s (Reg.PWR_NLS_CFG + 0x10 * k) 1 0))

/-- R389: the metering stations. -/
def meteringStations (t : Timetable) : List Nat := (t.roster.filter (fun r => bit r.flags 0)).map (·.station)

/-- SI word of v8 of a station. -/
def v8Ref (st : Nat) : Nat := 16 * st + 9

/-- R426: the terms since the marks: primary, pump, delivered; and the quality over the words used. -/
def ledgerTerms (s : State) : (Rat × Rat × Rat) × Quality :=
  let es := s.pwr.nls.zip s.pwr.nlsMark
  let inc (e : (Nat × Word × Nat) × Nat) : Rat :=
    f32RatD e.1.2.1 * (((ledgerWord s e.1.1 + 2 ^ 32 - e.2) % 2 ^ 32 : Nat) : Rat)
  let sum (role : Nat) : Rat := ((es.filter (fun e => e.1.2.2 == role)).map inc).foldl (· + ·) 0
  let stations := getBit s Reg.PWR_NET_CTL 0
  let v8 (p : Nat × Nat) : Rat := (((ledgerWord s (v8Ref p.1) + 2 ^ 32 - p.2) % 2 ^ 32 : Nat) : Rat)
  let st : Rat := if stations then (s.pwr.v8Mark.map v8).foldl (· + ·) 0 else 0
  let q1 := es.map (fun e => if e.1.2.2 = 0 then Quality.good else
    match refGet s e.1.1 with
    | some w => wordQ w
    | none => .good)
  let q2 := if stations then s.pwr.v8Mark.map (fun p => wordQ (imgGet s 0 (v8Ref p.1))) else []
  ((sum 1, sum 2, sum 3 + st), qMaxList (q1 ++ q2))

/-- R426: write a ratio register with its quality field; the value is free where delivered is zero. -/
def ledgerRatio (reg hi lo : Nat) (prim pump deliv : Rat) (q : Quality) (s : State) : State :=
  if deliv = 0 then
    let (n, s1) := fresh s
    setFld Reg.PWR_NET_Q hi lo 3 (setReg reg (Config.freeWord n) s1)
  else setFld Reg.PWR_NET_Q hi lo (qCode q) (setReg reg (f32OfRat ((prim + pump) / deliv)) s)

/-- Add terms to the day's sums. -/
def ledgerDayAdd (t : Rat × Rat × Rat) (q : Quality) (s : State) : State :=
  let d (i : Nat) : Rat := nth s.pwr.daySums i 0
  { s with pwr := { s.pwr with
      daySums := [d 0 + t.1, d 1 + t.2.1, d 2 + t.2.2], dayQ := qMax s.pwr.dayQ q } }

/-- R426: an optimiser period starts: the last period's terms are shown, and the entries as they now stand come into
force. -/
def ledgerPeriod (s : State) : State :=
  let s1 :=
    if s.pwr.nlsStarted then
      let (t, q) := ledgerTerms s
      let s1 := ledgerRatio Reg.PWR_NET_PER 1 0 t.1 t.2.1 t.2.2 q (ledgerDayAdd t q s)
      setReg Reg.PWR_NET_DELIV (f32OfRat t.2.2) (setReg Reg.PWR_NET_PUMP (f32OfRat t.2.1)
        (setReg Reg.PWR_NET_PRIM (f32OfRat t.1) s1))
    else s
  let es := ledgerEntries s1
  { s1 with pwr := { s1.pwr with
      nls := es, nlsMark := es.map (fun e => ledgerWord s1 e.1),
      v8Mark := (meteringStations (theTt s1)).map (fun n => (n, ledgerWord s1 (v8Ref n))), nlsStarted := true } }

/-- R426: the billing day ends: its ratio over the sums up to now; what the running period has added so far is taken from
the new day's sums, so that the period's end books only the rest. -/
def ledgerDay (s : State) : State :=
  let (t, q) := if s.pwr.nlsStarted then ledgerTerms s else ((0, 0, 0), .good)
  let s1 := ledgerDayAdd t q s
  let d (i : Nat) : Rat := nth s1.pwr.daySums i 0
  let s2 := ledgerRatio Reg.PWR_NET_DAY 3 2 (d 0) (d 1) (d 2) s1.pwr.dayQ s1
  { s2 with pwr := { s2.pwr with daySums := [-t.1, -t.2.1, -t.2.2], dayQ := .good } }

/-! ### The archive -/

/-- The running day of station `n`. -/
def stnDay (s : State) (n : Nat) : StnDay := smGet (fun _ => ({} : StnDay)) s.mtr.stnDays n

/-- Change it. -/
def stnDayUpd (n : Nat) (f : StnDay → StnDay) (s : State) : State :=
  { s with mtr := { s.mtr with stnDays := smUpd (fun _ => ({} : StnDay)) s.mtr.stnDays n f } }

/-- R390: the values v8 to v11 of a received slot of station `n` are booked in its running day. -/
def stnBook (n : Nat) (w : Nat → DWord) (s : State) : State :=
  let p := w 3
  let bad := [w 0, w 1, w 2, p].any (fun x => wordQ x != .good)
  stnDayUpd n (fun d => { d with
    notGood := d.notGood || bad
    peak := if wordQ p = .good ∧ f32IsFin (wordVal p) then some (max (d.peak.getD (f32RatD (wordVal p))) (f32RatD (wordVal p)))
      else d.peak }) s

/-- R391, R126: the data of an input slot of station `n` that has been received and waits for the input close. -/
def stnSlot (s : State) (n : Nat) : Option (List Byte) :=
  if (stnSt s n).state = 2 then (stnSt s n).got.map (·.2) else none

/-- The value v(8 + k) of a slot's data (R106). -/
def slotValue (data : List Byte) (k : Nat) : DWord :=
  mkWord (w32 data (36 + 4 * k)) (qualityOf (bits (u32 data 0) (2 * (k + 8) + 1) (2 * (k + 8))))

/-- R390: at an input close, the values of every metering station whose inputs were received. -/
def archInputs (s : State) : State :=
  forL ((headRoster (theTt s)).filter (fun r => bit r.flags 0)) s (fun r s =>
    let n := r.station
    if (stnDay s n).taken then stnDayUpd n (fun d => { d with taken := false }) s
    else if (stnSt s n).state = 2 then stnBook n (fun k => imgGet s 0 (16 * n + 9 + k)) s
    else s)

/-- A record of R390 from its fields. -/
def archRecord (source day a b c e : Nat) (peak : Word) (flags errMin : Nat) : List Byte :=
  let body := leBytes 2 source ++ leBytes 2 day ++ leBytes 4 a ++ leBytes 4 b ++ leBytes 4 c ++ leBytes 4 e ++
    wordBytes peak ++ leBytes 2 flags ++ leBytes 2 errMin
  body ++ wordBytes (crc32c body)

/-- The four readings of station `n`: v8, v9, v10 and 0, those of its last input slot received (R391). -/
def stnReadings (s : State) (n : Nat) : Nat × Nat × Nat × Nat :=
  match stnSlot s n with
  | some d => (u32 d 36, u32 d 40, u32 d 44, 0)
  | none => (ledgerWord s (16 * n + 9), ledgerWord s (16 * n + 10), ledgerWord s (16 * n + 11), 0)

/-- The four readings of meter `m`. -/
def meterReadings (s : State) (m : Nat) : Nat × Nat × Nat × Nat :=
  let r (i : Nat) : Nat := nth (meterGet s m).regs i 0
  if m < 64 then (r 2 / 1000, r 3 / 1000, r 0 / 10000, r 4 / 1000)
  else (r 0 / 1000, r 1 / 1000, r 4 / 1000, r 5 / 1000)

/-- NV window offset of the archive record of a source and day (R390). -/
def archPos (source day : Nat) : Nat :=
  if source < 0x8000 then 0x04A00000 + 32 * (450 * source + day % 450)
  else 0x06620000 + 32 * (450 * (source - 0x8000) + day % 450)

/-- The record of station `n` for the day that ends now. -/
def stnRecord (s : State) (day n : Nat) : List Byte :=
  let d := stnDay s n
  let v := stnReadings s n
  let never := (stnSt s n).last == 0 && wordQ (imgGet s 0 (16 * n + 9)) == .bad && d.peak.isNone &&
    (stnSlot s n).isNone
  let flags := b2n ((stnSt s n).state != 2) + 2 * b2n never + 8 * b2n d.restart + 16 * b2n d.notGood
  archRecord n day v.1 v.2.1 v.2.2.1 v.2.2.2 (f32OfRat (d.peak.getD 0)) flags (min 65535 (d.absent / 61440))

/-- The record of meter `m` for the day that ends now. -/
def meterRecord (s : State) (day m : Nat) : List Byte :=
  let x := meterGet s m
  let v := meterReadings s m
  archRecord (0x8000 + m) day v.1 v.2.1 v.2.2.1 v.2.2.2 (f32OfRat x.dayPeak)
    (x.dayFlags % 16 + 16 * b2n (x.dayErr != 0)) (min 65535 (x.dayErr / 60000))

/-- The sources that R391 archives: metering stations, then meters with flags bit 0. -/
def archSources (t : Timetable) : List Nat :=
  meteringStations t ++ ((List.range 72).filter (fun m =>
    match meterRec t m with
    | some r => bit r.flags 0
    | none => false)).map (0x8000 + ·)

/-- R391: the slots received before midnight and not yet published belong to the day that ends. -/
def archPending (s : State) : State :=
  forL (meteringStations (theTt s)) s (fun n s =>
    match stnSlot s n with
    | some d => stnBook n (slotValue d) s
    | none => s)

/-- The new day of the metering stations: what waits was booked in the old one. -/
def archNewDays (s : State) : State :=
  forL (meteringStations (theTt s)) { s with mtr := { s.mtr with stnDays := [] } } (fun n s =>
    if (stnSlot s n).isSome then stnDayUpd n (fun d => { d with taken := true }) s else s)

/-- R391, R426: a billing day has ended. -/
def archMidnight (day : Nat) (s0 : State) : State :=
  let s := archPending s0
  let recs := (archSources (theTt s)).map (fun src =>
    (src, if src < 0x8000 then stnRecord s day src else meterRecord s day (src - 0x8000)))
  let s1 := if s.dev.mode = .standby then s else { s with mtr := { s.mtr with archDue := some (day, recs) } }
  let s2 := archNewDays { s1 with mtr := { s1.mtr with meters := s1.mtr.meters.map (fun x => (x.1, { x.2 with dayPeak := 0, dayFlags := 0, dayErr := 0 })) } }
  ledgerDay s2

/-- The tick's part: the minutes a station is ABSENT, and the day's end. -/
def archTick (s : State) : State :=
  if !hwStates s.dev.mode then s
  else
    let s1 := forL (s.slk.stns.filter (fun x => x.2.state == 3)) s (fun x s =>
      stnDayUpd x.1 (fun d => { d with absent := d.absent + 1 }) s)
    if !s1.mgt.cal.valid then s1
    else
      let d := localDay s1
      let s2 := match s1.mtr.day with
        | some d0 => if d0 < d then archMidnight d0 s1 else s1
        | none => s1
      { s2 with mtr := { s2.mtr with day := some d } }

/-- R391: at the next entry into READY an interrupted run goes on with the values current then, and flag 5. -/
def archReady (s : State) : State :=
  match s.mtr.archDue with
  | none => s
  | some (day, recs) =>
    let again (x : Nat × List Byte) : Nat × List Byte :=
      let v := if x.1 < 0x8000 then stnReadings s x.1 else meterReadings s (x.1 - 0x8000)
      (x.1, archRecord x.1 day v.1 v.2.1 v.2.2.1 v.2.2.2 (w32 x.2 0x14) (u16 x.2 0x18 ||| 32) (u16 x.2 0x1A))
    { s with mtr := { s.mtr with archDue := some (day, recs.map again) } }

/-- Write one archive record; one that cannot be written is counted (MTR_CAUSE.archive). -/
def archWrite (day : Nat) (x : Nat × List Byte) (fails : List Nat) (s : State) : State :=
  if fails.contains x.1 then causeS Reg.MTR_CAUSE 8 x.1 (incFld Reg.MTR_CNT2 31 16 s)
  else redStream (.record (archPos x.1 day) x.2) (nvWrite (archPos x.1 day) x.2 s)

/-- MIDNIGHT_ARCHIVE: the due archive run writes its records (R391). `stop` is how many it has written when it is
interrupted, none for a whole run; `fails` lists the sources whose record cannot be written. MTR_ARCH shows a day whose
records are all written. -/
def execMidnightArchive (stop : Option Nat) (fails : List Nat) (s : State) : Result :=
  match s.mtr.archDue with
  | none => .next s
  | some (day, recs) =>
    match stop with
    | some n =>
      let s1 := forL (recs.take n) s (fun x s => archWrite day x fails s)
      .next { s1 with mtr := { s1.mtr with archDue := some (day, recs.drop n) } }
    | none =>
      let s1 := forL recs s (fun x s => archWrite day x fails s)
      let s2 := { s1 with mtr := { s1.mtr with archDue := none } }
      .next (if recs.any (fun x => fails.contains x.1) then s2 else setFld Reg.MTR_ARCH 15 0 day s2)

end Sys2Proof.Machine
end

