-- ==== Sys2Proof/Machine/Parity.lean ====
section
/-! DEFINITION. The check banks of system SRAM and the factor store (R477, R483, R484): the P and Q bytes of a byte lane of a
line, what a write of a data word makes of them, and how erased words are rebuilt; and what a read makes of a word whose stored
bits are wrong (R482, R484, R485). The check banks hold what R483 says at every time, so State gives them no field of their own:
their words are these functions of the line's data words. State keeps each data word as it was written and beside it which
stored words are wrong (`MemState.upsets`); a rebuild gives the word as it was written (`laneRebuild`). -/

namespace Sys2Proof.Machine

/-- R483: multiplication by g = 0x02 over GF(2⁸) with the field polynomial 0x11D. -/
def gfDouble (b : Byte) : Byte := if b.getLsbD 7 then (b <<< 1) ^^^ 0x1D#8 else b <<< 1

/-- R483: gⁱ times a byte. -/
def gfPow (i : Nat) (b : Byte) : Byte :=
  match i with
  | 0 => b
  | i + 1 => gfDouble (gfPow i b)

/-- R483: P of the data bytes of a lane, bank 0 first. -/
def laneP (ds : List Byte) : Byte :=
  match ds with
  | [] => 0#8
  | d :: ds => d ^^^ laneP ds

/-- R483: Q of the data bytes of a lane, the first of which lies in bank `i`. -/
def laneQFrom (i : Nat) (ds : List Byte) : Byte :=
  match ds with
  | [] => 0#8
  | d :: ds => gfPow i d ^^^ laneQFrom (i + 1) ds

/-- R483: Q of the data bytes of a lane, bank 0 first. -/
def laneQ (ds : List Byte) : Byte := laneQFrom 0 ds

/-- R483: what a write of bank `i` from `old` to `new` makes of the lane's P and Q. -/
def checkWrite (i : Nat) (old new : Byte) (pq : Byte × Byte) : Byte × Byte :=
  (pq.1 ^^^ old ^^^ new, pq.2 ^^^ gfPow i (old ^^^ new))

/-- The byte that a linear map of GF(2⁸) takes to `v` (division by its factor). -/
def gfSolve (f : Byte → Byte) (v : Byte) : Byte :=
  (((List.range 256).map (BitVec.ofNat 8)).find? (fun c => f c == v)).getD 0#8

/-- R484: the erased data banks of a line, ascending. Banks 16 and 17 are P and Q. -/
def erasedData (banks : List Nat) : List Nat := (List.range 16).filter (fun i => banks.contains i)

/-- R484: rebuild a lane whose erased banks are `banks`, from what its banks and check banks hold; none when three or more
words are erased. What an erased bank holds is not looked at. -/
def laneRebuild (banks : List Nat) (ds : List Byte) (p q : Byte) : Option (List Byte) :=
  let ds0 := (List.range ds.length).map (fun i => if banks.contains i then 0#8 else nth ds i 0#8)
  let p1 := p ^^^ laneP ds0
  let q1 := q ^^^ laneQ ds0
  match erasedData banks, banks.contains 16, banks.contains 17 with
  | [], _, _ => some ds0
  | [x], false, _ => some (setNth ds0 x p1)
  | [x], true, false => some (setNth ds0 x (gfSolve (gfPow x) q1))
  | [x, y], false, false =>
    let dx := gfSolve (fun c => gfPow x c ^^^ gfPow y c) (q1 ^^^ gfPow y p1)
    some (setNth (setNth ds0 x dx) y (p1 ^^^ dx))
  | _, _, _ => none

/-- R484: the erased words of a line can be rebuilt. -/
def rebuildable (banks : List Nat) : Bool := (laneRebuild banks (List.replicate 16 0#8) 0#8 0#8).isSome

/-! ### Reading a word whose stored bits are wrong (R482, R484, R485) -/

/-- R482, R484: the banks of a line whose words are inner-uncorrectable. -/
def lineErasures (mem line : Nat) (s : State) : List Nat :=
  (s.mem.upsets.filter (fun v => v.mem == mem && v.line == line && v.double)).map (·.bank)

/-- R482, R484: neither code mends the word. -/
def wordLost (s : State) (u : Upset) : Bool :=
  u.double && (decide (2 ≤ u.mem) || !rebuildable (lineErasures u.mem u.line s))

/-- The upsets that `gone` picks are no more: their words were written back right, or anew. -/
def memDrop (gone : Upset → Bool) (s : State) : State :=
  { s with mem := { s.mem with upsets := s.mem.upsets.filter (fun u => !gone u) } }

/-- R482, R484, R485, R490: a read meets an upset: a single wrong bit is corrected and the word written back; the
inner-uncorrectable words of a line of a memory with check banks are rebuilt and written back, all of them, and counted; a word
that neither code mends is lost, with the effect `lost` that R485 gives its memory, and stays so until it is written. A lost
word of P or Q is no error of its own: it is met with the data words of its line. -/
def memMeet (lost : Upset → State → State) (u : Upset) (s : State) : State :=
  if !s.mem.upsets.contains u then s
  else if !u.double then memCorrected u.mem (memDrop (fun v => v == u) s)
  else if wordLost s u then if u.bank < 16 then lost u (memUncorrected u.mem (upsetAddr u) s) else s
  else
    let es := lineErasures u.mem u.line s
    memRebuilt u.mem es.length (memBase u.mem + 128 * u.line + 8 * (erasedData es).getLastD 0)
      (memDrop (fun v => v.mem == u.mem && v.line == u.line && v.double) s)

/-- The words of [a, a + n) (host addresses) are read. -/
def memRead (lost : Upset → State → State) (a n : Nat) (s : State) : State :=
  forL (s.mem.upsets.filter (upsetIn a n)) s (memMeet lost)

/-- A word of [a, a + n) is lost. -/
def memBad (s : State) (a n : Nat) : Bool := s.mem.upsets.any (fun u => upsetIn a n u && wordLost s u)

/-- No stored bit of [a, a + n) is wrong. -/
def memClean (s : State) (a n : Nat) : Bool := !s.mem.upsets.any (upsetIn a n)

/-- R482: bits of a stored word turn wrong: two single errors in one word make it inner-uncorrectable. An operand that names no
word changes nothing. -/
def memUpset (u : Upset) (s : State) : State :=
  if 14 ≤ u.mem ∨ memLines u.mem ≤ u.line ∨ memBanks u.mem ≤ u.bank then s
  else
    let here (v : Upset) : Bool := v.mem == u.mem && v.line == u.line && v.bank == u.bank
    let v : Upset := { u with double := u.double || s.mem.upsets.any here }
    { s with mem := { s.mem with upsets := s.mem.upsets.filter (fun x => !here x) ++ [v] } }

end Sys2Proof.Machine
end

