-- ==== Sys2Proof/Machine/Ce.lean ====
section
/-! DEFINITION. The control engines' cyclic execution (chapter 8): memories, releases, dispatch, copy-in and copy-out,
traps, retentive areas, patches and program change. Execution time is counted with the maxima of R335 and of the timing
table (log entry 15). -/

namespace Sys2Proof.Machine

/-! ### Engines, tasks and memories (R279, R309) -/

/-- Engine `e`. -/
def ceGet (s : State) (e : Nat) : EngineSt := nth s.ce.engines e {}

/-- Replace engine `e`. -/
def ceSet (e : Nat) (x : EngineSt) (s : State) : State :=
  { s with ce := { s.ce with engines := setNth s.ce.engines e x } }

/-- Task `k` of an engine. -/
def EngineSt.task (x : EngineSt) (k : Nat) : TaskSt := smGet (fun _ => ({} : TaskSt)) x.tasks k

/-- An engine with task `k` replaced. -/
def EngineSt.setTask (x : EngineSt) (k : Nat) (t : TaskSt) : EngineSt :=
  { x with tasks := smPut (fun _ => ({} : TaskSt)) x.tasks k t }

/-- Task `k` of engine `e`. -/
def taskGet (s : State) (e k : Nat) : TaskSt := (ceGet s e).task k

/-- Replace task `k` of engine `e`. -/
def taskSet (e k : Nat) (t : TaskSt) (s : State) : State := ceSet e ((ceGet s e).setTask k t) s

/-- Bytes of code or data memory. -/
def memBytes (m : List (Nat × Byte)) (a n : Nat) : List Byte := smGetList (fun _ => 0#8) m a n

/-- Write bytes of code or data memory. -/
def memWrite (m : List (Nat × Byte)) (a : Nat) (bs : List Byte) : List (Nat × Byte) := smPutList (fun _ => 0#8) m a bs

/-- Bytes of engine `e`'s data memory. -/
def dataRead (s : State) (e a n : Nat) : List Byte := memBytes (ceGet s e).data a n

/-- Host address of engine `e`'s code memory; its data memory follows 0x2_0000 later (R279). -/
def ceBase (e : Nat) : Nat := 0x00200000 + e * 0x00040000

/-- An engine reads its local memory at [a, a + n) (host addresses); trap 0x0C is the effect of an error there (R338). -/
def ceMemRead (a n : Nat) (s : State) : State := memRead (fun _ s => s) a n s

/-- Write bytes of engine `e`'s data memory. -/
def dataWrite (e a : Nat) (bs : List Byte) (s : State) : State :=
  let x := ceGet s e
  memHeal (ceBase e + 0x20000 + a) bs.length (ceSet e { x with data := memWrite x.data a bs } s)

/-- Host read of engine memory (R279, R280): offset in the engine's 256 KiB. -/
def ceHostRead (s : State) (e off n : Nat) : List Byte :=
  (List.range n).map (fun i =>
    let a := off + i
    let x := ceGet s e
    if a < 0x20000 then smGet (fun _ => 0#8) x.code a else smGet (fun _ => 0#8) x.data (a - 0x20000))

/-- Host write of one byte of engine memory (R280). -/
def ceHostWrite (e off : Nat) (b : Byte) (s : State) : State :=
  let x := ceGet s e
  if off < 0x20000 then ceSet e { x with code := memWrite x.code off [b] } s
  else ceSet e { x with data := memWrite x.data (off - 0x20000) [b] } s

/-! ### Sections (R313, R314) -/

/-- The engine code section. -/
def codeSec (t : Timetable) (e : Nat) : List Byte := t.blob 0x0100 e
/-- The engine data section. -/
def dataSec (t : Timetable) (e : Nat) : List Byte := t.blob 0x0101 e
/-- Whether an engine has a code section. -/
def ceLoaded (t : Timetable) (e : Nat) : Bool := t.hasBlob 0x0100 e

/-- R313: text_start, text_end, lit_start, lit_end, fp_trap. -/
def textStart (t : Timetable) (e : Nat) : Nat := u32 (codeSec t e) 0
/-- R313. -/
def textEnd (t : Timetable) (e : Nat) : Nat := u32 (codeSec t e) 4
/-- R313. -/
def litStart (t : Timetable) (e : Nat) : Nat := u32 (codeSec t e) 8
/-- R313. -/
def litEnd (t : Timetable) (e : Nat) : Nat := u32 (codeSec t e) 0xC
/-- R313. -/
def fpTrap (t : Timetable) (e k : Nat) : Bool := bit (u16 (codeSec t e) 0x10) k

/-- R314: the stack base of a task. -/
def stackBase (t : Timetable) (e k : Nat) : Nat := u32 (dataSec t e) (8 + 4 * k)

/-- R311: the stack top of a task. -/
def stackTop (t : Timetable) (r : TaskRec) : Nat := stackBase t r.engine r.task + r.stack

/-- R288: the entries (ref, local) of a copy list at an offset of a byte image. -/
def copyList (bs : List Byte) (off : Nat) : List (Nat × Nat) :=
  (List.range (min 1024 (u32 bs off))).map (fun k => (u32 bs (off + 8 + 8 * k), u32 bs (off + 12 + 8 * k)))

/-- R288: the entries of a copy list in engine `e`'s data memory. -/
def copyListMem (s : State) (e off : Nat) : List (Nat × Nat) :=
  let n := min 1024 (leNat (dataRead s e off 4))
  let bs := dataRead s e (off + 8) (8 * n)
  (List.range n).map (fun k => (u32 bs (8 * k), u32 bs (8 * k + 4) % 2 ^ 17))

/-- R11, R289: the references that a task owns, from its output list in the placed section. -/
def ownedRefs (t : Timetable) (r : TaskRec) : List Nat := (copyList (dataSec t r.engine) r.outList).map (·.1)

/-! ### Releases (R282 to R287) -/

/-- The engines run: RUN, or STANDBY in shadow, with no power-fail save (R23, R305, R418). -/
def ceRuns (s : State) : Bool :=
  computes s && !s.pwr.saving && !s.pwr.saved

/-- Engine `e` has work: an engine that stays on the mirror of the active member has none (R507). -/
def engWorks (s : State) (e : Nat) : Bool := ceRuns s && !s.red.engWait.contains e

/-- Engine `e` runs: it has work, and its domain is ON (R405). -/
def engRuns (s : State) (e : Nat) : Bool := engWorks s e && domOn s (7 + e)

/-- Number of a task in events: engine × 16 + task (R536). -/
def taskId (e k : Nat) : Nat := e * 16 + k

/-- R282: a cyclic task falls due at this tick. -/
def taskDue (s : State) (r : TaskRec) : Bool :=
  let n := sinceOrigin s
  decide (r.offset ≤ n) && (n - r.offset) % max 1 r.period == 0

/-- Make a release of a task (R283): it waits for its dispatch. -/
def taskRelease (e k : Nat) (s : State) : State :=
  let t := taskGet s e k
  taskSet e k { t with mode := .released, relTick := s.pwr.tick, everReleased := true } s

/-- TASK_RELEASE (R282, R284): cyclic task `k` of engine `e` falls due at this tick: it is released, or the release is
skipped as an overrun. -/
def execTaskRelease (e k : Nat) (s : State) : Result :=
  match (theTt s).task e k with
  | none => .next s
  | some r =>
    let t := taskGet s e k
    if !engRuns s e ∨ r.kind ≠ 0 ∨ !taskDue s r ∨ t.evalTick = some s.pwr.tick ∨ !ceLoaded (theTt s) e then .next s
    else
      let s1 := taskSet e k { t with evalTick := some s.pwr.tick } s
      match t.mode with
      | .stopped => .next s1
      | .idle => .next (taskRelease e k s1)
      | _ =>
        .next (causeS Reg.CE_CAUSE 1 (taskId e k)
          (taskSet e k { t with evalTick := some s.pwr.tick, overruns := satInc 16 t.overruns } s1))

/-- R286: the truth value of an event reference now; a BAD word keeps the last. -/
def eventTruth (s : State) (ref : Nat) (old : Option Bool) : Option Bool :=
  match refGet s ref with
  | some w => if wordQ w = .bad then old else some (wordVal w != 0#32)
  | none => old

/-- EVENT_TASK_RELEASE (R286, R287): the event reference of a task is evaluated at this tick; an edge of the set kind
releases it, is held pending, or is lost. -/
def execEventTaskRelease (e k : Nat) (s : State) : Result :=
  match (theTt s).task e k with
  | none => .next s
  | some r =>
    let t := taskGet s e k
    if !engRuns s e ∨ r.kind ≠ 1 ∨ t.evalTick = some s.pwr.tick ∨ !ceLoaded (theTt s) e then .next s
    else
      let now := eventTruth s r.eventRef t.truth
      let edge : Bool := match t.truth, now with
        | some false, some true => r.edge == 1 || r.edge == 3
        | some true, some false => r.edge == 2 || r.edge == 3
        | _, _ => false
      let t1 := { t with truth := now, evalTick := some s.pwr.tick }
      let s1 := taskSet e k t1 s
      if !edge then .next s1
      else
        match t.mode with
        | .stopped => .next s1
        | .idle => .next (taskRelease e k s1)
        | _ =>
          if t.pendingRel then
            .next (causeS Reg.CE_CAUSE 2 (taskId e k) (taskSet e k { t1 with lost := satInc 16 t.lost } s1))
          else .next (taskSet e k { t1 with pendingRel := true } s1)

/-- R288: copy-in: every listed word into its local word, one generation of each region. -/
def copyIn (e : Nat) (r : TaskRec) (s : State) : State :=
  let l := copyListMem s e r.inList
  let vs := l.map (fun p => (p.2, (refGet s p.1).getD 0))
  forL vs s (fun p s => dataWrite e p.1 (leBytes 8 p.2.toNat) s)

/-- R311: the bank of a task at the start of its execution. -/
def taskFresh (tt : Timetable) (r : TaskRec) (t : TaskSt) : TaskSt :=
  { t with w := setNth (List.replicate 32 0#32) 31 (BitVec.ofNat 32 (stackTop tt r)), pc := r.entry, flags := 0 }

/-- Cycles of a copy of `k` entries: 0.1 µs + 0.01 µs × k at 400 MHz. -/
def copyCycles (k : Nat) : Nat := 40 + 4 * k

/-- R307: execution time of engine `e` in the running headway. -/
def ceSpend (e n : Nat) (s : State) : State :=
  let x := ceGet s e
  ceSet e { x with hwCycles := x.hwCycles + n } s

/-- Tasks of an engine that are waiting: released or preempted. -/
def taskWaits (t : TaskSt) : Bool := t.mode == .released || t.mode == .preempted

/-- The waiting task of an engine with the lowest priority number. -/
def nextTask (s : State) (e : Nat) : Option TaskRec :=
  let cs := (theTt s).tasks.filter (fun r => r.engine == e && taskWaits (taskGet s e r.task))
  cs.foldl (fun best r =>
    match best with
    | some b => if r.priority < b.priority then some r else some b
    | none => some r) none

/-- The priority of the task that executes on an engine. -/
def runPriority (s : State) (e : Nat) : Option Nat :=
  match (ceGet s e).run with
  | some k => ((theTt s).task e k).map (·.priority)
  | none => none

/-- TASK_DISPATCH (R282, R283): the most urgent waiting task of engine `e` begins (copy-in, fresh bank) or resumes,
preempting a running task of higher priority number. -/
def execTaskDispatch (e : Nat) (s : State) : Result :=
  if !engRuns s e then .next s
  else
    match nextTask s e with
    | none => .next s
    | some r =>
      let beaten := match runPriority s e with
        | some p => decide (r.priority < p)
        | none => true
      if !beaten then .next s
      else
        let s0 := match (ceGet s e).run with
          | some k => taskSet e k { taskGet s e k with mode := .preempted } s
          | none => s
        let t := taskGet s0 e r.task
        let s1 := ceSet e { ceGet s0 e with run := some r.task, atEnd := none } s0
        if t.mode = .preempted then .next (taskSet e r.task { t with mode := .running } s1)
        else
          let n := (copyListMem s1 e r.inList).length
          let t1 := taskFresh (theTt s) r t
          let s2 := taskSet e r.task { t1 with
            mode := .running, cycles := copyCycles n, releases := (t.releases + 1) % 2 ^ 32 } s1
          .next (copyIn e r (ceSpend e (copyCycles n) s2))

/-! ### The end of a release (R289 to R293) -/

/-- R289, R12: copy-out of one word: performed only on an owned reference; the rest of the word is zero. Answers the state
and whether an SO word was written late. -/
def copyOutWord (own : List Nat) (ref : Nat) (w : DWord) (s : State) : State :=
  if own.contains ref then outWrite ref (w &&& 0x3FFFFFFFF#64) s
  else cause Reg.CE_CAUSE 3 (incFld Reg.CE_CNT 15 0 s)

/-- R289: the copy-out of a task. -/
def copyOut (r : TaskRec) (s : State) : State :=
  let own := ownedRefs (theTt s) r
  let l := copyListMem s r.engine r.outList
  let late := l.any (fun p => own.contains p.1 && outIsLate s p.1)
  let s1 := forL l s (fun p s => copyOutWord own p.1 (BitVec.ofNat 64 (leNat (dataRead s r.engine p.2 8))) s)
  if late then
    let t := taskGet s1 r.engine r.task
    countLate (taskSet r.engine r.task { t with late := satInc 16 t.late } s1)
  else s1

/-- A release of a task is over: the engine is free, and a pending event release follows (R287). -/
def releaseEnds (e k : Nat) (s : State) : State :=
  let x := ceGet s e
  let t := x.task k
  let x1 := { x with run := if x.run = some k then none else x.run }
  ceSet e (x1.setTask k (if t.pendingRel then { t with mode := .released, pendingRel := false, relTick := s.pwr.tick }
    else { t with mode := .idle })) s

/-- R291: a task enters the stopped state: each word of its output list is written once, with the value last written (the
initial one where nothing has written it yet) and quality SUBST. -/
def taskStop (r : TaskRec) (s : State) : State :=
  let e := r.engine
  let x := ceGet s e
  let t := x.task r.task
  let s1 := ceSet e ({ x with run := if x.run = some r.task then none else x.run }.setTask r.task
    { t with mode := .stopped, pendingRel := false }) s
  forL (ownedRefs (theTt s) r) s1 (fun ref s =>
    match refSplit ref with
    | some (g, i) => outWrite ref (mkWord (wordVal (imgGetWork s g i)) .subst) s
    | none => s)

/-- R292, R293, R337: a trap ends the release without copy-out and acts by the task's policy. Trap 0x0C is also fatal
(R338). The trap registers keep a trap until the host has read it, whatever the tick of the next one (DEDUCED, log entry
95). -/
def ceTrap (e k code pc : Nat) (s : State) : State :=
  match (theTt s).task e k with
  | none => s
  | some r =>
    let a := Reg.CE_E_TRAP + 0x200 * e
    let s1 := if getBit s a 12 then s
      else setReg (Reg.CE_E_TRAPPC + 0x200 * e) (BitVec.ofNat 32 pc)
        (setReg a (setField (setField (setField 0#32 7 0 code) 11 8 k) 12 12 1) s)
    let s2 := ceSet e { ceGet s1 e with atEnd := none } s1
    let s3 := causeS Reg.CE_CAUSE 0 (taskId e k) (incFld Reg.CE_CNT 31 16 s2)
    let s4 := if r.trapPolicy = 0 then taskStop r s3 else releaseEnds e k s3
    let s5 := if r.trapPolicy = 1 then fatal 8 (taskId e k) s4 else s4
    if code = 0x0C then fatal 9 (taskId e k) s5 else s5

/-- R285: the release of a task has used more than its budget (cycles of 2.5 ns; the budget is in units of 10 µs). -/
def overBudget (r : TaskRec) (cycles : Nat) : Bool := r.budget != 0 && decide (r.budget * 4000 < cycles)

/-- BUDGET_EXPIRE (R285): the running release of engine `e` exceeds its budget and takes the budget trap. -/
def execBudgetExpire (e : Nat) (s : State) : Result :=
  match (ceGet s e).run with
  | none => .next s
  | some k =>
    match (theTt s).task e k with
    | none => .next s
    | some r =>
      let t := taskGet s e k
      if engRuns s e ∧ overBudget r t.cycles then .next (ceTrap e k 0x0B t.pc s) else .next s

/-! ### Commands on tasks (R304) -/

/-- Write CE_CMDSTAT. -/
def ceCmdStat (v : Nat) (s : State) : State := setFld Reg.CE_CMDSTAT 1 0 v s

/-- R304: abandon the current release of a task (R290); a pending event release is its next one, and a stopped task stays
stopped until a start. -/
def taskAbandon (e k : Nat) (s : State) : State :=
  if (taskGet s e k).mode = .stopped then s else releaseEnds e k s

/-- R304: perform a CE_CMD word: stop 1, start 2, restart 3. -/
def ceCommand (data : Word) (s : State) : State :=
  let e := field data 2 0
  let k := field data 7 4
  let c := field data 9 8
  match (theTt s).task e k with
  | none => ceCmdStat 3 s
  | some r =>
    if field data 31 16 ≠ 0xC0DE ∨ c = 0 then ceCmdStat 3 s
    else
      let t := taskGet s e k
      match c with
      | 1 => ceCmdStat 2 (if t.mode = .stopped then s else taskStop r s)
      | 2 => ceCmdStat 2 (if t.mode = .stopped then taskSet e k { t with mode := .idle } s else s)
      | _ => ceCmdStat 2 (taskAbandon e k s)

/-! ### Retentive areas (R296 to R298) -/

/-- Request a capture of every engine that has a retentive area (R296). -/
def retRequest (s : State) : State :=
  if s.dev.mode = .standby then s
  else forL (theTt s).retentive s (fun r s =>
    let x := ceGet s r.engine
    if x.retReq.isSome then s else ceSet r.engine { x with retReq := some s.pwr.tick } s)

/-- RETENTIVE_SAVE (R296): a write of CE_RET_CTL.save. -/
def execRetentiveSave (s : State) : Result := .next (retRequest s)

/-- RETENTIVE_SAVE_PERIODIC (R296): CE_RET_CTL.period seconds have passed. -/
def execRetentiveSavePeriodic (s : State) : Result :=
  if hwStates s.dev.mode ∧ getFld s Reg.CE_RET_CTL 15 0 * 1024 ≤ s.pwr.tick - s.ce.retTick then
    .next (retRequest { s with ce := { s.ce with retTick := s.pwr.tick } })
  else .next s

/-- No task of engine `e` is running, preempted or released. -/
def ceIdle (s : State) (e : Nat) : Bool :=
  (ceGet s e).run.isNone && !(ceGet s e).tasks.any (fun p => taskWaits p.2)

/-- R447 kind 0x06: the payload of an engine's retentive record. -/
def retPayload (r : Retentive) (mid : Bool) (s : State) : List Byte :=
  wordBytes r.layoutHash ++ leBytes 1 (b2n mid) ++ leBytes 3 0 ++ leBytes 4 (s.pwr.tick % 2 ^ 32) ++
    leBytes 4 r.length ++ dataRead s r.engine r.offset r.length

/-- Capture an engine's area and ask for its record. -/
def retCapture (r : Retentive) (mid : Bool) (owner : JOwner) (s : State) : State :=
  let e := r.engine
  let s1 := setFld Reg.CE_RET_STAT (16 + e) (16 + e) (b2n mid) (ceSet e { ceGet s e with retReq := none } s)
  jnlRequest { kind := 6, inst := e, payload := retPayload r mid s, owner := owner }
    { s1 with ce := { s1.ce with retLeft := s1.ce.retLeft.filter (· != e) ++ [e] } }

/-- RETENTIVE_CAPTURE (R297): engine `e`'s area is captured at the next END once a headway has passed since the request,
which sets mid_task, or at a tick at which it is idle. -/
def execRetentiveCapture (e : Nat) (s : State) : Result :=
  let x := ceGet s e
  match (if s.pwr.saving then none else x.retReq), (theTt s).ret e with
  | some t0, some r =>
    if x.atEnd = some s.pwr.tick ∧ (theTt s).plan.headway ≤ s.pwr.tick - t0 then
      .next (retCapture r true (.retentive e) s)
    else if ceIdle s e then .next (retCapture r false (.retentive e) s)
    else .next s
  | _, _ => .next s

/-- Every engine of the save has been captured, and no record of it is outstanding. -/
def retAll (s : State) : Bool :=
  s.ce.retLeft.isEmpty && (List.range 8).all (fun e => (ceGet s e).retReq.isNone)

/-- A retentive record is durable or has failed: the save counts once, when every engine of it has been captured and all of
its records are durable (CE_RET_SEQ). At a power-fail save the last engine's record ends it (R419). -/
def retDone (e : Nat) (ok : Bool) (s : State) : State :=
  let s1 := { s with ce := { s.ce with
    retLeft := s.ce.retLeft.filter (· != e)
    retFailed := s.ce.retFailed || !ok } }
  if retAll s1 then
    let s2 := { s1 with ce := { s1.ce with retFailed := false } }
    if s1.ce.retFailed then s2 else incReg Reg.CE_RET_SEQ s2
  else s1

/-- R298: initialise an engine's area from the data image. -/
def retInit (r : Retentive) (s : State) : State :=
  let e := r.engine
  let bs := fit 0#8 r.length (slice (ceGet s e).image r.offset r.length)
  causeS Reg.CE_CAUSE 6 (taskId e 0) (setFld Reg.CE_RET_STAT (8 + e) (8 + e) 1 (dataWrite e r.offset bs s))

/-- R298: at the first entry into RUN after a boot: restore from the latest record with the same layout, or initialise. -/
def retRestore (s : State) : State :=
  if s.ce.retDone then s
  else
    let s1 := forL (theTt s).retentive s (fun r s =>
      match jnlLatest s 6 r.engine with
      | some p =>
        if w32 p 0 = r.layoutHash then
          let e := r.engine
          setFld Reg.CE_RET_STAT (16 + e) (16 + e) (u8 p 4 % 2) (setFld Reg.CE_RET_STAT e e 1
            (dataWrite e r.offset (fit 0#8 r.length (slice p 16 (u32 p 12))) s))
        else retInit r s
      | none => retInit r s)
    { s1 with ce := { s1.ce with retDone := true } }

/-- R298: an entry into RUN that is no start is the first entry too: later entries leave the retentive areas alone. -/
def retEntered (s : State) : State := { s with ce := { s.ce with retDone := true } }

/-! ### Entry into and exit from RUN (R290, R299, R305) -/

/-- Reload data memory from the data image outside the retentive area (R299). -/
def dataReload (e : Nat) (s : State) : State :=
  let x := ceGet s e
  let m := memWrite [] 0 x.image
  match (theTt s).ret e with
  | some r => ceSet e { x with data := memWrite m r.offset (memBytes x.data r.offset r.length) } s
  | none => ceSet e { x with data := m } s

/-- Entry into RUN from READY: data memory, retentive areas and tasks (R298, R299). -/
def ceEnterRun (s : State) : State :=
  let s1 := forN 8 s (fun e s =>
    let s' := dataReload e s
    ceSet e { ceGet s' e with
      run := none, atEnd := none,
      tasks := (ceGet s' e).tasks.map (fun p => (p.1, { p.2 with
        mode := .idle, pendingRel := false, truth := none, evalTick := none, everReleased := false })) } s')
  retRestore s1

/-- Leaving RUN or STANDBY: every release is abandoned without copy-out (R290, R305). -/
def ceHalt (s : State) : State :=
  forN 8 s (fun e s =>
    let x := ceGet s e
    ceSet e { x with run := none, atEnd := none, tasks := x.tasks.map (fun p =>
      (p.1, if p.2.mode = .stopped then p.2 else { p.2 with mode := .idle, pendingRel := false })) } s)

/-- R306, R308: the counters of tasks are cleared on entry into READY. -/
def ceReady (s : State) : State :=
  forN 8 s (fun e s =>
    let x := ceGet s e
    ceSet e { x with tasks := x.tasks.map (fun p => (p.1, { p.2 with
      overruns := 0, longest := 0, releases := 0, lost := 0, late := 0 })) } s)

/-! ### Placement and restart (R279, R303) -/

/-- R279: place an engine's sections; its tasks are defined by their records. -/
def cePlaceOne (t : Timetable) (e : Nat) (s : State) : State :=
  ceSet e { code := memWrite [] 0 (codeSec t e), data := memWrite [] 0 (dataSec t e), image := dataSec t e } s

/-- Place every engine. -/
def cePlace (t : Timetable) (s : State) : State :=
  forN 8 { s with ce := { retTick := s.pwr.tick } } (cePlaceOne t)

/-- R303: a task of a restarted engine: it is released from the next tick on, and its counters run on (R308). -/
def taskRestarted (s : State) (t : TaskSt) : TaskSt :=
  { evalTick := some s.pwr.tick, overruns := t.overruns, last := t.last, longest := t.longest, releases := t.releases,
    lost := t.lost, late := t.late }

/-- R303: an engine whose sections, tasks or retentive record a commit boundary changes restarts: loading takes no time in
the model, so its tasks are released from the tick after the boundary. A requested capture of its area still waits. -/
def ceRestart (old new : Timetable) (e : Nat) (s : State) : State :=
  let keep := match old.ret e with
    | some r => dataRead s e r.offset r.length
    | none => []
  let was := ceGet s e
  let pend := was.patches
  let s1 := cePlaceOne new e s
  let s2 := ceSet e { ceGet s1 e with
    hwCycles := was.hwCycles, retReq := was.retReq,
    tasks := (new.tasks.filter (·.engine == e)).foldl (fun m r =>
      smPut (fun _ => ({} : TaskSt)) m r.task (taskRestarted s (was.task r.task))) [] } s1
  let s3 := match old.ret e, new.ret e with
    | some a, some b =>
      if a.layoutHash = b.layoutHash then dataWrite e b.offset (fit 0#8 b.length keep) s2 else retInit b s2
    | none, some b => retInit b s2
    | _, none => s2
  let s4 := if pend.isEmpty then s3
    else causeS Reg.CE_CAUSE 5 (taskId e 0) (setFld Reg.CE_PATCH_CTL 23 20 7 (setFld Reg.CE_PATCH_CTL 19 18 3 s3))
  causeS Reg.CE_CAUSE 7 (taskId e 0) s4

/-- Whether a commit boundary changes what R303 names of an engine. -/
def ceChanged (old new : Timetable) (e : Nat) : Bool :=
  codeSec old e != codeSec new e || dataSec old e != dataSec new e ||
    old.tasks.filter (·.engine == e) != new.tasks.filter (·.engine == e) || old.ret e != new.ret e

/-- R303 for all engines; `theTt` must already be the new timetable. -/
def ceCommit (old new : Timetable) (s : State) : State :=
  forN 8 s (fun e s => if ceChanged old new e then ceRestart old new e s else s)

/-! ### Patches (R300 to R302) -/

/-- Byte `i` of the patch data registers. -/
def patchBytes (s : State) (n : Nat) : List Byte :=
  (wordBytes (getReg s Reg.CE_PATCH_LO) ++ wordBytes (getReg s Reg.CE_PATCH_HI)).take n

/-- R300, R315: the place of a patch lies in data memory outside every stack, or wholly in the literal area. -/
def patchPlaceOk (t : Timetable) (e space addr n : Nat) : Bool :=
  if space = 1 then decide (litStart t e + addr + n ≤ litEnd t e)
  else
    decide (addr + n ≤ 0x20000) &&
      (t.tasks.filter (·.engine == e)).all (fun r =>
        decide (addr + n ≤ stackBase t e r.task ∨ stackTop t r ≤ addr))

/-- R301: why a patch is refused (0: it is not). A staged one (R302) takes its place behind those that wait. -/
def patchReason (staged masked : Bool) (e k size space addr : Nat) (s : State) : Nat :=
  let t := theTt s
  let n := 2 ^ size
  if !staged && !(ceGet s e).patches.isEmpty then 1
  else if !patchPlaceOk t e space addr n then 2
  else if (t.task e k).isNone then 3
  else if addr % n ≠ 0 then 4
  else if masked then 6
  else 0

/-- Write a patch (R300): one indivisible write. -/
def patchWrite (e : Nat) (p : Patch) (s : State) : State :=
  let s1 :=
    if p.space = 1 then
      let x := ceGet s e
      let a := litStart (theTt s) e + p.addr
      memHeal (ceBase e + a) p.bytes.length (ceSet e { x with code := memWrite x.code a p.bytes } s)
    else dataWrite e p.addr p.bytes s
  causeS Reg.CE_CAUSE 4 (taskId e p.task) (setFld Reg.CE_PATCH_CTL 23 20 0 (setFld Reg.CE_PATCH_CTL 19 18 2 s1))

/-- R300: a task stands at a cycle boundary: it is not between its copy-in and the end of its copy-out. -/
def atBoundary (t : TaskSt) : Bool := t.mode == .idle || t.mode == .released || t.mode == .stopped

/-- R300 to R302: submit the patch that the registers describe. -/
def patchEnter (staged masked : Bool) (s : State) : State :=
  let c := getReg s Reg.CE_PATCH_CTL
  let e := field c 2 0
  let k := field c 7 4
  let addr := getFld s Reg.CE_PATCH_ADDR 16 0
  let reason := patchReason staged masked e k (field c 9 8) (field c 10 10) addr s
  if reason ≠ 0 then
    causeS Reg.CE_CAUSE 5 (taskId e k) (setFld Reg.CE_PATCH_CTL 23 20 reason (setFld Reg.CE_PATCH_CTL 19 18 3 s))
  else
    let p : Patch := { task := k, space := field c 10 10, addr := addr, bytes := patchBytes s (2 ^ field c 9 8) }
    let t := taskGet s e k
    let x := ceGet s e
    if t.mode = .stopped ∨ !t.everReleased then
      let s1 := patchWrite e p s
      if x.patches.isEmpty then s1 else setFld Reg.CE_PATCH_CTL 19 18 1 s1
    else
      setFld Reg.CE_PATCH_CTL 23 20 0 (setFld Reg.CE_PATCH_CTL 19 18 1 (ceSet e { x with patches := x.patches ++ [p] } s))

/-- A patch that the host submits directly. -/
def patchSubmit (masked : Bool) (s : State) : State := patchEnter false masked s

/-- PATCH_APPLY (R300, R302): the first pending patch of engine `e` whose task stands at its cycle boundary is written. -/
def execPatchApply (e : Nat) (s : State) : Result :=
  let x := ceGet s e
  match x.patches.find? (fun p => atBoundary (x.task p.task)) with
  | none => .next s
  | some p =>
    let rest := x.patches.erase p
    let s1 := patchWrite e p (ceSet e { x with patches := rest } s)
    .next (if rest.isEmpty then s1 else setFld Reg.CE_PATCH_CTL 19 18 1 s1)

/-! ### Headways and views (R306 to R308) -/

/-- R307: at a headway start the execution time of the last headway, in 1/65,536 of it. -/
def ceHeadway (s : State) : State :=
  let h := max 1 (theTt s).plan.headway
  forN 8 s (fun e s =>
    let x := ceGet s e
    -- cycles × 2.5 ns over h / 1,024 s
    let v := min 0xFFFF (x.hwCycles * 25 * 65536 * 1024 / (h * 10000000000))
    maxFld (Reg.CE_E_LOAD + 0x200 * e) 31 16 v (setFld (Reg.CE_E_LOAD + 0x200 * e) 15 0 v (ceSet e { x with hwCycles := 0 } s)))

/-- CE_STAT. -/
def ceStat (s : State) : Word :=
  forN 8 0#32 (fun e w =>
    let l := s.dev.tt.isSome && ceLoaded (theTt s) e
    setField (setField w e e (b2n (l && engWorks s e))) (8 + e) (8 + e) (b2n l))

/-- CE_En_STAT. -/
def ceEStat (s : State) (e : Nat) : Word :=
  let l := s.dev.tt.isSome && ceLoaded (theTt s) e
  let idle := ceIdle s e
  setField (setField (setField 0#32 0 0 (b2n (l && engWorks s e))) 1 1 (b2n (l && idle))) 7 4 ((ceGet s e).run.getD 0)

/-- R308: the code of a task's state. -/
def taskModeCode (m : TaskMode) : Nat :=
  match m with
  | .idle => 1
  | .released => 2
  | .running => 3
  | .preempted => 4
  | .stopped => 5

/-- R308: the register at offset `o` (0, 4, 8, 12) of a task's bank; zero for an undefined task. -/
def taskRegs (s : State) (e k o : Nat) : Word :=
  match (theTt s).task e k with
  | none => 0#32
  | some r =>
    let t := taskGet s e k
    match o with
    | 0 => setField (setField (setField (setField (setField 0#32 2 0 (taskModeCode t.mode)) 3 3 r.kind) 7 4 r.priority)
        8 8 (b2n t.pendingRel)) 31 16 t.overruns
    | 4 => setField (setField 0#32 15 0 t.last) 31 16 t.longest
    | 8 => BitVec.ofNat 32 t.releases
    | _ => setField (setField 0#32 15 0 t.lost) 31 16 t.late

/-- TRAPPC_READ (R307): a read of CE_En_TRAPPC clears the trap valid bit. -/
def trapPcRead (e : Nat) (s : State) : Word × State :=
  (getReg s (Reg.CE_E_TRAPPC + 0x200 * e), setFld (Reg.CE_E_TRAP + 0x200 * e) 12 12 0 s)

/-- TRAPPC_READ (R307). -/
def execTrappcRead (e : Nat) (s : State) : Result := if e < 8 then .next (trapPcRead e s).2 else .next s

end Sys2Proof.Machine
end

