-- ==== Sys2Proof/Machine/CeIsa.lean ====
section
/-! DEFINITION. The control engine instruction set (chapter 9). An instruction row acts on the word that engine `e`'s
running task is about to execute, when that word is a legal encoding of the row's instruction; otherwise the row has no
effect (another row's step is due). Conditions are judged in the order of R338. -/

namespace Sys2Proof.Machine

/-! ### Fields of a word (R316) -/

/-- Opcode. -/
def iOp (w : Word) : Nat := field w 31 26
/-- rd (formats R, I, S); ra of format B. -/
def iRd (w : Word) : Nat := field w 25 21
/-- ra (formats R, I, S); rb of format B. -/
def iRa (w : Word) : Nat := field w 20 16
/-- rb of format R. -/
def iRb (w : Word) : Nat := field w 15 11
/-- func of format R. -/
def iFunc (w : Word) : Nat := field w 10 0
/-- imm16 of formats I and B. -/
def iImm (w : Word) : Nat := field w 15 0
/-- func of format S. -/
def iSys (w : Word) : Nat := field w 15 12
/-- imm12 of format S. -/
def iImm12 (w : Word) : Nat := field w 11 0
/-- sext(imm16). -/
def sext16 (w : Word) : Word := (BitVec.ofNat 16 (iImm w)).signExtend 32
/-- zext(imm16). -/
def zext16 (w : Word) : Word := BitVec.ofNat 32 (iImm w)
/-- sext(imm26). -/
def sext26 (w : Word) : Word := (BitVec.ofNat 26 (field w 25 0)).signExtend 32

/-- Format R with an opcode and func. -/
def isR (op func : Nat) (w : Word) : Bool := iOp w == op && iFunc w == func
/-- Format R with rb zero (unused, or required to be zero). -/
def isR1 (op func : Nat) (w : Word) : Bool := isR op func w && iRb w == 0
/-- Format R with rb zero and an even register pair rd (R312). -/
def isRPair (op func : Nat) (w : Word) : Bool := isR1 op func w && iRd w % 2 == 0
/-- An opcode (formats I, B, J). -/
def isOp (op : Nat) (w : Word) : Bool := iOp w == op
/-- Format I with an even register pair rd. -/
def isOpPair (op : Nat) (w : Word) : Bool := iOp w == op && iRd w % 2 == 0
/-- Format I with ra zero. -/
def isOp0 (op : Nat) (w : Word) : Bool := iOp w == op && iRa w == 0
/-- Format S with a func. -/
def isS (func : Nat) (w : Word) : Bool := iOp w == 0x2A && iSys w == func

/-- Every legal encoding (R317, R318): the disjunction of the instructions' own. -/
def legalWord (w : Word) : Bool :=
  match iOp w with
  | 0x00 =>
    let f := iFunc w
    decide (f ≤ 0x0E) || decide (0x10 ≤ f ∧ f ≤ 0x13) || decide (0x18 ≤ f ∧ f ≤ 0x1A) || (f == 0x1C && iRb w == 0)
  | 0x01 =>
    let f := iFunc w
    decide (f ≤ 0x0F) && (!(f == 4 || f == 8 || f == 9 || f == 0xD || f == 0xE) || iRb w == 0)
  | 0x08 => iRa w == 0
  | 0x15 => iRd w % 2 == 0
  | 0x16 => iRa w == 0
  | 0x17 => iRa w == 0 && iRd w % 2 == 0
  | 0x1B => iRd w % 2 == 0
  | 0x28 =>
    let f := iFunc w
    ((f == 0 || f == 1) && iRb w == 0 && iRd w % 2 == 0) || f == 2 || (f == 3 && iRb w == 0)
  | 0x29 =>
    let f := iFunc w
    f == 0 || f == 1 || f == 2 || (f == 3 && iRb w == 0) || decide (8 ≤ f ∧ f ≤ 0xA)
  | 0x2A =>
    match iSys w with
    | 0 => iRd w == 0 && iRa w == 0 && iImm12 w == 0
    | 1 => iRd w == 0 && iRa w == 0
    | 2 => iRd w == 0 && iRa w == 0 && decide (0x080 ≤ iImm12 w ∧ iImm12 w ≤ 0x0FF)
    | 3 => iRd w == 0 && decide (0x100 ≤ iImm12 w)
    | 4 => iRa w == 0 && decide (iImm12 w ≤ 6)
    | 5 => iRa w == 0
    | _ => false
  | op => decide (0x02 ≤ op ∧ op ≤ 0x07) || decide (0x10 ≤ op ∧ op ≤ 0x14) || decide (0x18 ≤ op ∧ op ≤ 0x1A) ||
      decide (0x20 ≤ op ∧ op ≤ 0x27)

/-! ### Registers of a bank (R310, R312) -/

/-- Read a register: w0 reads as zero. -/
def TaskSt.reg (t : TaskSt) (i : Nat) : Word := if i = 0 then 0#32 else nth t.w i 0#32

/-- Write a register: writes to w0 are discarded. -/
def TaskSt.setReg (t : TaskSt) (i : Nat) (v : Word) : TaskSt := if i = 0 then t else { t with w := setNth t.w i v }

/-- Write a register pair (R312). -/
def TaskSt.setPair (t : TaskSt) (i : Nat) (lo hi : Word) : TaskSt := (t.setReg i lo).setReg (i + 1) hi

/-! ### One instruction -/

/-- The task that an engine executes, at an instruction boundary. -/
structure CeCtx where
  e : Nat
  k : Nat
  tt : Timetable
  r : TaskRec
  t : TaskSt
  w : Word
  deriving DecidableEq, Repr

/-- What an instruction does: a trap, which writes nothing (R337), the trap of a memory error in the `n` bytes of data or literals
at host address `a`, or the bank and state it leaves, with the next pc. -/
inductive CeOut where
  | trap (code : Nat)
  | memTrap (a n : Nat)
  | done (t : TaskSt) (pc : Nat) (s : State)
  deriving DecidableEq, Repr

/-- The running task of engine `e` with the word at its pc; none when no task executes there. -/
def ceCtx (e : Nat) (s : State) : Option CeCtx :=
  if !engRuns s e then none
  else
    match (ceGet s e).run with
    | none => none
    | some k =>
      match (theTt s).task e k with
      | none => none
      | some r =>
        let t := taskGet s e k
        some { e := e, k := k, tt := theTt s, r := r, t := t,
               w := BitVec.ofNat 32 (leNat (memBytes (ceGet s e).code t.pc 4)) }

/-- The pc lies among the instructions (R327). -/
def CeCtx.inText (c : CeCtx) : Bool := decide (textStart c.tt c.e ≤ c.t.pc ∧ c.t.pc < textEnd c.tt c.e)

/-- Store the bank after an instruction, with its cycles. -/
def ceCommitBank (c : CeCtx) (t : TaskSt) (pc cycles : Nat) (s : State) : State :=
  let s1 := taskSet c.e c.k { t with pc := pc, cycles := c.t.cycles + cycles } s
  ceSet c.e { ceGet s1 c.e with hwCycles := (ceGet s1 c.e).hwCycles + cycles, atEnd := none } s1

/-- One instruction of engine `e` (R338): budget, fetch, memory error on fetch, then the instruction if the word is a
legal encoding of it (`legal`). -/
def ceStep (e : Nat) (legal : Word → Bool) (cycles : CeCtx → Nat) (act : CeCtx → State → CeOut) (s : State) : State :=
  match ceCtx e s with
  | none => s
  | some c =>
    if !c.inText ∨ !legal c.w then s
    else if overBudget c.r c.t.cycles then ceTrap e c.k 0x0B c.t.pc s
    else
      let s1 := ceMemRead (ceBase e + c.t.pc) 4 s
      if memBad s (ceBase e + c.t.pc) 4 then ceTrap e c.k 0x0C c.t.pc s1
      else
        match act c s1 with
        | .trap code => ceTrap e c.k code c.t.pc s1
        | .memTrap a n => ceTrap e c.k 0x0C c.t.pc (ceMemRead a n s1)
        | .done t pc s2 => ceCommitBank c t pc (cycles c) s2

/-- The ordinary end of an instruction: the next pc follows. -/
def CeCtx.next (c : CeCtx) (t : TaskSt) (s : State) : CeOut := .done t (c.t.pc + 4) s

/-- The register that a field names. -/
def CeCtx.rd (c : CeCtx) : Word := c.t.reg (iRd c.w)
/-- ra's value. -/
def CeCtx.ra (c : CeCtx) : Word := c.t.reg (iRa c.w)
/-- rb's value. -/
def CeCtx.rb (c : CeCtx) : Word := c.t.reg (iRb c.w)

/-- rd := f ra rb, in `n` cycles. -/
def ceAlu (op func n : Nat) (f : Word → Word → Word) (e : Nat) (s : State) : State :=
  ceStep e (isR op func) (fun _ => n) (fun c s => c.next (c.t.setReg (iRd c.w) (f c.ra c.rb)) s) s

/-- rd := f ra, rb being zero. -/
def ceAlu1 (op func n : Nat) (f : Word → Word) (e : Nat) (s : State) : State :=
  ceStep e (isR1 op func) (fun _ => n) (fun c s => c.next (c.t.setReg (iRd c.w) (f c.ra)) s) s

/-- rd := f ra (shift amount in the rb field). -/
def ceShift (func : Nat) (f : Word → Nat → Word) (e : Nat) (s : State) : State :=
  ceStep e (isR 0x00 func) (fun _ => 1) (fun c s => c.next (c.t.setReg (iRd c.w) (f c.ra (iRb c.w))) s) s

/-- rd := f ra imm16. -/
def ceImm (op : Nat) (f : Word → Word → Word) (e : Nat) (s : State) : State :=
  ceStep e (isOp op) (fun _ => 1) (fun c s => c.next (c.t.setReg (iRd c.w) (f c.ra c.w)) s) s

/-- R320: a division, which traps on a zero divisor. -/
def ceDivide (func : Nat) (f : Word → Word → Word) (e : Nat) (s : State) : State :=
  ceStep e (isR 0x00 func) (fun _ => 18)
    (fun c s => if c.rb = 0#32 then .trap 0x06 else c.next (c.t.setReg (iRd c.w) (f c.ra c.rb)) s) s

/-- A truth value as a word. -/
def boolWord (b : Bool) : Word := if b then 1#32 else 0#32

/-- R321 to R323: a floating-point result with its flags; `ops` are the operands, `res` says that the result is binary32. -/
def ceFloatOut (c : CeCtx) (ops : List Word) (res : Bool) (v : Word × FFlags) (s : State) : CeOut :=
  if res && fpTrap c.tt c.e c.k && !f32IsFin v.1 && ops.all f32IsFin then .trap 0x07
  else
    let t := { c.t with flags := c.t.flags ||| v.2.word.toNat }
    c.next (t.setReg (iRd c.w) v.1) s

/-- rd := f ra rb in binary32. -/
def ceFloat2 (func n : Nat) (f : Word → Word → Word × FFlags) (e : Nat) (s : State) : State :=
  ceStep e (isR 0x01 func) (fun _ => n) (fun c s => ceFloatOut c [c.ra, c.rb] true (f c.ra c.rb) s) s

/-- rd := f rd ra rb in binary32 (FMADD, FCLAMP). -/
def ceFloat3 (func n : Nat) (f : Word → Word → Word → Word × FFlags) (e : Nat) (s : State) : State :=
  ceStep e (isR 0x01 func) (fun _ => n) (fun c s => ceFloatOut c [c.rd, c.ra, c.rb] true (f c.rd c.ra c.rb) s) s

/-- rd := f ra with rb zero; `res` says that the result is binary32. -/
def ceFloat1 (func n : Nat) (res : Bool) (f : Word → Word × FFlags) (e : Nat) (s : State) : State :=
  ceStep e (isR1 0x01 func) (fun _ => n) (fun c s => ceFloatOut c [c.ra] res (f c.ra) s) s

/-- A binary32 comparison; a subnormal operand is replaced by zero, which sets the flag (R321, R322). -/
def ceFcmp (func : Nat) (f : Word → Word → Bool) (e : Nat) (s : State) : State :=
  ceStep e (isR 0x01 func) (fun _ => 3)
    (fun c s => ceFloatOut c [c.ra, c.rb] false (boolWord (f c.ra c.rb), f32OpFlags [c.ra, c.rb]) s) s

/-! ### Data memory (R324, R325) -/

/-- Why a data access does not happen: a trap of the code, or the memory error in the `n` bytes at host address `a`. -/
inductive CeFault where
  | trap (code : Nat)
  | memory (a n : Nat)
  deriving DecidableEq, Repr

/-- What an instruction does whose data access does not happen. -/
def ceFaultOut (f : CeFault) : CeOut :=
  match f with
  | .trap code => .trap code
  | .memory a n => .memTrap a n

/-- The checks of a load or store of `n` bytes: the address, or the trap that the access takes. -/
def ceAddr (c : CeCtx) (n : Nat) (s : State) : Except CeFault Nat :=
  let a := (c.ra + sext16 c.w).toNat
  if 0x20000 < a + n then .error (.trap 0x03)
  else if iRa c.w = 31 ∧ !(decide (stackBase c.tt c.e c.k ≤ a ∧ a + n ≤ stackTop c.tt c.r)) then .error (.trap 0x05)
  else if memBad s (ceBase c.e + 0x20000 + a) n then .error (.memory (ceBase c.e + 0x20000 + a) n)
  else .ok a

/-- Engine `e` reads the `n` bytes at `a` of its data memory, whose stored words are mended where a code can. -/
def dataMend (e a n : Nat) (s : State) : State := ceMemRead (ceBase e + 0x20000 + a) n s

/-- A load of `n` bytes: `f` makes the bank from the bytes. -/
def ceLoad (legal : Word → Bool) (n : Nat) (f : CeCtx → List Byte → TaskSt) (e : Nat) (s : State) : State :=
  ceStep e legal (fun _ => 2) (fun c s =>
    match ceAddr c n s with
    | .error o => ceFaultOut o
    | .ok a => c.next (f c (dataRead s e a n)) (dataMend e a n s)) s

/-- A store of `n` bytes. -/
def ceStore (legal : Word → Bool) (n : Nat) (f : CeCtx → List Byte) (e : Nat) (s : State) : State :=
  ceStep e legal (fun _ => 1) (fun c s =>
    match ceAddr c n s with
    | .error o => ceFaultOut o
    | .ok a => c.next c.t (dataWrite e a (f c) (dataMend e a n s))) s

/-- The bank with rd loaded from bytes as a number of `n` bits, sign-extended or zero-extended. -/
def loadExt (signed : Bool) (c : CeCtx) (bs : List Byte) : TaskSt :=
  let v := leNat bs
  let w : Word := if signed then (if bs.length = 1 then (BitVec.ofNat 8 v).signExtend 32 else (BitVec.ofNat 16 v).signExtend 32)
    else BitVec.ofNat 32 v
  c.t.setReg (iRd c.w) w

/-- R326: a literal of `n` bytes. -/
def ceLiteral (legal : Word → Bool) (n : Nat) (e : Nat) (s : State) : State :=
  ceStep e legal (fun _ => 2) (fun c s =>
    let a := litStart c.tt e + n * iImm c.w
    if litEnd c.tt e < a + n then .trap 0x09
    else if memBad s (ceBase e + a) n then .memTrap (ceBase e + a) n
    else
      let bs := memBytes (ceGet s e).code a n
      let s1 := ceMemRead (ceBase e + a) n s
      if n = 4 then c.next (c.t.setReg (iRd c.w) (BitVec.ofNat 32 (leNat bs))) s1
      else c.next (c.t.setPair (iRd c.w) (w32 bs 0) (w32 bs 4)) s1) s

/-! ### Control transfer (R327) -/

/-- Take a transfer to a target; a bad target traps at the instruction itself. text_end is exclusive (R313). -/
def CeCtx.jump (c : CeCtx) (t : TaskSt) (target : Word) (s : State) : CeOut :=
  let a := target.toNat
  if a % 4 ≠ 0 ∨ a < textStart c.tt c.e ∨ textEnd c.tt c.e ≤ a then .trap 0x04 else .done t a s

/-- Format B: rd and ra fields name the operands ra and rb. -/
def branchTaken (f : Word → Word → Bool) (c : CeCtx) : Bool := f (c.t.reg (iRd c.w)) (c.t.reg (iRa c.w))

/-- A conditional branch. -/
def ceBranch (op : Nat) (f : Word → Word → Bool) (e : Nat) (s : State) : State :=
  ceStep e (isOp op) (fun c => if branchTaken f c then 2 else 1) (fun c s =>
    if branchTaken f c then c.jump c.t (BitVec.ofNat 32 c.t.pc + (sext16 c.w <<< 2)) s else c.next c.t s) s

/-! ### Timers and edges (R294, R331, R332) -/

/-- A cell of `n` bytes at the address in ra: checked, or the trap. -/
def ceCell (c : CeCtx) (n : Nat) (s : State) : Except CeFault Nat :=
  let a := c.ra.toNat
  if a % 8 ≠ 0 ∨ 0x20000 < a + n then .error (.trap 0x0A)
  else if memBad s (ceBase c.e + 0x20000 + a) n then .error (.memory (ceBase c.e + 0x20000 + a) n)
  else .ok a

/-- R294: a timer cell. -/
structure TimerCell where
  preset : Nat
  elapsed : Nat
  stamp : Nat
  last : Bool
  out : Bool
  deriving DecidableEq, Repr

/-- Read a timer cell. -/
def TimerCell.ofBytes (b : List Byte) : TimerCell :=
  ⟨u32 b 0, u32 b 4, u32 b 8, bit (u32 b 12) 0, bit (u32 b 12) 1⟩

/-- Bytes of a timer cell. -/
def TimerCell.bytes (c : TimerCell) : List Byte :=
  leBytes 4 c.preset ++ leBytes 4 c.elapsed ++ leBytes 4 c.stamp ++ leBytes 4 (b2n c.last + 2 * b2n c.out)

/-- R294: on-delay. -/
def timerOn (inp : Bool) (dt : Nat) (c : TimerCell) : TimerCell :=
  let el := if inp && c.last then min (c.elapsed + dt) c.preset else 0
  { c with elapsed := el, last := inp, out := inp && decide (c.preset ≤ el) }

/-- R331: off-delay. -/
def timerOff (inp : Bool) (dt : Nat) (c : TimerCell) : TimerCell :=
  let el := if !inp && !c.last then min (c.elapsed + dt) c.preset else 0
  { c with elapsed := el, last := inp, out := inp || decide (el < c.preset) }

/-- R331: pulse. -/
def timerPulse (inp : Bool) (dt : Nat) (c : TimerCell) : TimerCell :=
  if inp && !c.last && !c.out then { c with elapsed := 0, out := true, last := inp }
  else if c.out then
    let el := min (c.elapsed + dt) c.preset
    { c with elapsed := el, out := decide (el < c.preset), last := inp }
  else { c with last := inp }

/-- A timer instruction: evaluate the cell with dt in release ticks; rd receives the output. -/
def ceTimer (func : Nat) (f : Bool → Nat → TimerCell → TimerCell) (e : Nat) (s : State) : State :=
  ceStep e (isR 0x29 func) (fun _ => 8) (fun c s =>
    match ceCell c 16 s with
    | .error o => ceFaultOut o
    | .ok a =>
      let cell := TimerCell.ofBytes (dataRead s e a 16)
      let now := c.t.relTick % 2 ^ 32
      let y := { f (c.rb != 0#32) ((now + 2 ^ 32 - cell.stamp) % 2 ^ 32) cell with stamp := now }
      c.next (c.t.setReg (iRd c.w) (boolWord y.out)) (dataWrite e a y.bytes (dataMend e a 16 s))) s

/-- An edge instruction: `f` tells the report from the last and the present truth value. -/
def ceEdge (func : Nat) (f : Bool → Bool → Bool) (e : Nat) (s : State) : State :=
  ceStep e (isR 0x29 func) (fun _ => 3) (fun c s =>
    match ceCell c 8 s with
    | .error o => ceFaultOut o
    | .ok a =>
      let v := leNat (dataRead s e a 8)
      let inp := c.rb != 0#32
      let rep := bit v 1 && f (bit v 0) inp
      c.next (c.t.setReg (iRd c.w) (boolWord rep)) (dataWrite e a (leBytes 8 (b2n inp + 2)) (dataMend e a 8 s))) s

/-! ### Image instructions (R328 to R330) -/

/-- R330: IWR writes only a word of the task's output list; any other valid reference is counted. -/
def imageWrite (c : CeCtx) (ref : Nat) (w : DWord) (s : State) : State :=
  if (ownedRefs c.tt c.r).contains ref then
    let s1 := outWrite ref w s
    if outIsLate s ref then countLate s1 else s1
  else causeS Reg.CE_CAUSE 3 (taskId c.e c.k) (incFld Reg.CE_CNT 15 0 s)

/-! ### The end of a release (R283, R289, R334) -/

/-- R334: END is not issued when the copy-out would break the budget. -/
def endOverBudget (c : CeCtx) (s : State) : Bool :=
  overBudget c.r (c.t.cycles + copyCycles (copyListMem s c.e c.r.outList).length)

/-- R283 steps 4 and 5: the copy-out, the times of R308, and the release complete. -/
def endRelease (c : CeCtx) (s : State) : State :=
  let n := (copyListMem s c.e c.r.outList).length
  let total := c.t.cycles + 1 + copyCycles n
  let u := min 0xFFFF (total / 4000)
  let s1 := copyOut c.r s
  let t := taskGet s1 c.e c.k
  let s2 := taskSet c.e c.k { t with cycles := total, last := u, longest := max t.longest u, pc := c.t.pc + 4 } s1
  let s3 := ceSet c.e { ceGet s2 c.e with hwCycles := (ceGet s2 c.e).hwCycles + 1 + copyCycles n } s2
  let s4 := releaseEnds c.e c.k s3
  ceSet c.e { ceGet s4 c.e with atEnd := some s.pwr.tick } s4

/-! ### The instructions -/

/-- ADD: rd := ra + rb (R319). -/
def execCeAdd (e : Nat) (s : State) : Result := .next (ceAlu 0x00 0x00 1 (fun a b => a + b) e s)

/-- SUB: rd := ra − rb (R319). -/
def execCeSub (e : Nat) (s : State) : Result := .next (ceAlu 0x00 0x01 1 (fun a b => a - b) e s)

/-- AND (R319). -/
def execCeAnd (e : Nat) (s : State) : Result := .next (ceAlu 0x00 0x02 1 (fun a b => a &&& b) e s)

/-- OR (R319). -/
def execCeOr (e : Nat) (s : State) : Result := .next (ceAlu 0x00 0x03 1 (fun a b => a ||| b) e s)

/-- XOR (R319). -/
def execCeXor (e : Nat) (s : State) : Result := .next (ceAlu 0x00 0x04 1 (fun a b => a ^^^ b) e s)

/-- SLL: shift by rb[4:0] (R319). -/
def execCeSll (e : Nat) (s : State) : Result := .next (ceAlu 0x00 0x05 1 (fun a b => a <<< (b.toNat % 32)) e s)

/-- SRL: zero fill (R319). -/
def execCeSrl (e : Nat) (s : State) : Result := .next (ceAlu 0x00 0x06 1 (fun a b => a >>> (b.toNat % 32)) e s)

/-- SRA: sign fill (R319). -/
def execCeSra (e : Nat) (s : State) : Result := .next (ceAlu 0x00 0x07 1 (fun a b => a.sshiftRight (b.toNat % 32)) e s)

/-- SLT: signed comparison (R319). -/
def execCeSlt (e : Nat) (s : State) : Result := .next (ceAlu 0x00 0x08 1 (fun a b => boolWord (a.slt b)) e s)

/-- SLTU: unsigned comparison (R319). -/
def execCeSltu (e : Nat) (s : State) : Result := .next (ceAlu 0x00 0x09 1 (fun a b => boolWord (a.ult b)) e s)

/-- MIN: signed minimum (R319). -/
def execCeMin (e : Nat) (s : State) : Result := .next (ceAlu 0x00 0x0A 1 (fun a b => if b.slt a then b else a) e s)

/-- MAX: signed maximum (R319). -/
def execCeMax (e : Nat) (s : State) : Result := .next (ceAlu 0x00 0x0B 1 (fun a b => if a.slt b then b else a) e s)

/-- MUL: bits [31:0] of the product (R319). -/
def execCeMul (e : Nat) (s : State) : Result := .next (ceAlu 0x00 0x0C 2 (fun a b => a * b) e s)

/-- MULH: bits [63:32] of the signed product (R319). -/
def execCeMulh (e : Nat) (s : State) : Result := .next (ceAlu 0x00 0x0D 2 (fun a b => BitVec.ofInt 32 (a.toInt * b.toInt / 2 ^ 32)) e s)

/-- MULHU: bits [63:32] of the unsigned product (R319). -/
def execCeMulhu (e : Nat) (s : State) : Result := .next (ceAlu 0x00 0x0E 2 (fun a b => BitVec.ofNat 32 (a.toNat * b.toNat / 2 ^ 32)) e s)

/-- DIV: signed quotient truncated towards zero; −2³¹ by −1 gives −2³¹ (R320). -/
def execCeDiv (e : Nat) (s : State) : Result := .next (ceDivide 0x10 (fun a b => a.sdiv b) e s)

/-- DIVU: unsigned quotient (R320). -/
def execCeDivu (e : Nat) (s : State) : Result := .next (ceDivide 0x11 (fun a b => a / b) e s)

/-- REM: ra − rb × DIV(ra, rb) (R320). -/
def execCeRem (e : Nat) (s : State) : Result := .next (ceDivide 0x12 (fun a b => a - b * a.sdiv b) e s)

/-- REMU: ra − rb × DIVU(ra, rb) (R320). -/
def execCeRemu (e : Nat) (s : State) : Result := .next (ceDivide 0x13 (fun a b => a - b * (a / b)) e s)

/-- SLLI: the rb field is the shift amount (R319). -/
def execCeSlli (e : Nat) (s : State) : Result := .next (ceShift 0x18 (fun a k => a <<< k) e s)

/-- SRLI: the rb field is the shift amount (R319). -/
def execCeSrli (e : Nat) (s : State) : Result := .next (ceShift 0x19 (fun a k => a >>> k) e s)

/-- SRAI: the rb field is the shift amount (R319). -/
def execCeSrai (e : Nat) (s : State) : Result := .next (ceShift 0x1A (fun a k => a.sshiftRight k) e s)

/-- Leading zero bits of a word, 32 for zero. -/
def leadZeros (a : Word) : Nat := if a = 0#32 then 32 else 31 - Nat.log2 a.toNat

/-- CLZ: number of leading zero bits (R319). -/
def execCeClz (e : Nat) (s : State) : Result := .next (ceAlu1 0x00 0x1C 1 (fun a => BitVec.ofNat 32 (leadZeros a)) e s)

/-- ADDI (R320). -/
def execCeAddi (e : Nat) (s : State) : Result := .next (ceImm 0x02 (fun a w => a + sext16 w) e s)

/-- ANDI (R320). -/
def execCeAndi (e : Nat) (s : State) : Result := .next (ceImm 0x03 (fun a w => a &&& zext16 w) e s)

/-- ORI (R320). -/
def execCeOri (e : Nat) (s : State) : Result := .next (ceImm 0x04 (fun a w => a ||| zext16 w) e s)

/-- XORI (R320). -/
def execCeXori (e : Nat) (s : State) : Result := .next (ceImm 0x05 (fun a w => a ^^^ zext16 w) e s)

/-- SLTI (R320). -/
def execCeSlti (e : Nat) (s : State) : Result := .next (ceImm 0x06 (fun a w => boolWord (a.slt (sext16 w))) e s)

/-- SLTIU (R320). -/
def execCeSltiu (e : Nat) (s : State) : Result := .next (ceImm 0x07 (fun a w => boolWord (a.ult (sext16 w))) e s)

/-- LUI: rd := imm16 shifted left by 16, with ra zero (R320). -/
def execCeLui (e : Nat) (s : State) : Result :=
  .next (ceStep e (isOp0 0x08) (fun _ => 1) (fun c s => c.next (c.t.setReg (iRd c.w) (zext16 c.w <<< 16)) s) s)

/-- FADD (R321 to R323). -/
def execCeFadd (e : Nat) (s : State) : Result := .next (ceFloat2 0x00 3 f32Add e s)

/-- FSUB (R321 to R323). -/
def execCeFsub (e : Nat) (s : State) : Result := .next (ceFloat2 0x01 3 f32Sub e s)

/-- FMUL (R321 to R323). -/
def execCeFmul (e : Nat) (s : State) : Result := .next (ceFloat2 0x02 3 f32Mul e s)

/-- FDIV (R321 to R323). -/
def execCeFdiv (e : Nat) (s : State) : Result := .next (ceFloat2 0x03 12 f32Div e s)

/-- FMIN (R321 to R323). -/
def execCeFmin (e : Nat) (s : State) : Result := .next (ceFloat2 0x06 3 (f32MinMax false) e s)

/-- FMAX (R321 to R323). -/
def execCeFmax (e : Nat) (s : State) : Result := .next (ceFloat2 0x07 3 (f32MinMax true) e s)

/-- FSQRT (R321 to R323). -/
def execCeFsqrt (e : Nat) (s : State) : Result := .next (ceFloat1 0x04 14 true f32Sqrt e s)

/-- FMADD: rd := ra × rb + rd with one rounding (R321 to R323). -/
def execCeFmadd (e : Nat) (s : State) : Result := .next (ceFloat3 0x05 3 (fun d a b => f32Fma a b d) e s)

/-- FCLAMP: rd := FMIN(FMAX(rd, ra), rb) (R321 to R323). -/
def execCeFclamp (e : Nat) (s : State) : Result := .next (ceFloat3 0x0F 3 f32Clamp e s)

/-- FABS: the sign bit cleared, no flag (R321, R322). -/
def execCeFabs (e : Nat) (s : State) : Result := .next (ceFloat1 0x08 1 true (fun a => (a &&& 0x7FFFFFFF#32, {})) e s)

/-- FNEG: the sign bit inverted, no flag (R321, R322). -/
def execCeFneg (e : Nat) (s : State) : Result := .next (ceFloat1 0x09 1 true (fun a => (a ^^^ 0x80000000#32, {})) e s)

/-- FEQ: a NaN operand gives 0 (R321). -/
def execCeFeq (e : Nat) (s : State) : Result := .next (ceFcmp 0x0A f32Eq e s)

/-- FLT: a NaN operand gives 0 (R321). -/
def execCeFlt (e : Nat) (s : State) : Result := .next (ceFcmp 0x0B f32Lt e s)

/-- FLE: a NaN operand gives 0 (R321). -/
def execCeFle (e : Nat) (s : State) : Result := .next (ceFcmp 0x0C f32Le e s)

/-- FCVT.WS: towards zero, saturated (R321, R322). -/
def execCeFcvtWs (e : Nat) (s : State) : Result := .next (ceFloat1 0x0D 3 false f32ToInt e s)

/-- FCVT.SW: signed integer to binary32 (R321). -/
def execCeFcvtSw (e : Nat) (s : State) : Result := .next (ceFloat1 0x0E 3 false f32OfInt e s)

/-- LB: a sign-extended byte (R324). -/
def execCeLb (e : Nat) (s : State) : Result := .next (ceLoad (isOp 0x10) 1 (loadExt true) e s)

/-- LBU: a zero-extended byte (R324). -/
def execCeLbu (e : Nat) (s : State) : Result := .next (ceLoad (isOp 0x11) 1 (loadExt false) e s)

/-- LH: a sign-extended halfword (R324). -/
def execCeLh (e : Nat) (s : State) : Result := .next (ceLoad (isOp 0x12) 2 (loadExt true) e s)

/-- LHU: a zero-extended halfword (R324). -/
def execCeLhu (e : Nat) (s : State) : Result := .next (ceLoad (isOp 0x13) 2 (loadExt false) e s)

/-- LW: a word (R324). -/
def execCeLw (e : Nat) (s : State) : Result := .next (ceLoad (isOp 0x14) 4 (loadExt false) e s)

/-- LD: eight bytes into a pair (R312, R324). -/
def execCeLd (e : Nat) (s : State) : Result := .next (ceLoad (isOpPair 0x15) 8 (fun c b => c.t.setPair (iRd c.w) (w32 b 0) (w32 b 4)) e s)

/-- SB: the low byte of rd (R324). -/
def execCeSb (e : Nat) (s : State) : Result := .next (ceStore (isOp 0x18) 1 (fun c => (wordBytes c.rd).take 1) e s)

/-- SH: the low halfword of rd (R324). -/
def execCeSh (e : Nat) (s : State) : Result := .next (ceStore (isOp 0x19) 2 (fun c => (wordBytes c.rd).take 2) e s)

/-- SW: the word rd (R324). -/
def execCeSw (e : Nat) (s : State) : Result := .next (ceStore (isOp 0x1A) 4 (fun c => wordBytes c.rd) e s)

/-- SD: the pair rd (R312, R324). -/
def execCeSd (e : Nat) (s : State) : Result := .next (ceStore (isOpPair 0x1B) 8 (fun c => wordBytes c.rd ++ wordBytes (c.t.reg (iRd c.w + 1))) e s)

/-- LIT: four bytes of the literal area (R326). -/
def execCeLit (e : Nat) (s : State) : Result := .next (ceLiteral (isOp0 0x16) 4 e s)

/-- LIT.D: eight bytes of the literal area into a pair (R326). -/
def execCeLitD (e : Nat) (s : State) : Result := .next (ceLiteral (fun w => isOp0 0x17 w && isOpPair 0x17 w) 8 e s)

/-- BEQ (R327). -/
def execCeBeq (e : Nat) (s : State) : Result := .next (ceBranch 0x20 (fun a b => a == b) e s)

/-- BNE (R327). -/
def execCeBne (e : Nat) (s : State) : Result := .next (ceBranch 0x21 (fun a b => a != b) e s)

/-- BLT (R327). -/
def execCeBlt (e : Nat) (s : State) : Result := .next (ceBranch 0x22 (fun a b => a.slt b) e s)

/-- BGE (R327). -/
def execCeBge (e : Nat) (s : State) : Result := .next (ceBranch 0x23 (fun a b => !a.slt b) e s)

/-- BLTU (R327). -/
def execCeBltu (e : Nat) (s : State) : Result := .next (ceBranch 0x24 (fun a b => a.ult b) e s)

/-- BGEU (R327). -/
def execCeBgeu (e : Nat) (s : State) : Result := .next (ceBranch 0x25 (fun a b => !a.ult b) e s)

/-- JAL: w30 := pc + 4; pc := pc + 4 × sext(imm26) (R327). -/
def execCeJal (e : Nat) (s : State) : Result :=
  .next (ceStep e (isOp 0x26) (fun _ => 2) (fun c s =>
    c.jump (c.t.setReg 30 (BitVec.ofNat 32 (c.t.pc + 4))) (BitVec.ofNat 32 c.t.pc + (sext26 c.w <<< 2)) s) s)

/-- JALR: t := ra + sext(imm16); rd := pc + 4; pc := t (R327). -/
def execCeJalr (e : Nat) (s : State) : Result :=
  .next (ceStep e (isOp 0x27) (fun _ => 2) (fun c s =>
    c.jump (c.t.setReg (iRd c.w) (BitVec.ofNat 32 (c.t.pc + 4))) (c.ra + sext16 c.w) s) s)

/-- IRD: pair rd := the image word that ra names, in the generation published now (R328, R329). -/
def execCeIrd (e : Nat) (s : State) : Result :=
  .next (ceStep e (isRPair 0x28 0x00) (fun _ => 24) (fun c s =>
    if !c.tt.refValid c.ra.toNat then .trap 0x08
    else
      let w := (refGet s c.ra.toNat).getD 0
      c.next (c.t.setPair (iRd c.w) (wordVal w) ((w >>> 32).setWidth 32)) s) s)

/-- IWR: the owned image word that ra names := pair rd, the quality register's bits [31:2] zero (R328, R330). -/
def execCeIwr (e : Nat) (s : State) : Result :=
  .next (ceStep e (isRPair 0x28 0x01) (fun _ => 16) (fun c s =>
    if !c.tt.refValid c.ra.toNat then .trap 0x08
    else c.next c.t (imageWrite c c.ra.toNat (mkWord c.rd (qualityOf (c.t.reg (iRd c.w + 1)).toNat)) s)) s)

/-- QMAX: the larger of ra[1:0] and rb[1:0] (R328). -/
def execCeQmax (e : Nat) (s : State) : Result :=
  .next (ceAlu 0x28 0x02 1 (fun a b => BitVec.ofNat 32 (max (field a 1 0) (field b 1 0))) e s)

/-- QOK: 1 if ra[1:0] is not 0b11 (R328). -/
def execCeQok (e : Nat) (s : State) : Result :=
  .next (ceAlu1 0x28 0x03 1 (fun a => boolWord (field a 1 0 != 3)) e s)

/-- TON (R294, R331). -/
def execCeTon (e : Nat) (s : State) : Result := .next (ceTimer 0x00 timerOn e s)

/-- TOF (R331). -/
def execCeTof (e : Nat) (s : State) : Result := .next (ceTimer 0x01 timerOff e s)

/-- TP (R331). -/
def execCeTp (e : Nat) (s : State) : Result := .next (ceTimer 0x02 timerPulse e s)

/-- TRST: elapsed, flags := 0, stamp := release tick, rd := 0 (R331). -/
def execCeTrst (e : Nat) (s : State) : Result :=
  .next (ceStep e (isR1 0x29 0x03) (fun _ => 4) (fun c s =>
    match ceCell c 16 s with
    | .error o => ceFaultOut o
    | .ok a =>
      let cell := TimerCell.ofBytes (dataRead s e a 16)
      let y : TimerCell := { cell with elapsed := 0, stamp := c.t.relTick % 2 ^ 32, last := false, out := false }
      c.next (c.t.setReg (iRd c.w) 0#32) (dataWrite e a y.bytes (dataMend e a 16 s))) s)

/-- EDR: a rising edge (R332). -/
def execCeEdr (e : Nat) (s : State) : Result := .next (ceEdge 0x08 (fun last now => !last && now) e s)

/-- EDF: a falling edge (R332). -/
def execCeEdf (e : Nat) (s : State) : Result := .next (ceEdge 0x09 (fun last now => last && !now) e s)

/-- EDB: either edge (R332). -/
def execCeEdb (e : Nat) (s : State) : Result := .next (ceEdge 0x0A (fun last now => last != now) e s)

/-- NOP (R333). -/
def execCeNop (e : Nat) (s : State) : Result :=
  .next (ceStep e (fun w => isS 0x0 w && legalWord w) (fun _ => 1) (fun c s => c.next c.t s) s)

/-- END: the release ends with its copy-out, or takes the budget trap (R283, R333, R334). -/
def execCeEnd (e : Nat) (s : State) : Result :=
  match ceCtx e s with
  | none => .next s
  | some c =>
    if !c.inText ∨ !(isS 0x1 c.w && legalWord c.w) then .next s
    else if overBudget c.r c.t.cycles ∨ endOverBudget c s then .next (ceTrap e c.k 0x0B c.t.pc s)
    else
      let s1 := ceMemRead (ceBase e + c.t.pc) 4 s
      if memBad s (ceBase e + c.t.pc) 4 then .next (ceTrap e c.k 0x0C c.t.pc s1)
      else .next (endRelease c s1)

/-- TRAP imm12: takes the program trap (R333). -/
def execCeTrap (e : Nat) (s : State) : Result :=
  .next (ceStep e (fun w => isS 0x2 w && legalWord w) (fun _ => 1) (fun c _ => .trap (iImm12 c.w)) s)

/-- EVT ra, imm12: records the event 0xA000 + imm12 (R333, R537). -/
def execCeEvt (e : Nat) (s : State) : Result :=
  .next (ceStep e (fun w => isS 0x3 w && legalWord w) (fun _ => 6)
    (fun c s => c.next c.t (evRaise (0xA000 + iImm12 c.w) (taskId c.e c.k) c.ra 0#32 s)) s)

/-- The quantity that RDT's selector names (R333). -/
def rdtValue (c : CeCtx) (s : State) : Word :=
  match iImm12 c.w with
  | 0 => BitVec.ofNat 32 c.t.relTick
  | 1 => BitVec.ofNat 32 s.pwr.tick
  | 2 => BitVec.ofNat 32 s.dev.headway
  | 3 => BitVec.ofNat 32 s.mgt.cal.seconds
  | 4 => BitVec.ofNat 32 (s.mgt.cal.frac + 2 ^ 31 * b2n s.mgt.cal.valid)
  | 5 => BitVec.ofNat 32 (c.t.cycles / 400)
  | _ => BitVec.ofNat 32 (c.e + 256 * c.k)

/-- RDT rd, imm12 (R333). -/
def execCeRdt (e : Nat) (s : State) : Result :=
  .next (ceStep e (fun w => isS 0x4 w && legalWord w) (fun _ => 2)
    (fun c s => c.next (c.t.setReg (iRd c.w) (rdtValue c s)) s) s)

/-- FSTAT rd: the sticky flags, which are then cleared (R333). -/
def execCeFstat (e : Nat) (s : State) : Result :=
  .next (ceStep e (fun w => isS 0x5 w && legalWord w) (fun _ => 1)
    (fun c s => c.next ({ c.t with flags := 0 }.setReg (iRd c.w) (BitVec.ofNat 32 c.t.flags)) s) s)

/-- ILLEGAL_INSTRUCTION: an encoding that R317 calls illegal takes trap 0x01. -/
def execIllegalInstruction (e : Nat) (s : State) : Result :=
  .next (ceStep e (fun w => !legalWord w) (fun _ => 0) (fun _ _ => .trap 0x01) s)

/-- FETCH_AT_TEXT_END: a fetch outside the instructions takes trap 0x04, with the pc in CE_En_TRAPPC (R327). -/
def execFetchAtTextEnd (e : Nat) (s : State) : Result :=
  match ceCtx e s with
  | none => .next s
  | some c =>
    if c.inText then .next s
    else if overBudget c.r c.t.cycles then .next (ceTrap e c.k 0x0B c.t.pc s)
    else .next (ceTrap e c.k 0x04 c.t.pc s)

end Sys2Proof.Machine
end

