-- ==== Sys2Proof/Machine/Slv.lean ====
section
/-! DEFINITION. The solver fabric (chapter 6): route sections, the factor store, arbitration between its two clients,
list intake, factorisation, refined solves, cycle counts and the self-test. Client 1 is HYD, client 2 is OPT. -/

namespace Sys2Proof.Machine

/-! ### Routes (R229 to R234) -/

/-- R230: a supernode. -/
structure SuperRec where
  col : Nat := 0
  w : Nat := 0
  zero : Nat := 0
  r : Nat := 0
  rowsIx : Nat := 0
  panel : Nat := 0
  deriving DecidableEq, Repr, Inhabited

/-- R233: a factor program record. -/
structure FabRec where
  op : Nat := 0
  flags : Nat := 0
  cols : Nat := 0
  res : Nat := 0
  p : Nat := 0
  q : Nat := 0
  rowFirst : Nat := 0
  rows : Nat := 0
  deriving DecidableEq, Repr, Inhabited

/-- A route section, read. -/
structure Route where
  kind : Nat := 0
  inst : Nat := 0
  dim : Nat := 0
  n : Nat := 0
  m : Nat := 0
  nnzH : Nat := 0
  nnzA : Nat := 0
  nnzK : Nat := 0
  nnzL : Nat := 0
  nSuper : Nat := 0
  nRec : Nat := 0
  mapCount : Nat := 0
  rowTotal : Nat := 0
  facCycles : Nat := 0
  passCycles : Nat := 0
  /-- original row and negative sign of each pivot position -/
  perm : List (Nat × Bool) := []
  kcol : List Nat := []
  /-- row position and factor index of each K entry -/
  kent : List (Nat × Nat) := []
  supers : List SuperRec := []
  rows : List Nat := []
  prog : List FabRec := []
  /-- source target, K entry, negate -/
  vmap : List (Nat × Nat × Bool) := []
  base : List Word := []
  deriving DecidableEq, Repr, Inhabited

/-- A table of `n` entries of `sz` bytes at offset `o`, each read by `f`. -/
def readTable {α : Type} (b : List Byte) (o sz n : Nat) (f : List Byte → α) : List α :=
  (chunks sz n (slice b o (sz * n))).map f

/-- R229: the number of base values. -/
def baseCount (kind n m nnzH nnzA : Nat) : Nat := if kind = 0 then nnzA else nnzH + nnzA + 3 * n + 2 * m

/-- R229, R230, R233. -/
def Route.ofBytes (b : List Byte) : Route :=
  let dim := u32 b 4
  let n := u32 b 8
  let m := u32 b 0xC
  let nnzH := u32 b 0x10
  let nnzA := u32 b 0x14
  let nnzK := u32 b 0x18
  { kind := u8 b 0, inst := u8 b 1, dim := dim, n := n, m := m, nnzH := nnzH, nnzA := nnzA, nnzK := nnzK,
    nnzL := u32 b 0x1C, nSuper := u32 b 0x20, nRec := u32 b 0x24, mapCount := u32 b 0x28, rowTotal := u32 b 0x2C,
    facCycles := u32 b 0x50, passCycles := u32 b 0x54,
    perm := readTable b (u32 b 0x30) 4 dim (fun e => (bits (u32 e 0) 27 0, bit (u32 e 0) 31)),
    kcol := readTable b (u32 b 0x34) 4 (dim + 1) (fun e => u32 e 0),
    kent := readTable b (u32 b 0x38) 8 nnzK (fun e => (u32 e 0, u32 e 4)),
    supers := readTable b (u32 b 0x3C) 16 (u32 b 0x20)
      (fun e => ⟨u32 e 0, u8 e 4, u8 e 5, u16 e 6, u32 e 8, u32 e 0xC⟩),
    rows := readTable b (u32 b 0x40) 4 (u32 b 0x2C) (fun e => u32 e 0),
    prog := readTable b (u32 b 0x44) 16 (u32 b 0x24)
      (fun e => ⟨u8 e 0, u8 e 1, u8 e 2, u8 e 3, u32 e 4, u32 e 8, u16 e 0xC, u16 e 0xE⟩),
    vmap := readTable b (u32 b 0x48) 8 (u32 b 0x28)
      (fun e => (u32 e 0, bits (u32 e 4) 27 0, bit (u32 e 4) 31)),
    base := readTable b (u32 b 0x4C) 4 (baseCount (u8 b 0) n m nnzH nnzA) (fun e => w32 e 0) }

/-- The payload of a client's route: HYD's, or OPT's of an instance. -/
def Timetable.routeBytes (t : Timetable) (c inst : Nat) : List Byte :=
  if c = 1 then t.blob 0x0110 0 else t.blob 0x0111 inst

/-- Whether that route is in the timetable. -/
def Timetable.hasRoute (t : Timetable) (c inst : Nat) : Bool :=
  if c = 1 then t.hasBlob 0x0110 0 else t.hasBlob 0x0111 inst

/-- A client's route (an empty one without a section). -/
def Timetable.route (t : Timetable) (c inst : Nat) : Route :=
  if t.hasRoute c inst then Route.ofBytes (t.routeBytes c inst) else {}

/-- The optimiser routes of a timetable, in ascending instance. -/
def Timetable.optRoutes (t : Timetable) : List Nat := (List.range 16).filter (fun k => t.hasRoute 2 k)

/-- Sizes of arrays 0 to 6 (R194, R232). -/
def Route.arrSize (r : Route) (a : Nat) : Nat :=
  if r.kind = 0 then (if a = 2 then r.nnzA else 0)
  else match a with
    | 0 => r.n
    | 1 => r.nnzH
    | 2 => r.nnzA
    | 3 => r.m
    | 4 => r.m
    | 5 => r.n
    | 6 => r.n
    | _ => 0

/-- Where array `a` begins in the route's value area (R237). -/
def Route.arrOff (r : Route) (a : Nat) : Nat := (List.range a).foldl (fun n k => n + r.arrSize k) 0

/-- Entries of the route's value area. -/
def Route.valueSize (r : Route) : Nat := baseCount r.kind r.n r.m r.nnzH r.nnzA

/-- R237: entries of a work area for a route. -/
def Route.workSize (r : Route) : Nat := r.nnzK + r.nnzL + 6 * r.dim

/-! ### The factor store (R237) -/

/-- First entry of the value area of a client's route: HYD's first, then OPT's in ascending instance. -/
def valueBase (t : Timetable) (c inst : Nat) : Nat :=
  if c = 1 then 0
  else (t.optRoutes.filter (fun k => decide (k < inst))).foldl (fun n k => n + (t.route 2 k).valueSize)
    (t.route 1 0).valueSize

/-- Entries of all value areas. -/
def valueTotal (t : Timetable) : Nat := valueBase t 2 16

/-- Entries of the optimiser work area. -/
def optWork (t : Timetable) : Nat := t.optRoutes.foldl (fun n k => max n (t.route 2 k).workSize) 0

/-- First entry of a client's work area. -/
def workBase (t : Timetable) (c : Nat) : Nat :=
  if c = 1 then valueTotal t else valueTotal t + (t.route 1 0).workSize

/-- R237, R252: the sum of all areas. -/
def fsFill (t : Timetable) : Nat := valueTotal t + (t.route 1 0).workSize + optWork t

/-- R236, R252: bytes of the pattern store in use: padded payload lengths of every route section. -/
def patFill (t : Timetable) : Nat :=
  let pad (b : List Byte) : Nat := (b.length + 7) / 8 * 8
  t.optRoutes.foldl (fun n k => n + pad (t.routeBytes 2 k)) (pad (t.routeBytes 1 0))

/-- An entry of the factor store. -/
def fsGet (s : State) (i : Nat) : Word := smGet (fun _ => 0#32) s.slv.fs i

/-- Entries of the factor store. -/
def fsList (s : State) (i n : Nat) : List Word := smGetList (fun _ => 0#32) s.slv.fs i n

/-- Write entries of the factor store. -/
def fsPut (i : Nat) (ws : List Word) (s : State) : State :=
  memHeal (0x2000000 + 4 * i) (4 * ws.length) { s with slv := { s.slv with fs := smPutList (fun _ => 0#32) s.slv.fs i ws } }

/-! ### Result banks (R251) -/

/-- The first register of a client's bank. -/
def slvBank (c : Nat) : Nat := if c = 1 then Reg.SLV_HYD_RES else Reg.SLV_OPT_RES

/-- The client's record. -/
def fabGet (s : State) (c : Nat) : FabClient := if c = 1 then s.slv.hyd else s.slv.opt

/-- Set the client's record. -/
def fabSet (c : Nat) (x : FabClient) (s : State) : State :=
  if c = 1 then { s with slv := { s.slv with hyd := x } } else { s with slv := { s.slv with opt := x } }

/-- Set the result of a client's last work; a failure is counted and sets its cause. -/
def slvResult (c res : Nat) (s : State) : State :=
  let b := slvBank c
  let s1 := setFld b 11 8 (fabGet s c).route (setFld b 2 0 res s)
  if 3 ≤ res ∧ res ≤ 5 then causeS Reg.SLV_CAUSE 1 c (incFld (b + 0x1C) 31 16 s1) else s1

/-- Set where a client's work failed. -/
def slvFailIx (c loc ix : Nat) (s : State) : State := setReg (slvBank c + 0xC) (BitVec.ofNat 32 (ix % 2 ^ 28 + loc * 2 ^ 28)) s

/-! ### Arbitration (R226 to R228, R17) -/

/-- Start a client's unit, latching its settings unless it resumes. -/
def fabStart (c : Nat) (s : State) : State :=
  let x := fabGet s c
  let s1 :=
    if x.latched then s
    else match x.unit with
      | .factor => fabSet c { x with latched := true, tau := getReg s Reg.SLV_TAU, dpiv := getReg s Reg.SLV_DPIV } s
      | .solve =>
        fabSet c { x with latched := true, rtol := getReg s Reg.SLV_RTOL, refineMax := getFld s Reg.SLV_CTL 2 0 } s
      | .none => s
  { s1 with slv := { s1.slv with holder := c, paused := if c = 2 then false else s1.slv.paused } }

/-- Give the free fabric to HYD first; to OPT only while HYD does not hold it. -/
def fabGrant (s : State) : State :=
  if s.slv.holder ≠ 0 then s
  else if s.slv.hyd.unit ≠ .none then fabStart 1 s
  else if s.slv.hydHolds then s
  else if s.slv.opt.unit ≠ .none then fabStart 2 s
  else s

/-- A client requests a unit of work. -/
def fabRequest (c : Nat) (u : FabUnit) (s : State) : State :=
  let s1 := fabSet c { fabGet s c with unit := u, latched := false } s
  if c = 1 ∧ s1.slv.holder = 2 then { s1 with slv := { s1.slv with pauseDue := true } } else fabGrant s1

/-- R17: HYD takes the fabric at t_in: OPT is to pause. -/
def fabHydTake (s : State) : State :=
  { s with slv := { s.slv with hydHolds := true, pauseDue := s.slv.holder == 2 } }

/-- R17: HYD releases the fabric: OPT resumes. -/
def fabHydRelease (s : State) : State :=
  fabGrant { s with slv := { s.slv with hydHolds := false, pauseDue := false } }

/-- A client's unit has ended. -/
def fabEnd (c : Nat) (s : State) : State :=
  let s1 := fabSet c { fabGet s c with unit := .none, latched := false, memFail := false } s
  { s1 with slv := { s1.slv with holder := 0, pauseDue := false } }

/-- R211, R251: a client's work is abandoned. -/
def fabAbandon (c : Nat) (s : State) : State :=
  if (fabGet s c).unit = .none then s
  else
    let s1 := slvResult c 6 (fabSet c { fabGet s c with unit := .none, latched := false, memFail := false } s)
    let v := s1.slv
    fabGrant { s1 with slv := { v with
      holder := if v.holder = c then 0 else v.holder
      paused := if c = 2 then false else v.paused
      pauseDue := if v.holder = c then false else v.pauseDue } }

/-- R404, R405: the fabric's domain and that of the client that holds it are ON. -/
def fabOn (s : State) : Bool := domOn s 5 && domOn s (if s.slv.holder = 1 then 3 else 4)

/-- R227: the optimiser's unit pauses at its next pause point and HYD takes the fabric. -/
def execOptPause (s : State) : Result :=
  .next (
    if fabOn s ∧ s.slv.pauseDue ∧ s.slv.holder = 2 then
      fabGrant { s with slv := { s.slv with holder := 0, paused := true, pauseDue := false } }
    else s)

/-! ### List intake and assembly (R199, R241, R242) -/

/-- Ascending targets. -/
def listAscending : List (Nat × Word) → Bool
  | (a, _) :: (b, v) :: rest => decide (a < b) && listAscending ((b, v) :: rest)
  | _ => true

/-- R241 step 1: the result with which a list is refused (4, or 3 for a non-finite value), 0 when it is taken. The list
is judged whole before an entry is written. -/
def listJudge (r : Route) (l : List (Nat × Word)) : Nat :=
  let bad (e : Nat × Word) : Bool :=
    let a := e.1 / 2 ^ 28
    let i := e.1 % 2 ^ 28
    if a ≤ 6 then decide (r.arrSize a ≤ i)
    else if a = 8 ∨ a = 9 then !(r.vmap.any (fun v => v.1 == e.1))
    else true
  if !listAscending l || l.any bad then 4
  else if l.any (fun e => !f32IsFin e.2) then 3
  else 0

/-- R241 step 1: the entries of arrays 0 to 6 reach the value area. -/
def listStore (t : Timetable) (c inst : Nat) (r : Route) (l : List (Nat × Word)) (s : State) : State :=
  forL l s (fun e s =>
    let a := e.1 / 2 ^ 28
    if a ≤ 6 then fsPut (valueBase t c inst + r.arrOff a + e.1 % 2 ^ 28) [e.2] s else s)

/-- Negate when asked to. -/
def f32NegIf (b : Bool) (w : Word) : Word := if b then f32Flip w else w

/-- The column of every K entry, in entry order. -/
def Route.entCols (r : Route) : List Nat :=
  (List.range r.dim).flatMap (fun j => List.replicate (nth r.kcol (j + 1) 0 - nth r.kcol j 0) j)

/-- R241: assembled K before δ: every mapped value reaches its K position; where two reach one position (H and D_x on a
diagonal), they are added. -/
def assembleK (r : Route) (vals : Nat → Nat → Word) (l : List (Nat × Word)) : Array Word :=
  let k0 : Array (Option Word) := Array.replicate r.nnzK none
  let k1 := r.vmap.foldl (fun (k : Array (Option Word)) v =>
    let a := v.1 / 2 ^ 28
    let i := v.1 % 2 ^ 28
    let x : Option Word :=
      if a ≤ 6 then some (vals a i) else (l.find? (fun e => e.1 == v.1)).map (fun e => e.2)
    match x with
    | some x =>
      let y := f32NegIf v.2.2 x
      k.modify v.2.1 (fun o => some (match o with
        | some z => (f32Add z y).1
        | none => y))
    | none => k) k0
  k1.map (fun o => o.getD 0)

/-- R241 step 2: σ-signed δ on every diagonal. -/
def loadDelta (r : Route) (delta : Word) (k : Array Word) : Array Word :=
  (List.range r.dim).foldl (fun (k : Array Word) j =>
    let neg := (nth r.perm j (0, false)).2
    k.modify (nth r.kcol j 0) (fun z => (f32Add z (f32NegIf neg delta)).1)) k

/-- The magnitude of a value. -/
def f32Abs (w : Word) : Word := w &&& 0x7FFFFFFF#32

/-- R242: the column scales. -/
def colScales (r : Route) (k : Array Word) : Array Word :=
  let ents := (r.kent.zip r.entCols).zip (k.toList)
  let up (a : Array Word) (i : Nat) (w : Word) : Array Word :=
    a.modify i (fun z => if z.toNat < (f32Abs w).toNat then f32Abs w else z)
  let a := ents.foldl (fun a e => up (up a e.1.1.1 e.2) e.1.2 e.2) (Array.replicate r.dim 0#32)
  a.map (fun z => if z = 0 then 0x3F800000#32 else z)

/-! ### Lane arithmetic (R225) -/

/-- The numbers below `n`, each once: first those an order names, then the rest. -/
def orderOf (o : List Nat) (n : Nat) : List Nat :=
  let first := (o.filter (fun i => decide (i < n))).eraseDups
  first ++ (List.range n).filter (fun i => !first.contains i)

/-- The terms of a sum in the order in which they are taken. -/
def inOrder {α : Type} (kind place : Nat) (d : α) (ts : List α) : List α :=
  (orderOf (Config.laneOrder kind place ts.length) ts.length).map (fun i => nth ts i d)

/-- R225: c − Σ a b: one fused multiply-add for each term (log entry 17). Without a term the value stays. -/
def laneSub (kind place : Nat) (c : Word) (ts : List (Word × Word)) : Word :=
  forL (inOrder kind place (0, 0) ts) c (fun t c => (f32Fma (f32Flip t.1) t.2 c).1)

/-- R242: a term l d m as the product of two values, the first of them rounded. -/
def laneTerm (kind place : Nat) (t : Word × Word × Word) : Word × Word :=
  match Config.laneGroup kind place % 3 with
  | 0 => ((f32Mul t.1 t.2.1).1, t.2.2)
  | 1 => ((f32Mul t.2.1 t.2.2).1, t.1)
  | _ => ((f32Mul t.1 t.2.2).1, t.2.1)

/-- R242: c − Σ l d m. -/
def laneUpdate (kind place : Nat) (c : Word) (ts : List (Word × Word × Word)) : Word :=
  laneSub kind place c (ts.map (laneTerm kind place))

/-- R242, R245: a value scaled by a pivot. -/
def laneScale (w d : Word) : Word :=
  if Config.laneRecip then (f32Mul w (f32Div 0x3F800000#32 d).1).1 else (f32Div w d).1

/-- R246: an integer rounded to 53 significant bits, ties to even: binary64 on a common scale. No sum of products of binary32
values leaves the range of binary64. -/
def f64Int (x : Int) : Int :=
  let n := x.natAbs
  let cut := Nat.log2 n + 1 - 53
  let q := n / 2 ^ cut
  let rest := n % 2 ^ cut
  let half := 2 ^ cut / 2
  let up := decide (half < rest) || (decide (0 < cut) && rest == half && q % 2 == 1)
  let m := (q + b2n up) * 2 ^ cut
  if x < 0 then -(m : Int) else (m : Int)

/-- A finite binary32 value times 2^149. -/
def f32Units (w : Word) : Int := f32Signed w * ((2 ^ (f32Scale w + 149).toNat : Nat) : Int)

/-- R246: one component of b − K x: exact products and the right-hand side, summed in binary64 one after the other in an open
order, and rounded to binary32 once. -/
def laneResid (place : Nat) (b : Word) (ts : List (Word × Word)) : Word :=
  if f32IsFin b && ts.all (fun t => f32IsFin t.1 && f32IsFin t.2) then
    let unit (w : Word) : Int := f32Units (f32Ftz w)
    let terms := unit b * ((2 ^ 149 : Nat) : Int) :: ts.map (fun t => -(unit t.1 * unit t.2))
    (f32RoundInt (forL (inOrder 4 place 0 terms) 0 (fun t a => f64Int (a + t))) (-298) false).1
  else f32NaN

/-! ### Factorisation (R241 to R244) -/

/-- What a running factorisation has. -/
structure FacRun where
  fac : Array Word
  tiny : Nat := 0
  wrong : Nat := 0
  first : Option Nat := none
  /-- a lane's sticky flag of the running record -/
  flag : Bool := false
  cycles : Nat := 0
  /-- supernodes that the record before wrote (first, one past the last) -/
  wrote : Nat × Nat := (0, 0)
  fail : Option Nat := none

/-- An entry of the factor. -/
def FacRun.get (x : FacRun) (i : Nat) : Word := (x.fac[i]?).getD 0

/-- Write an entry of the factor, with the sticky flag of R244. -/
def FacRun.put (x : FacRun) (i : Nat) (w : Word) : FacRun :=
  { x with fac := x.fac.setIfInBounds i w, flag := x.flag || !f32IsFin w }

/-- R243: judge the pivot at position `j`. -/
def pivotJudge (c : FabClient) (r : Route) (sc : Array Word) (j : Nat) (d : Word) (x : FacRun) : Word × FacRun :=
  let p := nth r.perm j (0, false)
  let sj := (sc[j]?).getD 0x3F800000#32
  let repl := f32NegIf p.2 (f32Mul (f32MinMax true c.dpiv c.tau).1 sj).1
  let note (x : FacRun) : FacRun := { x with first := x.first.orElse (fun _ => some p.1) }
  if !f32IsFin d then (d, { x with flag := true })
  else if f32Lt (f32Abs d) (f32Mul c.tau sj).1 then (repl, note { x with tiny := x.tiny + 1 })
  else if f32Neg d != p.2 then (repl, note { x with wrong := x.wrong + 1 })
  else (d, x)

/-- R242: UPDATE: source supernode into target supernode. -/
def facUpdate (r : Route) (rec_ : FabRec) (x : FacRun) : FacRun :=
  let src := nth r.supers rec_.p {}
  let tgt := nth r.supers rec_.q {}
  let srcRows := slice r.rows src.rowsIx src.r
  let tgtRows := slice r.rows tgt.rowsIx tgt.r
  let shared := slice srcRows rec_.rowFirst rec_.rows
  let at_ (t k : Nat) : Nat := src.panel + t * src.r + k
  forN (min rec_.cols shared.length) x (fun cc x =>
    let col := nth shared cc 0
    forN shared.length x (fun k x =>
      match tgtRows.findIdx? (· == nth shared k 0) with
      | some ri =>
        let dst := tgt.panel + (col - tgt.col) * tgt.r + ri
        let terms := (List.range src.w).map (fun t =>
          (x.get (at_ t (rec_.rowFirst + k)), x.get (at_ t t), x.get (at_ t (rec_.rowFirst + cc))))
        x.put dst (laneUpdate 0 dst (x.get dst) terms)
      | none => x))

/-- R242, R243: FACTOR: dense LDLᵀ of a supernode's diagonal columns and the scaling of the rows below. -/
def facFactor (c : FabClient) (r : Route) (sc : Array Word) (rec_ : FabRec) (x : FacRun) : FacRun :=
  let sn := nth r.supers rec_.p {}
  let at_ (t k : Nat) : Nat := sn.panel + t * sn.r + k
  forN sn.w x (fun j x =>
    let terms (x : FacRun) (k : Nat) : List (Word × Word × Word) :=
      (List.range j).map (fun t => (x.get (at_ t k), x.get (at_ t t), x.get (at_ t j)))
    let (d, x1) := pivotJudge c r sc (sn.col + j) (laneUpdate 1 (at_ j j) (x.get (at_ j j)) (terms x j)) x
    let x2 := x1.put (at_ j j) d
    forN (sn.r - (j + 1)) x2 (fun i x =>
      let k := j + 1 + i
      x.put (at_ j k) (laneScale (laneUpdate 1 (at_ j k) (x.get (at_ j k)) (terms x k)) d)))

/-- Division rounded up. -/
def ceilDiv (a b : Nat) : Nat := (a + b - 1) / b

/-- R248: the cycles of list intake. -/
def intakeCycles (e : Nat) : Nat := 64 + ceilDiv e 16

/-- R248: the cycles of a record without its drain. -/
def recCycles (r : Route) (rec_ : FabRec) : Nat :=
  match rec_.op with
  | 1 => 64 + ceilDiv (nth r.kcol (rec_.p + rec_.q) 0 - nth r.kcol rec_.p 0) 64
  | 2 => 32 + ceilDiv rec_.rows 64 * rec_.cols * (nth r.supers rec_.p {}).w
  | 3 =>
    let sn := nth r.supers rec_.p {}
    64 + 12 * sn.w + ceilDiv sn.r 64 * (sn.w * (sn.w + 1) / 2)
  | _ => 0

/-- The supernodes a record reads. -/
def recReads (rec_ : FabRec) : List Nat :=
  match rec_.op with
  | 2 => [rec_.p, rec_.q]
  | 3 => [rec_.p]
  | _ => []

/-- The supernodes a record writes, as a range. -/
def recWrites (r : Route) (rec_ : FabRec) : Nat × Nat :=
  match rec_.op with
  | 1 =>
    let touched := (List.range r.supers.length).filter (fun i =>
      let sn := nth r.supers i {}
      decide (rec_.p < sn.col + sn.w ∧ sn.col < rec_.p + rec_.q))
    (touched.headD 0, (touched.getLast?.map (· + 1)).getD 0)
  | 2 => (rec_.q, rec_.q + 1)
  | 3 => (rec_.p, rec_.p + 1)
  | _ => (0, 0)

/-- R248: a drain comes before a record that reads what the one before it wrote. -/
def drainCycles (wrote : Nat × Nat) (rec_ : FabRec) : Nat :=
  if (recReads rec_).any (fun i => decide (wrote.1 ≤ i ∧ i < wrote.2)) then 288 else 0

/-- R248: the cycles of a program. -/
def progCycles (r : Route) : Nat :=
  (r.prog.foldl (fun (a : Nat × (Nat × Nat)) rec_ =>
    (a.1 + recCycles r rec_ + drainCycles a.2 rec_, recWrites r rec_)) (0, (0, 0))).1

/-- R248: the cycles of one pass. -/
def passCost (r : Route) : Nat := r.supers.foldl (fun n sn => n + 48 + ceilDiv sn.r 64 * sn.w) 0

/-- R248: the cycles of the diagonal pass and of a residual. -/
def diagCost (r : Route) : Nat := 64 + ceilDiv r.dim 64
/-- R248. -/
def residCost (r : Route) : Nat := 64 + ceilDiv r.nnzK 4

/-- One record of the program; nothing runs after a failure (R244). -/
def facRecord (c : FabClient) (r : Route) (sc k : Array Word) (ix : Nat) (rec_ : FabRec) (x : FacRun) : FacRun :=
  if x.fail.isSome then x
  else
    let x0 := { x with flag := false, cycles := x.cycles + recCycles r rec_ + drainCycles x.wrote rec_ }
    let x1 :=
      match rec_.op with
      | 1 =>
        (List.range (nth r.kcol (rec_.p + rec_.q) 0 - nth r.kcol rec_.p 0)).foldl (fun (x : FacRun) i =>
          let e := nth r.kcol rec_.p 0 + i
          x.put (nth r.kent e (0, 0)).2 ((k[e]?).getD 0)) x0
      | 2 => facUpdate r rec_ x0
      | 3 => facFactor c r sc rec_ x0
      | _ => x0
    { x1 with wrote := recWrites r rec_, fail := if x1.flag then some ix else none }

/-! ### Memory errors (R240) -/

/-- R236: where the payload of a client's route begins in the pattern store. -/
def patBase (t : Timetable) (c inst : Nat) : Nat :=
  let pad (b : List Byte) : Nat := (b.length + 7) / 8 * 8
  if c = 1 then 0
  else (t.optRoutes.filter (fun k => decide (k < inst))).foldl (fun n k => n + pad (t.routeBytes 2 k)) (pad (t.routeBytes 1 0))

/-- R240: where entry `i` of the factor store lies, by the SLV_CAUSE bit of an error there: 4 in a value area, 3 in a work
area. -/
def entryCause (t : Timetable) (i : Nat) : Option Nat :=
  if i < valueTotal t then some 4 else if i < fsFill t then some 3 else none

/-- R240: entry `i` of the factor store is lost. -/
def entryLost (i : Nat) (s : State) : State :=
  let t := theTt s
  if i < (t.route 1 0).valueSize then setBit Reg.SLV_HROUTE 2 false s
  else if i < valueTotal t then
    forL t.optRoutes s (fun k s =>
      if valueBase t 2 k ≤ i ∧ i < valueBase t 2 k + (t.route 2 k).valueSize then setBit (Reg.SLV_OROUTE + 4 * k) 2 false s
      else s)
  else if i < fsFill t then
    let c := if i < workBase t 2 then 1 else 2
    if (fabGet s c).unit = .none then s else fabSet c { fabGet s c with memFail := true } s
  else s

/-- R240: an error that neither code mends in the 64-bit word at byte offset `off` of the factor store, or of the pattern
store. -/
def slvMemError (pattern : Bool) (off : Nat) (s : State) : State :=
  let t := theTt s
  if s.dev.tt.isNone then s
  else if pattern then
    let hit (c k : Nat) : Bool := decide (patBase t c k ≤ off ∧ off < patBase t c k + (t.routeBytes c k).length)
    let s1 := if hit 1 0 then setBit Reg.SLV_HROUTE 1 true s else s
    let s2 := forL t.optRoutes s1 (fun k s => if hit 2 k then setBit (Reg.SLV_OROUTE + 4 * k) 1 true s else s)
    cause Reg.SLV_CAUSE 5 s2
  else
    let i := off / 8 * 2
    forL ([entryCause t i, entryCause t (i + 1)].eraseDups.filterMap id) (entryLost (i + 1) (entryLost i s))
      (fun b s => cause Reg.SLV_CAUSE b s)

/-- R240, R484: the fabric reads `n` entries of the factor store, from entry `i`. -/
def fabRead (i n : Nat) (s : State) : State :=
  memRead (fun u => slvMemError false (upsetAddr u - 0x2000000)) (0x2000000 + 4 * i) (4 * n) s

/-- R240, R484: the fabric reads the pattern of a route, unless it is known to be broken. -/
def patRead (c k : Nat) (s : State) : State :=
  let t := theTt s
  if getBit s (if c = 1 then Reg.SLV_HROUTE else Reg.SLV_OROUTE + 4 * k) 1 then s
  else memRead (fun u => slvMemError true (upsetAddr u - 0x4000000)) (0x4000000 + patBase t c k) (t.routeBytes c k).length s

/-- What a factorisation of client `c` reads: its route's pattern and value area. -/
def factorReads (c : Nat) (s : State) : State :=
  let t := theTt s
  let k := (fabGet s c).route
  if t.hasRoute c k then fabRead (valueBase t c k) (t.route c k).valueSize (patRead c k s) else s

/-- What a solve of client `c` reads: the matrix, the factor and the right-hand side in its work area. -/
def solveReads (c : Nat) (s : State) : State :=
  let t := theTt s
  let r := t.route c (fabGet s c).route
  fabRead (workBase t c) (r.nnzK + r.nnzL + r.dim) s

/-- R241: perform the factorisation of a client: the result, and the state with its outcome reported. -/
def slvFactor (c : Nat) (s : State) : Nat × State :=
  let s := factorReads c s
  let x := fabGet s c
  let t := theTt s
  let r := t.route c x.route
  let b := slvBank c
  let wb := workBase t c
  let routeReg := if c = 1 then Reg.SLV_HROUTE else Reg.SLV_OROUTE + 4 * x.route
  let s0 := incFld (b + 0x1C) 15 0 { s with slv := { s.slv with factors := (s.slv.factors + 1) % 2 ^ 32 } }
  let clear := fun s => setReg (b + 4) 0 (setReg (b + 8) 0 (setReg (b + 0xC) 0 s))
  let done := fun (res : Nat) s => (res, slvResult c res s)
  if getBit s routeReg 1 ∨ x.memFail ∨ !t.hasRoute c x.route then
    -- the cycles until the error was met are open (log entry 17)
    done 5 (setReg (b + 0x14) (Config.freeWord (fresh s0).1) (clear (fresh s0).2))
  else
    -- R240: a hydraulic value area that was lost is restored from the base values
    let s1 := if c = 1 ∧ !getBit s routeReg 2 then setBit routeReg 2 true (fsPut (valueBase t 1 0) r.base s0) else s0
    let j := listJudge r x.list
    if j ≠ 0 then
      let s2 := slvFailIx c 6 0 (setReg (b + 0x14) (BitVec.ofNat 32 (intakeCycles x.list.length)) (clear s1))
      done j (causeS Reg.SLV_CAUSE 2 c s2)
    else
      let s2 := listStore t c x.route r x.list (clear s1)
      let vb := valueBase t c x.route
      let k := loadDelta r x.delta (assembleK r (fun a i => fsGet s2 (vb + r.arrOff a + i)) x.list)
      let sc := colScales r k
      let run0 : FacRun := { fac := Array.replicate r.nnzL 0#32, cycles := intakeCycles x.list.length }
      let run := (r.prog.zip (List.range r.prog.length)).foldl (fun a e => facRecord x r sc k e.2 e.1 a) run0
      let s3 := fsPut wb (k.toList ++ run.fac.toList) s2
      let s4 := fsPut (wb + r.nnzK + r.nnzL + 4 * r.dim) sc.toList s3
      let s5 := setReg (b + 4) (BitVec.ofNat 32 (min 0xFFFF run.tiny + min 0xFFFF run.wrong * 65536)) s4
      let s6 :=
        match run.first with
        | some row => setReg (b + 8) (BitVec.ofNat 32 (row + 2 ^ 31)) s5
        | none => s5
      let repl := decide (0 < run.tiny + run.wrong)
      let s7 := fabSet c { fabGet s6 c with replaced := repl } (setReg (b + 0x14) (BitVec.ofNat 32 run.cycles) s6)
      let s8 := if repl then causeS Reg.SLV_CAUSE 0 c s7 else s7
      match run.fail with
      | some ix => done 3 (slvFailIx c 1 ix s8)
      | none => done (if repl then 2 else 1) s8

/-! ### Solving and refinement (R245 to R247) -/

/-- A vector in a pass, and the first supernode at which the pass gave a non-finite value. -/
structure PassRun where
  x : Array Word
  bad : Option Nat := none

/-- Element of the vector. -/
def PassRun.get (p : PassRun) (i : Nat) : Word := (p.x[i]?).getD 0

/-- Write an element in supernode `sn`'s step. -/
def PassRun.put (p : PassRun) (sn i : Nat) (w : Word) : PassRun :=
  { x := p.x.setIfInBounds i w, bad := if p.bad.isNone && !f32IsFin w then some sn else p.bad }

/-- R245: the forward pass over one supernode. -/
def forwardStep (r : Route) (fac : Nat → Word) (i : Nat) (p : PassRun) : PassRun :=
  let sn := nth r.supers i {}
  let rows := slice r.rows sn.rowsIx sn.r
  let at_ (t k : Nat) : Nat := sn.panel + t * sn.r + k
  let p1 := forN sn.w p (fun j p =>
    p.put i (sn.col + j) (laneSub 2 (sn.col + j) (p.get (sn.col + j))
      ((List.range j).map (fun t => (fac (at_ t j), p.get (sn.col + t))))))
  forN (sn.r - sn.w) p1 (fun k p =>
    let row := nth rows (sn.w + k) 0
    p.put i row (laneSub 2 row (p.get row)
      ((List.range sn.w).map (fun t => (fac (at_ t (sn.w + k)), p.get (sn.col + t))))))

/-- R245: the backward pass over one supernode. -/
def backwardStep (r : Route) (fac : Nat → Word) (i : Nat) (p : PassRun) : PassRun :=
  let sn := nth r.supers i {}
  let rows := slice r.rows sn.rowsIx sn.r
  forN sn.w p (fun jj p =>
    let j := sn.w - 1 - jj
    p.put i (sn.col + j) (laneSub 3 (sn.col + j) (p.get (sn.col + j))
      ((List.range (sn.r - (j + 1))).map (fun k =>
        (fac (sn.panel + j * sn.r + (j + 1 + k)), p.get (nth rows (j + 1 + k) 0))))))

/-- R245: solve with the factor; the answer (pivot order), or location and supernode of the failing pass. -/
def fabSolve (r : Route) (fac : Nat → Word) (b : Array Word) : Except (Nat × Nat) (Array Word) :=
  let f := forN r.supers.length ({ x := b } : PassRun) (forwardStep r fac)
  match f.bad with
  | some i => .error (2, i)
  | none =>
    let d := (List.range r.supers.length).foldl (fun (p : PassRun) i =>
      let sn := nth r.supers i {}
      forN sn.w p (fun j p => p.put i (sn.col + j) (laneScale (p.get (sn.col + j)) (fac (sn.panel + j * sn.r + j)))))
      ({ x := f.x } : PassRun)
    match d.bad with
    | some _ => .error (3, 0)
    | none =>
      let g := (List.range r.supers.length).reverse.foldl (fun p i => backwardStep r fac i p) ({ x := d.x } : PassRun)
      match g.bad with
      | some i => .error (4, i)
      | none => .ok g.x

/-- R246: b − K x, both triangles. -/
def fabResid (r : Route) (k : List Word) (b x : Array Word) : Array Word :=
  let at_ (a : Array Word) (i : Nat) : Word := (a[i]?).getD 0
  let ents := (r.kent.zip r.entCols).zip k
  let rows : Array (List (Word × Word)) := ents.foldl (fun (a : Array (List (Word × Word))) e =>
    let i := e.1.1.1
    let j := e.1.2
    let a1 := a.modify i (fun l => l ++ [(e.2, at_ x j)])
    if i = j then a1 else a1.modify j (fun l => l ++ [(e.2, at_ x i)])) (Array.replicate r.dim [])
  ((List.range r.dim).map (fun i => laneResid i (at_ b i) ((rows[i]?).getD []))).toArray

/-- R246: the largest magnitude. -/
def fabNorm (v : Array Word) : Word :=
  v.foldl (fun m w => if m.toNat < (f32Abs w).toNat then f32Abs w else m) 0#32

/-- All finite. -/
def allFin (v : Array Word) : Bool := v.toList.all f32IsFin

/-- What a refined solve ends with. -/
structure Refined where
  x : Array Word
  r : Array Word
  corr : Array Word := #[]
  steps : Nat := 0
  fail : Option (Nat × Nat) := none

/-- R246: the refinement loop; `fuel` is the steps left. -/
def fabRefine (r : Route) (k : List Word) (fac : Nat → Word) (rtol : Word) (b : Array Word) : Nat → Refined → Refined
  | 0, v => v
  | fuel + 1, v =>
    if !f32Lt (f32Mul rtol (fabNorm b)).1 (fabNorm v.r) then v
    else
      match fabSolve r fac v.r with
      | .error e => { v with fail := some e }
      | .ok c =>
        let xn := ((v.x.toList.zip c.toList).map (fun e => (f32Add e.1 e.2).1)).toArray
        let rn := fabResid r k b xn
        let v1 := { v with corr := c, steps := v.steps + 1 }
        if !allFin c || !allFin xn || !allFin rn then { v1 with fail := some (5, 0) }
        else if f32Lt (fabNorm rn) (fabNorm v.r) then
          let better := f32Le (fabNorm rn) (f32Mul (fabNorm v.r) 0x3F000000#32).1
          let v2 := { v1 with x := xn, r := rn }
          if better then fabRefine r k fac rtol b fuel v2 else v2
        else v1

/-- A vector from original row order to pivot order, and back. -/
def toPivot (r : Route) (v : List Word) : Array Word :=
  let a := v.toArray
  (r.perm.map (fun p => (a[p.1]?).getD 0)).toArray
/-- Back to original row order. -/
def toOrig (r : Route) (v : Array Word) : List Word :=
  ((r.perm.zip v.toList).foldl (fun (a : Array Word) e => a.setIfInBounds e.1.1 e.2) (Array.replicate r.dim 0#32)).toList

/-- R246: perform the refined solve of a client with the right-hand side in its work area: the result (1 or 2, else a
failure), and the state with its outcome reported. -/
def slvSolve (c : Nat) (s : State) : Nat × State :=
  let s := solveReads c s
  let x := fabGet s c
  let t := theTt s
  let r := t.route c x.route
  let b := slvBank c
  let wb := workBase t c
  let k := fsList s wb r.nnzK
  let fb := wb + r.nnzK
  let vb := fb + r.nnzL
  let facs := (fsList s fb r.nnzL).toArray
  let fac (i : Nat) : Word := (facs[i]?).getD 0
  let rhs := toPivot r (fsList s vb r.dim)
  let v : Refined :=
    match fabSolve r fac rhs with
    | .error e => { x := #[], r := #[], fail := some e }
    | .ok x0 =>
      let v0 : Refined := { x := x0, r := #[] }
      if x.refineMax = 0 then v0
      else
        let r0 := fabResid r k rhs x0
        if !allFin r0 then { v0 with r := r0, fail := some (5, 0) }
        else fabRefine r k fac x.rtol rhs x.refineMax { v0 with r := r0 }
  let cyc := (v.steps + 1) * (2 * passCost r + diagCost r) + (if x.refineMax = 0 then 0 else (v.steps + 1) * residCost r)
  let s1 := setFld b 6 4 v.steps (setReg (b + 0xC) 0 (setReg (b + 0x18) (BitVec.ofNat 32 cyc) s))
  if x.memFail then (5, slvResult c 5 s1)
  else match v.fail with
  | some (loc, ix) => (3, slvResult c 3 (slvFailIx c loc ix s1))
  | none =>
    let nb := fabNorm rhs
    let den := (f32MinMax true nb 0x00800000#32).1
    let rel := if x.refineMax = 0 then getReg s1 (b + 0x10) else (f32Div (fabNorm v.r) den).1
    let s2 := setReg (b + 0x10) rel s1
    let s3 := fsPut (vb + r.dim) (toOrig r v.x) s2
    let s4 := if x.refineMax = 0 then s3 else fsPut (vb + 2 * r.dim) (toOrig r v.r) s3
    let s5 := if v.steps = 0 then s4 else fsPut (vb + 3 * r.dim) (toOrig r v.corr) s4
    let s6 := fsPut (vb + 5 * r.dim) (toOrig r v.x) s5
    let res := if x.replaced then 2 else 1
    (res, slvResult c res s6)

/-- R245: write a right-hand side (original row order) into a client's work area. -/
def fabRhs (c : Nat) (v : List Word) (s : State) : State :=
  let t := theTt s
  let r := t.route c (fabGet s c).route
  fsPut (workBase t c + r.nnzK + r.nnzL) (v.take r.dim) s

/-- R245: the solution in a client's work area. -/
def fabSolution (c : Nat) (s : State) : List Word :=
  let t := theTt s
  let r := t.route c (fabGet s c).route
  fsList s (workBase t c + r.nnzK + r.nnzL + r.dim) r.dim

/-! ### Placement (R238), errors in the stores (R240) -/

/-- A route stands in both timetables with the same payload. -/
def routeKept (old : Option Timetable) (t : Timetable) (c k : Nat) : Bool :=
  match old with
  | some o => o.hasRoute c k && o.routeBytes c k == t.routeBytes c k
  | none => false

/-- R238: a load, or a commit boundary that brings in a new route. -/
def routesNew (old : Option Timetable) (t : Timetable) : Bool :=
  old.isNone || (t.hasRoute 1 0 && !routeKept old t 1 0) || t.optRoutes.any (fun k => !routeKept old t 2 k)

/-- R238: an area of `n` entries moves from `i` to `j`; `s0` is the state before any area moved. -/
def areaMove (s0 : State) (i j n : Nat) (s : State) : State := if i = j then s else fsPut j (fsList s0 i n) s

/-- R76, R238: place one route; `s0` is the state before. A new route anywhere sets every value area to its base values (log
entry 94). A route whose payload is the same keeps its broken bit. -/
def routePlace (old : Option Timetable) (t : Timetable) (s0 : State) (c k rg : Nat) (s : State) : State :=
  if t.hasRoute c k then
    let kept := routeKept old t c k
    let fresh := routesNew old t
    let vb := valueBase t c k
    let r := t.route c k
    let s1 := if fresh then fsPut vb r.base s else areaMove s0 (valueBase (old.getD t) c k) vb r.valueSize s
    let s2 := if kept then s1 else memHeal (0x4000000 + patBase t c k) ((t.routeBytes c k).length + 7) s1
    setReg rg (BitVec.ofNat 32 (1 + 2 * b2n (kept && getBit s0 rg 1) + 4 * b2n (fresh || getBit s0 rg 2))) s2
  else setReg rg 0 s

/-- R76, R238: place the routes of a timetable: `old` is the timetable in force before (none at a load). The work areas of
work that goes on move with their place. -/
def slvPlace (old : Option Timetable) (t : Timetable) (s : State) : State :=
  let s1 := routePlace old t s 1 0 Reg.SLV_HROUTE s
  let s2 := forN 16 s1 (fun k s1 => routePlace old t s 2 k (Reg.SLV_OROUTE + 4 * k) s1)
  let s3 := match old with
    | some o =>
      areaMove s (workBase o 2) (workBase t 2) (min (optWork o) (optWork t))
        (areaMove s (workBase o 1) (workBase t 1) (if routeKept old t 1 0 then (t.route 1 0).workSize else 0) s2)
    | none => s2
  setReg Reg.SLV_FILL (BitVec.ofNat 32 (fsFill t)) (setReg Reg.SLV_PATFILL (BitVec.ofNat 32 (patFill t)) s3)

/-! ### Registers (R250, R252) and self-test (R249) -/

/-- R250: SLV_STAT as read; `awake` is the state of the fabric domain. -/
def slvStat (awake : Bool) (s : State) : Word :=
  let v := s.slv
  BitVec.ofNat 32 (b2n (v.holder != 0 || v.selftest == 1) + 2 * v.holder + 8 * b2n v.paused + 16 * b2n awake + 256 * v.selftest)

/-- R249: whether a self-test may start. -/
def selftestOk (s : State) : Bool := (s.dev.mode == .hold || s.dev.mode == .ready) && s.slv.selftest != 1

/-- R249: start the self-test. -/
def selftestStart (s : State) : State := { s with slv := { s.slv with selftest := 1 } }

/-- R249: what the self-test leaves in the part of the factor store it uses is open: the optimiser work area of a loaded
timetable, or the start of the store. -/
def selftestArea (s : State) : State :=
  let area : Nat × Nat := match s.dev.tt with
    | some t => (workBase t 2, optWork t)
    | none => (0, 8388608)
  let n := min Config.selftestEntries area.2
  fsPut area.1 ((List.range n).map (fun i => Config.freeWord (s.free + i))) { s with free := s.free + n }

/-- R249: the self-test completes; whether the fabric passes is the device's health. -/
def execSlvSelftestDone (pass : Bool) (s : State) : Result :=
  .next (
    if domOn s 5 ∧ s.slv.selftest = 1 then
      let s0 := selftestArea s
      let s1 := { s0 with slv := { s0.slv with selftest := if pass then 2 else 3 } }
      if pass then s1 else cause Reg.SLV_CAUSE 6 s1
    else s)

end Sys2Proof.Machine
end

