-- ==== Sys2Proof/Machine/Hyd.lean ====
section
/-! DEFINITION. The hydraulic estimator (chapter 4): element laws, inputs and their substitution, the Newton solution on
the fabric, residual monitoring and the words it writes into the NS region. Values are exact reals of binary32 words,
rounded where a word is stored (log entry 3). -/

namespace Sys2Proof.Machine

/-- Standard gravity of R146. -/
def gravity : Rat := 980665 / 100000

/-- Absolute value. -/
def qabs (x : Rat) : Rat := if x < 0 then -x else x

/-- The value of a binary32 word (zero when it is no number). -/
abbrev val (w : Word) : Rat := f32RatD w

/-! ### The graph -/

/-- Free nodes (not of kind 4), in node order. -/
def Timetable.freeNodes (t : Timetable) : List Node := t.nodes.filter (fun n => n.kind != 4)

/-- R147: the component of every node, named by one of its nodes. -/
def Timetable.components (t : Timetable) : List Nat :=
  t.elements.foldl (fun c e =>
    let a := nth c e.src 0
    let b := nth c e.dst 0
    if a = b then c else c.map (fun x => if x = b then a else x)) (List.range t.nodes.length)

/-- The reference node of a component. -/
def Timetable.refNode (t : Timetable) (comps : List Nat) (c : Nat) : Option Node :=
  t.nodes.find? (fun n => n.kind == 4 && nth comps n.node 0 == c)

/-! ### Properties (R148) -/

/-- The wagons of a pipe. -/
def pipeGet (s : State) (e : Nat) : List Wagon := smGet (fun _ => []) s.ftr.pipes e

/-- Arrival temperature of a node as published. -/
def nodeTemp (s : State) (n : Nat) : Rat := val (wordVal (imgGet s 4 (0x2000 + n)))

/-- R148: the temperature at which an element's properties are taken. -/
def elemTemp (s : State) (e : Element) : Rat :=
  if e.type = 0 then
    let ws := pipeGet s e.element
    let v := ws.foldl (fun n w => n + val w.vol) (0 : Rat)
    if v = 0 then nodeTemp s e.src else ws.foldl (fun n w => n + val w.vol * val w.temp) (0 : Rat) / v
  else nodeTemp s e.src

/-- The fluid of the timetable in force. -/
def fluid (s : State) (prop : Nat) (temp : Rat) : Rat := fluidAt prop (theTt s).tracker.fluid temp

/-- R146: metres of head of a pressure in kPa, at a density. -/
def headOf (z p rho : Rat) : Rat := z + 1000 * p / (rho * gravity)

/-- Pressure in kPa of a head. -/
def pressureOf (z h rho : Rat) : Rat := (h - z) * rho * gravity / 1000

/-! ### Element laws (R149 to R152, R154) -/

/-- R149: cross section of a pipe. -/
def pipeArea (d : Rat) : Rat := Config.pi * d ^ 2 / 4

/-- R149: the friction factor at a Reynolds number. -/
def friction (eps d re : Rat) : Rat :=
  let lam (r : Rat) : Rat := 64 / r
  let turb (r : Rat) : Rat := 1 / 4 / (Config.log10 (eps / (37 / 10 * d) + 574 / 100 / Config.rpow r (9 / 10))) ^ 2
  if re < 2000 then lam re
  else if 4000 ≤ re then turb re
  else lam 2000 + (re - 2000) / 2000 * (turb 4000 - lam 2000)

/-- R149: head loss of a pipe at a flow. -/
def pipeLoss (l d eps nu q : Rat) : Rat :=
  let v := q / (3600 * pipeArea d)
  let re := max 1 (qabs v * d / nu)
  friction eps d re * (l / d) * (v * qabs v) / (2 * gravity)

/-- R150: the opening coefficient of a valve. -/
def valveK (equal : Bool) (kvs r lam x : Rat) : Rat :=
  max (1 / 1000) (if equal then kvs * max lam (if x = 1 then 1 else Config.rpow r (x - 1)) else kvs * (lam + (1 - lam) * x))

/-- R151: the relative speed of a pump. -/
def pumpSpeed (e : Element) (ctl : Rat) : Rat :=
  if bit e.flags 0 then ctl / val e.p3 else if 1 ≤ ctl then 1 else 0

/-- Head loss of a quadratic element: C q |q| ÷ k². -/
def quadLoss (c k q : Rat) : Rat := c * (q * qabs q) / k ^ 2

/-- R149 to R152: the head loss of an element at a flow, with control value `ctl` and check-valve state `isOpen`. -/
def headLoss (s : State) (e : Element) (ctl : Rat) (isOpen : Bool) (q : Rat) : Rat :=
  let temp := elemTemp s e
  let rho := fluid s 0 temp
  let c := 100000 / (rho * gravity)
  match e.type with
  | 0 => pipeLoss (val e.p0) (val e.p1) (val e.p2) (fluid s 2 temp / 1000000) q
  | 1 => quadLoss c (valveK (bit e.flags 0) (val e.p0) (val e.p1) (val e.p2) (max 0 (min 1 ctl))) q
  | 2 =>
    let sp := pumpSpeed e ctl
    if sp < 5 / 100 then quadLoss c (1 / 1000) q
    else -(sp ^ 2 * val e.p0 + sp * val e.p1 * q + val e.p2 * (q * qabs q))
  | _ => if isOpen then val e.p0 * 1000 / (rho * gravity) + quadLoss c (val e.p1) q else quadLoss c (1 / 1000) q

/-- R154: the slope of an element. -/
def headSlope (s : State) (e : Element) (ctl : Rat) (isOpen : Bool) (q : Rat) : Rat :=
  let m := max (qabs q) (1 / 100)
  let temp := elemTemp s e
  let rho := fluid s 0 temp
  let c := 100000 / (rho * gravity)
  let quad (k : Rat) : Rat := 2 * c * m / k ^ 2
  let d := match e.type with
    | 0 => 2 * headLoss s e ctl isOpen m / m
    | 1 => quad (valveK (bit e.flags 0) (val e.p0) (val e.p1) (val e.p2) (max 0 (min 1 ctl)))
    | 2 =>
      let sp := pumpSpeed e ctl
      if sp < 5 / 100 then quad (1 / 1000) else -(sp * val e.p1 + 2 * val e.p2 * m)
    | _ => quad (if isOpen then val e.p1 else 1 / 1000)
  max d (1 / 1000000)

/-! ### Inputs (R160) -/

/-- Every reference that a node or element record names. -/
def Timetable.hydRefs (t : Timetable) : List Nat :=
  (t.nodes.flatMap (fun n => [n.pRef, n.tRef, n.qRef]) ++ t.elements.flatMap (fun e => [e.ctlRef, e.measRef])).filter
    (· != 0xFFFFFFFF)

/-- R160: the HYD input area: every referenced word as it stands now. -/
def hydCopy (s : State) : List (Nat × DWord) :=
  (theTt s).hydRefs.foldl (fun m r => match refGet s r with
    | some w => smInsert m r w
    | none => m) []

/-- A word of the input area; none for no reference. -/
def hydWord (s : State) (ref : Nat) : Option DWord :=
  if ref = 0xFFFFFFFF then none else some (smGet (fun _ => badWord) s.hyd.inputs ref)

/-- Key of an input: kind (0 demand, 1 control, 2 reference pressure, 3 node temperature) and number. -/
def hydKey (kind n : Nat) : Nat := 0x10000 * kind + n

/-- The value used last since the entry into RUN. -/
def usedGet (s : State) (key : Nat) : Option Word :=
  (s.hyd.used.find? (fun e => e.1 == key)).map (fun e => e.2)

/-- Note a value as used. -/
def usedPut (key : Nat) (w : Word) (s : State) : State := { s with hyd := { s.hyd with used := smInsert s.hyd.used key w } }

/-- Put the word in force for an input of this solve. -/
def nowPut (key : Nat) (w : DWord) (s : State) : State := { s with hyd := { s.hyd with now := smInsert s.hyd.now key w } }

/-- R160: resolve one input: a value that is not BAD is used; a BAD one is replaced by the last value used, or by `dflt`
(with the quality `dq`), and sets HYD_CAUSE.subst. -/
def hydResolve (key ref : Nat) (dflt : Word) (dq : Quality) (s : State) : State :=
  match hydWord s ref with
  | none => s
  | some w =>
    if wordQ w ≠ .bad then usedPut key (wordVal w) (nowPut key w s)
    else
      let s1 := cause Reg.HYD_CAUSE 4 s
      match usedGet s key with
      | some v => nowPut key (mkWord v .subst) s1
      | none => nowPut key (mkWord dflt dq) s1

/-- R160: resolve every input; a reference pressure without a usable value sets no_ref. -/
def hydResolveAll (s : State) : State :=
  let t := theTt s
  let s1 := forL t.nodes { s with hyd := { s.hyd with now := [] } } (fun n s =>
    let s1 := hydResolve (hydKey 0 n.node) n.qRef 0 .subst s
    if n.kind = 4 then hydResolve (hydKey 2 n.node) n.pRef 0 .bad s1 else s1)
  let s2 := forL t.elements s1 (fun e s =>
    if e.type = 1 then hydResolve (hydKey 1 e.element) e.ctlRef 0x3F800000 .subst s
    else if e.type = 2 then hydResolve (hydKey 1 e.element) e.ctlRef e.p3 .subst s
    else s)
  if t.nodes.any (fun n => n.kind == 4 &&
      wordQ ((s2.hyd.now.find? (fun e => e.1 == hydKey 2 n.node)).elim badWord (fun e => e.2)) == .bad) then
    cause Reg.HYD_CAUSE 5 s2
  else s2

/-- The word in force for an input; none when it has no reference. -/
def nowGet (s : State) (key : Nat) : Option DWord := (s.hyd.now.find? (fun e => e.1 == key)).map (fun e => e.2)

/-- R145: the demand of a node. -/
def demand (s : State) (n : Node) : Rat :=
  match nowGet s (hydKey 0 n.node) with
  | some w => if n.circuit % 2 = 1 then -(val (wordVal w)) else val (wordVal w)
  | none => 0

/-- The control value of an element; without a reference a valve is at 1 and a pump at its rated speed. -/
def control (s : State) (e : Element) : Rat :=
  match nowGet s (hydKey 1 e.element) with
  | some w => val (wordVal w)
  | none => if e.type = 2 then val e.p3 else 1

/-- R146: the head of a reference node. -/
def refHead (s : State) (n : Node) : Rat :=
  let p := match nowGet s (hydKey 2 n.node) with
    | some w => val (wordVal w)
    | none => 0
  headOf (val n.elevation) p (fluid s 0 (nodeTemp s n.node))

/-! ### The Newton solution (R153 to R158) -/

/-- Head of a node of the iterate. -/
def headAt (h : List Word) (n : Nat) : Rat := val (nth h n 0)

/-- F1 of R153. -/
def resid1 (s : State) (cv : List Bool) (q h : List Word) : List Rat :=
  (theTt s).elements.map (fun e =>
    headLoss s e (control s e) (nth cv e.element false) (val (nth q e.element 0)) - (headAt h e.src - headAt h e.dst))

/-- Inflow minus outflow at a node. -/
def netInflow (t : Timetable) (q : List Word) (n : Nat) : Rat :=
  t.elements.foldl (fun a e =>
    let f := val (nth q e.element 0)
    let a1 := if e.dst = n then a + f else a
    if e.src = n then a1 - f else a1) (0 : Rat)

/-- F2 of R153. -/
def resid2 (s : State) (q : List Word) : List Rat :=
  (theTt s).freeNodes.map (fun n => netInflow (theTt s) q n.node - demand s n)

/-- The largest magnitude. -/
def maxAbs (xs : List Rat) : Rat := xs.foldl (fun m x => max m (qabs x)) 0

/-- R157 step 1: the residual measure of an iterate. -/
def hydMeasure (s : State) (cv : List Bool) (q h : List Word) : Rat :=
  max (maxAbs (resid1 s cv q h) / val s.hyd.htol) (maxAbs (resid2 s q) / val s.hyd.qtol)

/-- R152: the states of the check valves for the heads of an iterate. -/
def checkStates (s : State) (h : List Word) : List Bool :=
  (theTt s).elements.map (fun e =>
    e.type == 3 &&
      decide (val e.p0 * 1000 / (fluid s 0 (elemTemp s e) * gravity) < headAt h e.src - headAt h e.dst))

/-- R156: the iterate of a cold start. -/
def coldIterate (s : State) : List Word × List Word :=
  let t := theTt s
  let comps := t.components
  (t.elements.map (fun e => if e.type = 0 then f32OfRat (1 / 2 * 3600 * pipeArea (val e.p1)) else 0x3F800000),
   t.nodes.map (fun n => match t.refNode comps (nth comps n.node 0) with
     | some r => f32OfRat (refHead s r)
     | none => 0))

/-- Put the heads of the reference nodes into an iterate (R146, R153). -/
def fixHeads (s : State) (h : List Word) : List Word :=
  ((theTt s).nodes.zip (fit 0#32 (theTt s).nodes.length h)).map (fun e => if e.1.kind = 4 then f32OfRat (refHead s e.1) else e.2)

/-- R155, R157: begin an iteration: check valves, residual measure, and the factorisation with the D_e list. -/
def hydIterate (s : State) : State :=
  let y := s.hyd
  let cv := checkStates s y.h
  let m := hydMeasure s cv y.q y.h
  let ds := (theTt s).elements.map (fun e =>
    (8 * 2 ^ 28 + e.element, f32OfRat (headSlope s e (control s e) (nth cv e.element false) (val (nth y.q e.element 0)))))
  let s1 := { s with hyd := { y with cvOpen := cv, cvChanged := !y.cvOpen.isEmpty && y.cvOpen != cv, merit := m } }
  fabRequest 1 .factor (fabSet 1 { fabGet s1 1 with route := 0, list := ds, delta := 0 } s1)

/-- R155: the right-hand side (−F1, F2) of an iteration. -/
def hydRhs (s : State) : List Word :=
  (resid1 s s.hyd.cvOpen s.hyd.q s.hyd.h).map (fun x => f32OfRat (-x)) ++ (resid2 s s.hyd.q).map f32OfRat

/-- A trial point: the iterate plus `lam` times the step. -/
def hydTrial (s : State) (dq dh : List Word) (lam : Rat) : List Word × List Word :=
  let step (a : Word) (d : Word) : Word := f32OfRat (val a + lam * val d)
  let q := (s.hyd.q.zip dq).map (fun e => step e.1 e.2)
  let free := (theTt s).freeNodes.zip dh
  let h := ((theTt s).nodes.zip s.hyd.h).map (fun e => match free.find? (fun f => f.1.node == e.1.node) with
    | some f => step e.2 f.2
    | none => e.2)
  (q, h)

/-- R157 step 3: the accepted trial point and whether it was taken at full length; `fuel` is the halvings left. -/
def hydSearch (s : State) (dq dh : List Word) : Nat → Rat → (List Word × List Word) × Bool
  | 0, lam => (hydTrial s dq dh lam, lam == 1)
  | fuel + 1, lam =>
    let tr := hydTrial s dq dh lam
    if getBit s Reg.HYD_CTL 4 ∧ s.hyd.merit < hydMeasure s s.hyd.cvOpen tr.1 tr.2 then hydSearch s dq dh fuel (lam / 2)
    else (tr, lam == 1)

/-! ### Publication (R159, R161, R162, R172) -/

/-- R162: the quality of a component: of its inputs, and SUBST when the solve did not converge. -/
def compQuality (s : State) (converged : Bool) (comps : List Nat) (c : Nat) : Quality :=
  let t := theTt s
  let inC (n : Nat) : Bool := nth comps n 0 == c
  let q (key : Nat) : Quality := (nowGet s key).elim .good wordQ
  let a := (t.nodes.filter (fun n => inC n.node)).foldl (fun x n =>
    qMax (qMax x (q (hydKey 0 n.node))) (if n.kind = 4 then (nowGet s (hydKey 2 n.node)).elim .bad wordQ else .good)) Quality.good
  let b := (t.elements.filter (fun e => inC e.src)).foldl (fun x e => qMax x (q (hydKey 1 e.element))) a
  if converged then b else qMax b .subst

/-- R162, R172: write the iterate's pressures, flows and imbalances into the working NS generation. -/
def hydWrite (converged : Bool) (s : State) : State :=
  let t := theTt s
  let comps := t.components
  let quals := (List.range t.nodes.length).map (fun c => compQuality s converged comps c)
  let cq (n : Nat) : Quality := nth quals (nth comps n 0) .bad
  let s1 := forL t.nodes s (fun n s1 =>
    let p := pressureOf (val n.elevation) (headAt s.hyd.h n.node) (fluid s 0 (nodeTemp s n.node))
    imgPut 4 n.node (mkWord (f32OfRat p) (cq n.node)) s1)
  let s2 := forL t.elements s1 (fun e s1 => imgPut 4 (0x8000 + e.element) (mkWord (nth s.hyd.q e.element 0) (cq e.src)) s1)
  forN 16 s2 (fun c s1 =>
    let refs := t.nodes.filter (fun n => n.kind == 4 && n.circuit == c)
    let inj := refs.foldl (fun a n => a + (demand s n - netInflow t s.hyd.q n.node)) (0 : Rat)
    let q := refs.foldl (fun x n => qMax x (cq n.node)) Quality.good
    if refs.isEmpty then s1 else imgPut 4 (0xC000 + c) (mkWord (f32OfRat inj) q) s1)

/-- The NS words that HYD writes: pressures, flows, imbalances. -/
def hydWords (t : Timetable) : List Nat :=
  t.nodes.map (fun n => n.node) ++ t.elements.map (fun e => 0x8000 + e.element) ++ (List.range 16).map (fun c => 0xC000 + c)

/-- The NS words that FTR writes. -/
def ftrWords (t : Timetable) : List Nat := t.nodes.flatMap (fun n => [0x2000 + n.node, 0x4000 + n.node, 0x6000 + n.node])

/-- R15, R159: words that keep the previous headway's values are marked STALE, whatever their quality was. -/
def nsStale (is : List Nat) (s : State) : State :=
  forL is s (fun i s => imgPut 4 i (mkWord (wordVal (imgGetWork s 4 i)) .stale) s)

/-- R161: one measurement: residual against its limit. `old` holds the consecutive headways before this one, 256 more once
the measurement is suspect; it becomes suspect when they reach HYD_RLIM_N. -/
def suspectOne (old : List (Nat × Nat)) (key src kind : Nat) (r limit : Rat) (s : State) : State :=
  let o := smGet (fun _ => 0) old key
  if limit < qabs r then
    let n := min 255 (o % 256 + 1)
    let now := decide (o < 256 ∧ getFld s Reg.HYD_RLIM_N 7 0 ≤ n)
    let v := n + (if now ∨ 256 ≤ o then 256 else 0)
    let s1 := { s with hyd := { s.hyd with suspect := smPut (fun _ => 0) s.hyd.suspect key v } }
    if now then causeD Reg.HYD_CAUSE 3 src (BitVec.ofNat 32 kind) 0 s1 else s1
  else s

/-- Root mean square of residuals. -/
def rmsWord (rs : List Rat) : Word :=
  if rs.isEmpty then 0 else Config.roundSqrt (rs.foldl (fun a r => a + r * r) (0 : Rat) / (rs.length : Rat))

/-- R161: the residual monitor. A headway without a residual of a measurement ends its consecutive headways. -/
def hydMonitor (s : State) : State :=
  let t := theTt s
  let good (ref : Nat) : Option Rat := match hydWord s ref with
    | some w => if wordQ w = .good then some (val (wordVal w)) else none
    | none => none
  let ps := t.nodes.filterMap (fun n => if n.kind = 4 then none else
    (good n.pRef).map (fun m => (n.node, m - val (wordVal (imgGetWork s 4 n.node)))))
  let qs := t.elements.filterMap (fun e => (good e.measRef).map (fun m => (e.element, m - val (nth s.hyd.q e.element 0))))
  let lp := val (getReg s Reg.HYD_RLIM_P)
  let lq := val (getReg s Reg.HYD_RLIM_Q)
  let s1 := setReg Reg.HYD_RES_Q (rmsWord (qs.map (·.2))) (setReg Reg.HYD_RES_P (rmsWord (ps.map (·.2))) s)
  let old := s.hyd.suspect
  let s2 := forL ps { s1 with hyd := { s1.hyd with suspect := [] } } (fun e s => suspectOne old e.1 e.1 0 e.2 lp s)
  forL qs s2 (fun e s => suspectOne old (0x10000 + e.1) e.1 1 e.2 lq s)

/-- Report a duration that the model does not time: a free value, and its maximum. -/
def freeDuration (last mx : Nat) (s : State) : State :=
  let (n, s1) := fresh s
  let v := Config.freeWord n
  let s2 := setReg last v s1
  if (getReg s2 mx).toNat < v.toNat then setReg mx v s2 else s2

/-- HYD ends: its registers and energy, and the tracker begins to move. -/
def hydEnd (s : State) : State :=
  let y := s.hyd
  let s1 := setReg Reg.PWR_E_HYD (BitVec.ofNat 32 s.pwr.eHyd) (freeDuration Reg.HYD_TIME Reg.HYD_TIMEMAX s)
  let s2 := setFld Reg.HYD_STAT 6 6 (b2n y.failed) (setFld Reg.HYD_STAT 5 5 (b2n y.cold)
    (setFld Reg.HYD_STAT 4 4 (b2n y.converged) (setFld Reg.HYD_STAT 3 0 y.iter s1)))
  let s3 := setFld Reg.HYD_STAT 19 16 (min 15 y.failRun) (setFld Reg.HYD_STAT 7 7 0 s2)
  { s3 with hyd := { s3.hyd with busy := false, done := true }, ftr := { s3.ftr with busy := true } }

/-- R158, R159: a solve that ran to its end, converged or not. -/
def hydFinish (converged : Bool) (s : State) : State :=
  let s1 := hydWrite converged s
  let s2 := { s1 with hyd := { s1.hyd with
    converged := converged, failed := false, failRun := 0,
    flows := s.hyd.q, heads := s.hyd.h, conv := if converged then some (s.hyd.q, s.hyd.h) else s.hyd.conv } }
  let s3 := hydMonitor s2
  hydEnd (if converged then s3 else cause Reg.HYD_CAUSE 0 (incFld Reg.HYD_CNT 15 0 s3))

/-- R159: the fabric reported a failed solve. -/
def hydFail (s : State) : State :=
  let n := s.hyd.failRun + 1
  let s1 := nsStale (hydWords (theTt s)) { s with hyd := { s.hyd with
    converged := false, failed := true, failRun := n, suspect := [],
    coldDue := s.hyd.coldDue || decide (3 ≤ n) } }
  hydEnd (cause Reg.HYD_CAUSE 1 (incFld Reg.HYD_CNT 31 16 s1))

/-- R156, R160: HYD starts at t_in: inputs, starting point, first iteration. A network without elements needs no solve. -/
def hydStart (s : State) : State :=
  let s0 := fabHydTake { s with
    pwr := { s.pwr with eHyd := 0 }
    ftr := { s.ftr with busy := false }
    hyd := { s.hyd with
      inputs := hydCopy s, headway := s.dev.headway, iter := 0, busy := true, done := false, cvOpen := [],
      qtol := getReg s Reg.HYD_QTOL, htol := getReg s Reg.HYD_HTOL } }
  let s1 := hydResolveAll s0
  let cold := s1.hyd.coldDue || s1.hyd.conv.isNone
  let it := if cold then coldIterate s1 else s1.hyd.conv.getD ([], [])
  let s2 := { s1 with hyd := { s1.hyd with cold := cold, coldDue := false, q := it.1, h := fixHeads s1 it.2 } }
  let s3 := setFld Reg.HYD_STAT 7 7 1 (if cold then cause Reg.HYD_CAUSE 2 s2 else s2)
  if (theTt s).elements.isEmpty then hydFinish true s3 else hydIterate s3

/-- The fabric has factorised for HYD. -/
def hydFactored (res : Nat) (s : State) : State :=
  if res = 1 ∨ res = 2 then fabRequest 1 .solve (fabRhs 1 (hydRhs s) s) else hydFail s

/-- The fabric has solved for HYD: R157 steps 2 to 4 and R158. -/
def hydSolved (res : Nat) (s : State) : State :=
  if res ≠ 1 ∧ res ≠ 2 then hydFail s
  else
    let x := fabSolution 1 s
    let ne := (theTt s).elements.length
    let dq := x.take ne
    let dh := x.drop ne
    let (tr, full) := hydSearch s dq dh 3 1
    let s1 := { s with hyd := { s.hyd with q := tr.1, h := tr.2, iter := s.hyd.iter + 1 } }
    let small := dq.all (fun d => decide (qabs (val d) ≤ val s.hyd.qtol)) && dh.all (fun d => decide (qabs (val d) ≤ val s.hyd.htol))
    if full && small && !s.hyd.cvChanged then hydFinish true s1
    else if getFld s Reg.HYD_CTL 3 0 ≤ s1.hyd.iter then hydFinish false s1
    else hydIterate s1

/-- R156: entry into RUN: the next solve starts cold, and no input value has been used. -/
def hydEnterRun (s : State) : State :=
  { s with hyd := { s.hyd with coldDue := true, used := [], conv := none, suspect := [] } }

/-- R156, R81: a commit boundary that brings in a new hydraulic route makes the next solve cold. -/
def hydCommit (old new : Timetable) (s : State) : State :=
  if old.routeBytes 1 0 == new.routeBytes 1 0 then s else { s with hyd := { s.hyd with coldDue := true, conv := none } }

/-- HYD stops: the states in which it is off. The headways without residuals that follow end every consecutive run (R161). -/
def hydStop (s : State) : State :=
  let s1 := setFld Reg.HYD_STAT 7 7 0 (fabAbandon 1 s)
  fabHydRelease { s1 with hyd := { s1.hyd with busy := false, done := false, suspect := [] }, ftr := { s1.ftr with busy := false } }

end Sys2Proof.Machine
end

