-- ==== Sys2Proof/Machine/Ftr.lean ====
section
/-! DEFINITION. The front tracker (chapter 4): wagons, seeding, the move of a headway, predictions and the words it
writes into the NS region. -/

namespace Sys2Proof.Machine

/-! ### The parcel store (R163) -/

/-- Set a pipe's queue. -/
def pipeSet (e : Nat) (ws : List Wagon) (s : State) : State :=
  { s with ftr := { s.ftr with pipes := smPut (fun _ => []) s.ftr.pipes e ws } }

/-- Places in use. -/
def wagonsUsed (s : State) : List Nat := s.ftr.pipes.flatMap (fun p => p.2.map (fun w => w.ix))

/-- The k-th free place at or after `i`; `fuel` bounds the places looked at. -/
def kthFree (used : List Nat) : Nat → Nat → Nat → Nat
  | 0, i, _ => i
  | fuel + 1, i, k =>
    if used.contains i then kthFree used fuel (i + 1) k
    else if k = 0 then i
    else kthFree used fuel (i + 1) (k - 1)

/-- R168: a free place for a new wagon, if there is one: which of the free ones is open (log entry 16). -/
def wagonNew (s : State) : Option Nat × State :=
  let used := wagonsUsed s
  let mx := (theTt s).tracker.maxWagons
  if mx ≤ used.length then (none, s)
  else
    let (n, s1) := fresh s
    let ix := kthFree used mx 0 (Config.wagonPick n % (mx - used.length))
    (some ix, memHeal (0x1800000 + 16 * ix) 16 s1)

/-- R163: the 16 bytes of a place of the parcel store (zero where no wagon is). -/
def wagonBytes (s : State) (ix : Nat) : List Byte :=
  let find (ws : List Wagon) : Option (Wagon × Nat) :=
    (ws.zip ((ws.drop 1).map (fun w => w.ix) ++ [0x7FFFF])).find? (fun e => e.1.ix == ix)
  match s.ftr.pipes.findSome? (fun p => find p.2) with
  | some (w, link) =>
    wordBytes w.vol ++ wordBytes w.temp ++ leBytes 4 w.birth ++ leBytes 4 (link + qCode w.q * 2 ^ 30)
  | none => List.replicate 16 0

/-! ### Cooling (R167) and seeding (R169) -/

/-- R167: the ground temperature. -/
def groundTemp (s : State) : Rat :=
  let k := (theTt s).tracker
  match refGet s k.groundRef with
  | some w => if wordQ w = .bad then val k.groundDefault else val (wordVal w)
  | none => val k.groundDefault

/-- R167: a temperature after `dt` seconds in a pipe. -/
def coolTo (s : State) (e : Element) (temp dt : Rat) : Rat :=
  let ta := if bit e.flags 0 then groundTemp s else 20
  if temp = ta ∨ dt = 0 then temp
  else
    ta + (temp - ta) * Config.rexp (-(val e.p3 * dt / (fluid s 0 temp * fluid s 1 temp * pipeArea (val e.p1))))

/-- Volume of a pipe. -/
def pipeVolume (e : Element) : Rat := pipeArea (val e.p1) * val e.p0

/-- A usable word of a reference. -/
def usableRef (s : State) (ref : Nat) : Option Rat :=
  match refGet s ref with
  | some w => if wordQ w = .bad then none else some (val (wordVal w))
  | none => none

/-- R169: the temperature with which a pipe is seeded. -/
def seedTemp (s : State) (e : Element) : Word :=
  let t := theTt s
  let inlet := if f32Neg (nth s.hyd.flows e.element 0) && nth s.hyd.flows e.element 0 != 0x80000000 then e.dst else e.src
  match usableRef s (nth t.nodes inlet {}).tRef with
  | some x => f32OfRat x
  | none =>
    let circuit := (nth t.nodes e.src {}).circuit
    let xs := (t.nodes.filter (fun n => n.circuit == circuit)).filterMap (fun n => usableRef s n.tRef)
    if xs.isEmpty then t.tracker.groundDefault else f32OfRat (xs.foldl (· + ·) (0 : Rat) / (xs.length : Rat))

/-- R169: seed the pipes that `which` picks with one wagon each. -/
def ftrSeed (which : Element → Bool) (s : State) : State :=
  forL ((theTt s).elements.filter (fun e => e.type == 0 && which e)) s (fun e s =>
    let s0 := pipeSet e.element [] s
    match wagonNew s0 with
    | (some ix, s1) =>
      pipeSet e.element [{ ix := ix, vol := f32OfRat (pipeVolume e), temp := seedTemp s e,
                           birth := s.pwr.tick % 2 ^ 32, q := .subst }] s1
    | (none, s1) => s1)

/-! ### Water on the move (R165) -/

/-- Water that reaches a node in a headway. -/
structure Part where
  vol : Rat
  temp : Rat
  birth : Nat
  q : Quality
  elem : Option Nat

/-- The age of a birth in ticks. -/
def ageOf (now birth : Nat) : Nat := (now + 2 ^ 32 - birth % 2 ^ 32) % 2 ^ 32

/-- The birth of a mean age. -/
def birthOf (now : Nat) (age : Rat) : Nat :=
  let a := if age.den = 1 then age.num else Config.roundInt age
  ((now : Int) - a).emod (2 ^ 32) |>.toNat

/-- R165, R168: a volume-weighted mix of water: temperature, birth, quality. -/
def mixParts (now : Nat) (ps : List Part) : Rat × Nat × Quality :=
  let v := ps.foldl (fun a p => a + p.vol) (0 : Rat)
  let temp := ps.foldl (fun a p => a + p.vol * p.temp) (0 : Rat) / v
  let age := ps.foldl (fun a p => a + p.vol * (ageOf now p.birth : Rat)) (0 : Rat) / v
  (temp, birthOf now age, qMaxList (ps.map (fun p => p.q)))

/-- A wagon as water. -/
def Wagon.part (w : Wagon) : Part := ⟨val w.vol, val w.temp, w.birth, w.q, none⟩

/-- R168: two neighbours merged into the first one's place. -/
def wagonMerge (now : Nat) (a : Wagon) (p : Part) : Wagon :=
  let m := mixParts now [a.part, p]
  { a with vol := f32OfRat (val a.vol + p.vol), temp := f32OfRat m.1, birth := m.2.1, q := m.2.2 }

/-- R165, R168: push water into the inlet end (the head of the list). -/
def wagonPush (p : Part) (ws : List Wagon) (s : State) : List Wagon × State :=
  let now := s.pwr.tick % 2 ^ 32
  let fresh_ (s : State) (rest : List Wagon) : List Wagon × State :=
    match wagonNew s with
    | (some ix, s1) => ({ ix := ix, vol := f32OfRat p.vol, temp := f32OfRat p.temp, birth := p.birth, q := p.q } :: rest, s1)
    | (none, s1) =>
      match rest with
      | [] => ([], cause Reg.FTR_CAUSE 1 s1)
      | a :: rest' => (wagonMerge now a p :: rest', cause Reg.FTR_CAUSE 1 s1)
  match ws with
  | [] => fresh_ s []
  | a :: rest =>
    if p.vol < val (theTt s).tracker.minVolume ∨ qabs (p.temp - val a.temp) < val (getReg s Reg.FTR_TOL) then
      (wagonMerge now a p :: rest, s)
    else fresh_ s (a :: rest)

/-- R165: pop a volume from the outlet end (the head of the list here): the water and what is left. -/
def wagonPop : List Wagon → Rat → List Part × List Wagon
  | [], _ => ([], [])
  | w :: rest, v =>
    if v ≤ 0 then ([], w :: rest)
    else if val w.vol ≤ v then
      let r := wagonPop rest (v - val w.vol)
      (w.part :: r.1, r.2)
    else ([{ w.part with vol := v }], { w with vol := f32OfRat (val w.vol - v) } :: rest)

/-- What a move carries between nodes. -/
structure Move where
  s : State
  /-- water that has reached a node -/
  inbox : List (Nat × List Part) := []

/-- Hand water to a node. -/
def Move.give (m : Move) (n : Nat) (ps : List Part) : Move :=
  { m with inbox := smInsert m.inbox n (smGet (fun _ => []) m.inbox n ++ ps) }

/-- What the tracker keeps of a node. The delay of one that no water has reached yet grows from 0 (R173). -/
def mixGet (s : State) (n : Nat) : NodeMix := smGet (fun _ => ({ birth := s.ftr.birth0 } : NodeMix)) s.ftr.mixes n

/-- Set that. -/
def mixSet (n : Nat) (x : NodeMix) (s : State) : State :=
  { s with ftr := { s.ftr with mixes := smInsert s.ftr.mixes n x } }

/-- R507: what the tracker keeps of the nodes, as an aligned NS region shows it: temperature, quality and delay. -/
def mixesOf (t : Timetable) (tick : Nat) (ns : List (Nat × DWord)) : List (Nat × NodeMix) :=
  t.nodes.map (fun n =>
    let w := smGet (imgInit 4) ns (0x2000 + n.node)
    let d := Config.roundInt (1024 * val (wordVal (smGet (imgInit 4) ns (0x4000 + n.node))))
    (n.node, { temp := wordVal w, birth := (((tick : Int) - d) % 2 ^ 32).toNat, q := wordQ w }))

/-- The flow of an element in the move. -/
def moveFlow (s : State) (e : Element) : Rat := val (nth s.hyd.flows e.element 0)

/-- Upstream and downstream node of an element at a flow. -/
def upNode (e : Element) (q : Rat) : Nat := if q < 0 then e.dst else e.src
/-- Downstream node. -/
def downNode (e : Element) (q : Rat) : Nat := if q < 0 then e.src else e.dst

/-- R166: what a node's t_ref gives: none without a reference; otherwise the value to use, if one is known, and its
quality. A BAD one is replaced, which sets FTR_CAUSE.temp_subst where the value is wanted. -/
def nodeTref (want : Bool) (n : Node) (s : State) : Option (Option Word × Quality) × State :=
  match hydWord s n.tRef with
  | none => (none, s)
  | some w =>
    let key := hydKey 3 n.node
    if wordQ w ≠ .bad then (some (some (wordVal w), wordQ w), usedPut key (wordVal w) s)
    else (some (usedGet s key, .subst), if want then cause Reg.FTR_CAUSE 3 s else s)

/-- R165 step 1, R166: the water that an injection brings: at the node's t_ref, or where no usable value has been seen at
the mixed temperature (`mixed`). The temperature of an injection at a node without t_ref is stated nowhere: a free value
(log entry 92). -/
def injected (vol mixed : Rat) (now : Nat) (tref : Option (Option Word × Quality)) (s : State) : Part × State :=
  match tref with
  | some (some w, q) => (⟨vol, val w, now, q, none⟩, s)
  | some (none, q) => (⟨vol, mixed, now, q, none⟩, s)
  | none =>
    let (n, s1) := fresh s
    (⟨vol, val (Config.freeWord n), now, .subst, none⟩, s1)

/-- The element that delivered the largest volume, ties to the lowest number. -/
def dominantOf (ps : List Part) : Option Nat :=
  let es := ps.filterMap (fun p => p.elem)
  let vol (e : Nat) : Rat := (ps.filter (fun p => p.elem == some e)).foldl (fun a p => a + p.vol) (0 : Rat)
  es.foldl (fun best e => match best with
    | none => some e
    | some b => if vol b < vol e ∨ (vol b = vol e ∧ e < b) then some e else some b) none

/-- R166 of a node of demand `d`: the boundary temperature read when the node's kind takes one.
A node of another kind gives no rule for its t_ref: an injection there is one without t_ref (log entry 92). -/
def nodeBoundary (n : Node) (d : Rat) (s : State) : Option (Option Word × Quality) × State :=
  if 1 ≤ n.kind ∧ n.kind ≤ 3 then nodeTref (n.kind ≠ 1 ∨ d < 0) n s else (none, s)

/-- The water injected at a node of demand `d` in a headway; a node that injects none takes an empty part. -/
def nodeInjected (d dt mixed : Rat) (now : Nat) (tref : Option (Option Word × Quality)) (s : State) : Part × State :=
  if d < 0 then injected (qabs d * dt / 3600) mixed now tref s else (⟨0, 0, now, .good, none⟩, s)

/-- R165 steps 1 and 2, R166: collect and mix at a node. `old` holds the mixes of the previous headway (pumps, R164). -/
def nodeMixAt (old : State) (dt : Rat) (n : Node) (m : Move) : Move :=
  let t := theTt m.s
  let now := m.s.pwr.tick % 2 ^ 32
  let pumps := t.elements.filterMap (fun e =>
    let q := moveFlow m.s e
    if e.type = 2 ∧ q ≠ 0 ∧ downNode e q = n.node then
      let x := mixGet old (upNode e q)
      some (⟨qabs q * dt / 3600, val x.temp, x.birth, x.q, some e.element⟩ : Part)
    else none)
  let got := smGet (fun _ => []) m.inbox n.node ++ pumps
  let d := demand m.s n
  let bound := nodeBoundary n d m.s
  let tref := bound.1
  let prev := mixGet m.s n.node
  let arrived := got.filter (fun p => decide (0 < p.vol))
  let mixed := if arrived.isEmpty then val prev.temp else (mixParts now arrived).1
  let inj := nodeInjected d dt mixed now tref bound.2
  let parts := (arrived ++ [inj.1]).filter (fun p => decide (0 < p.vol))
  let base : NodeMix :=
    if parts.isEmpty then { prev with source := false, dominant := none }
    else
      let x := mixParts now parts
      { temp := f32OfRat x.1, birth := x.2.1, q := x.2.2, source := false, dominant := dominantOf parts }
  let over_ : NodeMix :=
    match tref with
    | some (some w, q) => if n.kind = 1 then base else { base with temp := w, birth := now, q := q, source := true }
    | some (none, q) => if n.kind = 1 then base else { base with q := q }
    | none => base
  { m with s := mixSet n.node over_ inj.2 }

/-- R165 step 3: water leaves a node through one element. -/
def elemOut (dt : Rat) (n : Node) (e : Element) (m : Move) : Move :=
  let q := moveFlow m.s e
  let x := mixGet m.s n.node
  let v := qabs q * dt / 3600
  let p : Part := ⟨v, val x.temp, x.birth, x.q, some e.element⟩
  if q = 0 ∨ dt = 0 ∨ upNode e q ≠ n.node ∨ e.type = 2 then m
  else if e.type = 0 then
    let ws := pipeGet m.s e.element
    let inletFirst := if q < 0 then ws.reverse else ws
    let (l, s1) := wagonPush p inletFirst m.s
    let (out, rest) := wagonPop l.reverse v
    let ws' := if q < 0 then rest else rest.reverse
    ({ m with s := pipeSet e.element ws' s1 } : Move).give (downNode e q) (out.map (fun p => { p with elem := some e.element }))
  else m.give (downNode e q) [p]

/-- Nodes in descending head, ties by number (R164). -/
def nodeOrder (s : State) : List Node :=
  let before (a b : Node) : Bool :=
    let ha := headAt s.hyd.heads a.node
    let hb := headAt s.hyd.heads b.node
    decide (hb < ha) || (ha == hb && decide (a.node < b.node))
  let rec ins (n : Node) : List Node → List Node
    | [] => [n]
    | x :: rest => if before n x then n :: x :: rest else x :: ins n rest
  (theTt s).nodes.foldl (fun l n => ins n l) []

/-- R167: every wagon cools for the headway. -/
def coolAll (dt : Rat) (s : State) : State :=
  forL ((theTt s).elements.filter (fun e => e.type == 0)) s (fun e s1 =>
    pipeSet e.element ((pipeGet s1 e.element).map (fun w => { w with temp := f32OfRat (coolTo s e (val w.temp) dt) })) s1)

/-! ### Prediction (R174) -/

/-- The wagon at a volume from the outlet end. -/
def wagonAt : List Wagon → Rat → Option Wagon
  | [], _ => none
  | [w], _ => some w
  | w :: rest, x => if x < val w.vol then some w else wagonAt rest (x - val w.vol)

/-- R174: the trace from a node with `left` seconds to go; `path` holds the pipes passed with their times, latest first.
The answer: temperature and quality of the water found, the path it still has to take, and whether the trace was cut. -/
def trace (s : State) : Nat → Nat → Rat → List (Element × Rat) → (Word × Quality) × List (Element × Rat) × Bool
  | 0, n, _, path => (((mixGet s n).temp, (mixGet s n).q), path, false)
  | fuel + 1, n, left, path =>
    let x := mixGet s n
    let here := ((x.temp, x.q), path, false)
    if x.source then here
    else
      match x.dominant with
      | none => here
      | some ei =>
        let e := nth (theTt s).elements ei {}
        let q := moveFlow s e
        let up := upNode e q
        if e.type ≠ 0 then trace s fuel up left path
        else
          let ws := pipeGet s ei
          let outFirst := if q < 0 then ws else ws.reverse
          let vol := pipeVolume e
          if vol ≤ qabs q * left / 3600 then
            let transit := vol * 3600 / qabs q
            if path.length = 63 then
              match outFirst.getLast? with
              | some w => ((w.temp, w.q), (e, transit) :: path, true)
              | none => (here.1, path, true)
            else trace s fuel up (left - transit) ((e, transit) :: path)
          else
            match wagonAt outFirst (qabs q * left / 3600) with
            | some w => ((w.temp, w.q), (e, left) :: path, false)
            | none => here

/-- R174: predict one node. -/
def predictNode (n : Node) (s : State) : State :=
  let x := mixGet s n.node
  let l := getFld s Reg.FTR_CTL 12 0
  let plain := imgPut 4 (0x6000 + n.node) (mkWord x.temp x.q) s
  if l = 0 ∨ !getBit s Reg.FTR_CTL 16 ∨ n.circuit % 2 = 1 ∨ ¬(1 ≤ n.kind ∧ n.kind ≤ 3) then plain
  else
    let (w, path, cut) := trace s ((theTt s).elements.length + 65) n.node (l : Rat) []
    let temp := path.foldl (fun a p => coolTo s p.1 a p.2) (val w.1)
    let s1 := imgPut 4 (0x6000 + n.node) (mkWord (if path.isEmpty then w.1 else f32OfRat temp) w.2) s
    if cut then cause Reg.FTR_CAUSE 4 s1 else s1

/-! ### The move -/

/-- R168: the effective tolerance at the end of a move. -/
def adjustTol (s : State) : State :=
  let k := (theTt s).tracker
  let n := (wagonsUsed s).length
  let tol := getReg s Reg.FTR_TOL
  if 15 * k.maxWagons < 16 * n then cause Reg.FTR_CAUSE 0 (setReg Reg.FTR_TOL (f32OfRat (2 * val tol)) s)
  else if 4 * n < 3 * k.maxWagons then
    let half := val tol / 2
    setReg Reg.FTR_TOL (if half ≤ val k.mergeTol then k.mergeTol else f32OfRat half) s
  else s

/-- R173: the temperature and delay words of a node. -/
def nodeWords (n : Node) (s : State) : State :=
  let x := mixGet s n.node
  let delay : Rat := if x.source then 0 else (ageOf (s.pwr.tick % 2 ^ 32) x.birth : Rat) / 1024
  imgPut 4 (0x4000 + n.node) (mkWord (f32OfRat delay) x.q) (imgPut 4 (0x2000 + n.node) (mkWord x.temp x.q) s)

/-- R485: a word of the parcel store is lost: the pipe that holds the wagon is seeded again at its next move. -/
def parcelError (a : Nat) (s : State) : State :=
  let ix := (a - 0x1800000) / 16
  match s.ftr.pipes.find? (fun p => p.2.any (fun w => w.ix == ix)) with
  | some p =>
    let due := if s.ftr.reseed.contains p.1 then s.ftr.reseed else s.ftr.reseed ++ [p.1]
    cause Reg.FTR_CAUSE 2 { s with ftr := { s.ftr with reseed := due } }
  | none => s

/-- R484, R485: a move reads the wagons; what it loses is seeded at the next move. -/
def wagonsRead (s : State) : State :=
  forL (wagonsUsed s) s (fun ix => memRead (fun u => parcelError (upsetAddr u)) (0x1800000 + 16 * ix) 16)

/-- R485: the pipes that lost a wagon to a memory error are seeded afresh (R169). -/
def ftrReseed (s : State) : State :=
  if s.ftr.reseed.isEmpty then s
  else
    let s1 := ftrSeed (fun e => s.ftr.reseed.contains e.element) s
    { s1 with ftr := { s1.ftr with reseed := [] } }

/-- R164 to R168, R173, R174: move the wagons with the flows published last. -/
def ftrMove (s : State) : State :=
  let dt : Rat := (((s.pwr.tick + 2 ^ 48 - s.ftr.moveTick) % 2 ^ 48 : Nat) : Rat) / 1024
  let s1 := coolAll dt (ftrReseed s)
  let m := forL (nodeOrder s1) ({ s := s1 } : Move) (fun n m =>
    forL (theTt s).elements (nodeMixAt s dt n m) (fun e m => elemOut dt n e m))
  let s2 := adjustTol m.s
  let s3 := forL (theTt s).nodes s2 nodeWords
  let s4 := forL (theTt s).nodes s3 predictNode
  let n := (wagonsUsed s4).length
  let raised := decide (val (theTt s).tracker.mergeTol < val (getReg s4 Reg.FTR_TOL))
  let s5 := maxFld Reg.FTR_WMAX 18 0 n (setFld Reg.FTR_STAT 25 25 (b2n raised) (setFld Reg.FTR_STAT 18 0 n s4))
  let s6 := wagonsRead (freeDuration Reg.FTR_TIME Reg.FTR_TIMEMAX s5)
  { s6 with ftr := { s6.ftr with busy := false, moveTick := s.pwr.tick } }

/-- R172: the status word of the estimate, with the largest quality in the generation. `fresh_` says that HYD wrote in this
headway; without it the previous headway's estimate stays in force. -/
def nsStatus (fresh_ : Bool) (s : State) : State :=
  let q := qMaxList ((hydWords (theTt s) ++ ftrWords (theTt s)).filterMap (fun i =>
    if 0xC000 ≤ i ∧ ((theTt s).nodes.all (fun n => n.kind != 4 || n.circuit != i - 0xC000)) then none
    else some (wordQ (imgGetWork s 4 i))))
  let y := s.hyd
  let old := imgGetWork s 4 0xC010
  let low : Nat := if fresh_ then y.headway.toNat else (wordVal old).toNat
  let high : Nat := if fresh_ then y.iter % 16 * 16 + 256 * b2n y.converged + 512 * b2n y.cold else old.toNat / 2 ^ 36 % 64 * 16
  setFld Reg.HYD_STAT 9 8 (qCode q) (imgPut 4 0xC010 (BitVec.ofNat 64 (low + qCode q * 2 ^ 32 + high * 2 ^ 32)) s)

/-- R14 step 4: publish the NS region; HYD releases the fabric. -/
def nsPublish (fresh_ : Bool) (s : State) : State :=
  let s1 := imgPublish 4 (nsStatus fresh_ s)
  fabHydRelease { s1 with
    dev := { s1.dev with nsPublished := true }
    hyd := { s1.hyd with busy := false, done := false }
    ftr := { s1.ftr with busy := false } }

/-- R15, R161: at t_est the estimate is not finished: publish what there is, the rest STALE. -/
def nsLate (s : State) : State :=
  let s1 := fabAbandon 1 s
  let hydDone := s.hyd.done
  let s2 := nsStale (if hydDone then ftrWords (theTt s) else hydWords (theTt s) ++ ftrWords (theTt s))
    (if hydDone then s1 else { s1 with hyd := { s1.hyd with suspect := [] } })
  let s3 := setFld Reg.HYD_STAT 7 7 0 (incFld Reg.DEV_LATE 15 0 (cause Reg.DEV_CAUSE 16 s2))
  nsPublish hydDone s3

/-- R169: FTR at the placement of a timetable. -/
def ftrPlace (t : Timetable) (s : State) : State :=
  setReg Reg.FTR_TOL t.tracker.mergeTol { s with ftr := {} }

/-- R169: entry into RUN from READY: every pipe is seeded. -/
def ftrEnterRun (s : State) : State :=
  let s1 := ftrSeed (fun _ => true) { s with ftr := { s.ftr with
    pipes := [], cells := [], birth0 := if s.ftr.seeded then s.ftr.birth0 else s.pwr.tick % 2 ^ 32 } }
  { s1 with ftr := { s1.ftr with seeded := true, moveTick := s.pwr.tick } }

/-- R81, R169: a commit boundary: unchanged segments keep their wagons; a changed one is seeded with one wagon at the
temperature of its last outflow, a new one as at entry into RUN. `old` is the timetable before; the new one is in force. -/
def ftrCommit (old : Timetable) (s : State) : State :=
  let t := theTt s
  let same (e : Element) : Bool := old.elements.contains e
  let keep := s.ftr.pipes.filter (fun p => t.elements.any (fun e => e.element == p.1 && e.type == 0))
  let s0 := { s with ftr := { s.ftr with pipes := keep } }
  let changed := t.elements.filter (fun e => e.type == 0 && !same e)
  let s1 := forL changed s0 (fun e s1 =>
    let outlet := (if f32Neg (nth s.hyd.flows e.element 0) then (pipeGet s e.element).head? else (pipeGet s e.element).getLast?)
    let s2 := ftrSeed (fun x => x == e) s1
    match outlet with
    | some w => pipeSet e.element ((pipeGet s2 e.element).map (fun x => { x with temp := w.temp })) s2
    | none => s2)
  let s2 := if changed.isEmpty then s1 else cause Reg.FTR_CAUSE 2 s1
  if old.tracker = t.tracker then s2 else setReg Reg.FTR_TOL t.tracker.mergeTol s2

end Sys2Proof.Machine
end

