-- ==== Sys2Proof/Machine/Lpe.lean ====
section
/-! DEFINITION. The loop engine (chapter 7): the control laws, quality and fallback, bumpless starts, coefficient writes,
injectors and capture units. The arithmetic is exact; each value stored or written is rounded by `f32OfRat` (log entry 3). -/

namespace Sys2Proof.Machine

/-! ### Records and registers -/

/-- Loop `k`'s state. -/
def loopGet (s : State) (k : Nat) : LoopSt := smGet (fun _ => ({} : LoopSt)) s.lpe.loops k

/-- Set loop `k`'s state. -/
def loopSet (k : Nat) (x : LoopSt) (s : State) : State :=
  { s with lpe := { s.lpe with loops := smPut (fun _ => ({} : LoopSt)) s.lpe.loops k x } }

/-- Loop `k`'s record, when its law is not 0. -/
def loopOf (s : State) (k : Nat) : Option LoopRec := ((theTt s).loopRec k).filter (fun r => r.law != 0)

/-- The coefficients of a loop: those in use are in its registers (R266, R278). -/
structure Coef where
  kp : Word
  ti : Word
  td : Word
  outMin : Word
  outMax : Word
  outRate : Word
  sp : Word
  spRate : Word
  ffGain : Word
  deadband : Word
  hold : Word
  deriving DecidableEq, Repr

/-- The address of a register of loop `k`'s bank. -/
def loopReg (base k : Nat) : Nat := base + 0x40 * k

/-- The coefficients in use. -/
def coefGet (s : State) (k : Nat) : Coef :=
  let g (b : Nat) : Word := getReg s (loopReg b k)
  ⟨g Reg.LPE_L_KP, g Reg.LPE_L_TI, g Reg.LPE_L_TD, g Reg.LPE_L_OMIN, g Reg.LPE_L_OMAX, g Reg.LPE_L_ORATE,
   g Reg.LPE_L_SP, g Reg.LPE_L_SPRATE, g Reg.LPE_L_FFGAIN, g Reg.LPE_L_DBAND, g Reg.LPE_L_HOLD⟩

/-- The coefficients of a record. -/
def coefOf (r : LoopRec) : Coef :=
  ⟨r.kp, r.ti, r.td, r.outMin, r.outMax, r.outRate, r.sp, r.spRate, r.ffGain, r.deadband, r.hold⟩

/-- Load the registers of loop `k` from its record (R278). -/
def coefLoad (r : LoopRec) (s : State) : State :=
  let k := r.loop
  let p (b : Nat) (v : Word) (s : State) : State := setReg (loopReg b k) v s
  let ctl := setField (setField (setField 0#32 15 8 r.law) 31 16 r.period) 0 0 (getFld s (loopReg Reg.LPE_L_CTL k) 0 0)
  p Reg.LPE_L_CTL ctl <| p Reg.LPE_L_KP r.kp <| p Reg.LPE_L_TI r.ti <| p Reg.LPE_L_TD r.td <| p Reg.LPE_L_OMIN r.outMin <|
  p Reg.LPE_L_OMAX r.outMax <| p Reg.LPE_L_ORATE r.outRate <| p Reg.LPE_L_SP r.sp <| p Reg.LPE_L_SPRATE r.spRate <|
  p Reg.LPE_L_FFGAIN r.ffGain <| p Reg.LPE_L_DBAND r.deadband <| p Reg.LPE_L_HOLD r.hold s

/-- Whether a binary32 is greater than zero, or at least zero. -/
def f32Pos (w : Word) : Bool := f32Lt 0#32 w
/-- At least zero. -/
def f32Ge0 (w : Word) : Bool := f32Le 0#32 w

/-- R253, R262: the conditions on law, fallback and coefficients of a record (law other than 0). -/
def coefOk (r : LoopRec) (c : Coef) : Bool :=
  let lawOk := match r.law with
    | 1 => f32IsFin c.kp
    | 2 => f32Pos c.ti
    | 3 => f32Pos c.ti && f32Ge0 c.td
    | 4 => true
    | 5 => true
    | _ => false
  let fbOk := match r.fallback with
    | 0 => true
    | 1 => f32Le c.outMin c.hold && f32Le c.hold c.outMax
    | 2 => bit r.flags 0
    | 3 => true
    | _ => false
  lawOk && fbOk && f32Lt c.outMin c.outMax && f32Ge0 c.outRate && f32Ge0 c.spRate && f32Ge0 c.deadband

/-! ### Inputs -/

/-- An input word of a loop: value and quality, a value that is not finite counting as BAD; none without a reference. -/
def loopIn (s : State) (ref : Nat) : Option (Rat × Quality) :=
  (refGet s ref).map (fun w => if f32IsFin (wordVal w) then (f32RatD (wordVal w), wordQ w) else (0, .bad))

/-- Usable: GOOD, STALE or SUBST. -/
def usableQ (q : Quality) : Bool := q != .bad

/-- R258: rate(clamp(x, out_min, out_max)), with the flags at_max, at_min and rate limited. -/
def loopLimit (c : Coef) (h uPrev x : Rat) : Rat × Bool × Bool × Bool :=
  let lo := f32RatD c.outMin
  let hi := f32RatD c.outMax
  let xc := rclamp lo hi x
  let step := f32RatD c.outRate * h
  let u := if step = 0 then xc else uPrev + rclamp (-step) step (xc - uPrev)
  (u, decide (hi < x), decide (x < lo), decide (u ≠ xc))

/-! ### Injection and capture (R270 to R274) -/

/-- R270: the exponents of the PRBS polynomial of an order, without the constant term. -/
def prbsTaps (n : Nat) : List Nat :=
  match n with
  | 7 => [7, 6]
  | 8 => [8, 6, 5, 4]
  | 9 => [9, 5]
  | 10 => [10, 7]
  | 11 => [11, 9]
  | 12 => [12, 11, 10, 4]
  | 13 => [13, 12, 11, 8]
  | 14 => [14, 13, 12, 2]
  | 15 => [15, 14]
  | _ => []

/-- One step of the PRBS register (stage j holds the bit produced j bits earlier). -/
def prbsStep (n : Nat) (reg : List Bool) : List Bool :=
  let b := (prbsTaps n).foldl (fun acc e => acc != nth reg (e - 1) false) false
  (b :: reg).take n

/-- The injector that runs on loop `k`, if there is one. -/
def injOf (s : State) (k : Nat) : Option Nat :=
  (List.range 4).find? (fun c => (nth s.lpe.inj c {}).running && getFld s (Reg.LPE_INJ_CTL + 0x20 * c) 7 0 == k)

/-- Replace injector `c`, with its status register. -/
def injSet (c : Nat) (x : Injector) (s : State) : State :=
  setFld (Reg.LPE_INJ_STAT + 0x20 * c) 24 24 (b2n x.running) (setFld (Reg.LPE_INJ_STAT + 0x20 * c) 21 0 x.k
    { s with lpe := { s.lpe with inj := setNth s.lpe.inj c x } })

/-- R270: the chirp A sin(2π (f0 t + (f1 − f0) t² ÷ (2 T))). -/
def chirp (amp f0 f1 t len : Rat) : Rat :=
  amp * rclamp (-1) 1 (Config.sinTurns (f0 * t + (f1 - f0) * (t * t) / (2 * len)))

/-- R270: the signal of injector `c` at this sample (0 once LEN samples are over), and the state moved on. -/
def injSample (c : Nat) (h : Rat) (s : State) : Rat × State :=
  let a := 0x20 * c
  let ctl := getReg s (Reg.LPE_INJ_CTL + a)
  let len := (getReg s (Reg.LPE_INJ_LEN + a)).toNat
  let x := nth s.lpe.inj c {}
  if len ≤ x.k then (0, s)
  else
    let amp := f32RatD (getReg s (Reg.LPE_INJ_AMP + a))
    let reg := if field ctl 11 10 = 2 ∧ x.k % max 1 (field ctl 31 24) = 0 then prbsStep (field ctl 19 16) x.prbs else x.prbs
    let v := match field ctl 11 10 with
      | 1 => amp
      | 2 => if nth reg 0 false then amp else -amp
      | _ => chirp amp (f32RatD (getReg s (Reg.LPE_INJ_F0 + a))) (f32RatD (getReg s (Reg.LPE_INJ_F1 + a))) (x.k * h) (len * h)
    (v, injSet c { x with k := x.k + 1, prbs := reg } s)

/-- R272: abort an injection that runs. -/
def injAbort (c : Nat) (s : State) : State :=
  let x := nth s.lpe.inj c {}
  if x.running then cause Reg.LPE_CAUSE 4 (injSet c { x with running := false } s) else s

/-- Abort the injection on a loop. -/
def injAbortLoop (k : Nat) (s : State) : State :=
  match injOf s k with
  | some c => injAbort c s
  | none => s

/-- Replace capture unit `c`, with its status register. -/
def capSet (c : Nat) (x : Capture) (s : State) : State :=
  let w := setField (setField (setField (setField (setField 0#32 14 0 x.pos) 16 16 (b2n x.running))
    17 17 (b2n (x.armed || x.go))) 18 18 (b2n x.wrapped)) 19 19 (b2n x.suspect)
  setReg (Reg.LPE_CAP_STAT + 0x20 * c) w { s with lpe := { s.lpe with cap := setNth s.lpe.cap c x } }

/-- R273: stop capture unit `c`; its data are kept. -/
def capStop (c : Nat) (s : State) : State :=
  let x := nth s.lpe.cap c {}
  if x.running || x.armed || x.go then capSet c { x with running := false, armed := false, go := false } s else s

/-- Host address of the capture buffer of unit `c`. -/
def capBase (c : Nat) : Nat := 0x01C00000 + c * 0x00040000

/-- What the selectors of R276 give at a sample: value and quality by code. -/
abbrev CapSignals := Nat → Word × Quality

/-- R273: record one sample in unit `c`. -/
def capRecord (c : Nat) (sig : CapSignals) (s : State) : State :=
  let a := 0x20 * c
  let sel := getReg s (Reg.LPE_CAP_SIG + a)
  let len := getFld s (Reg.LPE_CAP_LEN + a) 14 0
  let cont := getBit s (Reg.LPE_CAP_CTL + a) 10
  let x := nth s.lpe.cap c {}
  if x.full then s
  else
    let vs := (List.range 4).map (fun k =>
      let code := field sel (8 * k + 3) (8 * k)
      if code = 9 then
        match refGet s (getReg s (Reg.LPE_CAP_REF + a)).toNat with
        | some w => (wordVal w, wordQ w)
        | none => (0#32, Quality.bad)
      else sig code)
    let bytes := vs.flatMap (fun v => wordBytes (if v.2 = .bad ∨ !f32IsFin v.1 then 0x7FC00001#32 else v.1))
    let suspect := x.suspect || vs.any (fun v => v.2 != .good)
    let s1 := memHeal (capBase c + 16 * x.pos) 16
      { s with lpe := { s.lpe with buf := smPutList (fun _ => 0#8) s.lpe.buf (capBase c + 16 * x.pos) bytes } }
    let s2 := if x.pos = 0 then setReg (Reg.LPE_CAP_T0 + a) (BitVec.ofNat 32 s.pwr.tick) s1 else s1
    let wrap := decide (len ≤ x.pos + 1)
    capSet c { x with
      suspect := suspect, pos := if wrap && cont then 0 else x.pos + 1,
      wrapped := x.wrapped || (wrap && cont), full := wrap && !cont } s2

/-- R273, R274: the capture units of loop `k` at one of its samples; `injFirst` marks the first sample of an injection. -/
def capSample (k : Nat) (injFirst : Bool) (sig : CapSignals) (s : State) : State :=
  forN 4 s (fun c s =>
    let a := 0x20 * c
    let x := nth s.lpe.cap c {}
    if getFld s (Reg.LPE_CAP_CTL + a) 7 0 ≠ k then s
    else
      let start := x.go || (x.armed && injFirst && getFld s (Reg.LPE_CAP_CTL + a) 13 12 == 1)
      let x := if start then { x with armed := false, go := false, running := true, pos := 0, skip := 0, wrapped := false,
                                      suspect := false, full := false } else x
      if !x.running then s
      else
        let dec := max 1 (getFld s (Reg.LPE_CAP_CTL + a) 31 16)
        let s1 := capSet c { x with skip := (x.skip + 1) % dec } s
        if x.skip = 0 then capRecord c sig s1 else s1)

/-- R274 trigger 2: the snap strobe. -/
def capSnap (s : State) : State :=
  forN 4 s (fun c s =>
    let x := nth s.lpe.cap c {}
    if x.armed ∧ getFld s (Reg.LPE_CAP_CTL + 0x20 * c) 13 12 = 2 then capSet c { x with armed := false, go := true } s else s)

/-! ### One sample (R255 to R267) -/

/-- What the sample has read. -/
structure LoopInputs where
  pv : Option (Rat × Quality)
  sp : Rat × Quality
  ff : Option (Rat × Quality)
  deriving DecidableEq, Repr

/-- R255, R260: read the inputs of a loop. -/
def loopInputs (s : State) (r : LoopRec) (c : Coef) : LoopInputs :=
  { pv := loopIn s r.pvRef,
    sp := if r.spSource = 0 then (f32RatD c.sp, .good) else (loopIn s r.sp.toNat).getD (0, .bad),
    ff := if bit r.flags 0 then some ((loopIn s r.ffRef).getD (0, .bad)) else none }

/-- Write the output word, the registers and the status of a loop (R263, R278). -/
def loopEmit (r : LoopRec) (x : LoopSt) (u : Word) (q pvq : Quality) (lim : Bool × Bool × Bool) (frozen : Bool)
    (s : State) : State :=
  let k := r.loop
  let s0 := outWrite r.outRef (mkWord u q) s
  let s1 := if outIsLate s r.outRef then countLate s0 else s0
  let st := setField (setField (setField (setField 0#32 1 0 (qCode pvq)) 3 2 (qCode q)) 4 4 (b2n x.fb)) 5 5 (b2n lim.1)
  let st := setField (setField (setField st 6 6 (b2n lim.2.1)) 7 7 (b2n lim.2.2)) 8 8 (b2n frozen)
  setReg (loopReg Reg.LPE_L_STAT k) st (setReg (loopReg Reg.LPE_L_SPEFF k) x.spEff
    (setReg (loopReg Reg.LPE_L_OUT k) u (loopSet k x s1)))

/-- Enter the fallback (R262): counted, with its cause; an injection on the loop is aborted. -/
def loopEnterFb (k : Nat) (s : State) : State :=
  injAbortLoop k (causeS Reg.LPE_CAUSE 0 k (incFld Reg.LPE_CNT 31 16 s))

/-- Signals for capture. -/
def loopSignals (x : LoopSt) (pv : Option (Rat × Quality)) (spq : Quality) (out : Word) (outQ : Quality)
    (e p v : Rat) (fq : Quality) : CapSignals := fun code =>
  let pvq := (pv.map (·.2)).getD .bad
  match code with
  | 0 => (f32OfRat ((pv.map (·.1)).getD 0), pvq)
  | 1 => (x.spEff, spq)
  | 2 => (out, outQ)
  | 3 => (f32OfRat e, qMax pvq spq)
  | 4 => (f32OfRat p, qMax pvq spq)
  | 5 => (x.i, x.iq)
  | 6 => (x.d, pvq)
  | 7 => (x.f, fq)
  | _ => (f32OfRat v, .good)

/-- R262, R263: a sample in fallback. -/
def loopFallback (r : LoopRec) (c : Coef) (h : Rat) (x : LoopSt) (f : Rat) (ffBad : Bool) (pvq : Quality) (s : State) :
    State :=
  let up := f32RatD x.uPrev
  match r.fallback with
  | 3 =>
    if x.released then
      -- R278: the bank shows this sample; no output is written
      let a := loopReg Reg.LPE_L_STAT r.loop
      setReg (loopReg Reg.LPE_L_SPEFF r.loop) x.spEff (setFld a 8 8 1 (setFld a 1 0 (qCode pvq) (loopSet r.loop x s)))
    else
      -- R264: a start after this takes up from the last output written
      let last := getReg s (loopReg Reg.LPE_L_OUT r.loop)
      loopEmit r { x with released := true, uPrev := last } last .bad pvq (false, false, false) true s
  | 1 =>
    let l := loopLimit c h up (f32RatD c.hold)
    let u := f32OfRat l.1
    loopEmit r { x with uPrev := u } u .subst pvq l.2 true s
  | 2 =>
    if ffBad then loopEmit r x x.uPrev .subst pvq (false, false, false) true s
    else
      let l := loopLimit c h up (f32RatD x.i + f)
      let u := f32OfRat l.1
      loopEmit r { x with uPrev := u } u .subst pvq l.2 true s
  | _ => loopEmit r x x.uPrev .subst pvq (false, false, false) true s

/-- R260, R261, R264: the effective setpoint; a BAD one holds it. -/
def loopSp (c : Coef) (h : Rat) (x : LoopSt) (sp : Rat × Quality) (pv : Option (Rat × Quality)) : LoopSt :=
  if sp.2 = .bad then x
  else
    let usable := (pv.map (fun p => usableQ p.2)).getD false
    let cur := f32RatD x.spEff
    let step := f32RatD c.spRate * h
    let v :=
      if x.start then (if step ≠ 0 ∧ usable then (pv.map (·.1)).getD 0 else sp.1)
      else if step = 0 then sp.1
      else cur + rclamp (-step) step (sp.1 - cur)
    { x with spEff := f32OfRat v, spKnown := true }

/-- R265: a sample in manual mode. -/
def loopManual (r : LoopRec) (c : Coef) (h sg : Rat) (x : LoopSt) (inp : LoopInputs) (f : Rat) (s : State) : State :=
  let k := r.loop
  let pvq := (inp.pv.map (·.2)).getD .bad
  let s0 := if x.manual then s else injAbortLoop k (setReg (loopReg Reg.LPE_L_MAN k) x.uPrev s)
  let start := x.start
  let i0 := x.i
  let x := { loopSp c h x inp.sp inp.pv with
    manual := true, fb := false, released := false, f := f32OfRat f, start := false, d := if start then 0#32 else x.d }
  let man := getReg s0 (loopReg Reg.LPE_L_MAN k)
  let fr := fresh s0
  let (m, s1) := if f32IsFin man then (f32RatD man, s0) else (f32RatD (Config.freeWord fr.1), fr.2)
  let l := loopLimit c h (f32RatD x.uPrev) m
  let u := f32OfRat l.1
  let x := match inp.pv with
    | some (pv, q) =>
      if usableQ q then
        let e0 := sg * (f32RatD x.spEff - pv)
        let e := if rabs e0 < f32RatD c.deadband then 0 else e0
        { x with i := f32OfRat (l.1 - f32RatD c.kp * e - f32RatD x.d - f), pvPrev := f32OfRat pv
                 iq := qMax q (if inp.sp.2 = Quality.bad then Quality.subst else inp.sp.2) }
      else x
    | none => x
  loopEmit r { x with uPrev := u } u .good pvq l.2 (x.i == i0) s1

/-- R257, R259: the error of a loop: with the deadband step, and without it under the on-off law. -/
def loopError (r : LoopRec) (c : Coef) (e0 : Rat) : Rat :=
  if r.law ≠ 4 ∧ rabs e0 < f32RatD c.deadband then 0 else e0

/-- R257 to R259: the law of a loop: the new state, the output before injection, its limit flags, and whether the
integrator stood still. `e0` is the error before the deadband step. -/
def loopLaw (r : LoopRec) (c : Coef) (h sg : Rat) (x : LoopSt) (pv : Rat) (pvGood : Bool) (e0 f : Rat) :
    LoopSt × Rat × (Bool × Bool × Bool) × Bool :=
  let up := f32RatD x.uPrev
  if r.law = 4 then
    let db := f32RatD c.deadband
    if -(db / 2) ≤ e0 ∧ e0 ≤ db / 2 then (x, up, (false, false, false), true)
    else
      let l := loopLimit c h up (if db / 2 < e0 then f32RatD c.outMax else f32RatD c.outMin)
      (x, l.1, l.2, true)
  else if r.law = 5 then
    let l := loopLimit c h up (f32RatD x.spEff + f)
    (x, l.1, l.2, true)
  else
    let e := if rabs e0 < f32RatD c.deadband then 0 else e0
    let kp := f32RatD c.kp
    let p := kp * e
    let di := if 2 ≤ r.law ∧ pvGood then kp * h / f32RatD c.ti * e else 0
    let td := f32RatD c.td
    let d :=
      if r.law = 3 ∧ 0 < td then
        let a := (td / 8) / (td / 8 + h)
        a * f32RatD x.d - (1 - a) * sg * kp * td * (pv - f32RatD x.pvPrev) / h
      else 0
    let i := f32RatD x.i
    let uRaw := p + i + di + d + f
    let l1 := loopLimit c h up uRaw
    let stop := (decide (l1.1 < uRaw) && decide (0 < di)) || (decide (uRaw < l1.1) && decide (di < 0))
    let l := if stop then loopLimit c h up (p + i + d + f) else l1
    let di := if stop then 0 else di
    ({ x with i := f32OfRat (i + di), d := f32OfRat d }, l.1, l.2, decide (di = 0))

/-- The rest of a sample in automatic mode with usable inputs: start, law, injection, output, capture. -/
def loopAuto (r : LoopRec) (c : Coef) (h sg : Rat) (x : LoopSt) (inp : LoopInputs) (f fOld : Rat) (fq : Quality)
    (s : State) : State :=
  let k := r.loop
  let x := loopSp c h x inp.sp inp.pv
  let spq : Quality := if inp.sp.2 = .bad then .subst else inp.sp.2
  let (pv, pvq) := inp.pv.getD (0, .good)
  let pvUsed : Quality := if r.law = 5 then .good else pvq
  let allGood := spq == .good && pvUsed == .good && fq == .good
  let q : Quality := if allGood then .good else .subst
  let ij := injOf s k
  let first := match ij with
    | some c => (nth s.lpe.inj c {}).k == 0
    | none => false
  let (v, s) := match ij with
    | some c => injSample c h s
    | none => (0, s)
  let atOut := match ij with
    | some c => getBit s (Reg.LPE_INJ_CTL + 0x20 * c) 8
    | none => false
  let e0 := sg * (f32RatD x.spEff + (if atOut then 0 else v) - pv)
  let e := loopError r c e0
  let p := f32RatD c.kp * e
  let stPvq := (inp.pv.map (·.2)).getD .bad
  let gained := { x with kpPrev := c.kp, ffPrev := c.ffGain, gainKnown := true, f := f32OfRat f, fb := false,
                         released := false, pvPrev := f32OfRat pv }
  let (x1, u, lim, still) :=
    if x.start then
      ({ gained with start := false, d := 0#32, i := f32OfRat (f32RatD x.uPrev - p - f) },
       f32RatD x.uPrev, (false, false, false), f32OfRat (f32RatD x.uPrev - p - f) == x.i)
    else
      let adj := x.gainKnown && (x.kpPrev != c.kp || x.ffPrev != c.ffGain) && decide (r.law ≤ 3)
      let i := if adj then f32RatD x.i + (f32RatD x.kpPrev * e + fOld) - (p + f) else f32RatD x.i
      let z := loopLaw r c h sg { x with i := if adj then f32OfRat i else x.i } pv (pvq == .good) e0 f
      ({ z.1 with kpPrev := c.kp, ffPrev := c.ffGain, gainKnown := true, f := f32OfRat f, fb := false, released := false,
                  pvPrev := f32OfRat pv }, z.2.1, z.2.2.1, z.2.2.2)
  let uw := if x.start then x.uPrev else f32OfRat u
  let lo := f32RatD c.outMin
  let hi := f32RatD c.outMax
  let out := if atOut then f32OfRat (rclamp lo hi (u + v)) else uw
  -- R271, R278: with an injection at the output, its clamp says at which limit the output stands
  let lim := if atOut then (decide (hi < u + v) || (lim.1 && decide (hi ≤ u + v)),
      decide (u + v < lo) || (lim.2.1 && decide (u + v ≤ lo)), lim.2.2) else lim
  let x2 := { x1 with uPrev := uw, iq := qMax (qMax pvUsed spq) (if x.start then fq else .good) }
  let s1 := loopEmit r x2 out q stPvq lim still s
  capSample k first (loopSignals x2 inp.pv spq out q e p v fq) s1

/-- A start (R264): the next sample starts bumplessly, with nothing known of setpoint and feedforward. -/
def LoopSt.toStart (x : LoopSt) : LoopSt := { x with start := true, spKnown := false, fKnown := false }

/-- One sample of a loop (R255 to R267). -/
def loopSample (r : LoopRec) (s : State) : State :=
  let k := r.loop
  let c := coefGet s k
  let h : Rat := (r.period : Rat) / 1024
  let sg : Rat := if bit r.flags 1 then -1 else 1
  let inp := loopInputs s r c
  let x := loopGet s k
  let manual := getBit s (loopReg Reg.LPE_L_CTL k) 0
  let x := if !manual && x.manual then ({ x with manual := false } : LoopSt).toStart else x
  let x := if x.reinit then ({ x with reinit := false } : LoopSt).toStart else x
  let pvq := (inp.pv.map (·.2)).getD .bad
  let ffBad := match inp.ff with
    | some p => p.2 == .bad
    | none => false
  let trigger := if r.law = 5 then inp.sp.2 == .bad else pvq == .bad || (inp.sp.2 == .bad && !x.spKnown)
  -- the first sample after fallback is a start
  let x := if !manual && x.fb && !trigger then x.toStart else x
  let trigger := if r.law = 5 then trigger else trigger || (!manual && inp.sp.2 == .bad && !x.spKnown)
  let f := match inp.ff with
    | some p => if p.2 = .bad then (if x.fKnown then f32RatD x.f else 0) else f32RatD c.ffGain * p.1
    | none => 0
  let fOld := match inp.ff with
    | some p => if p.2 = .bad then f else f32RatD x.ffPrev * p.1
    | none => 0
  -- R263: an on-off loop does not use its feedforward (R259)
  let fq : Quality := match inp.ff with
    | some p => if r.law = 4 then .good else if p.2 = .bad then .subst else p.2
    | none => .good
  let x := { x with fKnown := x.fKnown || (inp.ff.isSome && !ffBad) }
  if manual then
    let s1 := loopManual r c h sg x inp f s
    let y := loopGet s1 k
    let o := getReg s1 (loopReg Reg.LPE_L_OUT k)
    let e0 := sg * (f32RatD y.spEff - (inp.pv.map (·.1)).getD 0)
    let e := loopError r c e0
    let spq : Quality := if inp.sp.2 = .bad then .subst else inp.sp.2
    capSample k false (loopSignals y inp.pv spq o .good e (f32RatD c.kp * e) 0 fq) s1
  else if trigger then
    let s0 := if x.fb then s else loopEnterFb k s
    let x := loopSp c h x inp.sp inp.pv
    let s1 := loopFallback r c h { x with fb := true, f := f32OfRat f, released := x.fb && x.released } f ffBad pvq s0
    let y := loopGet s1 k
    let o := getReg s1 (loopReg Reg.LPE_L_OUT k)
    let oq : Quality := if r.fallback = 3 then .bad else .subst
    capSample k false (loopSignals y inp.pv inp.sp.2 o oq 0 0 0 fq) s1
  else loopAuto r c h sg x inp f fOld fq s

/-- Loops have samples to take: RUN, or STANDBY in lock-step (R23, R503), with no power-fail save running (R418). -/
def lpeWorks (s : State) : Bool :=
  computes s && !s.pwr.saving && !s.pwr.saved

/-- Loops are sampled: there are samples to take, and the domain LPE is ON (R405). -/
def lpeRuns (s : State) : Bool := lpeWorks s && domOn s 6

/-- R254: loop `k` is due at this tick. -/
def loopDue (s : State) (r : LoopRec) : Bool :=
  sinceOrigin s % max 1 r.period == 0

/-- R254: the lowest-numbered loop that is due at this tick and has not sampled in it yet. -/
def loopNext (s : State) : Option Nat :=
  let from_ := if s.lpe.tick = s.pwr.tick then s.lpe.next else 0
  (List.range 256).find? (fun k => decide (from_ ≤ k) &&
    (match loopOf s k with
     | some r => loopDue s r
     | none => false))

/-- R256, R275: the time of a tick's loop work, at most 256 µs, is open; the longest one is shown. -/
def loopTime (s : State) : State :=
  maxFld Reg.LPE_TIME 15 0 ((Config.freeWord (fresh s).1).toNat % 51201) (fresh s).2

/-- LOOP_SAMPLE (R257): the lowest-numbered loop that is due at this tick and has not sampled in it yet. A commit boundary that
falls on this tick comes first (R254, R269). -/
def execLoopSample (s : State) : Result :=
  if !lpeRuns s ∨ commitDue s then .next s
  else
    match loopNext s with
    | none => .next s
    | some k =>
      match loopOf s k with
      | none => .next s
      | some r => .next (loopTime (loopSample r { s with lpe := { s.lpe with tick := s.pwr.tick, next := k + 1 } }))

/-! ### Placement and changes of state -/

/-- Load every loop of a timetable (R278). -/
def lpePlace (t : Timetable) (s : State) : State :=
  forL (t.loops.filter (fun r => r.law != 0)) { s with lpe := { s.lpe with loops := [] } } coefLoad

/-- R264: entry into RUN from READY: every loop starts from its hold field. -/
def lpeEnterRun (s : State) : State :=
  forL ((theTt s).loops.filter (fun r => r.law != 0)) { s with lpe := { s.lpe with tick := 0, next := 0 } } (fun r s =>
    loopSet r.loop { uPrev := (coefGet s r.loop).hold } s)

/-- R272, R274: leaving RUN aborts injections and stops captures. -/
def lpeLeaveRun (s : State) : State := forN 4 s (fun c s => capStop c (injAbort c s))

/-- R272, R274: a commit boundary changes loop `k`: its injection is aborted and its captures stop. -/
def loopChange (k : Nat) (s : State) : State :=
  forN 4 (injAbortLoop k s) (fun c s => if getFld s (Reg.LPE_CAP_CTL + 0x20 * c) 7 0 = k then capStop c s else s)

/-- R278: the bank of a loop that is off goes back to its reset values. -/
def loopClear (k : Nat) (s : State) : State :=
  loopSet k {} (setReg (loopReg Reg.LPE_L_STAT k) 0xF#32 (forN 16 s (fun i s => setReg (loopReg Reg.LPE_L_CTL k + 4 * i) 0 s)))

/-- R264, R266, R272, R274: a commit boundary brings changed loop records into force, and takes away others. -/
def lpeCommit (old new : Timetable) (s : State) : State :=
  forN 256 s (fun k s =>
    if old.loopRec k = new.loopRec k then s
    else
      let s1 := loopChange k s
      match (new.loopRec k).filter (fun r => r.law != 0) with
      | none => loopClear k s1
      | some r =>
        let u := getReg s (loopReg Reg.LPE_L_OUT k)
        coefLoad r (loopSet k (({ loopGet s k with uPrev := u, fb := false, released := false } : LoopSt).toStart) s1))

/-! ### Host writes (R265 to R269, R272, R276, R277) -/

/-- INJECTION_END (R272): injector `c` has made its LEN samples. -/
def execInjectionEnd (c : Nat) (s : State) : Result :=
  let x := nth s.lpe.inj c {}
  if domOn s 6 ∧ x.running ∧ (getReg s (Reg.LPE_INJ_LEN + 0x20 * c)).toNat ≤ x.k then
    .next (cause Reg.LPE_CAUSE 3 (injSet c { x with running := false } s))
  else .next s

/-- CAPTURE_DONE (R273): single capture `c` has taken its LEN samples. -/
def execCaptureDone (c : Nat) (s : State) : Result :=
  let x := nth s.lpe.cap c {}
  if domOn s 6 ∧ x.running ∧ x.full then .next (cause Reg.LPE_CAUSE 5 (capSet c { x with running := false } s)) else .next s

/-- The loop of a bank address, and the offset in the bank. -/
def lpeBank (addr : Nat) : Option (Nat × Nat) :=
  if 0x91000 ≤ addr ∧ addr < 0x91000 + 0x40 * 256 then some ((addr - 0x91000) / 0x40, (addr - 0x91000) % 0x40) else none

/-- A coefficient set with the register at a bank offset replaced. -/
def coefPut (c : Coef) (off : Nat) (v : Word) : Coef :=
  match off with
  | 0x08 => { c with kp := v }
  | 0x0C => { c with ti := v }
  | 0x10 => { c with td := v }
  | 0x14 => { c with outMin := v }
  | 0x18 => { c with outMax := v }
  | 0x1C => { c with outRate := v }
  | 0x20 => { c with sp := v }
  | 0x24 => { c with spRate := v }
  | 0x28 => { c with ffGain := v }
  | 0x2C => { c with deadband := v }
  | 0x30 => { c with hold := v }
  | _ => c

/-- R268, R278: a write in the bank of loop `k` is refused: the loop is off; a coefficient that is not finite or that
breaks R253 or R262 together with the values in force `c`; a setpoint while sp_source is not 0. -/
def loopRefuses (t : Timetable) (c : Coef) (k off : Nat) (v : Word) : Bool :=
  match (t.loopRec k).filter (fun r => r.law != 0) with
  | none => true
  | some r =>
    if 0x08 ≤ off ∧ off ≤ 0x30 then
      !f32IsFin v || (off == 0x20 && r.spSource != 0) || !coefOk r (coefPut c off v)
    else false

/-- The range of an injector's register (R270, R272): kind, order, hold, frequencies, samples. -/
def injRangeOk (h : Rat) (ctl f0 f1 : Word) (len : Nat) : Bool :=
  let kind := field ctl 11 10
  let order := field ctl 19 16
  let fOk (w : Word) : Bool := f32IsFin w && decide (0 ≤ f32RatD w) && decide (f32RatD w * 2 * h ≤ 1)
  decide (1 ≤ kind) && decide (7 ≤ order) && decide (1 ≤ field ctl 31 24) &&
    decide (1 ≤ len) && decide (len ≤ 4194304) && (kind != 3 || (fOk f0 && fOk f1))

/-- R272: a start of injector `c` with the control word `data` is refused. -/
def injRefuses (c : Nat) (data : Word) (s : State) : Bool :=
  let a := 0x20 * c
  let k := field data 7 0
  match loopOf s k with
  | none => true
  | some r =>
    s.dev.mode != .run || getBit s (loopReg Reg.LPE_L_CTL k) 0 || (loopGet s k).manual || (loopGet s k).fb ||
      (injOf s k).isSome || (nth s.lpe.inj c {}).running || !f32IsFin (getReg s (Reg.LPE_INJ_AMP + a)) ||
      !injRangeOk ((r.period : Rat) / 1024) data (getReg s (Reg.LPE_INJ_F0 + a)) (getReg s (Reg.LPE_INJ_F1 + a))
        (getReg s (Reg.LPE_INJ_LEN + a)).toNat

/-- Start injector `c` (R271): it begins at the loop's next sample. -/
def injStart (c : Nat) (s : State) : State :=
  let n := getFld s (Reg.LPE_INJ_CTL + 0x20 * c) 19 16
  injSet c { running := true, k := 0, prbs := List.replicate n true } s

/-- Start or arm capture unit `c` (R274). -/
def capStart (c : Nat) (s : State) : State :=
  if getFld s (Reg.LPE_CAP_CTL + 0x20 * c) 13 12 = 0 then capSet c { go := true } s else capSet c { armed := true } s

/-- Capture unit `c` is running or armed (R276). -/
def capBusy (s : State) (c : Nat) : Bool :=
  let x := nth s.lpe.cap c {}
  x.running || x.armed || x.go

/-! ### Register views (R275) -/

/-- LPE_FBk. -/
def lpeFb (s : State) (k : Nat) : Word :=
  forN 32 0#32 (fun b w => if (loopGet s (32 * k + b)).fb then w ||| bitMask b else w)

/-- LPE_STAT. -/
def lpeStat (s : State) : Word :=
  let n := ((theTt s).loops.filter (fun r => r.law != 0)).length
  let fb := (s.lpe.loops.filter (fun p => p.2.fb)).length
  setField (setField (setField 0#32 8 0 n) 16 16 (b2n (lpeRuns s))) 24 17 (min 255 fb)

end Sys2Proof.Machine
end

