-- ==== Sys2Proof/Machine/Opt.lean ====
section
/-! DEFINITION. The optimiser sequencer (chapter 5): the problem map, sources and forecast series, structure key and route,
data lists, warm and cold starts, the interior-point sequence on the fabric with its stopping rules, light accounting, and
the trajectories in the TJ region. What the spec does not give of the interior-point arithmetic is open (log entry 18). -/

namespace Sys2Proof.Machine

/-! ### The problem map (R190 to R194) -/

/-- R191. -/
structure RouteDesc where
  route : Nat := 0
  res : Nat := 0
  runCount : Nat := 0
  key : Nat := 0
  mask : Nat := 0
  n : Nat := 0
  m : Nat := 0
  runFirst : Nat := 0
  sourceFirst : Nat := 0
  sourceCount : Nat := 0
  deriving DecidableEq, Repr, Inhabited

/-- R192. -/
structure SwitchRec where
  switch : Nat := 0
  kind : Nat := 0
  bit : Nat := 0
  width : Nat := 0
  ref : Nat := 0
  threshold : Word := 0
  lagMin : Nat := 0
  lagMax : Nat := 0
  deriving DecidableEq, Repr, Inhabited

/-- R193. -/
structure TagRun where
  tag : Nat := 0
  index : Nat := 0
  count : Nat := 0
  deriving DecidableEq, Repr, Inhabited

/-- R194. -/
structure SourceRec where
  arr : Nat := 0
  kind : Nat := 0
  count : Nat := 0
  first : Nat := 0
  ref : Nat := 0
  scale : Word := 0
  offset : Word := 0
  dflt : Word := 0
  stepFirst : Nat := 0
  stride : Nat := 0
  flags : Nat := 0
  deriving DecidableEq, Repr, Inhabited

/-- R190: step length in seconds. -/
def Timetable.stepSec (t : Timetable) : Nat := 60 * u16 t.probMap 2

/-- R191. -/
def Timetable.routeDescs (t : Timetable) : List RouteDesc :=
  let b := t.probMap
  readTable b (u32 b 0x14) 32 (u16 b 4) (fun e =>
    ⟨u8 e 0, u8 e 1, u16 e 2, u32 e 4, u32 e 8, u32 e 0xC, u32 e 0x10, u32 e 0x14, u32 e 0x18, u32 e 0x1C⟩)

/-- R192. -/
def Timetable.switchRecs (t : Timetable) : List SwitchRec :=
  let b := t.probMap
  readTable b (u32 b 0x18) 16 (u16 b 6) (fun e => ⟨u8 e 0, u8 e 1, u8 e 2, u8 e 3, u32 e 4, w32 e 8, u8 e 0xC, u8 e 0xD⟩)

/-- R193: the tag runs of a route. -/
def Timetable.tagRuns (t : Timetable) (d : RouteDesc) : List TagRun :=
  let b := t.probMap
  readTable b (u32 b 0x1C + 12 * d.runFirst) 12 d.runCount (fun e => ⟨u32 e 0, u32 e 4, u16 e 8⟩)

/-- R194: the source records of a route, with their numbers in the map. -/
def Timetable.sources (t : Timetable) (d : RouteDesc) : List (Nat × SourceRec) :=
  let b := t.probMap
  let rs := readTable b (u32 b 0x20 + 32 * d.sourceFirst) 32 d.sourceCount (fun e =>
    (⟨u8 e 0, u8 e 1, u16 e 2, bits (u32 e 4) 27 0, u32 e 8, w32 e 0xC, w32 e 0x10, w32 e 0x14, u16 e 0x18, u8 e 0x1A,
      u8 e 0x1B⟩ : SourceRec))
  (List.range rs.length).map (fun i => (d.sourceFirst + i, nth rs i {}))

/-- A tag without its step field (R188). -/
def tagObj (tag : Nat) : Nat := tag / 256

/-- R193: every tag of a route with relative step: object part, step, whether a constraint, index. -/
def Timetable.tags (t : Timetable) (d : RouteDesc) : List (Nat × Nat × Bool × Nat) :=
  (t.tagRuns d).flatMap (fun r => (List.range r.count).map (fun j =>
    (tagObj r.tag, r.tag % 256 + j, bit r.index 31, bits r.index 27 0 + j)))

/-! ### Time and series (R186, R196) -/

/-- R186: the absolute step of the present instant. -/
def absStep (s : State) : Nat := s.mgt.cal.seconds / max 1 (theTt s).stepSec

/-- R194: the duration of step k in hours, for a solve whose step 0 begins at `start` (1/65,536 s). -/
def stepHours (len start k : Nat) : Rat :=
  if k = 0 then ((len * 65536 - start % (len * 65536) : Nat) : Rat) / 65536 / 3600 else (len : Rat) / 3600

/-- R196: the series as they stand: first step, quality, valid entries. -/
def seriesCopy (s : State) : List (Nat × Quality × List Word) :=
  (List.range 32).map (fun k =>
    let ctl := getReg s (Reg.OPT_FC_CTL + 8 * k)
    ((getReg s (Reg.OPT_FC_STEP + 8 * k)).toNat, qualityOf (field ctl 17 16),
     (List.range (min 256 (field ctl 8 0))).map (fun j => getReg s (Reg.OPT_FC_DATA + 0x400 * k + 4 * j))))

/-- R196: the entry of a series for an absolute step. -/
def seriesAt (x : Nat × Quality × List Word) (step : Nat) : Word × Quality :=
  let n := x.2.2.length
  if n = 0 then (0, .bad)
  else if step < x.1 then (nth x.2.2 0 0, .stale)
  else if x.1 + n ≤ step then (nth x.2.2 (n - 1) 0, .stale)
  else (nth x.2.2 (step - x.1) 0, x.2.1)

/-! ### Light (R213) -/

/-- R213: the local time of an instant of calendar time, both in units of which a second has `u`. -/
def localOf (s : State) (u x : Nat) : Nat :=
  ((x : Int) + 60 * u * (BitVec.ofNat 16 (getFld s Reg.OPT_LOCAL 15 0)).toInt).toNat

/-- Local seconds. -/
def localSec (s : State) : Nat := localOf s 1 s.mgt.cal.seconds

/-- The recipe of a zone. -/
def Timetable.recipeOf (t : Timetable) (z : Zone) : Recipe := (t.recipes.find? (fun r => r.recipe == z.recipe)).getD {}

/-- The achieved integral of a zone and the local day it belongs to. -/
def lightGet (s : State) (z : Nat) : Rat × Nat := ((s.opt.light.find? (fun e => e.1 == z)).map (fun e => e.2)).getD (0, 0)

/-- The quality of that integral. -/
def lightQGet (s : State) (z : Nat) : Quality := ((s.opt.lightQ.find? (fun e => e.1 == z)).map (fun e => e.2)).getD .good

/-- The forecast series in the form the open forecast rule takes. -/
def seriesRaw (xs : List (Nat × Quality × List Word)) : List (Nat × Nat × List Word) := xs.map (fun x => (x.1, qCode x.2.1, x.2.2))

/-- R213: a headway start: the light of the headway is added inside the window, and the sum begins again at start_min. -/
def lightHeadway (s : State) : State :=
  let t := theTt s
  let now := localSec s
  let day := now / 86400
  let sec := now % 86400
  let hw : Rat := (t.plan.headway : Rat) / 1024
  if !s.mgt.cal.valid then s
  else forL t.zones s (fun z s =>
    let r := t.recipeOf z
    let a := lightGet s z.zone
    if 60 * r.startMin ≤ sec ∧ sec < 60 * r.endMin then
      let a0 := if a.2 = day + 1 then a.1 else 0
      let par := match refGet s z.parRef with
        | some w => if wordQ w = .bad then none else some (val (wordVal w))
        | none => none
      let lamp : Rat :=
        let y := match refGet s z.dimRef with
          | some w => val (wordVal w)
          | none => 0
        let mx := (r.fraction.map val).foldl max 0
        let f0 := val (nth r.fraction 0 0)
        (if f0 = 0 then 0 else y * mx / f0) * val r.maxPpfd
      let add : Rat := match par with
        | some p => p * hw / 1000000
        | none => Config.natural z.zone (seriesRaw (seriesCopy s)) now (now + t.plan.headway / 1024) + lamp * hw / 1000000
      let s1 := if par.isNone then cause Reg.OPT_CAUSE 8 s else s
      let q := if par.isSome then ((refGet s z.parRef).map wordQ).getD .subst else .subst
      let q0 := if a.2 = day + 1 then lightQGet s z.zone else .good
      { s1 with opt := { s1.opt with
        light := (z.zone, a0 + add, day + 1) :: s1.opt.light.filter (fun e => e.1 != z.zone)
        lightQ := (z.zone, qMax q0 q) :: s1.opt.lightQ.filter (fun e => e.1 != z.zone) } }
    else s)

/-- R213: the remaining light need of a zone for the local day of step `step`. -/
def lightNeed (s : State) (zone step : Nat) : Rat :=
  let t := theTt s
  let z := (t.zones.find? (fun z => z.zone == zone)).getD {}
  let r := t.recipeOf z
  let now := localSec s
  let day := localOf s 1 (step * t.stepSec) / 86400
  let ws := day * 86400 + 60 * r.startMin
  let we := day * 86400 + 60 * r.endMin
  let nat_ := fun a b => Config.natural zone (seriesRaw s.opt.series) a b
  if day ≤ now / 86400 then
    let a := lightGet s zone
    let done := if a.2 = now / 86400 + 1 then a.1 else 0
    val r.dli - done - nat_ (max now ws) we
  else
    let horizon := localOf s 1 ((s.opt.step0 + t.mapSteps) * t.stepSec)
    let inside : Nat := min we horizon - ws
    (val r.dli - nat_ ws we) * (inside : Rat) / ((we - ws : Nat) : Rat)

/-- R9, R219: the quality of a remaining light need: the largest code among the integral's inputs, for a day that has begun,
and the forecast's. A BAD one has been replaced and counts as SUBST. -/
def lightQuality (s : State) (zone step : Nat) : Quality :=
  let t := theTt s
  let z := (t.zones.find? (fun z => z.zone == zone)).getD {}
  let r := t.recipeOf z
  let now := localSec s
  let day := localOf s 1 (step * t.stepSec) / 86400
  let begun := decide (day ≤ now / 86400)
  let ws := day * 86400 + 60 * r.startMin
  let nat_ := Config.naturalCode zone (seriesRaw s.opt.series) (if begun then max now ws else ws) (day * 86400 + 60 * r.endMin)
  let done := if begun ∧ (lightGet s zone).2 = now / 86400 + 1 then lightQGet s zone else .good
  let q := qMax done (qualityOf nat_)
  if q = .bad then .subst else q

/-- R213: the calendar instant of a local time in seconds. -/
def calendarOf (s : State) (x : Nat) : Nat :=
  ((x : Int) - 60 * (BitVec.ofNat 16 (getFld s Reg.OPT_LOCAL 15 0)).toInt).toNat

/-- R188, R193, R213: the absolute step of a tag of the solve. A class 42 row has the step of the end of its zone's window, on
the local day of its step. -/
def tagStep (s : State) (e : Nat × Nat × Bool × Nat) : Nat :=
  let t := theTt s
  let step := s.opt.step0 + e.2.1
  match if e.1 / 2 ^ 18 = 42 ∧ e.2.2.1 then t.zones.find? (fun z => z.zone == e.1 % 2 ^ 14) else none with
  | some z =>
    let day := localOf s 1 (step * t.stepSec) / 86400
    (calendarOf s (day * 86400 + 60 * (t.recipeOf z).endMin) - 1) / max 1 t.stepSec
  | none => step

/-- R213: the part of [a, b) that lies inside a recipe's window of the local day `d`, in 1/65,536 s of local time. -/
def windowPart (r : Recipe) (a b d : Nat) : Nat :=
  min b (65536 * (86400 * d + 60 * r.endMin)) - max a (65536 * (86400 * d + 60 * r.startMin))

/-- R213: the share of step k of a solve that lies inside a recipe's window. Step 0 runs from the period start (R186). -/
def windowShare (s : State) (r : Recipe) (k : Nat) : Rat :=
  let len := 65536 * (theTt s).stepSec
  let a := localOf s 65536 (if k = 0 then s.opt.start else (s.opt.step0 + k) * len)
  let b := localOf s 65536 ((s.opt.step0 + k + 1) * len)
  let d := a / 65536 / 86400
  ((windowPart r a b d + windowPart r a b (d + 1) : Nat) : Rat) / ((b - a : Nat) : Rat)

/-! ### Switches and routes (R201 to R203) -/

/-- The value of a switch: service 0 or 1, lag in steps. -/
def switchGet (s : State) (k : Nat) : Option Nat := (s.opt.switches.find? (fun e => e.1 == k)).map (fun e => e.2)

/-- R202: the next lag of a switch. -/
def lagNext (hyst : Nat) (r : SwitchRec) (l : Nat) (ratio : Rat) : Nat :=
  let h : Rat := 1 / 2 + (hyst : Rat) / 100
  let l' := if ratio < (l : Rat) - h then l - 1 else if (l : Rat) + h < ratio then l + 1 else l
  max r.lagMin (min r.lagMax l')

/-- Set a switch. -/
def switchSet (k v : Nat) (s : State) : State :=
  { s with opt := { s.opt with switches := (k, v) :: s.opt.switches.filter (fun e => e.1 != k) } }

/-- R202: the group delay of a lag switch in steps. -/
def lagRatio (s : State) (w : DWord) : Rat := val (wordVal w) / ((theTt s).stepSec : Rat)

/-- R202: the nearest lag, clamped. -/
def lagNearest (r : SwitchRec) (ratio : Rat) : Nat := max r.lagMin (min r.lagMax (ratio + 1 / 2).floor.toNat)

/-- R197, R200: a counter without a register of its own; it saturates like the others. -/
def countUp (n : Nat) : Nat := min 0xFFFF (n + 1)

/-- R197: an input is replaced. -/
def substCount (s : State) : State :=
  cause Reg.OPT_CAUSE 8 { s with opt := { s.opt with replaced := countUp s.opt.replaced } }

/-- R202: at entry into RUN every lag is the nearest one. A BAD delay leaves the lag as it was (R197); without an earlier lag
the first delay read sets it (log entry 93). -/
def lagEnter (s : State) : State :=
  forL ((theTt s).switchRecs.filter (fun r => r.kind == 1)) s (fun r s =>
    match refGet s r.ref with
    | some w => if wordQ w = .bad then s else switchSet r.switch (lagNearest r (lagRatio s w)) s
    | none => s)

/-- R197, R201, R202: read the switch references. -/
def readSwitches (s : State) : State :=
  forL (theTt s).switchRecs s (fun r s =>
    let old := switchGet s r.switch
    match refGet s r.ref with
    | none => s
    | some w =>
      if wordQ w = .bad then substCount s
      else if r.kind = 0 then switchSet r.switch (b2n (f32Le r.threshold (wordVal w))) s
      else switchSet r.switch (match old with
        | some l => lagNext (getFld s Reg.OPT_LAG 5 0) r l (lagRatio s w)
        | none => lagNearest r (lagRatio s w)) s)

/-- R201: the structure key. -/
def structureKey (s : State) : Nat :=
  (theTt s).switchRecs.foldl (fun k r =>
    let v := (switchGet s r.switch).getD (if r.kind = 1 then r.lagMin else 0)
    k ||| ((if r.kind = 0 then v else v - r.lagMin) * 2 ^ r.bit)) 0

/-- R201, R240: the route selected by a key; a broken route takes no part. -/
def selectRoute (s : State) (key : Nat) : Option RouteDesc :=
  (theTt s).routeDescs.find? (fun d => key &&& d.mask == d.key &&& d.mask && !getBit s (Reg.SLV_OROUTE + 4 * d.route) 1)

/-! ### Sources and the data list (R194, R197, R198, R200) -/

/-- R197: entry j of a source record: its value, its quality, and the state with the value it used. -/
def sourceEntry (ix : Nat) (r : SourceRec) (j : Nat) (s : State) : Word × Quality × State :=
  let k := r.stepFirst + (if r.stride = 1 then j else 0)
  let o := s.opt
  let len := (theTt s).stepSec
  let lin (x : Rat) : Word := f32OfRat (val r.scale * x + val r.offset)
  let dur := stepHours len o.start k
  let input (w : Word) (q : Quality) : Word × Quality × State :=
    let key := 65536 * ix + j
    if q = .bad then
      let v := ((s.opt.lastUsed.find? (fun e => e.1 == key)).map (fun e => e.2)).getD r.dflt
      (v, .subst, substCount { s with opt := { s.opt with lastUsed := smInsert s.opt.lastUsed key v } })
    else (w, q, { s with opt := { s.opt with lastUsed := smInsert s.opt.lastUsed key w } })
  match r.kind with
  | 0 => (r.offset, .good, s)
  | 1 =>
    let w := (refGet s r.ref).getD badWord
    let x := input (wordVal w) (wordQ w)
    (lin (val x.1), x.2.1, x.2.2)
  | 2 =>
    let e := seriesAt (nth o.series r.ref (0, .bad, [])) (o.step0 + k)
    let x := input e.1 e.2
    (lin (val x.1), x.2.1, x.2.2)
  | 3 => (lin dur, .good, s)
  | 4 =>
    let e := seriesAt (nth o.series r.ref (0, .bad, [])) (o.step0 + k)
    let x := input e.1 e.2
    (lin (val x.1 * dur), x.2.1, x.2.2)
  | _ => (lin (lightNeed s r.ref (o.step0 + k)), lightQuality s r.ref (o.step0 + k), s)

/-- R197, R219: evaluate the sources of a route: target and value of every entry, and the worst quality that counts. -/
def evalSources (d : RouteDesc) (s : State) : List (Nat × Word) × Quality × State :=
  forL ((theTt s).sources d) (([], Quality.good, s) : List (Nat × Word) × Quality × State) (fun e acc =>
    forN e.2.count acc (fun j acc =>
      let x := sourceEntry e.1 e.2 j acc.2.2
      (smInsert acc.1 (e.2.arr * 2 ^ 28 + e.2.first + j) x.1,
       if bit e.2.flags 0 then qMax acc.2.1 x.2.1 else acc.2.1, x.2.2)))

/-- R198: the class 11 bounds of the steps already decided by the water in the pipes. -/
def fixLagged (d : RouteDesc) (s : State) (vals : List (Nat × Word)) : List (Nat × Word) :=
  let t := theTt s
  let lags := t.switchRecs.filter (fun r => r.kind == 1)
  forL (t.tags d) vals (fun e vals =>
    if e.1 / 2 ^ 18 = 11 ∧ !e.2.2.1 then
      match lags.find? (fun r => r.switch == e.1 % 2 ^ 14) with
      | some r =>
        if e.2.1 < (switchGet s r.switch).getD 0 then
          let w := wordVal (imgGet s 4 (0x6000 + r.ref % 0x2000))
          smInsert (smInsert vals (5 * 2 ^ 28 + e.2.2.2) w) (6 * 2 ^ 28 + e.2.2.2) w
        else vals
      | none => vals
    else vals)

/-- R213: the bounds of the lamp levels: xl is 0 and xu the share of the step inside the zone's window. -/
def fixLight (d : RouteDesc) (s : State) (vals : List (Nat × Word)) : List (Nat × Word) :=
  let t := theTt s
  forL (t.tags d) vals (fun e vals =>
    if e.1 / 2 ^ 18 = 9 ∧ !e.2.2.1 then
      match t.zones.find? (fun z => z.zone == e.1 % 2 ^ 14) with
      | some z =>
        smInsert (smInsert vals (5 * 2 ^ 28 + e.2.2.2) 0) (6 * 2 ^ 28 + e.2.2.2)
          (f32OfRat (windowShare s (t.recipeOf z) e.2.1))
      | none => vals
    else vals)

/-- R184: the value arrays 0 to 6 of a route as the sequencer keeps them: what is resident in the factor store, and over it
the data list that the fabric has not yet taken in. -/
def routeValues (s : State) (k : Nat) : List Word :=
  let r := (theTt s).route 2 k
  (s.opt.dataList.foldl (fun (a : Array Word) e => a.setIfInBounds (r.arrOff (e.1 / 2 ^ 28) + e.1 % 2 ^ 28) e.2)
    (fsList s (valueBase (theTt s) 2 k) r.valueSize).toArray).toList

/-- Value `i` of array `a` of a route, likewise. -/
def routeVal (s : State) (r : Route) (k a i : Nat) : Word :=
  match s.opt.dataList.find? (fun e => e.1 == a * 2 ^ 28 + i) with
  | some e => e.2
  | none => fsGet s (valueBase (theTt s) 2 k + r.arrOff a + i)

/-- R200: the data list: the entries that differ from what is resident. -/
def dataList (s : State) (r : Route) (k : Nat) (vals : List (Nat × Word)) : List (Nat × Word) :=
  vals.filter (fun e => routeVal s r k (e.1 / 2 ^ 28) (e.1 % 2 ^ 28) != e.2)

/-- R200: a full reload is counted. -/
def reloadCount (s : State) : State := { s with opt := { s.opt with reloads := countUp s.opt.reloads } }

/-- R200, R240: reload all seven arrays of a route: the values in `vals`, and for the entries that no source gives the base
values, which they have had all along (R238). The whole area is written, so an error in it ends. -/
def fullReload (k : Nat) (vals : List (Nat × Word)) (s : State) : State :=
  let r := (theTt s).route 2 k
  let area := vals.foldl (fun (a : Array Word) e => a.setIfInBounds (r.arrOff (e.1 / 2 ^ 28) + e.1 % 2 ^ 28) e.2) r.base.toArray
  let s1 := fsPut (valueBase (theTt s) 2 k) area.toList s
  setFld Reg.OPT_ULIST 31 31 1 (cause Reg.OPT_CAUSE 7 (setBit (Reg.SLV_OROUTE + 4 * k) 2 true
    (reloadCount s1)))

/-! ### Starting points (R205 to R208) -/

/-- R184: a bound is present. -/
def present (w : Word) : Bool := decide (qabs (val w) < 100000000000000000000) && f32IsFin w

/-- R206: project strictly inside the present bounds. -/
def projectIn (lo hi : Word) (x : Rat) : Rat :=
  let l := val lo
  let h := val hi
  let e : Rat := 1 / 1000000
  if present lo && present hi then
    let m := max ((h - l) / 1000) e
    if h - l ≤ 2 * m then (l + h) / 2 else max (l + m) (min (h - m) x)
  else if present lo then max (l + max (qabs l / 1000) e) x
  else if present hi then min (h - max (qabs h / 1000) e) x
  else x

/-- R208: the cold value of a variable. -/
def coldX (lo hi : Word) (one : Rat) : Rat :=
  if present lo && present hi then (val lo + val hi) / 2
  else if present lo then val lo + one
  else if present hi then val hi - one
  else 0

/-- R206: the stored entry of a tag with absolute step. -/
def storeFind (s : State) (obj step : Nat) : Option WarmEntry :=
  let o := s.opt
  o.store.find? (fun e => tagObj e.tag == obj && o.storeStep + (e.tag % 256 + 256 - o.storeStep % 256) % 256 == step)

/-- R206: the coverage of a route. -/
def coverage (s : State) (d : RouteDesc) : Rat :=
  let hits := ((theTt s).tags d).filter (fun e => (storeFind s e.1 (tagStep s e)).isSome)
  (hits.length : Rat) / ((d.n + d.m : Nat) : Rat)

/-- R233, R234: the entries of array `a` in K: row and column in original order, and the value. -/
def kEntries (s : State) (r : Route) (k a : Nat) : List (Nat × Nat × Rat) :=
  let cols := r.entCols
  let orig (p : Nat) : Nat := (nth r.perm p (0, false)).1
  r.vmap.filterMap (fun v =>
    if v.1 / 2 ^ 28 = a then
      some (orig (nth r.kent v.2.1 (0, 0)).1, orig (nth cols v.2.1 0), val (routeVal s r k a (v.1 % 2 ^ 28)))
    else none)

/-- Sums of terms (index, value) by index. -/
def sumAt (n : Nat) (ts : List (Nat × Rat)) : List Rat :=
  (ts.foldl (fun (a : Array Rat) e => a.modify e.1 (fun z => z + e.2)) (Array.replicate n (0 : Rat))).toList

/-- The activity A x of every row, from the positions of array 2 in K. -/
def rowActivity (s : State) (r : Route) (k : Nat) (x : List Rat) : List Rat :=
  let xa := x.toArray
  sumAt r.m ((kEntries s r k 2).map (fun e => (max e.1 e.2.1 - r.n, e.2.2 * (xa[min e.1 e.2.1]?).getD 0)))

/-- Aᵀ y, by variable. -/
def colActivity (s : State) (r : Route) (k : Nat) (y : List Rat) : List Rat :=
  let ya := y.toArray
  sumAt r.n ((kEntries s r k 2).map (fun e => (min e.1 e.2.1, e.2.2 * (ya[max e.1 e.2.1 - r.n]?).getD 0)))

/-- H x, by variable: K holds each entry off the diagonal once. -/
def hessian (s : State) (r : Route) (k : Nat) (x : List Rat) : List Rat :=
  let xa := x.toArray
  sumAt r.n ((kEntries s r k 1).flatMap (fun e =>
    (e.1, e.2.2 * (xa[e.2.1]?).getD 0) :: if e.1 = e.2.1 then [] else [(e.2.1, e.2.2 * (xa[e.1]?).getD 0)]))

/-- R206, R208: the starting point: x, lower and upper bound multipliers, lower and upper row slacks, lower and upper row
multipliers. -/
def startPoint (warm : Bool) (d : RouteDesc) (s : State) : List Word :=
  let t := theTt s
  let r := t.route 2 d.route
  let bytes := t.routeBytes 2 d.route
  let tags := t.tags d
  let stored (con : Bool) (i : Nat) : Option WarmEntry :=
    if warm then
      (tags.find? (fun e => e.2.2.1 == con && e.2.2.2 == i)).bind (fun e => storeFind s e.1 (tagStep s e))
    else none
  let at_ (a i : Nat) : Word := routeVal s r d.route a i
  let one (con : Bool) (i : Nat) : Rat := Config.optUnit bytes con i
  let mult (w : Option Word) (u : Rat) : Word := match w with
    | some w => if val w < 1 / 1000000 then f32OfRat (1 / 1000000) else w
    | none => f32OfRat u
  let xs := (List.range r.n).map (fun i => match stored false i with
    | some e => f32OfRat (projectIn (at_ 5 i) (at_ 6 i) (val e.val))
    | none => f32OfRat (coldX (at_ 5 i) (at_ 6 i) (one false i)))
  let zl := (List.range r.n).map (fun i => mult ((stored false i).map (fun e => e.lo)) (one false (r.n + i)))
  let zu := (List.range r.n).map (fun i => mult ((stored false i).map (fun e => e.hi)) (one false (2 * r.n + i)))
  let act := rowActivity s r d.route (xs.map val)
  let slack (i : Nat) (up : Bool) : Word :=
    if warm then
      let a := projectIn (at_ 3 i) (at_ 4 i) (nth act i 0)
      f32OfRat (if up then val (at_ 4 i) - a else a - val (at_ 3 i))
    else f32OfRat (one true i)
  let sl := (List.range r.m).map (fun i => slack i false)
  let su := (List.range r.m).map (fun i => slack i true)
  let yl := (List.range r.m).map (fun i => mult ((stored true i).map (fun e => e.lo)) (one true (r.m + i)))
  let yu := (List.range r.m).map (fun i => mult ((stored true i).map (fun e => e.hi)) (one true (2 * r.m + i)))
  xs ++ zl ++ zu ++ sl ++ su ++ yl ++ yu

/-! ### Plans (R215 to R219) -/

/-- R217, R219: the plan of a solution: for each output record its N step words. -/
def planOf (d : RouteDesc) (x : List Word) (q : Quality) (s : State) : List (Nat × List DWord) :=
  let t := theTt s
  let tags := (t.tags d).filter (fun e => !e.2.2.1)
  t.mapOutputs.map (fun o =>
    let mine := tags.filter (fun e => e.1 == tagObj o.tag)
    (o.channel, (List.range t.mapSteps).map (fun k => match mine.find? (fun e => e.2.1 == k) with
      | some e => mkWord (f32OfRat (val o.scale * val (nth x e.2.2.2 0))) (if qCode q ≤ 2 then q else .subst)
      | none => mkWord o.dflt .subst)))

/-- R218: the default plan. -/
def defaultPlan (t : Timetable) : List (Nat × List DWord) :=
  t.mapOutputs.map (fun o => (o.channel, List.replicate t.mapSteps (mkWord o.dflt .subst)))

/-- R217: a plan shifted by one step. -/
def planShift (p : List (Nat × List DWord)) : List (Nat × List DWord) :=
  p.map (fun e => (e.1, e.2.drop 1 ++ e.2.getLast?.toList))

/-- Mark a plan SUBST (R22, R219). -/
def planSubst (p : List (Nat × List DWord)) : List (Nat × List DWord) :=
  p.map (fun e => (e.1, e.2.map (fun w => mkWord (wordVal w) (qMax (wordQ w) .subst))))

/-- R217: shift a plan to the present absolute step; `fuel` is the number of steps at most. -/
def planCatchUp (now : Nat) : Nat → Nat → List (Nat × List DWord) → List (Nat × List DWord)
  | 0, _, p => p
  | fuel + 1, st, p => if st < now then planCatchUp now fuel (st + 1) (planShift p) else p

/-- R216: the elapsed fraction of the plan's step 0, at most 1; without valid time none is known to have elapsed (log
entry 93). -/
def elapsed (s : State) : Rat :=
  let len := max 1 (theTt s).stepSec
  if s.mgt.cal.valid then
    min 1 (((s.mgt.cal.seconds - s.opt.planStep * len) * 65536 + s.mgt.cal.frac : Nat) / ((len * 65536 : Nat) : Rat))
  else 0

/-- R215, R216: write the plan in force and the current values into the TJ region, and publish it. -/
def tjWrite (s : State) : State :=
  let t := theTt s
  let o := s.opt
  let frac := elapsed s
  let s1 := forL t.mapOutputs s (fun r s =>
    match o.plan.find? (fun e => e.1 == r.channel) with
    | none => s
    | some (_, ws) =>
      let w0 := nth ws 0 0
      let w1 := nth ws 1 w0
      let cur :=
        if r.mode = 1 then
          if frac = 0 then w0
          else mkWord (f32OfRat (val (wordVal w0) + frac * (val (wordVal w1) - val (wordVal w0)))) (qMax (wordQ w0) (wordQ w1))
        else w0
      let head := BitVec.ofNat 64 (o.planStep % 2 ^ 32 + t.mapSteps % 256 * 2 ^ 32 + o.kind * 2 ^ 40 + o.planSeq % 65536 * 2 ^ 48)
      let base := 256 * r.channel
      forN t.mapSteps (imgPut 6 (base + 1) head (imgPut 6 base cur s)) (fun k s => imgPut 6 (base + 2 + k) (nth ws k 0) s))
  let s2 := setFld Reg.OPT_STAT 20 18 o.kind (setReg Reg.OPT_STEP0 (BitVec.ofNat 32 o.planStep) s1)
  imgPublish 6 s2

/-- R22, R218: the fallback plan comes into force. -/
def planFallback (s : State) : State :=
  let o := s.opt
  cause Reg.DEV_CAUSE 18 { s with opt := { o with
    fallbackDue := false, plan := planSubst o.plan, kind := if o.kind = 4 ∨ o.kind = 0 then o.kind else 3 } }

/-- R216: the plan of a solve that has ended comes into force. It has been solved for its own step 0: the steps that have
begun since then and before this headway start are shifted out at once (log entry 93). -/
def planTake (s : State) : State :=
  let o := s.opt
  match o.ready with
  | some p =>
    let now := match o.stepSeen with
      | some k => max p.step k
      | none => p.step
    setReg Reg.OPT_ENERGY (BitVec.ofNat 32 s.pwr.eOpt) { s with opt := { o with
      ready := none, kind := p.kind, planSeq := p.seq, planStep := now
      plan := planCatchUp now (theTt s).mapSteps p.step p.chans } }
  | none => s

/-- R217: a headway start that begins a new absolute step shifts the plan by one step. -/
def planStepOn (s : State) : State :=
  let o := s.opt
  let now := absStep s
  if !s.mgt.cal.valid then s
  else
    let s1 := { s with opt := { o with stepSeen := some now } }
    match o.stepSeen with
    | some k =>
      if k < now then { s1 with opt := { s1.opt with plan := planShift o.plan, planStep := o.planStep + 1 } } else s1
    | none => s1

/-- R219: with OPT_CTL.enable 0 at the latest period start the plan is marked SUBST. -/
def planMark (s : State) : State :=
  if s.opt.off then { s with opt := { s.opt with plan := planSubst s.opt.plan } } else s

/-- R22, R216, R217, R219: the trajectories at a headway start. -/
def optHeadway (s : State) : State :=
  let s1 := planTake s
  let s2 := if s1.opt.fallbackDue then planFallback s1 else s1
  let s3 := planStepOn (planMark s2)
  if (theTt s).mapOutputs.isEmpty ∨ s3.opt.kind = 0 then s3 else tjWrite s3

/-- R217: a headway start at which the plan is not this member's to shift: the step it begins is noted. -/
def optSeen (s : State) : State :=
  if s.mgt.cal.valid then { s with opt := { s.opt with stepSeen := some (absStep s) } } else s

/-- R202, R218: entry into RUN from READY: the default plan, the lags, no solve in the first period. -/
def optEnterRun (s : State) : State :=
  let t := theTt s
  let s1 := lagEnter s
  optSeen { s1 with opt := { s1.opt with
    first := true, due := false, ready := none, fallbackDue := false,
    kind := if t.mapOutputs.isEmpty then 0 else 4, planStep := absStep s, plan := defaultPlan t } }

/-! ### Solve end (R210, R211) -/

/-- Close the books of a solve. -/
def optEnd (outcome : Nat) (s : State) : State :=
  let o := s.opt
  let s1 := setReg Reg.OPT_ENERGY (BitVec.ofNat 32 s.pwr.eOpt) (freeDuration Reg.OPT_TIME Reg.OPT_TIMEMAX s)
  let s2 := setReg Reg.OPT_MERIT (match o.merits with
    | m :: _ => f32OfRat m
    | [] => 0) s1
  let s3 := setFld Reg.OPT_STAT 15 8 (min 255 o.iter) (setFld Reg.OPT_STAT 17 16 o.mostRetries
    (setFld Reg.OPT_STAT 2 0 outcome s2))
  { s3 with opt := { s3.opt with phase := .idle, pred := [], dataList := [] } }

/-- R22, R210: a solve ends without a solution. -/
def optNoSolution (s : State) : State :=
  let s1 := incFld Reg.OPT_FAIL 31 16 (cause Reg.OPT_CAUSE 1 (optEnd 3 s))
  { s1 with opt := { s1.opt with fallbackDue := true } }

/-- R205, R210: a solve ends with a plan. -/
def optSolution (acceptable : Bool) (s : State) : State :=
  let o := s.opt
  let t := theTt s
  let d := (t.routeDescs.find? (fun d => d.route == o.route)).getD {}
  let r := t.route 2 o.route
  let at_ (k i : Nat) : Word := nth o.iterate (k + i) 0
  let x := o.iterate.take r.n
  let act := rowActivity s r o.route (x.map val)
  let full (e : Nat × Nat × Bool × Nat) : Nat := e.1 * 256 + tagStep s e % 256
  let store := (t.tags d).map (fun e =>
    let i := e.2.2.2
    if e.2.2.1 then
      (⟨full e, f32OfRat (nth act i 0), at_ (3 * r.n + 2 * r.m) i, at_ (3 * r.n + 3 * r.m) i⟩ : WarmEntry)
    else ⟨full e, nth x i 0, at_ r.n i, at_ (2 * r.n) i⟩)
  let s1 := optEnd (if acceptable then 2 else 1) s
  let s2 := if acceptable then cause Reg.OPT_CAUSE 0 s1 else s1
  { s2 with opt := { s2.opt with
    store := store, storeStep := o.step0,
    ready := some ⟨if acceptable then 2 else 1, o.seq, o.step0, planOf d x o.quality s⟩ } }

/-- R211: a running solve is abandoned. -/
def optAbandon (s : State) : State :=
  let s0 := { s with opt := { s.opt with due := false } }
  if s.opt.phase = .idle then s0
  else
    cause Reg.OPT_CAUSE 10 (optEnd 4 (fabAbandon 2 s0))

/-! ### The interior-point sequence (R209, R210) -/

/-- R210: the largest present magnitude of arrays, and of array 0. -/
def boundNorm (s : State) (r : Route) (k : Nat) : Rat :=
  let v := routeValues s k
  let arr (a : Nat) : List Word := slice v (r.arrOff a) (r.arrSize a)
  ((arr 3 ++ arr 4 ++ arr 5 ++ arr 6).filter present).foldl (fun m w => max m (qabs (val w))) 0

/-- R184: a row of a route is an equality. -/
def rowEqual (s : State) (r : Route) (k i : Nat) : Bool := f32Eq (routeVal s r k 3 i) (routeVal s r k 4 i)

/-- The complementary pairs (slack, multiplier) of an iterate: one for each present bound of a variable and of a row that is
no equality. -/
def optPairs (s : State) (it : List Rat) : List (Rat × Rat) :=
  let k := s.opt.route
  let r := (theTt s).route 2 k
  let ia := it.toArray
  let at_ (i : Nat) : Rat := (ia[i]?).getD 0
  let bound (a i : Nat) : Option Rat := let w := routeVal s r k a i; if present w then some (val w) else none
  (List.range r.n).flatMap (fun i =>
    ((bound 5 i).map (fun l => (at_ i - l, at_ (r.n + i)))).toList ++
    ((bound 6 i).map (fun u => (u - at_ i, at_ (2 * r.n + i)))).toList) ++
  ((List.range r.m).filter (fun i => !rowEqual s r k i)).flatMap (fun i =>
    ((bound 3 i).map (fun _ => (at_ (3 * r.n + i), at_ (3 * r.n + 2 * r.m + i)))).toList ++
    ((bound 4 i).map (fun _ => (at_ (3 * r.n + r.m + i), at_ (3 * r.n + 3 * r.m + i)))).toList)

/-- R210: μ, the mean complementarity product; 0 where there is no pair. -/
def meanComp (ps : List (Rat × Rat)) : Rat := ps.foldl (fun a p => a + p.1 * p.2) 0 / (ps.length : Rat)

/-- R209 steps 8 and 10: the largest step, at most the full one, from the pairs `a` to the pairs `b` that keeps slacks and
multipliers from becoming negative. -/
def largestStep (a b : List (Rat × Rat)) : Rat :=
  (a.zip b).foldl (fun t p =>
    let cut (v w t : Rat) : Rat := if w < v then min t (v / (v - w)) else t
    cut p.1.2 p.2.2 (cut p.1.1 p.2.1 t)) 1

/-- The multiplier of each row: lower less upper. -/
def rowMult (r : Route) (it : List Rat) : List Rat :=
  let y := it.drop (3 * r.n + 2 * r.m)
  ((y.take r.m).zip (y.drop r.m)).map (fun p => p.1 - p.2)

/-- R210: r_p, the largest primal infeasibility in scaled units: of a row against its slacks, or of an equality. -/
def primalInf (s : State) (it : List Rat) : Rat :=
  let k := s.opt.route
  let t := theTt s
  let r := t.route 2 k
  let act := rowActivity s r k (it.take r.n)
  (List.range r.m).foldl (fun m i =>
    let a := nth act i 0
    let lo := routeVal s r k 3 i
    let hi := routeVal s r k 4 i
    let e :=
      if rowEqual s r k i then qabs (a - val lo)
      else max (if present lo then qabs (a - nth it (3 * r.n + i) 0 - val lo) else 0)
        (if present hi then qabs (val hi - a - nth it (3 * r.n + r.m + i) 0) else 0)
    max m (e / Config.optUnit (t.routeBytes 2 k) true i)) 0

/-- R210: r_d, the largest dual infeasibility in scaled units: the entries of H x + q less Aᵀ y less the multipliers of the
present bounds. -/
def dualInf (s : State) (it : List Rat) : Rat :=
  let k := s.opt.route
  let t := theTt s
  let r := t.route 2 k
  let hx := hessian s r k (it.take r.n)
  let ay := colActivity s r k (rowMult r it)
  (List.range r.n).foldl (fun m i =>
    let z (a j : Nat) : Rat := if present (routeVal s r k a i) then nth it (j * r.n + i) 0 else 0
    let e := nth hx i 0 + val (routeVal s r k 0 i) - nth ay i 0 - z 5 1 + z 6 2
    max m (qabs e / Config.optUnit (t.routeBytes 2 k) false (r.n + i))) 0

/-- R184: the objective ½ xᵀ H x + qᵀ x. -/
def objective (s : State) (it : List Rat) : Rat :=
  let k := s.opt.route
  let r := (theTt s).route 2 k
  let hx := hessian s r k (it.take r.n)
  (List.range r.n).foldl (fun a i => a + (nth hx i 0 / 2 + val (routeVal s r k 0 i)) * nth it i 0) 0

/-- R210: one term of M. A limit of 0 is met by 0 alone; anything else exceeds it beyond all numbers (log entry 93). -/
def meritTerm (x limit : Rat) : Rat := if limit = 0 then (if x = 0 then 0 else ((2 ^ 200 : Nat) : Rat)) else x / limit

/-- R210: the merit of the iterate. -/
def optMerit (s : State) : Rat :=
  let o := s.opt
  let t := theTt s
  let r := t.route 2 o.route
  let it := o.iterate.map val
  let eps (a : Nat) : Rat := val (getReg s a)
  let qn := ((routeValues s o.route).take r.n).foldl (fun m w => max m (qabs (val w))) (0 : Rat)
  max (meritTerm (primalInf s it) (eps Reg.OPT_EPS_P * (1 + boundNorm s r o.route)))
    (max (meritTerm (dualInf s it) (eps Reg.OPT_EPS_D * (1 + qn)))
      (meritTerm (meanComp (optPairs s it)) (eps Reg.OPT_EPS_G * (1 + qabs (objective s it)))))

/-- R209 step 6: the diagonal list: every entry of arrays 8 and 9; an equality row has zero. -/
def diagList (s : State) : List (Nat × Word) :=
  let o := s.opt
  let t := theTt s
  let r := t.route 2 o.route
  let b := t.routeBytes 2 o.route
  let v := routeValues s o.route
  (List.range r.n).map (fun i => (8 * 2 ^ 28 + i, Config.optDiag b v o.iterate false i)) ++
  (List.range r.m).map (fun i => (9 * 2 ^ 28 + i,
    if rowEqual s r o.route i then 0 else Config.optDiag b v o.iterate true i))

/-- δ times 16 to a power (R209). -/
def boosted (d : Word) : Nat → Word
  | 0 => d
  | k + 1 => (f32Mul (boosted d k) 0x41800000#32).1

/-- R209 steps 6 and 7: send the lists and factorise. -/
def optFactor (s : State) : State :=
  let o := s.opt
  let x := { fabGet s 2 with
    route := o.route, list := o.dataList ++ diagList s,
    delta := boosted (getReg s Reg.OPT_REG) o.boost }
  let s1 := fabRequest 2 .factor (fabSet 2 x s)
  { s1 with opt := { s1.opt with phase := .factor } }

/-- R210: M has not halved over the last 8 iterations. -/
def stallRule (merits : List Rat) (m : Rat) : Bool :=
  match merits[7]? with
  | some old => decide (old < 2 * m)
  | none => false

/-- R209 step 5: judge the merit, and stop or begin an iteration. -/
def optJudge (s : State) : State :=
  let m := optMerit s
  let o := s.opt
  let s1 := { s with opt := { o with merits := m :: o.merits, retries := 0 } }
  let stalled := stallRule o.merits m
  if m ≤ 1 then optSolution false s1
  else if o.limit ≤ o.iter ∨ stalled = true then
    let s2 := if stalled = true then cause Reg.OPT_CAUSE 9 s1 else s1
    if m ≤ (getFld s Reg.OPT_ACC 7 0 : Rat) then optSolution true s2 else optNoSolution s2
  else optFactor s1

/-- R209: a failed step: retried with a larger δ, at most three times. -/
def optRetry (s : State) : State :=
  let o := s.opt
  if 3 ≤ o.retries then optNoSolution s
  else
    let s1 := incFld Reg.OPT_FAIL 15 0 (cause Reg.OPT_CAUSE 2 s)
    optFactor { s1 with opt := { s1.opt with
      boost := o.boost + 1, retries := o.retries + 1, mostRetries := max o.mostRetries (o.retries + 1) } }

/-- The right-hand side of a system (R209). -/
def optRhs (s : State) (pred : Option (List Word × Rat)) : List Word :=
  let o := s.opt
  let t := theTt s
  let r := t.route 2 o.route
  (List.range r.dim).map (fun i => Config.optRhs (t.routeBytes 2 o.route) (routeValues s o.route) o.iterate pred i)

/-- The iterate moved by `step` of the full step of a system's solution: Δx is the solution's own, the rest is open. -/
def optMoved (s : State) (x : List Word) (step : Rat) : List Rat :=
  let o := s.opt
  let t := theTt s
  let r := t.route 2 o.route
  let b := t.routeBytes 2 o.route
  let v := routeValues s o.route
  let xa := x.toArray
  o.iterate.zipIdx.map (fun p =>
    val p.1 + step * (if p.2 < r.n then val ((xa[p.2]?).getD 0) else Config.optDir b v o.iterate x p.2))

/-- R209 steps 8 and 10: the largest step of a system's solution. -/
def optStepMax (s : State) (x : List Word) : Rat :=
  largestStep (optPairs s (s.opt.iterate.map val)) (optPairs s (optMoved s x 1))

/-- R209 step 8: the centring σ = (μ_aff ÷ μ)³; 0 where μ is 0. -/
def centring (s : State) (x : List Word) : Rat :=
  let q := meanComp (optPairs s (optMoved s x (optStepMax s x))) / meanComp (optPairs s (s.opt.iterate.map val))
  q * q * q

/-- The fabric has factorised for OPT. -/
def optFactored (res : Nat) (s : State) : State :=
  if res = 1 ∨ res = 2 then
    let s1 := { s with opt := { s.opt with dataList := [], phase := .predictor } }
    fabRequest 2 .solve (fabRhs 2 (optRhs s1 none) s1)
  else
    -- a list that was taken in is not sent again; a refused one has left the value area as it was (R241)
    let taken := decide (res = 3) && getFld s (slvBank 2 + 0xC) 31 28 != 6
    optRetry (if taken then { s with opt := { s.opt with dataList := [] } } else s)

/-- The fabric has solved for OPT: the predictor is followed by the corrector, the corrector by the step. -/
def optSolved (res : Nat) (s : State) : State :=
  if res ≠ 1 ∧ res ≠ 2 then optRetry s
  else
    let x := fabSolution 2 s
    if s.opt.phase = .predictor then
      let s1 := { s with opt := { s.opt with pred := x, phase := .corrector } }
      fabRequest 2 .solve (fabRhs 2 (optRhs s1 (some (x, centring s1 x))) s1)
    else
      let next := (optMoved s x (995 / 1000 * optStepMax s x)).map f32OfRat
      optJudge { s with opt := { s.opt with iterate := next, pred := [], iter := s.opt.iter + 1 } }

/-! ### Solve start (R187, R203, R209) and periods (R20, R21) -/

/-- R207: the reason for a cold start, if there is one. -/
def coldReason (cov : Rat) (s : State) : Option Nat :=
  let o := s.opt
  if o.store.isEmpty then some 0
  else if !getBit s Reg.OPT_CTL 1 || o.cold then some 3
  else if o.storeStep + (theTt s).mapSteps ≤ o.step0 ∨ o.step0 + (theTt s).mapSteps ≤ o.storeStep then some 2
  else if cov < val (getReg s Reg.OPT_COVTH) then some 1
  else none

/-- The lists of a run whose values are `vals` for route `d`: a full reload, or the data list for the fabric. -/
def optLoad (d : RouteDesc) (q : Quality) (vals : List (Nat × Word)) (l : List (Nat × Word)) (s : State) : State :=
  let s1 := { s with opt := { s.opt with quality := q, lastRoute := some d.route } }
  if 262144 < l.length ∨ !getBit s1 (Reg.SLV_OROUTE + 4 * d.route) 2 then fullReload d.route vals s1
  else
    let s2 := setReg Reg.OPT_ULIST (BitVec.ofNat 32 l.length) s1
    { s2 with opt := { s2.opt with dataList := l } }

/-- R207: the cause and event of a cold start, with its reason. A coverage below the threshold sets cold_cover, whichever
reason the event names. -/
def optColdEvent (d : RouteDesc) (reason : Option Nat) (cov : Rat) (s : State) : State :=
  match reason with
  | some k =>
    let s1 := evRaise 0x7080 d.route (BitVec.ofNat 32 k) (f32OfRat cov) (incFld Reg.OPT_CNT 31 16 s)
    if cov < val (getReg s Reg.OPT_COVTH) then cause Reg.OPT_CAUSE 3 s1 else s1
  | none => s

/-- The route of a run is taken: it is counted, and a change of route is reported. -/
def optRoute (d : RouteDesc) (last : Option Nat) (s : State) : State :=
  let s1 := incFld Reg.OPT_CNT 15 0 { s with opt := { s.opt with seq := s.opt.seq + 1, route := d.route } }
  match last with
  | some k => if k = d.route then s1 else cause Reg.OPT_CAUSE 5 s1
  | none => s1

/-- A run starts on route `d`; `s` is the state at the start of the period and `s2` the one with the key computed. -/
def optBegin (d : RouteDesc) (s s2 : State) : State :=
  let (vals0, q, s5) := evalSources d (optRoute d s.opt.lastRoute s2)
  let vals := fixLight d s5 (fixLagged d s5 vals0)
  let r := (theTt s5).route 2 d.route
  let s7 := optLoad d q vals (dataList s5 r d.route vals) s5
  let cov := coverage s7 d
  let reason := coldReason cov s7
  let warm := reason.isNone
  let s9 := optColdEvent d reason cov (setReg Reg.OPT_COVER (f32OfRat cov) s7)
  let s10 := setFld Reg.OPT_STAT 7 4 d.route (setFld Reg.OPT_STAT 3 3 (b2n warm) s9)
  optJudge { s10 with opt := { s10.opt with
    iterate := startPoint warm d s7, warm := warm, cold := false,
    limit := if warm then getFld s Reg.OPT_CTL 23 16 else getFld s Reg.OPT_CTL 15 8 } }

/-- R209 steps 1 to 4, at the publication of the period's NS generation. -/
def optStart (s : State) : State :=
  let s0 := { s with
    pwr := { s.pwr with eOpt := 0 }
    opt := { s.opt with
      due := false, series := seriesCopy s, dataList := [], iter := 0, boost := 0, retries := 0, mostRetries := 0, merits := [] } }
  let s1 := readSwitches { s0 with opt := { s0.opt with step0 := s.opt.start / 65536 / max 1 (theTt s).stepSec } }
  let key := structureKey s1
  match selectRoute s1 key with
  | none =>
    let s2 := causeD Reg.OPT_CAUSE 4 0 (BitVec.ofNat 32 key) 0 s1
    { s2 with opt := { s2.opt with fallbackDue := true } }
  | some d => optBegin d s (setReg Reg.OPT_KEY (BitVec.ofNat 32 key) s1)

/-- R20, R21, R187, R219: an optimiser period starts; `joined` says that every line has ended its joins. -/
def optPeriod (joined : Bool) (s : State) : State :=
  let s1 := { s with opt := { s.opt with off := !getBit s Reg.OPT_CTL 0 } }
  if (theTt s).mapSteps = 0 then s
  else if s.opt.phase ≠ .idle then cause Reg.DEV_CAUSE 17 s1
  else if s.opt.first ∧ !joined then s1
  else if s1.opt.off then { s1 with opt := { s1.opt with first := false } }
  else if !s.mgt.cal.valid then
    let s2 := cause Reg.OPT_CAUSE 6 s1
    { s2 with opt := { s2.opt with first := false, fallbackDue := true } }
  else
    { s1 with opt := { s1.opt with
        first := false, due := true, start := s.mgt.cal.seconds * 65536 + s.mgt.cal.frac } }

/-- Start the due solve once NS has been published. -/
def optIfDue (s : State) : State := if s.opt.due ∧ s.dev.nsPublished then optStart s else s

/-- OPT_STAT as read: busy and paused are the sequencer's and the fabric's (R222). -/
def optStat (s : State) : Word :=
  setField (setField (getReg s Reg.OPT_STAT) 24 24 (b2n (s.opt.phase != .idle))) 25 25
    (b2n (s.slv.paused || (s.opt.phase != .idle && s.slv.hydHolds)))

/-- R211: a commit boundary; the old timetable, and the new one in force.
DESIGN CHOICE (log entry 105): a plan that is solved and not yet written is dropped when the outputs or the number of steps
change. -/
def optCommit (old : Timetable) (s : State) : State :=
  let t := theTt s
  let mapChanged := old.probMap != t.probMap || (List.range 16).any (fun k => old.routeBytes 2 k != t.routeBytes 2 k)
  let s0 := if mapChanged ∨ old.plan.optHeadways ≠ t.plan.optHeadways then optAbandon s else s
  -- the records of another map have used no value yet (R197)
  let s1 := if old.probMap != t.probMap then { s0 with opt := { s0.opt with lastUsed := [] } } else s0
  if old.mapOutputs = t.mapOutputs ∧ old.mapSteps = t.mapSteps then s1
  else
    -- channels that the new map adds carry their default value until a plan is published (R218)
    let p := t.mapOutputs.map (fun o => match s1.opt.plan.find? (fun e => e.1 == o.channel) with
      | some e => (o.channel, fit (mkWord o.dflt .subst) t.mapSteps e.2)
      | none => (o.channel, List.replicate t.mapSteps (mkWord o.dflt .subst)))
    { s1 with opt := { s1.opt with
      plan := p, ready := none,
      kind := if t.mapOutputs.isEmpty then 0 else if s1.opt.kind = 0 then 4 else s1.opt.kind } }

/-! ### The fabric's events -/

/-- FABRIC_FACTORISATION_DONE: the running factorisation ends and its client goes on. -/
def execFabricFactorisationDone (s : State) : Result :=
  let c := s.slv.holder
  .next (
    if fabOn s ∧ c ≠ 0 ∧ (fabGet s c).unit = .factor then
      let (res, s1) := slvFactor c s
      let s2 := fabEnd c s1
      fabGrant (if c = 1 then optIfDue (hydFactored res s2) else optFactored res s2)
    else s)

/-- FABRIC_SOLVE_DONE: the running refined solve ends and its client takes its next step. -/
def execFabricSolveDone (s : State) : Result :=
  let c := s.slv.holder
  .next (
    if fabOn s ∧ c ≠ 0 ∧ (fabGet s c).unit = .solve then
      let (res, s1) := slvSolve c s
      let s2 := fabEnd c s1
      fabGrant (if c = 1 then hydSolved res s2 else optSolved res s2)
    else s)

/-- FTR_MOVE_DONE: the wagons are moved and NS is published; a due optimiser solve starts, a paused one resumes. -/
def execFtrMoveDone (s : State) : Result :=
  .next (if domOn s 3 ∧ s.ftr.busy then optIfDue (nsPublish s.hyd.done (ftrMove s)) else s)

end Sys2Proof.Machine
end

