-- ==== Sys2Proof/Machine/TTLimits.lean ====
section
/-! DEFINITION. Reading a timetable image (R39 to R46) and the limit checks, code 0xD of R75: counts, the field ranges
of R49 to R69, R13, R19, R48, and what the other chapters add. A check gives the byte offset of the first field at
fault in each record (R631). -/

namespace Sys2Proof.Machine

/-! ### Sections -/

/-- R41: a section header with its payload. -/
structure Sec where
  id : Nat := 0
  version : Nat := 0
  flags : Nat := 0
  recSize : Nat := 0
  count : Nat := 0
  len : Nat := 0
  inst : Nat := 0
  header : List Byte := []
  /-- the padded payload -/
  padded : List Byte := []
  deriving DecidableEq, Repr, Inhabited

/-- The payload before padding. -/
def Sec.payload (x : Sec) : List Byte := x.padded.take x.len

/-- The records of a section of fixed record size. -/
def Sec.records (x : Sec) : List (List Byte) :=
  if x.recSize = 0 then [] else chunks x.recSize x.count x.payload

/-- The section whose header stands at an offset of an image. -/
def secAt (img : List Byte) (o : Nat) : Sec :=
  let h := slice img o 32
  { id := u16 h 0, version := u16 h 2, flags := u16 h 4, recSize := u16 h 6, count := u32 h 8, len := u32 h 0xC,
    inst := u16 h 0x10, header := h, padded := slice img (o + 32) ((u32 h 0xC + 7) / 8 * 8) }

/-- R39: walk `n` sections from an offset; none unless they end exactly at `stop`. -/
def secWalk (img : List Byte) (stop : Nat) : Nat → Nat → Option (List Sec)
  | 0, o => if o = stop then some [] else none
  | n + 1, o =>
    if stop < o + 32 then none
    else
      let x := secAt img o
      let o' := o + 32 + (x.len + 7) / 8 * 8
      if stop < o' then none else (secWalk img stop n o').map (fun xs => x :: xs)

/-- R45: what the table says of a section id: record size, maximum count, instances (none, engines, routes), required. -/
structure SecRule where
  id : Nat
  recSize : Nat
  max : Nat
  insts : Nat
  required : Bool

/-- R45. A section without instances carries 0xFFFF; `insts` is the number of instances of one that repeats. -/
def secRules : List SecRule :=
  [⟨0x0001, 16, 1, 0, true⟩, ⟨0x0002, 8, 32, 0, true⟩, ⟨0x0003, 16, 512, 0, false⟩, ⟨0x0004, 32, 72, 0, false⟩,
   ⟨0x0005, 24, 8, 0, true⟩, ⟨0x0006, 16, 2048, 0, false⟩, ⟨0x0007, 24, 8192, 0, true⟩,
   ⟨0x0008, 32, 16384, 0, true⟩, ⟨0x0009, 32, 1, 0, true⟩, ⟨0x000A, 64, 256, 0, false⟩, ⟨0x000B, 32, 128, 0, false⟩,
   ⟨0x000C, 8, 4096, 0, false⟩, ⟨0x000D, 64, 1, 0, true⟩, ⟨0x000E, 32, 1, 0, true⟩, ⟨0x000F, 16, 8, 0, false⟩,
   ⟨0x0010, 64, 32, 0, false⟩, ⟨0x0011, 32, 64, 0, false⟩] ++
  [⟨0x0100, 0, 0, 8, false⟩, ⟨0x0101, 0, 0, 8, false⟩, ⟨0x0110, 0, 0, 1, true⟩, ⟨0x0111, 0, 0, 16, false⟩,
   ⟨0x0112, 0, 0, 0, false⟩]

/-- The table row of an id. -/
def secRule (id : Nat) : Option SecRule := secRules.find? (fun r => r.id == id)

/-- The records of a section id. -/
def secRecords (xs : List Sec) (id : Nat) : List (List Byte) :=
  match xs.find? (fun x => x.id == id) with
  | some x => x.records
  | none => []

/-- The records of an image as a timetable (R76 step 3). -/
def ttOf (img : List Byte) (xs : List Sec) (digest : List Byte) : Timetable :=
  let one {α : Type} (id : Nat) (f : List Byte → α) (d : α) : α := ((secRecords xs id).head?.map f).getD d
  let all {α : Type} (id : Nat) (f : List Byte → α) : List α := (secRecords xs id).map f
  { serial := w32 img 0x14, buildTime := w32 img 0x18, networkId := slice img 0x1C 16, digest := digest,
    plan := one 1 Plan.ofBytes {}, platforms := all 2 Platform.ofBytes, channels := all 3 Channel.ofBytes,
    meters := all 4 Meter.ofBytes, lines := all 5 Line.ofBytes, roster := all 6 Station.ofBytes,
    nodes := all 7 Node.ofBytes, elements := all 8 Element.ofBytes, tracker := one 9 Tracker.ofBytes {},
    loops := all 0xA LoopRec.ofBytes, tasks := all 0xB TaskRec.ofBytes, eventClasses := all 0xC EventClass.ofBytes,
    security := one 0xD Security.ofBytes {},
    securityBytes := match xs.find? (fun x => x.id == 0xD) with
      | some x => x.padded
      | none => [],
    redundancy := one 0xE Redundancy.ofBytes {}, retentive := all 0xF Retentive.ofBytes,
    recipes := all 0x10 Recipe.ofBytes, zones := all 0x11 Zone.ofBytes,
    blobs := (xs.filter (fun x => decide (0x0100 ≤ x.id ∧ x.id ≤ 0x0112))).map
      (fun x => { id := x.id, inst := x.inst, bytes := x.payload }) }

/-! ### Field tests -/

/-- Tests of one record in ascending offset: the offset of a field and whether it is in order. -/
abbrev FieldTests := List (Nat × Bool)

/-- The offset of the first field at fault. -/
def firstBad (ts : FieldTests) : Option Nat := (ts.find? (fun x => !x.2)).map (·.1)

/-- R48: a finite f32. -/
def finAt (b : List Byte) (o : Nat) : Bool := f32IsFin (w32 b o)

/-- The value of an f32 field. -/
def ratAt (b : List Byte) (o : Nat) : Rat := f32RatD (w32 b o)

/-- A number between bounds. -/
def within (lo v hi : Nat) : Bool := decide (lo ≤ v) && decide (v ≤ hi)

/-- R13, R19, R49. -/
def planD (b : List Byte) : FieldTests :=
  let p := Plan.ofBytes b
  [(0, within 102 p.headway 10240), (2, decide (0 < p.tIn)), (4, decide (p.tIn < p.tEst)),
   (6, decide (p.tEst < p.tOut) && decide (p.tOut + 8 ≤ p.headway)),
   (8, within (15 * 1024) (p.optHeadways * p.headway) (3600 * 1024)), (0xC, p.txIdle == 0 || within 5 p.txIdle 600),
   (0xE, zeros b 0xE 2)]

/-- R343: the highest resistance in Ω of a channel in mode 3 to 6. -/
def topOhms (c : Channel) : Rat :=
  if c.mode = 6 then (match c.range with
    | 0 => 400
    | 1 => 4000
    | _ => 40000)
  else rtdLaw c.range (if c.range = 3 then 180 else 850)

/-- R50, R343. -/
def platformD (t : Timetable) (b : List Byte) : FieldTests :=
  let p := Platform.ofBytes b
  let chs := t.channels.filter (fun c => c.channel / 16 == p.platform)
  let rs := chs.filter (fun c => within 3 c.mode 6)
  let scan := (chs.filter (fun c => within 1 c.mode 6)).foldl (fun m c => m ||| 2 ^ (c.channel % 16)) 0
  let lvl : Rat := p.excLevel
  [(0, within 0 p.platform 31), (1, decide (p.excitation ≤ 2) && (rs.isEmpty || p.excitation == 1)),
   (2, (rs.isEmpty || within 50 p.excLevel 1000) &&
       rs.all (fun c => decide (lvl * topOhms c ≤ 2400000) &&
         (p.reference != 1 || decide (lvl * ((c.p1 : Nat) : Rat) / 10 ≤ 2400000))) &&
       (p.excitation != 2 || within 500 p.excLevel 4096)),
   (4, decide (p.reference ≤ 1)), (5, within 1 p.rateDiv 16), (6, p.scanMask == scan)]

/-- R339: the number of range codes of a mode; none for a code that is no mode. -/
def modeRanges (m : Nat) : Option Nat :=
  match m with
  | 0 => some 1
  | 1 => some 4
  | 2 => some 2
  | 3 => some 4
  | 4 => some 4
  | 5 => some 4
  | 6 => some 3
  | 7 => some 8
  | 8 => some 2
  | 9 => some 3
  | 16 => some 1
  | 17 => some 2
  | 18 => some 2
  | 19 => some 2
  | 20 => some 2
  | _ => none

/-- A meter number: TM 0x00 to 0x3F, EM 0x80 to 0x87 (R52). -/
def meterNum (n : Nat) : Bool := decide (n ≤ 0x3F) || within 0x80 n 0x87

/-- R341: whether p0 and p1 lie in the ranges of the mode. -/
def chanParams (t : Timetable) (c : Channel) : Bool × Bool :=
  if c.mode = 1 ∨ c.mode = 2 then (decide (c.p0 ≤ 256), c.p1 == 0)
  else if 3 ≤ c.mode ∧ c.mode ≤ 6 then
    (decide (c.p0 ≤ 256), if (t.platform (c.channel / 16)).reference = 1 then decide (1000 ≤ c.p1) else c.p1 == 0)
  else if c.mode = 7 then
    (decide (c.p0 ≤ 60000), (c.p0 == 0 || decide (1 ≤ c.p1 % 256)) && !bit c.p1 14)
  else if c.mode = 8 then (decide (5 ≤ c.p0), decide (2 * (c.p1 % 256) < c.p0) && bits c.p1 15 9 == 0)
  else if c.mode = 19 then (decide (10 ≤ c.p0), c.p1 == 0)
  else if c.mode = 20 then (meterNum c.p0, within 1 c.p1 1000)
  else (c.p0 == 0, c.p1 == 0)

/-- R51, R339, R341, R354. `before` are the records before this one. -/
def channelD (t : Timetable) (before : List Channel) (b : List Byte) : FieldTests :=
  let c := Channel.ofBytes b
  let pr := chanParams t c
  [(0, decide (c.channel ≤ 511)),
   (2, (modeRanges c.mode).isSome && (c.mode != 9 || decide (c.channel ≤ 47)) &&
       (c.mode != 8 || decide ((before.filter (fun x => x.mode == 8)).length < 64))),
   (3, decide (c.range < (modeRanges c.mode).getD 256)), (4, pr.1), (6, pr.2), (8, finAt b 8)]

/-- R52, R367, R369.
DESIGN CHOICE (log entry 88): the pair of number and class is not checked. -/
def meterD (b : List Byte) : FieldTests :=
  let m := Meter.ofBytes b
  [(0, meterNum m.meter), (1, decide (m.cls ≤ 3)), (2, decide (m.source ≤ 1) && (m.cls != 3 || m.source == 0)),
   (3, decide (m.interval ≤ 3)), (0x10, finAt b 0x10 && decide (0 ≤ ratAt b 0x10)),
   (0x14, finAt b 0x14 && decide (0 < ratAt b 0x14)),
   (0x18, m.cls == 3 || (decide (m.scaleB % 256 ≤ 3) && bits m.scaleB 15 9 == 0)), (0x1A, decide (m.tariff ≤ 7)),
   (0x1C, m.paramCrc == crc32c (b.take 0x1C))]

/-- R112: wire time of slot cars for `n` stations with `sz` bytes a slot, in bytes on the wire. -/
def slotWire (n sz : Nat) : Nat := (carGroupSizes n).foldl (fun a k => a + (32 + sz * k + 38)) 0
where
  /-- Slots in the cars of a line of `n` stations. -/
  carGroupSizes (n : Nat) : List Nat := List.replicate (n / 12) 12 ++ (if n % 12 = 0 then [] else [n % 12])

/-- R112: T_train and T_join in ns, for the stations of one line or (healed ring) of two. -/
def trainTimes (ns : List Nat) (phy : Nat) : Nat × Nat :=
  let bitNs := if phy = 0 then 10 else 100
  let hop := if phy = 0 then 1700 else 17000
  let n := ns.foldl (· + ·) 0
  let out := (80 + 38) + (544 + 38) + ns.foldl (fun a k => a + slotWire k 32) 0
  let inp := ns.foldl (fun a k => a + slotWire k 64) 0
  ((out + inp) * 8 * bitNs + 2 * n * hop, out * 8 * bitNs + 2 * n * hop)

/-- R54, R112, R131: the two ports of a through pair have one station between them. DESIGN CHOICE (log entry 104): the Lines
record of either port may be the one that says so. -/
def lineD (t : Timetable) (b : List Byte) : FieldTests :=
  let l := Line.ofBytes b
  let ns := if l.mode = 2 then [l.stations, (t.line l.partner).stations] else [l.stations]
  let tt := trainTimes ns l.phy
  let fits := (l.mode != 1 && l.mode != 2) ||
    (decide (tt.1 * 1024 ≤ t.plan.tIn * 1000000000) && decide (tt.2 * 1024 ≤ 102 * 1000000000))
  let pair := l.mode != 3 || decide (l.stations ≤ 1 ∧
    (l.port < l.partner ∨ l.stations + (t.line l.partner).stations = 1))
  [(0, decide (l.port ≤ 7)), (1, decide (l.mode ≤ 3)),
   (2, if l.mode = 2 ∨ l.mode = 3 then decide (l.partner ≤ 7) else l.partner == 0xFF), (3, decide (l.phy ≤ 1)),
   (4, decide (l.stations ≤ 256) && fits && pair), (8, l.mode == 0 || within 4 l.keySlot 55), (0xA, zeros b 0xA 6), (0x16, zeros b 0x16 2)]

/-- R55. -/
def rosterD (b : List Byte) : FieldTests :=
  let r := Station.ofBytes b
  [(0, decide (r.station ≤ 2047)), (2, decide (r.line ≤ 7)),
   (4, [0x7008, 0x7064, 0x7128, 0x7512, 0].contains r.member), (0xE, zeros b 0xE 2)]

/-- R57. -/
def nodeD (b : List Byte) : FieldTests :=
  let n := Node.ofBytes b
  [(0, decide (n.node ≤ 8191)), (2, decide (n.kind ≤ 4)), (3, decide (n.circuit ≤ 15)), (4, finAt b 4),
   (0x14, zeros b 0x14 4)]

/-- R58, R147. `before` are the records before this one. -/
def elementD (before : List Element) (b : List Byte) : FieldTests :=
  let e := Element.ofBytes b
  let p (o : Nat) (ok : Rat → Bool) : Nat × Bool := (o, finAt b o && ok (ratAt b o))
  let pos (x : Rat) : Bool := decide (0 < x)
  let any (_ : Rat) : Bool := true
  let zero (o : Nat) : Nat × Bool := (o, zeros b o 4)
  [(0, decide (e.element ≤ 16383)),
   (2, decide (e.type ≤ 3) && (e.type != 0 || decide ((before.filter (fun x => x.type == 0)).length < 12288))),
   (3, e.type != 3 || e.flags == 0), (6, e.src != e.dst)] ++
  (match e.type with
   | 0 => [p 8 pos, p 0xC pos, p 0x10 pos, p 0x14 any]
   | 1 => [p 8 pos, p 0xC (fun x => decide (1 < x)), p 0x10 (fun x => decide (0 ≤ x ∧ x ≤ 1 / 10)), zero 0x14]
   | 2 => [p 8 any, p 0xC any, p 0x10 (fun x => decide (x < 0)), p 0x14 pos]
   | _ => [p 8 any, p 0xC pos, zero 0x10, zero 0x14])

/-- R59. -/
def trackerD (b : List Byte) : FieldTests :=
  [(0, within 1 (u32 b 0) 262144), (4, finAt b 4), (8, finAt b 8), (0x10, finAt b 0x10), (0x14, decide (u8 b 0x14 ≤ 3)),
   (0x15, zeros b 0x15 11)]

/-- R48, R60, R253, R262. -/
def loopD (b : List Byte) : FieldTests :=
  let l := LoopRec.ofBytes b
  let on := l.law != 0
  let f (o : Nat) : Rat := ratAt b o
  let imp (p q : Bool) : Bool := !p || q
  [(1, decide (l.law ≤ 5)), (2, imp on (decide (1 ≤ l.period))),
   (4, imp (within 1 l.law 4) (l.pvRef != 0xFFFFFFFF)), (8, imp on (decide (l.spSource ≤ 2))),
   (0xA, imp on (decide (l.fallback ≤ 3) && (l.fallback != 2 || bit l.flags 0))), (0xB, zeros b 0xB 1),
   (0xC, l.spSource != 0 || finAt b 0xC),
   (0x10, imp on ((l.outRef / 2 ^ 28 == 1 && within 1 (l.outRef % 16) 12) || l.outRef / 2 ^ 28 == 3)), (0x18, finAt b 0x18),
   (0x1C, finAt b 0x1C && imp (l.law == 2 || l.law == 3) (decide (0 < f 0x1C))),
   (0x20, finAt b 0x20 && imp (l.law == 3) (decide (0 ≤ f 0x20))), (0x24, finAt b 0x24),
   (0x28, finAt b 0x28 && imp on (decide (f 0x24 < f 0x28))), (0x2C, finAt b 0x2C && imp on (decide (0 ≤ f 0x2C))),
   (0x30, finAt b 0x30 && imp (on && l.fallback == 1) (decide (f 0x24 ≤ f 0x30 ∧ f 0x30 ≤ f 0x28))),
   (0x34, finAt b 0x34 && imp on (decide (0 ≤ f 0x34))), (0x38, finAt b 0x38),
   (0x3C, finAt b 0x3C && imp on (decide (0 ≤ f 0x3C)))]

/-- R281, R288: a copy list fits the data memory and has at most 1,024 entries. -/
def listFits (t : Timetable) (e off : Nat) : Bool :=
  let n := u32 (dataSec t e) off
  decide (n ≤ 1024) && decide (off + 8 + 8 * n ≤ 131072)

/-- R61, R281. -/
def taskD (t : Timetable) (b : List Byte) : FieldTests :=
  let r := TaskRec.ofBytes b
  let cyc := r.kind == 0
  [(0, decide (r.engine ≤ 7)), (1, decide (r.task ≤ 15)), (2, decide (r.priority ≤ 15)), (3, decide (r.kind ≤ 1)),
   (4, if cyc then decide (1 ≤ r.period) else r.period == 0),
   (6, if cyc then decide (r.offset < r.period) else r.offset == 0),
   (0x10, if cyc then r.edge == 0 else within 1 r.edge 3), (0x11, decide (r.trapPolicy ≤ 2)),
   (0x14, listFits t r.engine r.inList), (0x18, listFits t r.engine r.outList),
   (0x1C, r.stack % 8 == 0 &&
     (stackBase t r.engine r.task == 0xFFFFFFFF || decide (stackBase t r.engine r.task + r.stack ≤ 131072)))]

/-- R62, R63. -/
def eventClassD (b : List Byte) : FieldTests :=
  let e := EventClass.ofBytes b
  let mtr := e.code / 4096 == 12
  [(2, mtr || decide (e.mode ≤ 1)), (3, mtr || decide (e.severity ≤ 2)), (6, zeros b 6 2)]

/-- R64. -/
def securityD (b : List Byte) : FieldTests :=
  [(4, decide (u16 b 4 ≤ 168)), (6, within 1 (u16 b 6) 3600)] ++
  (List.range 4).map (fun i => (0xC + i, decide (u8 b (0xC + i) ≤ 2))) ++
  (List.range 8).map (fun i => (0x10 + i, decide (u8 b (0x10 + i) ≤ 1))) ++
  [(0x18, within 1 (u16 b 0x18) 8760), (0x1A, zeros b 0x1A 38)]

/-- R66, R497. -/
def redundancyD (b : List Byte) : FieldTests :=
  let r := Redundancy.ofBytes b
  [(0, decide (r.mode ≤ 1)), (1, decide (r.preferred ≤ 1)), (2, r.takeover != 1 && decide (r.takeover ≤ 1024)),
   (6, decide (r.swapMinute ≤ 1439)), (8, within 1 r.lanes 3), (9, decide (r.compare ≤ 1)), (0xC, zeros b 0xC 20)]

/-- R67, R281. `before` are the records before this one. -/
def retentiveD (before : List Retentive) (b : List Byte) : FieldTests :=
  let r := Retentive.ofBytes b
  let total := before.foldl (fun n x => n + x.length) r.length
  [(0, decide (r.engine ≤ 7)), (1, zeros b 1 3), (4, r.offset % 8 == 0),
   (8, r.length % 8 == 0 && decide (r.offset + r.length ≤ 131072) && decide (total ≤ 262144))]

/-- R68, R212. -/
def recipeD (b : List Byte) : FieldTests :=
  let r := Recipe.ofBytes b
  let win : Int := (r.endMin : Int) - (r.startMin : Int)
  let sum : Rat := (r.fraction.take r.bands).foldl (fun a w => a + f32RatD w) 0
  [(0, decide (r.recipe ≤ 31)), (1, within 1 r.bands 4), (2, zeros b 2 2), (4, finAt b 4),
   (8, finAt b 8 && decide ((win : Rat) ≤ ratAt b 8 * 60)), (0xC, decide (r.startMin < r.endMin)),
   (0xE, decide (r.endMin ≤ 1440)),
   (0x10, r.fraction.all f32IsFin && decide (-(1 / 10000) ≤ sum - 1 ∧ sum - 1 ≤ 1 / 10000)), (0x20, finAt b 0x20),
   (0x24, finAt b 0x24 && decide (ratAt b 0x24 * 60 ≤ 1440 - (win : Rat))), (0x28, zeros b 0x28 24)]

/-- R69. -/
def zoneD (b : List Byte) : FieldTests :=
  [(0, decide (u8 b 0 ≤ 63)), (4, finAt b 4), (8, finAt b 8),
   (0xC, finAt b 0xC && decide (0 ≤ ratAt b 0xC ∧ ratAt b 0xC ≤ 1)),
   (0x18, within 0x80 (u8 b 0x18) 0x87 || u8 b 0x18 == 0xFF), (0x19, zeros b 0x19 7)]

/-- R313, R315. -/
def codeD (b : List Byte) : FieldTests :=
  let te := u32 b 4
  let ls := u32 b 8
  let le := u32 b 0xC
  [(0, within 32 b.length 131072 && u32 b 0 == 0x20), (4, te % 4 == 0 && within 0x20 te b.length),
   (8, ls % 8 == 0 && decide (te ≤ ls)), (0xC, le % 8 == 0 && decide (ls ≤ le) && decide (le ≤ b.length)),
   (0x12, u16 b 0x12 == 1), (0x14, zeros b 0x14 12)]

/-- R314, R315. -/
def dataD (b : List Byte) : FieldTests :=
  [(0, within 72 b.length 131072 && u32 b 0 == b.length), (4, zeros b 4 4)] ++
  (List.range 16).map (fun k =>
    (8 + 4 * k, u32 b (8 + 4 * k) == 0xFFFFFFFF || u32 b (8 + 4 * k) % 8 == 0))

/-! ### Routes (R229 to R235) -/

/-- The supernode of a column. -/
def superOf (r : Route) (c : Nat) : SuperRec := (r.supers.find? (fun s => decide (s.col ≤ c ∧ c < s.col + s.w))).getD {}

/-- R230: the rows of a supernode. -/
def superRows (r : Route) (s : SuperRec) : List Nat := slice r.rows s.rowsIx s.r

/-- Strictly ascending. -/
def ascending : List Nat → Bool
  | a :: b :: rest => decide (a < b) && ascending (b :: rest)
  | _ => true

/-- R231: supernodes partition `dim` columns in ascending order without gaps, from a column on. -/
def superChain : List SuperRec → Nat → Nat → Bool
  | [], c, dim => c == dim
  | s :: rest, c, dim => s.col == c && within 1 s.w 64 && s.zero == 0 && superChain rest (c + s.w) dim

/-- R230: the factor index of a row of a column, from its supernode's panel. -/
def factorIx (r : Route) (c row : Nat) : Option Nat :=
  let s := superOf r c
  ((superRows r s).findIdx? (fun x => x == row)).map (fun k => s.panel + (c - s.col) * s.r + k)

/-- R230, R231: the K entries of a column begin with its diagonal, lie in the lower triangle and name their places in the
factor area. -/
def columnOk (r : Route) (c : Nat) : Bool :=
  let a := nth r.kcol c 0
  let es := slice r.kent a (nth r.kcol (c + 1) 0 - a)
  (es.head?.map (fun e => e.1 == c)).getD false &&
  es.all (fun e => decide (c ≤ e.1) && decide (e.1 < r.dim) && factorIx r c e.1 == some e.2)

/-- R230, R231: the supernode table. -/
def supersOk (r : Route) : Bool :=
  superChain r.supers 0 r.dim &&
  r.supers.all (fun s => decide (s.w ≤ s.r) && decide (s.rowsIx + s.r ≤ r.rowTotal) &&
    decide (s.panel + s.r * s.w ≤ r.nnzL)) &&
  r.supers.foldl (fun n s => n + s.r * s.w) 0 == r.nnzL &&
  (let ps := sortBy (fun (s : SuperRec) => s.panel) r.supers
   (ps.zip (ps.drop 1)).all (fun p => decide (p.1.panel + p.1.r * p.1.w ≤ p.2.panel)))

/-- R230: the row lists. -/
def rowsOk (r : Route) : Bool :=
  r.supers.all (fun s =>
    let xs := superRows r s
    ascending xs && xs.all (fun x => decide (x < r.dim)) && xs.take s.w == (List.range s.w).map (fun k => s.col + k))

/-- R233: the fields of a record. -/
def recOk (r : Route) (x : FabRec) : Bool :=
  x.flags == 0 && x.res == 0 &&
  (match x.op with
   | 1 => x.cols == 0 && x.rowFirst == 0 && x.rows == 0
   | 2 =>
     let s := nth r.supers x.p {}
     let t := nth r.supers x.q {}
     let rows := superRows r s
     let inT (v : Nat) : Bool := decide (t.col ≤ v ∧ v < t.col + t.w)
     decide (x.p < x.q) && decide (x.q < r.nSuper) && within 1 x.cols 64 && inT (nth rows x.rowFirst r.dim) &&
     (rows.take x.rowFirst).all (fun v => !inT v) && x.cols == (rows.filter inT).length && x.rows + x.rowFirst == s.r
   | 3 => x.cols == 0 && x.q == 0 && x.rowFirst == 0 && x.rows == 0
   | 0xF => x.cols == 0 && x.p == 0 && x.q == 0 && x.rowFirst == 0 && x.rows == 0
   | _ => false)

/-- R234: LOAD records over every column, UPDATE records and FACTOR of each supernode in order, one END. -/
def progOrder (r : Route) : List FabRec → Nat → Nat → Bool
  | [], _, _ => false
  | x :: rest, col, sn =>
    match x.op with
    | 1 => sn == 0 && x.p == col && decide (1 ≤ x.q) && progOrder r rest (col + x.q) sn
    | 2 => col == r.dim && x.q == sn && progOrder r rest col sn
    | 3 => col == r.dim && x.p == sn && progOrder r rest col (sn + 1)
    | _ => x.op == 0xF && col == r.dim && sn == r.nSuper && rest.isEmpty

/-- R232: the value map covers arrays 1, 2, 8 and 9 (kind 0: 2 and 8), ascending, and negates only array 9. -/
def vmapOk (r : Route) : Bool :=
  let want : List (Nat × Nat) := if r.kind = 0 then [(2, r.nnzA), (8, r.n)] else [(1, r.nnzH), (2, r.nnzA), (8, r.n), (9, r.m)]
  ascending (r.vmap.map (·.1)) &&
  r.vmap.all (fun v => decide (v.2.1 < r.nnzK) && (!v.2.2 || v.1 / 2 ^ 28 == 9) &&
    want.any (fun w => v.1 / 2 ^ 28 == w.1 && decide (v.1 % 2 ^ 28 < w.2))) &&
  r.mapCount == want.foldl (fun n w => n + w.2) 0

/-- R230: the permutation: every original row once, with the sign of its half. -/
def permOk (r : Route) : Bool :=
  r.perm.all (fun p => decide (p.1 < r.dim) && p.2 == decide (r.n ≤ p.1)) &&
  ascending (sortBy id (r.perm.map (·.1)))

/-- R248: the largest cost of a record, its drain counted. -/
def maxRecord (r : Route) : Nat :=
  (r.prog.foldl (fun (a : Nat × (Nat × Nat)) x =>
    (max a.1 (recCycles r x + drainCycles a.2 x), recWrites r x)) (0, (0, 0))).1

/-- R248: B_it with refine_max 2. -/
def iterBound (r : Route) : Nat :=
  intakeCycles (r.n + r.m) + progCycles r + 2 * 3 * (2 * passCost r + diagCost r + residCost r)

/-- R229 to R235: the offsets are those of the header's fields. -/
def routeD (kind inst : Nat) (b : List Byte) : FieldTests :=
  let r := Route.ofBytes b
  let sizes := [4 * r.dim, 4 * (r.dim + 1), 8 * r.nnzK, 16 * r.nSuper, 4 * r.rowTotal, 16 * r.nRec, 8 * r.mapCount, 4 * r.valueSize]
  let apart (o len : Nat) (p : Nat × Nat) : Bool :=
    decide (len = 0 ∨ p.2 = 0 ∨ u32 b o + len ≤ u32 b p.1 ∨ u32 b p.1 + p.2 ≤ u32 b o)
  let tab (o sz n : Nat) : Bool :=
    decide (u32 b o + sz * n ≤ b.length) && u32 b o % 8 == 0 && decide (96 ≤ u32 b o) &&
    ((([0x30, 0x34, 0x38, 0x3C, 0x40, 0x44, 0x48, 0x4C].zip sizes).filter (fun p => decide (p.1 < o))).all (apart o (sz * n)))
  let tables := decide (r.dim ≤ 262144) && tab 0x30 4 r.dim && tab 0x34 4 (r.dim + 1) && tab 0x38 8 r.nnzK &&
    tab 0x3C 16 r.nSuper && tab 0x40 4 r.rowTotal && tab 0x44 16 r.nRec && tab 0x48 8 r.mapCount &&
    tab 0x4C 4 r.valueSize
  [(0, decide (96 ≤ b.length) && r.kind == kind), (1, r.inst == inst), (2, zeros b 2 2),
   (4, r.dim == r.n + r.m && decide (r.dim ≤ 262144)), (0x10, kind != 0 || r.nnzH == 0),
   (0x30, tab 0x30 4 r.dim && (!tables || permOk r)),
   (0x34, tab 0x34 4 (r.dim + 1) && (!tables || (nth r.kcol 0 1 == 0 && nth r.kcol r.dim 0 == r.nnzK && ascending r.kcol))),
   (0x38, tab 0x38 8 r.nnzK && (!tables || (List.range r.dim).all (columnOk r))),
   (0x3C, tab 0x3C 16 r.nSuper && (!tables || (supersOk r &&
     r.supers.all (fun s => decide (48 + ceilDiv s.r 64 * s.w ≤ 16000))))),
   (0x40, tab 0x40 4 r.rowTotal && (!tables || rowsOk r)),
   (0x44, tab 0x44 16 r.nRec && (!tables || (r.prog.all (recOk r) && progOrder r r.prog 0 0 &&
     decide (maxRecord r ≤ 16000)))),
   (0x48, tab 0x48 8 r.mapCount && (!tables || vmapOk r)), (0x4C, tab 0x4C 4 r.valueSize && (!tables || r.base.all f32IsFin)),
   (0x50, !tables || (r.facCycles == progCycles r && (kind == 0 || decide (iterBound r ≤ 26400000)))),
   (0x54, !tables || r.passCycles == passCost r), (0x58, zeros b 0x58 8)]

/-! ### Problem map (R185, R190 to R195) -/

/-- R190: a table of the problem map: `n` records of `sz` bytes at the offset that the header's field `o` gives. -/
def mapTable (b : List Byte) (o sz n : Nat) : List (List Byte) := (List.range n).map (fun k => slice b (u32 b o + sz * k) sz)

/-- R191. -/
def mapRoutes (b : List Byte) : List (List Byte) := mapTable b 0x14 32 (u16 b 4)
/-- R192. -/
def mapSwitches (b : List Byte) : List (List Byte) := mapTable b 0x18 16 (u16 b 6)
/-- R193. -/
def mapRuns (b : List Byte) : List (List Byte) := mapTable b 0x1C 12 (u32 b 0xC)
/-- R194. -/
def mapSources (b : List Byte) : List (List Byte) := mapTable b 0x20 32 (u32 b 0x10)
/-- R195. -/
def mapOuts (b : List Byte) : List (List Byte) := mapTable b 0x24 16 (u16 b 8)

/-- R185, R190. -/
def mapHeadD (b : List Byte) : FieldTests :=
  let tab (o sz n : Nat) : Bool := decide (u32 b o + sz * n ≤ b.length)
  [(0, decide (0x30 ≤ b.length) && within 24 (u16 b 0) 192), (2, [5, 10, 15, 20, 30, 60].contains (u16 b 2)),
   (4, decide (u16 b 4 ≤ 16)), (6, decide (u16 b 6 ≤ 32)), (8, decide (u16 b 8 ≤ 512)), (0xA, zeros b 0xA 2),
   (0x14, tab 0x14 32 (u16 b 4)), (0x18, tab 0x18 16 (u16 b 6)), (0x1C, tab 0x1C 12 (u32 b 0xC)),
   (0x20, tab 0x20 32 (u32 b 0x10)), (0x24, tab 0x24 16 (u16 b 8)), (0x28, zeros b 0x28 8)]

/-- R185, R191. -/
def mapRouteD (m b : List Byte) : FieldTests :=
  [(0, decide (u8 b 0 ≤ 15)), (1, zeros b 1 1), (0xC, decide (u32 b 0xC ≤ 65536)), (0x10, decide (u32 b 0x10 ≤ 98304)),
   (0x14, decide (u32 b 0x14 + u16 b 2 ≤ u32 m 0xC)), (0x18, decide (u32 b 0x18 + u32 b 0x1C ≤ u32 m 0x10)),
   (0x1C, decide (u32 b 0x1C ≤ 65535))]

/-- R192. -/
def mapSwitchD (b : List Byte) : FieldTests :=
  let lag := u8 b 1 == 1
  [(0, decide (u8 b 0 ≤ 31)), (1, decide (u8 b 1 ≤ 1)), (2, decide (u8 b 2 + u8 b 3 ≤ 32)),
   (3, if lag then within 1 (u8 b 3) 4 else u8 b 3 == 1), (8, if lag then zeros b 8 4 else finAt b 8), (0xE, zeros b 0xE 2)]

/-- R193. -/
def mapRunD (b : List Byte) : FieldTests := [(8, decide (1 ≤ u16 b 8)), (0xA, zeros b 0xA 2)]

/-- R194. -/
def mapSourceD (b : List Byte) : FieldTests :=
  [(0, decide (u8 b 0 ≤ 6)), (1, decide (u8 b 1 ≤ 5)), (0xC, finAt b 0xC), (0x10, finAt b 0x10), (0x14, finAt b 0x14),
   (0x1A, decide (u8 b 0x1A ≤ 1)), (0x1C, zeros b 0x1C 4)]

/-- R195. -/
def mapOutD (b : List Byte) : FieldTests :=
  [(0, decide (u16 b 0 ≤ 511)), (2, decide (u8 b 2 ≤ 1)), (3, zeros b 3 1), (4, zeros b 4 1), (8, finAt b 8), (0xC, finAt b 0xC)]

/-! ### The limit check -/

/-- The outcome of a check that failed (R75, R631). -/
structure Verdict where
  code : Nat := 0
  section_ : Nat := 0
  index : Nat := 0
  offset : Nat := 0
  deriving DecidableEq, Repr, Inhabited

/-- The first record at fault, given each record's tests. -/
def recordsBad (code id : Nat) (ts : List FieldTests) : Option Verdict :=
  (ts.zipIdx.findSome? (fun x => (firstBad x.1).map (fun o => ⟨code, id, x.2, o⟩)))

/-- The tests of records that look back at the records before them. -/
def withBefore {α : Type} (recs : List (List Byte)) (rd : List Byte → α) (f : List α → List Byte → FieldTests) :
    List FieldTests :=
  recs.zipIdx.map (fun x => f ((recs.take x.2).map rd) x.1)

/-- The tests of the records of a section. -/
def limitTests (t : Timetable) (x : Sec) : List FieldTests :=
  let rs := x.records
  match x.id with
  | 0x0001 => rs.map planD
  | 0x0002 => rs.map (platformD t)
  | 0x0003 => withBefore rs Channel.ofBytes (channelD t)
  | 0x0004 => rs.map meterD
  | 0x0005 => rs.map (lineD t)
  | 0x0006 => rs.map rosterD
  | 0x0007 => rs.map nodeD
  | 0x0008 => withBefore rs Element.ofBytes elementD
  | 0x0009 => rs.map trackerD
  | 0x000A => rs.map loopD
  | 0x000B => rs.map (taskD t)
  | 0x000C => rs.map eventClassD
  | 0x000D => rs.map securityD
  | 0x000E => rs.map redundancyD
  | 0x000F => withBefore rs Retentive.ofBytes retentiveD
  | 0x0010 => rs.map recipeD
  | 0x0011 => rs.map zoneD
  | 0x0100 => [codeD x.payload]
  | 0x0101 => [dataD x.payload]
  | 0x0110 => [routeD 0 x.inst x.payload]
  | 0x0111 => [routeD 1 x.inst x.payload]
  | _ => []

/-- The problem map: the header, then each table (indices count within a table; log entry 20). -/
def mapLimits (x : Sec) : Option Verdict :=
  let m := x.payload
  let bad (ts : List FieldTests) : Option Verdict := recordsBad 0xD 0x0112 ts
  (bad [mapHeadD m]).orElse fun _ => (bad ((mapRoutes m).map (mapRouteD m))).orElse fun _ =>
    (bad ((mapSwitches m).map mapSwitchD)).orElse fun _ => (bad ((mapRuns m).map mapRunD)).orElse fun _ =>
      (bad ((mapSources m).map mapSourceD)).orElse fun _ => bad ((mapOuts m).map mapOutD)

/-- The count of a section against R45; one of the sections of a single record needs its record.
DESIGN CHOICE (log entry 88): a single-record section with count 0 fails here. -/
def countBad (x : Sec) : Option Verdict :=
  match secRule x.id with
  | some r =>
    if r.recSize = 0 then none
    else if r.max < x.count then some ⟨0xD, x.id, r.max, 0⟩
    else if r.max = 1 ∧ x.count = 0 then some ⟨0xD, x.id, 0, 0⟩
    else none
  | none => none

/-- Code 0xD: sections in ascending order, then the stores of R236 and R237 (reported at the hydraulic route). -/
def limitCheck (t : Timetable) (xs : List Sec) : Option Verdict :=
  (xs.findSome? (fun x =>
    (countBad x).orElse fun _ =>
      if x.id = 0x0112 then mapLimits x else recordsBad 0xD x.id (limitTests t x))).orElse fun _ =>
    if 8388608 < patFill t ∨ 8388608 < fsFill t then some ⟨0xD, 0x0110, 0, 0⟩ else none

end Sys2Proof.Machine
end

