-- ==== Sys2Proof/Machine/Regs.lean ====
section
/-! DEFINITION. Host writes to block registers: how a word is judged (R5, R64, R505, R585, R630 and each chapter's field
ranges), what is staged (R454 to R456), and what a performed write does (R5 and the registers with effects of their
own). The command registers of DEV, JNL, RED and HIF have their effects in files above this one. -/

namespace Sys2Proof.Machine

/-- The state after a meaning. -/
def after (r : Result) (s : State) : State :=
  match r with
  | .next t => t
  | _ => s

/-- The place of an address in a bank of registers. -/
def bankIx (base stride n a : Nat) : Option Nat :=
  if base ≤ a ∧ (a - base) % stride = 0 ∧ (a - base) / stride < n then some ((a - base) / stride) else none

/-- The bank number and the offset within a bank of `n` groups of registers. -/
def bankOf (base stride n a : Nat) : Option (Nat × Nat) :=
  if base ≤ a ∧ (a - base) / stride < n then some ((a - base) / stride, (a - base) % stride) else none

/-- A register has a field of one of the given types. -/
def regHas (r : RegDef) (p : FType → Bool) : Bool := r.fields.any (fun f => p f.type)

/-- RW and RWH. -/
def isRw (f : FType) : Bool := f == .rw || f == .rwh

/-- R455: the selector registers. -/
def selectors : List Nat := [Reg.SLK_STN_SEL, Reg.CHN_SEL, Reg.MTR_TAR_SEL, Reg.MTR_SEL, Reg.MTR_IVL_SEL]

/-! ### Field ranges -/

/-- A binary32 value inside closed bounds. -/
def f32In (lo hi : Rat) (w : Word) : Bool := f32IsFin w && decide (lo ≤ f32RatD w) && decide (f32RatD w ≤ hi)

/-- The ranges that the blocks' register tables state for registers DEV to FTR. -/
def rangeLow (a : Nat) (w : Word) : Option Bool :=
  if a = Reg.PWR_CTL then some (within 3 (field w 3 0) 15 && within 1 (field w 23 16) 255)
  else if a = Reg.PWR_PFW then some (within 2 (field w 5 0) 50 && within 10 (field w 15 8) 255)
  else if a = Reg.MEM_CTL then some (within 0 (field w 4 0) 16)
  else if a = Reg.SLK_JOIN_LIM then some (decide (16 ≤ field w 15 0))
  else if a = Reg.HYD_CTL then some (within 1 (field w 3 0) 8)
  else if a = Reg.HYD_RLIM_N then some (decide (1 ≤ field w 7 0))
  else if a = Reg.FTR_CTL then some (within 0 (field w 12 0) 7200)
  else
    match bankIx Reg.PWR_NLS_REF 0x10 32 a with
    | some _ => some (w == 0xFFFFFFFF#32 || w.toNat / 2 ^ 28 == 0 || w.toNat / 2 ^ 28 == 5)
    | none => (bankIx Reg.PWR_NLS_FAC 0x10 32 a).map (fun _ => f32IsFin w && decide (0 ≤ f32RatD w))

/-- A signed 16-bit offset in minutes between −720 and 840 (R223, R397). -/
def minutesOk (v : Nat) : Bool :=
  let x := (BitVec.ofNat 16 v).toInt
  decide (-720 ≤ x ∧ x ≤ 840)

/-- The ranges of OPT, SLV, CE, RED and MGT. -/
def rangeMid (a : Nat) (w : Word) : Option Bool :=
  if a = Reg.OPT_CTL then some (decide (1 ≤ field w 15 8) && decide (1 ≤ field w 23 16))
  else if a = Reg.OPT_COVTH then some (f32In 0 1 w)
  else if a = Reg.OPT_ACC then some (decide (1 ≤ field w 7 0))
  else if a = Reg.OPT_LAG then some (within 0 (field w 5 0) 49)
  else if a = Reg.OPT_LOCAL then some (minutesOk (field w 15 0))
  else if a = Reg.SLV_TAU then some (f32In (1 / 2 ^ 40) (1 / 2 ^ 4) w)
  else if a = Reg.SLV_DPIV then some (f32In (1 / 2 ^ 40) 1 w)
  else if a = Reg.SLV_RTOL then some (f32In (1 / 2 ^ 30) (1 / 2 ^ 4) w)
  else if a = Reg.CE_RET_CTL then some (within 10 (field w 15 0) 3600)
  else if a = Reg.RED_CTL then some (within 0 (field w 4 0) 24)
  else if a = Reg.MGT_WDG then some (within 50 (field w 10 0) 2000)
  else if a = Reg.MGT_CAL_LEAP then some (within 0 (field w 17 16) 2)
  else if a = Reg.MGT_TLIM then some (f32In 60 110 w)
  else if a = Reg.MGT_EVR_CTL then some (field w 11 0 == 0 || within 10 (field w 11 0) 3600)
  else (bankIx Reg.OPT_FC_CTL 8 32 a).map (fun _ => within 0 (field w 8 0) 256)

/-- The ranges of LPE's units and of MTR. -/
def rangeHigh (a : Nat) (w : Word) : Option Bool :=
  if a = Reg.MTR_SAVE then some (within 10 (field w 11 0) 3600)
  else if a = Reg.MTR_DAYOFS then some (minutesOk (field w 15 0))
  else if a = Reg.MTR_TAR_SEL then some (within 0 (field w 6 4) 6)
  else if a = Reg.MTR_SEL then some (within 0 (field w 6 0) 71)
  else if a = Reg.MTR_IVL_SEL then some (within 0 (field w 6 0) 71 && within 0 (field w 14 8) 95)
  else if (bankIx Reg.MTR_TPW 4 72 a).isSome then some (within 1 (field w 19 0) 1000000)
  else
    match bankOf Reg.LPE_CAP_CTL 0x20 4 a with
    | some (_, 0x00) => some (within 0 (field w 13 12) 2 && decide (1 ≤ field w 31 16))
    | some (_, 0x04) => some ((List.range 4).all (fun k => decide (field w (8 * k + 3) (8 * k) ≤ 9)))
    | some (_, 0x0C) => some (within 1 (field w 14 0) 16384)
    | some _ => none
    | none =>
      match bankOf Reg.LPE_INJ_CTL 0x20 4 a with
      | some (_, 0x00) => some (decide (7 ≤ field w 19 16) && decide (1 ≤ field w 31 24))
      | some (_, 0x10) => some (within 1 w.toNat 4194304)
      | some _ => none
      | none => none

/-- R585 reason 5: the written word lies within the ranges that its register's chapter states. -/
def rangeOk (a : Nat) (w : Word) : Bool :=
  (rangeLow a w).getD ((rangeMid a w).getD ((rangeHigh a w).getD true))

/-! ### Judging a write -/

/-- R630: the write would change an RWH field although the device is in neither HOLD nor READY. -/
def rwhBlocked (s : State) (r : RegDef) (a : Nat) (w : Word) : Bool :=
  s.dev.mode != .hold && s.dev.mode != .ready && ((w ^^^ getReg s a) &&& regMask r (· == .rwh)) != 0#32

/-- The refusals that follow from a value together with what else is in force in `f`, or from a unit's state: a reason of
R585, 0 for none. `direct` says that the write is no entry of a transaction. -/
def valueReason (a : Nat) (w : Word) (direct : Bool) (s f : State) : Nat :=
  match lpeBank a with
  | some (k, off) => if loopRefuses (theTt f) (coefGet f k) k off w then 5 else 0
  | none =>
    match bankOf Reg.LPE_CAP_CTL 0x20 4 a with
    | some (c, off) => if capBusy s c && !(off == 0 && w.getLsbD 9) then 1 else 0
    | none =>
      match bankOf Reg.LPE_INJ_CTL 0x20 4 a with
      | some (c, off) =>
        if (nth s.lpe.inj c {}).running && !(off == 0 && w.getLsbD 13) then 1
        else if off = 0 ∧ w.getLsbD 12 ∧ injRefuses c w f then 5
        else 0
      | none =>
        if a = Reg.SLV_CTL ∧ w.getLsbD 8 ∧ ¬ selftestOk s then 1
        else if direct ∧ ((bankIx Reg.MTR_TAR_D 4 3 a).isSome ∨ a = Reg.MTR_DAYOFS) ∧ s.dev.mode = .run then 1
        else if direct ∧ (a = Reg.MTR_TAR_D + 8 ∨ a = Reg.MTR_DAYOFS) ∧ logFull s then 5
        else if a = Reg.HIF_MB_CMD ∧ s.hif.mbState = 1 then 1
        else 0

/-- R268: a write at address `a` is judged by the conditions on a loop's coefficients: the loop exists, and a setpoint is its
own. -/
def loopJudges (s : State) (a : Nat) : Bool :=
  match lpeBank a with
  | some (k, off) => match loopOf s k with
    | some r => decide (0x08 ≤ off ∧ off ≤ 0x30) && (off != 0x20 || r.spSource == 0)
    | none => false
  | none => false

/-- R278: the register lies in the bank of a loop that is off. -/
def lpeOff (s : State) (a : Nat) : Bool :=
  match lpeBank a with
  | some (k, _) => (loopOf s k).isNone
  | none => false

/-- The mailbox registers: the mailbox's own rules govern their writes in every state (R591). -/
def mailboxReg (a : Nat) : Bool := a == Reg.HIF_MB_CMD || a == Reg.HIF_MB_DOOR || a == Reg.HIF_MB_ACK

/-- R585: the reason for which the write of a register word is refused, 0 when it is performed. A register that does not
exist ignores the write (R474). -/
def writeReason (a : Nat) (w : Word) (s : State) : Nat :=
  match regFind a with
  | none => 0
  | some r =>
    let b := a / 0x10000
    let rw := regHas r isRw
    if s.dev.mode = .run ∧ rw ∧ ¬ writeMaskBit s b then 3
    else if s.dev.mode = .run ∧ rw ∧ secFlag s 3 ∧ s.tx.st ≠ 1 ∧ !mailboxReg a then 4
    else if s.dev.mode = .standby ∧ 4 ≤ b ∧ b ≤ 12 ∧ (rw || regHas r (· == .wo)) then 1
    else if a = Reg.HIF_MB_DOOR ∧ s.hif.mbState ≠ 0 then 1
    else if lpeOff s a then 5
    else if !rw then 0
    else if rwhBlocked s r a w then 1
    else if !rangeOk a w then 5
    else valueReason a w true s s

/-- What a refusal leaves besides the host's answer: LPE_CAUSE.refused (R268), MTR_CAUSE.log_full, and a patch that
host_write_mask refuses (R301). -/
def refuseEffect (a : Nat) (w : Word) (reason : Nat) (s : State) : State :=
  if reason = 5 ∧ loopJudges s a then cause Reg.LPE_CAUSE 1 s
  else if reason = 5 ∧ (a = Reg.MTR_TAR_D + 8 ∨ a = Reg.MTR_DAYOFS) ∧ logFull s then cause Reg.MTR_CAUSE 5 s
  else if reason = 3 ∧ a = Reg.CE_PATCH_CTL ∧ w.getLsbD 16 then
    causeS Reg.CE_CAUSE 5 (taskId (field w 2 0) (field w 7 4))
      (setFld Reg.CE_PATCH_CTL 23 20 6 (setFld Reg.CE_PATCH_CTL 19 18 3 s))
  else s

/-! ### Staging (R454 to R456) -/

/-- R454: the register is staged while a transaction is open. -/
def stages (s : State) (a : Nat) : Bool :=
  let b := a / 0x10000
  s.tx.st == 1 && (b == 1 || (decide (3 ≤ b) && decide (b ≤ 13))) &&
    (match regFind a with
     | some r => regHas r isRw
     | none => false)

/-- Append an entry to the staged set. -/
def stage (a : Nat) (w : Word) (s : State) : State :=
  { s with tx := { s.tx with entries := s.tx.entries ++ [(a, w)], idleTicks := 0 } }

/-! ### Performing a write -/

/-- A register's word after a host write of `w`: RW and RWH fields take the written bits, W1C bits written with 1 are
cleared, RO and WO fields stay (R5). -/
def regWritten (r : RegDef) (old w : Word) : Word :=
  let m := regMask r isRw
  let c := regMask r (· == .w1c)
  ((old &&& ~~~ m) ||| (w &&& m)) &&& ~~~ (c &&& w)

/-- What a write of a loop bank register does beside its fields: a write of reinit (R264). -/
def loopEffect (k off : Nat) (w : Word) (s : State) : State :=
  if off = 0 ∧ w.getLsbD 1 then loopSet k { loopGet s k with reinit := true } s else s

/-- Start and stop of a capture unit (R274, R276). -/
def capEffect (c off : Nat) (w : Word) (s : State) : State :=
  if off ≠ 0 then s
  else
    let s1 := if w.getLsbD 9 then capStop c s else s
    if w.getLsbD 8 then capStart c s1 else s1

/-- Start and stop of an injector (R272, R277). -/
def injEffect (c off : Nat) (w : Word) (s : State) : State :=
  if off ≠ 0 then s
  else
    let s1 := if w.getLsbD 13 then injAbort c s else s
    if w.getLsbD 12 then injStart c s1 else s1

/-- What writes to LPE's registers do beside their fields. -/
def lpeEffect (a : Nat) (w : Word) (s : State) : State :=
  match lpeBank a with
  | some (k, off) => loopEffect k off w s
  | none =>
    match bankOf Reg.LPE_CAP_CTL 0x20 4 a with
    | some (c, off) => capEffect c off w s
    | none =>
      match bankOf Reg.LPE_INJ_CTL 0x20 4 a with
      | some (c, off) => injEffect c off w s
      | none => s

/-- What writes to CE's registers do beside their fields (R301, R304, R306). -/
def ceEffect (a : Nat) (w : Word) (s : State) : State :=
  if a = Reg.CE_CMD then ceCommand w s
  else if a = Reg.CE_PATCH_CTL ∧ w.getLsbD 16 then
    patchSubmit (s.dev.mode == .run && !writeMaskBit s 10) s
  else if a = Reg.CE_RET_CTL ∧ w.getLsbD 16 then retRequest s
  else s

/-- What writes to MTR's registers do beside their fields (R384, R395, R398 to R400). -/
def mtrEffect (a : Nat) (w : Word) (s : State) : State :=
  if a = Reg.MTR_TAR_SEL then tariffSelect w s
  else if a = Reg.MTR_TAR_D + 8 then tariffApply w s
  else if a = Reg.MTR_SEL then mtrSelect w s
  else if a = Reg.MTR_IVL_SEL then mtrIvlSelect w s
  else if a = Reg.MTR_SAVE ∧ w.getLsbD 16 then totalsCommand s
  else s

/-- What writes to MGT's registers do beside their fields (R533, R540, R543). -/
def mgtEffect (a : Nat) (w : Word) (s : State) : State :=
  if a = Reg.MGT_CAL_CMD ∧ field w 1 0 = 1 then after (execCalSet (field w 31 16) s) s
  else if a = Reg.MGT_CAL_CMD ∧ field w 1 0 = 2 then after (execCalInvalidate (field w 31 16) s) s
  else if a = Reg.MGT_EVR_CTL ∧ w.getLsbD 16 then evFlush false s
  else if a = Reg.MGT_SNAP_CTL ∧ w.getLsbD 0 then after (execSnapFire s) s
  else s

/-- The effects of the registers with a behaviour of their own. -/
def regEffect (a : Nat) (w : Word) (s : State) : State :=
  match a / 0x10000 with
  | 1 =>
    match bankIx Reg.PWR_DOM 4 17 a with
    | some i => domRequest (i + 1) .force (w.getLsbD 4) s
    | none => s
  | 5 => if a = Reg.HYD_CTL ∧ w.getLsbD 8 then { s with hyd := { s.hyd with coldDue := true } } else s
  | 7 => if a = Reg.OPT_CTL ∧ w.getLsbD 2 then { s with opt := { s.opt with cold := true } } else s
  | 8 => if a = Reg.SLV_CTL ∧ w.getLsbD 8 then selftestStart s else s
  | 9 => lpeEffect a w s
  | 10 => ceEffect a w s
  | 12 => mtrEffect a w s
  | 14 => mgtEffect a w s
  | _ => s

/-- R250: bits of a register that are never stored although their field is writable: SLV_CTL.selftest reads as 0. -/
def storeMask (a : Nat) (w : Word) : Word := if a = Reg.SLV_CTL then setField w 8 8 0 else w

/-- A write that has passed its judgement is performed: the fields first, then the register's own effect. MTR_DAYOFS and
the tariff data change with their log record (R395). -/
def applyReg (a : Nat) (w : Word) (s : State) : State :=
  match regFind a with
  | none => s
  | some r =>
    if a = Reg.MTR_DAYOFS then dayofsApply w s
    else regEffect a w (setReg a (regWritten r (getReg s a) (storeMask a w)) s)

/-- What an entry of a transaction does at the commit boundary: what the write would do; a staged patch is judged as one
(R302). -/
def applyEntry (a : Nat) (w : Word) (s : State) : State :=
  if a = Reg.CE_PATCH_CTL ∧ w.getLsbD 16 then
    match regFind a with
    | none => s
    | some r => patchEnter true false (setReg a (regWritten r (getReg s a) (storeMask a w)) s)
  else applyReg a w s

/-! ### Which domain serves an access (R412, R628) -/

/-- The domain that must be ON for an access to a block register or a memory (R404 numbers). -/
def servingDomain (a : Nat) : Nat :=
  if a < 0x100000 then
    match a / 0x10000 with
    | 4 => 2
    | 5 => 3
    | 6 => 3
    | 7 => 4
    | 8 => 5
    | 9 => 6
    | 10 =>
      let o := a % 0x10000
      if 0x1000 ≤ o ∧ (o - 0x1000) / 0x200 < 8 then 7 + (o - 0x1000) / 0x200 else 1
    | 11 =>
      let o := a % 0x10000
      if (0x1000 ≤ o ∧ o < 0x1400) ∨ (0x1800 ≤ o ∧ o < 0x1A00) then 1 else 15
    | 12 => 16
    | 13 => 17
    | _ => 1
  else if 0x200000 ≤ a ∧ a < 0x400000 then 7 + (a - 0x200000) / 0x40000 % 8
  else if 0x1800000 ≤ a ∧ a < 0x1C00000 then 3
  else if 0x1C00000 ≤ a ∧ a < 0x1D00000 then 6
  else if 0x2000000 ≤ a ∧ a < 0x4800000 then 5
  else 1

end Sys2Proof.Machine
end

