-- ==== Sys2Proof/Machine/TTCheck.lean ====
section
/-! DEFINITION. The check of a timetable image (R75): the reference checks, code 0xE, the checks 0x1 to 0xC before
the limits, the meter baseline of R53, and the slot reports (R83, R84, R631). -/

namespace Sys2Proof.Machine

/-! ### References (R47, R340) -/

/-- A reference that names a word, and no CO word of a channel that has no output. -/
def refOk (t : Timetable) (ref : Nat) : Bool :=
  t.refValid ref && (ref / 2 ^ 28 != 3 || (match t.chan (ref % 2 ^ 28) with
    | some c => within 16 c.mode 19
    | none => false))

/-- A reference or none. -/
def refOrNone (t : Timetable) (ref : Nat) : Bool := ref == 0xFFFFFFFF || refOk t ref

/-- R11, R100, R106: an SO value field: u0 to u4 of a headed station; v0 to v11 of the device's own number on a line where it
is a station. -/
def soField (t : Timetable) (i : Nat) : Bool :=
  match t.stn (i / 16) with
  | some r => within 1 (i % 16) (if (t.line r.line).mode = 3 then 12 else 5)
  | none => false

/-- R11, R253: an output that can have an owner: an SO value field or the CO word of an output channel. -/
def refOutput (t : Timetable) (ref : Nat) : Bool :=
  (ref / 2 ^ 28 == 3 || (ref / 2 ^ 28 == 1 && soField t (ref % 2 ^ 28))) && refOk t ref

/-- R106, R288: what a task can own: an output, or the command word of a station with its identify bit. -/
def refTaskOutput (t : Timetable) (ref : Nat) : Bool :=
  refOutput t ref || (ref / 2 ^ 28 == 1 && ref % 16 == 0 && refOk t ref)

/-! ### Records -/

/-- R347, R341. -/
def channelE (t : Timetable) (before : List Channel) (b : List Byte) : FieldTests :=
  let c := Channel.ofBytes b
  let wired := c.mode == 4 || c.mode == 5
  [(0, !before.any (fun x => x.channel == c.channel)), (4, c.mode != 20 || (t.meter c.p0).isSome),
   (0xC, bit c.flags 1 == wired),
   (0xE, if wired then c.channel % 2 == 0 && c.partner == c.channel + 1 && (t.chan (c.channel + 1)).isNone
         else c.partner == 0xFFFF)]

/-- The channels a meter names (R367, R368). -/
def meterChannels (m : Meter) : List Nat :=
  if m.source = 1 then []
  else if m.cls = 3 then (List.range 3).flatMap (fun k => [m.inA + k, m.inB + k])
  else [m.inA % 65536, m.inB, m.inC] ++ (if m.inA / 65536 = 0xFFFF then [] else [m.inA / 65536])

/-- R367 to R369. -/
def meterE (t : Timetable) (before : List Meter) (b : List Byte) : FieldTests :=
  let m := Meter.ofBytes b
  let used := before.flatMap meterChannels
  let mode (c : Nat) (ms : List Nat) : Bool :=
    (match t.chan c with
     | some r => ms.contains r.mode
     | none => false) && !used.contains c
  let three (c : Nat) : Bool := (List.range 3).all (fun k => mode (c + k) [9])
  [(0, !before.any (fun x => x.meter == m.meter))] ++
  (if m.source = 1 then [(4, refOk t m.inA), (8, refOk t m.inB), (0xC, refOk t m.inC)]
   else if m.cls = 3 then [(4, three m.inA), (8, three m.inB), (0xC, m.inC == 0xFFFFFFFF)]
   else
    let dir := m.inA / 65536
    [(4, mode (m.inA % 65536) [8] && (dir == 0xFFFF || mode dir [7])), (8, mode m.inB [3, 4, 5]),
     (0xC, mode m.inC [3, 4, 5])])

/-- R553: the slot that a port in use names. -/
def lineKeyOk (s : State) (l : Line) : Bool :=
  let e := keyEntry s l.keySlot
  keyLoaded s l.keySlot && e.ptr.attr == 4 && e.ptr.mask == 0 &&
  e.ptr.type == (if l.mode = 3 then 0 else 1)

/-- R54, R56, R553. -/
def lineE (s : State) (t : Timetable) (before : List Line) (b : List Byte) : FieldTests :=
  let l := Line.ofBytes b
  let paired := l.mode == 2 || l.mode == 3
  let q := t.line l.partner
  [(0, !before.any (fun x => x.port == l.port)),
   (2, !paired || (l.partner != l.port && q.mode == l.mode && q.partner == l.port)),
   (3, l.mode != 2 || q.phy == l.phy), (4, (t.roster.filter (fun r => r.line == l.port)).length == l.stations),
   (8, l.mode == 0 || lineKeyOk s l)]

/-- R55, R56. -/
def rosterE (t : Timetable) (before : List Station) (b : List Byte) : FieldTests :=
  let r := Station.ofBytes b
  [(0, !before.any (fun x => x.station == r.station)),
   (3, !before.any (fun x => x.line == r.line && x.position == r.position)),
   (0xC, t.nodes.any (fun n => n.node == r.node))]

/-- R147: the nodes that the elements join to a set, after `n` rounds. -/
def nodeReach (t : Timetable) : Nat → List Nat → List Nat
  | 0, xs => xs
  | n + 1, xs =>
    let more := t.elements.foldl (fun acc e =>
      if acc.contains e.src && !acc.contains e.dst then acc ++ [e.dst]
      else if acc.contains e.dst && !acc.contains e.src then acc ++ [e.src]
      else acc) xs
    if more.length = xs.length then xs else nodeReach t n more

/-- R147: the component of a node holds one node of kind 4. The lowest node of a component that has none, and every
further node of kind 4, is at fault. -/
def componentOk (t : Timetable) (n : Node) : Bool :=
  let comp := nodeReach t t.nodes.length [n.node]
  let refs := (t.nodes.filter (fun x => x.kind == 4 && comp.contains x.node)).map (·.node)
  if refs.isEmpty then comp.any (fun x => decide (x < n.node))
  else n.kind != 4 || !refs.any (fun x => decide (x < n.node))

/-- R57, R147. -/
def nodeE (t : Timetable) (before : List Node) (b : List Byte) : FieldTests :=
  let n := Node.ofBytes b
  [(0, !before.any (fun x => x.node == n.node)), (2, componentOk t n),
   (8, refOrNone t n.pRef && (n.kind != 4 || n.pRef != 0xFFFFFFFF)), (0xC, refOrNone t n.tRef), (0x10, refOrNone t n.qRef)]

/-- R58. -/
def elementE (t : Timetable) (before : List Element) (b : List Byte) : FieldTests :=
  let e := Element.ofBytes b
  let ctl := e.type == 1 || e.type == 2
  [(0, !before.any (fun x => x.element == e.element)),
   (4, t.nodes.any (fun n => n.node == e.src)), (6, t.nodes.any (fun n => n.node == e.dst)),
   (0x18, if ctl then refOk t e.ctlRef else e.ctlRef == 0xFFFFFFFF), (0x1C, refOrNone t e.measRef)]

/-- R11, R60, R260. -/
def loopE (t : Timetable) (before : List LoopRec) (b : List Byte) : FieldTests :=
  let l := LoopRec.ofBytes b
  let sp := l.sp.toNat
  let spOk := match l.spSource with
    | 1 => refOk t sp
    | 2 => refOk t sp && sp / 2 ^ 28 == 6 && sp % 256 == 0
    | _ => true
  (0, !before.any (fun x => x.loop == l.loop)) ::
  (if l.law = 0 then []
   else [(4, refOrNone t l.pvRef), (0xC, spOk),
     (0x10, refOutput t l.outRef && !before.any (fun x => x.law != 0 && x.outRef == l.outRef)), (0x14, refOrNone t l.ffRef)])

/-- R315: two byte ranges share no byte. -/
def apartRange (a n b m : Nat) : Bool := n == 0 || m == 0 || decide (a + n ≤ b) || decide (b + m ≤ a)

/-- R315: the stack of a task lies clear of the header, other stacks, the copy lists and the retentive area. -/
def stackClear (t : Timetable) (r : TaskRec) : Bool :=
  let a := stackBase t r.engine r.task
  let others := t.tasks.filter (fun x => x.engine == r.engine)
  let list (o : Nat) : Nat := 8 + 8 * u32 (dataSec t r.engine) o
  apartRange a r.stack 0 72 &&
  others.all (fun x => (x.task == r.task || apartRange a r.stack (stackBase t x.engine x.task) x.stack) &&
    apartRange a r.stack x.inList (list x.inList) && apartRange a r.stack x.outList (list x.outList)) &&
  (match t.ret r.engine with
   | some q => apartRange a r.stack q.offset q.length
   | none => true)

/-- R288: a copy list is well formed: its header's zeros, its references and its local offsets. -/
def listOk (t : Timetable) (e off : Nat) (ok : Nat → Bool) : Bool :=
  zeros (dataSec t e) (off + 4) 4 &&
  (copyList (dataSec t e) off).all (fun x => ok x.1 && x.2 % 8 == 0 && decide (x.2 < 2 ^ 17))

/-- R11, R61, R288, R289, R315. -/
def taskE (t : Timetable) (before : List TaskRec) (b : List Byte) : FieldTests :=
  let r := TaskRec.ofBytes b
  let same := before.filter (fun x => x.engine == r.engine)
  let taken (ref : Nat) : Bool :=
    t.loops.any (fun l => l.law != 0 && l.outRef == ref) || before.any (fun x => (ownedRefs t x).contains ref)
  [(1, !same.any (fun x => x.task == r.task)), (2, !same.any (fun x => x.priority == r.priority)),
   (8, r.entry % 4 == 0 && decide (textStart t r.engine ≤ r.entry) && decide (r.entry < textEnd t r.engine)),
   (0xC, refOrNone t r.eventRef), (0x14, listOk t r.engine r.inList (refOk t)),
   (0x18, listOk t r.engine r.outList (fun ref => refTaskOutput t ref && !taken ref)),
   (0x1C, t.hasBlob 0x0101 r.engine && stackBase t r.engine r.task != 0xFFFFFFFF && stackClear t r)]

/-- R67. -/
def retentiveE (before : List Retentive) (b : List Byte) : FieldTests :=
  [(0, !before.any (fun x => x.engine == u8 b 0))]

/-- R11: a loop or a task owns the output. -/
def ownedOutput (t : Timetable) (ref : Nat) : Bool :=
  t.loops.any (fun l => l.law != 0 && l.outRef == ref) || t.tasks.any (fun x => (ownedRefs t x).contains ref)

/-- R69. -/
def zoneE (t : Timetable) (b : List Byte) : FieldTests :=
  let z := Zone.ofBytes b
  [(1, t.recipes.any (fun r => r.recipe == z.recipe)), (2, t.nodes.any (fun n => n.node == z.heatNode)),
   (0x10, refOrNone t z.parRef), (0x14, refOutput t z.dimRef && ownedOutput t z.dimRef), (0x18, z.meter == 0xFF || (t.meter z.meter).isSome)]

/-! ### Problem map (R191 to R195) -/

/-- R191, R195: the section of a route, and one route for a key. -/
def mapRouteE (t : Timetable) (before : List (List Byte)) (b : List Byte) : FieldTests :=
  let clash (x : List Byte) : Bool :=
    (BitVec.ofNat 32 (u32 x 4) ^^^ BitVec.ofNat 32 (u32 b 4)) &&& BitVec.ofNat 32 (u32 x 8) &&& BitVec.ofNat 32 (u32 b 8) == 0#32
  [(0, t.hasBlob 0x0111 (u8 b 0)), (4, !before.any clash)]

/-- R193: the tags of a run: the step field counts, the rest stays. -/
def runTags (b : List Byte) : List Nat :=
  (List.range (u16 b 8)).map (fun j => u32 b 0 / 256 * 256 + (u32 b 0 + j) % 256)

/-- The route descriptors whose runs (false) or sources (true) an index lies in: ranges may be shared. -/
def routesOfIx (m : List Byte) (source : Bool) (i : Nat) : List (List Byte) :=
  (mapRoutes m).filter (fun r =>
    if source then decide (u32 r 0x18 ≤ i ∧ i < u32 r 0x18 + u32 r 0x1C)
    else decide (u32 r 0x14 ≤ i ∧ i < u32 r 0x14 + u16 r 2))

/-- R195: no tag of a run stands in an earlier run of its route, or twice in itself. -/
def mapRunE (m : List Byte) (i : Nat) (b : List Byte) : FieldTests :=
  let earlier := (routesOfIx m false i).flatMap (fun r =>
    (slice (mapRuns m) (u32 r 0x14) (i - u32 r 0x14)).flatMap runTags)
  let tags := runTags b
  [(0, tags.all (fun g => !earlier.contains g) && decide (u16 b 8 ≤ 256))]

/-- R194, R195. -/
def mapSourceE (t : Timetable) (m : List Byte) (i : Nat) (b : List Byte) : FieldTests :=
  let fits (r : List Byte) : Bool :=
    decide (u32 b 4 % 2 ^ 28 + u16 b 2 ≤ (t.route 2 (u8 r 0)).arrSize (u8 b 0))
  let ref := u32 b 8
  [(4, (routesOfIx m true i).all fits),
   (8, match u8 b 1 with
     | 1 => refOk t ref
     | 2 => decide (ref < 32)
     | 4 => decide (ref < 32)
     | 5 => t.zones.any (fun z => z.zone == ref)
     | _ => true)]

/-- R195. -/
def mapOutE (before : List (List Byte)) (b : List Byte) : FieldTests :=
  [(0, !before.any (fun x => u16 x 0 == u16 b 0)), (4, decide (u32 b 4 / 2 ^ 26 < 32))]

/-- The problem map's reference checks. -/
def mapRefs (t : Timetable) (x : Sec) : Option Verdict :=
  let m := x.payload
  let bad (ts : List FieldTests) : Option Verdict := recordsBad 0xE 0x0112 ts
  (bad (withBefore (mapRoutes m) id (mapRouteE t))).orElse fun _ =>
    (bad ((mapSwitches m).map (fun b => [(4, refOk t (u32 b 4))]))).orElse fun _ =>
      (bad ((mapRuns m).zipIdx.map (fun y => mapRunE m y.2 y.1))).orElse fun _ =>
        (bad ((mapSources m).zipIdx.map (fun y => mapSourceE t m y.2 y.1))).orElse fun _ =>
          bad (withBefore (mapOuts m) id mapOutE)

/-! ### The reference check -/

/-- The tests of the records of a section. -/
def refTests (s : State) (t : Timetable) (x : Sec) : List FieldTests :=
  let rs := x.records
  match x.id with
  | 0x0002 => withBefore rs Platform.ofBytes (fun bf b => [(0, !bf.any (fun p => p.platform == u8 b 0))])
  | 0x0003 => withBefore rs Channel.ofBytes (channelE t)
  | 0x0004 => withBefore rs Meter.ofBytes (meterE t)
  | 0x0005 => withBefore rs Line.ofBytes (lineE s t)
  | 0x0006 => withBefore rs Station.ofBytes (rosterE t)
  | 0x0007 => withBefore rs Node.ofBytes (nodeE t)
  | 0x0008 => withBefore rs Element.ofBytes (elementE t)
  | 0x0009 => rs.map (fun b => [(0xC, refOrNone t (u32 b 0xC))])
  | 0x000A => withBefore rs LoopRec.ofBytes (loopE t)
  | 0x000B => withBefore rs TaskRec.ofBytes (taskE t)
  | 0x000F => withBefore rs Retentive.ofBytes retentiveE
  | 0x0011 => rs.map (zoneE t)
  | _ => []

/-- R631: a number that must appear and that no record of its section carries: a platform, a port, a node or an element
of contiguous numbers (R57, R58), a position of a line (R56). Once numbers are unique, one past the count means that
another is missing. -/
def missingBad (t : Timetable) (x : Sec) : Option Verdict :=
  let gap := match x.id with
    | 0x0002 => decide (x.count < 32)
    | 0x0005 => decide (x.count < 8)
    | 0x0006 => t.roster.any (fun r => decide ((t.line r.line).stations ≤ r.position))
    | 0x0007 => t.nodes.any (fun n => decide (t.nodes.length ≤ n.node))
    | 0x0008 => t.elements.any (fun e => decide (t.elements.length ≤ e.element))
    | _ => false
  if gap then some ⟨0xE, x.id, x.count, 0⟩ else none

/-- R53: the meter numbers whose record an image adds or alters against a baseline, by index; a removed meter counts as
the record past the last. -/
def meterChange (t : Timetable) (base : Nat → Option Nat) : Option Nat :=
  (t.meters.findIdx? (fun m => base m.meter != some m.paramCrc.toNat)).orElse fun _ =>
    if (List.range 0x88).any (fun n => meterNum n && (base n).isSome && (t.meter n).isNone) then some t.meters.length
    else none

/-- Code 0xE: sections in ascending order, then R53. -/
def refCheck (s : State) (base : Nat → Option Nat) (t : Timetable) (xs : List Sec) : Option Verdict :=
  (xs.findSome? (fun x =>
    if x.id = 0x0112 then mapRefs t x
    else (recordsBad 0xE x.id (refTests s t x)).orElse fun _ => missingBad t x)).orElse fun _ =>
      if logFull s then (meterChange t base).map (fun i => ⟨0xE, 0x0004, i, 0⟩) else none

/-! ### The checks in order (R75) -/

/-- The image magic and the two of the trailer (R40, R43). -/
def magicDxtt : Nat := 0x54545844
/-- R43. -/
def magicDxte : Nat := 0x45545844
/-- R43. -/
def magicDxtz : Nat := 0x5A545844

/-- Code 0xA: one section header (R41, R45, R46). -/
def secHeadOk (x : Sec) : Bool :=
  u32 x.header 0x1C == (crc32c (x.header.take 0x1C)).toNat &&
  (decide (0x8000 ≤ x.id) ||
    (x.flags / 2 == 0 && zeros x.header 0x12 2 && zeros x.header 0x18 4 && x.version == 1 &&
      (match secRule x.id with
       | some r =>
         (if r.insts = 0 then x.inst == 0xFFFF else decide (x.inst < r.insts)) && x.recSize == r.recSize &&
         (if r.recSize = 0 then x.count == 0 else x.len == x.recSize * x.count)
       | none => if x.recSize = 0 then x.count == 0 else x.len == x.recSize * x.count)))

/-- Code 0xB: one payload (R39, R41). -/
def secPayloadOk (x : Sec) : Bool :=
  u32 x.header 0x14 == (crc32c x.padded).toNat && (x.padded.drop x.len).all (· == 0#8)

/-- Code 0xC: order, duplicates, unknown ids; then what is missing. The section to report.
DESIGN CHOICE (log entry 88): an unknown id comes before a missing section. -/
def secSetBad (xs : List Sec) : Option Nat :=
  let key (x : Sec) : Nat := x.id * 65536 + x.inst
  ((xs.zip (xs.drop 1)).findSome? (fun p => if key p.1 < key p.2 then none else some p.2.id)).orElse fun _ =>
    (xs.findSome? (fun x => if x.id < 0x8000 ∧ (secRule x.id).isNone then some x.id else none)).orElse fun _ =>
      (secRules.findSome? (fun r =>
        let needed := r.required || (r.id == 0x0112 && xs.any (fun x => x.id == 0x0111))
        if needed && !xs.any (fun x => x.id == r.id) then some r.id else none))

/-- R44, R565: the signature. Without a provisioned signer no entry holds the role, so a `sig_alg` of 1 fails. -/
def ttSignatureOk (s : State) (tr : List Byte) : Bool :=
  match u8 tr 0x39 with
  | 0 => !ttSigner s
  | 1 => signerVerify s (u8 tr 0x38) 1 (slice tr 8 48) (slice tr 0x3C 48) (slice tr 0x6C 48)
  | _ => false

/-- R75: the check of an image of at least 64 bytes whose first four are the magic: the timetable and its failure. -/
def ttCheckImage (s : State) (base : Nat → Option Nat) (img : List Byte) : Verdict × Timetable :=
  let fail (c : Nat) : Verdict × Timetable := (⟨c, 0, 0, 0⟩, {})
  let failS (c sec : Nat) : Verdict × Timetable := (⟨c, sec, 0, 0⟩, {})
  let len := u32 img 0xC
  let tr := slice img (len - 160) 160
  if u16 img 4 ≠ 1 ∨ u16 img 6 ≠ 64 ∨ u32 img 0x3C ≠ (crc32c (img.take 0x3C)).toNat ∨
      !(zeros img 0xB 1 && zeros img 0x12 2 && zeros img 0x2C 16) then fail 3
  else if u16 img 8 ≠ 0x7512 then fail 4
  else if 1 < u8 img 0xA then fail 5
  else if len < 224 ∨ 16777216 < len then fail 6
  else match secWalk img (len - 160) (u16 img 0x10) 64 with
    | none => fail 6
    | some xs =>
      if u32 tr 0 ≠ magicDxte ∨ u32 tr 0x9C ≠ magicDxtz ∨ !zeros tr 0x3A 2 then fail 6
      else if u32 tr 4 ≠ (crc32c (img.take (len - 160))).toNat then fail 7
      else if slice tr 8 48 ≠ sha384 (img.take (len - 152)) then fail 8
      else if !ttSignatureOk s tr then fail 9
      else match xs.find? (fun x => !secHeadOk x) with
        | some x => failS 0xA x.id
        | none =>
          match xs.find? (fun x => !secPayloadOk x) with
          | some x => failS 0xB x.id
          | none =>
            match secSetBad xs with
            | some i => failS 0xC i
            | none =>
              let known := xs.filter (fun x => decide (x.id < 0x8000))
              let t := ttOf img known (slice tr 8 48)
              (((limitCheck t known).orElse fun _ => refCheck s base t known).getD {}, t)

/-- First NV offset of a timetable slot (R70). -/
def ttSlotBase (slot : Nat) : Nat := slot * 0x01000000

/-- R70, R75: the check of a slot. -/
def ttCheckSlot (s : State) (base : Nat → Option Nat) (slot : Nat) : Verdict × Timetable :=
  let h := nvRead s (ttSlotBase slot) 64
  if u32 h 0 ≠ magicDxtt then (⟨if u32 h 0xC = 0 then 1 else 2, 0, 0, 0⟩, {})
  else ttCheckImage s base (nvRead s (ttSlotBase slot) (max 64 (min 16777216 (u32 h 0xC))))

/-- R53: the baseline of a LOAD and of the boot: the latest totals record. -/
def baseTotals (s : State) (n : Nat) : Option Nat := totalsBaseline s (meterIx n)

/-- R53: the baseline of a COMMIT: the loaded timetable. -/
def baseLoaded (s : State) (n : Nat) : Option Nat := ((theTt s).meter n).map (fun m => m.paramCrc.toNat)

/-! ### Slot reports (R83, R84) -/

/-- The report of a slot. -/
def slotRep (s : State) (slot : Nat) : SlotReport := if slot = 0 then s.dev.repA else s.dev.repB

/-- Replace the report of a slot. -/
def setSlotRep (slot : Nat) (r : SlotReport) (s : State) : State :=
  if slot = 0 then { s with dev := { s.dev with repA := r } } else { s with dev := { s.dev with repB := r } }

/-- A check of a slot has completed: its report and its valid bit (R31, R77). -/
def slotReport (slot : Nat) (v : Verdict) (s : State) : State :=
  let r : SlotReport := { result := v.code, done := true, checking := false, offset := v.offset, section_ := v.section_, index := v.index }
  let s1 := setSlotRep slot r s
  let ok := v.code == 0
  if slot = 0 then { s1 with dev := { s1.dev with slotAValid := ok } } else { s1 with dev := { s1.dev with slotBValid := ok } }

/-- R71: a slot that is being written, or has no report of this boot: not checked.
DESIGN CHOICE (log entry 105): starting a new check (COMMIT, LOAD, TT_CLOSE) withdraws the report of the check before it at
once, until the new one completes (R83). -/
def slotUnchecked (slot : Nat) (checking : Bool) (s : State) : State :=
  let s1 := setSlotRep slot { checking := checking } s
  if slot = 0 then { s1 with dev := { s1.dev with slotAValid := false } } else { s1 with dev := { s1.dev with slotBValid := false } }

/-- R76 step 6: at the end of a boot the background check of every slot not yet checked in it is running. -/
def slotsBackground (s : State) : State :=
  forN 2 s (fun k s => if (slotRep s k).done then s else setSlotRep k { slotRep s k with checking := true, background := true } s)

/-- R83: DEV_TT_SLOTA or DEV_TT_SLOTB as read. -/
def slotWordOf (s : State) (slot : Nat) : Word :=
  let r := slotRep s slot
  BitVec.ofNat 32 (r.result % 16 + 16 * b2n r.done + 32 * b2n r.checking + 256 * (r.offset % 256) + 65536 * r.section_)

end Sys2Proof.Machine
end

