-- ==== Sys2Proof/Machine/Thru.lean ====
section
/-! DEFINITION. Through mode (R130 to R133) with the station rules that it takes from R89, R97 to R103, R110, R115 and
R118 to R129, the through record and the boot block (R448). -/

namespace Sys2Proof.Machine

/-! ### The through record and the boot block -/

/-- R447 kind 0x02: the through record's payload for a timetable. -/
def thruPayload (t : Timetable) : List Byte :=
  (List.range 8).map (fun p =>
    let l := t.line p
    if l.mode = 3 then BitVec.ofNat 8 ((if p < l.partner then 1 else 2) + 16 * (l.phy % 2)) else 0#8)

/-- R448: one copy of the boot block. -/
def bootBlock (seq : Nat) (payload : List Byte) : List Byte :=
  let body := ascii ['D', 'X', 'B', 'T'] ++ List.replicate 4 0#8 ++ leBytes 8 seq ++ fit 0#8 8 payload ++
    List.replicate 36 0#8
  body ++ wordBytes (crc32c body)

/-- R448: a valid copy: its sequence number and payload. -/
def bootCopy (s : State) (off : Nat) : Option (Nat × List Byte) :=
  let b := nvRead s off 64
  if slice b 0 4 = ascii ['D', 'X', 'B', 'T'] ∧ u32 b 0x3C = (crc32c (b.take 0x3C)).toNat ∧ nvReadable s off 64 then
    some (u64 b 8, slice b 0x10 8)
  else none

/-- R448 item 2: the copy the device uses. -/
def bootBlockRead (s : State) : Option (List Byte) :=
  match bootCopy s 0x07200000, bootCopy s 0x07200040 with
  | some a, some b => if a.1 < b.1 then some b.2 else some a.2
  | some a, none => some a.2
  | none, some b => some b.2
  | none, none => none

/-- R448 items 1 and 3: write both copies. -/
def bootBlockWrite (seq : Nat) (payload : List Byte) (s : State) : State :=
  nvWrite 0x07200040 (bootBlock seq payload) (nvWrite 0x07200000 (bootBlock seq payload) s)

/-- The journal's latest through record: number and payload. -/
def thruLatest (s : State) : Option (Nat × List Byte) :=
  (s.jnl.live.find? (fun l => l.kind == 2 && l.inst == 0)).map (fun l => (l.seq, l.payload))

/-- Set up the pairs of a through record at once. -/
def thruSetup (payload : List Byte) (s : State) : State :=
  setSlk { s.slk with thruRec := fit 0#8 8 payload, thruValid := true, thruOn := true } s

/-- A through record is durable: the boot block is written from it, and its pairs forward (R130, R448 item 1). -/
def thruDurable (s : State) : State :=
  match thruLatest s with
  | some l => thruSetup l.2 (bootBlockWrite l.1 l.2 s)
  | none => s

/-- R413 step 4: read the boot block. After power-up forwarding starts 40 ms after power-good. -/
def thruBoot (powerUp : Bool) (s : State) : State :=
  match bootBlockRead s with
  | some b => setSlk { s.slk with thruRec := b, thruValid := true, thruOn := !powerUp } s
  | none => setSlk { s.slk with thruRec := List.replicate 8 0, thruValid := false, thruOn := false } s

/-- R413 step 5, R448 item 3: the journal's record is the authority. -/
def thruRecover (s : State) : State :=
  match thruLatest s with
  | some l =>
    if s.slk.thruValid ∧ s.slk.thruRec = l.2 then s else thruSetup l.2 (bootBlockWrite l.1 l.2 s)
  | none => s

/-- R130: a loaded timetable names other pairs than the latest record (or none where there is no record). -/
def thruDiffers (t : Timetable) (s : State) : Bool :=
  thruPayload t != (match thruLatest s with
    | some l => l.2
    | none => List.replicate 8 0#8)

/-- R130 at the placing of a timetable in the boot sequence. -/
def thruPlace (t : Timetable) (s : State) : State :=
  if thruDiffers t s then thruDurable (jnlWriteNow 2 0 (thruPayload t) s) else s

/-- R130 at a commit boundary. -/
def thruCommit (t : Timetable) (s : State) : State :=
  if thruDiffers t s then jnlRequest { kind := 2, inst := 0, payload := thruPayload t, owner := .through } s else s

/-- THROUGH_FORWARD_START: 40 ms after power-good the pairs of the boot block forward (R130). -/
def execThroughForwardStart (s : State) : Result :=
  if s.pwr.powerGood ∧ s.slk.thruValid then .next (setSlk { s.slk with thruOn := true } s) else .next s

/-! ### Pairs -/

/-- The other port of a pair: the timetable's partner, or without a timetable the k-th upper port for the k-th lower. -/
def thruOther (s : State) (q : Nat) : Option Nat :=
  if ((theTt s).line q).mode = 3 then some ((theTt s).line q).partner
  else
    let lows := (List.range 8).filter (fun p => thruKind s p == 1)
    let ups := (List.range 8).filter (fun p => thruKind s p == 2)
    (((lows.zip ups).find? (fun x => x.1 == q)).map (·.2)).orElse
      (fun _ => ((lows.zip ups).find? (fun x => x.2 == q)).map (·.1))

/-- The device as a station on the pair of a lower port. -/
def thruSt (s : State) (p : Nat) : ThruSt := smGet (fun _ => ({} : ThruSt)) s.slk.thru p

/-- Replace it. -/
def setThru (p : Nat) (x : ThruSt) (s : State) : State :=
  setSlk { s.slk with thru := smPut (fun _ => ({} : ThruSt)) s.slk.thru p x } s

/-- R131: the device has joined the line of the pair: the run is the one of its admission (R117). -/
def ThruSt.joined (x : ThruSt) : Bool := x.joinedRun.isSome && x.joinedRun == x.run

/-- R131: the device's own roster record on the pair of lower port `p`, while it takes part as a station. -/
def thruRecord (s : State) (p : Nat) : Option Station :=
  let t := theTt s
  if (s.dev.mode = .ready ∨ s.dev.mode = .run) ∧ (t.line p).mode = 3 then
    t.roster.find? (fun r => r.line == p || r.line == (t.line p).partner)
  else none

/-- R131: the base key in force for the pair of lower port `p`. -/
def thruKey (s : State) (p : Nat) : List Byte := (keyEffective s ((theTt s).line p).keySlot).take 16

/-- A slot MAC as the device makes it as a station (R102, R105, R131), under the key latched for this headway (R560). -/
def thruMac (s : State) (p line train st kind e : Nat) (data : List Byte) : List Byte :=
  if lineAuth (theTt s) p then slotMacOf ((thruSt s p).key.getD (thruKey s p)) train st line kind e data
  else List.replicate 8 0#8

/-- Replace bytes of a body. -/
def bodyPut (b : List Byte) (off : Nat) (bs : List Byte) : List Byte := b.take off ++ bs ++ b.drop (off + bs.length)

/-- Set a bit of a mask. -/
def orBit (v k : Nat) (b : Bool) : Nat := if b ∧ ¬ bit v k then v + 2 ^ k else v

/-! ### The device as a station -/

/-- R96: the index of the device's slot in a car, if it has one; `x.pos` is the position learned from ordinary cars. -/
def thruSlot (x : ThruSt) (c : Car) : Option Nat :=
  match x.pos with
  | none => none
  | some pos =>
    if c.line ≠ x.line then none
    else if c.guest then (if pos ≤ c.first ∧ c.first - pos < c.slots then some (c.first - pos) else none)
    else if c.first ≤ pos ∧ pos - c.first < c.slots then some (pos - c.first)
    else none

/-- R115, R133: the offset that two successive time cars give. -/
def thruOffset (x : ThruSt) (body : List Byte) : Option Int :=
  match x.outTime, x.retTime with
  | some (m, a, cin, origin), some (m', fa, cup) =>
    if m = m' ∧ m = u32 body 0x18 then
      let rt : Int := u32 body 0x1C
      let cret : Int := u32 body 0x20
      let d := Config.roundInt (((rt - fa - cin - (cret - cup) : Int) : Rat) / 2)
      some (origin + cin + d - a)
    else none
  | _, _ => none

/-- R132: the published SO words of a station that make its input slot. -/
def thruWords (s : State) (n : Nat) : List DWord := (List.range 12).map (fun i => imgGet s 1 (16 * n + 1 + i))

/-- R101, R114, R560: by local time `now` the start of the next headway has come: the input values and the key are latched,
and the instant moves at which outputs apply. This happens without a time car of the own line too, as under guest service. -/
def thruLatch (p : Nat) (now : Int) (s : State) : State :=
  let x := thruSt s p
  match x.nextStart, thruRecord s p with
  | some t, some r =>
    if t ≤ now then
      let start := if 0 < x.period then t + (now - t) / x.period * x.period else t
      setThru p { x with
        start := some start
        nextStart := some (start + x.period)
        applyAt := start + x.applyAfter
        key := some (thruKey s p)
        latch := some (thruWords s r.station, start) } s
    else s
  | _, _ => s

/-- R115: the offset that the station uses from a time car on: the computed one, else the last, else one without path
delay. -/
def thruOffsetNow (x : ThruSt) (body : List Byte) (a cin origin : Int) : Int :=
  ((thruOffset x body).orElse (fun _ => x.offset)).getD (origin + cin - a)

/-- R101, R114, R115: the times that an outbound time car of the own line sets, arrived at local time `a`. A train that
starts a headway leaves on its first tick; a join train's outputs apply at once. Where no latch was taken for this
headway, one is taken now. -/
def thruClock (p : Nat) (a : Int) (c : Car) (s : State) : State :=
  let s1 := thruLatch p a s
  let x := thruSt s1 p
  let origin : Int := u64 c.body 0
  let o := thruOffsetNow x c.body a (u32 c.body 0x10) origin
  let apply := u16 c.body 0x28
  if apply = 0 then setThru p { x with offset := some o, applyAt := a, key := some (x.key.getD (thruKey s1 p)) } s1
  else
    let start := origin / 65536 * 65536 - o
    let period : Int := 65536 * c.headway
    let fresh := match x.latch with
      | some l => decide (2 * (l.2 - start) < x.period ∧ 2 * (start - l.2) < x.period)
      | none => false
    let latch := if fresh then x.latch else (thruRecord s1 p).map (fun r => (thruWords s1 r.station, a))
    setThru p { x with
      offset := some o
      start := some start
      period := period
      nextStart := some (start + period)
      latch := latch
      key := if fresh then x.key else some (thruKey s1 p)
      applyAt := start + 65536 * apply
      applyAfter := 65536 * apply } s1

/-- R139: the pair of lower port `p` is the lowest through pair. -/
def thruLowest (s : State) (p : Nat) : Bool := (List.range p).all (fun q => thruKind s q != 1)

/-- R110 item 6, R113, R115, R117: a time car passes the pair of lower port `p`. A car that the device refuses (R104) only
gains its residence time; the partner's extended car (R90) also tells the run. DESIGN CHOICE (log entry 104): the offset is
computed and reported in every state, also where the device only forwards (R131). -/
def thruTime (p : Nat) (time residence : Int) (turned : Bool) (c : Car) (s : State) : Car × State :=
  let x := thruSt s p
  let r : Nat := (residence % 4294967296).toNat
  let ours := c.line == x.line && x.pos.isSome && decide (x.epoch ≤ c.epoch)
  if c.dir then
    let cret : Nat := if turned then u32 c.body 0x14 else (u32 c.body 0x14 + r) % 2 ^ 32
    let c1 := { c with body := bodyPut c.body 0x14 (leBytes 4 cret) }
    match x.outTime with
    | some (m, a, _, _) =>
      (c1, if ours ∧ m = c.train then setThru p { x with retTime := some (m, time + residence - a, Int.ofNat cret) } s else s)
    | none => (c1, s)
  else
    let cin : Nat := u32 c.body 0x10
    let c1 := { c with body := bodyPut c.body 0x10 (leBytes 4 ((cin + r) % 2 ^ 32)) }
    if c.epoch < x.epoch then (c1, s)
    else if !ours then (c1, setThru p { x with run := some (u32 c.body 0x24) } s)
    else
      let s1 := match thruOffset x c.body with
        | some o => if thruLowest s p then setReg Reg.SLK_THRU_OFS (BitVec.ofInt 32 o) s else s
        | none => s
      let s2 := thruClock p time c s1
      (c1, setThru p { thruSt s2 p with
        run := some (u32 c.body 0x24)
        outTime := some (c.train, time, (cin : Int), (u64 c.body 0 : Int))
        retTime := if turned then some (c.train, residence, (u32 c.body 0x14 : Int)) else none } s2)

/-- R99, R132: an accepted output slot goes to the station's SI words. DESIGN CHOICE (log entry 104): they get quality GOOD, and
keep it when later slots do not come. -/
def thruApply (n : Nat) (data : List Byte) (s : State) : State :=
  let cmd := u16 data 0
  let s1 := imgPut 0 (16 * n) (mkWord (BitVec.ofNat 32 cmd) .good) s
  forN 5 s1 (fun k s =>
    if bit (u16 data 2) k ∧ ¬ bit cmd 0 then imgPut 0 (16 * n + 1 + k) (mkWord (w32 data (4 + 4 * k)) .good) s else s)

/-- R114: an accepted output slot applies now if its instant has come, and else waits for it. -/
def thruAccept (p n : Nat) (now : Int) (data : List Byte) (s : State) : State :=
  let x := thruSt s p
  if x.applyAt ≤ now then thruApply n data s else setThru p { x with held := x.held ++ [(x.applyAt, n, data)] } s

/-- R101, R114: what the device does as a station at a tick: it latches inputs and applies the outputs whose instant has
come (R131: only in READY and RUN). -/
def thruTick (s : State) : State :=
  let now : Int := 65536 * s.pwr.tick
  forL (s.slk.thru.map (·.1)) s (fun p s =>
    let s1 := thruLatch p now s
    let x := thruSt s1 p
    if x.held.isEmpty then s1
    else
      let s2 := setThru p { x with held := if (thruRecord s1 p).isSome then x.held.filter (fun h => decide (now < h.1)) else [] } s1
      if (thruRecord s1 p).isSome then
        forL (x.held.filter (fun h => decide (h.1 ≤ now))) s2 (fun h s => thruApply h.2.1 h.2.2 s)
      else s2)

/-- R129: the train number is newer than the last accepted one. -/
def trainNewer (n last : Nat) : Bool :=
  let d := (n + 2 ^ 32 - last) % 2 ^ 32
  decide (1 ≤ d ∧ d < 2 ^ 31)

/-- R98, R110, R121, R122, R129: the output slot of the device, in a car that arrived at local time `time`. A slot that is not
accepted sets its fault bit. -/
def thruOutput (p : Nat) (r : Station) (time : Int) (k : Nat) (c : Car) (s : State) : Car × State :=
  let x := thruSt s p
  let data := slice c.body (32 * k) 24
  let ok := decide (x.epoch ≤ c.epoch) && (!lineAuth (theTt s) p ||
    slice c.body (32 * k + 24) 8 == thruMac s p c.line c.train r.station 1 c.epoch data)
  let admitted := bit (u16 data 0) 1 && x.nonce.isSome && x.run.isSome && x.nonce == some (u32 data 4)
  let x1 := if ok ∧ bit (u16 data 0) 2 then { x with wait := 64, nonce := none } else x
  if ok && (if x.joined then trainNewer c.train x.last else admitted) then
    ({ c with ack := orBit c.ack k true },
     thruAccept p r.station time data
       (setThru p { x1 with last := c.train, epoch := c.epoch, nonce := none, joinedRun := x.run } s))
  else ({ c with fault := orBit c.fault k true }, setThru p x1 s)

/-- R100, R101, R132: the input slot of the device, built from the SO words it has latched for this headway. -/
def thruInput (p : Nat) (r : Station) (time : Int) (k : Nat) (c : Car) (s : State) : Car × State :=
  let x := thruSt s p
  if !x.joined || decide (c.epoch < x.epoch) then (c, s)
  else
    let (ws, at_) := x.latch.getD (thruWords s r.station, time)
    let w (i : Nat) : DWord := nth ws i 0
    let qual := (List.range 12).foldl (fun a i => a + qCode (wordQ (w i)) * 4 ^ i) 0
    let data := leBytes 4 qual ++ (List.range 12).flatMap (fun i => wordBytes (wordVal (w i))) ++
      wordBytes (BitVec.ofInt 32 (at_ - x.start.getD at_))
    let bad := (List.range 12).all (fun i => wordQ (w i) == .bad)
    ({ c with
       body := bodyPut c.body (64 * k) (data ++ thruMac s p c.line c.train r.station 2 c.epoch data)
       ack := orBit c.ack k true
       fault := orBit c.fault k bad }, s)

/-- R118: the firmware version a request reports, of the running image. DESIGN CHOICE (log entry 91): its low 16 bits. -/
def thruVersion (s : State) : Nat :=
  (getReg s (if s.mgt.fwSlot = 0 then Reg.MGT_FW_VERA else Reg.MGT_FW_VERB)).toNat % 65536

/-- R118, R119, R122: the device's join request, in a join car of its own line at its own position (R92, R110 item 5). DESIGN CHOICE (log entry 91): the
train with the refuse slot is the first of the 64. -/
def thruJoin (p : Nat) (r : Station) (c : Car) (s : State) : Car × State :=
  let x := thruSt s p
  if x.joined || c.guest || c.line != x.line || x.pos != some c.hops || decide (c.epoch < x.epoch) || x.asked == some c.train then (c, s)
  else if 0 < x.wait then (c, setThru p { x with wait := x.wait - 1, asked := some c.train } s)
  else
    let j := (crc16 (leBytes 2 r.station ++ leBytes 4 c.train)).toNat % 16
    if u8 c.body (32 * j + 3) ≠ 0 then (c, setThru p { x with asked := some c.train } s)
    else
      let (b, s1) := keyRandom s
      let nonce := u32 b 0
      let data := leBytes 2 r.station ++ leBytes 1 c.hops ++ leBytes 1 1 ++ wordBytes r.stationId ++ leBytes 2 0x7512 ++
        leBytes 2 (thruVersion s) ++ leBytes 4 nonce ++ List.replicate 8 0#8
      ({ c with
         body := bodyPut c.body (32 * j) (data ++ thruMac s p c.line c.train r.station 3 c.epoch data)
         ack := orBit c.ack j true },
       setThru p { x with nonce := some nonce, asked := some c.train } s1)

/-- What the device does to a car as it passes (outbound cars carry its slots, R110 item 5). -/
def thruProcess (p : Nat) (time residence : Int) (turned : Bool) (c : Car) (s : State) : Car × State :=
  if c.kind = 1 then thruTime p time residence turned c s
  else if c.dir then (c, s)
  else
    match thruRecord s p with
    | none => (c, s)
    | some r =>
      if c.kind = 4 then thruJoin p r c s
      else
        match thruSlot (thruSt s p) c with
        | none => (c, s)
        | some k => if c.kind = 2 then thruOutput p r time k c s else thruInput p r time k c s

/-- R89: the device turns the car around. -/
def thruTurns (x : ThruSt) (c : Car) (onward : Bool) : Bool :=
  !onward || (!c.extend && c.line == x.line && x.pos == some c.last)

/-- R90, R92, R104, R131: line and position are learned from ordinary outbound cars at the upstream port, the lower one of the
pair, and from no car of a lower epoch. -/
def thruLearn (q p : Nat) (c : Car) (x : ThruSt) : ThruSt :=
  if c.dir || c.guest || q != p || decide (c.epoch < x.epoch) then x else { x with line := c.line, pos := some c.hops }

/-- R130, R89, R95, R97: forward one good car that arrived on port `q` of a pair. -/
def thruForward (q other : Nat) (f : List Byte) (c : Car) (time residence : Int) (onward : Bool) (s : State) : State :=
  let p := min q other
  let x1 := thruLearn q p c (thruSt s p)
  let s1 := setThru p x1 s
  let turned := thruTurns x1 c onward
  let (c1, s2) := thruProcess p time residence turned c s1
  let c2 := if !c.dir then { c1 with hops := (c1.hops + 1) % 65536 }
    else if turned then c1
    else { c1 with retHops := (c1.retHops + 1) % 65536 }
  let c3 := { c2 with word := orBit c2.word 11 turned }
  let body := f.take 14 ++ c3.bytes
  setSlk { s2.slk with fwd := some (if turned then q else other, body ++ wordBytes (crc32eth body)) } s2

/-- R94: the frame is untagged and of the port's EtherType. DESIGN CHOICE (log entry 104): while no timetable gives the port an
EtherType, any but a VLAN tag's. -/
def thruEther (s : State) (q : Nat) (f : List Byte) : Bool :=
  let e := beNat (slice f 12 2)
  if ((theTt s).line q).mode = 3 then e == etherType (theTt s) q else e != 0x8100 && e != 0x88A8

/-- THROUGH_CAR_ARRIVE: a frame arrives on port `q` of a through pair at local time `time`, leaves after `residence`
(both in 1/65,536 tick); `onward` says that the opposite port has a link (R130 to R133). A frame with a bad check
sequence goes on with the complement of the correct one (R110 item 3); a frame that is no car of the line's is discarded and
counted (R94). -/
def execThroughCarArrive (q : Nat) (f : List Byte) (time residence : Int) (onward : Bool) (s : State) : Result :=
  match thruOther s q with
  | none => .next s
  | some other =>
    if !thruForwards s q then .next s
    else if f.length < 64 then .next (incFld (Reg.SLK_LCNT_FCS + 0x40 * q) 15 0 s)
    else if !frameOk f then
      let body := f.take (f.length - 4)
      let out := body ++ wordBytes (~~~ crc32eth body)
      .next (incFld (Reg.SLK_LCNT_FCS + 0x40 * q) 15 0
        (setSlk { s.slk with fwd := some (if onward then other else q, out) } s))
    else
      match if thruEther s q f then carOf (framePayload f) else none with
      | none => .next (incFld (Reg.SLK_LCNT_FCS + 0x40 * q) 31 16 s)
      | some c => .next (thruForward q other f c time residence onward s)

end Sys2Proof.Machine
end

