-- ==== Sys2Proof/Machine/Views.lean ====
section
/-! DEFINITION. What register reads return (R5): the registers that show state kept elsewhere are computed here, every
other one holds its word in the register file. WO fields read as zero. The registers whose read has an effect are at the
end. -/

namespace Sys2Proof.Machine

/-- One bit of a word under construction. -/
def bitAt (i : Nat) (b : Bool) : Nat := b2n b * 2 ^ i

/-! ### DEV -/

/-- R26, R34: the fatal cause bits of DEV_CAUSE. -/
def fatalBits (s : State) : Nat := getFld s Reg.DEV_CAUSE 12 8

/-- R31. -/
def devStateWord (s : State) : Word :=
  let d := s.dev
  BitVec.ofNat 32 (modeCode d.mode + 16 * modeCode d.prevMode + 256 * (d.activeSlot % 2) + bitAt 9 d.slotAValid +
    bitAt 10 d.slotBValid + bitAt 11 (bit (theTt s).plan.flags 0) + bitAt 12 d.goodStart + 2 ^ 14 * (d.cmdStatus % 4))

/-- R36: the phase of the headway. -/
def devPhase (s : State) : Nat :=
  let p := (theTt s).plan
  let k := s.dev.tickInHw
  if s.dev.tt.isNone ∨ k < p.tIn then 0 else if k < p.tEst then 1 else if k < p.tOut then 2 else 3

/-- R36. -/
def devPhaseWord (s : State) : Word :=
  BitVec.ofNat 32 (s.dev.tickInHw % 2 ^ 14 + 2 ^ 16 * devPhase s + 2 ^ 20 * min 0xFFF s.dev.optHw)

/-- R87. -/
def devTtPtr (s : State) : Word :=
  let d := s.dev
  BitVec.ofNat 32 (d.ptr.getD 0 % 2 + bitAt 1 d.ptr.isSome + bitAt 2 s.tx.stagedSlot.isSome + bitAt 3 d.writer.isSome +
    16 * (d.writer.getD 0 % 2))

/-- The DEV window. -/
def viewDev (a : Nat) (s : State) : Word :=
  let p := (theTt s).plan
  if a = Reg.DEV_STATE then devStateWord s
  else if a = Reg.DEV_HEADWAY then BitVec.ofNat 32 s.dev.headway
  else if a = Reg.DEV_PHASE then devPhaseWord s
  else if a = Reg.DEV_PLAN0 then BitVec.ofNat 32 (p.headway % 2 ^ 14 + 2 ^ 16 * (p.tIn % 2 ^ 14))
  else if a = Reg.DEV_PLAN1 then BitVec.ofNat 32 (p.tEst % 2 ^ 14 + 2 ^ 16 * (p.tOut % 2 ^ 14))
  else if a = Reg.DEV_PLAN2 then BitVec.ofNat 32 (p.optHeadways % 2 ^ 16)
  else if a = Reg.DEV_TT_SLOTA then slotWordOf s 0
  else if a = Reg.DEV_TT_SLOTB then slotWordOf s 1
  else if a = Reg.DEV_TT_IDXA then BitVec.ofNat 32 s.dev.repA.index
  else if a = Reg.DEV_TT_IDXB then BitVec.ofNat 32 s.dev.repB.index
  else if a = Reg.DEV_TT_SERIAL then (theTt s).serial
  else if a = Reg.DEV_TT_PTR then devTtPtr s
  else
    match bankIx Reg.DEV_TT_DIGEST 4 12 a with
    | some k => w32 (theTt s).digest (4 * k)
    | none => getReg s a

/-! ### PWR, JNL, MEM -/

/-- The PWR window. -/
def viewPwr (a : Nat) (s : State) : Word :=
  if a = Reg.PWR_STAT then pwrStat s
  else if a = Reg.PWR_TICK_LO then BitVec.ofNat 32 s.pwr.tick
  else
    match bankIx Reg.PWR_DOM 4 17 a, bankIx Reg.PWR_E_TOT_LO 8 10 a with
    | some k, _ => domWord (dom s (k + 1))
    | none, some g => BitVec.ofNat 32 (nth s.pwr.eTot g 0)
    | none, none => getReg s a

/-- R469. -/
def jnlStat (s : State) : Word :=
  let j := s.jnl
  BitVec.ofNat 32 (jnlHead j % 8 + 16 * ((8 - j.pairs.length) % 8) + bitAt 8 j.cur.isSome + bitAt 9 j.compacting +
    bitAt 10 (!j.rewrites.isEmpty) + bitAt 11 j.sealed)

/-- R470. -/
def txStat (s : State) : Word :=
  let x := s.tx
  BitVec.ofNat 32 (x.st % 8 + bitAt 3 x.stagedSlot.isSome + bitAt 4 x.prompt + 2 ^ 8 * (x.cmdStatus % 4) +
    2 ^ 12 * (x.result % 8) + 2 ^ 16 * (x.entries.length % 2 ^ 13))

/-- R458, R49: the idle abort time in seconds. -/
def txIdleTime (s : State) : Nat := if (theTt s).plan.txIdle = 0 then 30 else (theTt s).plan.txIdle

/-- R470: seconds left before an idle abort, rounded up; 0 with no transaction open. -/
def txIdleLeft (s : State) : Nat :=
  if s.tx.st = 1 then (txIdleTime s * 1024 - s.tx.idleTicks + 1023) / 1024 else 0

/-- Partition `p` of the parameter store. -/
def psPart (s : State) (p : Nat) : Partition := nth s.ps.parts p {}

/-- R471: JNL_PS_STAT. -/
def psStat (s : State) : Word :=
  let bitsOf (f : Partition → Bool) (base : Nat) : Nat :=
    (List.range 4).foldl (fun n p => n + bitAt (base + p) (f (psPart s p))) 0
  BitVec.ofNat 32 (bitsOf (·.readOpen) 0 + bitsOf (·.writeOpen) 4 + bitAt 8 s.ps.programming + bitAt 9 s.ps.frozen +
    bitsOf (fun x => decide (0 < x.readLock ∨ 0 < x.writeLock)) 16 + 2 ^ 24 * (s.ps.cmdStatus % 4))

/-- R471: JNL_PS_FAILp; a remaining lockout counts up to whole seconds. -/
def psFail (s : State) (p : Nat) : Word :=
  let x := psPart s p
  BitVec.ofNat 32 (min 15 x.readFails + 16 * min 15 x.writeFails + 2 ^ 12 * ((max x.readLock x.writeLock + 1023) / 1024))

/-- The JNL window. -/
def viewJnl (a : Nat) (s : State) : Word :=
  if a = Reg.JNL_STAT then jnlStat s
  else if a = Reg.JNL_SEQ_LO then BitVec.ofNat 32 s.jnl.seq
  else if a = Reg.JNL_TX_STAT then txStat s
  else if a = Reg.JNL_TX_FAIL then BitVec.ofNat 32 (s.tx.reason % 256 + 2 ^ 16 * (s.tx.failEntry % 2 ^ 12))
  else if a = Reg.JNL_TX_ID then BitVec.ofNat 32 s.tx.number
  else if a = Reg.JNL_TX_IDLE then BitVec.ofNat 32 (txIdleLeft s % 2 ^ 16)
  else if a = Reg.JNL_TX_BOUND then BitVec.ofNat 32 s.tx.bound
  else if a = Reg.JNL_PS_STAT then psStat s
  else
    match bankIx Reg.JNL_PS_FAIL 4 4 a with
    | some p => psFail s p
    | none => getReg s a

/-- R489: the scrubber is active in some memory. -/
def scrubbing (s : State) : Bool :=
  getFld s Reg.MEM_CTL 4 0 != 0 && [1, 3, 5, 6, 7, 8, 9, 10, 11, 12, 13, 14].any (fun d => domOn s d)

/-- A timetable is placed: the registers that read as zero in BOOT and HOLD show its values. -/
def placed (s : State) : Bool := s.dev.tt.isSome && s.dev.mode != .boot && s.dev.mode != .hold

/-- R10, R624: the sizes of the seven image regions in 64-bit words. -/
def imgSizes (s : State) : List Nat := (List.range 7).map (theTt s).regionWords

/-- R10, R476: CI, CO and MI are single-buffered: one place for both generations. -/
def imgSingle (r : Nat) : Bool := r == 2 || r == 3 || r == 5

/-- The places of all regions in the order of their codes, each generation of a double-buffered one: first word, size. -/
def imgChunks (sizes : List Nat) (b : Nat → Nat → Nat) : List (Nat × Nat) :=
  (List.range 7).flatMap (fun r =>
    let n := nth sizes r 0
    if imgSingle r then [(b r 0, n)] else [(b r 0, n), (b r 1, n)])

/-- Places lie within system SRAM and do not overlap. -/
def chunksApart : List (Nat × Nat) → Bool
  | [] => true
  | c :: cs => decide (c.1 + c.2 ≤ 1048576) && cs.all (fun d => decide (c.1 + c.2 ≤ d.1 ∨ d.1 + d.2 ≤ c.1)) && chunksApart cs

/-- The places one after the other from the start of system SRAM. -/
def imgPacked (sizes : List Nat) (r g : Nat) : Nat :=
  ((List.range r).foldl (fun n q => n + (if imgSingle q then 1 else 2) * nth sizes q 0) 0) +
    (if imgSingle r then 0 else g * nth sizes r 0)

/-- R476: the host address of word 0 of generation `g` of region `r`. The device's own choice of the places is open (R632, log
entry 7), within what R10 and R476 say: every generation has its own words of system SRAM. -/
def imgBase (s : State) (r g : Nat) : Nat :=
  let z := imgSizes s
  let b := fun r g => Config.imgBase z r (if imgSingle r then 0 else g)
  0x1000000 + 8 * (if chunksApart (imgChunks z b) then b r g else imgPacked z r g)

/-- The MEM window. -/
def viewMem (a : Nat) (s : State) : Word :=
  if a = Reg.MEM_STAT then
    BitVec.ofNat 32 (b2n s.mem.bistDone + bitAt 1 s.mem.bistPass + bitAt 2 (scrubbing s))
  else
    match bankOf Reg.MEM_IMG_BASE 0x10 7 a with
    | some (r, o) =>
      if !placed s then 0#32
      else if o = 0 then BitVec.ofNat 32 (imgBase s r (nth s.img.gen r 0 % 2))
      else if o = 4 then BitVec.ofNat 32 ((theTt s).regionWords r % 2 ^ 28)
      else if o = 8 then BitVec.ofNat 32 (nth s.img.gen r 0)
      else 0#32
    | none => getReg s a

/-! ### SLK to CE -/

/-- The SLK window. -/
def viewSlk (a : Nat) (s : State) : Word :=
  if a = Reg.SLK_CTL then setField (getReg s a) 13 0 (theTt s).plan.headway
  else if a = Reg.SLK_STAT then slkStat s
  else if a = Reg.SLK_THRU_STAT then slkThruStat s
  else if a = Reg.SLK_STN_INFO then slkStn s 0
  else if a = Reg.SLK_STN_LAST then slkStn s 1
  else if a = Reg.SLK_STN_ERR then slkStn s 2
  else
    match bankIx Reg.SLK_LSTAT 0x40 8 a with
    | some p => slkLstat s p
    | none => getReg s a

/-- The HYD, FTR, OPT and SLV windows. R252: the SLV route and fill registers read as zero in BOOT and HOLD. -/
def viewEst (a : Nat) (s : State) : Word :=
  if a = Reg.FTR_STAT then setField (getReg s a) 24 24 (b2n s.ftr.busy)
  else if a = Reg.OPT_STAT then optStat s
  else if a = Reg.SLV_STAT then slvStat (domOn s 5) s
  else if Reg.SLV_HROUTE ≤ a ∧ a ≤ Reg.SLV_PATFILL ∧ !placed s then 0#32
  else getReg s a

/-- The LPE window. R278: the loop registers read as zero in BOOT and HOLD. -/
def viewLpe (a : Nat) (s : State) : Word :=
  if a = Reg.LPE_STAT then lpeStat s
  else
    match bankIx Reg.LPE_FB 4 8 a with
    | some k => lpeFb s k
    | none => if lpeOff s a then 0#32 else getReg s a

/-- The CE window. -/
def viewCe (a : Nat) (s : State) : Word :=
  if a = Reg.CE_STAT then ceStat s
  else
    match bankOf Reg.CE_E_STAT 0x200 8 a with
    | some (e, o) =>
      if o = 0 then ceEStat s e
      else if 0x100 ≤ o then taskRegs s e ((o - 0x100) / 16) (o % 16)
      else getReg s a
    | none => getReg s a

/-! ### CHN, MTR, RED -/

/-- The CHN window. -/
def viewChn (a : Nat) (s : State) : Word :=
  let c := getFld s Reg.CHN_SEL 8 0
  if a = Reg.CHN_STAT then chnStat s
  else if a = Reg.CHN_CINFO then chnInfo s
  else if a = Reg.CHN_CRAW then BitVec.ofNat 32 ((chanSt s c).code % 2 ^ 24)
  else if a = Reg.CHN_CVAL then (chanSt s c).last
  else if a = Reg.CHN_CSEC then wordVal (imgGet s 2 (512 + c))
  else
    match bankIx Reg.CHN_BAD 4 16 a, bankIx Reg.CHN_PC_LO 0x10 64 a with
    | some k, _ => chnBadWord s k
    | none, some n => BitVec.ofNat 32 (pcGet s n).count
    | none, none => getReg s a

/-- R508: a standby is fit while no fatal cause bit is set. -/
def redFit (s : State) : Bool := s.dev.mode == .standby && fatalBits s == 0

/-- R518. The gate is open only while it is armed: its reset value is 0. -/
def redStat (s : State) : Word :=
  let r := s.red
  BitVec.ofNat 32 (b2n r.roleB + bitAt 1 (paired s) + bitAt 2 r.actOut + bitAt 3 r.actIn + bitAt 4 (s.red.armed && gateOpen s) +
    bitAt 5 r.sync + 2 ^ 6 * (r.lanes % 4) + bitAt 8 r.aligning + bitAt 9 r.lockstep + bitAt 10 r.mismatch +
    bitAt 11 (redFit s) + 2 ^ 12 * (r.peerMode % 8) + bitAt 15 r.swapDue)

/-- The RED window. -/
def viewRed (a : Nat) (s : State) : Word :=
  if a = Reg.RED_STAT then redStat s
  else if a = Reg.RED_CMDSTAT then BitVec.ofNat 32 (s.red.cmdStatus % 4)
  else if a = Reg.RED_PRIV_VAL then wordVal (ciOwn s (getFld s Reg.RED_PRIV 8 0))
  else getReg s a

/-! ### MGT, KEY, HIF -/

/-- Eight 8-bit counters as two words (R577). -/
def maCntWord (s : State) (k : Nat) : Word :=
  BitVec.ofNat 32 ((List.range 4).foldl (fun n i => n + 2 ^ (8 * i) * (nth s.key.maCnt (4 * k + i) 0 % 256)) 0)

/-- The MGT window, with KEY. -/
def viewMgt (a : Nat) (s : State) : Word :=
  if a = Reg.MGT_STAT then mgtStat s
  else if a = Reg.MGT_FW_SVN then
    BitVec.ofNat 32 ((match s.mgt.fwPtr with
      | some p => p.2.2.2.2
      | none => 0) % 2 ^ 16 + 2 ^ 16 * (s.mgt.fwSvn % 2 ^ 16))
  else if a = Reg.MGT_CAL_SEC then BitVec.ofNat 32 s.mgt.cal.seconds
  else if a = Reg.MGT_CAL_SLEW then BitVec.ofInt 32 s.mgt.cal.slew
  else if a = Reg.MGT_EVR_STAT then evrStat s
  else if a = Reg.MGT_EVR_SEQ_LO then BitVec.ofNat 32 s.mgt.evr.seq
  else if a = Reg.MGT_EVR_WRAP then BitVec.ofNat 32 (s.mgt.evr.seq / 524288)
  else if a = Reg.KEY_STAT then keyStat s
  else if a = Reg.KEY_CTR_LO then BitVec.ofNat 32 s.key.ctr
  else if a = Reg.KEY_REMASK then setField (getReg s a) 7 0 (remaskHours s)
  else if a = Reg.KEY_MA_CNT0 then maCntWord s 0
  else if a = Reg.KEY_MA_CNT1 then maCntWord s 1
  else
    match bankIx Reg.KEY_LOADED 4 2 a, bankIx Reg.KEY_DAMAGED 4 2 a, bankIx Reg.KEY_UID 4 4 a with
    | some k, _, _ => slotWord (keyLoaded s) k
    | none, some k, _ => slotWord (fun e => (keyEntry s e).damaged) k
    | none, none, some k => Config.uid k
    | none, none, none => getReg s a

/-- The CAUSE register whose interrupt summary bit is `b` (R594). -/
def causeReg (b : Nat) : Nat :=
  nth [Reg.DEV_CAUSE, Reg.PWR_CAUSE, Reg.JNL_CAUSE, Reg.MEM_CAUSE, Reg.SLK_CAUSE, Reg.HYD_CAUSE, Reg.FTR_CAUSE,
    Reg.OPT_CAUSE, Reg.SLV_CAUSE, Reg.LPE_CAUSE, Reg.CE_CAUSE, Reg.CHN_CAUSE, Reg.MTR_CAUSE, Reg.RED_CAUSE,
    Reg.MGT_CAUSE, Reg.HIF_CAUSE, Reg.KEY_CAUSE] b 0

/-- R594: the interrupt summary. -/
def intSummary (s : State) : Word :=
  (List.range 17).foldl (fun w b =>
    if getReg s (causeReg b) &&& getReg s (Reg.HIF_INT_MASK + 4 * b) = 0#32 then w else w ||| bitMask b) 0#32

/-- R594: INT_N is asserted. -/
def intN (s : State) : Bool := getBit s Reg.HIF_INT_CTL 0 && intSummary s != 0#32 && s.dev.mode != .boot

/-- The HIF window. -/
def viewHif (a : Nat) (s : State) : Word :=
  let h := s.hif
  if a = Reg.HIF_STAT then BitVec.ofNat 32 (h.seq % 2 ^ 16 + bitAt 16 h.pending.isSome)
  else if a = Reg.HIF_INT_STAT then intSummary s
  else if a = Reg.HIF_MB_STAT then
    BitVec.ofNat 32 (h.mbState % 4 + 2 ^ 8 * (h.mbResult % 16) + 2 ^ 16 * (h.mbReply % 2 ^ 13))
  else getReg s a

/-- What a register shows: 0 where there is none (R474), and 0 in its WO fields (R5). -/
def regView (a : Nat) (s : State) : Word :=
  match regFind a with
  | none => 0#32
  | some r =>
    let w := match a / 0x10000 with
      | 0 => viewDev a s
      | 1 => viewPwr a s
      | 2 => viewJnl a s
      | 3 => viewMem a s
      | 4 => viewSlk a s
      | 9 => viewLpe a s
      | 10 => viewCe a s
      | 11 => viewChn a s
      | 13 => viewRed a s
      | 14 => viewMgt a s
      | 15 => viewHif a s
      | 12 => if a = Reg.MTR_STAT then mtrStat s else getReg s a
      | _ => viewEst a s
    w &&& ~~~ (regMask r (· == .wo))

/-! ### Reads with an effect -/

/-- A read of JNL_SEQ_LO latches JNL_SEQ_HI (R469). -/
def jnlSeqLoRead (s : State) : Word × State :=
  (BitVec.ofNat 32 s.jnl.seq, setReg Reg.JNL_SEQ_HI (BitVec.ofNat 32 (s.jnl.seq / 2 ^ 32)) s)

/-- A register read with its effect. -/
def readReg (a : Nat) (s : State) : Word × State :=
  if a = Reg.PWR_TICK_LO then tickLoRead s
  else if a = Reg.JNL_SEQ_LO then jnlSeqLoRead s
  else if a = Reg.MGT_CAL_SEC then calSecRead s
  else if a = Reg.MGT_EVR_SEQ_LO then evrSeqLoRead s
  else if a = Reg.KEY_CTR_LO then keyCtrLoRead s
  else
    match bankIx Reg.PWR_E_TOT_LO 8 10 a, bankIx Reg.CHN_PC_LO 0x10 64 a, bankIx Reg.CE_E_TRAPPC 0x200 8 a with
    | some g, _, _ => eTotLoRead g s
    | none, some n, _ => pcLoRead n s
    | none, none, some e => trapPcRead e s
    | none, none, none => (regView a s, s)

/-- TICK_LO_READ (R427). -/
def execTickLoRead (s : State) : Result := .next (tickLoRead s).2
/-- E_TOT_LO_READ (R429); group `g` is 0 to 9. -/
def execETotLoRead (g : Nat) (s : State) : Result := if g < 10 then .next (eTotLoRead g s).2 else .next s
/-- JNL_SEQ_LO_READ (R469). -/
def execJnlSeqLoRead (s : State) : Result := .next (jnlSeqLoRead s).2
/-- CAL_SEC_READ (R547). -/
def execCalSecRead (s : State) : Result := .next (calSecRead s).2
/-- EVR_SEQ_LO_READ (R548). -/
def execEvrSeqLoRead (s : State) : Result := .next (evrSeqLoRead s).2
/-- KEY_CTR_LO_READ (R577). -/
def execKeyCtrLoRead (s : State) : Result := .next (keyCtrLoRead s).2

end Sys2Proof.Machine
end

