-- ==== Sys2Proof/Machine/Snap.lean ====
section
/-! DEFINITION. The snap strobe (R543 to R545): every block's snapshot registers latch on one edge. -/

namespace Sys2Proof.Machine

/-- Sum of a field over the fourteen memories (R492). -/
def memSum (s : State) (base hi lo : Nat) : Nat :=
  (List.range 14).foldl (fun n k => n + getFld s (base + 0x10 * k) hi lo) 0

/-- PWR, JNL and MEM (R432, R472, R492). -/
def snapLow (s : State) : State :=
  let e := s.pwr.eTot.foldl (· + ·) 0
  let s1 := setReg Reg.PWR_SNAP_E_HI (BitVec.ofNat 32 (e / 2 ^ 32)) (setReg Reg.PWR_SNAP_E_LO (BitVec.ofNat 32 e)
    (setReg Reg.PWR_SNAP_STAT (pwrStat s) s))
  let s2 := setReg Reg.PWR_SNAP_TICK_HI (BitVec.ofNat 32 (s.pwr.tick / 2 ^ 32 % 2 ^ 16 + s.pwr.sub % 32 * 2 ^ 16))
    (setReg Reg.PWR_SNAP_TICK_LO (BitVec.ofNat 32 s.pwr.tick) s1)
  let s3 := setReg Reg.JNL_SNAP_TX (txStat s) (setReg Reg.JNL_SNAP_SEQ_HI (BitVec.ofNat 32 (s.jnl.seq / 2 ^ 32))
    (setReg Reg.JNL_SNAP_SEQ_LO (BitVec.ofNat 32 s.jnl.seq) s2))
  setReg Reg.MEM_SNAP_UNC (BitVec.ofNat 32 (memSum s Reg.MEM_M_CNT 31 16 % 2 ^ 16 + 2 ^ 16 * memSum s Reg.MEM_M_UNC 15 0))
    (setReg Reg.MEM_SNAP_CNT (BitVec.ofNat 32 (memSum s Reg.MEM_M_CNT 15 0)) s3)

/-- HYD, FTR, OPT, SLV, LPE and CE (R180, R183, R223, R252, R275, R306). -/
def snapMid (s : State) : State :=
  let s1 := setReg Reg.HYD_SNAP_HW (wordVal (imgGet s 4 0xC010)) (setReg Reg.HYD_SNAP_STAT (getReg s Reg.HYD_STAT) s)
  let s2 := setReg Reg.FTR_SNAP_WAGONS (BitVec.ofNat 32 (getFld s Reg.FTR_STAT 18 0)) s1
  let s3 := setReg Reg.OPT_SNAP_STEP (getReg s Reg.OPT_STEP0) (setReg Reg.OPT_SNAP_STAT (optStat s) s2)
  let s4 := setReg Reg.SLV_SNAP_CNT (BitVec.ofNat 32 s.slv.factors) (setReg Reg.SLV_SNAP_STAT (slvStat (domOn s 5) s) s3)
  let s5 := forN 8 s4 (fun k x => setReg (Reg.LPE_SNAP_FB + 4 * k) (lpeFb s k) x)
  setReg Reg.CE_SNAP_CNT (getReg s Reg.CE_CNT) (setReg Reg.CE_SNAP_STAT (ceStat s)
    (setReg Reg.LPE_SNAP_CNT (getReg s Reg.LPE_CNT) s5))

/-- CHN and MTR (R365, R401). -/
def snapField (s : State) : State :=
  let s1 := forN 64 (setReg Reg.CHN_SNAP_BAD (BitVec.ofNat 32 (chnBadCount s)) s) (fun n x =>
    let k := (pcGet s n).count
    setReg (Reg.CHN_SNAP_PC_HI + 8 * n) (BitVec.ofNat 32 (k / 2 ^ 32)) (setReg (Reg.CHN_SNAP_PC_LO + 8 * n) (BitVec.ofNat 32 k) x))
  let s2 := forN 72 s1 (fun m x =>
    let v := nth (meterGet s m).regs (if m < 64 then 2 else 0) 0
    setReg (Reg.MTR_SNAP_E_HI + 8 * m) (BitVec.ofNat 32 (v / 2 ^ 32)) (setReg (Reg.MTR_SNAP_E_LO + 8 * m) (BitVec.ofNat 32 v) x))
  setReg Reg.MTR_SNAP_STAT (mtrStat s) s2

/-- RED, MGT, KEY and HIF (R521, R549, R578, R600). -/
def snapHigh (s : State) : State :=
  let c := s.mgt.cal
  let s1 := setReg Reg.RED_SNAP_CMP (getReg s Reg.RED_CMP) (setReg Reg.RED_SNAP_STAT (redStat s) s)
  let s2 := setReg Reg.MGT_SNAP_FRAC (BitVec.ofNat 32 (c.frac + bitAt 16 c.valid))
    (setReg Reg.MGT_SNAP_CAL (BitVec.ofNat 32 c.seconds) s1)
  let s3 := setReg Reg.MGT_SNAP_STAT (mgtStat s) (setReg Reg.MGT_SNAP_EVR (BitVec.ofNat 32 s.mgt.evr.seq) s2)
  let s4 := setReg Reg.KEY_SNAP_CTR (BitVec.ofNat 32 s.key.ctr) (setReg Reg.KEY_SNAP_STAT (keyStat s) s3)
  setReg Reg.HIF_SNAP_SEQ (BitVec.ofNat 32 (s.hif.seq % 2 ^ 16)) (setReg Reg.HIF_SNAP_CNT (getReg s Reg.HIF_CNT) s4)

/-- Every block latches (R543). The latched registers are read by no latching rule, so their order does not matter. -/
def snapLatch (s : State) : State := slkSnap (snapHigh (snapField (snapMid (snapLow s))))

/-- The strobe fires: it latches and counts, or with MGT_SNAP_CTL.hold is counted missed (R545). Captures that wait for
a strobe are triggered (R274). -/
def snapStrobe (s : State) : State :=
  if s.mgt.snapDue then
    let s0 := capSnap { s with mgt := { s.mgt with snapDue := false } }
    if getBit s Reg.MGT_SNAP_CTL 2 then cause Reg.MGT_CAUSE 10 (incFld Reg.MGT_SNAP_MISS 15 0 s0)
    else incReg Reg.MGT_SNAP_SEQ (snapLatch s0)
  else s

/-- SNAP_STROBE (R543): the first tick boundary after a request. -/
def execSnapStrobe (s : State) : Result := .next (snapStrobe s)

end Sys2Proof.Machine
end

