-- ==== Sys2Proof/Machine/Txn.lean ====
section
/-! DEFINITION. Transactions (R453 to R467): opening, validation, the commit record, the commit boundary with a staged
timetable's effects (R81), and the ways in which a transaction ends. -/

namespace Sys2Proof.Machine

/-- Replace the transaction. -/
def setTx (x : TxState) (s : State) : State := { s with tx := x }

/-- JNL_TX_STAT.cmd_status. -/
def txCmd (v : Nat) (s : State) : State := { s with tx := { s.tx with cmdStatus := v } }

/-- A transaction ends: nothing is staged any more. -/
def txEnd (result reason entry : Nat) (s : State) : State :=
  { s with tx := { s.tx with
    st := 0, entries := [], stagedSlot := none, stagedTt := none, prompt := false,
    result := result, reason := reason, failEntry := entry } }

/-- R460: a COMMIT fails. -/
def txFail (reason entry : Nat) (s : State) : State := cause Reg.JNL_CAUSE 5 (txEnd 4 reason entry s)

/-- R460, R465, R466: a transaction is discarded. -/
def txDiscard (reason : Nat) (s : State) : State := cause Reg.JNL_CAUSE 6 (txEnd 5 reason 0 s)

/-- R465: entry into BOOT, HOLD or STANDBY discards an open or validating transaction. -/
def txLeave (s : State) : State := if s.tx.st = 1 ∨ s.tx.st = 2 then txDiscard 8 s else s

/-- R453: BEGIN. -/
def txBegin (s : State) : State :=
  if s.dev.mode = .ready ∨ s.dev.mode = .run ∨ s.dev.mode = .safe then
    if s.tx.st ≠ 0 then txCmd 3 s
    else
      setTx { s.tx with st := 1, number := (s.tx.number + 1) % 2 ^ 32, entries := [], stagedSlot := none, stagedTt := none,
                        prompt := false, cmdStatus := 1, idleTicks := 0 } s
  else txCmd 2 s

/-! ### Validation (R460) -/

/-- A register's word with an entry written into it, without effects. -/
def rawWrite (e : Nat × Word) (s : State) : State :=
  match regFind e.1 with
  | some r => setReg e.1 (regWritten r (getReg s e.1) (storeMask e.1 e.2)) s
  | none => s

/-- The timetable that the set is validated against. -/
def txTt (s : State) : Timetable := s.tx.stagedTt.getD (theTt s)

/-- The values that would be in force after the whole set, under the timetable it is validated against. -/
def txFinal (s : State) : State :=
  let t := txTt s
  let s1 := { s with dev := { s.dev with tt := some t } }
  let s2 := if s.tx.stagedTt.isSome then lpeCommit (theTt s) t s1 else s1
  forL s.tx.entries s2 rawWrite

/-- R460 reason 1: an entry would be refused as a direct write, by the final values `f` and in the present state. -/
def entryRefused (s f : State) (e : Nat × Word) : Bool :=
  match regFind e.1 with
  | none => false
  | some r =>
    let v := if (lpeBank e.1).isSome ∧ f32IsFin e.2 then getReg f e.1 else e.2
    (s.dev.mode == .run && !writeMaskBit f (e.1 / 0x10000)) || rwhBlocked s r e.1 e.2 || !rangeOk e.1 e.2 ||
      valueReason e.1 v false s f != 0

/-- R460 reason 5: an entry changes a metrological parameter (R395). -/
def entryMetrological (e : Nat × Word) : Bool := e.1 == Reg.MTR_TAR_D + 8 || e.1 == Reg.MTR_DAYOFS

/-- R80: what a staged replacement may not change. -/
def replaceOk (old new : Timetable) : Bool :=
  old.securityBytes == new.securityBytes && old.redundancy == new.redundancy &&
    (List.range 8).all (fun p => old.line p == new.line p || ((old.line p).mode == 0 && (new.line p).mode == 0))

/-- The payload of the commit record (R459). -/
def commitPayload (s : State) : List Byte :=
  let x := s.tx
  leBytes 4 x.number ++ leBytes 2 x.entries.length ++ leBytes 1 (b2n x.prompt + 2 * b2n x.stagedSlot.isSome) ++
    leBytes 1 (x.stagedSlot.getD 0) ++ fit 0#8 48 (txTt s).digest ++ List.replicate 8 0#8 ++
    x.entries.flatMap (fun e => leBytes 4 e.1 ++ wordBytes e.2)

/-- R459 step 2: the commit record is handed to the journal writer. -/
def txWrite (s : State) : State :=
  jnlRequest { kind := 3, inst := 0, payload := commitPayload s, owner := .commit } (setTx { s.tx with st := 3 } s)

/-- The rest of the validation, after a staged image has passed its check (reasons 4, 1 and 5). -/
def txValidate (s : State) : State :=
  if s.tx.stagedTt.isSome ∧ !replaceOk (theTt s) (txTt s) then txFail 4 0 s
  else
    let f := txFinal s
    match s.tx.entries.findIdx? (entryRefused s f) with
    | some i => txFail 1 i s
    | none =>
      if s.tx.entries.any entryMetrological ∧ logFull s then txFail 5 0 (cause Reg.MTR_CAUSE 5 s)
      else txWrite s

/-- R459, R460: COMMIT and COMMIT_PROMPT. A staged image is checked first; TIMETABLE_CHECK_DONE goes on. -/
def txCommit (prompt : Bool) (s : State) : State :=
  if s.tx.st ≠ 1 then txCmd 2 s
  else
    let s1 := setTx { s.tx with st := 2, prompt := prompt, cmdStatus := 1 } s
    if prompt ∧ (!secFlag s 2 ∨ s.tx.stagedSlot.isSome) then txFail 6 0 s1
    else if s.dev.writer.isSome then txFail 2 0 s1
    else
      match s.tx.stagedSlot with
      | some k => slotUnchecked k true s1
      | none => txValidate s1

/-- The check of the staged image has completed (R460 reason 3). -/
def txChecked (v : Verdict) (t : Timetable) (s : State) : State :=
  if v.code ≠ 0 then txFail 3 0 s else txValidate (setTx { s.tx with stagedTt := some t } s)

/-- R463: ROLLBACK. -/
def txRollback (s : State) : State :=
  if s.tx.st = 1 then txCmd 1 (txEnd 2 0 0 s) else txCmd 2 s

/-- R458: the idle abort. -/
def txIdle (s : State) : State :=
  if s.tx.st = 1 ∧ txIdleTime s * 1024 ≤ s.tx.idleTicks then cause Reg.JNL_CAUSE 4 (txEnd 3 0 0 s) else s

/-- R459: the commit record is durable, or has failed. The pointer record follows directly after it (R81). -/
def txDurable (ok : Bool) (s : State) : State :=
  if s.tx.st ≠ 3 then s
  else if !ok then txFail 9 0 s
  else
    let s1 := setTx { s.tx with st := 4, shadowTick := s.pwr.tick } s
    match s.tx.stagedSlot with
    | some k =>
      let r : JReq := { kind := 1, inst := 0, payload := leBytes 8 k, owner := .commitPtr }
      { s1 with jnl := { s1.jnl with queue := r :: s1.jnl.queue } }
    | none => s1

/-! ### The commit boundary (R461, R81) -/

/-- A word of a region as placement leaves it, in both generations (R625). -/
def imgReset (r i : Nat) (s : State) : State :=
  match r with
  | 0 => { s with img := { s.img with si := smErase s.img.si i, siWork := smErase s.img.siWork i } }
  | 1 => { s with img := { s.img with so := smErase s.img.so i, soWork := smErase s.img.soWork i } }
  | 3 => { s with img := { s.img with co := smErase s.img.co i } }
  | 4 => { s with img := { s.img with ns := smErase s.img.ns i, nsWork := smErase s.img.nsWork i } }
  | 5 => { s with img := { s.img with mi := smErase s.img.mi i } }
  | 6 => { s with img := { s.img with tj := smErase s.img.tj i, tjWork := smErase s.img.tjWork i } }
  | _ => s

/-- The TJ words of a channel without an output record (R624): the header is zero, every other word zero with quality BAD. -/
def tjErase (c : Nat) (s : State) : State := forN 256 s (fun i s => imgReset 6 (256 * c + i) s)

/-- R215: the unused words of an output channel, past the plan of `steps` steps, are zero. -/
def tjUnused (steps c : Nat) (s : State) : State :=
  forN (254 - steps) s (fun i s => { s with img := { s.img with
    tj := smPut (imgInit 6) s.img.tj (256 * c + 2 + steps + i) 0
    tjWork := smPut (imgInit 6) s.img.tjWork (256 * c + 2 + steps + i) 0 } })

/-- R215, R625: the words of an output channel that a commit boundary keeps, when the number of steps goes from `old` to
`new`: a step word that the plan gains is BAD, a word that it loses is zero. -/
def tjSteps (old new c : Nat) (s : State) : State :=
  tjUnused new c (forN (new - old) s (fun i s => imgReset 6 (256 * c + 2 + old + i) s))

/-- R625: the process image of a newly placed timetable. -/
def imgPlace (t : Timetable) (s : State) : State :=
  forL t.mapOutputs { s with img := {} } (fun o s => tjUnused t.mapSteps o.channel s)

/-- R625: the words of objects that a commit boundary adds or takes away. -/
def imgCommit (old new : Timetable) (s : State) : State :=
  let stns := ((old.roster ++ new.roster).map (·.station)).filter (fun n => (old.stn n).isSome != (new.stn n).isSome)
  let s1 := forL stns s (fun n s => forN 16 s (fun i s => imgReset 1 (16 * n + i) (imgReset 0 (16 * n + i) s)))
  let ns := ((hydWords old ++ ftrWords old) ++ (hydWords new ++ ftrWords new)).filter (fun i => old.nsDefined i != new.nsDefined i)
  let s2 := forL ns s1 (fun i s => imgReset 4 i s)
  let mis := (List.range 72).filter (fun m => (meterRec old m).isSome != (meterRec new m).isSome)
  let s3 := forL mis s2 (fun m s => forN 32 s (fun i s => imgReset 5 (32 * m + i) s))
  let outs (t : Timetable) : List Nat := t.mapOutputs.map (·.channel)
  let gone := (outs old).filter (fun c => !(outs new).contains c)
  let added := (outs new).filter (fun c => !(outs old).contains c)
  let kept := (outs new).filter (fun c => (outs old).contains c && old.mapSteps != new.mapSteps)
  let s4 := forL added (forL gone s3 tjErase) (fun c s => tjUnused new.mapSteps c s)
  let s5 := forL kept s4 (fun c s => tjSteps old.mapSteps new.mapSteps c s)
  let owned (t : Timetable) (c : Nat) : Bool := match t.chan c with
    | some r => r.mode != 20 && isOutMode r.mode
    | none => false
  forL ((List.range 512).filter (fun c => owned old c != owned new c)) s5 (fun c s => imgReset 3 c s)

/-- MA3 and MA4 take the timetable that comes into force (R65, R76, R81). -/
def ttMeasure (t : Timetable) (s : State) : State := maExtend 4 (sha384 t.securityBytes) (maExtend 3 t.digest s)

/-- R81: a staged timetable comes into force. -/
def ttCommit (new : Timetable) (slot : Nat) (s : State) : State :=
  let old := theTt s
  let s1 := imgCommit old new { s with dev := { s.dev with tt := some new, activeSlot := slot } }
  let s2 := thruCommit new (slkCommit old (mtrCommit old new (chnPlace (some old) new s1)))
  let s3 := ftrCommit old (hydCommit old new (slvPlace (some old) new s2))
  optCommit old (ceCommit old new (lpeCommit old new (ttMeasure new s3)))

/-- R459 steps 4 and 5, R461: everything staged comes into force; a snapshot due at the same boundary latches first
(R462). `bound` is what JNL_TX_BOUND shows. A standby's done mark is the mirrored one (R505). -/
def txApply (bound : Nat) (s : State) : State :=
  let s0 := snapStrobe s
  let s1 := match s.tx.stagedTt, s.tx.stagedSlot with
    | some t, some k => ttCommit t k s0
    | _, _ => s0
  let s2 := forL s.tx.entries s1 (fun e s => applyEntry e.1 e.2 s)
  let s3 := if s.dev.mode = .standby then s2
    else jnlRequest { kind := 4, inst := 0, payload := leBytes 8 s2.jnl.seq, owner := .done } s2
  let s4 := cause Reg.JNL_CAUSE 8 (txEnd 1 0 0 s3)
  { s4 with tx := { s4.tx with bound := bound % 2 ^ 32 } }

/-- R461: a commit is due at this tick: the tick before it began after the shadows were loaded; a COMMIT waits for a
headway start. Nothing is applied during a power-fail save (R422), nor where headways do not count (R465). -/
def txDue (s : State) : Bool :=
  commitDue s && hwStates s.dev.mode && !workHalted s

/-- The commit boundary of this tick, if one is due. -/
def txBoundary (s : State) : State :=
  if txDue s then txApply (s.dev.headway + b2n s.dev.hwDue) s else s

/-! ### Meanings -/

/-- A transaction command with its key (R470): a wrong key is refused; every command counts as activity (R458). -/
def txKeyed (key : Nat) (f : State → State) (s : State) : Result :=
  let s1 := { s with tx := { s.tx with idleTicks := 0 } }
  if key = theKey then .next (f s1) else .next (txCmd 2 s1)

/-- BEGIN (R453). -/
def execBegin (key : Nat) (s : State) : Result := txKeyed key txBegin s
/-- COMMIT (R459). -/
def execCommit (key : Nat) (s : State) : Result := txKeyed key (txCommit false) s
/-- COMMIT_PROMPT (R459). -/
def execCommitPrompt (key : Nat) (s : State) : Result := txKeyed key (txCommit true) s
/-- ROLLBACK (R463). -/
def execRollback (key : Nat) (s : State) : Result := txKeyed key txRollback s
/-- TX_IDLE_ABORT (R458). -/
def execTxIdleAbort (s : State) : Result := .next (txIdle s)
/-- COMMIT_BOUNDARY (R461). -/
def execCommitBoundary (s : State) : Result := .next (txBoundary s)

end Sys2Proof.Machine
end

