-- ==== Sys2Proof/Machine/MbCmd.lean ====
section
/-! DEFINITION. The mailbox commands of the management subsystem (R522 to R530): INFO, the timetable writer, the firmware
update path, and the readers. The key store's commands are in Key.lean. -/

namespace Sys2Proof.Machine

/-! ### Firmware images (R522, R523) -/

/-- NV offset of a firmware slot. -/
def fwBase (slot : Nat) : Nat := 0x02000000 + slot * 0x00400000

/-- The magic of R522 as bytes. -/
def fwMagic : List Byte := [0x44#8, 0x58#8, 0x46#8, 0x57#8]

/-- Slot A still holds the image of delivery: no byte of it differs (R626). -/
def fwDelivered (s : State) (slot : Nat) : Bool :=
  slot == 0 && !s.nv.any (fun c => decide (0x02000000 ≤ c.1) && decide (c.1 < 0x02400000))

/-- The floor of R523. -/
def fwFloor (s : State) : Nat :=
  match s.mgt.fwPtr with
  | some p => p.2.2.2.2
  | none => 0

/-- What is known of an image: check code of FW_CLOSE, version, svn, digest. -/
structure FwImage where
  code : Nat := 1
  version : Word := 0
  svn : Nat := 0
  digest : List Byte := []
  deriving DecidableEq, Repr

/-- The check of an image of `len` header and code bytes, its magic taken as written (R522, R528). -/
def fwCheckBytes (s : State) (img : List Byte) : FwImage :=
  let x : FwImage := { version := w32 img 8, svn := u16 img 0xC, digest := slice img 0x18 48 }
  let len := u32 img 0x10
  if u16 img 4 ≠ 1 ∨ u16 img 6 ≠ 0x7512 ∨ !zeros img 0xE 2 ∨ len = 0 ∨ 4194048 < len ∨ !zeros img 0x14 4 ∨
      u8 img 0x49 ≠ 1 ∨ !zeros img 0x4A 2 ∨ !zeros img 0xAC 84 then { x with code := 1 }
  else if sha384 (img.take 0x18 ++ slice img 0x100 len) ≠ x.digest then { x with code := 2 }
  else if !signerVerify s (u8 img 0x48) 0 x.digest (slice img 0x4C 48) (slice img 0x7C 48) then { x with code := 3 }
  else if x.svn < fwFloor s then { x with code := 4 }
  else { x with code := 0 }

/-- The image in a slot, with its magic as it will be once written. The image of delivery is good (R626), apart from the
floor. -/
def fwCheck (s : State) (slot : Nat) : FwImage :=
  if fwDelivered s slot then
    { code := if Config.fwSvn.toNat < fwFloor s then 4 else 0, version := Config.fwVersion, svn := Config.fwSvn.toNat,
      digest := Config.fwDigest }
  else
    let head := nvRead s (fwBase slot) 256
    fwCheckBytes s (fwMagic ++ (head.drop 4) ++ nvRead s (fwBase slot + 256) (min 4194048 (u32 head 0x10)))

/-- R522: a slot holds a good image: its magic is written and its check passes. -/
def fwGood (s : State) (slot : Nat) : Bool :=
  (fwDelivered s slot || nvRead s (fwBase slot) 4 == fwMagic) && (fwCheck s slot).code == 0

/-- MGT_FW_VERA and MGT_FW_VERB: the versions of the good images (R546). -/
def fwVersions (s : State) : State :=
  let v (slot : Nat) : Word := if fwGood s slot then (fwCheck s slot).version else 0
  setReg Reg.MGT_FW_VERB (v 1) (setReg Reg.MGT_FW_VERA (v 0) s)

/-- The firmware pointer record's payload (R523). -/
def fwPtrBytes (p : Nat × Nat × Nat × Nat × Nat) : List Byte :=
  leBytes 1 p.1 ++ leBytes 1 p.2.1 ++ leBytes 1 p.2.2.1 ++ leBytes 1 p.2.2.2.1 ++ leBytes 2 p.2.2.2.2 ++
    List.replicate 10 0#8

/-- The pointer that a record's payload holds. -/
def fwPtrOf (b : List Byte) : Nat × Nat × Nat × Nat × Nat := (u8 b 0, u8 b 1, u8 b 2, u8 b 3, u16 b 4)

/-- R523: the pointer in force; without a record, slot A confirmed with floor 0. -/
def fwPtrNow (s : State) : Nat × Nat × Nat × Nat × Nat := s.mgt.fwPtr.getD (0, 0, 0, 0, 0)

/-- The firmware pointer of a mailbox command is durable, or has failed (R529). A confirmed image is no trial any
more (R525); a raised floor can leave a slot without a good image (R546). -/
def fwPtrDurable (tag : Word) (ok : Bool) (s : State) : State :=
  if !ok then mbLate tag 5 [] s
  else
    match jnlLatest s 0xA 0 with
    | none => s
    | some b =>
      let p := fwPtrOf b
      mbLate tag 0 [] (fwVersions { s with mgt := { s.mgt with fwPtr := some p, trial := s.mgt.trial && p.2.1 == 1 } })

/-- Ask for a firmware pointer record on behalf of a mailbox command. -/
def fwPtrWrite (p : Nat × Nat × Nat × Nat × Nat) (s : State) : State :=
  jnlRequest { kind := 0xA, inst := 0, payload := fwPtrBytes p, owner := .fwPtr (getReg s Reg.HIF_MB_SEQ) } (mbHold s)

/-! ### Acceptance -/

/-- Every state except BOOT, and in recovery (R528). -/
def okFw (s : State) : Bool := s.dev.mode != .boot && mbRunOk s

/-- Every state except BOOT. -/
def okRead (s : State) : Bool := okNotBoot s && mbRunOk s

/-- A timetable slot is open. -/
def okTtOpen (s : State) : Bool := okRead s && s.dev.writer.isSome

/-- Writer commands answer busy while a host page programs (R527 result 1). -/
def unlessPage (f : State → State) (s : State) : State := if s.ps.programming then mbReply 1 [] s else f s

/-- R458: slot writer activity. -/
def txTouch (s : State) : State := { s with tx := { s.tx with idleTicks := 0 } }

/-! ### INFO -/

/-- The INFO reply (R528): its items in the order listed, zero padded to 32 bytes. -/
def infoBytes (s : State) : List Byte :=
  let a := fwCheck s 0
  let b := fwCheck s 1
  fit 0#8 32 (leBytes 1 s.mgt.fwSlot ++ leBytes 1 (b2n s.mgt.trial) ++
    wordBytes (getReg s Reg.MGT_FW_VERA) ++ leBytes 2 (if fwGood s 0 then a.svn else 0) ++
    wordBytes (getReg s Reg.MGT_FW_VERB) ++ leBytes 2 (if fwGood s 1 then b.svn else 0) ++
    leBytes 2 (fwFloor s) ++ wordBytes (mgtStat s))

/-- What INFO does with its request. -/
def infoDo (_r : List Byte) (s : State) : State :=
  mbReply 0 (infoBytes s) s

/-- INFO (R528). -/
def execInfo (s : State) : Result := mbDo 0x01 (fun s => s.dev.mode != .boot) infoDo s

/-! ### The timetable writer (R71, R72, R457, R529) -/

/-- R72, R528: TT_OPEN's states. -/
def okTtWriter (s : State) : Bool := okRead s && s.dev.mode != .standby

/-- Write bytes of a slot; what is written to a staged replacement goes to the standby too (R505). -/
def ttPut (k off : Nat) (bs : List Byte) (s : State) : State :=
  let s1 := nvWrite (ttSlotBase k + off) bs s
  if s.tx.stagedSlot = some k then redStream (.record (ttSlotBase k + off) bs) s1 else s1

/-- R527: what a command writes to the non-volatile die is durable, or its write has failed after the retries, which is open (a
free value): the reply is then result 5, where the command would have been done.
DESIGN CHOICE (log entry 89): a write that failed has changed nothing, and the writer stays as it was. -/
def durably (f : State → State) (s : State) : State :=
  if (f s).hif.mbResult ≠ 0 then f s
  else if Config.nvFails s.free then mbReply 5 [] (fresh s).2
  else f (fresh s).2

/-- Open a slot: its magic is zeroed, and while a transaction is open a replacement is staged. -/
def ttOpen (r : List Byte) (s : State) : State :=
  let k := u8 r 0
  if r.length ≠ 1 ∨ 1 < k then mbReply 3 [] s
  else if s.dev.mode ≠ .hold ∧ k = s.dev.activeSlot then mbReply 2 [] s
  else if s.dev.writer.isSome ∨ s.mgt.fwWriter.isSome ∨ (2 ≤ s.tx.st ∧ s.tx.stagedSlot = some k) then mbReply 1 [] s
  else
    let s1 := if s.tx.st = 1 then { s with tx := { s.tx with stagedSlot := some k } } else s
    let s2 := slotUnchecked k false (ttPut k 0 (List.replicate 4 0#8) s1)
    mbReply 0 [] (txTouch { s2 with dev := { s2.dev with writer := some k } })

/-- TT_OPEN (R529). -/
def execTtOpen (s : State) : Result := mbDo 0x10 okTtWriter (fun r => unlessPage (durably (ttOpen r))) s

/-- The data of a write at an offset of a slot, the four bytes of the magic withheld (R71). -/
def withoutMagic (off : Nat) (data : List Byte) : List Byte :=
  if off = 0 then List.replicate 4 0#8 ++ data.drop 4 else data

/-- R528: a write's offset and length are multiples of 8 and lie in the slot. -/
def writeSpanOk (size : Nat) (r : List Byte) : Bool :=
  let off := u32 r 0
  let n := r.length - 4
  decide (4 < r.length) && off % 8 == 0 && n % 8 == 0 && decide (off + n ≤ size)

/-- What TT_WRITE does with its request. -/
def ttWriteDo (r : List Byte) (s : State) : State :=
  if writeSpanOk 16777216 r then
    mbReply 0 [] (txTouch (ttPut (s.dev.writer.getD 0) (u32 r 0) (withoutMagic (u32 r 0) (r.drop 4)) s))
  else mbReply 3 [] s

/-- TT_WRITE (R529): the reply comes when the granules are durable. -/
def execTtWrite (s : State) : Result := mbDo 0x11 okTtOpen (fun r => unlessPage (durably (ttWriteDo r))) s

/-- Close the writer: length, image CRC, then the magic, and the check of R75 starts (R71, R529). -/
def ttClose (r : List Byte) (s : State) : State :=
  let k := s.dev.writer.getD 0
  let len := u32 (nvRead s (ttSlotBase k) 16) 0xC
  if r.length ≠ 4 ∨ u32 r 0 ≠ len ∨ len < 224 ∨ 16777216 < len then mbReply 3 [] s
  else
    let img := leBytes 4 magicDxtt ++ nvRead s (ttSlotBase k + 4) (len - 4)
    let tr := slice img (len - 160) 160
    if u32 tr 4 ≠ (crc32c (img.take (len - 160))).toNat then mbReply 4 [7#8] (txTouch s)
    else
      let s1 := ttPut k 0 (leBytes 4 magicDxtt) s
      mbReply 0 [0#8] (txTouch (slotUnchecked k true { s1 with dev := { s1.dev with writer := none } }))

/-- TT_CLOSE (R529). -/
def execTtClose (s : State) : Result := mbDo 0x12 okTtOpen (fun r => unlessPage (durably (ttClose r))) s

/-- What TT_ABORT does with its request. -/
def ttAbortDo (_r : List Byte) (s : State) : State :=
  mbReply 0 [] (txTouch { s with dev := { s.dev with writer := none } })

/-- TT_ABORT (R529). -/
def execTtAbort (s : State) : Result := mbDo 0x13 okTtOpen ttAbortDo s

/-- A reader of slot bytes: slot, offset and length (R528). -/
def slotReader (base : Nat → Nat) (size slots : Nat) (r : List Byte) (s : State) : State :=
  let n := u32 r 5
  if r.length ≠ 9 ∨ slots ≤ u8 r 0 ∨ 4096 < n ∨ size < u32 r 1 + n then mbReply 3 [] s
  else mbReply 0 (nvRead s (base (u8 r 0) + u32 r 1) n) s

/-- TT_READ (R528). -/
def execTtRead (s : State) : Result := mbDo 0x14 okRead (slotReader ttSlotBase 16777216 2) s

/-! ### The firmware update path (R529) -/

/-- Open a firmware slot that does not run. -/
def fwOpen (r : List Byte) (s : State) : State :=
  let k := u8 r 0
  if r.length ≠ 1 ∨ 1 < k then mbReply 3 [] s
  else if s.mgt.fwRunning ∧ k = s.mgt.fwSlot then mbReply 3 [] s
  else if s.mgt.fwWriter.isSome ∨ s.dev.writer.isSome then mbReply 1 [] s
  else
    let s1 := nvWrite (fwBase k) (List.replicate 4 0#8) s
    mbReply 0 [] (fwVersions { s1 with mgt := { s1.mgt with fwWriter := some k } })

/-- FW_OPEN (R529). -/
def execFwOpen (s : State) : Result := mbDo 0x20 okFw (fun r => unlessPage (durably (fwOpen r))) s

/-- A firmware slot is open. -/
def okFwOpen (s : State) : Bool := okFw s && s.mgt.fwWriter.isSome

/-- What FW_WRITE does with its request. -/
def fwWriteDo (r : List Byte) (s : State) : State :=
  if writeSpanOk 4194304 r then
    mbReply 0 [] (nvWrite (fwBase (s.mgt.fwWriter.getD 0) + u32 r 0) (withoutMagic (u32 r 0) (r.drop 4)) s)
  else mbReply 3 [] s

/-- FW_WRITE (R529). -/
def execFwWrite (s : State) : Result := mbDo 0x21 okFwOpen (fun r => unlessPage (durably (fwWriteDo r))) s

/-- Close the firmware writer: a good image gets its magic (R529). -/
def fwClose (s : State) : State :=
  let k := s.mgt.fwWriter.getD 0
  let c := (fwCheck s k).code
  if c ≠ 0 then mbReply 4 (leBytes 1 c) s
  else
    let s1 := nvWrite (fwBase k) fwMagic s
    mbReply 0 [0#8] (fwVersions { s1 with mgt := { s1.mgt with fwWriter := none } })

/-- FW_CLOSE (R529). -/
def execFwClose (s : State) : Result := mbDo 0x22 okFwOpen (fun _ => unlessPage (durably fwClose)) s

/-- Name a slot as trial for the next boot (R529). -/
def fwActivate (r : List Byte) (s : State) : State :=
  let k := u8 r 0
  if r.length ≠ 1 ∨ 1 < k ∨ !fwGood s k then mbReply 3 [] s
  else
    let p := fwPtrNow s
    fwPtrWrite (k, 1, p.2.2.1, 0, p.2.2.2.2) s

/-- FW_ACTIVATE (R529): the reply comes when the pointer is durable. -/
def execFwActivate (s : State) : Result := mbDo 0x23 okFw fwActivate s

/-- Confirm the running trial image (R525). -/
def fwConfirm (s : State) : State :=
  let p := fwPtrNow s
  fwPtrWrite (p.1, 0, p.1, p.2.2.2.1, max p.2.2.2.2 s.mgt.fwSvn) s

/-- FW_CONFIRM (R525). -/
def execFwConfirm (s : State) : Result := mbDo 0x24 (fun s => okFw s && s.mgt.trial) (fun _ => fwConfirm) s

/-- FW_READ (R528). -/
def execFwRead (s : State) : Result := mbDo 0x25 okFw (slotReader fwBase 4194304 2) s

/-! ### The readers (R530) -/

/-- A reply of records: the missing count as four bytes, then each record, zeros for one that is missing; result 8 when
every one is missing. -/
def recordReply (rs : List (Option (List Byte))) (s : State) : State :=
  let missing := (rs.filter (·.isNone)).length
  mbReply (if missing = rs.length then 8 else 0)
    (leBytes 4 missing ++ rs.flatMap (fun r => r.getD (List.replicate 32 0#8))) s

/-- R528: a count of 1 to 127. -/
def countOk (n : Nat) : Bool := decide (1 ≤ n) && decide (n ≤ 127)

/-- The event record of a sequence number, from the buffer or the recorder. -/
def evrRecord (s : State) (q : Nat) : Option (List Byte) :=
  match (s.mgt.evr.queue ++ s.mgt.evr.buffer).find? (fun r => leNat (slice r 8 6) == q) with
  | some r => some r
  | none =>
    let r := nvRead s (evPos q) 32
    if evValid r q then some r else none

/-- What EVR_READ does with its request. -/
def evrReadDo (r : List Byte) (s : State) : State :=
  let n := u8 r 6
  if r.length ≠ 7 ∨ !countOk n then mbReply 3 [] s
  else recordReply ((List.range n).map (fun i => evrRecord s (leNat (r.take 6) + i))) s

/-- EVR_READ (R530). -/
def execEvrRead (s : State) : Result := mbDo 0x30 okNotBoot evrReadDo s

/-- What EVR_FLUSH does with its request. -/
def evrFlushDo (_r : List Byte) (s : State) : State :=
  mbReply 0 [] (evFlush false s)

/-- EVR_FLUSH (R540). -/
def execEvrFlush (s : State) : Result := mbDo 0x31 okRead evrFlushDo s

/-- A 32-byte record whose last four bytes are the CRC-32C of the others. -/
def crcRecord (r : List Byte) : Bool := u32 r 0x1C == (crc32c (r.take 0x1C)).toNat

/-- What LOG_READ does with its request. -/
def logReadDo (r : List Byte) (s : State) : State :=
  let n := u8 r 4
  if r.length ≠ 5 ∨ !countOk n ∨ 65536 ≤ u32 r 0 then mbReply 3 [] s
  else recordReply ((List.range n).map (fun i =>
    let k := u32 r 0 + i
    let b := nvRead s (logPos k) 32
    if k < 65536 ∧ crcRecord b ∧ u32 b 0 = k then some b else none)) s

/-- LOG_READ (R392, R530). -/
def execLogRead (s : State) : Result := mbDo 0x32 okRead logReadDo s

/-- R390: a source of the archive. -/
def archSourceOk (x : Nat) : Bool := decide (x < 2048) || (decide (0x8000 ≤ x) && decide (x < 0x8048))

/-- What ARCH_READ does with its request. -/
def archReadDo (r : List Byte) (s : State) : State :=
  let n := u8 r 4
  let src := u16 r 0
  if r.length ≠ 5 ∨ !countOk n ∨ !archSourceOk src then mbReply 3 [] s
  else recordReply ((List.range n).map (fun i =>
    let d := u16 r 2 + i
    let b := nvRead s (archPos src d) 32
    if crcRecord b ∧ u16 b 0 = src ∧ u16 b 2 = d then some b else none)) s

/-- ARCH_READ (R390, R530). -/
def execArchRead (s : State) : Result := mbDo 0x33 okRead archReadDo s

/-- JNL_READ (R528). -/
def execJnlRead (s : State) : Result :=
  mbDo 0x34 okRead (slotReader (fun k => 0x02800000 + k * 0x100000) 0x100000 16) s

end Sys2Proof.Machine
end

