-- ==== Sys2Proof/Machine/Ps.lean ====
section
/-! DEFINITION. The parameter store (R436 to R442): passwords, lockouts, page writes. -/

namespace Sys2Proof.Machine

/-- Replace the parameter store. -/
def setPs (x : PsState) (s : State) : State := { s with ps := x }

/-- Replace a partition. -/
def setPart (p : Nat) (x : Partition) (s : State) : State := setPs { s.ps with parts := setNth s.ps.parts p x } s

/-- The check value of a password (R437). -/
def psCheck (p : Nat) (wr : Bool) (pw : List Byte) : List Byte :=
  (sha384 (ascii ['D', 'X', 'P', 'S'] ++ leBytes 1 p ++ leBytes 1 (b2n wr) ++ pw)).take 16

/-- The check value in force: without a partition record the password is 16 zero bytes. -/
def psCheckOf (s : State) (p : Nat) (wr : Bool) : List Byte :=
  let x := psPart s p
  let c := if wr then x.writeCheck else x.readCheck
  if c.isEmpty then psCheck p wr (List.replicate 16 0#8) else c

/-- The partition record (R447 kind 0x0B). -/
def psRecord (s : State) (p : Nat) : List Byte :=
  let x := psPart s p
  psCheckOf s p false ++ psCheckOf s p true ++ leBytes 1 (min 255 x.readFails) ++ leBytes 1 (min 255 x.writeFails) ++
    List.replicate 2 0#8 ++ leBytes 4 ((x.readLock + 1023) / 1024) ++ leBytes 4 ((x.writeLock + 1023) / 1024) ++
    List.replicate 4 0#8

/-- Write the partition record. -/
def psStore (p : Nat) (s : State) : State :=
  jnlRequest { kind := 0xB, inst := p, payload := psRecord s p, owner := .partition } s

/-- A partition as its record gives it (R438, R452 step 4). -/
def psOfRecord (b : List Byte) : Partition :=
  { readCheck := slice b 0 16, writeCheck := slice b 16 16, readFails := u8 b 32, writeFails := u8 b 33,
    readLock := u32 b 36 * 1024, writeLock := u32 b 40 * 1024 }

/-- The boot's parameter store: what the partition records hold, everything locked. -/
def psBoot (s : State) : State :=
  setPs { parts := (List.range 4).map (fun p => match jnlLatest s 0xB p with
    | some b => psOfRecord b
    | none => {}) } s

/-- R437: entry into BOOT or HOLD locks every partition. -/
def psLockAll (s : State) : State :=
  setPs { s.ps with parts := s.ps.parts.map (fun x => { x with readOpen := false, writeOpen := false }) } s

/-- After every command the key registers are cleared (R437). -/
def psDone (status : Nat) (s : State) : State :=
  setPs { s.ps with cmdStatus := status, key := List.replicate 16 0 } s

/-- A partition with one kind's lock, failures and lockout set. -/
def Partition.put (x : Partition) (wr : Bool) (isOpen : Bool) (fails lock : Nat) : Partition :=
  if wr then { x with writeOpen := isOpen, writeFails := fails, writeLock := lock }
  else { x with readOpen := isOpen, readFails := fails, readLock := lock }

/-- R438: the lockout after the n-th failure in a row, in ticks. -/
def psLockout (s : State) (n : Nat) : Nat :=
  min 86400 ((theTt s).security.lockoutBase * 2 ^ (n - 1)) * 1024

/-- Unlock (R437, R438). -/
def psUnlock (p : Nat) (wr : Bool) (s : State) : State :=
  let x := psPart s p
  let lock := if wr then x.writeLock else x.readLock
  let fails := if wr then x.writeFails else x.readFails
  let isOpen := if wr then x.writeOpen else x.readOpen
  if 0 < lock then psDone 3 s
  else if psCheck p wr s.ps.key = psCheckOf s p wr then
    psDone 1 (psStore p (setPart p (x.put wr true 0 0) s))
  else
    let n := fails + 1
    causeS Reg.JNL_CAUSE 9 p (psDone 3 (psStore p (setPart p (x.put wr isOpen n (psLockout s n)) s)))

/-- Lock (R437). -/
def psLock (p : Nat) (wr : Bool) (s : State) : State :=
  let x := psPart s p
  let y := if wr then { x with writeOpen := false } else { x with readOpen := false }
  psDone 1 (setPart p y s)

/-- Set password (R437): only of a kind that is unlocked. -/
def psSet (p : Nat) (wr : Bool) (s : State) : State :=
  let x := psPart s p
  if (if wr then x.writeOpen else x.readOpen) then
    let c := psCheck p wr s.ps.key
    let y := if wr then { x with writeCheck := c, readCheck := psCheckOf s p false }
      else { x with readCheck := c, writeCheck := psCheckOf s p true }
    psDone 1 (psStore p (setPart p y s))
  else psDone 2 s

/-- The parameter store is reachable (R436). -/
def psStates (s : State) : Bool := hwStates s.dev.mode

/-- A parameter store command: the key, the partition, and a state in which the store is reachable. -/
def psKeyed (p key : Nat) (f : State → State) (s : State) : Result :=
  if key = theKey ∧ p < 4 ∧ psStates s then .next (f s) else .next (psDone 2 s)

/-- PS_UNLOCK (R437, R438). -/
def execPsUnlock (p : Nat) (wr : Bool) (key : Nat) (s : State) : Result := psKeyed p key (psUnlock p wr) s
/-- PS_LOCK (R437). -/
def execPsLock (p : Nat) (wr : Bool) (key : Nat) (s : State) : Result := psKeyed p key (psLock p wr) s
/-- PS_SET_PASSWORD (R437). -/
def execPsSetPassword (p : Nat) (wr : Bool) (key : Nat) (s : State) : Result := psKeyed p key (psSet p wr) s

/-- A tick of every lockout (R438). -/
def psTick (s : State) : State :=
  if s.ps.parts.all (fun x => x.readLock == 0 && x.writeLock == 0) then s
  else setPs { s.ps with parts := s.ps.parts.map (fun x =>
    { x with readLock := x.readLock - 1, writeLock := x.writeLock - 1 }) } s

/-- PS_LOCKOUT_EXPIRE (R438): a lockout that has counted down to zero is over; the count itself runs on the tick. One that
still runs stays. -/
def execPsLockoutExpire (p : Nat) (wr : Bool) (s : State) : Result :=
  let x := psPart s p
  if (if wr then x.writeLock else x.readLock) = 0 ∧ p < 4 then
    .next (setPart p (if wr then { x with writeLock := 0 } else { x with readLock := 0 }) s)
  else .next s

/-! ### Pages -/

/-- Whether a host address lies in the parameter store, and in which partition. -/
def psPartOf (a : Nat) : Option Nat :=
  if 0x0EA00000 ≤ a ∧ a < 0x0F200000 then some ((a - 0x0EA00000) / 0x200000) else none

/-- The mode byte of partition `p` (R64). -/
def psMode (s : State) (p : Nat) : Nat := (nth (theTt s).security.psMode p 0#8).toNat

/-- R436 to R438, R442: the reason of R585 for which an access to partition `p` is refused, 0 for none. -/
def psReason (p : Nat) (wr : Bool) (s : State) : Nat :=
  let x := psPart s p
  if !psStates s then 1
  else if psMode s p = 0 ∨ (wr ∧ psMode s p ≠ 2) then 10
  else if !(if wr then x.writeOpen else x.readOpen) then 10
  else if wr ∧ s.ps.frozen then 1
  else 0

/-- The refusal of an access is shown and counted (R469, R471). -/
def psRefuse (s : State) : State := cause Reg.JNL_CAUSE 10 (incFld Reg.JNL_PS_CNT 31 16 s)

/-- The offset in its page of byte `i` of a burst (R439). -/
def psOffset (a i : Nat) : Nat := (a % 256 + i) % 256

/-- The page buffer after a burst: page offsets with the byte written last (R439). -/
def psBuffer (a : Nat) : Nat → List Byte → List (Nat × Byte) → List (Nat × Byte)
  | _, [], acc => acc
  | i, b :: rest, acc => psBuffer a (i + 1) rest (smInsert acc (psOffset a i) b)

/-- The granules of a page that a burst touched, from that of the first address upwards, wrapping: NV offset and its
eight new bytes (R434, R439). -/
def psGranules (a : Nat) (data : List Byte) (s : State) : List (Nat × List Byte) :=
  let buf := psBuffer a 0 data []
  let page := (a - 0x08000000) / 256 * 256
  let first := a % 256 / 8
  (List.range 32).filterMap (fun i =>
    let g := (first + i) % 32
    let o := page + 8 * g
    if buf.any (fun x => x.1 / 8 == g) then
      some (o, (List.range 8).map (fun j => match buf.find? (fun x => x.1 == 8 * g + j) with
        | some x => x.2
        | none => (nvRead s (o + j) 1).headD 0#8))
    else none)

/-- A burst is collected and its page begins to program (R439); host writes share no byte with the journal. -/
def psBurst (a : Nat) (data : List Byte) (s : State) : State :=
  setPs { s.ps with page := psGranules a data s, programming := true } s

/-- The page in the buffer is programmed, granule by granule (R439). -/
def psProgram (s : State) : State :=
  if s.ps.programming then
    let s1 := forL s.ps.page s (fun g s => nvWrite g.1 g.2 s)
    incFld Reg.JNL_PS_CNT 15 0 (setPs { s1.ps with page := [], programming := false } s1)
  else s

/-- R442, R587: a burst that was accepted is performed; after a power-fail warning the store refuses it. -/
def psPerform (a : Nat) (data : List Byte) (s : State) : State := if s.ps.frozen then psRefuse s else psBurst a data s

/-- R589, R593: RST_N or a RESET ends a transaction whose writes have been answered and wait: the answer stands. It is counted,
and a burst into the parameter store is programmed; what it wrote to the switchable domains is cleared with them. -/
def hostEnd (s : State) : State :=
  match s.hif.pending with
  | none => s
  | some (a, data) =>
    let s1 := { s with hif := { s.hif with
      pending := none
      pendStaged := []
      seq := (s.hif.seq + 1) % 2 ^ 16 } }
    if (psPartOf a).isSome then psProgram (psPerform a data s1) else s1

/-- PS_WRITE_BURST (R439): a burst that is not permitted programs nothing. In BOOT, during a save and while a page programs the
host is answered with BUSY (R436, R593, R439), and nothing is performed. -/
def execPsWriteBurst (addr : Nat) (data : List Byte) (s : State) : Result :=
  match psPartOf addr with
  | some p =>
    if data.isEmpty ∨ s.ps.programming ∨ s.dev.mode = .boot ∨ s.pwr.saving then .next s
    else if psReason p true s ≠ 0 then .next (psRefuse s)
    else .next (psBurst addr data s)
  | none => .next s

/-- PS_PAGE_PROGRAMMED (R439). -/
def execPsPageProgrammed (s : State) : Result := .next (psProgram s)

/-- R441: the bytes that a read burst returns: it wraps within its page, and the page buffer is not seen. -/
def psRead (a n : Nat) (s : State) : List Byte :=
  let page := (a - 0x08000000) / 256 * 256
  (List.range n).map (fun i => (nvRead s (page + psOffset a i) 1).headD 0#8)

end Sys2Proof.Machine
end

