-- ==== Sys2Proof/Machine/JnlDone.lean ====
section
/-! DEFINITION. The power-fail save (R419) and what happens when a journal record has become durable or has failed: who
asked for it goes on. -/

namespace Sys2Proof.Machine

/-! ### The power-fail save (R419) -/

/-- R419: PWR_SAVE shows the last durable step. -/
def saveStep (n : Nat) (s : State) : State := setFld Reg.PWR_SAVE 2 0 n s

/-- R419, R420, R423: the save is complete. How long it took is not modelled: a free value. -/
def saveFinish (s : State) : State :=
  let (k, s1) := fresh (saveStep 5 s)
  let us := (Config.freeWord k).toNat % 65536
  let s2 := setFld Reg.PWR_SAVE 31 16 us (setFld Reg.PWR_SAVE 3 3 1 s1)
  let s3 := if 6000 < us then cause Reg.PWR_CAUSE 1 s2 else s2
  { s3 with pwr := { s3.pwr with saving := false, saved := true, save := .idle } }

/-- R419 step 5, R447 kind 0x08: the seal. -/
def saveSeal (s : State) : State :=
  let p := leBytes 8 s.jnl.seq ++ [0xF#8] ++ leBytes 1 s.pwr.sealTx ++ [0#8, 0#8] ++ leBytes 4 s.tx.number
  jnlRequest { kind := 8, inst := 0, payload := p, owner := .save } { s with pwr := { s.pwr with save := .seal } }

/-- R419 step 4: the buffered events are written. -/
def saveEvents (s : State) : State := saveSeal (saveStep 4 (evFlush true s))

/-- R419 step 3: the retentive record of the next engine; its area is captured at once (R297). -/
def saveRetentive (left : List Nat) (s : State) : State :=
  match left with
  | [] => saveEvents (saveStep 3 s)
  | e :: rest =>
    match (theTt s).ret e with
    | some r => retCapture r (!ceIdle s e) .save { s with pwr := { s.pwr with save := .retentive rest } }
    | none => s

/-- R419 step 3 begins, as one save of every engine's area: one that was under way goes no further. A standby writes no
retentive records of its own (R505). -/
def saveRetentives (s : State) : State :=
  if s.dev.mode = .standby then saveRetentive [] s
  else
    let es := (List.range 8).filter (fun e => ((theTt s).ret e).isSome)
    let s1 := { s with ce := { s.ce with retLeft := [], retFailed := false } }
    saveRetentive es (forL es s1 (fun e s => ceSet e { ceGet s e with retReq := some s.pwr.tick } s))

/-- R419 step 2: the totals record, where metering has run; a standby writes none of its own (R505). -/
def saveTotals (s : State) : State :=
  if s.dev.mode = .standby ∨ !s.mtr.started then saveRetentives (saveStep 2 s)
  else totalsRequest 2 .save { s with pwr := { s.pwr with save := .totals } }

/-- R419 step 1, R447 kind 0x07: the power-fail timestamp record. -/
def saveStart (s : State) : State :=
  let (sec, frac) := stamp s
  let p := leBytes 4 sec ++ leBytes 2 frac ++ [0#8, 0#8] ++ leBytes 8 s.pwr.tick ++
    (List.range 72).flatMap (fun m => wordBytes (f32OfRat (peakSince s m)))
  jnlRequest { kind := 7, inst := 0, payload := p, owner := .save } { s with pwr := { s.pwr with save := .timestamp } }

/-- R419: the record of a step is durable; the next step begins. -/
def saveNext (s : State) : State :=
  match s.pwr.save with
  | .timestamp => saveTotals (saveStep 1 s)
  | .totals =>
    let s1 := totalsDone true s
    saveRetentives (saveStep 2 { s1 with mtr := { s1.mtr with cleanSave := true } })
  | .retentive left => saveRetentive left (forN 8 s (fun e s => if s.ce.retLeft.contains e then retDone e true s else s))
  | .seal => saveFinish s
  | _ => s

/-- The first record of the save begins (R627); in BOOT the save performs only the steps whose data and journal exist
(R417): with no journal there is none. -/
def saveBegin (s : State) : State :=
  if s.jnl.pairs = [] then
    let s1 := saveFinish s
    saveStep 0 s1
  else saveStart s

/-! ### Who goes on after a record (R445, R446) -/

/-- R74: the pointer of a LOAD command is durable, or has failed. -/
def loadDurable (ok : Bool) (s : State) : State :=
  match s.dev.cmd with
  | some .loadA | some .loadB =>
    if ok then
      { s with dev := { s.dev with ptr := some (if s.dev.cmd = some .loadA then 0 else 1), loadReady := true } }
    else { s with dev := { s.dev with cmd := none, cmdStatus := 3 } }
  | _ => s

/-- The owner of a record goes on. -/
def jnlDone (o : JOwner) (ok : Bool) (s : State) : State :=
  match o with
  | .load => loadDurable ok s
  | .commit => txDurable ok s
  | .commitPtr =>
    match ok, jnlLatest s 1 0 with
    | true, some p => { s with dev := { s.dev with ptr := some (u8 p 0) } }
    | _, _ => s
  | .totals => totalsDone ok s
  | .retentive e => retDone e ok s
  | .save => if ok then saveNext s else s
  | .key e => if e = 0x49 then epochDurable ok s else keyDurable ok s
  | .keyCtr => keyCounted s
  | .fwPtr tag => fwPtrDurable tag ok s
  | .through => if ok then thruDurable s else s
  | .done | .none_ | .partition | .compaction => s

/-- R501: a durable record of kinds 0x03 to 0x06 is mirrored to the standby. -/
def jnlMirror (s : State) : State :=
  match s.jnl.cur with
  | some c =>
    if c.durable ∧ 3 ≤ c.req.kind ∧ c.req.kind ≤ 6 then redStream (.record (segA c.pair + c.off) c.bytes) s else s
  | none => s

/-- Copy A has been written and read back (R445, R446); its owner learns the outcome. -/
def jnlAWritten (readback : Option (List Byte)) (s : State) : State :=
  match jnlCopyA readback s with
  | (s1, some (o, ok)) => jnlDone o ok (if ok then jnlMirror s1 else s1)
  | (s1, none) => s1

/-- Bring every record that is in progress or waiting to its end, as verified writes (R465; log entry 12); `n` bounds the
number of copies. -/
def jnlFinish : Nat → State → State
  | 0, s => s
  | n + 1, s =>
    match s.jnl.cur with
    | none => s
    | some c => jnlFinish n (if c.durable then jnlCopyB none s else jnlAWritten none s)

/-- R627: at a power-fail warning a key slot pointer record in progress is completed; any other is abandoned: one whose
copy A stands verified is durable, another is not and its place is free again. -/
def jnlAbandon (s : State) : State :=
  match s.jnl.cur with
  | none => s
  | some c =>
    if c.req.kind = 9 then
      let s1 := if c.durable then s else jnlAWritten none s
      jnlCopyB none s1
    else if c.durable then
      { s with jnl := { s.jnl with
        cur := none, rewrites := s.jnl.rewrites ++ [(segB c.pair + c.off, c.bytes)] } }
    else { s with jnl := { s.jnl with cur := none, off := c.off } }

end Sys2Proof.Machine
end

