-- ==== Sys2Proof/Machine/Dev.lean ====
section
/-! DEFINITION. Device control (chapter 1): the states of R23 and what entering each of them does, the commands of
DEV_CMD (R32, R33), slot checks (R74, R75, R77) and the move to SAFE (R26, R27). -/

namespace Sys2Proof.Machine

/-! ### Leaving and entering states (R23) -/

/-- The registers of one word that count, or keep a maximum, since the last entry into READY: address, number, stride
(the register window paragraphs of chapters 1 to 18). -/
def readyCounters : List (Nat × Nat × Nat) :=
  [(Reg.DEV_LATE, 1, 0), (Reg.JNL_CNT, 1, 0), (Reg.JNL_CNT2, 1, 0), (Reg.JNL_PS_CNT, 1, 0), (Reg.MEM_M_CNT, 14, 16),
   (Reg.MEM_M_UNC, 14, 16), (Reg.SLK_LRTMAX, 8, 64), (Reg.SLK_LCNT_TX, 8, 64), (Reg.SLK_LCNT_RX, 8, 64),
   (Reg.SLK_LCNT_FCS, 8, 64), (Reg.SLK_LCNT_LOST, 8, 64), (Reg.SLK_LCNT_MAC, 8, 64), (Reg.SLK_LCNT_DROP, 8, 64),
   (Reg.HYD_TIMEMAX, 1, 0), (Reg.HYD_CNT, 1, 0), (Reg.FTR_WMAX, 1, 0), (Reg.FTR_TIMEMAX, 1, 0),
   (Reg.OPT_TIMEMAX, 1, 0), (Reg.OPT_CNT, 1, 0), (Reg.OPT_FAIL, 1, 0), (Reg.SLV_HYD_CNT, 1, 0), (Reg.SLV_OPT_CNT, 1, 0),
   (Reg.LPE_CNT, 1, 0), (Reg.LPE_TIME, 1, 0), (Reg.CE_CNT, 1, 0), (Reg.CHN_CNT, 1, 0), (Reg.MTR_CNT, 1, 0),
   (Reg.MTR_CNT2, 1, 0), (Reg.RED_CMP, 1, 0), (Reg.RED_LAG, 1, 0), (Reg.RED_LINK, 1, 0), (Reg.MGT_CAL_CNT, 1, 0),
   (Reg.MGT_EVR_CNT, 1, 0), (Reg.HIF_CNT, 1, 0), (Reg.HIF_CNT2, 1, 0)]

/-- Counters are cleared on entry into READY; KEY_REMASK.rounds and CE_En_LOAD.peak are fields beside others. -/
def clearCounters (s : State) : State :=
  let s1 := forL readyCounters s (fun c s => forN c.2.1 s (fun i s => setReg (c.1 + c.2.2 * i) 0 s))
  let s2 := setFld Reg.KEY_REMASK 31 16 0 (forN 8 s1 (fun e s => setFld (Reg.CE_E_LOAD + 0x200 * e) 31 16 0 s))
  let s3 := { s2 with pwr := { s2.pwr with doms := s2.pwr.doms.map (fun (d : Domain) => { d with starts := 0 }) } }
  { s3 with slv := { s3.slv with factors := 0 }, opt := { s3.opt with replaced := 0, reloads := 0 } }

/-- The pair's part in leaving every other state than RUN, STANDBY and SAFE: ACT_OUT_N is not asserted (R496). -/
def pairIdle (s : State) : State :=
  { s with red := { s.red with
    actOut := false, claiming := false, wantRun := false, waitSync := false, aligning := false, lockstep := false,
    lockWhole := false, handover := false, handAck := false, handKeep := false, rx := [], rxSi := none,
    engWait := [], optWait := false, swept := false, peerCrc := none, handCmd := false } }

/-- R23: what stops when the device leaves RUN, STANDBY or SAFE for READY, HOLD or BOOT: loops, tasks and the optimiser
(already stopped in SAFE), then HYD and FTR. -/
def stopWork (s : State) : State :=
  match s.dev.mode with
  | .run | .standby => hydStop (optAbandon (ceHalt (lpeLeaveRun (testPulseClear s))))
  | .safe => hydStop s
  | .boot | .hold | .ready => s

/-- R415: headway counting begins anew. -/
def headwayReset (s : State) : State :=
  { s with dev := { s.dev with
    headway := 0, hwRunning := false, hwDue := false, tickInHw := 0, optHw := 0, optCount := 0, siPublished := false,
    nsPublished := false, outFrozen := false, fatalDue := false } }

/-- Entry into READY. -/
def enterReady (s : State) : State :=
  let s1 := headwayReset (pairIdle (stopWork s))
  let s2 := clearCounters (setMode .ready s1)
  let s3 := { s2 with mgt := { s2.mgt with cal := { s2.mgt.cal with stepped := false } } }
  archReady (mtrReady (ceReady (slkReady s3)))

/-- What both HOLD and BOOT take away: the timetable is no longer loaded and no station is PRESENT or ABSENT any more
(R140); partitions are locked (R437). -/
def unload (s : State) : State :=
  let s1 := psLockAll (pairIdle s)
  let s2 := forN 64 (headwayReset { s1 with dev := { s1.dev with tt := none, autoRunDue := false } }) (fun k s =>
    setReg (Reg.SLK_ABS + 4 * k) 0 (setReg (Reg.SLK_PRES + 4 * k) 0 s))
  { s2 with
    opt := { s2.opt with store := [] }
    lpe := { s2.lpe with loops := [] }
    chn := { s2.chn with ciNext := [] }
    slk := { s2.slk with lines := List.replicate 8 {}, stns := [], joinTick := none } }

/-- The command HOLD (R24): records on their way are completed and the totals saved before the change (R384, R445, R465),
the events after it (R540). -/
def enterHold (s : State) : State :=
  let s1 := totalsNow (mtrStop (jnlFinish 400 (stopWork (txLeave s))))
  let (n, s2) := fresh (unload (evFlush false (setMode .hold s1)))
  { s2 with mem := { s2.mem with era := n } }

/-- Entry into BOOT for the steps of `k`. By a command, records on their way are completed and the totals saved first
(R384, R465); `flush` says that the events are flushed (R540). -/
def enterBoot (k : BootKind) (command flush : Bool) (s : State) : State :=
  let s0 := mbAbort (txLeave (stopWork (hostEnd s)))
  let s1 := if command then totalsNow (mtrStop (jnlFinish 400 s0)) else s0
  let s2 := setMode .boot s1
  let s3 := unload (if flush then evDrain s2 else s2)
  { s3 with
    dev := { s3.dev with bootPending := some k, cmd := none, loadReady := false, writer := none }
    mgt := { s3.mgt with fwWriter := none }
    hif := { s3.hif with inResponse := false, latched := [] } }

/-- R26, R498: RUN to SAFE. A member keeps ACT_OUT_N asserted unless a fit standby can take over; after an interlock
conflict its asserting was settled at once. -/
def enterSafe (s : State) : State :=
  let s1 := optAbandon (ceHalt (lpeLeaveRun (testPulseClear s)))
  let s2 := evFlush false (setMode .safe s1)
  let out := s2.red.actOut &&
    (getBit s2 Reg.DEV_CAUSE 11 || !(s2.red.sync && s2.red.peerMode == 4 && s2.red.peerFit))
  { s2 with
    dev := { s2.dev with fatalDue := false }
    red := { s2.red with actOut := out, handover := false, handAck := false } }

/-- Entry into RUN. `start`: the entry is a start, so blocks begin afresh (entry from READY, or a takeover without
lock-step); `ready`: the entry is from READY, which sets the schedule origin (R18) and the stations' first joins (R117). -/
def enterRun (start ready : Bool) (s : State) : State :=
  let s1 := setMode .run s
  let s2 := { s1 with
    dev := { s1.dev with schedOrigin := if ready then s1.pwr.tick else s1.dev.schedOrigin, autoRunDue := false }
    red := { s1.red with actOut := paired s1, claiming := false, wantRun := false, waitSync := false, handover := false,
                         aligning := false, handAck := false, handKeep := false } }
  let s3 := slkEnterRun ready s2
  if start then
    optEnterRun (ftrEnterRun (hydEnterRun (ceEnterRun (lpeEnterRun (chnEnterRun s3)))))
  else retEntered s3

/-! ### DEV_CMD (R24, R32, R33) -/

/-- R24: the states in which a command is allowed. -/
def devAllowed (c : DevCmd) (m : Mode) : Bool :=
  match c, m with
  | .run, .ready | .stop, .run | .stop, .standby | .hold, .ready | .hold, .safe | .loadA, .hold | .loadB, .hold
  | .clear, .safe => true
  | .reset, _ => true
  | _, _ => false

/-- The slot a LOAD command names. -/
def loadSlot (c : DevCmd) : Option Nat :=
  match c with
  | .loadA => some 0
  | .loadB => some 1
  | _ => none

/-- A command is refused (R32). -/
def devRefuse (s : State) : State := { s with dev := { s.dev with cmdStatus := 3 } }

/-- A pending command is refused. -/
def devDrop (s : State) : State := { s with dev := { s.dev with cmd := none, loadReady := false, cmdStatus := 3 } }

/-- A pending command has taken effect. -/
def devCmdDone (s : State) : State := { s with dev := { s.dev with cmd := none, loadReady := false, cmdStatus := 2 } }

/-- R418, R423: from a power-fail warning on the device stays in its state; after the save RESET is left. -/
def devHalted (c : DevCmd) (s : State) : Bool := s.pwr.saving || (s.pwr.saved && c != .reset)

/-- R27: the state against which a command is judged: SAFE when a fatal cause has arrived in RUN in the same tick. -/
def devJudged (s : State) : Mode := if s.dev.fatalDue ∧ s.dev.mode = .run then .safe else s.dev.mode

/-- R24: the command is allowed now; a CLEAR needs every fatal cause bit clear. -/
def devAllowedNow (c : DevCmd) (s : State) : Bool :=
  devAllowed c (devJudged s) && (c != .clear || fatalBits s == 0)

/-- A write of DEV_CMD: the command becomes pending, or is refused. A LOAD first checks its slot (R74). -/
def devCommand (c : DevCmd) (key : Nat) (s : State) : State :=
  if key ≠ theKey ∨ s.dev.cmd.isSome ∨ devHalted c s then devRefuse s
  else if !devAllowedNow c s then
    let s1 := devRefuse s
    if c = .hold ∧ s.dev.mode = .run then { s1 with dev := { s1.dev with holdRefused := true } } else s1
  else
    let s1 := { s with dev := { s.dev with cmd := some c, cmdStatus := 1, loadReady := false } }
    match loadSlot c with
    | some k => slotUnchecked k true s1
    | none => s1

/-- RUN (R33): pending until the next headway start. -/
def execRun (key : Nat) (s : State) : Result := .next (devCommand .run key s)

/-- STOP (R33): pending until the next headway start. -/
def execStop (key : Nat) (s : State) : Result := .next (devCommand .stop key s)

/-- HOLD (R33): pending until the next tick. -/
def execHold (key : Nat) (s : State) : Result := .next (devCommand .hold key s)

/-- LOAD_A (R33, R74): the check of slot A begins. -/
def execLoadA (key : Nat) (s : State) : Result := .next (devCommand .loadA key s)

/-- LOAD_B (R33, R74): the check of slot B begins. -/
def execLoadB (key : Nat) (s : State) : Result := .next (devCommand .loadB key s)

/-- CLEAR (R33): pending until the next tick. -/
def execClear (key : Nat) (s : State) : Result := .next (devCommand .clear key s)

/-- RESET (R33): pending until the next tick. -/
def execReset (key : Nat) (s : State) : Result := .next (devCommand .reset key s)

/-- R33: what a pending command does at a tick. A fatal cause of the same tick is acted on first (R27). -/
def devTick (s : State) : State :=
  if s.dev.fatalDue ∧ s.dev.mode = .run then s
  else
    match s.dev.cmd with
    | some .hold => if devAllowed .hold s.dev.mode then devCmdDone (enterHold s) else devDrop s
    | some .clear =>
      if s.dev.mode = .safe ∧ fatalBits s = 0 then devCmdDone (enterReady s) else devDrop s
    | some .reset => enterBoot .full true true s
    | some .loadA | some .loadB =>
      if s.dev.mode ≠ .hold then devDrop s
      else if s.dev.loadReady then enterBoot .load true true (devCmdDone s)
      else s
    | some .run | some .stop | none => s

/-- FATAL_CAUSE_SAFE (R26, R27): the tick after a fatal cause in RUN; a pending command is judged against SAFE. -/
def execFatalCauseSafe (s : State) : Result :=
  if s.dev.fatalDue ∧ s.dev.mode = .run then
    let s1 := enterSafe s
    match s1.dev.cmd with
    | some .reset | some .hold => .next (devTick s1)
    | some _ => .next (devDrop s1)
    | none => .next s1
  else .next s

/-! ### Slot checks (R74 to R77) -/

/-- R74: the check of a LOAD has completed: the pointer is written, or the command is refused. -/
def loadChecked (slot : Nat) (v : Verdict) (s : State) : State :=
  if v.code = 0 then jnlRequest { kind := 1, inst := 0, payload := leBytes 8 slot, owner := .load } s else devDrop s

/-- TIMETABLE_CHECK_DONE (R75): the check of a slot that TT_CLOSE, a LOAD or a COMMIT has started. The baseline of R53
follows from who started it.
DESIGN CHOICE (log entry 88): the baseline of a check that TT_CLOSE starts. -/
def execTimetableCheckDone (slot : Nat) (s : State) : Result :=
  if !(slotRep s slot).checking ∨ (slotRep s slot).background ∨ 1 < slot then .next s
  else if s.tx.st = 2 ∧ s.tx.stagedSlot = some slot then
    let (v, t) := ttCheckSlot s (baseLoaded s) slot
    .next (txChecked v t (slotReport slot v s))
  else if (s.dev.cmd.bind loadSlot) = some slot then
    let (v, _) := ttCheckSlot s (baseTotals s) slot
    .next (loadChecked slot v (slotReport slot v s))
  else
    let (v, _) := ttCheckSlot s (if placed s then baseLoaded s else baseTotals s) slot
    .next (slotReport slot v s)

/-- BACKGROUND_SLOT_CHECK_DONE (R76 step 6, R77): the check of a slot not checked in this boot. One that the host opens or
loads meanwhile is checked for the host instead. -/
def execBackgroundSlotCheckDone (slot : Nat) (s : State) : Result :=
  let r := slotRep s slot
  if 1 < slot ∨ s.dev.mode = .boot ∨ r.done ∨ (r.checking ∧ !r.background) ∨ s.dev.writer = some slot then
    .next s
  else
    let (v, _) := ttCheckSlot s (baseTotals s) slot
    .next (slotReport slot v s)

end Sys2Proof.Machine
end

