-- ==== Sys2Proof/Machine/Red.lean ====
section
/-! DEFINITION. Redundant pairs (chapter 15): the interlock and the claim, what the active member sends, the standby's
tick, alignment, comparison, takeover and handover. -/

namespace Sys2Proof.Machine

/-- Replace the pair's state. -/
def setRed (r : RedState) (s : State) : State := { s with red := r }

/-- R66: this member is the preferred one. -/
def preferred (s : State) : Bool := (theTt s).redundancy.preferred == b2n s.red.roleB

/-- R497: the takeover guard in ticks. -/
def guardTicks (s : State) : Nat :=
  if (theTt s).redundancy.takeover = 0 then 16 else (theTt s).redundancy.takeover

/-- R497: the mismatch limit. -/
def mismatchLimit (s : State) : Nat := max 1 (theTt s).redundancy.mismatchLimit

/-- R511: since when ACT_IN_N has been deasserted and the link down. What happens inside a tick counts from the next tick
boundary: the guard has passed at the first tick that lies that long after it. -/
def redDown (s : State) : State :=
  setRed { s.red with
    downTick := if !s.red.actIn && !s.red.sync then some (s.red.downTick.getD (s.pwr.tick + 1)) else none } s

/-! ### What the active member sends (R501, R507) -/

/-- The wagons of the pipes as alignment lines: births travel as ages. -/
def sweepPipes (s : State) : List SyncMsg :=
  s.ftr.pipes.map (fun (p : Nat × List Wagon) => .pipe p.1 (p.2.map (fun (w : Wagon) =>
    (w.ix, w.vol, w.temp, (s.pwr.tick + 2 ^ 32 - w.birth % 2 ^ 32) % 2 ^ 32, qCode w.q))))

/-- The states of the loops as alignment lines. -/
def sweepLoops (s : State) : List SyncMsg :=
  s.lpe.loops.map (fun (p : Nat × LoopSt) => .loop p.1
    [p.2.i, p.2.d, p.2.uPrev, p.2.spEff, p.2.pvPrev, p.2.f, p.2.kpPrev, p.2.ffPrev]
    [p.2.spKnown, p.2.fKnown, p.2.gainKnown, p.2.start, p.2.fb, p.2.released, p.2.manual, p.2.reinit])

/-- R507: the carried state: engine data memories, loop states, the parcel store, the HYD solution, the NS, SO, CO and TJ
regions, the warm-start store and the plan. Each message stands for one line (log entry 106). -/
def sweepLines (s : State) : List SyncMsg :=
  s.ce.engines.zipIdx.map (fun (p : EngineSt × Nat) => .data p.2 p.1.data) ++ sweepLoops s ++ sweepPipes s ++
  (match s.hyd.conv with
   | some c => [.hyd c.1 c.2]
   | none => []) ++
  [.image 4 s.img.nsWork, .image 1 s.img.soWork, .image 3 s.img.co, .image 6 s.img.tjWork,
   .warm s.opt.storeStep (s.opt.store.map (fun (e : WarmEntry) => (e.tag, e.val, e.lo, e.hi))),
   .plan s.opt.kind s.opt.planSeq s.opt.seq s.opt.planStep s.opt.plan]

/-- R507, R520: the sweep says how many lines it holds. -/
def sweepMsgs (s : State) : List SyncMsg := .left (sweepLines s).length :: sweepLines s

/-- The engines that are not idle, as a bit mask. -/
def busyMask (s : State) : Nat := forN 8 0 (fun e n => n + (if ceIdle s e then 0 else 2 ^ e))

/-- R501: the active member closes the tick stream of the tick that ends; while the standby is not in lock-step, the swept
lines (and what has been written to them) go before. -/
def redTickEnd (s : State) : State :=
  if s.dev.mode = .run ∨ s.dev.mode = .safe then
    let s1 := if s.red.peerMode = 4 ∧ !s.red.peerLock then forL (sweepMsgs s) s redSend else s
    redSend .tickEnd (redSend (.cadence s.dev.tickInHw (sinceOrigin s) s.dev.optCount (busyMask s)) s1)
  else s

/-- R501, R506: at a headway start the active member sends every meter's registers and residues. -/
def redMeters (s : State) : State :=
  forMeters (fun m _ s => redStream (.meter m (meterGet s m).regs (meterGet s m).res) s) s

/-- R501: every host write that is performed under R505. -/
def redWrite (a : Nat) (w : Word) (s : State) : State :=
  if 4 ≤ a / 0x10000 ∧ a / 0x10000 ≤ 12 then redStream (.write a w) s else s

/-! ### Alignment (R507) -/

/-- A standby begins to align: it computes nothing until the alignment ends. -/
def alignStart (s : State) : State :=
  let s0 := setFld Reg.RED_ALIGN 23 0 (sweepLines s).length s
  let s1 := hydStop (fabAbandon 2 { s0 with opt := { s0.opt with phase := .idle, due := false } })
  redStatus (setRed { s1.red with
    aligning := true, lockstep := false, lockWhole := false, swept := false, engWait := [], optWait := false } s1)

/-- R507: RED_STAT.lockstep is set once every engine and the optimiser have joined. -/
def lockCheck (s : State) : State :=
  if s.dev.mode = .standby ∧ !s.red.aligning ∧ !s.red.lockstep ∧ s.red.engWait = [] ∧ !s.red.optWait ∧ noFatal s then
    let s1 := setRed { s.red with lockstep := true, cmdStatus := if s.red.cmdStatus = 1 then 2 else s.red.cmdStatus } s
    redStatus s1
  else s

/-- R507: the alignment ends at a headway start by which the sweep is complete; engines that are not idle then, and the
optimiser, join later. -/
def alignEnd (s : State) : State :=
  if s.dev.mode = .standby ∧ s.red.aligning ∧ s.red.swept ∧ getFld s Reg.RED_ALIGN 23 0 = 0 ∧ noFatal s then
    setRed { s.red with
      aligning := false, optWait := true, engWait := (List.range 8).filter (fun e => s.red.busy / 2 ^ e % 2 == 1) } s
  else s

/-- R359, R507: the CO words that the sweep brings count as written, for the active member drives by them; a word that still
is as placed has been written by nobody (DEDUCED, log entry 106). -/
def coAligned (s : State) : State :=
  forL ((theTt s).channels.filter (fun r => isOutMode r.mode)) s (fun r s =>
    setChan r.channel { chanSt s r.channel with coWritten := imgGet s 3 r.channel != badWord } s)

/-- R507, R520: a line of the running sweep has arrived. -/
def lineCounted (s : State) : State :=
  if s.red.swept then setFld Reg.RED_ALIGN 23 0 (getFld s Reg.RED_ALIGN 23 0 - 1) s else s

/-- R507: an engine that has not joined stays on the mirror: of an SO or CO line the words that its tasks own are taken. -/
def mirrorOwned (r : Nat) (ws : List (Nat × DWord)) (s : State) : State :=
  let refs := ((theTt s).tasks.filter (fun k => s.red.engWait.contains k.engine)).flatMap (ownedRefs (theTt s))
  forL (ws.filter (fun w => refs.contains (r * 2 ^ 28 + w.1))) s (fun w s => imgPut r w.1 w.2 s)

/-- R507: a line of the sweep or of the write mirror. -/
def alignApply (m : SyncMsg) (s : State) : State :=
  match m with
  | .data e cells => ceSet e { ceGet s e with data := cells } s
  | .loop k ws fl => loopSet k {
      i := nth ws 0 0, d := nth ws 1 0, uPrev := nth ws 2 0, spEff := nth ws 3 0, pvPrev := nth ws 4 0, f := nth ws 5 0,
      kpPrev := nth ws 6 0, ffPrev := nth ws 7 0, spKnown := nth fl 0 false, fKnown := nth fl 1 false,
      gainKnown := nth fl 2 false, start := nth fl 3 false, fb := nth fl 4 false, released := nth fl 5 false,
      manual := nth fl 6 false, reinit := nth fl 7 false } s
  | .pipe e ws => pipeSet e (ws.map (fun w => {
      ix := w.1, vol := w.2.1, temp := w.2.2.1, birth := (s.pwr.tick + 2 ^ 32 - w.2.2.2.1) % 2 ^ 32,
      q := qualityOf w.2.2.2.2 })) s
  | .hyd q h => { s with hyd := { s.hyd with conv := some (q, h), flows := q, heads := h, coldDue := false } }
  | .image 1 ws => { s with img := { s.img with so := ws, soWork := ws } }
  | .image 3 ws => coAligned { s with img := { s.img with co := ws } }
  | .image 4 ws => { s with
      img := { s.img with ns := ws, nsWork := ws }
      ftr := { s.ftr with mixes := mixesOf (theTt s) s.pwr.tick ws } }
  | .image 6 ws => { s with img := { s.img with tj := ws, tjWork := ws } }
  | .warm st es => { s with opt := { s.opt with
      storeStep := st, store := es.map (fun e => { tag := e.1, val := e.2.1, lo := e.2.2.1, hi := e.2.2.2 }) } }
  | .plan k q n st cs => { s with opt := { s.opt with kind := k, planSeq := q, seq := n, planStep := st, plan := cs } }
  | .left n => if s.red.swept then s else setFld Reg.RED_ALIGN 23 0 n (setRed { s.red with swept := true } s)
  | _ => s

/-- R507, R520: a line is applied and counted. -/
def alignLine (m : SyncMsg) (s : State) : State :=
  match m with
  | .left _ => alignApply m s
  | _ => lineCounted (alignApply m s)

/-! ### The standby's tick (R502 to R506) -/

/-- What a message of the tick stream does when its tick is worked off. -/
def applyStream (m : SyncMsg) (s : State) : State :=
  match m with
  | .ci ws => forL ws s (fun w s => imgPut 2 w.1 w.2 s)
  | .write a w => applyReg a w s
  | .meter m regs res => meterUpd m (fun x => { x with regs := regs, res := res }) s
  | .cadence pos origin opt busy =>
    let s1 := setRed { s.red with busy := busy, originGot := true } s
    { s1 with dev := { s1.dev with
      tickInHw := pos, hwDue := pos == 0, hwRunning := true, schedOrigin := (s1.pwr.tick + 2 ^ 48 - origin % 2 ^ 48) % 2 ^ 48,
      optCount := if pos = 0 then s1.dev.optCount else opt } }
  | _ => s

/-- The messages of the oldest tick that has ended, and what follows them. -/
def rxTick (rx : List SyncMsg) : Option (List SyncMsg × List SyncMsg) :=
  match rx.findIdx? (· == .tickEnd) with
  | some i => some (rx.take i, rx.drop (i + 1))
  | none => none

/-- R502: the streams of the next tick to perform have arrived: its tick-end frame, and at t_in the input copy. -/
def streamsReady (s : State) : Bool :=
  match rxTick s.red.rx with
  | some (ms, _) =>
    s.red.rxSi.isSome || !ms.any (fun m => match m with
      | .cadence pos _ _ _ => pos == (theTt s).plan.tIn
      | _ => false)
  | none => false

/-- R502, R503: perform the active member's tick from its streams. -/
def standbyTick (s : State) : State :=
  match rxTick s.red.rx with
  | some (ms, rest) =>
    let s1 := forL ms (setRed { s.red with rx := rest } s) applyStream
    let s2 := subPass (getFld s1 Reg.RED_CTL 4 0) s1
    let s2 := maxFld Reg.RED_LAG 4 0 s2.pwr.sub s2
    lockCheck (setRed { s2.red with
      stepped := true
      engWait := s2.red.engWait.filter (fun e => s2.red.busy / 2 ^ e % 2 == 1) } s2)
  | none => s

/-- STANDBY_TICK_WORK (R502): once in each of the standby's own ticks. -/
def execStandbyTickWork (s : State) : Result :=
  if s.dev.mode = .standby ∧ !s.red.stepped ∧ streamsReady s then .next (standbyTick s) else .next s

/-- LAG_TIMEOUT (R502): the streams for this tick have not arrived within lag_allow: the standby loses step and aligns again. -/
def execLagTimeout (s : State) : Result :=
  if s.dev.mode = .standby ∧ !s.red.aligning ∧ !s.red.stepped ∧ !streamsReady s then
    let s1 := maxFld Reg.RED_LAG 4 0 (getFld s Reg.RED_CTL 4 0) (cause Reg.RED_CAUSE 5 s)
    .next (alignStart s1)
  else .next s

/-! ### Entering STANDBY, digests (R496, R505) -/

/-- Entry into STANDBY: `aligned` after a handover, when the member goes on in lock-step (R514 step 4). -/
def enterStandby (aligned : Bool) (s : State) : State :=
  let s1 := testPulseClear (txLeave s)
  let s2 := { s1 with
    dev := { s1.dev with autoRunDue := false, fatalDue := false }
    chn := { s1.chn with ciNext := [] }
    red := { s1.red with
      stepped := false
      priv := s1.chn.ciNext.foldl (fun v p => smPut (imgInit 2) v p.1 p.2) s1.img.ci
      originGot := false, rx := [], rxSi := none, wantRun := false, waitSync := false, claiming := false,
      ownCrc := none, peerCrc := none, lockstep := aligned, lockWhole := aligned, aligning := false } }
  let s3 := ciBlind (setMode .standby s2)
  if aligned then s3
  else
    let s4 := if s3.ftr.seeded then s3 else ftrEnterRun s3
    alignStart { s4 with red := { s4.red with actOut := false } }

/-- R505: the peer's digest differs: a member in STANDBY passes to READY. -/
def digestMismatch (s : State) : State := enterReady (cause Reg.RED_CAUSE 10 s)

/-- R496 step 1: the interlock makes the member passive: STANDBY when the link is up, else READY until it comes up. A
member enters STANDBY only while its digest equals the active member's (R505). -/
def passive (s : State) : State :=
  if s.red.sync then
    if s.red.peerDigest = (theTt s).digest then enterStandby false s
    else cause Reg.RED_CAUSE 10 (setRed { s.red with actOut := false, claiming := false, wantRun := false, waitSync := false } s)
  else setRed { s.red with actOut := false, claiming := false, wantRun := false, waitSync := true } s

/-- R496: a RUN command or an auto-run at a headway start in a pair. -/
def claim (s : State) : State :=
  if s.red.actIn then passive s
  else if preferred s ∨ guardTicks s ≤ s.pwr.tick - s.red.actInTick then
    setRed { s.red with actOut := true, claiming := true, wantRun := false, waitSync := false } s
  else setRed { s.red with wantRun := true } s

/-- CLAIM_SAMPLE (R496 step 3): 4 sub-ticks after the claim. -/
def execClaimSample (s : State) : Result :=
  if s.dev.mode = .ready ∧ s.red.claiming then
    if s.red.actIn ∧ !preferred s then .next (passive (cause Reg.RED_CAUSE 9 (setRed { s.red with actOut := false, claiming := false } s)))
    else .next (enterRun true true s)
  else .next s

/-! ### The interlock (R495, R498, R499) -/

/-- RED_SWAP_LAST: a handover or proving swap has completed. -/
def handoverDone (s : State) : State :=
  let s1 := setReg Reg.RED_SWAP_LAST (BitVec.ofNat 32 s.mgt.cal.seconds) (cause Reg.RED_CAUSE 2 s)
  setRed { s1.red with
    handKeep := false, handover := false, handAck := false, swapTick := s1.pwr.tick, swapDue := false, handCmd := false,
    cmdStatus := if s1.red.handCmd then 2 else s1.red.cmdStatus } s1

/-- ACT_IN_N_CHANGE (R495): the gate follows the two pins. A deassertion while the link reports the peer in RUN or SAFE is
a wiring fault (R499); an assertion ends a handover (R514 step 4). -/
def execActInNChange (asserted : Bool) (s : State) : Result :=
  let s1 := redDown (setRed { s.red with
    actIn := asserted, actInTick := if s.red.actIn = asserted then s.red.actInTick else s.pwr.tick + 1 } s)
  if !asserted ∧ s.red.actIn ∧ paired s ∧ s.red.sync ∧ (s.red.peerMode = 3 ∨ s.red.peerMode = 5) then
    .next (cause Reg.RED_CAUSE 8 s1)
  else if asserted ∧ s.red.handKeep then .next (handoverDone { s1 with red := { s1.red with actOut := false } })
  else .next s1

/-- INTERLOCK_CONFLICT (R498): both members have asserted ACT_OUT_N for more than 4 sub-ticks outside a claim or a
handover. The member that is not preferred deasserts at once. -/
def execInterlockConflict (s : State) : Result :=
  if paired s ∧ s.red.actOut ∧ s.red.actIn ∧ !s.red.claiming ∧ !s.red.handKeep then
    let s1 := if s.dev.mode = .run then fatal 11 0 s else s
    if preferred s then .next s1 else .next { s1 with red := { s1.red with actOut := false } }
  else .next s

/-! ### Comparison (R509, R510) -/

/-- R11: the channels whose CO word has an owner, in channel order. -/
def ownedCo (t : Timetable) : List Nat :=
  let refs := (t.loops.filter (fun l => l.law != 0)).map (fun l => l.outRef) ++ t.tasks.flatMap (ownedRefs t)
  (List.range 512).filter (fun c => refs.contains (3 * 2 ^ 28 + c))

/-- R509: the output checksum over the frozen SO generation and the owned CO words. -/
def outputChecksum (s : State) : Word :=
  let t := theTt s
  crc32c ((List.range (t.regionWords 1)).flatMap (fun i => leBytes 8 (imgGet s 1 i).toNat) ++
    (ownedCo t).flatMap (fun c => leBytes 8 (imgGet s 3 c).toNat))

/-- R509, R510: compare when both checksums of a headway are there and lock-step has held for the whole headway. -/
def redCompare (s : State) : State :=
  match s.red.ownCrc, s.red.peerCrc with
  | some (h, own), some peer =>
    let s0 := setRed { s.red with ownCrc := none, peerCrc := none } s
    if (theTt s).redundancy.compare ≠ 1 ∨ !s.red.lockWhole ∨ s.dev.mode ≠ .standby then s0
    else
      let s1 := setReg Reg.RED_CMP_HW (BitVec.ofNat 32 h) (setReg Reg.RED_CRC_PEER peer (setReg Reg.RED_CRC_OWN own s0))
      if own = peer then setFld Reg.RED_CMP 15 0 0 (setRed { s1.red with mismatch := false } s1)
      else
        let s2 := incFld Reg.RED_CMP 31 16 (incFld Reg.RED_CMP 15 0 (evRaise 0xD080 0 own peer s1))
        if getFld s2 Reg.RED_CMP 15 0 = mismatchLimit s then
          alignStart (cause Reg.RED_CAUSE 4 (setRed { s2.red with mismatch := true } s2))
        else s2
  | _, _ => s

/-! ### The record mirror (R501, R505) -/

/-- A mirrored commit record: its entries, and a staged replacement in the own inactive slot, are applied at the same
boundary. The own pointer record follows (R81). -/
def mirrorCommit (p : List Byte) (s : State) : State :=
  let fl := u8 p 6
  let es := (List.range (u16 p 4)).map (fun i => (u32 p (64 + 8 * i), w32 p (68 + 8 * i)))
  let s1 := setTx { s.tx with
    st := 4, number := u32 p 0, entries := es, prompt := fl % 2 == 1, stagedSlot := none, stagedTt := none,
    shadowTick := s.pwr.tick + 1 } s
  if bit fl 1 then
    let k := 1 - s.dev.activeSlot
    let (v, t) := ttCheckSlot s1 (baseLoaded s1) k
    let s2 := slotReport k v s1
    if v.code = 0 then
      jnlRequest { kind := 1, inst := 0, payload := leBytes 8 k, owner := .commitPtr }
        (setTx { s2.tx with stagedSlot := some k, stagedTt := some t } s2)
    else s2
  else s1

/-- A mirrored journal record stands in both copies of its pair, at the same place as the active member's. -/
def mirrorJournal (off : Nat) (b : List Byte) (s : State) : State :=
  let k := (off - segA 0) / 0x100000
  let o := off % 0x100000
  let seq := u64 b 8
  let payload := slice b 16 (u32 b 4)
  let s0 :=
    if s.jnl.pairs.contains k then s
    else
      let h := jnlHeader k (s.jnl.segSeq + 1) seq
      let s' := nvWrite (segB k) h (nvWrite (segA k) h s)
      { s' with jnl := { s'.jnl with pairs := s'.jnl.pairs ++ [k], segSeq := s'.jnl.segSeq + 1, off := 64 } }
  let s1 := nvWrite (segB k + o) b (nvWrite (segA k + o) b s0)
  let s2 := { s1 with jnl := { s1.jnl with
    seq := max s1.jnl.seq seq
    off := if jnlHead s1.jnl = k then max s1.jnl.off (o + b.length) else s1.jnl.off
    live := jnlLive s1.jnl.live (u8 b 2) (u8 b 3) seq k payload } }
  if u8 b 2 = 3 then mirrorCommit payload s2
  else if u8 b 2 = 5 then
    setReg Reg.MTR_SAVESEQ (BitVec.ofNat 32 (u64 payload 0)) { s2 with mtr := { s2.mtr with saveSeq := u64 payload 0 } }
  else s2

/-- A record of the mirror: bytes of a staged replacement go into the own inactive slot; a metrological log record counts
as used; every record stands at the same place as in the active member. -/
def mirrorRecord (off : Nat) (b : List Byte) (s : State) : State :=
  if off < 0x02000000 then
    let k := 1 - s.dev.activeSlot
    slotUnchecked k false (nvWrite (ttSlotBase k + off % 0x1000000) b s)
  else if segA 0 ≤ off ∧ off < segB 0 then mirrorJournal off b s
  else
    let s1 := nvWrite off b s
    if logPos 0 ≤ off ∧ off < logPos 65536 then
      setReg Reg.MTR_LOG_LAST (w32 b 4) (setFld Reg.MTR_LOG 16 0 ((off - logPos 0) / 32 + 1) s1)
    else s1

/-! ### Frames (R500, R501) -/

/-- R499: the link reports the peer in RUN or SAFE while ACT_IN_N is deasserted. -/
def wiringFault (s : State) : State :=
  if (s.red.peerMode = 3 ∨ s.red.peerMode = 5) ∧ !s.red.actIn ∧ !getBit s Reg.RED_CAUSE 8 then cause Reg.RED_CAUSE 8 s else s

/-- What a received message does. -/
def syncReceive (m : SyncMsg) (s : State) : State :=
  let standby := s.dev.mode = .standby
  match m with
  | .ack => s
  | .ci _ | .write _ _ | .meter _ _ _ | .cadence _ _ _ _ | .tickEnd =>
    if standby then setRed { s.red with rx := s.red.rx ++ [m] } s else s
  | .si ws => if standby then setRed { s.red with rxSi := some ws } s else s
  | .endHw _ crc mode _ digest handover =>
    let s1 := wiringFault (setRed { s.red with peerMode := mode, peerDigest := digest } s)
    if !standby then s1
    else if digest ≠ (theTt s).digest then digestMismatch s1
    else
      let s2 := redCompare (setRed { s1.red with
        peerCrc := some crc
        handAck := false } s1)
      if handover ∧ s2.red.lockstep then redSend .handoverAck (setRed { s2.red with handAck := true } s2) else s2
  | .status mode fit digest lockstep =>
    let s1 := wiringFault
      (setRed { s.red with peerMode := mode, peerFit := fit, peerDigest := digest, peerLock := lockstep } s)
    if standby ∧ (mode = 3 ∨ mode = 5) ∧ digest ≠ (theTt s).digest then digestMismatch s1
    else if s.dev.mode = .ready ∧ s.red.waitSync ∧ s.red.actIn then passive s1
    else s1
  | .handoverAck => if s.red.handover then setRed { s.red with handAck := true } s else s
  | .record off b => if standby then mirrorRecord off b s else s
  | .data e _ => if standby ∧ (s.red.aligning ∨ s.red.engWait.contains e) then alignLine m s else s
  | .warm _ _ | .plan _ _ _ _ _ => if standby ∧ (s.red.aligning ∨ s.red.optWait) then alignLine m s else s
  | .image r ws =>
    if standby ∧ s.red.aligning then alignLine m s
    else if standby ∧ r = 6 ∧ s.red.optWait then alignApply m s
    else if standby ∧ (r = 1 ∨ r = 3) then mirrorOwned r ws s
    else s
  | .loop _ _ _ | .pipe _ _ | .hyd _ _ | .left _ => if standby ∧ s.red.aligning then alignLine m s else s

/-- SYNC_FRAME (R500): frame `seq` is received and acknowledged; a frame sent again is acknowledged only. An
acknowledgement ends the wait of the frame it names. -/
def execSyncFrame (seq : Nat) (m : SyncMsg) (s : State) : Result :=
  if !domOn s 17 ∨ !paired s ∨ !s.red.sync then .next s
  else if m = .ack then .next (setRed { s.red with tx := s.red.tx.filter (fun x => x.seq != seq) } s)
  else
    let s1 := setRed { s.red with sent := some (seq, .ack) } s
    if s.red.rxSeq = some seq then .next s1
    else .next (syncReceive m (setRed { s1.red with rxSeq := some seq } s1))

/-- SYNC_RESEND_TIMEOUT (R500): a frame not acknowledged within 20 µs is sent again. -/
def execSyncResendTimeout (seq : Nat) (s : State) : Result :=
  match s.red.tx.find? (fun x => x.seq == seq) with
  | some x =>
    if domOn s 17 ∧ s.red.sync then .next (incFld Reg.RED_LINK 15 0 (setRed { s.red with sent := some (x.seq, x.msg) } s)) else .next s
  | none => .next s

/-- R500: the link goes down. -/
def syncDown (s : State) : State :=
  if s.red.sync then
    redDown (cause Reg.RED_CAUSE 6 (incFld Reg.RED_LINK 31 16
      (setRed { s.red with sync := false, lanes := 0, tx := [], peerFit := false, peerLock := false } s)))
  else s

/-- SYNC_LINK_TIMEOUT (R500): no valid frame or idle word for 100 µs. -/
def execSyncLinkTimeout (s : State) : Result := .next (syncDown s)

/-- SYNC_LINK_UP (R500, R496): frames or idle words arrive again while PLL_SER is locked. A member that waits in READY passes to
STANDBY once it knows that the active member's digest is its own (R505): at once, or when the peer's next status frame tells
it. It claims at the next headway start when the peer is not active. -/
def execSyncLinkUp (s : State) : Result :=
  if !domOn s 17 ∨ !paired s ∨ s.red.sync ∨ !s.pwr.serLock then .next s
  else
    let s1 := setRed { s.red with
      sync := true, lanes := (theTt s).redundancy.lanes, rxSeq := none, formed := true,
      swapTick := if s.red.formed then s.red.swapTick else s.pwr.tick } s
    let s2 := redStatus (redDown s1)
    if s2.dev.mode = .ready ∧ s2.red.waitSync then
      if s2.red.actIn then .next (if s2.red.peerDigest = (theTt s2).digest then enterStandby false s2 else s2)
      else .next (setRed { s2.red with waitSync := false, wantRun := true } s2)
    else .next s2

/-- SYNC_LANE_LOSS (R500): one lane of two fails; all traffic moves to the other. -/
def execSyncLaneLoss (lane : Nat) (s : State) : Result :=
  if domOn s 17 ∧ s.red.sync ∧ s.red.lanes = 3 ∧ lane < 2 then
    .next (cause Reg.RED_CAUSE 7 (setRed { s.red with lanes := 3 - 2 ^ lane } s))
  else .next s

/-! ### Handover, swaps, takeover (R511 to R516) -/

/-- R516: what a proving swap or a handover on command needs. -/
def swapOk (s : State) : Bool :=
  let r := s.red
  s.dev.mode == .run && paired s && s.mgt.cal.valid && r.sync && r.lanes == (theTt s).redundancy.lanes && r.peerMode == 4 &&
    r.peerFit && r.peerLock && !r.mismatch && !(s.tx.st == 2 || s.tx.st == 3 || s.tx.st == 4) && !s.pwr.pfwNow &&
    !getBit s Reg.RED_CTL 8

/-- R516: when swaps are due: the period in ticks, none when disabled. -/
def swapPeriod (s : State) : Option Nat :=
  let h := (theTt s).redundancy.swapHours
  if h = 0xFFFF then none else some ((if h = 0 then 168 else h) * 3600 * 1024)

/-- R516: the tick's part: a swap falls due. -/
def swapTick (s : State) : State :=
  match swapPeriod s with
  | some p =>
    if s.dev.mode = .run ∧ paired s ∧ s.red.formed ∧ p ≤ s.pwr.tick - s.red.swapTick then
      setRed { s.red with swapDue := true } s
    else s
  | none => s

/-- The calendar day (UTC). -/
def calDay (s : State) : Nat := s.mgt.cal.seconds / 86400

/-- R516: a due proving swap waits until the same minute of the next day. -/
def swapDefer (s : State) : State := cause Reg.RED_CAUSE 3 (setRed { s.red with swapDay := some (calDay s) } s)

/-- PROVING_SWAP (R516): the minute of day has come while a swap is due: the handover is announced, or put off to the
next day. -/
def execProvingSwap (s : State) : Result :=
  if s.dev.mode ≠ .run ∨ !paired s ∨ !s.red.swapDue ∨ s.red.handover ∨ s.red.swapDay = some (calDay s) then .next s
  else if s.mgt.cal.valid ∧ s.mgt.cal.seconds / 60 % 1440 ≠ (theTt s).redundancy.swapMinute then .next s
  else if swapOk s then .next (setRed { s.red with handover := true, handAck := false } s)
  else .next (swapDefer s)

/-- R516: a handover that was announced no longer meets its conditions at its headway start: it does not take place. A proving
swap is put off; a command is refused. -/
def handoverOff (s : State) : State :=
  let s1 := setRed { s.red with
    handover := false
    handAck := false
    handCmd := false
    cmdStatus := if s.red.handCmd then 3 else s.red.cmdStatus } s
  if s.red.handCmd then s1 else swapDefer s1

/-- RED_CMD handover (R514, R516): the handover of the next headway start is announced. -/
def redHandover (s : State) : State :=
  if swapOk s ∧ !s.red.handover then
    setRed { s.red with handover := true, handAck := false, handCmd := true, cmdStatus := 1 } s
  else setRed { s.red with cmdStatus := 3 } s

/-- HANDOVER (R514, R519). -/
def execHandover (s : State) : Result := .next (redHandover s)

/-- RED_CMD realign (R507, R519): a standby aligns again. -/
def redRealign (s : State) : State :=
  if s.dev.mode = .standby then alignStart (setRed { s.red with cmdStatus := 1 } s)
  else setRed { s.red with cmdStatus := 3 } s

/-- REALIGN (R507, R519). -/
def execRealign (s : State) : Result := .next (redRealign s)

/-- A write of RED_CMD (R519): a wrong key or command is refused. -/
def redCommand (w : Word) (s : State) : State :=
  if field w 31 16 ≠ theKey then setRed { s.red with cmdStatus := 3 } s
  else if field w 1 0 = 1 then redHandover s
  else if field w 1 0 = 2 then redRealign s
  else setRed { s.red with cmdStatus := 3 } s

/-- R515: what holds at every entry into RUN by takeover or handover: the optimiser follows its rule for the first period
and abandons its solve; meters take their next sample from their own counters (they have kept their own count at the
previous sample). -/
def takeOn (s : State) : State :=
  let s1 := optAbandon s
  { s1 with opt := { s1.opt with first := true } }

/-- R512: at a takeover the private view takes the place of the copied CI words; a channel that needs its own front end's
currents keeps the last copied value, STALE until its first conversion or accepted level, and its mean restarts. -/
def takePrivate (s : State) : State :=
  let stale (w : DWord) : DWord := mkWord (wordVal w) .stale
  forL (theTt s).channels s (fun r s =>
    let c := r.channel
    if isOutMode r.mode then s
    else if needsDrive r then
      let s1 := setChan c { chanSt s c with vals := [], secs := [], level := none, edges := [], chatter := false, stuck := false } s
      imgPut 2 (512 + c) (stale (imgGet s1 2 (512 + c))) (imgPut 2 c (stale (imgGet s1 2 c)) s1)
    else
      imgPut 2 (512 + c) (smGet (imgInit 2) s.red.priv (512 + c)) (ciImage c (smGet (imgInit 2) s.red.priv c) s))

/-- R513: without lock-step the meter totals come from the latest mirrored record, and the retentive areas will. -/
def takeRecords (s : State) : State :=
  let s1 := { s with ce := { s.ce with retDone := false } }
  match jnlLatest s 5 0 with
  | some p => forMeters (fun m _ s =>
      let b := totalsBlockOf p m
      if bit (u8 b 0x7C) 7 then meterUpd m (fun x => { x with regs := (meterOfBlock b).regs, res := (meterOfBlock b).res }) s
      else s) s1
  | none => s1

/-- R511: the ticks whose streams are complete are finished, up to the last one. -/
def finishTicks (s : State) : State :=
  forN (s.red.rx.filter (· == .tickEnd)).length s (fun _ s => if streamsReady s then standbyTick s else s)

/-- TAKEOVER (R511 to R513, R515): a fit standby has seen ACT_IN_N deasserted and the link down for the guard. It first
finishes the ticks whose streams are complete. -/
def execTakeover (s : State) : Result :=
  match s.red.downTick with
  | some t =>
    if s.dev.mode = .standby ∧ noFatal s ∧ guardTicks s ≤ s.pwr.tick - t then
      let s1 := finishTicks s
      let lock := s1.red.lockstep
      let s2 := takePrivate (cause Reg.RED_CAUSE 0 s1)
      let s3 := if lock then s2 else cause Reg.RED_CAUSE 1 (takeRecords s2)
      let origin := if lock ∨ s3.red.originGot then s3.dev.schedOrigin else s3.pwr.tick
      let s4 := enterRun (!lock) false { s3 with dev := { s3.dev with schedOrigin := origin } }
      .next (forMeters (fun m _ s => meterUpd m (ivlFlag 17) s) (takeOn s4))
    else .next s
  | none => .next s

/-- R514 step 2: at B the active member performs none of the work of the tick and enters STANDBY, ACT_OUT_N asserted. -/
def handoverLeave (s : State) : State :=
  let s1 := enterStandby true (optAbandon (lpeLeaveRun s))
  { s1 with
    dev := { s1.dev with hwDue := false }
    red := { s1.red with actOut := true, handKeep := true, handover := false, handAck := false } }

/-- R514 step 3: the standby has acknowledged the handover and is in lock-step, and the former active member has entered
STANDBY. -/
def handoverNow (s : State) : Bool := s.red.handAck && s.red.lockstep && s.red.peerMode == 4

/-- R514 step 3: at its own tick B the standby enters RUN and asserts ACT_OUT_N. -/
def handoverTake (s : State) : State := handoverDone (takeOn (enterRun false false s))

end Sys2Proof.Machine
end

