-- ==== Sys2Proof/Machine/Headway.lean ====
section
/-! DEFINITION. The headway (R14 to R22): what a headway start, input close, estimate close and output freeze do. -/

namespace Sys2Proof.Machine

/-- R33, R24, R496: RUN and STOP at a headway start, the auto-run of a good start, and a claim that waits. In a pair the
member claims the active role. A fatal cause of this tick comes first (R27). -/
def headwayCommand (s : State) : State :=
  if s.dev.fatalDue ∧ s.dev.mode = .run then s
  else
    let start (s : State) : State := if paired s then claim s else enterRun true true s
    match s.dev.cmd with
    | some .stop => if devAllowed .stop s.dev.mode then devCmdDone (enterReady s) else devDrop s
    | some .run => if devAllowed .run s.dev.mode then devCmdDone (start s) else devDrop s
    | _ =>
      if s.dev.mode = .ready ∧ (s.dev.autoRunDue ∨ s.red.wantRun) ∧ !workHalted s then
        start { s with dev := { s.dev with autoRunDue := false } }
      else s

/-- R35, R36, R415: the headway is counted and its phases begin. -/
def headwayCount (s : State) : State :=
  { s with
    dev := { s.dev with
      headway := (s.dev.headway + 1) % 2 ^ 32, hwRunning := true, hwDue := false, tickInHw := 0, siPublished := false,
      hwLen := (theTt s).plan.headway
      nsPublished := false, outFrozen := false }
    mgt := { s.mgt with snapCount := s.mgt.snapCount + 1 } }

/-- The optimiser works in this state (R23), unless a standby's stays on the mirror (R507). -/
def optWorks (s : State) : Bool := computes s && !workHalted s && !s.red.optWait

/-- The trajectories are this member's to write (R211, R216): the optimiser works, or its plan stays in force in READY and
SAFE. -/
def optShows (s : State) : Bool :=
  (computes s || s.dev.mode == .ready || s.dev.mode == .safe) && !workHalted s && !s.red.optWait

/-- R20, R426: an optimiser period starts. `fresh_`: it starts because the device has just entered RUN, so no solve is
due in it (R22). -/
def periodStart (fresh_ : Bool) (s : State) : State :=
  let s1 := ledgerPeriod { s with dev := { s.dev with optCount := 0, optHw := 0 } }
  let s2 := lockCheck (if s1.red.aligning then s1 else { s1 with red := { s1.red with optWait := false } })
  if !fresh_ ∧ optWorks s2 then optPeriod (allJoined s2) s2 else s2

/-- R36: a headway inside an optimiser period. -/
def periodNext (s : State) : State :=
  { s with dev := { s.dev with optCount := s.dev.optCount + 1, optHw := min 0xFFF (s.dev.optCount + 1) } }

/-- The pair's part of a headway start (R501, R507). -/
def headwayPair (s : State) : State :=
  let s1 := alignEnd s
  redMeters (setRed { s1.red with ownCrc := none, peerCrc := none } s1)

/-- R509: the headway begins in lock-step or out of it, once every engine and the optimiser have joined or not. -/
def lockLatch (s : State) : State := setRed { s.red with lockWhole := s.red.lockstep } s

/-- The work of a headway start after commands have been judged (R14, R20, R216). `entered`: the device has entered RUN at
this headway start; `fresh_`: an optimiser period starts whatever the count. -/
def headwayWork (entered newPeriod : Bool) (s : State) : State :=
  let first := !s.dev.hwRunning
  let s1 := headwayPair (ceHeadway (ledgerHeadway (headwayCount (pcHeadway s))))
  let s2 :=
    if entered ∨ newPeriod ∨ first ∨ max 1 (theTt s1).plan.optHeadways ≤ s1.dev.optCount + 1 then periodStart entered s1
    else periodNext s1
  let s2 := lockLatch s2
  let s3 := if optWorks s2 then lightHeadway s2 else s2
  slkHeadway (if optShows s3 then optHeadway s3 else optSeen s3)

/-- The conditions of R516 are judged again at the headway start of an announced handover. -/
def handoverJudge (s : State) : State :=
  if s.dev.mode = .run ∧ s.red.handover ∧ s.red.handAck ∧ !swapOk s then handoverOff s else s

/-- A headway start (R14). Handed over, the member performs none of its work (R514 step 2); a fatal cause of this tick comes
first (R26). The standby takes over at its own tick B once the former active member has left RUN (R514 step 3). -/
def headwayStart (s : State) : State :=
  let s := handoverJudge s
  if s.dev.mode = .run ∧ s.red.handover ∧ s.red.handAck ∧ !workHalted s ∧ !s.dev.fatalDue then handoverLeave s
  else
    let n0 := (theTt s).plan.optHeadways
    let s1 := txBoundary s
    let s2 := headwayCommand s1
    if s2.dev.mode = .ready ∧ s1.dev.mode ≠ .ready then s2
    else
      let s3 := if s2.dev.mode = .standby ∧ s1.dev.mode = .standby ∧ handoverNow s2 then handoverTake s2 else s2
      headwayWork (s3.dev.mode = .run ∧ s1.dev.mode ≠ .run) ((theTt s3).plan.optHeadways ≠ n0) s3

/-- HEADWAY_START (R14): the tick boundary at which a headway begins. -/
def execHeadwayStart (s : State) : Result :=
  if s.dev.hwDue ∧ hwStates s.dev.mode then .next (headwayStart s) else .next s

/-- HYD and FTR work in this state (R23). -/
def estWorks (s : State) : Bool := (computes s || s.dev.mode == .safe) && !workHalted s

/-- R14 step 3: the SI generation of the headway: judged from the cars in RUN and SAFE, the copied one in STANDBY
(R503), which the active member sends (R501). -/
def inputClose (s : State) : State :=
  let s1 :=
    if trainsRun s then slkInputClose s
    else
      match s.dev.mode, s.red.rxSi with
      | .standby, some ws => { s with img := { s.img with siWork := ws }, red := { s.red with rxSi := none } }
      | _, _ => s
  let s2 := imgPublish 0 { s1 with dev := { s1.dev with siPublished := true } }
  let s3 := archInputs (redStream (.si s2.img.si) s2)
  if estWorks s3 then hydStart s3 else s3

/-- INPUT_CLOSE (R14): t_in of the headway; a standby's waits for the tick's streams (R502). -/
def execInputClose (s : State) : Result :=
  if tickOpen s ∧ hwStates s.dev.mode ∧ s.dev.hwRunning ∧ !s.dev.siPublished ∧ (theTt s).plan.tIn ≤ s.dev.tickInHw then
    .next (inputClose s)
  else .next s

/-- ESTIMATE_CLOSE (R15): t_est of a headway whose estimate is not published. -/
def execEstimateClose (s : State) : Result :=
  if estWorks s ∧ s.dev.siPublished ∧ !s.dev.nsPublished ∧ (theTt s).plan.tEst ≤ s.dev.tickInHw ∧
      (s.hyd.busy ∨ s.ftr.busy) then
    .next (optIfDue (nsLate s))
  else .next s

/-- R14 steps 6 and 7: the SO generation is frozen; a member of a pair computes its output checksum, and the active one
sends its end-of-headway record. -/
def outputFreeze (s : State) : State :=
  let s1 := imgPublish 1 { s with dev := { s.dev with outFrozen := true } }
  if !paired s1 then s1
  else
    let c := outputChecksum s1
    match s1.dev.mode with
    | .run | .safe =>
      redStream (.endHw s1.dev.headway c (modeCode s1.dev.mode) (BitVec.ofNat 32 (getFld s1 Reg.DEV_CAUSE 12 8))
        (theTt s1).digest s1.red.handover) s1
    | .standby => redCompare (setRed { s1.red with ownCrc := some (s1.dev.headway, c) } s1)
    | _ => s1

/-- R255: the loops that are due at the tick of t_out sample before the freeze. -/
def freezeWaits (s : State) : Bool :=
  s.dev.tickInHw == (theTt s).plan.tOut && lpeRuns s && (loopNext s).isSome

/-- OUTPUT_FREEZE (R14): t_out of the headway; a standby's waits for the tick's streams (R502). -/
def execOutputFreeze (s : State) : Result :=
  if tickOpen s ∧ hwStates s.dev.mode ∧ s.dev.hwRunning ∧ !s.dev.outFrozen ∧ (theTt s).plan.tOut ≤ s.dev.tickInHw ∧ !freezeWaits s then
    .next (outputFreeze s)
  else .next s

end Sys2Proof.Machine
end

