-- ==== Sys2Proof/Machine/HostWord.lean ====
section
/-! DEFINITION. One host write of a register word: its judgement (R585), staging in an open transaction (R454 to R456), and
what its performance does. The rows of the command table that are writes of particular registers go through it. -/

namespace Sys2Proof.Machine

/-! ### Performing a word -/

/-- R32: the command of a DEV_CMD code. -/
def devCmdOf (n : Nat) : Option DevCmd :=
  match n with
  | 1 => some .run
  | 2 => some .stop
  | 3 => some .hold
  | 4 => some .loadA
  | 5 => some .loadB
  | 6 => some .clear
  | 7 => some .reset
  | _ => none

/-- A write of DEV_CMD (R32). -/
def devCmdWrite (w : Word) (s : State) : State :=
  match devCmdOf (field w 7 0) with
  | some c => devCommand c (field w 31 16) s
  | none => devRefuse s

/-- A write of JNL_TX_CMD (R470). -/
def txCmdWrite (w : Word) (s : State) : State :=
  let key := field w 31 16
  match field w 2 0 with
  | 1 => after (execBegin key s) s
  | 2 => after (execCommit key s) s
  | 3 => after (execCommitPrompt key s) s
  | 4 => after (execRollback key s) s
  | _ => after (txKeyed key (txCmd 2) s) s

/-- A write of JNL_PS_CMD (R471). -/
def psCmdWrite (w : Word) (s : State) : State :=
  let p := field w 1 0
  let wr := w.getLsbD 4
  let key := field w 31 16
  match field w 3 2 with
  | 1 => after (execPsUnlock p wr key s) s
  | 2 => after (execPsLock p wr key s) s
  | 3 => after (execPsSetPassword p wr key s) s
  | _ => psDone 2 s

/-- A write of HIF_MB_DOOR (R595 step 4, R596): a wrong key or length is not performed. -/
def doorWrite (w : Word) (s : State) : State :=
  if !w.getLsbD 0 then s
  else if field w 31 16 ≠ theKey ∨ 4096 < getFld s Reg.HIF_MB_CMD 28 16 then cause Reg.HIF_CAUSE 6 s
  else
    let s1 := domRequest 1 .mailbox true (incReg Reg.HIF_MB_SEQ s)
    { s1 with hif := { s1.hif with mbState := 1, mbResult := 0, mbReply := 0, mbWait := false, repBuf := [] } }

/-- R437: a password register: write only. -/
def psKeyWrite (k : Nat) (w : Word) (s : State) : State :=
  setPs { s.ps with key := fit 0#8 (4 * k) s.ps.key ++ wordBytes w ++ s.ps.key.drop (4 * k + 4) } s

/-- A fatal cause bit that the host clears makes a standby fit again: it aligns (R508). -/
def fatalCleared (before s : State) : State :=
  if s.dev.mode = .standby ∧ !noFatal before ∧ noFatal s then alignStart s else s

/-- A word whose judgement has passed is performed. The active member of a pair sends it to the standby (R501). -/
def performWord (a : Nat) (w : Word) (s : State) : State :=
  if a = Reg.DEV_CMD then devCmdWrite w s
  else if a = Reg.JNL_TX_CMD then txCmdWrite w s
  else if a = Reg.JNL_PS_CMD then psCmdWrite w s
  else if a = Reg.RED_CMD then redCommand w s
  else if a = Reg.HIF_MB_DOOR then doorWrite w s
  else if a = Reg.HIF_MB_ACK then (if w.getLsbD 0 then after (execMbAck s) s else s)
  else
    match bankIx Reg.JNL_PS_KEY 4 4 a with
    | some k => psKeyWrite k w s
    | none => fatalCleared s (redWrite a w (applyReg a w s))

/-! ### Judging a word -/

/-- What becomes of a word. -/
inductive WordOut where
  | done
  | staged
  | refused (reason : Nat)
  deriving DecidableEq, Repr

/-- One host write of a register word. A selector is performed at once and staged as well (R455). -/
def hostWord (a : Nat) (w : Word) (s : State) : WordOut × State :=
  if stages s a then
    if 4096 ≤ s.tx.entries.length then (.refused 8, s)
    else if selectors.contains a then
      match writeReason a w s with
      | 0 => (.staged, stage a w (performWord a w s))
      | r => (.refused r, refuseEffect a w r s)
    else (.staged, stage a w s)
  else
    match writeReason a w s with
    | 0 => (.done, performWord a w s)
    | r => (.refused r, refuseEffect a w r s)

/-- R591, R593: writes are taken outside BOOT and while no power-fail save runs. -/
def hostOpen (s : State) : Bool := s.dev.mode != .boot && !s.pwr.saving

/-- R412, R628: the domains that an access needs: CORE and the ones that serve its addresses. -/
def neededDomains (a n : Nat) : List Nat :=
  1 :: ((List.range ((n + 3) / 4)).map (fun i => servingDomain (a + 4 * i)) ++ [servingDomain (a + n - 1)]).eraseDups

/-- R412: demand of every needed domain that is not ON is raised. -/
def raiseHost (ds : List Nat) (s : State) : State :=
  forL ds (hostTouch ds s) (fun d s => if domOn s d then s else domRequest d .host true s)

/-- R628: CORE and the domains that serve an access are ON. -/
def served (s : State) (a n : Nat) : Bool := (neededDomains a n).all (domOn s)

/-- A row that is a write of one register word: it is performed while the domains it needs are ON, and raises their demand
(R412, R628). -/
def wordRow (a : Nat) (w : Word) (s : State) : Result :=
  if !hostOpen s then .next s
  else if served s a 4 then .next (hostWord a w (hostTouch (neededDomains a 4) s)).2
  else .next (raiseHost (neededDomains a 4) s)

/-- A register's present word with some bits set: how a row that names only one field writes its register. -/
def withBits (a : Nat) (bits_ : Nat) (s : State) : Word := getReg s a ||| BitVec.ofNat 32 bits_

/-- REGISTER_WRITE (R5): a word at a register address. -/
def execRegisterWrite (addr : Nat) (data : Word) (s : State) : Result :=
  if addr < 0x100000 ∧ addr % 4 = 0 then wordRow addr data s else .next s

/-- DOMAIN_FORCE_ON: a write of PWR_DOMk.force_on (R428). -/
def execDomainForceOn (d : Nat) (on : Bool) (s : State) : Result :=
  if domOk d then wordRow (Reg.PWR_DOM + 4 * (d - 1)) (BitVec.ofNat 32 (16 * b2n on)) s else .next s

/-- SLK_STN_SEL_WRITE (R142). -/
def execSlkStnSelWrite (data : Word) (s : State) : Result := wordRow Reg.SLK_STN_SEL data s

/-- CHN_SEL_WRITE (R363). -/
def execChnSelWrite (data : Word) (s : State) : Result := wordRow Reg.CHN_SEL data s

/-- MTR_SEL_WRITE (R399). -/
def execMtrSelWrite (data : Word) (s : State) : Result := wordRow Reg.MTR_SEL data s

/-- MTR_IVL_SEL_WRITE (R400). -/
def execMtrIvlSelWrite (data : Word) (s : State) : Result := wordRow Reg.MTR_IVL_SEL data s

/-- TARIFF_SUBMIT (R395, R398): the write of MTR_TAR_D2. -/
def execTariffSubmit (data : Word) (s : State) : Result := wordRow (Reg.MTR_TAR_D + 8) data s

/-- DAYOFS_WRITE (R395, R397). -/
def execDayofsWrite (data : Word) (s : State) : Result := wordRow Reg.MTR_DAYOFS data s

/-- HYD_COLD_REQUEST (R156, R176): HYD_CTL.cold. -/
def execHydColdRequest (s : State) : Result := wordRow Reg.HYD_CTL (withBits Reg.HYD_CTL 0x100 s) s

/-- OPT_COLD_REQUEST (R207, R222): OPT_CTL.cold. -/
def execOptColdRequest (s : State) : Result := wordRow Reg.OPT_CTL (withBits Reg.OPT_CTL 4 s) s

/-- SLV_SELFTEST_START (R249, R250): SLV_CTL.selftest. -/
def execSlvSelftestStart (s : State) : Result := wordRow Reg.SLV_CTL (withBits Reg.SLV_CTL 0x100 s) s

/-- LOOP_COEFFICIENT_WRITE (R266, R268): a register of a loop bank. -/
def execLoopCoefficientWrite (addr : Nat) (data : Word) (s : State) : Result :=
  if (lpeBank addr).isSome ∧ addr % 4 = 0 then wordRow addr data s else .next s

/-- LOOP_MODE_WRITE (R265): LPE_Lk_CTL.mode. -/
def execLoopModeWrite (k : Nat) (manual : Bool) (s : State) : Result :=
  if k < 256 then wordRow (loopReg Reg.LPE_L_CTL k) (BitVec.ofNat 32 (b2n manual)) s else .next s

/-- LOOP_REINIT (R264): LPE_Lk_CTL.reinit. -/
def execLoopReinit (k : Nat) (s : State) : Result :=
  if k < 256 then wordRow (loopReg Reg.LPE_L_CTL k) (withBits (loopReg Reg.LPE_L_CTL k) 2 s) s else .next s

/-- INJECTION_START (R271, R277): LPE_INJc_CTL with start. -/
def execInjectionStart (c : Nat) (data : Word) (s : State) : Result :=
  if c < 4 then wordRow (Reg.LPE_INJ_CTL + 0x20 * c) (data ||| 0x1000#32) s else .next s

/-- INJECTION_STOP (R272, R277): LPE_INJc_CTL.stop. -/
def execInjectionStop (c : Nat) (s : State) : Result :=
  if c < 4 then wordRow (Reg.LPE_INJ_CTL + 0x20 * c) (withBits (Reg.LPE_INJ_CTL + 0x20 * c) 0x2000 s) s else .next s

/-- CAPTURE_START (R274, R276): LPE_CAPc_CTL with start. -/
def execCaptureStart (c : Nat) (data : Word) (s : State) : Result :=
  if c < 4 then wordRow (Reg.LPE_CAP_CTL + 0x20 * c) (data ||| 0x100#32) s else .next s

/-- CAPTURE_STOP (R273, R276): LPE_CAPc_CTL.stop. -/
def execCaptureStop (c : Nat) (s : State) : Result :=
  if c < 4 then wordRow (Reg.LPE_CAP_CTL + 0x20 * c) (withBits (Reg.LPE_CAP_CTL + 0x20 * c) 0x200 s) s else .next s

/-- R304, R306: the word of CE_CMD. -/
def ceCmdWord (e k cmd key : Nat) : Word :=
  BitVec.ofNat 32 (e % 8 + 2 ^ 4 * (k % 16) + 2 ^ 8 * cmd + 2 ^ 16 * (key % 65536))

/-- TASK_STOP (R304). -/
def execTaskStop (e k key : Nat) (s : State) : Result := wordRow Reg.CE_CMD (ceCmdWord e k 1 key) s

/-- TASK_START (R304). -/
def execTaskStart (e k key : Nat) (s : State) : Result := wordRow Reg.CE_CMD (ceCmdWord e k 2 key) s

/-- TASK_RESTART (R304). -/
def execTaskRestart (e k key : Nat) (s : State) : Result := wordRow Reg.CE_CMD (ceCmdWord e k 3 key) s

/-- PATCH_SUBMIT (R300, R301): CE_PATCH_CTL with go. -/
def execPatchSubmit (data : Word) (s : State) : Result := wordRow Reg.CE_PATCH_CTL (data ||| 0x10000#32) s

end Sys2Proof.Machine
end

