-- ==== Sys2Proof/Machine/Ecc.lean ====
section
/-! DEFINITION. What a memory error that neither code mends does, by the memory it lies in (R485), and the scrubber (R486). -/

namespace Sys2Proof.Machine

/-! ### Words that are lost (R485) -/

/-- R485, R273: a word of the capture buffer is stored as 0x7FC0_0001 twice, and its unit is suspect. -/
def captureError (a : Nat) (s : State) : State :=
  let bad := wordBytes 0x7FC00001#32
  let s1 := memHeal a 8 { s with lpe := { s.lpe with buf := smPutList (fun _ => 0#8) s.lpe.buf a (bad ++ bad) } }
  let c := (a - 0x1C00000) / 0x40000
  if c < 4 then capSet c { nth s1.lpe.cap c {} with suspect := true } s1 else s1

/-- R485: an event record is lost; its place in the buffer is free. -/
def eventError (a : Nat) (s : State) : State :=
  let e := s.mgt.evr
  let k := (a - 0x1D00000) / 32
  memHeal (0x1D00000 + 32 * k) 32 (setEvr { e with buffer := e.buffer.eraseIdx k } s)

/-- R338, R485: an engine's local memory: the task that runs there takes trap 0x0C; the error is fatal in any case. -/
def engineError (e : Nat) (s : State) : State :=
  match (ceGet s e).run with
  | some k => if ((theTt s).task e k).isSome then ceTrap e k 0x0C (taskGet s e k).pc s else fatal 9 0 s
  | none => fatal 9 0 s

/-- R485: what an error that is neither corrected nor rebuilt does, by the memory it lies in (R489 numbers). -/
def memLost (u : Upset) (s : State) : State :=
  match u.mem with
  | 0 => fatal 9 0 s
  | 1 => slvMemError false (upsetAddr u - 0x2000000) s
  | 2 => slvMemError true (upsetAddr u - 0x4000000) s
  | 3 => parcelError (upsetAddr u) s
  | 4 => captureError (upsetAddr u) s
  | 5 => eventError (upsetAddr u) s
  | m => engineError (m - 6) s

/-! ### The scrubber (R486) -/

/-- R404, R486: the domain of memory `k`. -/
def memDomain (k : Nat) : Nat :=
  match k with
  | 0 | 5 => 1
  | 1 | 2 => 5
  | 3 => 3
  | 4 => 6
  | k => k + 1

/-- R486: a line of memory `k` is read, every word of it. -/
def scrubLine (k line : Nat) (s : State) : State :=
  forL (s.mem.upsets.filter (fun u => u.mem == k && u.line == line)) s (memMeet memLost)

/-- R486: the scrubber reads MEM_CTL.scrub_lines lines of memory `k`, on from where it stopped, while its domain is ON. -/
def scrubMem (k : Nat) (s : State) : State :=
  if domOn s (memDomain k) then
    let n := getFld s Reg.MEM_CTL 4 0
    let pos := nth s.mem.scrubPos k 0
    let s1 := forN n s (fun i s => scrubLine k ((pos + i) % memLines k) s)
    { s1 with mem := { s1.mem with scrubPos := setNth s1.mem.scrubPos k ((pos + n) % memLines k) } }
  else s

/-- R486: the scrubber's work of a tick, memory by memory. -/
def scrub (s : State) : State := forN 14 s scrubMem

end Sys2Proof.Machine
end

