-- ==== Sys2Proof/Machine/Hif.lean ====
section
/-! DEFINITION. The host port (chapter 18): frames with their status and end words (R580 to R585), the address map and who
may access what in which state (R473 to R475, R586, R591 to R593), reads, and writes with their buffering (R587, R588). -/

namespace Sys2Proof.Machine

/-! ### The address map (R473) -/

/-- The ranges of R473; a transaction lies within one of them (R586). -/
inductive HostRange where
  | window (block : Nat)
  | request
  | reply
  | engine
  | sram
  | parcel
  | capture
  | event
  | factor
  | pattern
  | nv
  deriving DecidableEq, Repr

/-- The range of a host address. -/
def hostRange (a : Nat) : Option HostRange :=
  if a < 0x100000 then
    if 0xF1000 ≤ a ∧ a < 0xF2000 then some .request
    else if 0xF2000 ≤ a ∧ a < 0xF3000 then some .reply
    else some (.window (a / 0x10000))
  else if 0x200000 ≤ a ∧ a < 0x400000 then some .engine
  else if 0x1000000 ≤ a ∧ a < 0x1800000 then some .sram
  else if 0x1800000 ≤ a ∧ a < 0x1C00000 then some .parcel
  else if 0x1C00000 ≤ a ∧ a < 0x1D00000 then some .capture
  else if 0x1D00000 ≤ a ∧ a < 0x1D20000 then some .event
  else if 0x2000000 ≤ a ∧ a < 0x4000000 then some .factor
  else if 0x4000000 ≤ a ∧ a < 0x4800000 then some .pattern
  else if 0x8000000 ≤ a ∧ a < 0x10000000 then some .nv
  else none

/-- R64, R475, R592: the block whose mask bit governs a range in RUN. -/
def hostOwner (r : HostRange) : Nat :=
  match r with
  | .window b => b
  | .request | .reply => 15
  | .engine => 10
  | .sram => 3
  | .parcel => 6
  | .capture => 9
  | .event => 14
  | .factor | .pattern => 8
  | .nv => 2

/-- R473, R474, R586: the reason for which the place of a transaction is refused, 0 for none. In the NV window only the
parameter store is there; a burst wraps within its page (R439, R441). -/
def placeReason (a n : Nat) : Nat :=
  match hostRange a, hostRange (a + n - 1) with
  | some r, some r' =>
    if r ≠ r' then 6
    else match r with
      | .window _ => if a % 4 = 0 ∧ n % 4 = 0 then 0 else 7
      | .nv => if (psPartOf a).isSome then 0 else 6
      | _ => 0
  | _, _ => 6

/-- R474: the transaction touches an address where there is nothing. -/
def touchesNothing (a n : Nat) : Bool :=
  (hostRange a).isNone || (hostRange (a + n - 1)).isNone || (hostRange a == some .nv && (psPartOf a).isNone)

/-- R473 and the rules it names: the reason for which an access to a range is refused in the state the device is in, 0 for
none. -/
def stateReason (wr : Bool) (r : HostRange) (a : Nat) (s : State) : Nat :=
  let run := s.dev.mode == .run
  if !wr ∧ run ∧ !readMaskBit s (hostOwner r) then 3
  else
    match r with
    | .window _ => 0
    | .request => if wr ∧ s.hif.mbState = 1 then 1 else 0
    | .reply => if wr then 2 else 0
    | .engine | .parcel => if wr ∧ s.dev.mode ≠ .hold ∧ s.dev.mode ≠ .ready then 1 else 0
    | .sram | .factor => if wr ∧ s.dev.mode ≠ .hold then 1 else 0
    | .capture | .event | .pattern => if wr then 2 else 0
    | .nv => match psPartOf a with
      | some p => psReason p wr s
      | none => 6

/-- R239, R439: the access meets a unit that is at work. -/
def unitBusy (wr : Bool) (r : HostRange) (s : State) : Bool :=
  match r with
  | .factor | .pattern => !wr && (s.slv.holder != 0 || s.slv.selftest == 1 || s.slv.paused)
  | .nv => s.ps.programming
  | _ => false

/-! ### Reading memories -/

/-- The byte of the process image that stands at a host address, if a region lies there: MEM_IMG reports where the two
generations of a region are (R476). -/
def imgByte (a : Nat) (s : State) : Option Byte :=
  if !placed s then none
  else
    (List.range 14).findSome? (fun k =>
      let r := k / 2
      let g := k % 2
      let base := imgBase s r g
      if base ≤ a ∧ a < base + 8 * (theTt s).regionWords r then
        let i := (a - base) / 8
        let w := if g = nth s.img.gen r 0 % 2 then imgGet s r i else imgGetWork s r i
        some (BitVec.ofNat 8 (w.toNat / 2 ^ (8 * ((a - base) % 8))))
      else none)

/-- R632: a byte of system SRAM; outside the image it is a free value, the `era`-th one, unless the host wrote it in HOLD. -/
def sramByte (era a : Nat) (s : State) : Byte :=
  match imgByte a s with
  | some b => b
  | none => smGet (fun a => Config.sramByte (a + 2 ^ 25 * era)) s.mem.sram a

/-- A byte of an engine's local memory (R279). -/
def engineByte (a : Nat) (s : State) : Byte :=
  let o := (a - 0x200000) % 0x40000
  let e := nth s.ce.engines ((a - 0x200000) / 0x40000) {}
  if o < 0x20000 then smGet (fun _ => 0#8) e.code o else smGet (fun _ => 0#8) e.data (o - 0x20000)

/-- A byte of the parcel store (R163, R171). -/
def parcelByte (a : Nat) (s : State) : Byte :=
  let o := a - 0x1800000
  let own : Byte := nth (wagonBytes s (o / 16)) (o % 16) 0#8
  if s.dev.mode = .hold ∨ s.dev.mode = .ready then (smGet (fun _ => none) (s.ftr.cells.map (fun c => (c.1, some c.2))) o).getD own
  else own

/-- R473: the event buffer, record by record in the order of their sequence numbers. -/
def eventByte (a : Nat) (s : State) : Byte :=
  let o := a - 0x1D00000
  nth (nth s.mgt.evr.buffer (o / 32) []) (o % 32) 0#8

/-- R236: the pattern store holds the padded payloads of the route sections, the hydraulic one first. -/
def patternBytes (s : State) : List Byte :=
  let t := theTt s
  let pad (b : List Byte) : List Byte := b ++ List.replicate ((8 - b.length % 8) % 8) 0#8
  pad (t.routeBytes 1 0) ++ t.optRoutes.flatMap (fun k => pad (t.routeBytes 2 k))

/-- The `n` bytes at a host address of a memory or mailbox buffer. -/
def hostMemRead (r : HostRange) (a n era : Nat) (s : State) : List Byte :=
  let each (f : Nat → State → Byte) : List Byte := (List.range n).map (fun i => f (a + i) s)
  match r with
  | .window _ => []
  | .request => smGetList (fun _ => 0#8) s.hif.reqBuf (a - 0xF1000) n
  | .reply => smGetList (fun _ => 0#8) s.hif.repBuf (a - 0xF2000) n
  | .engine => each engineByte
  | .sram => each (sramByte era)
  | .parcel => each parcelByte
  | .capture => smGetList (fun _ => 0#8) s.lpe.buf a n
  | .event => each eventByte
  | .factor => each (fun a s => BitVec.ofNat 8 ((fsGet s ((a - 0x2000000) / 4)).toNat / 2 ^ (8 * (a % 4))))
  | .pattern => fit 0#8 n (slice (patternBytes s) (a - 0x4000000) n)
  | .nv => psRead a n s

/-- R435, R485, R587: how many bytes a read of a memory yields before it meets a word (for the parameter store, a
granule) that cannot be corrected. -/
def goodBytes (r : HostRange) (a n : Nat) (ecc : Option Nat) (s : State) : Nat :=
  match r with
  | .nv => match ecc with
    | some k => min k n
    | none => n
  | _ => ((List.range n).find? (fun i => memBad s (a + i) 1)).getD n

/-! ### Reading registers -/

/-- The register that a read of another latches, if there is one. -/
def latchOf (a : Nat) : Option Nat :=
  if a = Reg.PWR_TICK_LO then some Reg.PWR_TICK_HI
  else if a = Reg.JNL_SEQ_LO then some Reg.JNL_SEQ_HI
  else if a = Reg.MGT_CAL_SEC then some Reg.MGT_CAL_FRAC
  else if a = Reg.MGT_EVR_SEQ_LO then some Reg.MGT_EVR_SEQ_HI
  else if a = Reg.KEY_CTR_LO then some Reg.KEY_CTR_HI
  else
    match bankIx Reg.PWR_E_TOT_LO 8 10 a, bankIx Reg.CHN_PC_LO 0x10 64 a, bankIx Reg.CE_E_TRAPPC 0x200 8 a with
    | some g, _, _ => some (Reg.PWR_E_TOT_HI + 8 * g)
    | none, some n, _ => some (Reg.CHN_PC_HI + 0x10 * n)
    | none, none, some e => some (Reg.CE_E_TRAP + 0x200 * e)
    | none, none, none => none

/-- R586: the words of a burst are read one after the other, each with its effect: the bytes, what was latched, and the
state after. -/
def wordsRead (a : Nat) : Nat → State → List Byte × List (Nat × Nat × Word × Word) × State
  | 0, s => ([], [], s)
  | n + 1, s =>
    let (bs, ls, s1) := wordsRead a n s
    let (w, s2) := readReg (a + 4 * n) s1
    let l := match latchOf (a + 4 * n) with
      | some r => [(n, r, getReg s1 r, getReg s2 r)]
      | none => []
    (bs ++ wordBytes w, ls ++ l, s2)

/-! ### Writing memories -/

/-- Host bytes written into an engine's local memory (R280). -/
def engineWrite (a : Nat) (b : Byte) (s : State) : State :=
  let o := (a - 0x200000) % 0x40000
  let i := (a - 0x200000) / 0x40000
  let e := nth s.ce.engines i {}
  let e' := if o < 0x20000 then { e with code := smPut (fun _ => 0#8) e.code o b }
    else { e with data := smPut (fun _ => 0#8) e.data (o - 0x20000) b }
  { s with ce := { s.ce with engines := setNth s.ce.engines i e' } }

/-- A host byte written into the factor store (R239). -/
def factorWrite (a : Nat) (b : Byte) (s : State) : State :=
  let i := (a - 0x2000000) / 4
  let k := a % 4
  fsPut i [setField (fsGet s i) (8 * k + 7) (8 * k) b.toNat] s

/-- The bytes of a write are performed at a memory or at the request buffer. A whole 64-bit word written anew is good
again. -/
def hostMemWrite (r : HostRange) (a : Nat) (data : List Byte) (s : State) : State :=
  let each (f : Nat → Byte → State → State) : State :=
    forL ((List.range data.length).zip data) s (fun x s => f (a + x.1) x.2 s)
  let s1 := match r with
    | .request => { s with hif := { s.hif with reqBuf := smPutList (fun _ => 0#8) s.hif.reqBuf (a - 0xF1000) data } }
    | .engine => each engineWrite
    | .sram => each (fun a b s => { s with mem := { s.mem with
        sram := smPut (fun a => Config.sramByte (a + 2 ^ 25 * s.mem.era)) s.mem.sram a b } })
    | .parcel => each (fun a b s => { s with ftr := { s.ftr with cells := smInsert s.ftr.cells (a - 0x1800000) b } })
    | .factor => each factorWrite
    | .nv => psPerform a data s
    | .window _ | .reply | .capture | .event | .pattern => s
  memHeal a data.length s1

/-! ### Writing registers -/

/-- The words of a burst of register writes. -/
def burstWords (a : Nat) (data : List Byte) : List (Nat × Word) :=
  (List.range (data.length / 4)).map (fun i => (a + 4 * i, w32 data (4 * i)))

/-- R587: words are performed or staged in ascending order up to the first one that is refused: how many, whether all of
them were staged, the refused one with its reason, and the state after. -/
def wordsWrite : List (Nat × Word) → Nat → Bool → State → Nat × Bool × Option (Nat × Word × Nat) × State
  | [], n, st, s => (n, st, none, s)
  | (a, w) :: rest, n, st, s =>
    match hostWord a w s with
    | (.done, s1) => wordsWrite rest (n + 1) false s1
    | (.staged, s1) => wordsWrite rest (n + 1) st s1
    | (.refused r, _) => (n, st, some (a, w, r), s)

/-- R587: how the words of a burst are judged as they arrive, up to the first that is refused: whether each is staged. -/
def wordsStaged : List (Nat × Word) → State → List Bool
  | [], _ => []
  | (a, w) :: rest, s =>
    match hostWord a w s with
    | (.done, s1) => false :: wordsStaged rest s1
    | (.staged, s1) => true :: wordsStaged rest s1
    | (.refused _, _) => []

/-- R587, R589: a word is performed or staged as it was answered; a staged word of a transaction that has ended since goes with
it. -/
def wordPerform (a : Nat) (w : Word) (staged : Bool) (s : State) : State :=
  if !staged then performWord a w s
  else if s.tx.st = 1 then stage a w (if selectors.contains a then performWord a w s else s)
  else s

/-- The words of a burst, in ascending order. -/
def wordsPerform : List (Nat × Word) → List Bool → State → State
  | [], _, s => s
  | (a, w) :: rest, st, s => wordsPerform rest st.tail (wordPerform a w (st.headD false) s)

/-! ### Frames -/

/-- R583: the codes of the status word. -/
inductive HostCode where
  | done
  | busy
  | refused
  | crc
  | staged
  | length
  deriving DecidableEq, Repr

/-- The number of a code. -/
def HostCode.num (c : HostCode) : Nat :=
  match c with
  | .done => 0
  | .busy => 1
  | .refused => 2
  | .crc => 3
  | .staged => 4
  | .length => 5

/-- R583: the status word. -/
def statusWord (c : HostCode) (reason : Nat) (s : State) : Nat :=
  c.num + 2 ^ 4 * reason + 2 ^ 8 * modeCode s.dev.mode + bitAt 11 (intN s) + 2 ^ 16 * (s.hif.seq % 2 ^ 16)

/-- R584: the end word. -/
def endWord (count : Nat) (c : HostCode) (reason : Nat) : Nat := count + 2 ^ 16 * c.num + 2 ^ 20 * reason

/-- A response: its bytes followed by their CRC (R581). -/
def respond (body : List Byte) (s : State) : State :=
  { s with hif := { s.hif with response := body ++ beBytes 2 (crc16 body).toNat, inResponse := true, latched := [] } }

/-- What a frame does besides its response, by its final code (R597). -/
def codeEffect (c : HostCode) (reason addr : Nat) (wr : Bool) (s : State) : State :=
  match c with
  | .busy => incFld Reg.HIF_CNT 31 16 s
  | .crc => cause Reg.HIF_CAUSE 0 (incFld Reg.HIF_CNT 15 0 s)
  | .refused =>
    cause Reg.HIF_CAUSE 1 (setReg Reg.HIF_LAST_RES (BitVec.ofNat 32 (2 + 16 * reason + bitAt 8 wr))
      (setReg Reg.HIF_LAST_ADDR (BitVec.ofNat 32 addr) (incFld Reg.HIF_CNT2 15 0 s)))
  | .done | .staged | .length => s

/-- R581: the CRC of a request. -/
def requestCrc (cmd : Byte) (body : List Byte) : Nat := (crc16 (cmd :: body)).toNat

/-- Address and length as a request carries them. -/
def requestHead (addr n : Nat) : List Byte := beBytes 4 addr ++ beBytes 2 n

/-- R404: in BOOT, and while CORE is not ON, only the BUSY responder of the always-on domain answers. -/
def portBusy (s : State) : Bool := s.dev.mode == .boot || !domOn s 1

/-- R412: what the always-on domain answers with BUSY raises the demand of the domains that the access needs. -/
def portRaise (a n : Nat) (s : State) : State :=
  if s.dev.mode ≠ .boot ∧ !domOn s 1 then raiseHost (if placeReason a n = 0 then neededDomains a n else [1]) s else s

/-- R584, R588, R591, R593: what a READ or WRITE is answered before its address is looked at. -/
def frameCode (crcOk : Bool) (n : Nat) (s : State) : Option HostCode :=
  if portBusy s then some .busy
  else if !crcOk then some .crc
  else if n = 0 ∨ 4096 < n then some .length
  else if s.pwr.saving ∨ s.hif.pending.isSome then some .busy
  else none

/-- R412, R439, R473 to R475, R585, R586, R591: what the place and the state say of an access: a code other than DONE and its
reason, and the state with what that leaves (MEM_CAUSE.unmapped, demand, a refusal of the parameter store). A domain that is
not ON and a unit at work are answered with BUSY in every state, before the access is judged further. -/
def accessCode (wr : Bool) (a n : Nat) (s : State) : Option (HostCode × Nat) × State :=
  if placeReason a n ≠ 0 then
    (some (.refused, placeReason a n), if touchesNothing a n then cause Reg.MEM_CAUSE 4 s else s)
  else
    match hostRange a with
    | none => (some (.refused, 6), s)
    | some r =>
      if !served s a n then (some (.busy, 0), raiseHost (neededDomains a n) s)
      else
        let s1 := hostTouch (neededDomains a n) s
        if unitBusy wr r s then (some (.busy, 0), s1)
        else if stateReason wr r a s ≠ 0 then
          (some (.refused, stateReason wr r a s), if r = .nv then psRefuse s1 else s1)
        else (none, s1)

/-- A READ that is answered without data. -/
def readNone (c : HostCode) (reason a n : Nat) (s : State) : State :=
  respond (beBytes 4 (statusWord c reason s) ++ List.replicate n 0#8 ++ beBytes 4 (endWord 0 c reason))
    (codeEffect c reason a false s)

/-- R584, R586, R587: a READ that is performed. -/
def readDone (r : HostRange) (a n : Nat) (ecc : Option Nat) (s : State) : State :=
  let head := beBytes 4 (statusWord .done 0 s)
  match r with
  | .window _ =>
    let (bs, ls, s1) := wordsRead a (n / 4) s
    let s2 := respond (head ++ bs ++ beBytes 4 (endWord n .done 0)) s1
    { s2 with hif := { s2.hif with latched := ls } }
  | _ =>
    let (k, s1) := fresh s
    let good := goodBytes r a n ecc s1
    let era := if s.dev.mode = .hold then s.mem.era else k
    let bs := fit 0#8 n (hostMemRead r a good era s1)
    let s2 := memRead memLost a (min n (good + 1)) s1
    if good = n then respond (head ++ bs ++ beBytes 4 (endWord n .done 0)) s2
    else
      let s2 := if r = .nv then cause Reg.JNL_CAUSE 11 (psRefuse s2) else s2
      respond (head ++ bs ++ beBytes 4 (endWord good .refused 9)) (codeEffect .refused 9 (a + good) false s2)

/-- A READ frame (R580 to R587, R591). Until power-good the port does not drive its pins (R403). -/
def hostRead (cmd : Byte) (a n crc : Nat) (ecc : Option Nat) (s : State) : State :=
  let addr := a % 2 ^ 32
  let len := n % 2 ^ 16
  if !s.pwr.powerGood then s
  else match frameCode (crc == requestCrc cmd (requestHead addr len)) len s with
  | some c => readNone c 0 addr len (portRaise addr len s)
  | none =>
    match accessCode false addr len s with
    | (some (c, reason), s1) => readNone c reason addr len s1
    | (none, s1) =>
      match hostRange addr with
      | some r => readDone r addr len ecc s1
      | none => s1

/-- A WRITE's response (R580, R583, R584). -/
def writeAnswer (c : HostCode) (reason count addr : Nat) (s : State) : State :=
  respond (beBytes 4 (statusWord c reason s) ++ beBytes 4 (endWord count c reason)) (codeEffect c reason addr true s)

/-- A WRITE frame (R580 to R588, R591): the words are judged, each with the ones before it performed, and those that pass
wait for HOST_CS_N to rise. -/
def hostWrite (cmd : Byte) (a n : Nat) (data : List Byte) (crc : Nat) (s : State) : State :=
  let addr := a % 2 ^ 32
  let len := n % 2 ^ 16
  let wait (bs : List Byte) (st : List Bool) (s : State) : State :=
    if bs.isEmpty then s
    else { s with hif := { s.hif with
      pending := some (addr, bs)
      pendStaged := st } }
  if (len ≠ data.length ∧ len ≤ 4096) ∨ !s.pwr.powerGood then s
  else
    match frameCode (crc == requestCrc cmd (requestHead addr len ++ data)) len s with
    | some c => writeAnswer c 0 0 addr (portRaise addr len s)
    | none =>
      match accessCode true addr len s with
      | (some (c, reason), s1) => writeAnswer c reason 0 addr s1
      | (none, s1) =>
        match hostRange addr with
        | some (.window _) =>
          let st := wordsStaged (burstWords addr data) s1
          match wordsWrite (burstWords addr data) 0 true s1 with
          | (k, _, some (b, w, reason), _) =>
            wait (data.take (4 * k)) st (writeAnswer .refused reason (4 * k) (addr + 4 * k) (refuseEffect b w reason s1))
          | (_, all, none, _) => wait data st (writeAnswer (if all then .staged else .done) 0 len addr s1)
        | _ => wait data [] (writeAnswer .done 0 len addr s1)

/-- A STATUS frame (R404, R580, R591): in BOOT code BUSY, state 0 and summary zero; while CORE is not ON the BUSY responder
answers, with a summary of zero as in BOOT (DESIGN CHOICE, log entry 105). -/
def hostStatus (cmd : Byte) (crc : Nat) (s : State) : State :=
  let answer (c : HostCode) : State :=
    let sum : Word := if portBusy s then 0#32 else intSummary s
    respond (beBytes 4 (statusWord c 0 s) ++ beBytes 4 sum.toNat) (codeEffect c 0 0 false s)
  if !s.pwr.powerGood then s
  else if portBusy s then answer .busy
  else if crc = requestCrc cmd [] then answer .done
  else answer .crc

/-! ### Meanings -/

/-- READ_WIDTH_1 (R580): command 0x03. `ecc` is the number of bytes before the first granule of the parameter store that the
die cannot correct, if the burst meets one. -/
def execReadWidth1 (addr n crc : Nat) (ecc : Option Nat) (s : State) : Result := .next (hostRead 0x03#8 addr n crc ecc s)

/-- READ_WIDTH_4 (R580): command 0xEB. -/
def execReadWidth4 (addr n crc : Nat) (ecc : Option Nat) (s : State) : Result := .next (hostRead 0xEB#8 addr n crc ecc s)

/-- WRITE_WIDTH_1 (R580, R587): command 0x02. -/
def execWriteWidth1 (addr n : Nat) (data : List Byte) (crc : Nat) (s : State) : Result :=
  .next (hostWrite 0x02#8 addr n data crc s)

/-- WRITE_WIDTH_4 (R580, R587): command 0x38. -/
def execWriteWidth4 (addr n : Nat) (data : List Byte) (crc : Nat) (s : State) : Result :=
  .next (hostWrite 0x38#8 addr n data crc s)

/-- STATUS_WIDTH_1 (R580): command 0x05. -/
def execStatusWidth1 (crc : Nat) (s : State) : Result := .next (hostStatus 0x05#8 crc s)

/-- STATUS_WIDTH_4 (R580): command 0x75. -/
def execStatusWidth4 (crc : Nat) (s : State) : Result := .next (hostStatus 0x75#8 crc s)

/-- BAD_CMD (R580): a command byte that no command has. -/
def execBadCmd (cmd : Byte) (s : State) : Result :=
  if [0x03#8, 0xEB#8, 0x02#8, 0x38#8, 0x05#8, 0x75#8].contains cmd then .next s
  else .next (cause Reg.HIF_CAUSE 3 { s with hif := { s.hif with inResponse := false, response := [] } })

/-- HOST_CS_N_EARLY_RISE (R589): `none` is a rise before the request CRC has been received; `some k` a rise during a
response, with `k` words of a read burst fetched: what a later word would have latched is not latched. -/
def execHostCsNEarlyRise (fetched : Option Nat) (s : State) : Result :=
  match fetched with
  | none => .next (cause Reg.HIF_CAUSE 2 (incFld Reg.HIF_CNT2 31 16 s))
  | some k =>
    if s.hif.inResponse then
      let s1 := forL (s.hif.latched.reverse.filter (fun l => decide (k ≤ l.1))) s (fun l s =>
        if getReg s l.2.1 = l.2.2.2 then setReg l.2.1 l.2.2.1 s else s)
      .next (incFld Reg.HIF_CNT2 31 16 { s1 with hif := { s1.hif with inResponse := false, latched := [] } })
    else .next s

/-- HOST_WRITE_PERFORM (R587, R588): the buffered words are performed in ascending order, as they were answered; HIF_STAT.seq
counts the transaction. -/
def execHostWritePerform (s : State) : Result :=
  match s.hif.pending with
  | none => .next s
  | some (a, data) =>
    let s1 := { s with hif := { s.hif with
      pending := none
      pendStaged := []
      seq := (s.hif.seq + 1) % 2 ^ 16 } }
    match hostRange a with
    | some (.window _) => .next (wordsPerform (burstWords a data) s.hif.pendStaged s1)
    | some r => .next (hostMemWrite r a data s1)
    | none => .next s1

end Sys2Proof.Machine
end

