-- ==== Sys2Proof/Machine/Boot.lean ====
section
/-! DEFINITION. The boot sequence (R413, R76): what a boot clears (R464), the self-test report (R487, R488), the start of the
management firmware (R524), the placing of the timetable, and the transaction that a boot recovers (R467). -/

namespace Sys2Proof.Machine

/-! ### What a boot clears (R416, R464) -/

/-- The registers of the always-on domain that keep their words (R364, R427, R547). -/
def aoReg (a : Nat) : Bool :=
  [Reg.PWR_SAVE, Reg.PWR_CUT, Reg.PWR_RSTTIME, Reg.PWR_TICK_HI].contains a ||
    (decide (Reg.MGT_CAL_SEC ≤ a) && decide (a ≤ Reg.MGT_CAL_CNT)) ||
    (decide (0xB1000 ≤ a) && decide (a < 0xB1400))

/-- R464: register values do not survive a boot. -/
def bootRegs (s : State) : State := { s with regs := s.regs.filter (fun x => aoReg x.1) }

/-- The records still in the event buffer, which a boot counts as lost (R540). -/
def evLost (s : State) : Nat := s.mgt.evr.buffer.length

/-- What every boot clears, of whichever kind. -/
def bootCommon (s : State) : State :=
  let s1 := bootRegs (forN 17 s (fun k s => domRequest (k + 1) .force false s))
  { s1 with
    pwr := { s1.pwr with
      nls := []
      nlsMark := []
      v8Mark := []
      nlsStarted := false
      daySums := [0, 0, 0]
      dayQ := .good }
    dev := { mode := s.dev.mode, ptr := s.dev.ptr, cmdStatus := s.dev.cmdStatus }
    tx := {}
    img := {}
    hif := { seq := s.hif.seq }
    hyd := {}
    ftr := {}
    opt := {}
    ce := {}
    slv := { fs := s.slv.fs }
    lpe := { buf := s.lpe.buf }
    chn := { pcs := s.chn.pcs }
    mem := { s.mem with sram := [] }
    mtr := { peaks := peakMerge s.mtr.savePeaks s.mtr.peaks, aoKept := s.mtr.aoKept, cleanSave := s.mtr.cleanSave || cleanTotals s,
             archDue := s.mtr.archDue }
    ps := { s.ps with key := List.replicate 16 0, cmdStatus := 0, page := [], programming := false, frozen := false }
    slk := { s.slk with thru := [], fwd := none } }

/-- R404, R413 steps 1 and 2: the switchable domains are cleared; CORE starts. -/
def bootDomains (s : State) : State :=
  let core : Domain := { st := .on, work := true, starts := 1 }
  { s with pwr := { s.pwr with
    doms := core :: List.replicate 16 {}, refOk := true, sysLock := true, slvLock := false, serLock := false, pfwNow := false,
    saving := false, saved := false, save := .idle, sealTx := 0, rstHeld := false, rstGone := false, eHyd := 0, eOpt := 0 } }

/-- What the steps of R413 clear beyond that: the SRAMs and the logic of every switchable domain. The always-on domain
keeps the calendar, the next sequence number of the recorder, the counters, the gate and its pins. -/
def bootFull (s : State) : State :=
  let lost := evLost s
  let s1 := bootDomains (bootCommon s)
  let e := s.mgt.evr
  let s2 := { s1 with
    slv := {}
    lpe := {}
    mem := { faults := s.mem.faults }
    mgt := { cal := s.mgt.cal, evr := { seq := e.seq, ready := e.ready, scanning := !e.ready, waiting := e.waiting } }
    mtr := { s1.mtr with cleanSave := s.mtr.cleanSave }
    red := { roleB := s.red.roleB, armed := s.red.armed, actIn := s.red.actIn, actInTick := s.red.actInTick } }
  let s3 := { s2 with dev := { s2.dev with cmdStatus := 0, ptr := none } }
  if lost = 0 then s3
  else cause Reg.MGT_CAUSE 11 (setFld Reg.MGT_EVR_LOST 15 0 (min 65535 lost) s3)

/-! ### Self-test (R487, R488, R490) -/

/-- R487: the redundant columns of a bank that are free to take the place of a failing one: those neither in use nor failing
themselves (log entry 99). -/
def bankSpares (b : BistBank) : Nat := 4 - b.fused - b.spareBad

/-- R487: the columns of a bank that are repaired. -/
def bankSoft (b : BistBank) : Nat := min b.failing (bankSpares b)

/-- R487: a bank holds an unrepaired fault: no spare column is left for a failing one, a redundant column in use fails, or a
cell outside every replaceable column. -/
def bankBad (b : BistBank) : Bool := decide (bankSpares b < b.failing) || b.usedBad != 0 || b.cell

/-- Bank `i` of memory `k` in a report. -/
def bistBank (r : BistReport) (k i : Nat) : BistBank := nth (nth r.mems k []) i {}

/-- A fault that could not be repaired. -/
def bistBad (r : BistReport) : Bool := r.mems.any (fun m => m.any bankBad)

/-- R490: MEM_BIST_Mk. -/
def bistWord (r : BistReport) (k : Nat) : Nat :=
  let sum (f : BistBank → Nat) : Nat := (nth r.mems k []).foldl (fun n b => n + f b) 0
  sum (·.fused) % 256 + 256 * (sum bankSoft % 256) +
    65536 * (List.range 16).foldl (fun n i => n + bitAt i (bankBad (bistBank r k i))) 0

/-- R490: MEM_BIST_CHK, the check banks of memories 0 and 1. -/
def bistChk (r : BistReport) : Nat :=
  bitAt 0 (bankBad (bistBank r 0 16)) + bitAt 1 (bankBad (bistBank r 0 17)) + bitAt 2 (bankBad (bistBank r 1 16)) +
    bitAt 3 (bankBad (bistBank r 1 17))

/-- R488, R490: the registers that report the self-test and the repairs, which are made again at every boot. -/
def bistReport (s : State) : State :=
  let r := s.mem.faults
  setReg Reg.MEM_BIST_CHK (BitVec.ofNat 32 (bistChk r))
    (forN 14 s (fun k s => setReg (Reg.MEM_BIST_M + 0x10 * k) (BitVec.ofNat 32 (bistWord r k)) s))

/-- R413 step 3, R487, R488: the self-test's registers and causes. -/
def bistRun (s : State) : State :=
  let r := s.mem.faults
  let s1 := bistReport s
  let s2 := if r.mems.any (fun m => m.any (fun b => bankSoft b != 0)) then cause Reg.MEM_CAUSE 3 s1 else s1
  let s3 := { s2 with mem := { s2.mem with bistDone := true, bistPass := !bistBad r } }
  if bistBad r then cause Reg.DEV_CAUSE 2 s3 else s3

/-! ### Management firmware (R523, R524) -/

/-- Write the firmware pointer, durable at once, and take it. -/
def fwPtrSet (p : Nat × Nat × Nat × Nat × Nat) (s : State) : State :=
  let s1 := jnlWriteNow 0xA 0 (fwPtrBytes p) s
  { s1 with mgt := { s1.mgt with fwPtr := some p } }

/-- R524 steps 1 to 3: the slot selected, and whether it is on trial. -/
def fwSelect (s : State) : Nat × Bool × State :=
  let (active, st, confirmed, tries, floor) := fwPtrNow s
  if st = 1 ∧ tries = 0 then (active, true, fwPtrSet (active, 1, confirmed, 1, floor) s)
  else if st = 1 then (confirmed, false, cause Reg.MGT_CAUSE 1 (fwPtrSet (confirmed, 0, confirmed, tries, floor) s))
  else (active, false, s)

/-- R524 step 4: the image of a slot starts; MA1 takes its digest, MA2 the microcode it loads (R561). -/
def fwStart (slot : Nat) (trial : Bool) (s : State) : State :=
  let x := fwCheck s slot
  let s1 := { s with mgt := { s.mgt with fwSlot := slot, trial := trial, recovery := false, fwRunning := true, fwSvn := x.svn } }
  forL Config.microcode (maExtend 1 x.digest s1) (fun d s => maExtend 2 d s)

/-- R413 step 6, R524. -/
def fwBoot (s : State) : State :=
  let s0 := { s with mgt := { s.mgt with fwPtr := (jnlLatest s 0xA 0).map fwPtrOf } }
  let (slot, trial, s1) := fwSelect s0
  let other := 1 - slot
  let s2 :=
    if fwGood s1 slot then fwStart slot trial s1
    else if fwGood s1 other then
      let (_, _, _, tries, floor) := fwPtrNow s1
      cause Reg.MGT_CAUSE 2 (fwPtrSet (other, 0, other, tries, floor) (fwStart other false s1))
    else { s1 with mgt := { s1.mgt with recovery := true, fwRunning := false } }
  fwVersions s2

/-! ### The recovered transaction (R467) -/

/-- A commit record's payload (R459): number, the slot of a staged replacement, digest, entries. -/
structure CommitRec where
  number : Nat := 0
  slot : Option Nat := none
  digest : List Byte := []
  entries : List (Nat × Word) := []
  deriving DecidableEq, Repr

/-- Read a commit record. -/
def commitOf (b : List Byte) : CommitRec :=
  { number := u32 b 0, slot := if bit (u8 b 6) 1 then some (u8 b 7) else none, digest := slice b 8 48,
    entries := (List.range (u16 b 4)).map (fun i => (u32 b (64 + 8 * i), w32 b (68 + 8 * i))) }

/-- The commit record without a done mark that the journal holds. -/
def commitOpen (s : State) : Option CommitRec := (jnlLatest s 3 0).map commitOf

/-- R467 step 1: the seal records that the transaction of that number was discarded. -/
def commitSealed (s : State) (c : CommitRec) : Bool := s.jnl.sealTx == some (1, c.number)

/-- A recovered transaction ends: its done mark is written. -/
def commitClose (s : State) : State := jnlWriteNow 4 0 (leBytes 8 s.jnl.seq) s

/-- R467: the latest commit record without a done mark is judged. The second component says that it was applied, if there is
one. -/
def commitRecover (s : State) : State × Bool :=
  match commitOpen s with
  | some c =>
    let s1 := setTx { s.tx with number := c.number } s
    if commitSealed s c then (commitClose (cause Reg.JNL_CAUSE 6 (txEnd 5 7 0 s1)), false)
    else if c.digest ≠ (theTt s).digest then (commitClose (cause Reg.JNL_CAUSE 7 (txEnd 6 0 0 s1)), false)
    else (jnlFinish 400 (txApply 0xFFFFFFFF (setTx { s1.tx with entries := c.entries } s1)), true)
  | none => (s, true)

/-- R467: a seal whose transaction has no commit record: in state 1 it was discarded. -/
def sealRecover (known : Option Nat) (s : State) : State :=
  match s.jnl.sealTx with
  | some (st, n) =>
    if known = some n then s
    else if st = 1 then cause Reg.JNL_CAUSE 6 (txEnd 5 7 0 (setTx { s.tx with number := n } s))
    else if known.isNone then setTx { s.tx with number := n } s
    else s
  | none => s

/-- R76 step 5, R467. The seal that the boot found is judged once, by the first boot that comes so far. -/
def txRecover (s : State) : State × Bool :=
  let (s1, good) := commitRecover s
  let s2 := sealRecover ((commitOpen s).map (·.number)) s1
  ({ s2 with jnl := { s2.jnl with sealTx := none } }, good)

/-! ### The timetable (R73, R76) -/

/-- R76 step 1: a commit record whose replacement the pointer does not name yet has it named now. -/
def ptrRecover (s : State) : State :=
  match commitOpen s with
  | some c =>
    match c.slot with
    | some k =>
      if commitSealed s c ∨ (jnlLatest s 1 0).map (fun b => u8 b 0) = some k then s
      else jnlWriteNow 1 0 (leBytes 8 k) s
    | none => s
  | none => s

/-- The end of a boot in HOLD; the background checks begin. -/
def bootHold (s : State) : State :=
  let (n, s1) := fresh (slotsBackground (setMode .hold s))
  { s1 with mem := { s1.mem with era := n } }

/-- R76 step 3: the sections of a checked timetable are placed. -/
def ttPlace (t : Timetable) (slot : Nat) (s : State) : State :=
  let s0 := { s with dev := { s.dev with tt := some t, activeSlot := slot }, red := { s.red with armed := t.redundancy.mode == 1 } }
  let s1 := thruPlace t (slkPlace (chnPlace none t (imgPlace t s0)))
  lpePlace t (cePlace t (ftrPlace t (slvPlace none t s1)))

/-- R76: the timetable steps of a boot, to READY or HOLD. A self-test fault (R488) and the recovery of the management
firmware (R524 step 6) end them in HOLD after the check, without placing a timetable.
DEDUCED (log entry 90). -/
def bootTimetable (s : State) : State :=
  let s1 := ptrRecover s
  match (jnlLatest s1 1 0).map (fun b => u8 b 0 % 2) with
  | none => bootHold (cause Reg.DEV_CAUSE 1 { s1 with dev := { s1.dev with ptr := none } })
  | some slot =>
    let s2 := { s1 with dev := { s1.dev with ptr := some slot, activeSlot := slot } }
    let (v, t) := ttCheckSlot s2 (baseTotals s2) slot
    let s3 := slotReport slot v s2
    if v.code ≠ 0 then bootHold (cause Reg.DEV_CAUSE (if v.code = 1 ∨ v.code = 2 then 1 else 0) s3)
    else if !s.mem.bistPass ∨ s.mgt.recovery then bootHold s3
    else
      let (s4, good) := txRecover (ttMeasure t (ttPlace t slot s3))
      let s5 := slotsBackground (enterReady s4)
      { s5 with dev := { s5.dev with goodStart := good, autoRunDue := good && bit t.plan.flags 0 } }

/-! ### The sequence -/

/-- R413 steps 1 to 6. -/
def bootSequence (s : State) : State :=
  let s1 := maExtend 0 Config.romDigest (keyClear (bootFull s))
  let s2 := thruBoot (!s.slk.thruOn) (bistRun s1)
  let s3 := jnlRecover s2
  let s4 := if s3.jnl.sealed ∨ getBit s3 Reg.PWR_SAVE 3 then cause Reg.DEV_CAUSE 19 s3 else s3
  fwBoot (mtrLogBoot (psBoot (keyBoot (thruRecover s4))))

/-- A boot runs: all of R413, or for LOAD only the steps of R76. -/
def bootRun (k : BootKind) (s : State) : State :=
  match k with
  | .full => bootTimetable (bootSequence s)
  | .load => bootTimetable (mtrLogBoot (fwVersions (psBoot (bistReport (bootCommon s)))))

/-- The boot that is pending runs, unless RST_N holds the device, its supplies are not good, or a save runs. -/
def bootDo (s : State) : State :=
  match s.dev.bootPending with
  | some k =>
    if s.dev.mode = .boot ∧ !s.pwr.rstLow ∧ s.pwr.powerGood ∧ !s.pwr.saving then
      bootRun k { s with dev := { s.dev with bootPending := none } }
    else s
  | none => s

end Sys2Proof.Machine
end

