-- ==== Sys2Proof/Machine/PwrFail.lean ====
section
/-! DEFINITION. Supplies, RST_N, the power-fail warning and the clocks (R403, R406, R408, R416 to R424, R526): the commands
that stop the device or start it again, and the two steps of the journal writer, at whose end a save may be complete. -/

namespace Sys2Proof.Machine

/-! ### A device that is stopped at once -/

/-- R424, R440, R539: what a write of the non-volatile die leaves that is cut short: of the copy in progress, of the page in
progress, and with no journal record of the event record in progress, the granules up to some place are new (a free value),
the ones after it old. -/
def tornWrites (s : State) : State :=
  let (n, s0) := fresh s
  let (m, s00) := fresh s0
  let s1 := match s.jnl.cur, s.jnl.queue, s.mgt.evr.queue with
    | none, [], r :: _ => evWrite (r.take (8 * ((Config.freeWord n).toNat % 4))) s00
    | _, _, _ => s00
  let s2 := match s.jnl.cur with
    | some c =>
      let k := (Config.freeWord n).toNat % (c.bytes.length / 8 + 1)
      nvWrite ((if c.durable then segB c.pair else segA c.pair) + c.off) (c.bytes.take (8 * k)) s1
    | none => s1
  if s.ps.programming then
    forL (s.ps.page.take ((Config.freeWord m).toNat % (s.ps.page.length + 1))) s2 (fun g s => nvWrite g.1 g.2 s)
  else s2

/-- R540: the recorder when the device stops at once: what is buffered, also what a flush had on its way and what waits for the
scan, lies in the buffer until the boot counts it. -/
def evCut (s : State) : State :=
  let e := s.mgt.evr
  { s with mgt := { s.mgt with evr := { e with
    buffer := e.queue.filter evBuffered ++ e.buffer ++ e.waiting.map (·.2), queue := [], waiting := [] } } }

/-- RST_N or a loss of the supplies clears every switchable domain at once (R416): the device is in BOOT, with all that it
was doing gone; the boot counts the events that were still buffered (R540). -/
def crash (s : State) : State :=
  let s1 := evCut (tornWrites s)
  let s2 := unload { s1 with dev := { s1.dev with prevMode := s1.dev.mode, mode := .boot } }
  { s2 with
    dev := { s2.dev with bootPending := some .full, cmd := none, loadReady := false, writer := none }
    pwr := { s2.pwr with
      doms := List.replicate 17 {}, sysLock := false, slvLock := false, serLock := false, saving := false, saved := false,
      save := .idle, pfwNow := false, rstHeld := false, rstGone := false }
    jnl := {}
    tx := {}
    ps := { s2.ps with page := [], programming := false }
    hif := { seq := s2.hif.seq }
    red := { s2.red with sync := false, lanes := 0, tx := [], peerFit := false, peerLock := false }
    slv := {}
    hyd := {}
    ce := {} }

/-! ### RST_N (R416, R422) -/

/-- An RST_N assertion acts. -/
def rstAct (low : Bool) (s : State) : State :=
  let s1 := crash (hostEnd s)
  { s1 with pwr := { s1.pwr with rstLow := low } }

/-- R422: an assertion held off during a save acts when the save is complete. -/
def rstAfterSave (s : State) : State :=
  if s.pwr.rstHeld ∧ !s.pwr.saving then rstAct (!s.pwr.rstGone) s else s

/-- R416: whether a low pulse on RST_N counts: not below 2 µs, from 10 µs on, and in between one or the other (a free
value). -/
def rstSeen (lowNs : Nat) (s : State) : Bool × State :=
  if lowNs < 2000 then (false, s)
  else if 10000 ≤ lowNs then (true, s)
  else
    let (n, s1) := fresh s
    ((Config.freeWord n).getLsbD 0, s1)

/-- RST_N_ASSERT (R416, R422): the pin falls, also a further time during a save after an assertion that was held off and
released. -/
def execRstNAssert (lowNs : Nat) (s : State) : Result :=
  let (seen, s0) := rstSeen lowNs s
  if !seen ∨ s.pwr.rstLow ∨ (s.pwr.rstHeld ∧ !s.pwr.rstGone) then .next s0
  else
    let s1 := setReg Reg.PWR_RSTTIME (BitVec.ofNat 32 s0.mgt.cal.seconds) s0
    if s1.pwr.saving then .next { s1 with pwr := { s1.pwr with rstHeld := true, rstGone := false } }
    else .next (rstAct true s1)

/-- RST_N_RELEASE (R413): the boot begins; `bist` is what its self-test finds. -/
def execRstNRelease (bist : BistReport) (s : State) : Result :=
  let s1 := { s with mem := { s.mem with faults := bist } }
  if s.pwr.rstHeld then .next { s1 with pwr := { s1.pwr with rstGone := true } }
  else if s.pwr.rstLow then .next (bootDo { s1 with pwr := { s1.pwr with rstLow := false } })
  else .next s

/-! ### Supplies (R403, R406) -/

/-- POWER_GOOD (R403, R413): the supplies have been good for 1 ms. PAIR_ROLE is sampled (R493). -/
def execPowerGood (bist : BistReport) (roleB : Bool) (s : State) : Result :=
  if s.pwr.powerGood ∨ !s.pwr.vao then .next s
  else
    let s1 := { s with pwr := { s.pwr with powerGood := true }, mem := { s.mem with faults := bist },
                       red := { s.red with roleB := roleB } }
    .next (bootDo { s1 with dev := { s1.dev with bootPending := some .full } })

/-- POWER_GOOD_LOSS (R403): a main rail leaves its range: PWR_CUT takes the calendar time, and the switchable domains lose
what they hold. -/
def execPowerGoodLoss (s : State) : Result :=
  if s.pwr.powerGood then
    let s1 := powerLost (crash s)
    .next { s1 with slk := { s1.slk with thruOn := false, fwd := none } }
  else .next s

/-- The calendar after VAO was absent for `elapsed` units of 1/65,536 s: it ran on VBAT, or is lost (R406, R532). -/
def calHeld (held : Bool) (elapsed : Nat) (c : CalState) : CalState :=
  if held then
    let u := calOfUnits (calUnits c + (elapsed : Int))
    { seconds := u.1, frac := u.2, valid := c.valid }
  else {}

/-- VAO_RISE (R406): the tick count starts at 0 and the always-on domain is reset; the die keeps its contents, and with
VBAT the calendar goes on; an archive run that was interrupted is still to be completed (R391). `vbatHeld`: VBAT has held while VAO was absent; without it the tick starts on the RC
oscillator (R619). -/
def execVaoRise (vbatHeld : Bool) (elapsed : Nat) (s : State) : Result :=
  let s1 := if s.pwr.powerGood then crash s else s
  .next { State.reset with
    pending := s1.pending
    free := s1.free
    nv := s1.nv
    key := { entries := s1.key.entries }
    mgt := { cal := calHeld vbatHeld elapsed s1.mgt.cal }
    mtr := { archDue := s1.mtr.archDue }
    pwr := { vbatOk := vbatHeld, xtalOk := vbatHeld, rcClock := !vbatHeld }
    red := { actIn := s1.red.actIn } }

/-! ### The power-fail warning (R417, R418) -/

/-- R417: a low of this length is a warning. -/
def pfwSeen (lowNs : Nat) (s : State) : Bool := decide (getFld s Reg.PWR_PFW 5 0 * 1000 ≤ lowNs)

/-- R466: the transaction at a warning: discarded unless its commit record is durable. The state that the seal records. -/
def pfwTx (s : State) : State :=
  let mark (n : Nat) (s : State) : State := { s with pwr := { s.pwr with sealTx := n } }
  match s.tx.st with
  | 1 | 2 => mark 1 (txDiscard 7 s)
  | 3 => mark 1 (txDiscard 7 { s with jnl := { s.jnl with queue := s.jnl.queue.filter (fun r => r.owner != .commit) } })
  | 4 => mark 2 s
  | _ => mark 0 s

/-- R627: the record in progress is completed or abandoned; the owner of an abandoned one is told. -/
def pfwRecord (s : State) : State :=
  match s.jnl.cur with
  | some c => if c.req.kind = 9 ∨ c.durable then jnlAbandon s else jnlDone c.req.owner false (jnlAbandon s)
  | none => s

/-- R560, R575: key slot pointer records that have not begun are given up; the record of a step that the counter has made is not. -/
def pfwKeys (s : State) : State :=
  let isKey (r : JReq) : Bool := r.kind == 9
  let s1 := { s with jnl := { s.jnl with queue := s.jnl.queue.filter (fun r => !isKey r), compacting := false, compact := [] } }
  let s2 := if s1.key.counting then keyCounted (jnlWriteNow 9 0x49 (keyCtrBytes s1) s1) else s1
  forL (s.jnl.queue.filter isKey) s2 (fun r s => jnlDone r.owner false s)

/-- R409, R418: a domain whose every demand is withdrawn.
DESIGN CHOICE (log entry 105): the warning withdraws the host's forced demand too, so that the domain stops and a later
request starts it again. -/
def Domain.withdraw (x : Domain) : Domain :=
  let y : Domain := { x with
    scheduled := false
    work := false
    host := false
    mailbox := false
    forceOn := false }
  if x.demand then y.disable else y

/-- R418: EST, OPT, SLV, LPE and SYNC stop, by a disable request each (R409). -/
def pfwDomains (s : State) : State :=
  forL [3, 4, 5, 6, 17] s (fun d s => pllStop (setDom d (dom s d).withdraw s))

/-- R418: solves, loops, trains, the sync link and a pending command stop; cars in flight are lost. -/
def pfwStop (s : State) : State :=
  let s1 := lpeLeaveRun (optAbandon (hydStop s))
  let s2 := pfwDomains (syncDown s1)
  let s3 := { s2 with slk := { s2.slk with lines := s2.slk.lines.map (fun (l : LineSt) => { l with cars := [] }) } }
  if s3.dev.cmd.isSome then devDrop s3 else s3

/-- POWER_FAIL_WARNING (R417 to R419, R442): a low of `lowNs` ns at PFW_N. -/
def execPowerFailWarning (lowNs : Nat) (s : State) : Result :=
  if !pfwSeen lowNs s then .next s
  else
    let s1 := cause Reg.PWR_CAUSE 0 { s with pwr := { s.pwr with pfwNow := true } }
    if s.pwr.saving ∨ s.pwr.saved then .next s1
    else
      let s2 := pfwStop { s1 with pwr := { s1.pwr with saving := true }, dev := { s1.dev with bootPending := none } }
      let s3 := psProgram s2
      let s4 := pfwKeys (pfwRecord (pfwTx { s3 with ps := { s3.ps with frozen := true } }))
      .next (saveBegin (setFld Reg.PWR_SAVE 3 3 0 (saveStep 0 s4)))

/-- PFW_RECOVER_TIMEOUT (R423): PFW_N has stayed high for PWR_PFW.recover ms after a complete save, with the supplies good:
the device performs a RESET. -/
def execPfwRecoverTimeout (s : State) : Result :=
  if s.pwr.saved ∧ s.pwr.powerGood then
    if s.dev.mode = .boot then
      let s1 := evDrain s
      .next { s1 with dev := { s1.dev with bootPending := some .full } }
    else .next (enterBoot .full false true s)
  else .next s

/-! ### Journal copies (R445, R446) -/

/-- JOURNAL_COPY_A_WRITTEN (R445): copy A of the record in progress has been written and read back (`none`: as written). -/
def execJournalCopyAWritten (readback : Option (List Byte)) (s : State) : Result :=
  .next (rstAfterSave (jnlAWritten readback s))

/-- JOURNAL_COPY_B_WRITTEN (R446): copy B has been written and read back. -/
def execJournalCopyBWritten (readback : Option (List Byte)) (s : State) : Result :=
  .next (rstAfterSave (jnlCopyB readback s))

/-! ### Clocks and the watchdog (R408, R526) -/

/-- R408: a PLL runs while a domain it clocks is STARTING or ON. -/
def pllRuns (p : Pll) (s : State) : Bool :=
  (pllDoms p).any (fun d => (dom s d).st == .starting || (dom s d).st == .on)

/-- PLL_UNLOCK (R408): a running PLL loses lock or fails to lock. PLL_SYS and PLL_SLV are fatal causes; PLL_SER takes the
sync link down. -/
def execPllUnlock (pll : Pll) (s : State) : Result :=
  if !pllRuns pll s then .next s
  else
    match pll with
    | .sys => .next (fatal 10 0 { s with pwr := { s.pwr with sysLock := false } })
    | .slv => .next (fatal 10 0 { s with pwr := { s.pwr with slvLock := false } })
    | .ser => .next (syncDown (cause Reg.PWR_CAUSE 4 { s with pwr := { s.pwr with serLock := false } }))

/-- WATCHDOG_EXPIRE (R526): in BOOT a RESET, preceded by a flush (R540); otherwise a fatal cause, and the firmware starts
again. -/
def execWatchdogExpire (s : State) : Result :=
  if !s.pwr.powerGood ∨ s.pwr.rstLow then .next s
  else if s.dev.mode = .boot then
    let s1 := evDrain (cause Reg.MGT_CAUSE 0 s)
    .next { s1 with dev := { s1.dev with bootPending := some .full } }
  else .next (mbAbort (fatal 12 0 (cause Reg.MGT_CAUSE 0 s)))

end Sys2Proof.Machine
end

