-- ==== Sys2Proof/Machine/Tick.lean ====
section
/-! DEFINITION. The tick boundary (R406): what the tick that ends leaves behind, the counters that count ticks, the headway's
cadence (R415), the scrubber (R486), and the commands that take effect at a tick (R33). -/

namespace Sys2Proof.Machine

/-! ### Counting (R406, R415) -/

/-- The tick count steps (R406). -/
def tickCount (s : State) : State := { s with pwr := { s.pwr with tick := (s.pwr.tick + 1) % 2 ^ 48, sub := 0 } }

/-- R415: the cadence of headways in READY, RUN and SAFE; a standby takes it from the active member (R23), but for the headway
start at which it takes over by a handover: it comes one tick after the last tick of the headway before (R514 step 3). -/
def tickHeadway (s : State) : State :=
  match s.dev.mode with
  | .ready | .run | .safe =>
    if !s.dev.hwRunning then { s with dev := { s.dev with hwDue := true } }
    else if (theTt s).plan.headway ≤ s.dev.tickInHw + 1 then { s with dev := { s.dev with hwDue := true } }
    else { s with dev := { s.dev with tickInHw := s.dev.tickInHw + 1 } }
  | .standby =>
    if handoverNow s ∧ (theTt s).plan.headway ≤ s.dev.tickInHw + 1 then { s with dev := { s.dev with hwDue := true } } else s
  | .boot | .hold => s

/-- R425: the ledger's headway of 1,024 ticks in BOOT and HOLD. -/
def tickLedger (s : State) : State :=
  if hwStates s.dev.mode then s
  else if 1024 ≤ s.pwr.ledgerTick + 1 then ledgerHeadway s
  else { s with pwr := { s.pwr with ledgerTick := s.pwr.ledgerTick + 1 } }

/-- The times that run in ticks: an open transaction's idle time (R458), lockouts (R438), the event buffer's flush period
(R540), and a requested snap strobe, which is due from this boundary on (R543); an edge that the device drives at SNAP in
the tick now begun requests one for the next boundary (R544). -/
def tickTimers (s : State) : State :=
  let s1 := psTick s
  { s1 with
    red := { s1.red with stepped := false }
    tx := { s1.tx with idleTicks := if s1.tx.st = 1 then s1.tx.idleTicks + 1 else s1.tx.idleTicks }
    mgt := { s1.mgt with flushTicks := s1.mgt.flushTicks + 1, snapReq := s1.mgt.snapDrive, snapDrive := false,
                         snapOut := s1.mgt.snapDrive, snapDue := s1.mgt.snapDue || s1.mgt.snapReq } }

/-- R406, R532, R533: calendar time at the boundary; a step closes the meters' intervals (R379), and the first valid time
lets waiting records be written (R387). -/
def tickCalendar (s : State) : State :=
  let old := s.mgt.cal
  let (s1, stepped) := calTick s
  let s2 := if stepped then mtrCalStep (!old.valid && s1.mgt.cal.valid) old.seconds s1 else s1
  if s2.mgt.cal.valid then mtrPending s2 else s2

/-- The channels at a tick: pulse counts (R356), readbacks (R361), conversion rates (R344). -/
def tickChannels (readback : List Readback) (s : State) : State :=
  let s1 := forL readback (pcTick s) chnReadback
  if s1.pwr.tick % 1024 = 0 then chnSecond s1 else s1

/-- R33: what takes effect at this tick: a boot that an earlier tick has entered, or a pending command. -/
def tickCommands (s : State) : State :=
  let s1 := { s with dev := { s.dev with holdRefused := false } }
  if s1.dev.bootPending.isSome then bootDo s1 else devTick s1

/-- TICK (R406). `energy` is the energy of each ledger group in the tick that ends, in µJ; `upsets` the stored bits that have turned
wrong in it, and `readback` what the output channels measure. -/
def execTick (energy : List Nat) (upsets : List Upset) (readback : List Readback) (s : State) : Result :=
  let s1 := ciPublish (tickCount (bookEnergy energy (redTickEnd s)))
  let s2 := tickLedger (tickHeadway (tickTimers (tickCalendar s1)))
  let s3 := archTick (tickChannels readback s2)
  .next (domKeep (swapTick (tickCommands (evTick (thruTick (scrub (forL upsets s3 memUpset)))))))

end Sys2Proof.Machine
end

