-- ==== Sys2Proof/Machine/Wake.lean ====
section
/-! DEFINITION. The wake controller (R411): the uses of a domain that fall on a tick, the demand that it raises for the next of
them, and the end of a demand whose work is done. -/

namespace Sys2Proof.Machine

/-- The place in the headway of the tick that comes next: 0 at a headway start. -/
def nextInHw (s : State) : Nat :=
  if !s.dev.hwRunning ∨ (theTt s).plan.headway ≤ s.dev.tickInHw + 1 then 0 else s.dev.tickInHw + 1

/-- The state as the schedule of the tick that comes next sees it. -/
def aheadOf (s : State) : State :=
  { s with
    pwr := { s.pwr with tick := (s.pwr.tick + 1) % 2 ^ 48 }
    dev := { s.dev with tickInHw := nextInHw s } }

/-- R20: an optimiser period starts with the tick that comes next, if it is a headway start. -/
def periodAhead (s : State) : Bool :=
  nextInHw s == 0 && optWorks s && decide (max 1 (theTt s).plan.optHeadways ≤ s.dev.optCount + 1)

/-- R411: domain `d` has a use at the tick that comes next: train departures and the cars until input close, input close, an
optimiser period's start, loop samples, cyclic releases, meter samples and windows, and the pair's streams.
DEDUCED (log entry 64): the windows of an electrical meter and the streams of a pair go on through every tick. -/
def usedNext (d : Nat) (s : State) : Bool :=
  let t := theTt s
  let a := aheadOf s
  let est := hwStates s.dev.mode && estWorks s && a.dev.tickInHw == t.plan.tIn
  match d with
  | 2 => trainsRun s && headPorts t != [] && (decide (a.dev.tickInHw ≤ t.plan.tIn) || joinTime a)
  | 3 => est
  | 4 => periodAhead s
  | 5 => est || periodAhead s
  | 6 => lpeWorks s && (List.range 256).any (fun k => match loopOf s k with
      | some r => loopDue a r
      | none => false)
  | 16 => hwStates s.dev.mode && t.meters != [] && (a.pwr.tick % 256 == 0 || t.meters.any (fun r => r.cls == 3))
  | 17 => paired s && hwStates s.dev.mode
  | _ =>
    decide (7 ≤ d ∧ d ≤ 14) && engWorks s (d - 7) && t.tasks.any (fun r => r.engine == d - 7 && r.kind == 0 && taskDue a r)

/-- R411: the work of domain `d` has not ended. -/
def domBusy (d : Nat) (s : State) : Bool :=
  match d with
  | 2 => trainsRun s && headPorts (theTt s) != [] && !s.dev.siPublished
  | 3 => s.hyd.busy || s.ftr.busy
  | 4 => s.opt.phase != .idle
  | 5 => s.slv.holder != 0 || s.slv.hyd.unit != .none || s.slv.opt.unit != .none || s.slv.selftest == 1
  | 6 => lpeWorks s && (loopNext s).isSome
  | 17 => s.red.sync
  | _ => decide (7 ≤ d ∧ d ≤ 14) && engWorks s (d - 7) && !ceIdle s (d - 7)

/-- R411: the tick that comes next lies within PWR_CTL.linger sub-ticks, and domain `d` has a use there. -/
def domLingers (d : Nat) (s : State) : Bool := usedNext d s && decide (32 ≤ s.pwr.sub + getFld s Reg.PWR_CTL 11 8)

/-- SCHEDULED_WAKE: PWR_CTL.lead sub-ticks before a tick with a use of the domain the wake controller raises its demand
(R411). -/
def execScheduledWake (d : Nat) (s : State) : Result :=
  let at_ := 32 - getFld s Reg.PWR_CTL 3 0
  if usedNext d s ∧ s.pwr.sub ≤ at_ then
    .next (domRequest d .scheduled true { s with pwr := { s.pwr with sub := at_ } })
  else .next s

/-- LINGER_EXPIRE: the domain's work has ended and its next scheduled use lies beyond the linger time (R411). -/
def execLingerExpire (d : Nat) (s : State) : Result :=
  if domStays s d ∨ domBusy d s ∨ domLingers d s then .next s
  else .next (domRequest d .work false (domRequest d .scheduled false s))

end Sys2Proof.Machine
end

