-- ==== Sys2Proof/Machine/Dispatch.lean ====
section
/-! DEFINITION. Every command to its meaning, one arm per constructor. -/

namespace Sys2Proof.Machine

/-- A command's effect on everything but the queue. -/
def exec (i : Instr) (s : State) : Host.Outcome State Fault Refusal :=
  match i with
  | .tick energy upsets readback => Sys2Proof.Machine.execTick energy upsets readback s
  | .headwayStart => Sys2Proof.Machine.execHeadwayStart s
  | .commitBoundary => Sys2Proof.Machine.execCommitBoundary s
  | .inputClose => Sys2Proof.Machine.execInputClose s
  | .optPause => Sys2Proof.Machine.execOptPause s
  | .estimateClose => Sys2Proof.Machine.execEstimateClose s
  | .outputFreeze => Sys2Proof.Machine.execOutputFreeze s
  | .ftrMoveDone => Sys2Proof.Machine.execFtrMoveDone s
  | .fabricFactorisationDone => Sys2Proof.Machine.execFabricFactorisationDone s
  | .fabricSolveDone => Sys2Proof.Machine.execFabricSolveDone s
  | .fatalCauseSafe => Sys2Proof.Machine.execFatalCauseSafe s
  | .run key => Sys2Proof.Machine.execRun key s
  | .stop key => Sys2Proof.Machine.execStop key s
  | .hold key => Sys2Proof.Machine.execHold key s
  | .loadA key => Sys2Proof.Machine.execLoadA key s
  | .loadB key => Sys2Proof.Machine.execLoadB key s
  | .clear key => Sys2Proof.Machine.execClear key s
  | .reset key => Sys2Proof.Machine.execReset key s
  | .powerGood bist roleB => Sys2Proof.Machine.execPowerGood bist roleB s
  | .powerGoodLoss => Sys2Proof.Machine.execPowerGoodLoss s
  | .rstNAssert lowNs => Sys2Proof.Machine.execRstNAssert lowNs s
  | .rstNRelease bist => Sys2Proof.Machine.execRstNRelease bist s
  | .backgroundSlotCheckDone slot => Sys2Proof.Machine.execBackgroundSlotCheckDone slot s
  | .throughForwardStart => Sys2Proof.Machine.execThroughForwardStart s
  | .vaoRise vbatHeld elapsed => Sys2Proof.Machine.execVaoRise vbatHeld elapsed s
  | .xtalFail => Sys2Proof.Machine.execXtalFail s
  | .xtalReturn => Sys2Proof.Machine.execXtalReturn s
  | .refFail => Sys2Proof.Machine.execRefFail s
  | .pllUnlock pll => Sys2Proof.Machine.execPllUnlock pll s
  | .vbatLow => Sys2Proof.Machine.execVbatLow s
  | .powerFailWarning lowNs => Sys2Proof.Machine.execPowerFailWarning lowNs s
  | .pfwRecoverTimeout => Sys2Proof.Machine.execPfwRecoverTimeout s
  | .domainEnableRequest d u => Sys2Proof.Machine.execDomainEnableRequest d u s
  | .domainDisableRequest d u => Sys2Proof.Machine.execDomainDisableRequest d u s
  | .domainStartDone d => Sys2Proof.Machine.execDomainStartDone d s
  | .domainStopDone d => Sys2Proof.Machine.execDomainStopDone d s
  | .domainStartTimeout d => Sys2Proof.Machine.execDomainStartTimeout d s
  | .scheduledWake d => Sys2Proof.Machine.execScheduledWake d s
  | .lingerExpire d => Sys2Proof.Machine.execLingerExpire d s
  | .hostLingerExpire d => Sys2Proof.Machine.execHostLingerExpire d s
  | .domainForceOn d on => Sys2Proof.Machine.execDomainForceOn d on s
  | .healthSample temps mv => Sys2Proof.Machine.execHealthSample temps mv s
  | .watchdogExpire => Sys2Proof.Machine.execWatchdogExpire s
  | .readWidth1 addr n crc ecc => Sys2Proof.Machine.execReadWidth1 addr n crc ecc s
  | .readWidth4 addr n crc ecc => Sys2Proof.Machine.execReadWidth4 addr n crc ecc s
  | .writeWidth1 addr n data crc => Sys2Proof.Machine.execWriteWidth1 addr n data crc s
  | .writeWidth4 addr n data crc => Sys2Proof.Machine.execWriteWidth4 addr n data crc s
  | .statusWidth1 crc => Sys2Proof.Machine.execStatusWidth1 crc s
  | .statusWidth4 crc => Sys2Proof.Machine.execStatusWidth4 crc s
  | .badCmd cmd => Sys2Proof.Machine.execBadCmd cmd s
  | .hostCsNEarlyRise fetched => Sys2Proof.Machine.execHostCsNEarlyRise fetched s
  | .hostWritePerform => Sys2Proof.Machine.execHostWritePerform s
  | .registerWrite addr data => Sys2Proof.Machine.execRegisterWrite addr data s
  | .mbAck => Sys2Proof.Machine.execMbAck s
  | .mbUnknownCommand => Sys2Proof.Machine.execMbUnknownCommand s
  | .info => Sys2Proof.Machine.execInfo s
  | .ttOpen => Sys2Proof.Machine.execTtOpen s
  | .ttWrite => Sys2Proof.Machine.execTtWrite s
  | .ttClose => Sys2Proof.Machine.execTtClose s
  | .ttAbort => Sys2Proof.Machine.execTtAbort s
  | .ttRead => Sys2Proof.Machine.execTtRead s
  | .timetableCheckDone slot => Sys2Proof.Machine.execTimetableCheckDone slot s
  | .fwOpen => Sys2Proof.Machine.execFwOpen s
  | .fwWrite => Sys2Proof.Machine.execFwWrite s
  | .fwClose => Sys2Proof.Machine.execFwClose s
  | .fwActivate => Sys2Proof.Machine.execFwActivate s
  | .fwConfirm => Sys2Proof.Machine.execFwConfirm s
  | .fwRead => Sys2Proof.Machine.execFwRead s
  | .evrRead => Sys2Proof.Machine.execEvrRead s
  | .evrFlush => Sys2Proof.Machine.execEvrFlush s
  | .logRead => Sys2Proof.Machine.execLogRead s
  | .archRead => Sys2Proof.Machine.execArchRead s
  | .jnlRead => Sys2Proof.Machine.execJnlRead s
  | .keyInfo => Sys2Proof.Machine.execKeyInfo s
  | .keyGenerate => Sys2Proof.Machine.execKeyGenerate s
  | .keyImport => Sys2Proof.Machine.execKeyImport s
  | .keyDerive => Sys2Proof.Machine.execKeyDerive s
  | .keyExport => Sys2Proof.Machine.execKeyExport s
  | .keyDestroy => Sys2Proof.Machine.execKeyDestroy s
  | .keyRemask => Sys2Proof.Machine.execKeyRemask s
  | .remaskDue => Sys2Proof.Machine.execRemaskDue s
  | .compatMask => Sys2Proof.Machine.execCompatMask s
  | .compatLoad => Sys2Proof.Machine.execCompatLoad s
  | .maExtend => Sys2Proof.Machine.execMaExtend s
  | .maRead => Sys2Proof.Machine.execMaRead s
  | .maLog => Sys2Proof.Machine.execMaLog s
  | .encrypt => Sys2Proof.Machine.execEncrypt s
  | .decrypt => Sys2Proof.Machine.execDecrypt s
  | .stationKey => Sys2Proof.Machine.execStationKey s
  | .attest => Sys2Proof.Machine.execAttest s
  | .identity => Sys2Proof.Machine.execIdentity s
  | .signerSet => Sys2Proof.Machine.execSignerSet s
  | .signerInfo => Sys2Proof.Machine.execSignerInfo s
  | .rngHealthFail => Sys2Proof.Machine.execRngHealthFail s
  | .begin key => Sys2Proof.Machine.execBegin key s
  | .commit key => Sys2Proof.Machine.execCommit key s
  | .commitPrompt key => Sys2Proof.Machine.execCommitPrompt key s
  | .rollback key => Sys2Proof.Machine.execRollback key s
  | .txIdleAbort => Sys2Proof.Machine.execTxIdleAbort s
  | .journalCopyAWritten readback => Sys2Proof.Machine.execJournalCopyAWritten readback s
  | .journalCopyBWritten readback => Sys2Proof.Machine.execJournalCopyBWritten readback s
  | .psUnlock p wr key => Sys2Proof.Machine.execPsUnlock p wr key s
  | .psLock p wr key => Sys2Proof.Machine.execPsLock p wr key s
  | .psSetPassword p wr key => Sys2Proof.Machine.execPsSetPassword p wr key s
  | .psLockoutExpire p wr => Sys2Proof.Machine.execPsLockoutExpire p wr s
  | .psWriteBurst addr data => Sys2Proof.Machine.execPsWriteBurst addr data s
  | .psPageProgrammed => Sys2Proof.Machine.execPsPageProgrammed s
  | .calSet key => Sys2Proof.Machine.execCalSet key s
  | .calInvalidate key => Sys2Proof.Machine.execCalInvalidate key s
  | .calSlewStep => Sys2Proof.Machine.execCalSlewStep s
  | .ppsEdge offUs => Sys2Proof.Machine.execPpsEdge offUs s
  | .ppsTimeout => Sys2Proof.Machine.execPpsTimeout s
  | .leapSecond => Sys2Proof.Machine.execLeapSecond s
  | .evrCtlFlush => Sys2Proof.Machine.execEvrCtlFlush s
  | .evrFlushPeriod => Sys2Proof.Machine.execEvrFlushPeriod s
  | .evrBucketRefill => Sys2Proof.Machine.execEvrBucketRefill s
  | .evrSummary => Sys2Proof.Machine.execEvrSummary s
  | .evrScanDone => Sys2Proof.Machine.execEvrScanDone s
  | .snapFire => Sys2Proof.Machine.execSnapFire s
  | .snapEdge => Sys2Proof.Machine.execSnapEdge s
  | .snapPeriodic => Sys2Proof.Machine.execSnapPeriodic s
  | .snapStrobe => Sys2Proof.Machine.execSnapStrobe s
  | .pcLoRead n => Sys2Proof.Machine.execPcLoRead n s
  | .tickLoRead => Sys2Proof.Machine.execTickLoRead s
  | .eTotLoRead g => Sys2Proof.Machine.execETotLoRead g s
  | .jnlSeqLoRead => Sys2Proof.Machine.execJnlSeqLoRead s
  | .calSecRead => Sys2Proof.Machine.execCalSecRead s
  | .evrSeqLoRead => Sys2Proof.Machine.execEvrSeqLoRead s
  | .keyCtrLoRead => Sys2Proof.Machine.execKeyCtrLoRead s
  | .trappcRead e => Sys2Proof.Machine.execTrappcRead e s
  | .slkStnSelWrite data => Sys2Proof.Machine.execSlkStnSelWrite data s
  | .chnSelWrite data => Sys2Proof.Machine.execChnSelWrite data s
  | .mtrSelWrite data => Sys2Proof.Machine.execMtrSelWrite data s
  | .mtrIvlSelWrite data => Sys2Proof.Machine.execMtrIvlSelWrite data s
  | .tariffSubmit data => Sys2Proof.Machine.execTariffSubmit data s
  | .dayofsWrite data => Sys2Proof.Machine.execDayofsWrite data s
  | .totalsSave => Sys2Proof.Machine.execTotalsSave s
  | .totalsSavePeriodic => Sys2Proof.Machine.execTotalsSavePeriodic s
  | .hydColdRequest => Sys2Proof.Machine.execHydColdRequest s
  | .optColdRequest => Sys2Proof.Machine.execOptColdRequest s
  | .slvSelftestStart => Sys2Proof.Machine.execSlvSelftestStart s
  | .slvSelftestDone pass => Sys2Proof.Machine.execSlvSelftestDone pass s
  | .loopCoefficientWrite addr data => Sys2Proof.Machine.execLoopCoefficientWrite addr data s
  | .loopModeWrite k manual => Sys2Proof.Machine.execLoopModeWrite k manual s
  | .loopReinit k => Sys2Proof.Machine.execLoopReinit k s
  | .loopSample => Sys2Proof.Machine.execLoopSample s
  | .injectionStart c data => Sys2Proof.Machine.execInjectionStart c data s
  | .injectionStop c => Sys2Proof.Machine.execInjectionStop c s
  | .injectionEnd c => Sys2Proof.Machine.execInjectionEnd c s
  | .captureStart c data => Sys2Proof.Machine.execCaptureStart c data s
  | .captureStop c => Sys2Proof.Machine.execCaptureStop c s
  | .captureDone c => Sys2Proof.Machine.execCaptureDone c s
  | .taskRelease e k => Sys2Proof.Machine.execTaskRelease e k s
  | .eventTaskRelease e k => Sys2Proof.Machine.execEventTaskRelease e k s
  | .taskDispatch e => Sys2Proof.Machine.execTaskDispatch e s
  | .budgetExpire e => Sys2Proof.Machine.execBudgetExpire e s
  | .taskStop e k key => Sys2Proof.Machine.execTaskStop e k key s
  | .taskStart e k key => Sys2Proof.Machine.execTaskStart e k key s
  | .taskRestart e k key => Sys2Proof.Machine.execTaskRestart e k key s
  | .patchSubmit data => Sys2Proof.Machine.execPatchSubmit data s
  | .patchApply e => Sys2Proof.Machine.execPatchApply e s
  | .retentiveSave => Sys2Proof.Machine.execRetentiveSave s
  | .retentiveSavePeriodic => Sys2Proof.Machine.execRetentiveSavePeriodic s
  | .retentiveCapture e => Sys2Proof.Machine.execRetentiveCapture e s
  | .ceAdd e => Sys2Proof.Machine.execCeAdd e s
  | .ceSub e => Sys2Proof.Machine.execCeSub e s
  | .ceAnd e => Sys2Proof.Machine.execCeAnd e s
  | .ceOr e => Sys2Proof.Machine.execCeOr e s
  | .ceXor e => Sys2Proof.Machine.execCeXor e s
  | .ceSll e => Sys2Proof.Machine.execCeSll e s
  | .ceSrl e => Sys2Proof.Machine.execCeSrl e s
  | .ceSra e => Sys2Proof.Machine.execCeSra e s
  | .ceSlt e => Sys2Proof.Machine.execCeSlt e s
  | .ceSltu e => Sys2Proof.Machine.execCeSltu e s
  | .ceMin e => Sys2Proof.Machine.execCeMin e s
  | .ceMax e => Sys2Proof.Machine.execCeMax e s
  | .ceMul e => Sys2Proof.Machine.execCeMul e s
  | .ceMulh e => Sys2Proof.Machine.execCeMulh e s
  | .ceMulhu e => Sys2Proof.Machine.execCeMulhu e s
  | .ceDiv e => Sys2Proof.Machine.execCeDiv e s
  | .ceDivu e => Sys2Proof.Machine.execCeDivu e s
  | .ceRem e => Sys2Proof.Machine.execCeRem e s
  | .ceRemu e => Sys2Proof.Machine.execCeRemu e s
  | .ceSlli e => Sys2Proof.Machine.execCeSlli e s
  | .ceSrli e => Sys2Proof.Machine.execCeSrli e s
  | .ceSrai e => Sys2Proof.Machine.execCeSrai e s
  | .ceClz e => Sys2Proof.Machine.execCeClz e s
  | .ceAddi e => Sys2Proof.Machine.execCeAddi e s
  | .ceAndi e => Sys2Proof.Machine.execCeAndi e s
  | .ceOri e => Sys2Proof.Machine.execCeOri e s
  | .ceXori e => Sys2Proof.Machine.execCeXori e s
  | .ceSlti e => Sys2Proof.Machine.execCeSlti e s
  | .ceSltiu e => Sys2Proof.Machine.execCeSltiu e s
  | .ceLui e => Sys2Proof.Machine.execCeLui e s
  | .ceFadd e => Sys2Proof.Machine.execCeFadd e s
  | .ceFsub e => Sys2Proof.Machine.execCeFsub e s
  | .ceFmul e => Sys2Proof.Machine.execCeFmul e s
  | .ceFdiv e => Sys2Proof.Machine.execCeFdiv e s
  | .ceFsqrt e => Sys2Proof.Machine.execCeFsqrt e s
  | .ceFmadd e => Sys2Proof.Machine.execCeFmadd e s
  | .ceFmin e => Sys2Proof.Machine.execCeFmin e s
  | .ceFmax e => Sys2Proof.Machine.execCeFmax e s
  | .ceFabs e => Sys2Proof.Machine.execCeFabs e s
  | .ceFneg e => Sys2Proof.Machine.execCeFneg e s
  | .ceFeq e => Sys2Proof.Machine.execCeFeq e s
  | .ceFlt e => Sys2Proof.Machine.execCeFlt e s
  | .ceFle e => Sys2Proof.Machine.execCeFle e s
  | .ceFcvtWs e => Sys2Proof.Machine.execCeFcvtWs e s
  | .ceFcvtSw e => Sys2Proof.Machine.execCeFcvtSw e s
  | .ceFclamp e => Sys2Proof.Machine.execCeFclamp e s
  | .ceLb e => Sys2Proof.Machine.execCeLb e s
  | .ceLbu e => Sys2Proof.Machine.execCeLbu e s
  | .ceLh e => Sys2Proof.Machine.execCeLh e s
  | .ceLhu e => Sys2Proof.Machine.execCeLhu e s
  | .ceLw e => Sys2Proof.Machine.execCeLw e s
  | .ceLd e => Sys2Proof.Machine.execCeLd e s
  | .ceSb e => Sys2Proof.Machine.execCeSb e s
  | .ceSh e => Sys2Proof.Machine.execCeSh e s
  | .ceSw e => Sys2Proof.Machine.execCeSw e s
  | .ceSd e => Sys2Proof.Machine.execCeSd e s
  | .ceLit e => Sys2Proof.Machine.execCeLit e s
  | .ceLitD e => Sys2Proof.Machine.execCeLitD e s
  | .ceBeq e => Sys2Proof.Machine.execCeBeq e s
  | .ceBne e => Sys2Proof.Machine.execCeBne e s
  | .ceBlt e => Sys2Proof.Machine.execCeBlt e s
  | .ceBge e => Sys2Proof.Machine.execCeBge e s
  | .ceBltu e => Sys2Proof.Machine.execCeBltu e s
  | .ceBgeu e => Sys2Proof.Machine.execCeBgeu e s
  | .ceJal e => Sys2Proof.Machine.execCeJal e s
  | .ceJalr e => Sys2Proof.Machine.execCeJalr e s
  | .ceIrd e => Sys2Proof.Machine.execCeIrd e s
  | .ceIwr e => Sys2Proof.Machine.execCeIwr e s
  | .ceQmax e => Sys2Proof.Machine.execCeQmax e s
  | .ceQok e => Sys2Proof.Machine.execCeQok e s
  | .ceTon e => Sys2Proof.Machine.execCeTon e s
  | .ceTof e => Sys2Proof.Machine.execCeTof e s
  | .ceTp e => Sys2Proof.Machine.execCeTp e s
  | .ceTrst e => Sys2Proof.Machine.execCeTrst e s
  | .ceEdr e => Sys2Proof.Machine.execCeEdr e s
  | .ceEdf e => Sys2Proof.Machine.execCeEdf e s
  | .ceEdb e => Sys2Proof.Machine.execCeEdb e s
  | .ceNop e => Sys2Proof.Machine.execCeNop e s
  | .ceEnd e => Sys2Proof.Machine.execCeEnd e s
  | .ceTrap e => Sys2Proof.Machine.execCeTrap e s
  | .ceEvt e => Sys2Proof.Machine.execCeEvt e s
  | .ceRdt e => Sys2Proof.Machine.execCeRdt e s
  | .ceFstat e => Sys2Proof.Machine.execCeFstat e s
  | .joinTrainDepart => Sys2Proof.Machine.execJoinTrainDepart s
  | .joinPhaseEnd => Sys2Proof.Machine.execJoinPhaseEnd s
  | .timeCarReturn p frame rt => Sys2Proof.Machine.execTimeCarReturn p frame rt s
  | .outputCarReturn p frame => Sys2Proof.Machine.execOutputCarReturn p frame s
  | .inputCarReturn p frame => Sys2Proof.Machine.execInputCarReturn p frame s
  | .joinCarReturn p frame => Sys2Proof.Machine.execJoinCarReturn p frame s
  | .frameDiscard p frame => Sys2Proof.Machine.execFrameDiscard p frame s
  | .presenceStaleExpire st => Sys2Proof.Machine.execPresenceStaleExpire st s
  | .epochAdvance => Sys2Proof.Machine.execEpochAdvance s
  | .phyLinkPoll up => Sys2Proof.Machine.execPhyLinkPoll up s
  | .throughCarArrive q frame time residence onward => Sys2Proof.Machine.execThroughCarArrive q frame time residence onward s
  | .conversionDone c code v1 v2 full exc => Sys2Proof.Machine.execConversionDone c code v1 v2 full exc s
  | .acceptedEdge c level us => Sys2Proof.Machine.execAcceptedEdge c level us s
  | .chatterExit c us => Sys2Proof.Machine.execChatterExit c us s
  | .stuckTimeout c => Sys2Proof.Machine.execStuckTimeout c s
  | .countedEdge n => Sys2Proof.Machine.execCountedEdge n s
  | .filterWindowEnd n => Sys2Proof.Machine.execFilterWindowEnd n s
  | .waveformWindow wins secondEnd => Sys2Proof.Machine.execWaveformWindow wins secondEnd s
  | .pwmPeriodStart c => Sys2Proof.Machine.execPwmPeriodStart c s
  | .testPulse c => Sys2Proof.Machine.execTestPulse c s
  | .thermalSample => Sys2Proof.Machine.execThermalSample s
  | .intervalClose m => Sys2Proof.Machine.execIntervalClose m s
  | .midnightArchive stop fails => Sys2Proof.Machine.execMidnightArchive stop fails s
  | .actInNChange asserted => Sys2Proof.Machine.execActInNChange asserted s
  | .claimSample => Sys2Proof.Machine.execClaimSample s
  | .interlockConflict => Sys2Proof.Machine.execInterlockConflict s
  | .syncFrame seq msg => Sys2Proof.Machine.execSyncFrame seq msg s
  | .syncResendTimeout seq => Sys2Proof.Machine.execSyncResendTimeout seq s
  | .syncLinkTimeout => Sys2Proof.Machine.execSyncLinkTimeout s
  | .standbyTickWork => Sys2Proof.Machine.execStandbyTickWork s
  | .lagTimeout => Sys2Proof.Machine.execLagTimeout s
  | .takeover => Sys2Proof.Machine.execTakeover s
  | .handover => Sys2Proof.Machine.execHandover s
  | .realign => Sys2Proof.Machine.execRealign s
  | .provingSwap => Sys2Proof.Machine.execProvingSwap s
  | .syncLinkUp => Sys2Proof.Machine.execSyncLinkUp s
  | .syncLaneLoss lane => Sys2Proof.Machine.execSyncLaneLoss lane s
  | .rngReseed => Sys2Proof.Machine.execRngReseed s
  | .illegalInstruction e => Sys2Proof.Machine.execIllegalInstruction e s
  | .fetchAtTextEnd e => Sys2Proof.Machine.execFetchAtTextEnd e s

end Sys2Proof.Machine
end

