-- ==== Sys2Proof/Machine/Step.lean ====
section
/-! DEFINITION. One step of the block: the command at the front of the queue is performed. -/

namespace Sys2Proof.Machine

/-- The state with a command put at the front of its queue. -/
def State.push (i : Instr) (s : State) : State := { s with pending := i :: s.pending }

/-- The command at the front of the queue is taken and performed on the state with the queue's rest; with nothing waiting
the block idles (log entry 2). -/
def step (s : State) : Host.Outcome State Fault Refusal :=
  match s.pending with
  | [] => .next s
  | i :: rest => exec i { s with pending := rest }

/-- `s` with the command that a word spells put at the front of its queue; unchanged where the word spells none. -/
def State.withFetchWord (s : State) (nbits w : Nat) : State :=
  match Sys2Proof.decodeTableWord nbits w with
  | some i => s.push i
  | none => s

end Sys2Proof.Machine
end

