-- ==== Sys2Proof/Machine/Tap.lean ====
section
/-! DEFINITION. The test access port (R623): the instructions it offers, its identification code and the pins of its
boundary scan. No command of the table acts on the port, so it has no state of its own; what it answers is a view of State. -/

namespace Sys2Proof.Machine

/-- What the port can offer (R623). -/
inductive TapInstr where
  | bypass
  | idcode
  | boundaryScan
  deriving DecidableEq, Repr

/-- The groups of signal pins of R608 to R610. -/
inductive PinGroup where
  | linePort
  | phyManagement
  | hostPort
  | control
  | interlock
  | refClock
  | jtag
  | crystal
  | sync
  | channel
  deriving DecidableEq, Repr

/-- R623: the instructions that the port offers now: Security policy flags bit 1 locks it to BYPASS and IDCODE. -/
def tapOffers (s : State) : List TapInstr :=
  if secFlag s 1 then [.bypass, .idcode] else [.bypass, .idcode, .boundaryScan]

/-- R623: the identification code: DEV_ID.revision in [31:28] and 0x7512 in [27:12]. The spec gives no manufacturer number
for [11:1]: it is free (log entry 98); bit 0 is 1 as IEEE 1149.1 has it. -/
def tapIdcode (s : State) : Word :=
  setField (setField (setField (setField 0#32 0 0 1) 11 1 (Config.manufacturer.toNat)) 27 12 0x7512) 31 28
    (getFld s Reg.DEV_ID 19 16)

/-- R623: the boundary-scan register holds the digital pins; channel pins and the sync lanes are not in it, nor, by IEEE
1149.1, the port's own; the crystal's pins are analog (R609). -/
def tapScans (p : PinGroup) : Bool :=
  match p with
  | .linePort | .phyManagement | .hostPort | .control | .interlock | .refClock => true
  | .jtag | .crystal | .sync | .channel => false

end Sys2Proof.Machine
end

