-- ==== Sys2Proof/Safety.lean ====
section
/-! DEFINITION. What statements about runs speak of: the transitions of R24, the canonical form of the stores, and the
invariant of a state. -/

namespace Sys2Proof.Machine

/-- R24: the changes of state that the device makes, and no change at all. Of RUN to HOLD R27 speaks: a fatal cause takes the
device to SAFE and the pending HOLD, judged against SAFE, to HOLD in the same tick. -/
def modeStep (a b : Mode) : Bool :=
  match a, b with
  | .boot, .ready | .boot, .hold | .hold, .boot | .ready, .run | .ready, .standby | .ready, .hold | .ready, .boot
  | .run, .ready | .run, .safe | .run, .hold | .run, .standby | .run, .boot | .standby, .run | .standby, .ready | .standby, .boot
  | .safe, .ready | .safe, .hold | .safe, .boot => true
  | a, b => a == b

/-- The die is in canonical form: offsets strictly rising, and no byte listed that holds what an unlisted one reads as. -/
def NvWf (s : State) : Prop := smWf nvDelivery s.nv = true

/-- The register file is in canonical form. -/
def RegsWf (s : State) : Prop := smWf regReset s.regs = true

/-- The sorted maps of the state are in canonical form: registers, the die, task banks, loops, stations, through stations,
and the working generations of SI, SO, CO and NS. -/
structure Canonical (s : State) : Prop where
  regs : RegsWf s
  nv : NvWf s
  tasks : ∀ e, smWf (fun _ => ({} : TaskSt)) (ceGet s e).tasks = true
  loops : smWf (fun _ => ({} : LoopSt)) s.lpe.loops = true
  stations : smWf (fun _ => ({} : StnSt)) s.slk.stns = true
  through : smWf (fun _ => ({} : ThruSt)) s.slk.thru = true
  si : smWf (imgInit 0) s.img.siWork = true
  so : smWf (imgInit 1) s.img.soWork = true
  co : smWf (imgInit 3) s.img.co = true
  ns : smWf (imgInit 4) s.img.nsWork = true

/-- A timetable is loaded in READY, RUN, STANDBY and SAFE only (R24, R436). -/
def LoadedWf (s : State) : Prop := (s.dev.mode = .boot ∨ s.dev.mode = .hold) → s.dev.tt = none

/-- The invariant of the device states: what remains of a boot waits in BOOT only, without good supplies and under RST_N
the device is in BOOT, and no timetable is loaded in BOOT and HOLD. -/
structure StateWf (s : State) : Prop where
  boot : s.dev.bootPending.isSome = true → s.dev.mode = .boot
  power : s.pwr.powerGood = false → s.dev.mode = .boot
  rst : s.pwr.rstLow = true → s.dev.mode = .boot
  loaded : LoadedWf s

/-- The commands that can change the state of R24: TICK, HEADWAY_START and FATAL_CAUSE_SAFE, the resets and supplies, the
end of a save that a reset waited for (R422), and what a redundant pair moves by. -/
def mayChangeState (c : Instr) : Bool :=
  match c with
  | .tick _ _ _ | .headwayStart | .fatalCauseSafe => true
  | .rstNAssert _ | .rstNRelease _ | .powerGood _ _ | .powerGoodLoss | .vaoRise _ _ | .pfwRecoverTimeout => true
  | .journalCopyAWritten _ | .journalCopyBWritten _ => true
  | .claimSample | .syncFrame _ _ | .syncLinkUp | .takeover => true
  | _ => false

/-! ### The mailbox -/

/-- The mailbox is busy with the command of a code and the request data `r` (R595), outside BOOT. -/
structure MbBusy (code : Nat) (r : List Byte) (s : State) : Prop where
  busy : s.hif.mbState = 1
  begins : s.hif.mbWait = false
  code : getFld s Reg.HIF_MB_CMD 7 0 = code
  request : mbReq s = r
  state : s.dev.mode ≠ .boot

/-- It takes that command: the firmware is not in recovery, in RUN the host write mask grants MGT (R528), and no page of the
parameter store programs. -/
structure MbTakes (code : Nat) (r : List Byte) (s : State) : Prop extends MbBusy code r s where
  mask : s.dev.mode = .run → bit (theTt s).security.hostWriteMask 14 = true
  recovery : s.mgt.recovery = false
  page : s.ps.programming = false

/-- The key store takes a command (R568): it writes no entry; a command that changes keys also needs HOLD, READY or the host
write mask's MGT bit. -/
structure KeyTakes (code : Nat) (r : List Byte) (s : State) : Prop extends MbBusy code r s where
  recovery : s.mgt.recovery = false
  free : keyBusy s = false
  change : s.dev.mode = .hold ∨ s.dev.mode = .ready ∨ bit (theTt s).security.hostWriteMask 14 = true

/-! ### Instructions of the control engines -/

/-- Engine `e` executes the word `c.w` of its running task now: the pc lies among the instructions, and neither the budget
nor an error in code memory takes a trap before it (R338 steps 1 to 3). -/
def CeExecutes (e : Nat) (c : CeCtx) (s : State) : Prop :=
  ceCtx e s = some c ∧ c.inText = true ∧ overBudget c.r c.t.cycles = false ∧ memClean s (ceBase e + c.t.pc) 4 = true

/-- An instruction of `n` cycles has completed: the task's bank is `b` with the next pc and the cycles counted; every other
task, both memories of every engine and every other part of the state are those of `s`, the state with the instruction's own
writes to memory. -/
structure CeRetired (c : CeCtx) (b : TaskSt) (pc n : Nat) (s t : State) : Prop where
  bank : taskGet t c.e c.k = { b with pc := pc, cycles := c.t.cycles + n }
  others : ∀ e k, e ≠ c.e ∨ k ≠ c.k → taskGet t e k = taskGet s e k
  memories : ∀ e, (ceGet t e).code = (ceGet s e).code ∧ (ceGet t e).data = (ceGet s e).data
  rest : t = { s with ce := { s.ce with engines := t.ce.engines } }

/-- The instruction completes with the bank `b`, in `n` cycles, goes on to the next word and writes no memory. -/
def CeDoes (i : Instr) (c : CeCtx) (b : TaskSt) (n : Nat) (s : State) : Prop :=
  ∃ t, exec i s = .next t ∧ CeRetired c b (c.t.pc + 4) n s t

/-- The instruction completes with the bank `b`, in `n` cycles, having made the state `s1` by its writes. -/
def CeWrites (i : Instr) (c : CeCtx) (b : TaskSt) (n : Nat) (s s1 : State) : Prop :=
  ∃ t, exec i s = .next t ∧ CeRetired c b (c.t.pc + 4) n s1 t

/-- The instruction takes a trap at its own address. -/
def CeTraps (i : Instr) (c : CeCtx) (code : Nat) (s : State) : Prop :=
  exec i s = .next (ceTrap c.e c.k code c.t.pc s)

end Sys2Proof.Machine
end

