-- ==== Sys2Proof/Certificates/Slice0/Obligations.lean ====
section
/-! DEFINITION. The statements for the provers: what the rules of the spec say the device and each of its commands do. -/

open Sys2Proof Sys2Proof.Machine

/-! ### The block's queue, reset, and the states of R24 -/

/-- One step takes the command at the front of the queue and performs it with the queue's rest. -/
def Obligations.StepPerformsFrontCommand : Prop :=
  ∀ (c : Instr) (rest : List Instr) (s : State),
    step { s with pending := c :: rest } = exec c { s with pending := rest }

/-- An empty queue idles (log entry 2), and no command is ever refused or faults: every command has an effect in every
state, and answers a next state with the queue it was given. -/
def Obligations.EveryCommandAnswers : Prop :=
  (∀ s : State, s.pending = [] → step s = .next s) ∧
  (∀ (c : Instr) (s : State), ∃ t, exec c s = .next t ∧ t.pending = s.pending)

/-- R30: DEV_ID reads 0x0D01_7512 after reset, and no host write of it changes any register. -/
def Obligations.DeviceIdentification : Prop :=
  getReg State.reset Reg.DEV_ID = 0x0D017512#32 ∧
  ∀ (w : Word) (s : State) (a : Nat), RegsWf s → getReg (hostWord Reg.DEV_ID w s).2 a = getReg s a

/-- What reset leaves: BOOT, the tick count at 0, every domain OFF, no timetable, no transaction, nothing waiting,
nothing in the die but its contents at delivery, and every register at its reset value; the canonical forms and the
invariant of the states hold. R623: the test access port is not locked, and its IDCODE names the part and its
revision. -/
def Obligations.ResetState : Prop :=
  let s := State.reset
  s.pending = [] ∧ s.dev.mode = .boot ∧ s.pwr.tick = 0 ∧ s.dev.tt = none ∧ s.tx.st = 0 ∧ s.hif.mbState = 0 ∧
  (∀ d, 1 ≤ d → d ≤ 17 → (dom s d).st = .off) ∧ (∀ a, getReg s a = regReset a) ∧
  (∀ a, nvRead s a 1 = [nvDelivery a]) ∧ Canonical s ∧ StateWf s ∧
  tapOffers s = [.bypass, .idcode, .boundaryScan] ∧ field (tapIdcode s) 27 12 = 0x7512 ∧ field (tapIdcode s) 31 28 = 1

/-- R24 over every command: from a state that meets the invariant, a step makes only transitions of R24's table (or
none, or from RUN through SAFE to HOLD where a fatal cause and a pending HOLD meet in one tick, R27), takes nothing
from the queue but its front, and leaves a state that meets the invariant. -/
def Obligations.StepKeepsDeviceStates : Prop :=
  ∀ s t : State, StateWf s → step s = .next t →
    StateWf t ∧ t.pending = s.pending.tail ∧ modeStep s.dev.mode t.dev.mode = true

/-- R24, R27: the commands that can change the state are TICK, HEADWAY_START, FATAL_CAUSE_SAFE, the resets and supplies
(and the end of a save that a reset waited for, R422), and those by which a redundant pair moves; every other
command, a power-fail warning among them, leaves it as it is. -/
def Obligations.OnlyTheseChangeTheState : Prop :=
  ∀ (c : Instr) (s t : State), exec c s = .next t → mayChangeState c = false →
    t.dev.mode = s.dev.mode

/-- R406, R415, R36, R28: a tick steps the tick count, books the energy of each ledger group, and counts in the headway:
the first tick after entry into READY, and every DEV_PLAN0.headway ticks from it, is a headway start. R514 step 3:
so is the tick at which a standby takes over by a handover. Without a pending command or boot it changes no state.
R406: TICK counts the tick count up by one, modulo 2^48; VAO_RISE starts it at 0; no other command touches it. -/
def Obligations.TicksCountAndHeadwaysFallDue : Prop :=
  (∀ (energy : List Nat) (upsets : List Upset) (readback : List Readback) (s : State), s.dev.bootPending = none →
    s.dev.cmd = none →
    ∃ t, exec (.tick energy upsets readback) s = .next t ∧ t.dev.mode = s.dev.mode ∧ t.dev.tt = s.dev.tt ∧
      t.pwr.tick = (s.pwr.tick + 1) % 2 ^ 48 ∧ t.dev.holdRefused = false ∧ t.dev.headway = s.dev.headway ∧
      (∀ g < 10, nth t.pwr.eTot g 0 = (nth s.pwr.eTot g 0 + nth energy g 0) % 2 ^ 64) ∧
      (s.dev.mode = .ready ∨ s.dev.mode = .run ∨ s.dev.mode = .safe →
        (s.dev.hwRunning = false ∨ (theTt s).plan.headway ≤ s.dev.tickInHw + 1 →
          t.dev.hwDue = true ∧ t.dev.tickInHw = s.dev.tickInHw) ∧
        (s.dev.hwRunning = true → s.dev.tickInHw + 1 < (theTt s).plan.headway →
          t.dev.hwDue = s.dev.hwDue ∧ t.dev.tickInHw = s.dev.tickInHw + 1)) ∧
      (s.dev.mode = .boot ∨ s.dev.mode = .hold ∨ (s.dev.mode = .standby ∧ s.red.handAck = false) →
        t.dev.hwDue = s.dev.hwDue ∧ t.dev.tickInHw = s.dev.tickInHw) ∧
      (s.dev.mode = .standby → s.red.handAck = true → s.red.lockstep = true → s.red.peerMode = 4 →
        (theTt s).plan.headway ≤ s.dev.tickInHw + 1 → t.dev.hwDue = true)) ∧
  (∀ (c : Instr) (s t : State), exec c s = .next t →
    t.pwr.tick = match c with
      | .tick _ _ _ => (s.pwr.tick + 1) % 2 ^ 48
      | .vaoRise _ _ => 0
      | _ => s.pwr.tick)

/-! ### Device commands -/

/-- R24, R32, R33: a command with the key 0xC0DE that is allowed in the state, while none is pending, nothing is being
saved and no fatal cause has just arrived, becomes pending; LOAD_A and LOAD_B also begin the check of their slot.
With a wrong key, or while a command is pending, or where its state does not allow it, a command is refused and
nothing else changes (but that a HOLD in RUN is remembered until the next tick, for R27). -/
def Obligations.DeviceCommands : Prop :=
  ∀ (key : Nat) (s : State),
    ∀ p ∈ [(Instr.run key, DevCmd.run, [Mode.ready]), (.stop key, .stop, [.run, .standby]),
        (.hold key, .hold, [.ready, .safe]), (.loadA key, .loadA, [.hold]), (.loadB key, .loadB, [.hold]),
        (.clear key, .clear, [.safe]), (.reset key, .reset, [.boot, .hold, .ready, .run, .standby, .safe])],
      let ok := key = 0xC0DE ∧ s.dev.cmd = none ∧ s.pwr.saving = false ∧ s.pwr.saved = false ∧ s.dev.mode ∈ p.2.2
      (ok → s.dev.fatalDue = false → (p.2.1 = .clear → fatalBits s = 0) → p.2.1 ≠ .loadA → p.2.1 ≠ .loadB →
        exec p.1 s = .next { s with dev := { s.dev with cmd := some p.2.1, cmdStatus := 1, loadReady := false } }) ∧
      (ok → s.dev.fatalDue = false → ∀ k, (p.2.1 = .loadA ∧ k = 0) ∨ (p.2.1 = .loadB ∧ k = 1) →
        ∃ t, exec p.1 s = .next t ∧ t.dev.cmd = some p.2.1 ∧ t.dev.cmdStatus = 1 ∧ (slotRep t k).checking = true ∧
          (slotRep t k).done = false ∧ slotRep t (1 - k) = slotRep s (1 - k) ∧ t = { s with dev := t.dev }) ∧
      (key ≠ 0xC0DE ∨ s.dev.cmd.isSome = true ∨ (s.dev.fatalDue = false ∧ s.dev.mode ∉ p.2.2) →
        exec p.1 s = .next { s with dev := { s.dev with
          cmdStatus := 3
          holdRefused := s.dev.holdRefused ||
            decide (p.2.1 = .hold ∧ s.dev.mode = .run ∧ key = 0xC0DE ∧ s.dev.cmd = none ∧ s.pwr.saving = false ∧
              s.pwr.saved = false) } })

/-- R33 at a tick: a pending HOLD, CLEAR or RESET takes effect, and a LOAD whose check has passed; a HOLD or CLEAR whose
state has gone is refused. (TICK ends with this; a fatal cause of the same tick leaves it to FATAL_CAUSE_SAFE.) R26,
R27: in RUN a fatal cause takes the device to SAFE at the tick; a pending command is then judged against SAFE: HOLD
and RESET take effect, every other is refused. -/
def Obligations.CommandsAtTick : Prop :=
  (∀ s : State, ¬ (s.dev.fatalDue = true ∧ s.dev.mode = .run) →
    let t := devTick s
    (s.dev.cmd = some .hold → s.dev.mode = .ready ∨ s.dev.mode = .safe →
      t.dev.mode = .hold ∧ t.dev.cmd = none ∧ t.dev.cmdStatus = 2 ∧ t.dev.tt = none) ∧
    (s.dev.cmd = some .clear → s.dev.mode = .safe → fatalBits s = 0 →
      t.dev.mode = .ready ∧ t.dev.cmd = none ∧ t.dev.cmdStatus = 2 ∧ t.dev.headway = 0) ∧
    (s.dev.cmd = some .reset → t.dev.mode = .boot ∧ t.dev.cmd = none ∧ t.dev.bootPending = some .full) ∧
    (s.dev.cmd = some .loadA ∨ s.dev.cmd = some .loadB → s.dev.mode = .hold → s.dev.loadReady = true →
      t.dev.mode = .boot ∧ t.dev.cmd = none ∧ t.dev.cmdStatus = 2 ∧ t.dev.bootPending = some .load) ∧
    (s.dev.cmd = some .hold → s.dev.mode ≠ .ready → s.dev.mode ≠ .safe →
      t = { s with dev := { s.dev with cmd := none, loadReady := false, cmdStatus := 3 } }) ∧
    (s.dev.cmd = none → t = s)) ∧
  (∀ s : State, s.dev.mode = .run → s.dev.fatalDue = true →
    ∃ t, exec .fatalCauseSafe s = .next t ∧ t.pwr.tick = s.pwr.tick ∧
      (s.dev.cmd = none → t.dev.mode = .safe ∧ t.dev.prevMode = .run ∧ t.dev.fatalDue = false) ∧
      (s.dev.cmd = some .hold → t.dev.mode = .hold ∧ t.dev.cmdStatus = 2) ∧
      (s.dev.cmd = some .reset → t.dev.mode = .boot) ∧
      (∀ c, s.dev.cmd = some c → c ≠ .hold → c ≠ .reset →
        t.dev.mode = .safe ∧ t.dev.cmd = none ∧ t.dev.cmdStatus = 3))

/-- R71, R74 to R77: the end of a slot's check is reported with its result and the slot's valid bit: of a background
check, and of one that the writer has started. -/
def Obligations.SlotChecksReport : Prop :=
  ∀ (k : Nat) (s : State), k ≤ 1 →
    (s.dev.mode ≠ .boot → (slotRep s k).done = false →
        ((slotRep s k).checking = true → (slotRep s k).background = true) → s.dev.writer ≠ some k →
      let v := (ttCheckSlot s (baseTotals s) k).1
      ∃ t, exec (.backgroundSlotCheckDone k) s = .next t ∧ t = { s with dev := t.dev } ∧
        slotRep t k = ⟨v.code, true, false, false, v.offset, v.section_, v.index⟩ ∧ slotRep t (1 - k) = slotRep s (1 - k) ∧
        (if k = 0 then t.dev.slotAValid else t.dev.slotBValid) = (v.code == 0)) ∧
    ((slotRep s k).checking = true → (slotRep s k).background = false → s.tx.st ≠ 2 → s.dev.cmd = none →
      let v := (ttCheckSlot s (if placed s then baseLoaded s else baseTotals s) k).1
      ∃ t, exec (.timetableCheckDone k) s = .next t ∧ t = { s with dev := t.dev } ∧
        slotRep t k = ⟨v.code, true, false, false, v.offset, v.section_, v.index⟩ ∧
        (if k = 0 then t.dev.slotAValid else t.dev.slotBValid) = (v.code == 0))

/-! ### Stores -/

/-- R2, R3, R10 (of the model's stores): a register, bytes of the die and a word of a working generation read back as
they were written (R106: of a station's SO words, word 0 has 16 bits, words 14 and 15 are zero and the others have
34 bits); every other one is as it was; and the stores keep their canonical form. -/
def Obligations.StoresReadBack : Prop :=
  (∀ (a b : Nat) (w : Word) (s : State), RegsWf s →
    RegsWf (setReg a w s) ∧ getReg (setReg a w s) a = w ∧ (b ≠ a → getReg (setReg a w s) b = getReg s b)) ∧
  (∀ (off : Nat) (bs : List Byte) (s : State), NvWf s →
    NvWf (nvWrite off bs s) ∧ nvRead (nvWrite off bs s) off bs.length = bs ∧
    ∀ a, a < off ∨ off + bs.length ≤ a → nvRead (nvWrite off bs s) a 1 = nvRead s a 1) ∧
  (∀ (r i j : Nat) (w : DWord) (s : State), Canonical s → r = 0 ∨ r = 1 ∨ r = 3 ∨ r = 4 →
    Canonical (imgPut r i w s) ∧ imgGetWork (imgPut r i w s) r i =
      (if r ≠ 1 then w else if i % 16 = 0 then w &&& 0xFFFF#64 else if i % 16 = 14 ∨ i % 16 = 15 then 0#64
        else w &&& 0x3FFFFFFFF#64) ∧
    (j ≠ i → imgGetWork (imgPut r i w s) r j = imgGetWork s r j)) ∧
  (∀ (v : Word) (q : Quality), wordVal (mkWord v q) = v ∧ wordQ (mkWord v q) = q)

/-- R482 to R486, R490: the check banks. A write of one bank of a lane keeps P and Q what R483 says of the lane's bytes;
a line with at most two erased words is rebuilt to what it held, one with more is not. A read that meets an inner-
uncorrectable word rebuilds all of its line and counts the words; where the line has more of them it sets
MEM_CAUSE.uncorrectable, which in system SRAM is fatal, and the word stays lost. A read that meets a single wrong
bit corrects and counts it. -/
def Obligations.CheckBanks : Prop :=
  (∀ (i : Nat) (new : Byte) (ds : List Byte), i < ds.length →
    checkWrite i (nth ds i 0#8) new (laneP ds, laneQ ds) = (laneP (setNth ds i new), laneQ (setNth ds i new))) ∧
  (∀ (banks : List Nat) (ds held : List Byte) (p q : Byte), ds.length = 16 → held.length = 16 →
    (∀ i < 16, i ∉ banks → nth held i 0#8 = nth ds i 0#8) → (16 ∉ banks → p = laneP ds) → (17 ∉ banks → q = laneQ ds) →
    let n := ((List.range 18).filter (fun i => banks.contains i)).length
    (n ≤ 2 → laneRebuild banks held p q = some ds) ∧ (2 < n → laneRebuild banks held p q = none)) ∧
  (∀ (u : Upset) (s : State), u.mem < 2 → u.double = true → u ∈ s.mem.upsets → RegsWf s →
    let n := (lineErasures u.mem u.line s).length
    let t := memMeet memLost u s
    (∀ b ∈ lineErasures u.mem u.line s, b < 18) → (lineErasures u.mem u.line s).Nodup →
    (n ≤ 2 → getBit t Reg.MEM_CAUSE 1 = true ∧ lineErasures u.mem u.line t = [] ∧
      getFld t (Reg.MEM_M_CNT + 0x10 * u.mem) 31 16 = min 65535 (getFld s (Reg.MEM_M_CNT + 0x10 * u.mem) 31 16 + n)) ∧
    (2 < n → u.bank < 16 → getBit t Reg.MEM_CAUSE 2 = true ∧ u ∈ t.mem.upsets ∧
      (u.mem = 0 → getBit t Reg.DEV_CAUSE 9 = true))) ∧
  (∀ (u : Upset) (s : State), u.mem < 14 → u.double = false → u ∈ s.mem.upsets → RegsWf s →
    let t := memMeet memLost u s
    getBit t Reg.MEM_CAUSE 0 = true ∧ u ∉ t.mem.upsets ∧
    getFld t (Reg.MEM_M_CNT + 0x10 * u.mem) 15 0 = min 65535 (getFld s (Reg.MEM_M_CNT + 0x10 * u.mem) 15 0 + 1))

/-! ### Control engines: the instruction set -/

/-- R319 (cycles of R335, DIV and REM by R320): the integer group. Each instruction of op 0x00 that engine `e` executes
writes rd with the value its row gives, in its cycles, and changes nothing else. R320: a zero divisor takes trap
0x06; DIV of −2³¹ by −1 gives −2³¹ and REM of them 0; the immediate instructions. -/
def Obligations.IntegerGroup : Prop :=
  (∀ (e : Nat) (c : CeCtx) (s : State), CeExecutes e c s →
    let a := c.ra
    let b := c.rb
    (∀ p ∈ [(Instr.ceAdd e, 0x00, 1, a + b), (.ceSub e, 0x01, 1, a - b), (.ceAnd e, 0x02, 1, a &&& b),
        (.ceOr e, 0x03, 1, a ||| b), (.ceXor e, 0x04, 1, a ^^^ b), (.ceSll e, 0x05, 1, a <<< (b.toNat % 32)),
        (.ceSrl e, 0x06, 1, a >>> (b.toNat % 32)), (.ceSra e, 0x07, 1, a.sshiftRight (b.toNat % 32)),
        (.ceSlt e, 0x08, 1, if a.toInt < b.toInt then 1#32 else 0#32),
        (.ceSltu e, 0x09, 1, if a.toNat < b.toNat then 1#32 else 0#32),
        (.ceMin e, 0x0A, 1, BitVec.ofInt 32 (min a.toInt b.toInt)),
        (.ceMax e, 0x0B, 1, BitVec.ofInt 32 (max a.toInt b.toInt)),
        (.ceMul e, 0x0C, 2, BitVec.ofNat 32 (a.toNat * b.toNat)),
        (.ceMulh e, 0x0D, 2, BitVec.ofInt 32 (a.toInt * b.toInt / 2 ^ 32)),
        (.ceMulhu e, 0x0E, 2, BitVec.ofNat 32 (a.toNat * b.toNat / 2 ^ 32)),
        (.ceSlli e, 0x18, 1, a <<< iRb c.w), (.ceSrli e, 0x19, 1, a >>> iRb c.w),
        (.ceSrai e, 0x1A, 1, a.sshiftRight (iRb c.w))],
      isR 0x00 p.2.1 c.w = true → CeDoes p.1 c (c.t.setReg (iRd c.w) p.2.2.2) p.2.2.1 s) ∧
    (b ≠ 0#32 → ∀ p ∈ [(Instr.ceDiv e, 0x10, BitVec.ofInt 32 (a.toInt.tdiv b.toInt)),
        (.ceDivu e, 0x11, BitVec.ofNat 32 (a.toNat / b.toNat)),
        (.ceRem e, 0x12, a - b * BitVec.ofInt 32 (a.toInt.tdiv b.toInt)),
        (.ceRemu e, 0x13, a - b * BitVec.ofNat 32 (a.toNat / b.toNat))],
      isR 0x00 p.2.1 c.w = true → CeDoes p.1 c (c.t.setReg (iRd c.w) p.2.2) 18 s) ∧
    (isR1 0x00 0x1C c.w = true → ∀ n ≤ 32, a.toNat < 2 ^ (32 - n) → (n < 32 → 2 ^ (31 - n) ≤ a.toNat) →
      CeDoes (.ceClz e) c (c.t.setReg (iRd c.w) (BitVec.ofNat 32 n)) 1 s)) ∧
  (∀ (e : Nat) (c : CeCtx) (s : State), CeExecutes e c s →
    let a := c.ra
    let x : Word := (BitVec.ofNat 16 (iImm c.w)).signExtend 32
    let z : Word := BitVec.ofNat 32 (iImm c.w)
    (c.rb = 0#32 → ∀ p ∈ [(Instr.ceDiv e, 0x10), (.ceDivu e, 0x11), (.ceRem e, 0x12), (.ceRemu e, 0x13)],
      isR 0x00 p.2 c.w = true → CeTraps p.1 c 0x06 s) ∧
    (a = 0x80000000#32 → c.rb = 0xFFFFFFFF#32 →
      (isR 0x00 0x10 c.w = true → CeDoes (.ceDiv e) c (c.t.setReg (iRd c.w) 0x80000000#32) 18 s) ∧
      (isR 0x00 0x12 c.w = true → CeDoes (.ceRem e) c (c.t.setReg (iRd c.w) 0#32) 18 s)) ∧
    (∀ p ∈ [(Instr.ceAddi e, 0x02, a + x), (.ceAndi e, 0x03, a &&& z), (.ceOri e, 0x04, a ||| z), (.ceXori e, 0x05, a ^^^ z),
        (.ceSlti e, 0x06, if a.toInt < x.toInt then 1#32 else 0#32),
        (.ceSltiu e, 0x07, if a.toNat < x.toNat then 1#32 else 0#32)],
      isOp p.2.1 c.w = true → CeDoes p.1 c (c.t.setReg (iRd c.w) p.2.2) 1 s) ∧
    (isOp0 0x08 c.w = true → CeDoes (.ceLui e) c (c.t.setReg (iRd c.w) (z <<< 16)) 1 s))

/-- R321 to R323: the floating-point group over the model's binary32 operations: rd takes the result, the flags it
raises are added to the sticky ones, and a task whose fp_trap bit is set traps (0x07) on a non-finite result of
finite operands. -/
def Obligations.FloatingPointGroup : Prop :=
  ∀ (e : Nat) (c : CeCtx) (s : State), CeExecutes e c s →
    let d := c.rd
    let a := c.ra
    let b := c.rb
    let out (r : Word × FFlags) : TaskSt := { c.t with flags := c.t.flags ||| r.2.word.toNat }.setReg (iRd c.w) r.1
    let trap (ops : List Word) (r : Word × FFlags) : Prop :=
      fpTrap c.tt c.e c.k = true ∧ f32IsFin r.1 = false ∧ ∀ o ∈ ops, f32IsFin o = true
    (∀ p ∈ [(Instr.ceFadd e, 0x00, 3, [a, b], f32Add a b), (.ceFsub e, 0x01, 3, [a, b], f32Sub a b),
        (.ceFmul e, 0x02, 3, [a, b], f32Mul a b), (.ceFdiv e, 0x03, 12, [a, b], f32Div a b),
        (.ceFmadd e, 0x05, 3, [d, a, b], f32Fma a b d), (.ceFmin e, 0x06, 3, [a, b], f32MinMax false a b),
        (.ceFmax e, 0x07, 3, [a, b], f32MinMax true a b), (.ceFclamp e, 0x0F, 3, [d, a, b], f32Clamp d a b)],
      isR 0x01 p.2.1 c.w = true →
        (trap p.2.2.2.1 p.2.2.2.2 → CeTraps p.1 c 0x07 s) ∧
        (¬ trap p.2.2.2.1 p.2.2.2.2 → CeDoes p.1 c (out p.2.2.2.2) p.2.2.1 s)) ∧
    (∀ p ∈ [(Instr.ceFsqrt e, 0x04, 14, f32Sqrt a), (.ceFabs e, 0x08, 1, (a &&& 0x7FFFFFFF#32, ({} : FFlags))),
        (.ceFneg e, 0x09, 1, (a ^^^ 0x80000000#32, ({} : FFlags)))],
      isR1 0x01 p.2.1 c.w = true →
        (trap [a] p.2.2.2 → CeTraps p.1 c 0x07 s) ∧ (¬ trap [a] p.2.2.2 → CeDoes p.1 c (out p.2.2.2) p.2.2.1 s)) ∧
    (∀ p ∈ [(Instr.ceFcvtWs e, 0x0D, f32ToInt a), (.ceFcvtSw e, 0x0E, f32OfInt a)],
      isR1 0x01 p.2.1 c.w = true → CeDoes p.1 c (out p.2.2) 3 s) ∧
    (∀ p ∈ [(Instr.ceFeq e, 0x0A, f32Eq a b), (.ceFlt e, 0x0B, f32Lt a b), (.ceFle e, 0x0C, f32Le a b)],
      isR 0x01 p.2.1 c.w = true →
        CeDoes p.1 c (out (if p.2.2 = true then 1#32 else 0#32, f32OpFlags [a, b])) 3 s)

/-- R324, R325: a load or store of `n` bytes at ra + sext(imm16) takes trap 0x03 outside data memory and trap 0x05
through w31 outside the stack; otherwise (and with no memory error there, R336) it loads rd or the pair, or writes
the low bytes of rd or the pair, and nothing else. R326: LIT and LIT.D read the literal area below lit_end, and trap
(0x09) above it. -/
def Obligations.LoadsAndStores : Prop :=
  (∀ (e : Nat) (c : CeCtx) (s : State), CeExecutes e c s →
    let a := (c.ra + (BitVec.ofNat 16 (iImm c.w)).signExtend 32).toNat
    let stackOk (n : Nat) : Prop :=
      iRa c.w = 31 → stackBase c.tt c.e c.k ≤ a ∧ a + n ≤ stackTop c.tt c.r
    let bytes (n : Nat) := dataRead s e a n
    let d := iRd c.w
    (∀ p ∈ [(Instr.ceLb e, 0x10, 1, c.t.setReg d ((BitVec.ofNat 8 (leNat (bytes 1))).signExtend 32)),
        (.ceLbu e, 0x11, 1, c.t.setReg d (BitVec.ofNat 32 (leNat (bytes 1)))),
        (.ceLh e, 0x12, 2, c.t.setReg d ((BitVec.ofNat 16 (leNat (bytes 2))).signExtend 32)),
        (.ceLhu e, 0x13, 2, c.t.setReg d (BitVec.ofNat 32 (leNat (bytes 2)))),
        (.ceLw e, 0x14, 4, c.t.setReg d (BitVec.ofNat 32 (leNat (bytes 4)))),
        (.ceLd e, 0x15, 8, c.t.setPair d (w32 (bytes 8) 0) (w32 (bytes 8) 4))],
      iOp c.w = p.2.1 → (p.2.1 = 0x15 → d % 2 = 0) →
        (0x20000 < a + p.2.2.1 → CeTraps p.1 c 0x03 s) ∧
        (a + p.2.2.1 ≤ 0x20000 → ¬ stackOk p.2.2.1 → CeTraps p.1 c 0x05 s) ∧
        (a + p.2.2.1 ≤ 0x20000 → stackOk p.2.2.1 → memClean s (ceBase e + 0x20000 + a) p.2.2.1 = true →
          CeDoes p.1 c p.2.2.2 2 s)) ∧
    (∀ p ∈ [(Instr.ceSb e, 0x18, 1, (wordBytes c.rd).take 1), (.ceSh e, 0x19, 2, (wordBytes c.rd).take 2),
        (.ceSw e, 0x1A, 4, wordBytes c.rd), (.ceSd e, 0x1B, 8, wordBytes c.rd ++ wordBytes (c.t.reg (d + 1)))],
      iOp c.w = p.2.1 → (p.2.1 = 0x1B → d % 2 = 0) →
        (0x20000 < a + p.2.2.1 → CeTraps p.1 c 0x03 s) ∧
        (a + p.2.2.1 ≤ 0x20000 → ¬ stackOk p.2.2.1 → CeTraps p.1 c 0x05 s) ∧
        (a + p.2.2.1 ≤ 0x20000 → stackOk p.2.2.1 → memClean s (ceBase e + 0x20000 + a) p.2.2.1 = true →
          CeWrites p.1 c c.t 1 s (dataWrite e a p.2.2.2 s)))) ∧
  (∀ (e : Nat) (c : CeCtx) (s : State), CeExecutes e c s → iRa c.w = 0 →
    let at4 := litStart c.tt e + 4 * iImm c.w
    let at8 := litStart c.tt e + 8 * iImm c.w
    let code (a n : Nat) := memBytes (ceGet s e).code a n
    (iOp c.w = 0x16 →
      (litEnd c.tt e < at4 + 4 → CeTraps (.ceLit e) c 0x09 s) ∧
      (at4 + 4 ≤ litEnd c.tt e → memClean s (ceBase e + at4) 4 = true →
        CeDoes (.ceLit e) c (c.t.setReg (iRd c.w) (BitVec.ofNat 32 (leNat (code at4 4)))) 2 s)) ∧
    (iOp c.w = 0x17 → iRd c.w % 2 = 0 →
      (litEnd c.tt e < at8 + 8 → CeTraps (.ceLitD e) c 0x09 s) ∧
      (at8 + 8 ≤ litEnd c.tt e → memClean s (ceBase e + at8) 8 = true →
        CeDoes (.ceLitD e) c (c.t.setPair (iRd c.w) (w32 (code at8 8) 0) (w32 (code at8 8) 4)) 2 s)))

/-- R327: branches and jumps: a transfer not taken goes on; a taken one goes to its target, or traps (0x04) at itself
where the target is no multiple of 4 or lies outside text_start to text_end. -/
def Obligations.ControlTransfers : Prop :=
  ∀ (e : Nat) (c : CeCtx) (s : State), CeExecutes e c s →
    let x := c.t.reg (iRd c.w)
    let y := c.t.reg (iRa c.w)
    let pc : Word := BitVec.ofNat 32 c.t.pc
    let goes (i : Instr) (b : TaskSt) (target : Word) : Prop :=
      let ok := target.toNat % 4 = 0 ∧ textStart c.tt e ≤ target.toNat ∧ target.toNat < textEnd c.tt e
      (ok → ∃ t, exec i s = .next t ∧ CeRetired c b target.toNat 2 s t) ∧ (¬ ok → CeTraps i c 0x04 s)
    (∀ p ∈ [(Instr.ceBeq e, 0x20, decide (x = y)), (.ceBne e, 0x21, decide (x ≠ y)),
        (.ceBlt e, 0x22, decide (x.toInt < y.toInt)), (.ceBge e, 0x23, decide (y.toInt ≤ x.toInt)),
        (.ceBltu e, 0x24, decide (x.toNat < y.toNat)), (.ceBgeu e, 0x25, decide (y.toNat ≤ x.toNat))],
      iOp c.w = p.2.1 →
        (p.2.2 = false → CeDoes p.1 c c.t 1 s) ∧
        (p.2.2 = true → goes p.1 c.t (pc + (BitVec.ofNat 16 (iImm c.w)).signExtend 32 * 4#32))) ∧
    (iOp c.w = 0x26 →
      goes (.ceJal e) (c.t.setReg 30 (pc + 4#32)) (pc + (BitVec.ofNat 26 (field c.w 25 0)).signExtend 32 * 4#32)) ∧
    (iOp c.w = 0x27 →
      goes (.ceJalr e) (c.t.setReg (iRd c.w) (pc + 4#32)) (y + (BitVec.ofNat 16 (iImm c.w)).signExtend 32))

/-- R328 to R330: the image group: IRD reads the published word, IWR writes an owned word of the output list and is
counted (R12) on any other valid reference, an invalid reference traps (0x08), QMAX and QOK work on quality codes. -/
def Obligations.ImageGroup : Prop :=
  ∀ (e : Nat) (c : CeCtx) (s : State), CeExecutes e c s →
    let d := iRd c.w
    let ref := c.ra.toNat
    let q (x : Word) : Nat := x.toNat % 4
    (isRPair 0x28 0x00 c.w = true →
      (c.tt.refValid ref = false → CeTraps (.ceIrd e) c 0x08 s) ∧
      (c.tt.refValid ref = true → ∀ w, refGet s ref = some w →
        CeDoes (.ceIrd e) c (c.t.setPair d (w.setWidth 32) ((w >>> 32).setWidth 32)) 24 s)) ∧
    (isRPair 0x28 0x01 c.w = true →
      (c.tt.refValid ref = false → CeTraps (.ceIwr e) c 0x08 s) ∧
      (c.tt.refValid ref = true → ref ∈ ownedRefs c.tt c.r → outIsLate s ref = false →
        CeWrites (.ceIwr e) c c.t 16 s (outWrite ref (mkWord c.rd (qualityOf (q (c.t.reg (d + 1))))) s)) ∧
      (c.tt.refValid ref = true → ref ∉ ownedRefs c.tt c.r →
        CeWrites (.ceIwr e) c c.t 16 s
          (causeS Reg.CE_CAUSE 3 (taskId c.e c.k) (incFld Reg.CE_CNT 15 0 s)))) ∧
    (isR 0x28 0x02 c.w = true →
      CeDoes (.ceQmax e) c (c.t.setReg d (BitVec.ofNat 32 (max (q c.ra) (q c.rb)))) 1 s) ∧
    (isR1 0x28 0x03 c.w = true → CeDoes (.ceQok e) c (c.t.setReg d (if q c.ra = 3 then 0#32 else 1#32)) 1 s)

/-- R294, R331: the timer instructions on a cell at a multiple of 8 within data memory; elsewhere trap 0x0A. R332: the
edge instructions on an 8-byte cell: bit 1 says that the cell has been evaluated, bit 0 holds the last truth value;
the input's truth value and bit 1 are written. -/
def Obligations.TimerAndEdgeInstructions : Prop :=
  (∀ (e : Nat) (c : CeCtx) (s : State), CeExecutes e c s →
    let a := c.ra.toNat
    let m := TimerCell.ofBytes (dataRead s e a 16)
    let now := c.t.relTick % 2 ^ 32
    let dt := (now + 2 ^ 32 - m.stamp) % 2 ^ 32
    let inp : Bool := decide (c.rb ≠ 0#32)
    let ok := a % 8 = 0 ∧ a + 16 ≤ 0x20000
    let grown := min (m.elapsed + dt) m.preset
    let does (i : Instr) (n : Nat) (y : TimerCell) : Prop :=
      (¬ ok → CeTraps i c 0x0A s) ∧
      (ok → memClean s (ceBase e + 0x20000 + a) 16 = true →
        CeWrites i c (c.t.setReg (iRd c.w) (if y.out = true then 1#32 else 0#32)) n s
          (dataWrite e a (leBytes 4 y.preset ++ leBytes 4 y.elapsed ++ leBytes 4 y.stamp ++
            leBytes 4 (b2n y.last + 2 * b2n y.out)) s))
    (isR 0x29 0x00 c.w = true →
      let el := if inp = true ∧ m.last = true then grown else 0
      does (.ceTon e) 8 ⟨m.preset, el, now, inp, inp && decide (m.preset ≤ el)⟩) ∧
    (isR 0x29 0x01 c.w = true →
      let el := if inp = false ∧ m.last = false then grown else 0
      does (.ceTof e) 8 ⟨m.preset, el, now, inp, inp || decide (el < m.preset)⟩) ∧
    (isR 0x29 0x02 c.w = true →
      (inp = true → m.last = false → m.out = false → does (.ceTp e) 8 ⟨m.preset, 0, now, inp, true⟩) ∧
      (m.out = true → does (.ceTp e) 8 ⟨m.preset, grown, now, inp, decide (grown < m.preset)⟩) ∧
      (m.out = false → inp = false ∨ m.last = true → does (.ceTp e) 8 ⟨m.preset, m.elapsed, now, inp, false⟩)) ∧
    (isR1 0x29 0x03 c.w = true → does (.ceTrst e) 4 ⟨m.preset, 0, now, false, false⟩)) ∧
  (∀ (e : Nat) (c : CeCtx) (s : State), CeExecutes e c s →
    let a := c.ra.toNat
    let v := leNat (dataRead s e a 8)
    let seen : Bool := v.testBit 1
    let last : Bool := v.testBit 0
    let inp : Bool := decide (c.rb ≠ 0#32)
    let ok := a % 8 = 0 ∧ a + 8 ≤ 0x20000
    ∀ p ∈ [(Instr.ceEdr e, 0x08, seen && !last && inp), (.ceEdf e, 0x09, seen && last && !inp),
        (.ceEdb e, 0x0A, seen && (last != inp))],
      isR 0x29 p.2.1 c.w = true →
        (¬ ok → CeTraps p.1 c 0x0A s) ∧
        (ok → memClean s (ceBase e + 0x20000 + a) 8 = true →
          CeWrites p.1 c (c.t.setReg (iRd c.w) (if p.2.2 = true then 1#32 else 0#32)) 3 s
            (dataWrite e a (leBytes 8 (if inp = true then 3 else 2)) s)))

/-- R333: the system group but END: NOP, TRAP, EVT, RDT with its selectors, FSTAT. R283, R289, R334: END: when the copy-
out would break a nonzero budget the release takes trap 0x0B; otherwise the release ends: the engine is free and the
task idle, or released again at once where an event release is pending. -/
def Obligations.SystemGroup : Prop :=
  (∀ (e : Nat) (c : CeCtx) (s : State), CeExecutes e c s →
    let f := field c.w 15 12
    let imm := field c.w 11 0
    iOp c.w = 0x2A →
    (f = 0 → iRd c.w = 0 → iRa c.w = 0 → imm = 0 → CeDoes (.ceNop e) c c.t 1 s) ∧
    (f = 2 → iRd c.w = 0 → iRa c.w = 0 → 0x080 ≤ imm → imm ≤ 0x0FF → CeTraps (.ceTrap e) c imm s) ∧
    (f = 3 → iRd c.w = 0 → 0x100 ≤ imm →
      CeWrites (.ceEvt e) c c.t 6 s (evRaise (0xA000 + imm) (taskId c.e c.k) c.ra 0#32 s)) ∧
    (f = 4 → iRa c.w = 0 →
      ∀ p ∈ [(0, c.t.relTick), (1, s.pwr.tick), (2, s.dev.headway), (3, s.mgt.cal.seconds),
          (4, s.mgt.cal.frac + 2 ^ 31 * b2n s.mgt.cal.valid), (5, c.t.cycles / 400), (6, c.e + 256 * c.k)],
        imm = p.1 → CeDoes (.ceRdt e) c (c.t.setReg (iRd c.w) (BitVec.ofNat 32 p.2)) 2 s) ∧
    (f = 5 → iRa c.w = 0 →
      CeDoes (.ceFstat e) c ({ c.t with flags := 0 }.setReg (iRd c.w) (BitVec.ofNat 32 c.t.flags)) 1 s)) ∧
  (∀ (e : Nat) (c : CeCtx) (s : State), CeExecutes e c s →
    iOp c.w = 0x2A → field c.w 15 12 = 1 → iRd c.w = 0 → iRa c.w = 0 →
    let n := (copyListMem s e c.r.outList).length
    (overBudget c.r (c.t.cycles + (40 + 4 * n)) = true → CeTraps (.ceEnd e) c 0x0B s) ∧
    (overBudget c.r (c.t.cycles + (40 + 4 * n)) = false →
      ∃ t, exec (.ceEnd e) s = .next t ∧ (ceGet t e).run = none ∧
        (c.t.pendingRel = false → (taskGet t e c.k).mode = .idle) ∧
        (c.t.pendingRel = true → (taskGet t e c.k).mode = .released ∧ (taskGet t e c.k).relTick = s.pwr.tick)))

/-- R285, R317, R327, R338: the traps that no instruction of its own takes: an illegal encoding (0x01), a fetch outside
the instructions (0x04), and a release over its budget (0x0B), which comes first. R292, R337: what a trap of task
`k` at `pc` records and does: the code, the task and the pc in the engine's trap registers unless an unread trap
stands there (log entry 95), and the task stopped or free for its next release by its policy. -/
def Obligations.Traps : Prop :=
  (∀ (e : Nat) (c : CeCtx) (s : State), ceCtx e s = some c →
    (CeExecutes e c s → legalWord c.w = false → CeTraps (.illegalInstruction e) c 0x01 s) ∧
    (c.inText = false → overBudget c.r c.t.cycles = false → CeTraps (.fetchAtTextEnd e) c 0x04 s) ∧
    (c.inText = false → overBudget c.r c.t.cycles = true → CeTraps (.fetchAtTextEnd e) c 0x0B s) ∧
    (overBudget c.r c.t.cycles = true → CeTraps (.budgetExpire e) c 0x0B s)) ∧
  (∀ (e k code pc : Nat) (r : TaskRec) (s : State), Canonical s → e < 8 → k < 16 → code < 256 → code ≠ 0x0C →
    (theTt s).task e k = some r → r.task = k → r.engine = e → (ceGet s e).run = some k →
    let t := ceTrap e k code pc s
    let a := Reg.CE_E_TRAP + 0x200 * e
    let p := Reg.CE_E_TRAPPC + 0x200 * e
    (getBit s a 12 = false → getFld t a 7 0 = code ∧ getFld t a 11 8 = k ∧ getBit t a 12 = true ∧
      getReg t p = BitVec.ofNat 32 pc) ∧
    (getBit s a 12 = true → getReg t a = getReg s a ∧ getReg t p = getReg s p) ∧ getBit t Reg.CE_CAUSE 0 = true ∧
    (ceGet t e).run = none ∧
    (r.trapPolicy = 0 → (taskGet t e k).mode = .stopped) ∧
    (r.trapPolicy ≠ 0 → (taskGet s e k).pendingRel = false → (taskGet t e k).mode = .idle))

/-- R310: w0 reads as zero and discards writes; a write to any other register of a whole bank is read back and leaves
the others, the pc and the flags as they are. -/
def Obligations.RegisterBank : Prop :=
  ∀ (b : TaskSt) (i j : Nat) (v : Word),
    b.reg 0 = 0#32 ∧ b.setReg 0 v = b ∧
    (b.w.length = 32 → 0 < i → i < 32 → (b.setReg i v).reg i = v ∧ (b.setReg i v).w.length = 32) ∧
    (i ≠ j → (b.setReg i v).reg j = b.reg j) ∧ (b.setReg i v).pc = b.pc ∧ (b.setReg i v).flags = b.flags

/-! ### Power, clocks, resets -/

/-- R409 (demand: chapter 12; R410 to R412 for the commands that move it): each command that moves a user's demand for a
domain, and the completion and the time limit of a start, makes exactly the transition of R409's table, and PLLs
that clock no STARTING or ON domain stop (R408). A domain that stays ON regardless keeps a demand when its last one
falls, and the demand of a host access stays until host_linger has passed since the last access. The wake controller
raises the demand of a use at the tick that comes next, PWR_CTL.lead sub-ticks before it, and a domain keeps its
demand while its work has not ended or its next use lies within PWR_CTL.linger (R411; that a use of an electrical
meter or of a pair falls on every tick is log entry 64). -/
def Obligations.DomainStates : Prop :=
  ∀ (d : Nat) (s : State), 1 ≤ d → d ≤ 17 →
    let x := dom s d
    let go (y : Domain) : State := pllStop (setDom d y s)
    let lingered := getFld s Reg.PWR_CTL 23 16 * 1024 < (s.pwr.tick - x.hostTick + 1) * 1000
    (∀ u, ∀ p ∈ [(Instr.domainEnableRequest d u, u, true), (.domainDisableRequest d u, u, false),
        (.hostLingerExpire d, .host, false)],
      let y := x.setUser p.2.1 p.2.2
      (p.1 = .hostLingerExpire d → lingered ∧ x.hostTick ≤ s.pwr.tick ∧ s.pwr.tick < 2 ^ 48) →
      (y.demand = x.demand → exec p.1 s = .next (go y)) ∧
      (x.demand = false → y.demand = true →
        (x.st = .off → exec p.1 s = .next (go { y with st := .starting, starts := min 65535 (x.starts + 1) })) ∧
        (x.st = .starting ∨ x.st = .on → exec p.1 s = .next (go y)) ∧
        (x.st = .stopping → exec p.1 s = .next (go { y with restart := true }))) ∧
      (x.demand = true → y.demand = false → domStays s d = true → exec p.1 s = .next (go { y with work := true })) ∧
      (x.demand = true → y.demand = false → domStays s d = false →
        (x.st = .off ∨ x.st = .starting → exec p.1 s = .next (go y)) ∧
        (x.st = .on → exec p.1 s = .next (go { y with st := .stopping })) ∧
        (x.st = .stopping → exec p.1 s = .next (go { y with restart := false })))) ∧
    (x.st = .starting →
      exec (.domainStartDone d) s =
        .next (pllStop (setDom d { x with st := if x.demand = true then .on else .stopping } (pllStarted d s))) ∧
      exec (.domainStartTimeout d) s = .next (cause Reg.PWR_CAUSE 5 (go { x with st := .off }))) ∧
    (x.st = .stopping →
      (x.restart = false → exec (.domainStopDone d) s = .next (go { x with st := .off })) ∧
      (x.restart = true → exec (.domainStopDone d) s =
        .next (go { x with restart := false, st := .starting, starts := min 65535 (x.starts + 1) }))) ∧
    (usedNext d s = true → s.pwr.sub ≤ 32 - getFld s Reg.PWR_CTL 3 0 →
      exec (.scheduledWake d) s = exec (.domainEnableRequest d .scheduled)
        { s with pwr := { s.pwr with sub := 32 - getFld s Reg.PWR_CTL 3 0 } }) ∧
    (usedNext d s = false → exec (.scheduledWake d) s = .next s) ∧
    (x.st = .on → x.scheduled = true ∨ x.work = true → domStays s d = false → domBusy d s = false →
      usedNext d s = false ∨ s.pwr.sub + getFld s Reg.PWR_CTL 11 8 < 32 →
      exec (.lingerExpire d) s =
        .next (go { x with
          scheduled := false
          work := false
          st := if x.host = true ∨ x.mailbox = true ∨ x.forceOn = true then .on else .stopping })) ∧
    (domStays s d = true ∨ domBusy d s = true ∨ (usedNext d s = true ∧ 32 ≤ s.pwr.sub + getFld s Reg.PWR_CTL 11 8) →
      exec (.lingerExpire d) s = .next s) ∧
    (¬ lingered → x.hostTick ≤ s.pwr.tick → s.pwr.tick < 2 ^ 48 → exec (.hostLingerExpire d) s = .next s)

/-- R407, R408, R427: the crystal, the reference, VBAT, a running PLL and the watchdog, each with its status bit and
cause. R531: a health sample gives the four temperatures and the seven rails their registers, VBAT's rail its status
bit, and a reading of 110 °C or more sets MGT_CAUSE.temp_alarm, as one within 1 % of an end of its range sets volt. -/
def Obligations.ClocksAndHealth : Prop :=
  (∀ s : State,
    (s.pwr.rcClock = false → exec .xtalFail s = .next (cause Reg.PWR_CAUSE 2 { s with
      pwr := { s.pwr with xtalOk := false, rcClock := true }
      mgt := { s.mgt with cal := { s.mgt.cal with valid := false } } })) ∧
    (s.pwr.rcClock = true → exec .xtalReturn s = .next { s with pwr := { s.pwr with xtalOk := true, rcClock := false } }) ∧
    exec .refFail s = .next (cause Reg.PWR_CAUSE 3 { s with pwr := { s.pwr with refOk := false } }) ∧
    exec .vbatLow s = .next (cause Reg.PWR_CAUSE 6 { s with pwr := { s.pwr with vbatOk := false } }) ∧
    (∀ p, (∃ d ∈ pllDoms p, (dom s d).st = .starting ∨ (dom s d).st = .on) →
      ∃ t, exec (.pllUnlock p) s = .next t ∧ t.dev.mode = s.dev.mode ∧
        (p = .sys → t.pwr = { s.pwr with sysLock := false } ∧ (s.dev.mode = .run → t.dev.fatalDue = true)) ∧
        (p = .slv → t.pwr = { s.pwr with slvLock := false } ∧ (s.dev.mode = .run → t.dev.fatalDue = true)) ∧
        (p = .ser → t.pwr = { s.pwr with serLock := false } ∧ t.red.sync = false)) ∧
    (s.pwr.powerGood = true → s.pwr.rstLow = false →
      (s.dev.mode = .boot → ∃ t, exec .watchdogExpire s = .next t ∧ t.dev = { s.dev with bootPending := some .full } ∧
        (s.mgt.evr.ready = true → t.mgt.evr.buffer = [] ∧ t.mgt.evr.queue = [])) ∧
      (s.dev.mode = .run → ∃ t, exec .watchdogExpire s = .next t ∧ t.dev.fatalDue = true ∧ t.dev.mode = .run ∧
        (s.hif.mbState = 1 → t.hif.mbState = 2 ∧ t.hif.mbResult = 6)))) ∧
  (∀ (ts : List Word) (mv : List Nat) (s : State), RegsWf s → ts.length = 4 → mv.length = 7 →
    ∃ t, exec (.healthSample ts mv) s = .next t ∧ RegsWf t ∧
      (∀ k < 4, getReg t (Reg.MGT_TEMP + 4 * k) = nth ts k 0#32) ∧
      (∀ r < 7, getFld t (Reg.MGT_VOLT + 4 * r) 15 0 = nth mv r 0 % 65536) ∧
      (t.pwr = { s.pwr with vbatOk := decide (2000 ≤ nth mv 3 0 ∧ nth mv 3 0 ≤ 3600) }) ∧
      (∀ k < 4, 110 ≤ f32RatD (nth ts k 0#32) → getBit t Reg.MGT_CAUSE 4 = true) ∧
      (∀ r < 7, (nth mv r 0 : Rat) ≤ (railRange r).1 * 101 / 100 ∨ (railRange r).2 * 99 / 100 ≤ (nth mv r 0 : Rat) →
        getBit t Reg.MGT_CAUSE 5 = true))

/-- R403, R406, R413, R416, R422: RST_N, the main supplies and VAO. R417 to R419, R422, R423: a low at PFW_N shorter
than the filter time is ignored; the first warning leaves the device state and the tick count as they are and gives
up what remains of a boot, a further one only sets its cause; after a complete save with good supplies the recovery
time ends in a RESET. -/
def Obligations.SuppliesResetsAndWarnings : Prop :=
  ((∀ (ns : Nat) (s : State),
    (ns < 2000 → exec (.rstNAssert ns) s = .next s) ∧
    (10000 ≤ ns → s.pwr.rstLow = false → s.pwr.rstHeld = false ∨ s.pwr.rstGone = true →
      (s.pwr.saving = false →
        ∃ t, exec (.rstNAssert ns) s = .next t ∧ t.dev.mode = .boot ∧ t.dev.bootPending = some .full ∧ t.dev.tt = none ∧
          t.dev.cmd = none ∧ t.pwr.rstLow = true ∧ (∀ d, 1 ≤ d → d ≤ 17 → (dom t d).st = .off) ∧ t.pwr.tick = s.pwr.tick ∧
          t.mgt.cal = s.mgt.cal) ∧
      (s.pwr.saving = true → exec (.rstNAssert ns) s = .next { setReg Reg.PWR_RSTTIME (BitVec.ofNat 32 s.mgt.cal.seconds) s with
        pwr := { s.pwr with rstHeld := true, rstGone := false } }))) ∧
  (∀ (b : BistReport) (s : State),
    (s.pwr.rstHeld = true → exec (.rstNRelease b) s = .next { s with
      mem := { s.mem with faults := b }
      pwr := { s.pwr with rstGone := true } }) ∧
    (∀ r, s.dev.mode = .boot → s.pwr.saving = false →
      (s.pwr.rstHeld = false → s.pwr.rstLow = true → s.pwr.powerGood = true → s.dev.bootPending.isSome = true →
        ∃ t, exec (.rstNRelease b) s = .next t ∧ t.pwr.rstLow = false ∧ t.dev.bootPending = none ∧
          (t.dev.mode = .ready ∨ t.dev.mode = .hold)) ∧
      (s.pwr.powerGood = false → s.pwr.vao = true → s.pwr.rstLow = false →
        ∃ t, exec (.powerGood b r) s = .next t ∧ t.pwr.powerGood = true ∧ t.red.roleB = r ∧ t.dev.bootPending = none ∧
          (t.dev.mode = .ready ∨ t.dev.mode = .hold)) ∧
      (s.pwr.powerGood = false → s.pwr.vao = true → s.pwr.rstLow = true →
        exec (.powerGood b r) s = .next { s with
          pwr := { s.pwr with powerGood := true }
          mem := { s.mem with faults := b }
          red := { s.red with roleB := r }
          dev := { s.dev with bootPending := some .full } }))) ∧
  (∀ s : State, RegsWf s → s.pwr.powerGood = true →
    ∃ t, exec .powerGoodLoss s = .next t ∧ t.pwr.powerGood = false ∧ t.dev.mode = .boot ∧ t.dev.tt = none ∧
      t.dev.bootPending = some .full ∧ getReg t Reg.PWR_CUT = BitVec.ofNat 32 s.mgt.cal.seconds ∧
      t.pwr.tick = s.pwr.tick ∧ t.mgt.cal = s.mgt.cal) ∧
  (∀ (held : Bool) (u : Nat) (s : State), s.pwr.powerGood = false →
    ∃ t, exec (.vaoRise held u) s = .next t ∧ t.pwr.tick = 0 ∧ t.pwr.powerGood = false ∧ t.dev.mode = .boot ∧ t.nv = s.nv ∧
      t.pending = s.pending ∧ t.regs = [] ∧ (held = false → t.mgt.cal = {}) ∧
      (held = true → t.mgt.cal.valid = s.mgt.cal.valid ∧
        (calUnits s.mgt.cal + u < 2 ^ 48 → calUnits t.mgt.cal = calUnits s.mgt.cal + u)))) ∧
  (∀ (ns : Nat) (s : State),
    (ns < getFld s Reg.PWR_PFW 5 0 * 1000 → exec (.powerFailWarning ns) s = .next s) ∧
    (getFld s Reg.PWR_PFW 5 0 * 1000 ≤ ns →
      (s.pwr.saving = true ∨ s.pwr.saved = true →
        exec (.powerFailWarning ns) s = .next (cause Reg.PWR_CAUSE 0 { s with pwr := { s.pwr with pfwNow := true } })) ∧
      (s.pwr.saving = false → s.pwr.saved = false →
        ∃ t, exec (.powerFailWarning ns) s = .next t ∧ t.dev.mode = s.dev.mode ∧ t.pwr.tick = s.pwr.tick ∧
          t.dev.bootPending = none)) ∧
    (s.pwr.saved = true → s.pwr.powerGood = true → s.dev.mode ≠ .boot →
      ∃ t, exec .pfwRecoverTimeout s = .next t ∧ t.dev.mode = .boot ∧ t.dev.bootPending = some .full ∧ t.dev.tt = none))

/-- R26, R537: a cause sets its bit, leaves every other register but the recorder's as it is, and its event goes to the
recorder alone; a fatal cause also flushes the recorder's buffer, and in RUN makes the move to SAFE due. -/
def Obligations.CausesAndFatalCauses : Prop :=
  ∀ (reg b src : Nat) (d0 d1 : Word) (s : State), RegsWf s → b < 32 →
    (reg ≠ Reg.MGT_EVR_CNT →
      let t := causeD reg b src d0 d1 s
      getBit t reg b = true ∧ RegsWf t ∧
      (∀ a, a ≠ reg → a ≠ Reg.MGT_CAUSE → a ≠ Reg.MGT_EVR_CNT → getReg t a = getReg s a) ∧
      (∀ i, i ≠ b → reg ≠ Reg.MGT_CAUSE → getBit t reg i = getBit s reg i) ∧
      t = { s with
        regs := t.regs
        nv := t.nv
        mgt := { s.mgt with
          evr := t.mgt.evr
          flushTicks := t.mgt.flushTicks } }) ∧
    (let t := fatal b src s;
      getBit t Reg.DEV_CAUSE b = true ∧ t.dev.mode = s.dev.mode ∧ (s.mgt.evr.ready = true → t.mgt.evr.buffer = []) ∧
      (s.dev.mode = .run → t.dev.fatalDue = true) ∧ (s.dev.mode ≠ .run → t.dev = s.dev))

/-! ### Calendar, recorder, snapshots, latching reads -/

/-- R532 to R535: CAL_SET and CAL_INVALIDATE wait for the next tick boundary, where an invalidate clears validity and
the slew, and a set within one second of a valid time slews and otherwise steps; every 32 ticks of a slew one unit
of 1/65,536 s is added or withheld; the leap second: at the end of the second before it the calendar holds its
seconds, LEAP_SECOND then begins the inserted second or passes to the next day, and the end of an inserted second
clears MGT_CAL_LEAP. R534: a PPS edge while PPS is enabled and the time valid stores its error; within 100 ms it
starts a slew by that error, beyond it is counted and discarded; eight edges within 100 µs lock, an edge further off
or 4 s (4,096 ticks) without an edge end the lock. -/
def Obligations.CalendarAndPps : Prop :=
  (∀ (key : Nat) (s : State),
    let c := s.mgt.cal
    let v : Int := ((getReg s Reg.MGT_CAL_SETSEC).toNat * 65536 + getFld s Reg.MGT_CAL_SETFRAC 15 0 : Nat)
    (key = 0xC0DE → exec (.calSet key) s = .next (setCal { c with setPending := true } s) ∧
      exec (.calInvalidate key) s = .next (setCal { c with invPending := true } s)) ∧
    (key ≠ 0xC0DE → exec (.calSet key) s = .next s ∧ exec (.calInvalidate key) s = .next s) ∧
    (c.valid = true → |v - calUnits c| ≤ 65536 →
      calSetApply s = (setCal { c with setPending := false, slew := v - calUnits c, slewTick := 0 } s, false)) ∧
    (¬ (c.valid = true ∧ |v - calUnits c| ≤ 65536) →
      ∃ t, calSetApply s = (t, true) ∧ t.mgt.cal = { c with
        setPending := false
        seconds := (getReg s Reg.MGT_CAL_SETSEC).toNat
        frac := getFld s Reg.MGT_CAL_SETFRAC 15 0
        valid := true
        slew := 0
        slewTick := 0
        stepped := true
        leapNow := false
        leapDone := false }) ∧
    (c.slew ≠ 0 → 32 ≤ c.slewTick → leapPending s = false → c.leapNow = false → c.leapDone = false → c.frac < 65536 → 0 < calUnits c → calUnits c < 2 ^ 48 - 1 →
      ∃ d, exec .calSlewStep s = .next (setCal d s) ∧ d.slewTick = c.slewTick - 32 ∧ d.valid = c.valid ∧ d.frac < 65536 ∧
        calUnits d = calUnits c + (if 0 < c.slew then 1 else -1) ∧ d.slew = c.slew - (if 0 < c.slew then 1 else -1)) ∧
    (c.leapDone = true →
      (getFld s Reg.MGT_CAL_LEAP 17 16 = 1 →
        exec .leapSecond s = .next (setCal { c with leapNow := true, leapDone := false } s)) ∧
      (getFld s Reg.MGT_CAL_LEAP 17 16 = 2 → RegsWf s → ∃ t, exec .leapSecond s = .next t ∧
        t.mgt.cal = { c with
          seconds := (getFld s Reg.MGT_CAL_LEAP 15 0 * 86400 + 86400) % 2 ^ 32
          leapDone := false } ∧
        getReg t Reg.MGT_CAL_LEAP = 0#32)) ∧
    (c.leapDone = false → exec .leapSecond s = .next s) ∧
    (c.valid = true → c.leapNow = false → c.leapDone = false → 65536 ≤ c.frac + 64 →
      (getFld s Reg.MGT_CAL_LEAP 17 16 = 1 ∧ c.seconds = getFld s Reg.MGT_CAL_LEAP 15 0 * 86400 + 86399) ∨
        (getFld s Reg.MGT_CAL_LEAP 17 16 = 2 ∧ c.seconds = getFld s Reg.MGT_CAL_LEAP 15 0 * 86400 + 86397) →
      calAdvance s = setCal { c with frac := c.frac + 64 - 65536, leapDone := true } s) ∧
    (c.leapNow = true → c.leapDone = false → 65536 ≤ c.frac + 64 → RegsWf s →
      (calAdvance s).mgt.cal = { c with
        frac := c.frac + 64 - 65536
        seconds := (c.seconds + 1) % 2 ^ 32
        leapNow := false } ∧
      getReg (calAdvance s) Reg.MGT_CAL_LEAP = 0#32)) ∧
  (∀ (us : Rat) (s : State),
    let c := s.mgt.cal
    let t0 : Rat := (c.frac : Rat) * 1000000 / 65536 + us
    let e := if t0 ≤ 500000 then t0 else t0 - 1000000
    let near := |e| ≤ 100
    let put := setReg Reg.MGT_CAL_PPSERR (BitVec.ofInt 32 (Config.roundInt e)) s
    let d : CalState := { c with
      ppsTicks := 0
      ppsGood := if near then c.ppsGood + 1 else 0
      ppsLocked := decide (near ∧ (c.ppsLocked = true ∨ 8 ≤ c.ppsGood + 1)) }
    (getBit s Reg.MGT_CAL_PPS 0 = true → c.valid = true →
      (|e| ≤ 100000 →
        exec (.ppsEdge us) s = .next (setCal { d with slew := Config.roundInt (-e * 65536 / 1000000), slewTick := 0 } put)) ∧
      (¬ |e| ≤ 100000 → exec (.ppsEdge us) s = .next (cause Reg.MGT_CAUSE 9 (incFld Reg.MGT_CAL_CNT 15 0 (setCal d put))))) ∧
    (getBit s Reg.MGT_CAL_PPS 0 = false ∨ c.valid = false → exec (.ppsEdge us) s = .next s) ∧
    (4096 ≤ c.ppsTicks → exec .ppsTimeout s = .next (setCal { c with ppsLocked := false, ppsGood := 0 } s)) ∧
    (c.ppsTicks < 4096 → exec .ppsTimeout s = .next s))

/-- R536 to R541: an event whose bucket holds 3,600 units spends them and is recorded with the next sequence number: on
its way to its position of the die, which it reaches in a tick without journal records, where its class is written
directly, at the end of the buffer otherwise; a poorer bucket counts the refusal, and nothing is recorded. The
severity without a class record of the temperature events is log entry 106. R540 to R542, R548: a flush empties the
buffer and puts every record of it on its way to its position, where writing them leaves each; the flush period, the
refill of the buckets each 1,024 ticks, the hourly summaries, and the end of the ring scan. -/
def Obligations.EventRecorder : Prop :=
  (∀ (i code source : Nat) (d0 d1 : Word) (s : State),
    let e := s.mgt.evr
    let b := nth e.buckets i {}
    let cls := (theTt s).eventClass code
    let direct := cls.mode = 0 ∨ code / 4096 = 12
    let t0 := if s.mgt.cal.valid = true then (s.mgt.cal.seconds, s.mgt.cal.frac)
      else (s.pwr.tick / 1024 % 2 ^ 32, s.pwr.tick % 1024 * 64)
    let severity := match (theTt s).eventClasses.find? (fun r => r.code == code) with
      | some r => r.severity
      | none => if code = 0xE043 then 1 else if code = 0xE044 then 2 else 0
    let flags := b2n s.mgt.cal.leapNow + 2 * b2n (!s.mgt.cal.valid) + 16 * (severity % 4)
    let t := evRaise code source d0 d1 s
    NvWf s → code < 2 ^ 16 → source < 2 ^ 16 → e.seq < 2 ^ 48 → e.ready = true →
    e.buckets.findIdx? (fun b => b.code == code && b.source == source) = some i →
    (3600 ≤ b.tokens →
      let spent := e.buckets.set i { b with tokens := b.tokens - 3600, suppressed := 0 }
      (direct →
        let r := evBytes t0.1 t0.2 code e.seq source d0 d1 flags (min 255 b.suppressed)
        t = setEvr { e with buckets := spent, seq := (e.seq + 1) % 2 ^ 48, queue := e.queue ++ [r] } s ∧
        (e.queue = [] → t.pwr.powerGood = true → t.pwr.rstLow = false → t.jnl.cur = none → t.jnl.queue = [] →
          nvRead (evTick t) (evPos e.seq) 32 = r ∧ (evTick t).mgt.evr.queue = [] ∧
          (∀ a, a < evPos e.seq ∨ evPos e.seq + 32 ≤ a → nvRead (evTick t) a 1 = nvRead s a 1))) ∧
      (¬ direct → e.buffer.length < 3071 →
        t = setEvr { e with
          buckets := spent
          seq := (e.seq + 1) % 2 ^ 48
          buffer := e.buffer ++ [evBytes t0.1 t0.2 code e.seq source d0 d1 (flags + 4) (min 255 b.suppressed)] } s)) ∧
    (b.tokens < 3600 →
      t = incFld Reg.MGT_EVR_CNT 15 0 (setBit Reg.MGT_CAUSE 7 true
        (setEvr { e with buckets := e.buckets.set i { b with suppressed := b.suppressed + 1 } } s)))) ∧
  (∀ s : State,
    let e := s.mgt.evr
    let all := e.queue ++ e.buffer
    let flushed (t : State) : Prop := t = { s with mgt := { s.mgt with
        evr := { e with
          queue := all
          buffer := [] }
        flushTicks := 0 } } ∧
      (NvWf s → (∀ r ∈ all, r.length = 32 ∧
          ∀ q ∈ all, q ≠ r → evPos (leNat (slice q 8 6)) ≠ evPos (leNat (slice r 8 6))) →
        (∀ r ∈ all, nvRead (evProgram t) (evPos (leNat (slice r 8 6))) 32 = r) ∧ (evProgram t).mgt.evr.queue = [])
    let up (rate : Nat) (b : Bucket) : Bucket := { b with tokens := min (rate * 3600) (b.tokens + rate) }
    (e.ready = true → ∃ t, exec .evrCtlFlush s = .next t ∧ flushed t) ∧
    (e.ready = true → 0 < getFld s Reg.MGT_EVR_CTL 11 0 → getFld s Reg.MGT_EVR_CTL 11 0 * 1024 ≤ s.mgt.flushTicks →
      ∃ t, exec .evrFlushPeriod s = .next t ∧ flushed t) ∧
    (getFld s Reg.MGT_EVR_CTL 11 0 = 0 → exec .evrFlushPeriod s = .next s) ∧
    (s.pwr.tick % 1024 = 0 → exec .evrBucketRefill s =
      .next (setEvr { e with
        buckets := e.buckets.map (fun b => up (evRate s b.code) b)
        overflow := up 600 e.overflow } s)) ∧
    ((stamp s).1 % 3600 = 0 → ∃ t, exec .evrSummary s = .next t ∧ (∀ b ∈ t.mgt.evr.buckets, b.suppressed = 0) ∧
      t.mgt.evr.overflow.suppressed = 0 ∧ t.mgt.evr.buckets.map (·.tokens) = e.buckets.map (·.tokens) ∧
      t.dev = s.dev ∧ t.pwr = s.pwr) ∧
    (e.scanning = true → e.waiting = [] → exec .evrScanDone s =
      .next (setEvr { e with
        seq := (match evScan s with
          | some q => (q + 1) % 2 ^ 48
          | none => 0)
        ready := true
        scanning := false } s)) ∧
    (e.scanning = true → ∃ t, exec .evrScanDone s = .next t ∧ t.mgt.evr.ready = true ∧ t.mgt.evr.scanning = false ∧
      t.mgt.evr.waiting = []))

/-- R543 to R545: what requests a snap strobe (a fire that drives SNAP requests it with the edge it drives, the reading
of log entry 28); a strobe that is due latches every block's snapshot registers and counts one in MGT_SNAP_SEQ, or
with MGT_SNAP_CTL.hold changes none of them and is counted missed; without one nothing happens. R427, R429, R471,
R547, R548, R576, R364, R305: a read of the low word of a long value latches its high word in the register beside
it, and changes nothing else; the sub-tick that PWR_TICK_HI shows goes on inside its tick. -/
def Obligations.SnapshotsAndLatchingReads : Prop :=
  (∀ s : State, RegsWf s →
    (getBit s Reg.MGT_SNAP_CTL 1 = false → exec .snapFire s = .next { s with mgt := { s.mgt with snapReq := true } }) ∧
    (getBit s Reg.MGT_SNAP_CTL 1 = true → exec .snapFire s = .next { s with mgt := { s.mgt with snapDrive := true } }) ∧
    (getBit s Reg.MGT_SNAP_CTL 3 = true → exec .snapEdge s = .next { s with mgt := { s.mgt with snapReq := true } }) ∧
    (getBit s Reg.MGT_SNAP_CTL 3 = false → exec .snapEdge s = .next s) ∧
    (0 < getFld s Reg.MGT_SNAP_PER 15 0 → getFld s Reg.MGT_SNAP_PER 15 0 ≤ s.mgt.snapCount →
      exec .snapPeriodic s = .next { s with mgt := { s.mgt with snapReq := true, snapCount := 0 } }) ∧
    (s.mgt.snapDue = false → exec .snapStrobe s = .next s) ∧
    (s.mgt.snapDue = true → ∃ t, exec .snapStrobe s = .next t ∧ t.mgt.snapDue = false ∧
      (getBit s Reg.MGT_SNAP_CTL 2 = false →
        getReg t Reg.MGT_SNAP_SEQ = getReg s Reg.MGT_SNAP_SEQ + 1#32 ∧
        getReg t Reg.PWR_SNAP_TICK_LO = BitVec.ofNat 32 s.pwr.tick ∧
        getReg t Reg.PWR_SNAP_STAT = pwrStat s ∧ getReg t Reg.JNL_SNAP_SEQ_LO = BitVec.ofNat 32 s.jnl.seq ∧
        getReg t Reg.HYD_SNAP_STAT = getReg s Reg.HYD_STAT ∧ getReg t Reg.OPT_SNAP_STAT = optStat s ∧
        getReg t Reg.CE_SNAP_STAT = ceStat s ∧ getReg t Reg.MTR_SNAP_STAT = mtrStat s ∧
        getReg t Reg.RED_SNAP_STAT = redStat s ∧ getReg t Reg.MGT_SNAP_CAL = BitVec.ofNat 32 s.mgt.cal.seconds ∧
        getReg t Reg.KEY_SNAP_CTR = BitVec.ofNat 32 s.key.ctr ∧
        getReg t Reg.HIF_SNAP_SEQ = BitVec.ofNat 32 (s.hif.seq % 2 ^ 16)) ∧
      (getBit s Reg.MGT_SNAP_CTL 2 = true →
        getReg t Reg.MGT_SNAP_SEQ = getReg s Reg.MGT_SNAP_SEQ ∧
        getReg t Reg.PWR_SNAP_TICK_LO = getReg s Reg.PWR_SNAP_TICK_LO ∧
        getFld t Reg.MGT_SNAP_MISS 15 0 = min 65535 (getFld s Reg.MGT_SNAP_MISS 15 0 + 1) ∧
        getBit t Reg.MGT_CAUSE 10 = true))) ∧
  (∀ (n : Nat) (s : State),
    let c := s.mgt.cal
    let latch (a v : Nat) : State := setReg a (BitVec.ofNat 32 v) s
    (n < 64 → exec (.pcLoRead n) s = .next (setReg (Reg.CHN_PC_HI + 0x10 * n) (BitVec.ofNat 32 ((pcGet s n).count / 2 ^ 32))
      (latch (Reg.CHN_PC_LO + 0x10 * n) (pcGet s n).count))) ∧
    (s.pwr.sub < 32 → ∃ u, s.pwr.sub ≤ u ∧ u < 32 ∧ exec .tickLoRead s = .next (setReg Reg.PWR_TICK_HI
      (BitVec.ofNat 32 (s.pwr.tick / 2 ^ 32 % 2 ^ 16 + u * 2 ^ 16)) { s with
        free := s.free + 1
        pwr := { s.pwr with sub := u } })) ∧
    (n < 10 → exec (.eTotLoRead n) s = .next (latch (Reg.PWR_E_TOT_HI + 8 * n) (nth s.pwr.eTot n 0 / 2 ^ 32))) ∧
    exec .jnlSeqLoRead s = .next (latch Reg.JNL_SEQ_HI (s.jnl.seq / 2 ^ 32)) ∧
    exec .calSecRead s = .next (latch Reg.MGT_CAL_FRAC (c.frac + 2 ^ 16 * b2n c.valid + 2 ^ 17 * b2n c.leapNow +
      2 ^ 18 * b2n (c.slew != 0) + 2 ^ 19 * b2n c.stepped)) ∧
    exec .evrSeqLoRead s = .next (latch Reg.MGT_EVR_SEQ_HI (s.mgt.evr.seq / 2 ^ 32)) ∧
    exec .keyCtrLoRead s = .next (latch Reg.KEY_CTR_HI (s.key.ctr / 2 ^ 32)) ∧
    (n < 8 → exec (.trappcRead n) s = .next (setFld (Reg.CE_E_TRAP + 0x200 * n) 12 12 0 s)))

/-! ### Transactions, the parameter store, the journal -/

/-- R453, R458, R463, R465, R470: BEGIN opens, ROLLBACK discards, the idle time aborts; a command with a wrong key, in a
state or at a moment that does not allow it changes cmd_status alone; every command restarts the idle time. R459,
R460: a COMMIT or COMMIT_PROMPT of an open transaction fails with reason 6 where prompt commits are not granted (or
a replacement is staged with one) and with reason 2 while the slot writer is open; with a staged replacement it
begins the check of the slot; otherwise the first entry that would be refused fails it with reason 1, and a set that
passes has its commit record handed to the journal writer. -/
def Obligations.TransactionCommands : Prop :=
  (∀ (key : Nat) (s : State),
    let x := { s.tx with idleTicks := 0 }
    let put (y : TxState) : State := { s with tx := y }
    let ended (result : Nat) (y : TxState) : TxState := { y with
      st := 0
      entries := []
      stagedSlot := none
      stagedTt := none
      prompt := false
      result := result
      reason := 0
      failEntry := 0 }
    (key = 0xC0DE → s.dev.mode = .ready ∨ s.dev.mode = .run ∨ s.dev.mode = .safe → s.tx.st = 0 →
      exec (.begin key) s = .next (put { x with
        st := 1
        number := (s.tx.number + 1) % 2 ^ 32
        entries := []
        stagedSlot := none
        stagedTt := none
        prompt := false
        cmdStatus := 1 })) ∧
    (key = 0xC0DE → s.dev.mode = .ready ∨ s.dev.mode = .run ∨ s.dev.mode = .safe → s.tx.st ≠ 0 →
      exec (.begin key) s = .next (put { x with cmdStatus := 3 })) ∧
    (key = 0xC0DE → s.dev.mode = .boot ∨ s.dev.mode = .hold ∨ s.dev.mode = .standby →
      exec (.begin key) s = .next (put { x with cmdStatus := 2 })) ∧
    (key = 0xC0DE → s.tx.st = 1 → exec (.rollback key) s = .next (put { ended 2 x with cmdStatus := 1 })) ∧
    (∀ c ∈ [Instr.commit key, .commitPrompt key, .rollback key], s.tx.st ≠ 1 ∨ key ≠ 0xC0DE →
      exec c s = .next (put { x with cmdStatus := 2 })) ∧
    (key ≠ 0xC0DE → exec (.begin key) s = .next (put { x with cmdStatus := 2 })) ∧
    (s.tx.st = 1 → txIdleTime s * 1024 ≤ s.tx.idleTicks →
      exec .txIdleAbort s = .next (cause Reg.JNL_CAUSE 4 (put (ended 3 s.tx)))) ∧
    (s.tx.st ≠ 1 ∨ s.tx.idleTicks < txIdleTime s * 1024 → exec .txIdleAbort s = .next s)) ∧
  (∀ (prompt : Bool) (s : State), s.tx.st = 1 →
    let c : Instr := if prompt = true then .commitPrompt 0xC0DE else .commit 0xC0DE
    let s1 : State := { s with tx := { s.tx with st := 2, prompt := prompt, cmdStatus := 1, idleTicks := 0 } }
    let failed (reason entry : Nat) : State := cause Reg.JNL_CAUSE 5 { s1 with tx := { s1.tx with
      st := 0
      entries := []
      stagedSlot := none
      stagedTt := none
      prompt := false
      result := 4
      reason := reason
      failEntry := entry } }
    let granted := prompt = true → secFlag s 2 = true ∧ s.tx.stagedSlot = none
    (¬ granted → exec c s = .next (failed 6 0)) ∧
    (granted → s.dev.writer.isSome = true → exec c s = .next (failed 2 0)) ∧
    (granted → s.dev.writer = none → ∀ k, s.tx.stagedSlot = some k →
      exec c s = .next (slotUnchecked k true s1)) ∧
    (granted → s.dev.writer = none → s.tx.stagedSlot = none → s.tx.stagedTt = none →
      (∀ i e, s.tx.entries[i]? = some e → entryRefused s1 (txFinal s1) e = true →
        (∀ j < i, ∀ e', s.tx.entries[j]? = some e' → entryRefused s1 (txFinal s1) e' = false) →
        exec c s = .next (failed 1 i)) ∧
      ((∀ e ∈ s.tx.entries, entryRefused s1 (txFinal s1) e = false) →
        (∀ e ∈ s.tx.entries, e.1 ≠ Reg.MTR_TAR_D + 8 ∧ e.1 ≠ Reg.MTR_DAYOFS) →
        let s2 : State := { s1 with tx := { s1.tx with st := 3 } }
        exec c s = .next (jnlRequest { kind := 3, inst := 0, payload := commitPayload s2, owner := .commit } s2))))

/-- R461, R462, R465, R422: a commit whose record is durable and whose shadows were loaded before the tick now ending is
applied at the boundary (a COMMIT at a headway start, a COMMIT_PROMPT at any), and is then committed; the bound
shows the headway. A boundary at which none is due changes nothing. -/
def Obligations.CommitBoundary : Prop :=
  ∀ s : State,
    let due := s.tx.st = 4 ∧ s.tx.shadowTick + 2 ≤ s.pwr.tick ∧ (s.tx.prompt = true ∨ s.dev.hwDue = true) ∧
      hwStates s.dev.mode = true ∧ workHalted s = false
    (due → ∃ t, exec .commitBoundary s = .next t ∧ t.tx.st = 0 ∧ t.tx.result = 1 ∧ t.tx.reason = 0 ∧ t.tx.entries = [] ∧
      t.tx.stagedSlot = none ∧ t.tx.stagedTt = none ∧ t.tx.bound = (s.dev.headway + b2n s.dev.hwDue) % 2 ^ 32 ∧
      t.dev.mode = s.dev.mode) ∧
    (¬ due → exec .commitBoundary s = .next s)

/-- R437, R438, R442: the parameter store's commands need the key, a partition and a state with a loaded timetable; the
right password unlocks and clears the failures, a wrong one counts a failure and starts its lockout, a locked-out
kind is refused; after each command the key registers are zero. A lockout that has run down is over. R434, R439,
R442: a permitted burst into the parameter store is collected and its page begins to program; the end of programming
writes exactly the bytes collected, and counts; a burst that is not permitted programs nothing. -/
def Obligations.ParameterStore : Prop :=
  (∀ (p key : Nat) (wr : Bool) (s : State),
    let x := psPart s p
    let pick {α : Type} (a b : α) : α := if wr = true then a else b
    let lock := pick x.writeLock x.readLock
    let fails := pick x.writeFails x.readFails
    let opened := pick x.writeOpen x.readOpen
    let ok := key = 0xC0DE ∧ p < 4 ∧ hwStates s.dev.mode = true
    let right := psCheck p wr s.ps.key = psCheckOf s p wr
    (¬ ok → ∀ c ∈ [Instr.psUnlock p wr key, .psLock p wr key, .psSetPassword p wr key], exec c s = .next (psDone 2 s)) ∧
    (ok → 0 < lock → exec (.psUnlock p wr key) s = .next (psDone 3 s)) ∧
    (ok → lock = 0 → right →
      exec (.psUnlock p wr key) s = .next (psDone 1 (psStore p (setPart p (x.put wr true 0 0) s)))) ∧
    (ok → lock = 0 → ¬ right →
      exec (.psUnlock p wr key) s = .next (causeS Reg.JNL_CAUSE 9 p (psDone 3 (psStore p
        (setPart p (x.put wr opened (fails + 1) (min 86400 ((theTt s).security.lockoutBase * 2 ^ fails) * 1024)) s))))) ∧
    (ok → exec (.psLock p wr key) s = .next (psDone 1 (setPart p
      (pick { x with writeOpen := false } { x with readOpen := false }) s))) ∧
    (ok → opened = true → exec (.psSetPassword p wr key) s = .next (psDone 1 (psStore p (setPart p
      (pick { x with writeCheck := psCheck p wr s.ps.key, readCheck := psCheckOf s p false }
        { x with readCheck := psCheck p wr s.ps.key, writeCheck := psCheckOf s p true }) s)))) ∧
    (ok → opened = false → exec (.psSetPassword p wr key) s = .next (psDone 2 s)) ∧
    (p < 4 → lock = 0 → exec (.psLockoutExpire p wr) s = .next (setPart p
      (pick { x with writeLock := 0 } { x with readLock := 0 }) s)) ∧
    (0 < lock → exec (.psLockoutExpire p wr) s = .next s) ∧
    (∀ n, (psDone n s).ps = { s.ps with cmdStatus := n, key := List.replicate 16 0 })) ∧
  (∀ (a p : Nat) (bs : List Byte) (s : State), psPartOf a = some p → bs ≠ [] → s.ps.programming = false →
    s.dev.mode ≠ .boot → s.pwr.saving = false →
    (psReason p true s = 0 →
      exec (.psWriteBurst a bs) s =
        .next { s with ps := { s.ps with page := psGranules a bs s, programming := true } } ∧
      (NvWf s → RegsWf s → a % 256 + bs.length ≤ 256 →
        ∃ t u, exec (.psWriteBurst a bs) s = .next t ∧ exec .psPageProgrammed t = .next u ∧ u.ps.programming = false ∧
          nvRead u (a - 0x08000000) bs.length = bs ∧
          (∀ b, b < a - 0x08000000 ∨ a - 0x08000000 + bs.length ≤ b → nvRead u b 1 = nvRead s b 1) ∧
          getFld u Reg.JNL_PS_CNT 15 0 = min 65535 (getFld s Reg.JNL_PS_CNT 15 0 + 1))) ∧
    (psReason p true s ≠ 0 → exec (.psWriteBurst a bs) s = .next (psRefuse s)))

/-- R445, R446: copy A of the record in progress is written at its place and, read back whole, makes the record durable
with the next number; copy B is then written at its place, and with it the record is done; a copy that reads back
otherwise is written again, twice at most. -/
def Obligations.JournalCopies : Prop :=
  ∀ (back : List Byte) (c : JCur) (s : State), s.jnl.cur = some c → NvWf s → s.pwr.rstHeld = false →
    s.pwr.saving = false → s.pwr.saved = false → back.length = c.bytes.length →
    let a := segA c.pair + c.off
    let b := segB c.pair + c.off
    (c.durable = false → c.req.owner = .done →
      ∃ t, exec (.journalCopyAWritten none) s = .next t ∧ nvRead t a c.bytes.length = c.bytes ∧
        t.jnl.seq = s.jnl.seq + 1 ∧ t.jnl.cur = some { c with durable := true, retries := 0 } ∧
        (∀ o, o < a ∨ a + c.bytes.length ≤ o → nvRead t o 1 = nvRead s o 1)) ∧
    (c.durable = true → s.jnl.queue = [] → s.jnl.compacting = false → s.jnl.pairs ≠ [] →
      ∃ t, exec (.journalCopyBWritten none) s = .next t ∧ nvRead t b c.bytes.length = c.bytes ∧ t.jnl.cur = none ∧
        t.jnl.seq = s.jnl.seq ∧ (∀ o, o < b ∨ b + c.bytes.length ≤ o → nvRead t o 1 = nvRead s o 1)) ∧
    (c.durable = true → back ≠ c.bytes → c.retries < 2 →
      ∃ t, exec (.journalCopyBWritten (some back)) s = .next t ∧ nvRead t b c.bytes.length = back ∧
        t.jnl.cur = some { c with retries := c.retries + 1 } ∧ t.jnl.seq = s.jnl.seq) ∧
    (c.durable = false → back ≠ c.bytes → c.retries < 2 →
      ∃ t d, exec (.journalCopyAWritten (some back)) s = .next t ∧ t.jnl.seq = s.jnl.seq ∧ t.jnl.cur = some d ∧
        d.req.owner = c.req.owner ∧ d.durable = false ∧ d.retries = c.retries + 1)

/-! ### Host writes of registers -/

/-- R454 to R456, R585: REGISTER_WRITE and every row that is a write of one register. A word that is staged joins the
open transaction, a selector being performed as well; a transaction that holds 4,096 entries takes none; a word that
is not staged is performed, or refused with nothing but what its refusal leaves. In BOOT and during a save nothing
is taken, and while CORE or the domain that serves the register is not ON only their demand rises (R412, R628). R5:
a performed word gives its register the bits written in RW and RWH fields, clears the W1C bits written with 1, and
leaves every other bit; R474: a word at an address without a register is ignored. R142, R156, R207, R249, R264,
R265, R272 to R277, R304, R363, R397, R400, R501: what a performed word of those registers does besides its fields,
on a device whose sync link is down and that is no standby. -/
def Obligations.RegisterWrites : Prop :=
  (∀ (n k c addr : Nat) (w : Word) (manual : Bool) (s : State), addr < 0x100000 → addr % 4 = 0 → k < 256 → c < 4 →
    let old (a m : Nat) : Word := getReg s a ||| BitVec.ofNat 32 m
    let loop := Reg.LPE_L_CTL + 0x40 * k
    let inj := Reg.LPE_INJ_CTL + 0x20 * c
    let cap := Reg.LPE_CAP_CTL + 0x20 * c
    let task (code key : Nat) : Word := BitVec.ofNat 32 (n % 8 + 2 ^ 4 * (k % 16) + 2 ^ 8 * code + 2 ^ 16 * (key % 65536))
    ∀ p ∈ [(Instr.registerWrite addr w, addr, w), (.slkStnSelWrite w, Reg.SLK_STN_SEL, w), (.chnSelWrite w, Reg.CHN_SEL, w),
        (.mtrSelWrite w, Reg.MTR_SEL, w), (.mtrIvlSelWrite w, Reg.MTR_IVL_SEL, w), (.tariffSubmit w, Reg.MTR_TAR_D + 8, w),
        (.dayofsWrite w, Reg.MTR_DAYOFS, w), (.hydColdRequest, Reg.HYD_CTL, old Reg.HYD_CTL 0x100),
        (.optColdRequest, Reg.OPT_CTL, old Reg.OPT_CTL 4), (.slvSelftestStart, Reg.SLV_CTL, old Reg.SLV_CTL 0x100),
        (.loopCoefficientWrite (0x91000 + addr % 0x4000) w, 0x91000 + addr % 0x4000, w),
        (.loopModeWrite k manual, loop, if manual = true then 1#32 else 0#32), (.loopReinit k, loop, old loop 2),
        (.injectionStart c w, inj, w ||| 0x1000#32), (.injectionStop c, inj, old inj 0x2000),
        (.captureStart c w, cap, w ||| 0x100#32), (.captureStop c, cap, old cap 0x200),
        (.taskStop n k addr, Reg.CE_CMD, task 1 addr), (.taskStart n k addr, Reg.CE_CMD, task 2 addr),
        (.taskRestart n k addr, Reg.CE_CMD, task 3 addr), (.patchSubmit w, Reg.CE_PATCH_CTL, w ||| 0x10000#32),
        (.domainForceOn (1 + k % 17) manual, Reg.PWR_DOM + 4 * (k % 17), if manual = true then 16#32 else 0#32)],
      let a := p.2.1
      let v := p.2.2
      let ds := neededDomains a 4
      let s1 := hostTouch ds s
      let staged (t : State) : State := { t with tx := { t.tx with entries := t.tx.entries ++ [(a, v)], idleTicks := 0 } }
      (s.dev.mode = .boot ∨ s.pwr.saving = true → exec p.1 s = .next s) ∧
      (s.dev.mode ≠ .boot → s.pwr.saving = false → (∃ d ∈ ds, (dom s d).st ≠ .on) →
        exec p.1 s = .next (raiseHost ds s)) ∧
      (s.dev.mode ≠ .boot → s.pwr.saving = false → (∀ d ∈ ds, (dom s d).st = .on) →
        (stages s1 a = true → 4096 ≤ s.tx.entries.length → exec p.1 s = .next s1) ∧
        (stages s1 a = true → s.tx.entries.length < 4096 → a ∉ selectors → exec p.1 s = .next (staged s1)) ∧
        (stages s1 a = true → s.tx.entries.length < 4096 → a ∈ selectors → writeReason a v s1 = 0 →
          exec p.1 s = .next (staged (performWord a v s1))) ∧
        (stages s1 a = true → s.tx.entries.length < 4096 → a ∈ selectors → writeReason a v s1 ≠ 0 →
          exec p.1 s = .next (refuseEffect a v (writeReason a v s1) s1)) ∧
        (stages s1 a = false → writeReason a v s1 = 0 → exec p.1 s = .next (performWord a v s1)) ∧
        (stages s1 a = false → writeReason a v s1 ≠ 0 → exec p.1 s = .next (refuseEffect a v (writeReason a v s1) s1)))) ∧
  (∀ (a : Nat) (w : Word) (s : State), RegsWf s →
    (regFind a = none → applyReg a w s = s) ∧
    (∀ r, regFind a = some r → a / 0x10000 ∈ [2, 3, 4, 6, 11, 13, 15] →
      let t := applyReg a w s
      let has (p : FType → Bool) (i : Nat) : Prop := ∃ f ∈ r.fields, p f.type = true ∧ f.lo ≤ i ∧ i ≤ f.hi
      (∀ f ∈ r.fields, f.lo ≤ f.hi ∧ f.hi < 32) →
        t = { s with regs := t.regs } ∧ (∀ b, b ≠ a → getReg t b = getReg s b) ∧
        ∀ i < 32, (getReg t a).getLsbD i = true ↔
          ((has isRw i ∧ w.getLsbD i = true) ∨ (¬ has isRw i ∧ (getReg s a).getLsbD i = true)) ∧
            ¬ (has (· == .w1c) i ∧ w.getLsbD i = true))) ∧
  (∀ (c : Nat) (w : Word) (s : State), s.red.sync = false → s.dev.mode ≠ .standby → c < 4 →
    let put (a : Nat) (v : Word) (s : State) : State := match regFind a with
      | some r => setReg a (regWritten r (getReg s a) v) s
      | none => s
    let cap := Reg.LPE_CAP_CTL + 0x20 * c
    let inj := Reg.LPE_INJ_CTL + 0x20 * c
    let x := nth s.lpe.cap c {}
    (∀ a ∈ [Reg.SLK_STN_SEL, Reg.CHN_SEL], performWord a w s = put a w s) ∧
    performWord Reg.MTR_SEL w s = mtrSelect w (put Reg.MTR_SEL w s) ∧
    performWord Reg.MTR_IVL_SEL w s = mtrIvlSelect w (put Reg.MTR_IVL_SEL w s) ∧
    performWord (Reg.MTR_TAR_D + 8) w s = tariffApply w (put (Reg.MTR_TAR_D + 8) w s) ∧
    performWord Reg.MTR_DAYOFS w s = dayofsApply w s ∧
    performWord Reg.CE_CMD w s = ceCommand w (put Reg.CE_CMD w s) ∧
    (w.getLsbD 8 = true →
      performWord Reg.HYD_CTL w s = { put Reg.HYD_CTL w s with hyd := { s.hyd with coldDue := true } } ∧
      performWord Reg.SLV_CTL w s = { put Reg.SLV_CTL (setField w 8 8 0) s with slv := { s.slv with selftest := 1 } }) ∧
    (w.getLsbD 2 = true → performWord Reg.OPT_CTL w s = { put Reg.OPT_CTL w s with opt := { s.opt with cold := true } }) ∧
    (w.getLsbD 16 = true → performWord Reg.CE_PATCH_CTL w s =
      patchSubmit (s.dev.mode == .run && !writeMaskBit s 10) (put Reg.CE_PATCH_CTL w s)) ∧
    (∀ k < 256, let a := Reg.LPE_L_CTL + 0x40 * k;
      (w.getLsbD 1 = false → performWord a w s = put a w s) ∧
      (w.getLsbD 1 = true → performWord a w s = loopSet k { loopGet s k with reinit := true } (put a w s))) ∧
    (w.getLsbD 8 = true → w.getLsbD 9 = false → performWord cap w s = capStart c (put cap w s)) ∧
    (w.getLsbD 9 = true → w.getLsbD 8 = false → x.running = true ∨ x.armed = true ∨ x.go = true →
      performWord cap w s = capSet c { x with running := false, armed := false, go := false } (put cap w s)) ∧
    (w.getLsbD 12 = true → w.getLsbD 13 = false → performWord inj w s = injStart c (put inj w s)) ∧
    (w.getLsbD 13 = true → w.getLsbD 12 = false → (nth s.lpe.inj c {}).running = true →
      performWord inj w s = cause Reg.LPE_CAUSE 4 (injSet c { nth s.lpe.inj c {} with running := false } (put inj w s))))

/-! ### Frames of the host port -/

/-- R580 to R585, R591, R597: STATUS in either width: in BOOT code BUSY, state 0 and summary zero whatever the CRC;
otherwise code DONE with a good request CRC and code CRC with a bad one; the status word, the summary and the CRC of
both are the response. R412, R473, R581 to R587: a READ of registers, in either width, with a good CRC and no
obstacle, answers DONE: the status word, the words in address order, the end word with the count, and the CRC; what
reading latches is latched. A bad CRC, a bad length and a busy port are answered with zeros and change nothing but
their counters. -/
def Obligations.StatusAndReadFrames : Prop :=
  (∀ (crc : Nat) (s : State), s.pwr.powerGood = true →
    let word (code : Nat) : Nat :=
      code + 2 ^ 8 * modeCode s.dev.mode + bitAt 11 (intN s) + 2 ^ 16 * (s.hif.seq % 2 ^ 16)
    let body (code : Nat) : List Byte :=
      beBytes 4 (word code) ++ beBytes 4 (if s.dev.mode = .boot ∨ (dom s 1).st ≠ .on then 0 else (intSummary s).toNat)
    let answer (code : Nat) (t : State) : State := { t with hif := { t.hif with
      response := body code ++ beBytes 2 (crc16 (body code)).toNat
      inResponse := true
      latched := [] } }
    ∀ p ∈ [(Instr.statusWidth1 crc, 0x05#8), (.statusWidth4 crc, 0x75#8)],
      (s.dev.mode = .boot ∨ (dom s 1).st ≠ .on → exec p.1 s = .next (answer 1 (incFld Reg.HIF_CNT 31 16 s))) ∧
      (s.dev.mode ≠ .boot → (dom s 1).st = .on → crc = (crc16 [p.2]).toNat → exec p.1 s = .next (answer 0 s)) ∧
      (s.dev.mode ≠ .boot → (dom s 1).st = .on → crc ≠ (crc16 [p.2]).toNat →
        exec p.1 s = .next (answer 3 (cause Reg.HIF_CAUSE 0 (incFld Reg.HIF_CNT 15 0 s))))) ∧
  (∀ (a n crc : Nat) (s : State), s.pwr.powerGood = true → a < 2 ^ 32 → n < 2 ^ 16 →
    ∀ p ∈ [(Instr.readWidth1 a n crc none, 0x03#8), (.readWidth4 a n crc none, 0xEB#8)],
      let good := crc = (crc16 (p.2 :: (beBytes 4 a ++ beBytes 2 n))).toNat
      let blank (code : Nat) (t : State) : State := respond (beBytes 4 (code + 2 ^ 8 * modeCode s.dev.mode + bitAt 11 (intN s) +
        2 ^ 16 * (s.hif.seq % 2 ^ 16)) ++ List.replicate n 0#8 ++ beBytes 4 (2 ^ 16 * code)) t
      (s.dev.mode = .boot → exec p.1 s = .next (blank 1 (incFld Reg.HIF_CNT 31 16 s))) ∧
      (s.dev.mode ≠ .boot → (dom s 1).st ≠ .on → placeReason a n = 0 →
        exec p.1 s = .next (blank 1 (incFld Reg.HIF_CNT 31 16 (raiseHost (neededDomains a n) s)))) ∧
      (s.dev.mode ≠ .boot → (dom s 1).st = .on → ¬ good → exec p.1 s = .next (blank 3 (cause Reg.HIF_CAUSE 0 (incFld Reg.HIF_CNT 15 0 s)))) ∧
      (s.dev.mode ≠ .boot → (dom s 1).st = .on → good → n = 0 ∨ 4096 < n → exec p.1 s = .next (blank 5 s)) ∧
      (s.dev.mode ≠ .boot → (dom s 1).st = .on → good → 0 < n → n ≤ 4096 → s.pwr.saving = true ∨ s.hif.pending.isSome = true →
        exec p.1 s = .next (blank 1 (incFld Reg.HIF_CNT 31 16 s))) ∧
      (s.dev.mode ≠ .boot → (dom s 1).st = .on → good → 0 < n → n ≤ 4096 → s.pwr.saving = false → s.hif.pending = none →
        ∀ v b, accessCode false a n s = (none, v) → hostRange a = some (.window b) →
        ∃ bs ls t, wordsRead a (n / 4) v = (bs, ls, t) ∧
          exec p.1 s = .next { respond (beBytes 4 (statusWord .done 0 v) ++ bs ++ beBytes 4 n) t with
            hif := { (respond (beBytes 4 (statusWord .done 0 v) ++ bs ++ beBytes 4 n) t).hif with latched := ls } } ∧
          bs.length = 4 * (n / 4)))

/-- R454 to R456, R583 to R588: a WRITE in either width with a good CRC to an accessible register window waits, with the
words that pass, for the rise of HOST_CS_N, and is answered STAGED when all words are staged, DONE when all pass,
and REFUSED with the reason and count of the words before the first that is refused; HOST_WRITE_PERFORM performs
them in ascending order. -/
def Obligations.WriteFrames : Prop :=
  ∀ (a : Nat) (data : List Byte) (s : State), s.pwr.powerGood = true → a < 2 ^ 32 → s.dev.mode ≠ .boot →
    (dom s 1).st = .on → s.pwr.saving = false → s.hif.pending = none → data ≠ [] → data.length ≤ 4096 →
    ∀ v b, accessCode true a data.length s = (none, v) → hostRange a = some (.window b) →
    let n := data.length
    ∀ p ∈ [((fun crc => Instr.writeWidth1 a n data crc), 0x02#8), ((fun crc => .writeWidth4 a n data crc), 0x38#8)],
      let crc := (crc16 (p.2 :: (beBytes 4 a ++ beBytes 2 n ++ data))).toNat
      let waits (k : Nat) (t : State) : State := { t with hif := { t.hif with
        pending := some (a, data.take (4 * k))
        pendStaged := wordsStaged (burstWords a data) v } }
      let answer (code reason count : Nat) (t : State) : State :=
        respond (beBytes 4 (code + 2 ^ 4 * reason + 2 ^ 8 * modeCode t.dev.mode + bitAt 11 (intN t) +
          2 ^ 16 * (t.hif.seq % 2 ^ 16)) ++ beBytes 4 (count + 2 ^ 16 * code + 2 ^ 20 * reason)) t
      (∀ k t, wordsWrite (burstWords a data) 0 true v = (k, true, none, t) →
        exec (p.1 crc) s = .next (waits (n / 4) (answer 4 0 n v))) ∧
      (∀ k t, wordsWrite (burstWords a data) 0 true v = (k, false, none, t) →
        exec (p.1 crc) s = .next (waits (n / 4) (answer 0 0 n v))) ∧
      (∀ k st x w reason t, wordsWrite (burstWords a data) 0 true v = (k, st, some (x, w, reason), t) → 0 < k →
        ∃ u, exec (p.1 crc) s = .next u ∧ u.hif.pending = some (a, data.take (4 * k)) ∧
          u.hif.pendStaged = wordsStaged (burstWords a data) v ∧
          u.hif.seq = s.hif.seq ∧ u.dev = s.dev ∧ u.tx = s.tx) ∧
      (∀ bad, bad ≠ crc → ∃ u, exec (p.1 bad) s = .next u ∧ u.hif.pending = none ∧ u.dev = s.dev ∧ u.tx = s.tx)

/-- R580, R587 to R589: HOST_WRITE_PERFORM performs what waits, word by word as it was answered, or as bytes of a
memory, and counts the transaction; a command byte without a command and an early rise of HOST_CS_N set their
causes. -/
def Obligations.HostPortEvents : Prop :=
  ∀ s : State,
    (∀ a data b, s.hif.pending = some (a, data) → hostRange a = some (.window b) →
      exec .hostWritePerform s = .next (wordsPerform (burstWords a data) s.hif.pendStaged
        { s with hif := { s.hif with pending := none, pendStaged := [], seq := (s.hif.seq + 1) % 2 ^ 16 } })) ∧
    (∀ a data, s.hif.pending = some (a, data) → hostRange a = some .request → 0xF1000 ≤ a → a + data.length ≤ 0xF2000 →
      ∃ t, exec .hostWritePerform s = .next t ∧ t.hif.pending = none ∧ t.hif.seq = (s.hif.seq + 1) % 2 ^ 16 ∧
        t.regs = s.regs ∧ t.dev = s.dev ∧
        (smWf (fun _ => 0#8) s.hif.reqBuf = true → smGetList (fun _ => 0#8) t.hif.reqBuf (a - 0xF1000) data.length = data)) ∧
    (∀ a w rest, hostWord a w s = (.done, rest) → wordsWrite [(a, w)] 0 true s = (1, false, none, rest) ∧
      wordsPerform [(a, w)] (wordsStaged [(a, w)] s) s = rest) ∧
    (∀ a w rest, hostWord a w s = (.staged, rest) → wordsPerform [(a, w)] (wordsStaged [(a, w)] s) s = rest) ∧
    (s.hif.pending = none → exec .hostWritePerform s = .next s) ∧
    (∀ cmd : Byte, cmd ∉ [0x03#8, 0xEB#8, 0x02#8, 0x38#8, 0x05#8, 0x75#8] → exec (.badCmd cmd) s =
      .next (cause Reg.HIF_CAUSE 3 { s with hif := { s.hif with inResponse := false, response := [] } })) ∧
    exec (.hostCsNEarlyRise none) s = .next (cause Reg.HIF_CAUSE 2 (incFld Reg.HIF_CNT2 31 16 s)) ∧
    (∀ k, s.hif.inResponse = true → s.hif.latched = [] → exec (.hostCsNEarlyRise (some k)) s =
      .next (incFld Reg.HIF_CNT2 31 16 { s with hif := { s.hif with inResponse := false, latched := [] } }))

/-! ### The mailbox -/

/-- R527, R528, R568, R595, R596: no mailbox command runs but the one that the mailbox is busy with, nor that one again
while it waits for a record; none is accepted in BOOT; a key command waits for no other: while an entry is being
written it answers 1; an unknown code answers 7; a reply shows its result, its length and its bytes, in state done,
and an acknowledgement makes the mailbox idle. R392, R390, R528, R530, R538: INFO and the readers. A reply of
records gives the number of those missing, then 32 bytes for each, zeros for a missing one, and result 8 when all
are missing. -/
def Obligations.MailboxCommands : Prop :=
  (∀ (res : Nat) (data : List Byte) (s : State),
    (∀ p ∈ [(Instr.info, 0x01), (.ttOpen, 0x10), (.ttWrite, 0x11), (.ttClose, 0x12), (.ttAbort, 0x13), (.ttRead, 0x14),
        (.fwOpen, 0x20), (.fwWrite, 0x21), (.fwClose, 0x22), (.fwActivate, 0x23), (.fwConfirm, 0x24), (.fwRead, 0x25),
        (.evrRead, 0x30), (.evrFlush, 0x31), (.logRead, 0x32), (.archRead, 0x33), (.jnlRead, 0x34), (.keyInfo, 0x40),
        (.keyGenerate, 0x41), (.keyImport, 0x42), (.keyDerive, 0x43), (.keyExport, 0x44), (.keyDestroy, 0x45),
        (.keyRemask, 0x46), (.compatMask, 0x47), (.compatLoad, 0x48), (.maExtend, 0x49), (.maRead, 0x4A), (.maLog, 0x4B),
        (.encrypt, 0x4C), (.decrypt, 0x4D), (.stationKey, 0x4E), (.attest, 0x50), (.identity, 0x51), (.signerSet, 0x52),
        (.signerInfo, 0x53)],
      (s.hif.mbState ≠ 1 ∨ s.hif.mbWait = true ∨ getFld s Reg.HIF_MB_CMD 7 0 ≠ p.2 → exec p.1 s = .next s) ∧
      (s.hif.mbState = 1 → s.hif.mbWait = false → getFld s Reg.HIF_MB_CMD 7 0 = p.2 → s.dev.mode = .boot →
        exec p.1 s = .next (mbReply 2 [] s)) ∧
      (0x40 ≤ p.2 → s.hif.mbState = 1 → s.hif.mbWait = false → getFld s Reg.HIF_MB_CMD 7 0 = p.2 → s.dev.mode = .hold → s.mgt.recovery = false →
        keyBusy s = true → exec p.1 s = .next (mbReply 1 [] s))) ∧
    (s.hif.mbState = 1 → getFld s Reg.HIF_MB_CMD 7 0 ∉ mbKnown → exec .mbUnknownCommand s = .next (mbReply 7 [] s)) ∧
    (s.hif.mbState = 2 → exec .mbAck s = .next { s with hif := { s.hif with mbState := 0 } }) ∧
    (s.hif.mbState ≠ 2 → exec .mbAck s = .next s) ∧
    (data.length ≤ 4096 →
      let t := mbReply res data s
      t.hif.mbState = 2 ∧ t.hif.mbResult = res ∧ t.hif.mbReply = data.length ∧
        smGetList (fun _ => 0#8) t.hif.repBuf 0 data.length = data ∧ t.dev = s.dev ∧ t.tx = s.tx ∧ t.key = s.key)) ∧
  (∀ (r : List Byte) (s : State),
    let reply (rs : List (Option (List Byte))) : State :=
      let missing := (rs.filter (·.isNone)).length
      mbReply (if missing = rs.length then 8 else 0)
        (leBytes 4 missing ++ rs.flatMap (fun x => x.getD (List.replicate 32 0#8))) s
    let logAt (k : Nat) : Option (List Byte) :=
      let b := nvRead s (0x04800000 + 32 * k) 32
      if k < 65536 ∧ u32 b 0x1C = (crc32c (b.take 0x1C)).toNat ∧ u32 b 0 = k then some b else none
    let archAt (src d : Nat) : Option (List Byte) :=
      let b := nvRead s (archPos src d) 32
      if u32 b 0x1C = (crc32c (b.take 0x1C)).toNat ∧ u16 b 0 = src ∧ u16 b 2 = d then some b else none
    (MbBusy 0x01 r s → exec .info s = .next (mbReply 0 (fit 0#8 32 (leBytes 1 s.mgt.fwSlot ++ leBytes 1 (b2n s.mgt.trial) ++
      wordBytes (getReg s Reg.MGT_FW_VERA) ++ leBytes 2 (if fwGood s 0 = true then (fwCheck s 0).svn else 0) ++
      wordBytes (getReg s Reg.MGT_FW_VERB) ++ leBytes 2 (if fwGood s 1 = true then (fwCheck s 1).svn else 0) ++
      leBytes 2 (fwFloor s) ++ wordBytes (mgtStat s))) s)) ∧
    (MbBusy 0x30 r s → s.mgt.recovery = false → r.length = 7 → 1 ≤ u8 r 6 → u8 r 6 ≤ 127 →
      exec .evrRead s = .next (reply ((List.range (u8 r 6)).map (fun i => evrRecord s (leNat (r.take 6) + i))))) ∧
    (MbTakes 0x31 r s → exec .evrFlush s = .next (mbReply 0 [] (evFlush false s))) ∧
    (MbTakes 0x32 r s → r.length = 5 → 1 ≤ u8 r 4 → u8 r 4 ≤ 127 → u32 r 0 < 65536 →
      exec .logRead s = .next (reply ((List.range (u8 r 4)).map (fun i => logAt (u32 r 0 + i))))) ∧
    (MbTakes 0x33 r s → r.length = 5 → 1 ≤ u8 r 4 → u8 r 4 ≤ 127 →
      u16 r 0 < 2048 ∨ (0x8000 ≤ u16 r 0 ∧ u16 r 0 < 0x8048) →
      exec .archRead s = .next (reply ((List.range (u8 r 4)).map (fun i => archAt (u16 r 0) (u16 r 2 + i))))) ∧
    (MbTakes 0x34 r s → r.length = 9 → u8 r 0 ≤ 15 → u32 r 5 ≤ 4096 → u32 r 1 + u32 r 5 ≤ 0x100000 →
      exec .jnlRead s = .next (mbReply 0 (nvRead s (0x02800000 + u8 r 0 * 0x100000 + u32 r 1) (u32 r 5)) s)))

/-- R71, R72, R457, R528, R529: TT_OPEN erases a slot's magic, opens it and stages it in an open transaction; TT_WRITE
writes its data but the magic; TT_ABORT closes; TT_CLOSE of an image whose CRC holds writes the magic and starts the
check, and answers 7 where it does not; TT_READ reads. Bad arguments answer 3. Whether a write fails after its
retries is open: one that does answers 5 (R527; that the slot is then as before is log entry 89). -/
def Obligations.TimetableWriter : Prop :=
  ∀ (r : List Byte) (s : State),
    let idle (t : State) : State := { t with tx := { t.tx with idleTicks := 0 } }
    let u : State := { s with free := s.free + 1 }
    let done (t : State) : State := if Config.nvFails s.free = true then mbReply 5 [] u else t
    let k := s.dev.writer.getD 0
    let off := u32 r 0
    let len := u32 (nvRead s (ttSlotBase k) 16) 0xC
    let img := leBytes 4 magicDxtt ++ nvRead s (ttSlotBase k + 4) (len - 4)
    let crcOk := u32 (slice img (len - 160) 160) 4 = (crc32c (img.take (len - 160))).toNat
    (MbTakes 0x10 r s → s.dev.mode ≠ .standby → r.length = 1 → u8 r 0 ≤ 1 → s.dev.writer = none → s.mgt.fwWriter = none →
      s.dev.mode = .hold ∨ u8 r 0 ≠ s.dev.activeSlot → s.tx.st ≤ 1 → s.tx.stagedSlot = none →
      ∃ t, exec .ttOpen s = .next (done (mbReply 0 [] t)) ∧ t.dev.writer = some (u8 r 0) ∧
        (s.tx.st = 1 → t.tx.stagedSlot = some (u8 r 0)) ∧ (s.tx.st = 0 → t.tx.stagedSlot = none) ∧
        (NvWf s → nvRead t (ttSlotBase (u8 r 0)) 4 = List.replicate 4 0#8)) ∧
    (MbTakes 0x11 r s → s.dev.writer.isSome = true → s.tx.stagedSlot = none →
      (4 < r.length → off % 8 = 0 → (r.length - 4) % 8 = 0 → off + (r.length - 4) ≤ 16777216 →
        exec .ttWrite s = .next (done (mbReply 0 [] (idle (nvWrite (ttSlotBase k + off)
          (if off = 0 then List.replicate 4 0#8 ++ (r.drop 4).drop 4 else r.drop 4) u))))) ∧
      (¬ (4 < r.length ∧ off % 8 = 0 ∧ (r.length - 4) % 8 = 0 ∧ off + (r.length - 4) ≤ 16777216) →
        exec .ttWrite s = .next (mbReply 3 [] s))) ∧
    (MbTakes 0x12 r s → s.dev.writer.isSome = true → s.tx.stagedSlot = none → r.length = 4 → u32 r 0 = len → 224 ≤ len →
      len ≤ 16777216 →
      (¬ crcOk → exec .ttClose s = .next (mbReply 4 [7#8] (idle s))) ∧
      (crcOk → ∃ t, exec .ttClose s = .next (done (mbReply 0 [0#8] t)) ∧ t.dev.writer = none ∧ (slotRep t k).checking = true ∧
        (NvWf s → nvRead t (ttSlotBase k) 4 = leBytes 4 magicDxtt))) ∧
    (MbTakes 0x13 r s → s.dev.writer.isSome = true →
      exec .ttAbort s = .next (mbReply 0 [] (idle { s with dev := { s.dev with writer := none } }))) ∧
    (MbTakes 0x14 r s → r.length = 9 → u8 r 0 ≤ 1 → u32 r 5 ≤ 4096 → u32 r 1 + u32 r 5 ≤ 16777216 →
      exec .ttRead s = .next (mbReply 0 (nvRead s (ttSlotBase (u8 r 0) + u32 r 1) (u32 r 5)) s))

/-- R522, R523, R525, R528, R529: the firmware update path. FW_OPEN of a slot that does not run erases its magic;
FW_WRITE writes all but the magic; FW_CLOSE answers the check code and gives a good image its magic; FW_ACTIVATE of
a good image and FW_CONFIRM of a trial ask for the pointer record that names it. Whether a write fails after its
retries is open: one that does answers 5 (R527; that the slot is then as before is log entry 89). -/
def Obligations.FirmwareUpdate : Prop :=
  ∀ (r : List Byte) (s : State),
    let u : State := { s with free := s.free + 1 }
    let done (t : State) : State := if Config.nvFails s.free = true then mbReply 5 [] u else t
    let k := s.mgt.fwWriter.getD 0
    let base (k : Nat) : Nat := 0x02000000 + k * 0x00400000
    let p := s.mgt.fwPtr.getD (0, 0, 0, 0, 0)
    let pointer (active state confirmed tries floor : Nat) : State :=
      let bytes := leBytes 1 active ++ leBytes 1 state ++ leBytes 1 confirmed ++ leBytes 1 tries ++ leBytes 2 floor ++
        List.replicate 10 0#8
      jnlRequest { kind := 0xA, inst := 0, payload := bytes, owner := .fwPtr (getReg s Reg.HIF_MB_SEQ) }
        { s with hif := { s.hif with mbWait := true } }
    (MbTakes 0x20 r s → r.length = 1 → u8 r 0 ≤ 1 → s.mgt.fwWriter = none → s.dev.writer = none →
      s.mgt.fwRunning = false ∨ u8 r 0 ≠ s.mgt.fwSlot →
      exec .fwOpen s = .next (done (mbReply 0 [] (fwVersions
        { nvWrite (base (u8 r 0)) (List.replicate 4 0#8) u with mgt := { s.mgt with fwWriter := some (u8 r 0) } })))) ∧
    (MbTakes 0x21 r s → s.mgt.fwWriter.isSome = true → 4 < r.length → u32 r 0 % 8 = 0 → (r.length - 4) % 8 = 0 →
      u32 r 0 + (r.length - 4) ≤ 4194304 →
      exec .fwWrite s = .next (done (mbReply 0 [] (nvWrite (base k + u32 r 0)
        (if u32 r 0 = 0 then List.replicate 4 0#8 ++ (r.drop 4).drop 4 else r.drop 4) u)))) ∧
    (MbTakes 0x22 r s → s.mgt.fwWriter.isSome = true →
      ((fwCheck s k).code ≠ 0 → exec .fwClose s = .next (mbReply 4 (leBytes 1 (fwCheck s k).code) s)) ∧
      ((fwCheck s k).code = 0 → exec .fwClose s = .next (done (mbReply 0 [0#8] (fwVersions
        { nvWrite (base k) [0x44#8, 0x58#8, 0x46#8, 0x57#8] u with mgt := { s.mgt with fwWriter := none } }))))) ∧
    (MbTakes 0x23 r s → r.length = 1 → u8 r 0 ≤ 1 →
      (fwGood s (u8 r 0) = true → exec .fwActivate s = .next (pointer (u8 r 0) 1 p.2.2.1 0 p.2.2.2.2)) ∧
      (fwGood s (u8 r 0) = false → exec .fwActivate s = .next (mbReply 3 [] s))) ∧
    (MbTakes 0x24 r s →
      (s.mgt.trial = true →
        exec .fwConfirm s = .next (pointer p.1 0 p.1 p.2.2.2.1 (max p.2.2.2.2 s.mgt.fwSvn))) ∧
      (s.mgt.trial = false → exec .fwConfirm s = .next (mbReply 2 [] s))) ∧
    (MbTakes 0x25 r s → r.length = 9 → u8 r 0 ≤ 1 → u32 r 5 ≤ 4096 → u32 r 1 + u32 r 5 ≤ 4194304 →
      exec .fwRead s = .next (mbReply 0 (nvRead s (base (u8 r 0) + u32 r 1) (u32 r 5)) s))

/-! ### The key store -/

/-- R551, R552, R555 to R558, R565, R567 to R569: the commands that write an entry. Each that is in order makes the
pending write of its entry (a destroy: of an empty pointer), with the reply that follows when it is durable; one
without a healthy random source, or with a wrapping slot that does not serve, answers 2, and a blob that does not
unwrap 4. R554, R555, R558: a key is held as two shares; a re-mask that is due gives the entry fresh shares in the
half not in force, and when its pointer is durable that half is in force, the other is zero, and the key is the same
as before. -/
def Obligations.KeyWritesAndRemask : Prop :=
  (∀ (r : List Byte) (s : State),
    let e := u8 r 0
    let gen (e : Nat) : List Byte := leBytes 4 (((keyEntry s e).ptr.gen + 1) % 2 ^ 32)
    let rng := s.key.rngOk = true
    let serves (w attr : Nat) : Prop := w < 64 ∧ keyLoaded s w = true ∧ (keyEntry s w).ptr.attr = attr
    (KeyTakes 0x41 r s → r.length = 5 → keyAttrsOk e (u8 r 1) (u8 r 2) (u8 r 3) = true →
      (rng → exec .keyGenerate s = .next (keyLoad e (u8 r 1) (u8 r 2) (u8 r 3) (u8 r 4)
        (beBytes 32 (Config.random s.free).toNat) (gen e) { s with free := s.free + 1 })) ∧
      (¬ rng → exec .keyGenerate s = .next (mbReply 2 [] s))) ∧
    (KeyTakes 0x42 r s → r.length = 50 → e < 56 →
      (¬ (serves (u8 r 1) 3 ∧ rng) → exec .keyImport s = .next (mbReply 2 [] s)) ∧
      (serves (u8 r 1) 3 → rng →
        (aesUnwrap (keyEffective s (u8 r 1)) (r.drop 2) = none →
          exec .keyImport s = .next (mbReply 4 [] (causeS Reg.KEY_CAUSE 3 e s))) ∧
        (∀ b, aesUnwrap (keyEffective s (u8 r 1)) (r.drop 2) = some b → u8 b 4 = e →
          keyAttrsOk e (u8 b 0) (u8 b 1) (u8 b 2) = true →
          exec .keyImport s = .next (keyLoad e (u8 b 0) (u8 b 1) (u8 b 2) (u8 b 3) (b.drop 8) (gen e) s)))) ∧
    (KeyTakes 0x43 r s → r.length = 11 + u8 r 10 → u8 r 10 ≤ 64 → u8 r 6 = e →
      keyAttrsOk e (u8 r 2) (u8 r 3) (u8 r 4) = true → serves (u8 r 1) 4 → rng →
      u8 r 4 = 0 ∨ bit (keyEntry s (u8 r 1)).ptr.flags 0 = true →
      exec .keyDerive s = .next (keyLoad e (u8 r 2) (u8 r 3) (u8 r 4) (u8 r 5)
        (hkdf384 [] (keyEffective s (u8 r 1)) (r.drop 11) 32) (gen e) s)) ∧
    (KeyTakes 0x45 r s → r.length = 1 → e < 64 ∨ e = 0x48 →
      (keyLoaded s e = true → ∃ t, exec .keyDestroy s = .next t ∧
        t.key = { s.key with wr := some ⟨e, { (keyEntry s e).ptr with st := 0 }, false, true, true, [],
          getReg s Reg.HIF_MB_SEQ⟩ } ∧ t.hif = { s.hif with mbWait := true } ∧ t.dev = s.dev) ∧
      (keyLoaded s e = false → exec .keyDestroy s = .next (mbReply 2 [] s))) ∧
    (KeyTakes 0x46 r s → r.length = 1 → rng →
      (e = 0xFF → exec .keyRemask s = .next (mbReply 0 [] (setKey { s.key with round := keyMaskables s } s))) ∧
      (e < 56 ∨ e = 0x48 → keyMaskable s e = true →
        exec .keyRemask s = .next (mbReply 0 [] (setKey { s.key with
          round := (keyMaskables s).filter (fun x => x == e || s.key.round.contains x) } s)))) ∧
    (KeyTakes 0x47 r s → r.length = 49 → serves e 3 → rng →
      ∀ b, aesUnwrap (keyEffective s e) (r.drop 1) = some b → u8 b 0 = 2 →
        exec .compatMask s = .next (keyLoad 0x48 2 (u8 b 1) 0 0 (b.drop 8) [] s)) ∧
    (KeyTakes 0x48 r s → r.length = 37 → 56 ≤ e → e ≤ 63 → u32 r 33 < 16 → 1 ≤ u32 r 33 % 8 → u32 r 33 % 8 ≤ 4 →
      exec .compatLoad s = .next (keyWrite e { type := u32 r 33 / 8, attr := u32 r 33 % 8 } (r.drop 1) false true (gen e) s)) ∧
    (KeyTakes 0x52 r s → r.length = 196 → 1 ≤ e → e ≤ 7 → 1 ≤ u8 r 1 → u8 r 1 ≤ 3 → (keyEntry s (0x40 + e)).ptr.st = 0 →
      s.dev.mode = .hold → zeros (slice r 2 97) 0 97 = false → (ecPub (slice r 2 97)).isSome = true →
      exec .signerSet s = .next (keyWrite (0x40 + e) { attr := u8 r 1 } (slice r 2 97) false true [] s)) ∧
    exec .rngHealthFail s = .next (cause Reg.KEY_CAUSE 2 (setKey { s.key with rngOk := false } s)) ∧
    exec .rngReseed s = .next (setKey { s.key with rngOk := true } s)) ∧
  (∀ (e : Nat) (rest : List Nat) (s : State), s.key.round = e :: rest → keyMaskable s e = true → keyBusy s = false →
    s.dev.mode ≠ .boot → s.key.rngOk = true → smWf (fun _ => ({} : KeyEntry)) s.key.entries = true →
    ∃ t, exec .remaskDue s = .next t ∧ t.key.wr.isSome = true ∧ (∀ f, keyStored t f = keyStored s f) ∧
      (let u := keyDurable true t;
        u.key.wr = none ∧ keyNative (keyEntry u e) = keyNative (keyEntry s e) ∧
        (keyEntry u e).ptr.half = (if (keyEntry s e).ptr.half = 0 then 1 else 0) ∧ e ∉ u.key.round ∧
        (∀ f, f ≠ e → keyEntry u f = keyEntry s f)))

/-- R552, R554, R561 to R564, R566, R568, R572: the commands that use keys and accumulators and write no entry. -/
def Obligations.KeyServices : Prop :=
  ∀ (r : List Byte) (s : State),
    let e := u8 r 0
    let rng := s.key.rngOk = true
    let serves (w attr : Nat) : Prop := w < 64 ∧ keyLoaded s w = true ∧ (keyEntry s w).ptr.attr = attr
    let n := u16 r 1
    let rnd (i : Nat) : List Byte := beBytes 32 (Config.random (s.free + i)).toNat
    (KeyTakes 0x40 r s → r.length = 1 → e < 64 → keyLoaded s e = true →
      let p := (keyEntry s e).ptr
      exec .keyInfo s = .next (mbReply 0 (leBytes 1 p.st ++ leBytes 1 p.type ++ leBytes 1 p.attr ++ leBytes 1 p.flags ++
        leBytes 1 p.mask ++ leBytes 4 p.gen ++ (aesCmac (keyEffective s e) (List.replicate 16 0#8)).take 4 ++
        leBytes 4 p.maskTime) s)) ∧
    (KeyTakes 0x40 r s → r.length = 1 → 56 ≤ e → e ≤ 63 → (keyEntry s 0x48).ptr.st = 0 →
      ∃ rest, exec .keyInfo s = .next (mbReply 0 (0#8 :: rest) { s with free := s.free + 1 })) ∧
    (KeyTakes 0x44 r s → r.length = 2 → s.dev.mode = .hold ∨ s.dev.mode = .ready → e < 64 → keyLoaded s e = true →
      bit (keyEntry s e).ptr.flags 0 = true → serves (u8 r 1) 3 →
      exec .keyExport s = .next (mbReply 0 (aesWrap (keyEffective s (u8 r 1)) (keyBlobHead s e ++ keyStored s e)) s)) ∧
    (KeyTakes 0x49 r s → r.length = 49 → 5 ≤ e → e ≤ 7 → s.key.ma.length = 8 →
      ∃ t, exec .maExtend s = .next (mbReply 0 (sha384 (nth s.key.ma e [] ++ r.drop 1)) t) ∧
        t.key.ma = s.key.ma.set e (sha384 (nth s.key.ma e [] ++ r.drop 1)) ∧ t.key.entries = s.key.entries ∧
        t.key.maLog.length = min (max 64 s.key.maLog.length) (s.key.maLog.length + 1)) ∧
    (KeyTakes 0x4A r s →
      exec .maRead s = .next (mbReply 0 (s.key.ma.flatten ++ s.key.maCnt.map (fun n => BitVec.ofNat 8 n)) s)) ∧
    (KeyTakes 0x4B r s → r.length = 2 → 1 ≤ u8 r 1 → u8 r 1 ≤ 63 →
      (e + u8 r 1 ≤ s.key.maLog.length → exec .maLog s = .next (mbReply 0 (slice s.key.maLog e (u8 r 1)).flatten s)) ∧
      (s.key.maLog.length < e + u8 r 1 → exec .maLog s = .next (mbReply 8 [] s))) ∧
    (KeyTakes 0x4C r s → 3 + n ≤ r.length → n ≤ 256 → r.length - 3 - n ≤ 3584 → serves e 1 → rng →
      let g := gcmEnc (keyEffective s e) ((rnd 0).take 12) (slice r 3 n) (r.drop (3 + n))
      exec .encrypt s = .next (mbReply 0 ((rnd 0).take 12 ++ g.1 ++ g.2) { s with free := s.free + 1 })) ∧
    (KeyTakes 0x4D r s → 3 + n + 28 ≤ r.length → n ≤ 256 → r.length - (3 + n) - 28 ≤ 3584 → serves e 2 →
      let b := r.drop (3 + n)
      let m := gcmDec (keyEffective s e) (b.take 12) (slice r 3 n) (slice b 12 (b.length - 28)) (b.drop (b.length - 16))
      (∀ x, m = some x → exec .decrypt s = .next (mbReply 0 x s)) ∧
      (m = none → exec .decrypt s = .next (mbReply 4 [] s))) ∧
    (KeyTakes 0x4E r s → r.length = 5 → u16 r 1 < 2048 → u8 r 3 < 8 → serves e 4 → (keyEntry s e).ptr.type = 1 →
      serves (u8 r 4) 3 →
      exec .stationKey s = .next (mbReply 0 (aesWrap (keyEffective s (u8 r 4)) ([0#8] ++ (List.range 4).map Config.ksHeader ++
        List.replicate 3 0#8 ++ stationKey (keyEffective s e) (u16 r 1) (u8 r 3))) s)) ∧
    (KeyTakes 0x50 r s → r.length = 32 → rng → s.dev.mode = .hold →
      ∃ st sg, exec .attest s = .next (mbReply 0 (st ++ sg) { s with free := s.free + 2 }) ∧
        st = attestStatement s r (if s.mgt.fwSlot = 0 then getReg s Reg.MGT_FW_VERB else getReg s Reg.MGT_FW_VERA)
          (if s.mgt.fwSlot = 0 then getReg s Reg.MGT_FW_VERA else getReg s Reg.MGT_FW_VERB) ∧
        sg = (ecdsaSign (Config.identityKey % (ecN - 1) + 1) (beNat (rnd 0 ++ rnd 1)) (sha384 st)).1 ++
          (ecdsaSign (Config.identityKey % (ecN - 1) + 1) (beNat (rnd 0 ++ rnd 1)) (sha384 st)).2) ∧
    (KeyTakes 0x51 r s → exec .identity s = .next (mbReply 0 (ecPubOf Config.identityKey ++
      leBytes 2 (Config.certificate.take 2048).length ++ Config.certificate.take 2048) s)) ∧
    (KeyTakes 0x53 r s → r.length = 1 → e < 8 →
      (∀ x, signer s e = some x → exec .signerInfo s = .next (mbReply 0 (leBytes 1 x.1 ++ fit 0#8 97 x.2) s)) ∧
      (signer s e = none → exec .signerInfo s = .next (mbReply 8 [] s)))

/-! ### Field channels and metering -/

/-- R339, R345, R346, R348: a conversion in range joins its channel's mean, and the primary word takes the mean with
quality GOOD; a conversion that fails empties the mean, and the word takes the hold value with SUBST or keeps its
value with BAD. For a channel of mode 1, 2 or 6 of a single device; in mode 1 the range fails above 105 % of its
limit. -/
def Obligations.Conversions : Prop :=
  ∀ (c code : Nat) (v : Rat) (full exc : Bool) (r : Channel) (s : State), (theTt s).chan c = some r →
    r.mode = 1 ∨ r.mode = 2 ∨ r.mode = 6 → c < 512 → (theTt s).redundancy.mode = 0 → s.dev.mode ≠ .standby →
    domOn s 15 = true → blind s r = false → scanNext s (c / 16) = some c → s.chn.ciNext = [] → smWf (imgInit 2) s.img.ci = true →
    smWf (fun _ => ({} : ChanState)) s.chn.chans = true →
    let rd := convRead ((theTt s).platform (c / 16)) r v 0 full exc
    let x := chanSt s c
    let lim : Rat := if r.range = 0 then 2500 else if r.range = 1 then 625 else if r.range = 2 then 625 / 4 else 625 / 16
    ∃ t, exec (.conversionDone c code v 0 full exc) s = .next t ∧
      (∀ i, i ≠ c → imgGet t 2 i = imgGet s 2 i) ∧ (∀ d, d ≠ c → chanSt t d = chanSt s d) ∧
      (rd.bad = false →
        let vals := (rd.val.getD 0 :: x.vals).take (max 1 r.p0)
        imgGet t 2 c = mkWord (f32OfRat (vals.foldl (· + ·) 0 / (vals.length : Rat))) .good ∧ (chanSt t c).vals = vals) ∧
      (rd.bad = true → (chanSt t c).vals = [] ∧ imgGet t 2 c =
        (if bit r.flags 0 = true then mkWord r.hold .subst else mkWord (wordVal (imgGet s 2 c)) .bad)) ∧
      (r.mode = 1 → rd.val = some v ∧ (rd.bad = true ↔ full = true ∨ exc = true ∨ lim * 105 / 100 < |v| * 1000))

/-- R351 to R353: an accepted edge of a digital input: the first level is written GOOD and is no edge; a change counts
in the secondary word; chatter makes the primary word BAD until it exits; a level held too long is reported once. -/
def Obligations.DigitalInputs : Prop :=
  ∀ (c us : Nat) (level : Bool) (r : Channel) (s : State), (theTt s).chan c = some r → r.mode = 7 → blind s r = false →
    domOn s 15 = true →
    let x := chanSt s c
    let b := level != bit r.p1 15
    let word (b : Bool) : DWord := mkWord (if b = true then 0x3F800000#32 else 0#32) .good
    let now := s.pwr.tick * 15625 + 16 * us
    let recent (es : List Nat) : List Nat := es.filter (fun t => decide (now ≤ t + r.p0 * 16000))
    (x.level = none → exec (.acceptedEdge c level us) s =
      .next (ciPrimary c (word b) (setChan c { x with level := some b, highTick := s.pwr.tick } s))) ∧
    (x.level = some b → exec (.acceptedEdge c level us) s = .next s) ∧
    (x.level = some (!b) → r.p0 = 0 → x.chatter = false → exec (.acceptedEdge c level us) s =
      .next (ciPrimary c (word b) (ciSecondary c (mkWord (wordVal (ciOwn s (512 + c)) + 1) .good)
        (setChan c { x with
          level := some b
          edges := []
          stuck := x.stuck && b
          highTick := if b = true then s.pwr.tick else x.highTick } s)))) ∧
    (x.level = some (!b) → r.p0 ≠ 0 → x.chatter = false → r.p1 % 256 < (recent (x.edges ++ [now])).length →
      r.channel = c → ∃ t u, exec (.acceptedEdge c level us) s = .next t ∧ t = causeS Reg.CHN_CAUSE 2 c u ∧
        (smWf (fun _ => ({} : ChanState)) s.chn.chans = true → (chanSt u c).chatter = true)) ∧
    (x.chatter = true → (recent x.edges).length ≤ r.p1 % 256 / 2 → exec (.chatterExit c us) s =
      .next (ciPrimary c (word (x.level.getD false)) (setChan c { x with chatter := false, edges := recent x.edges } s))) ∧
    (bits r.p1 13 8 ≠ 0 → x.level = some true → x.stuck = false →
      bits r.p1 13 8 * 3600 * 1024 < s.pwr.tick - x.highTick →
      exec (.stuckTimeout c) s = .next (causeS Reg.CHN_CAUSE 3 c (setChan c { x with stuck := true } s))) ∧
    (bits r.p1 13 8 = 0 → exec (.stuckTimeout c) s = .next s)

/-- R355, R360, R374, R396: a counted edge outside the filter window counts one modulo 2^64 and opens it; an edge inside
is an overrate, which is counted and not the pulse; the window closes. A PWM period takes the channel's present
target. A queued test pulse leaves the queue when its channel has rested. -/
def Obligations.PulsesAndPwm : Prop :=
  ∀ (n c : Nat) (s : State),
    let x := pcGet s n
    (x.configured = true → chanBlind s x.channel = false → x.winOpen = false → exec (.countedEdge n) s =
      .next (pcSet n { x with winOpen := true, count := (x.count + 1) % 2 ^ 64, hwCount := x.hwCount + 1 } s)) ∧
    (x.configured = true → chanBlind s x.channel = false → x.winOpen = true → s.dev.mode = .hold → exec (.countedEdge n) s =
      .next (causeS Reg.CHN_CAUSE 1 x.channel (setBit (Reg.CHN_PC_STAT + 0x10 * n) 16 true
        (incFld (Reg.CHN_PC_STAT + 0x10 * n) 15 0 (pcSet n { x with hwOver := true } s))))) ∧
    (x.configured = false ∨ chanBlind s x.channel = true → exec (.countedEdge n) s = .next s) ∧
    (x.winOpen = true → exec (.filterWindowEnd n) s = .next (pcSet n { x with winOpen := false } s)) ∧
    (∀ r, (theTt s).chan c = some r → r.channel = c → domOn s 15 = true →
      (r.mode = 19 → ∀ v, chnTarget s r = some v → exec (.pwmPeriodStart c) s =
        .next (setChan c { chanSt s c with duty := max 0 (min 1 (f32RatD v)) } s)) ∧
      (r.mode = 20 → s.dev.mode = .run → 0 < (chanSt s c).tpQueue →
        (∀ t, (chanSt s c).pulseTick = some t → 2 * r.p1 * 1024 ≤ (s.pwr.tick - t) * 1000) →
        exec (.testPulse c) s = .next (setChan c { chanSt s c with
            pulseTick := some s.pwr.tick
            tpQueue := (chanSt s c).tpQueue - 1 }
          s)) ∧
      (r.mode = 20 → (chanSt s c).tpQueue = 0 → exec (.testPulse c) s = .next s))

/-- R373: adding a quantity to a register of a meter loses nothing: the register counts the whole units modulo 2^64, the
residue keeps the fraction, which stays below one unit, and no other register changes. -/
def Obligations.RegistersAccumulate : Prop :=
  ∀ (i : Nat) (x : Rat) (m : MeterSt), i < 10 → m.regs.length = 10 → m.res.length = 10 → 0 ≤ nth m.res i 0 + x →
    let p := addQty i x m
    (p.2 : Rat) + nth p.1.res i 0 = nth m.res i 0 + x ∧ 0 ≤ nth p.1.res i 0 ∧ nth p.1.res i 0 < 1 ∧
    nth p.1.regs i 0 = (nth m.regs i 0 + p.2) % 2 ^ 64 ∧
    (∀ j, j ≠ i → nth p.1.regs j 0 = nth m.regs j 0 ∧ nth p.1.res j 0 = nth m.res j 0)

/-- R370, R377, R379, R380, R384, R391: the meters' timed work: an interval closes at its calendar boundary with its
record at the head of the ring of 96; thermal meters sample once each 256 ticks and electrical ones each window, in
index order, during a power-fail save too (R417, R418) but not in a member that aligns (R507); saves fall due, and
one by command in HOLD is asked for at once; the midnight run writes each record at its place and ends. -/
def Obligations.MeteringCommands : Prop :=
  ∀ (m : Nat) (wins : List WaveIn) (secondEnd : Bool) (fails : List Nat) (s : State),
    let x := meterGet s m
    let counting := hwStates s.dev.mode = true
    (∀ r, meterRec (theTt s) m = some r → domOn s 16 = true → counting → s.mgt.cal.valid = true → x.configured = true →
      (x.ivlStart / ivlSeconds r.interval + 1) * ivlSeconds r.interval ≤ s.mgt.cal.seconds →
      smWf (fun _ => ({} : MeterSt)) s.mtr.meters = true →
      ∃ t, exec (.intervalClose m) s = .next t ∧
        (meterGet t m).ring = (ivlRecord m r.interval x :: x.ring).take 96 ∧ (meterGet t m).ivlBase = x.regs ∧
        (meterGet t m).regs = x.regs ∧ (meterGet t m).ivlErr = 0 ∧
        (meterGet t m).ivlStart = s.mgt.cal.seconds / ivlSeconds r.interval * ivlSeconds r.interval ∧
        (∀ k, k ≠ m → meterGet t k = meterGet s k)) ∧
    (s.dev.mode ≠ .hold ∨ s.mtr.started = false →
      exec .totalsSave s = .next { s with mtr := { s.mtr with saveDue := some 1 } }) ∧
    (s.dev.mode = .hold → s.mtr.started = true → exec .totalsSave s = .next (totalsRequest 1 .totals s)) ∧
    (counting → getFld s Reg.MTR_SAVE 11 0 * 1024 ≤ s.pwr.tick - s.mtr.saveTick → exec .totalsSavePeriodic s =
      .next { s with mtr := { s.mtr with saveTick := s.pwr.tick, saveDue := some (s.mtr.saveDue.getD 0) } }) ∧
    (domOn s 16 = true → counting → (s.dev.mode = .standby → computes s = true) → s.pwr.tick % 256 = 0 → s.mtr.sampleTick ≠ some s.pwr.tick →
      exec .thermalSample s =
        .next (totalsBoundary (forMeters thermalOne { s with mtr := { s.mtr with sampleTick := some s.pwr.tick } }))) ∧
    (s.mtr.sampleTick = some s.pwr.tick ∨ domOn s 16 = false → exec .thermalSample s = .next s) ∧
    (domOn s 15 = true → domOn s 16 = true → counting → (s.dev.mode = .standby → s.red.aligning = false) → exec (.waveformWindow wins secondEnd) s =
      .next (forMeters (elecOne wins secondEnd) (forL wins s waveWords))) ∧
    (s.dev.mode = .standby → s.red.aligning = true →
      exec (.waveformWindow wins secondEnd) s = .next s ∧ exec .thermalSample s = .next s) ∧
    (∀ day recs, s.mtr.archDue = some (day, recs) → NvWf s → RegsWf s →
      (∀ p ∈ recs, p.2.length = 32 ∧ p.1 ∉ fails ∧ ∀ q ∈ recs, q ≠ p → archPos q.1 day ≠ archPos p.1 day) →
      ∃ t, exec (.midnightArchive none fails) s = .next t ∧ t.mtr.archDue = none ∧
        getFld t Reg.MTR_ARCH 15 0 = day % 65536 ∧ ∀ p ∈ recs, nvRead t (archPos p.1 day) 32 = p.2) ∧
    (∀ day recs n, s.mtr.archDue = some (day, recs) → recs.take n = [] →
      exec (.midnightArchive (some n) fails) s = .next { s with mtr := { s.mtr with archDue := some (day, recs.drop n) } })

/-! ### Station link -/

/-- R111, R124, R125: in the join phase every line sends a join train at its ticks: a time car, the output cars and a
join car, under the line's next train number; and a line that has sent SLK_JOIN_LIM trains ends its join phase, with
the last one SLK_CAUSE.join_done. R94, R127, R104, R613: a frame that is discarded is counted as bad or foreign; a
station long without inputs reads BAD; a higher epoch waits until its record is durable; the link poll takes the
level of every used port and reports a lost through-mode link. -/
def Obligations.JoinTrainsAndPolls : Prop :=
  (∀ s : State, RegsWf s → s.slk.lines.length = 8 →
    (trainsLeave s = true → joinTime s = true → s.slk.joinTick ≠ some s.pwr.tick →
      ∃ t, exec .joinTrainDepart s = .next t ∧ t.slk.joinTick = some s.pwr.tick ∧ t.slk.stns = s.slk.stns ∧ t.img = s.img ∧
        ∀ p < 8,
          let x := lineSt s p
          let y := lineSt t p
          let outs := (((theTt s).line p).stations + 11) / 12
          (p ∈ headPorts (theTt s) → x.joinPhase = true → x.round < joinLimit s →
            y.train = some x.next ∧ y.next = (x.next + 1) % 2 ^ 32 ∧ y.regular = false ∧ y.round = satInc 16 x.round ∧
            y.epoch = (getReg s Reg.SLK_EPOCH).toNat ∧ y.cmds = [] ∧
            y.cars.map (·.kind) = [1] ++ List.replicate outs 2 ++ [4] ∧ (∀ c ∈ y.cars, c.returned = false) ∧
            getReg t (Reg.SLK_LTRAIN + 0x40 * p) = BitVec.ofNat 32 x.next ∧
            getReg t (Reg.SLK_LCNT_TX + 0x40 * p) = getReg s (Reg.SLK_LCNT_TX + 0x40 * p) + BitVec.ofNat 32 (outs + 2)) ∧
          (p ∉ headPorts (theTt s) ∨ x.joinPhase = false ∨ joinLimit s ≤ x.round → y = x)) ∧
    (∃ t, exec .joinPhaseEnd s = .next t ∧
      let ends (p : Nat) : Prop := p ∈ headPorts (theTt s) ∧ joinLimit s ≤ (lineSt s p).round ∧ (lineSt s p).joinPhase = true
      (∀ p < 8, (ends p → lineSt t p = { lineSt s p with joinPhase := false, joinDone := true }) ∧
        (¬ ends p → lineSt t p = lineSt s p)) ∧
      ((∃ p, ends p) → (∀ p ∈ headPorts (theTt s), (lineSt t p).joinPhase = false) → getBit t Reg.SLK_CAUSE 5 = true) ∧
      ((∀ p, ¬ ends p) → t = s))) ∧
  ((∀ (p : Nat) (f : List Byte) (s : State), thruForwards s p = false →
    (frameOk f = false → exec (.frameDiscard p f) s = .next (incFld (Reg.SLK_LCNT_FCS + 0x40 * p) 15 0 s)) ∧
    (frameOk f = true → (∀ c, carOf (framePayload f) = some c → (lineSt s p).train ≠ some c.train) →
      exec (.frameDiscard p f) s = .next (incFld (Reg.SLK_LCNT_FCS + 0x40 * p) 31 16 s)) ∧
    (∀ c, rxJudge s p f = .car c → exec (.frameDiscard p f) s = .next s)) ∧
  (∀ (n : Nat) (r : Station) (s : State), Canonical s → (headRoster (theTt s)).find? (fun r => r.station == n) = some r →
    trainsRun s = true → (stnSt s n).state ≠ 2 → (stnSt s n).got = none →
    (if ((theTt s).line r.line).staleHeadways = 0 then 3 else ((theTt s).line r.line).staleHeadways) ≤ (stnSt s n).missed →
    ∃ t, exec (.presenceStaleExpire n) s = .next t ∧ t = { s with img := t.img } ∧
      (∀ k < 14, wordQ (imgGetWork t 0 (16 * n + k)) = .bad ∧
        wordVal (imgGetWork t 0 (16 * n + k)) = wordVal (imgGetWork s 0 (16 * n + k))) ∧
      (∀ i, i < 16 * n ∨ 16 * n + 14 ≤ i → imgGetWork t 0 i = imgGetWork s 0 i)) ∧
  (∀ (e : Nat) (s : State), s.mgt.cal.valid = true → e = s.mgt.cal.seconds / (3600 * (theTt s).security.epochHours) →
    hwStates s.dev.mode = true → s.slk.epochWait = none →
    ((getReg s Reg.SLK_EPOCH).toNat < e → ∃ t, exec .epochAdvance s = .next t ∧ t.slk.epochWait = some e ∧
      t.key.epochHigh = s.key.epochHigh ∧ getReg t Reg.SLK_EPOCH = getReg s Reg.SLK_EPOCH) ∧
    (e ≤ (getReg s Reg.SLK_EPOCH).toNat → exec .epochAdvance s = .next s)) ∧
  (∀ (up : Nat) (s : State), RegsWf s → s.dev.tt.isSome = true → s.pwr.tick % 64 = 0 → s.slk.lines.length = 8 →
    ∃ t, exec (.phyLinkPoll up) s = .next t ∧ ∀ p < 8,
      (((theTt s).line p).mode = 0 → lineSt t p = lineSt s p) ∧
      (((theTt s).line p).mode ≠ 0 → lineSt t p = { lineSt s p with link := gateOpen s && bit up p }) ∧
      (((theTt s).line p).mode = 3 → (lineSt s p).link = true → gateOpen s = true → bit up p = false →
        getBit t Reg.SLK_CAUSE 7 = true)))

/-- R90, R91, R94, R111, R113, R141: a car of the current train comes back: it is counted and marked with its masks; a
late one is otherwise ignored; a time car gives the round trip and what the next time car carries, and an ordinary
car of a ring shows a break or its repair. A row whose frame is no such car does nothing. -/
def Obligations.ReturnedCars : Prop :=
  ∀ (p rt : Nat) (f : List Byte) (s : State), RegsWf s → (∀ r ∈ (theTt s).roster, r.station < 2048) →
    ∀ r ∈ [(1, Instr.timeCarReturn p f rt), (2, .outputCarReturn p f), (3, .inputCarReturn p f), (4, .joinCarReturn p f)],
      ((∀ c, rxJudge s p f = .car c → c.kind ≠ r.1) → exec r.2 s = .next s) ∧
      (∀ c, rxJudge s p f = .car c → c.kind = r.1 → p < 8 → s.slk.lines.length = 8 → c.index < (lineSt s p).cars.length →
        let x := lineSt s p
        let car := nth x.cars c.index {}
        let late := x.regular && s.dev.siPublished
        let ring := ((theTt s).line p).mode = 2 ∧ 0 < ((theTt s).line p).stations ∧ c.guest = false ∧ late = false
        ∃ t, exec r.2 s = .next t ∧
          getReg t (Reg.SLK_LCNT_RX + 0x40 * p) = getReg s (Reg.SLK_LCNT_RX + 0x40 * p) + 1 ∧
          (car.returned = false →
            nth (lineSt t p).cars c.index {} = { car with returned := true, late := late, ack := c.ack, fault := c.fault }) ∧
          (late = true → t.slk.stns = s.slk.stns ∧ t.img = s.img ∧ lineSt t p = { x with cars := (lineSt t p).cars }) ∧
          (late = false → r.1 = 1 →
            (lineSt t p).prev = (c.train, rt % 2 ^ 32, u32 c.body 0x14) ∧
            getReg t (Reg.SLK_LRT + 0x40 * p) = BitVec.ofNat 32 rt ∧
            getFld t (Reg.SLK_LRTMAX + 0x40 * p) 31 0 = max (getFld s (Reg.SLK_LRTMAX + 0x40 * p) 31 0) (rt % 2 ^ 32)) ∧
          (ring → c.last + 1 ≤ c.hops →
            (lineSt t p).broken = false ∧ (x.broken = true → getBit t Reg.SLK_CAUSE 3 = true)) ∧
          (ring → c.hops < c.last + 1 →
            (lineSt t p).broken = true ∧ (lineSt t p).breakPos = c.hops ∧
            (x.broken = false → getBit t Reg.SLK_CAUSE 2 = true)))

/-- R126, R121 and R120: an input slot that its station wrote and whose MAC verifies gives the station's inputs and
makes a joining or absent station PRESENT, one with a bad MAC is counted; a join request that matches the roster is
admitted in the next train and its station JOINING, any other is refused and counted. -/
def Obligations.InputsAndRequests : Prop :=
  ∀ (p k : Nat) (f : List Byte) (c : Car) (s : State), Canonical s → (∀ r ∈ (theTt s).roster, r.station < 2048) →
    rxJudge s p f = .car c → carLate s p = false →
    (∀ r : Station, c.kind = 3 → k < c.slots → slotPos c k = some r.position →
      stationAt (theTt s) c.line r.position = some r →
      (∀ j < c.slots, j ≠ k → ∀ q r', slotPos c j = some q → stationAt (theTt s) c.line q = some r' →
        r'.station ≠ r.station) →
      let x := stnSt s r.station
      let data := slice c.body (64 * k) 56
      let good := macOk s c.line c.train r.station 2 (lineSt s p).epoch data (slice c.body (64 * k + 56) 8)
      ∃ t, exec (.inputCarReturn p f) s = .next t ∧
        (bit c.ack k = false → stnSt t r.station = x) ∧
        (bit c.ack k = true → good = true → stnSt t r.station =
          { x with got := some (c.train, data), state := if x.state = 1 ∨ x.state = 3 then 2 else x.state }) ∧
        (bit c.ack k = true → good = false → stnSt t r.station = { x with macFail := satInc 16 x.macFail })) ∧
    (c.kind = 4 → k < 16 → p < 8 → s.slk.lines.length = 8 →
      let b := slice c.body (32 * k) 32
      let n := u16 b 0
      bit c.ack k = true → u8 b 3 = 1 → (∀ j < 16, j ≠ k → bit c.ack j = false) →
      (lineSt s p).cmds.any (fun y => y.pos == u8 b 2) = false →
      let known := (lineRoster (theTt s) p).find? (fun r => r.station == n)
      let ok (r : Station) : Prop := macOk s p c.train n 3 (lineSt s p).epoch (b.take 24) (b.drop 24) = true ∧
        u8 b 2 = r.position ∧ u32 b 4 = r.stationId.toNat ∧ (r.member = 0 ∨ u16 b 8 = r.member)
      ∃ t, exec (.joinCarReturn p f) s = .next t ∧ (∀ m, m ≠ n → stnSt t m = stnSt s m) ∧
        (∀ r, known = some r → ok r → (stnSt t n).state = 1 ∧
          ({ pos := r.position, station := n, admits := true, nonce := u32 b 0xC } : SlotCmd) ∈ (lineSt t p).cmds) ∧
        ((known = none ∨ ∃ r, known = some r ∧ ¬ ok r) →
          getFld t (Reg.SLK_LCNT_MAC + 0x40 * p) 31 16 = satInc 16 (getFld s (Reg.SLK_LCNT_MAC + 0x40 * p) 31 16) ∧
          getBit t Reg.SLK_CAUSE 1 = true ∧
          (u8 b 2 < ((theTt s).line p).stations →
            ({ pos := u8 b 2, station := n } : SlotCmd) ∈ (lineSt t p).cmds) ∧
          (known = none → stnSt t n = stnSt s n) ∧ (known ≠ none → (stnSt t n).state = 4)))

/-- R89, R110, R129, R130, R132: through pairs forward from 40 ms after power-good: a short frame is counted and
dropped, a bad one goes on with the complement of its check sequence, one that is no car of the line is dropped and
counted, a good car goes on, or back where it turns, with its hops counted; a station output that is accepted goes
to the device's SI words, at once or when its instant has come. -/
def Obligations.ThroughMode : Prop :=
  (∀ s : State, s.pwr.powerGood = true → s.slk.thruValid = true →
    exec .throughForwardStart s = .next { s with slk := { s.slk with thruOn := true } }) ∧
  (∀ (q other : Nat) (f : List Byte) (time residence : Int) (onward : Bool) (s : State),
    thruOther s q = some other → thruForwards s q = true →
    let row := exec (.throughCarArrive q f time residence onward) s
    let x := thruSt s (min q other)
    (f.length < 64 → row = .next (incFld (Reg.SLK_LCNT_FCS + 0x40 * q) 15 0 s)) ∧
    (64 ≤ f.length → frameOk f = false → ∃ t, row = .next t ∧
      t.slk = { s.slk with fwd := some (if onward then other else q,
        f.take (f.length - 4) ++ wordBytes (~~~ crc32eth (f.take (f.length - 4)))) }) ∧
    (64 ≤ f.length → frameOk f = true → thruEther s q f = false →
      row = .next (incFld (Reg.SLK_LCNT_FCS + 0x40 * q) 31 16 s)) ∧
    (∀ c, frameOk f = true → thruEther s q f = true → carOf (framePayload f) = some c → c.kind ≠ 1 → c.dir = true →
      ∃ t, row = .next t ∧ t.img = s.img ∧ t.slk.thru = (setThru (min q other) x s).slk.thru ∧
        let turned := onward = false ∨ (c.extend = false ∧ c.line = x.line ∧ x.pos = some c.last)
        let body (n : Nat) := f.take 14 ++ { c with retHops := n }.bytes
        let on := body ((c.retHops + 1) % 65536)
        (turned → t.slk.fwd = some (q, body c.retHops ++ wordBytes (crc32eth (body c.retHops)))) ∧
        (¬ turned → t.slk.fwd = some (other, on ++ wordBytes (crc32eth on)))) ∧
    (∀ c, frameOk f = true → thruEther s q f = true → carOf (framePayload f) = some c → c.kind ≠ 1 → c.dir = false →
      thruRecord s (min q other) = none →
      ∃ t, row = .next t ∧ t.img = s.img ∧
        let y := thruLearn q (min q other) c x
        let turned := onward = false ∨ (c.extend = false ∧ c.line = y.line ∧ y.pos = some c.last)
        let body (w : Nat) := f.take 14 ++ { c with hops := (c.hops + 1) % 65536, word := w }.bytes
        (turned → t.slk.fwd = some (q, body (c.word + 2 ^ 11) ++ wordBytes (crc32eth (body (c.word + 2 ^ 11))))) ∧
        (¬ turned → t.slk.fwd = some (other, body c.word ++ wordBytes (crc32eth (body c.word))))) ∧
    (∀ c r k, Canonical s → frameOk f = true → thruEther s q f = true → carOf (framePayload f) = some c → c.kind = 2 → c.dir = false →
      c.guest = false → q < other → thruRecord s (min q other) = some r →
      x.joined = true → x.epoch ≤ c.epoch →
      c.first ≤ c.hops → c.hops - c.first = k → k < c.slots →
      let data := slice c.body (32 * k) 24
      let good := lineAuth (theTt s) (min q other) = false ∨
        slice c.body (32 * k + 24) 8 = thruMac s (min q other) c.line c.train r.station 1 c.epoch data
      let newer := 1 ≤ (c.train + 2 ^ 32 - x.last) % 2 ^ 32 ∧ (c.train + 2 ^ 32 - x.last) % 2 ^ 32 < 2 ^ 31
      ∃ t, row = .next t ∧
        (good → newer → (thruSt t (min q other)).last = c.train) ∧
        (good → newer → time < x.applyAt → t.img = s.img ∧
          (thruSt t (min q other)).held = x.held ++ [(x.applyAt, r.station, data)]) ∧
        (good → newer → x.applyAt ≤ time →
          imgGetWork t 0 (16 * r.station) = mkWord (BitVec.ofNat 32 (u16 data 0)) .good ∧
          ∀ i < 5, (bit (u16 data 2) i = true → bit (u16 data 0) 0 = false →
              imgGetWork t 0 (16 * r.station + 1 + i) = mkWord (w32 data (4 + 4 * i)) .good) ∧
            (bit (u16 data 2) i = false ∨ bit (u16 data 0) 0 = true →
              imgGetWork t 0 (16 * r.station + 1 + i) = imgGetWork s 0 (16 * r.station + 1 + i))) ∧
        (¬ good ∨ ¬ newer → t.img = s.img ∧ (thruSt t (min q other)).last = x.last)))

/-! ### Tasks and loops -/

/-- R282 to R287: a cyclic task that falls due, and an event task whose reference shows its edge, is released while it
waits; a release that finds it busy is skipped as an overrun, or held pending and then lost; a stopped task is not
released. Every evaluation is made once in a tick. R282, R283, R288, R311: a free engine begins the waiting task of
lowest priority number, with w31 at the top of its stack, every other register and the flags zero, and the pc at its
entry, after its copy-in; a preempted one resumes where it was; and a waiting task preempts a running one of higher
priority number only. -/
def Obligations.TaskReleasesAndDispatch : Prop :=
  (∀ (e k : Nat) (r : TaskRec) (s : State), Canonical s → e < s.ce.engines.length → (theTt s).task e k = some r →
    engRuns s e = true → ceLoaded (theTt s) e = true → (taskGet s e k).evalTick ≠ some s.pwr.tick →
    let x := taskGet s e k
    let y := { x with evalTick := some s.pwr.tick }
    let busy := x.mode ≠ .idle ∧ x.mode ≠ .stopped
    (r.kind = 0 → taskDue s r = true → ∃ t, exec (.taskRelease e k) s = .next t ∧
      (x.mode = .idle → taskGet t e k = { y with mode := .released, relTick := s.pwr.tick, everReleased := true }) ∧
      (x.mode = .stopped → taskGet t e k = y) ∧
      (busy → taskGet t e k = { y with overruns := satInc 16 x.overruns } ∧ getBit t Reg.CE_CAUSE 1 = true)) ∧
    (r.kind = 0 → taskDue s r = false → exec (.taskRelease e k) s = .next s) ∧
    (r.kind = 1 → ∀ w, refGet s r.eventRef = some w →
      let now := if wordQ w = .bad then x.truth else some (wordVal w != 0#32)
      let z := { y with truth := now }
      let edge := (x.truth = some false ∧ now = some true ∧ (r.edge = 1 ∨ r.edge = 3)) ∨
        (x.truth = some true ∧ now = some false ∧ (r.edge = 2 ∨ r.edge = 3))
      ∃ t, exec (.eventTaskRelease e k) s = .next t ∧
        (¬ edge ∨ x.mode = .stopped → taskGet t e k = z) ∧
        (edge → x.mode = .idle → taskGet t e k = { z with mode := .released, relTick := s.pwr.tick, everReleased := true }) ∧
        (edge → busy → x.pendingRel = false → taskGet t e k = { z with pendingRel := true }) ∧
        (edge → busy → x.pendingRel = true →
          taskGet t e k = { z with lost := satInc 16 x.lost } ∧ getBit t Reg.CE_CAUSE 2 = true))) ∧
  (∀ (e : Nat) (r : TaskRec) (s : State), Canonical s → e < s.ce.engines.length → engRuns s e = true →
    r ∈ (theTt s).tasks → r.engine = e → taskWaits (taskGet s e r.task) = true →
    (∀ q ∈ (theTt s).tasks, q.engine = e → taskWaits (taskGet s e q.task) = true → q ≠ r → r.priority < q.priority) →
    let x := taskGet s e r.task
    let taken (t : State) : Prop := (ceGet t e).run = some r.task ∧ (ceGet t e).atEnd = none ∧
      (x.mode = .preempted → taskGet t e r.task = { x with mode := .running } ∧ (ceGet t e).data = (ceGet s e).data) ∧
      (x.mode = .released → taskGet t e r.task = { x with
        mode := .running
        w := setNth (List.replicate 32 0#32) 31 (BitVec.ofNat 32 (stackTop (theTt s) r))
        pc := r.entry
        flags := 0
        cycles := 40 + 4 * (copyListMem s e r.inList).length
        releases := (x.releases + 1) % 2 ^ 32 })
    ((ceGet s e).run = none → ∃ t, exec (.taskDispatch e) s = .next t ∧ taken t) ∧
    (∀ k q, (ceGet s e).run = some k → (theTt s).task e k = some q → k ≠ r.task →
      (r.priority < q.priority → ∃ t, exec (.taskDispatch e) s = .next t ∧ taken t ∧
        taskGet t e k = { taskGet s e k with mode := .preempted }) ∧
      (q.priority ≤ r.priority → exec (.taskDispatch e) s = .next s)))

/-- R296, R297, R300, R302: a save requests a capture of every engine with a retentive area; the capture waits until the
engine is idle, or for an END once a headway has passed, and asks for the area's record; a pending patch is written
when its task stands at its cycle boundary. -/
def Obligations.RetentiveAndPatches : Prop :=
  (∀ s : State, s.dev.mode ≠ .standby → s.ce.engines.length = 8 → (∀ r ∈ (theTt s).retentive, r.engine < 8) →
    let asked (t : State) : Prop := ∀ e < 8,
      ((∃ r ∈ (theTt s).retentive, r.engine = e) → (ceGet s e).retReq = none →
        ceGet t e = { ceGet s e with retReq := some s.pwr.tick }) ∧
      ((∀ r ∈ (theTt s).retentive, r.engine ≠ e) ∨ (ceGet s e).retReq ≠ none → ceGet t e = ceGet s e)
    (∃ t, exec .retentiveSave s = .next t ∧ asked t ∧ t = { s with ce := { s.ce with engines := t.ce.engines } }) ∧
    (hwStates s.dev.mode = true → getFld s Reg.CE_RET_CTL 15 0 * 1024 ≤ s.pwr.tick - s.ce.retTick →
      ∃ t, exec .retentiveSavePeriodic s = .next t ∧ asked t ∧ t.ce.retTick = s.pwr.tick)) ∧
  (∀ (e t0 : Nat) (r : Retentive) (s : State), RegsWf s → e < s.ce.engines.length → e < 8 →
    (ceGet s e).retReq = some t0 → (theTt s).ret e = some r → r.engine = e → s.pwr.saving = false →
    let idle := (ceGet s e).run = none ∧ ∀ p ∈ (ceGet s e).tasks, taskWaits p.2 = false
    let overdue := (ceGet s e).atEnd = some s.pwr.tick ∧ (theTt s).plan.headway ≤ s.pwr.tick - t0
    (idle → ¬ overdue → ∃ t, exec (.retentiveCapture e) s = .next t ∧ (ceGet t e).retReq = none ∧ e ∈ t.ce.retLeft ∧
      getFld t Reg.CE_RET_STAT (16 + e) (16 + e) = 0) ∧
    (overdue →
      ∃ t, exec (.retentiveCapture e) s = .next t ∧ (ceGet t e).retReq = none ∧ e ∈ t.ce.retLeft ∧
        getFld t Reg.CE_RET_STAT (16 + e) (16 + e) = 1) ∧
    (¬ idle → ¬ overdue →
      exec (.retentiveCapture e) s = .next s)) ∧
  (∀ (e : Nat) (p : Patch) (s : State), RegsWf s → e < s.ce.engines.length → (ceGet s e).patches = [p] →
    let x := (ceGet s e).task p.task
    (x.mode = .idle ∨ x.mode = .released ∨ x.mode = .stopped →
      ∃ t, exec (.patchApply e) s = .next t ∧ (ceGet t e).patches = [] ∧ getFld t Reg.CE_PATCH_CTL 19 18 = 2 ∧
        getBit t Reg.CE_CAUSE 4 = true ∧
        (p.space = 1 → (ceGet t e).data = (ceGet s e).data ∧
          (ceGet t e).code = memWrite (ceGet s e).code (litStart (theTt s) e + p.addr) p.bytes) ∧
        (p.space ≠ 1 → (ceGet t e).code = (ceGet s e).code ∧
          (ceGet t e).data = memWrite (ceGet s e).data p.addr p.bytes)) ∧
    (x.mode = .running ∨ x.mode = .preempted → exec (.patchApply e) s = .next s))

/-- R254, R257 to R259, R262, R263, R265: in a tick the loop engine samples the due loops in ascending number, after a
commit boundary that falls on it. A loop in automatic mode with a good process value, no start, injection or
feedforward writes the output of its law (proportional, PI or PID with conditional integration, on-off); in manual
mode the limited LPE_Lk_MAN; in fallback by its code. Every result is rounded once to binary32 (log entry 3). R272,
R273: an injection that has made its LEN samples ends with its cause; a single capture that is full ends with its
cause. -/
def Obligations.LoopEngine : Prop :=
  (∀ (k : Nat) (r : LoopRec) (s : State), Canonical s → k < 256 → loopOf s k = some r → r.loop = k → lpeRuns s = true →
    let from_ := if s.lpe.tick = s.pwr.tick then s.lpe.next else 0
    from_ ≤ k → loopDue s r = true → (commitDue s = true → exec .loopSample s = .next s) ∧ (commitDue s = false →
    (∀ j < k, from_ ≤ j → ∀ q, loopOf s j = some q → loopDue s q = false) →
    let x := loopGet s k
    let reg (a : Nat) : Rat := f32RatD (getReg s (a + 0x40 * k))
    let h : Rat := (r.period : Rat) / 1024
    let up := f32RatD x.uPrev
    let clamp (v : Rat) : Rat := rclamp (reg Reg.LPE_L_OMIN) (reg Reg.LPE_L_OMAX) v
    let step := reg Reg.LPE_L_ORATE * h
    let limit (v : Rat) : Rat := if step = 0 then clamp v else up + rclamp (-step) step (clamp v - up)
    let manual := getBit s (Reg.LPE_L_CTL + 0x40 * k) 0
    ∃ t, exec .loopSample s = .next t ∧ t.lpe.tick = s.pwr.tick ∧ t.lpe.next = k + 1 ∧
      let out (v : Rat) (q : Nat) : Prop := getReg t (Reg.LPE_L_OUT + 0x40 * k) = f32OfRat v ∧
        (loopGet t k).uPrev = f32OfRat v ∧ getFld t (Reg.LPE_L_STAT + 0x40 * k) 3 2 = q
      let held (q : Nat) : Prop := getReg t (Reg.LPE_L_OUT + 0x40 * k) = x.uPrev ∧
        getFld t (Reg.LPE_L_STAT + 0x40 * k) 3 2 = q
      (manual = true → x.manual = true → f32IsFin (getReg s (Reg.LPE_L_MAN + 0x40 * k)) = true →
        x.reinit = false → out (limit (reg Reg.LPE_L_MAN)) 0) ∧
      (manual = false → x.manual = false → x.reinit = false → r.law ≠ 5 → x.fb = true → ∀ w, refGet s r.pvRef = some w →
        wordQ w = .bad →
        (r.fallback = 0 → held 2) ∧
        (r.fallback = 1 → out (limit (reg Reg.LPE_L_HOLD)) 2) ∧
        (r.fallback = 3 → x.released = false →
          getReg t (Reg.LPE_L_OUT + 0x40 * k) = getReg s (Reg.LPE_L_OUT + 0x40 * k) ∧
          (loopGet t k).uPrev = getReg s (Reg.LPE_L_OUT + 0x40 * k) ∧ getFld t (Reg.LPE_L_STAT + 0x40 * k) 3 2 = 3) ∧
        (r.fallback = 3 → x.released = true → t.img = s.img)) ∧
      (manual = false → x.manual = false → x.reinit = false → x.fb = false → x.start = false → injOf s k = none →
        bit r.flags 0 = false → r.spSource = 0 → reg Reg.LPE_L_SPRATE * h = 0 →
        x.kpPrev = getReg s (Reg.LPE_L_KP + 0x40 * k) → x.ffPrev = getReg s (Reg.LPE_L_FFGAIN + 0x40 * k) →
        ∀ w, refGet s r.pvRef = some w → wordQ w = .good → f32IsFin (wordVal w) = true →
        let pv := f32RatD (wordVal w)
        let sg : Rat := if bit r.flags 1 then -1 else 1
        let e0 := sg * (f32RatD (f32OfRat (reg Reg.LPE_L_SP)) - pv)
        let e := if rabs e0 < reg Reg.LPE_L_DBAND then 0 else e0
        let kp := reg Reg.LPE_L_KP
        let td := reg Reg.LPE_L_TD
        let i := f32RatD x.i
        let di : Rat := if r.law = 1 then 0 else kp * h / reg Reg.LPE_L_TI * e
        let a := (td / 8) / (td / 8 + h)
        let d : Rat := if r.law = 3 ∧ 0 < td then
          a * f32RatD x.d - (1 - a) * sg * kp * td * (pv - f32RatD x.pvPrev) / h else 0
        let raw := kp * e + i + di + d
        let deeper := (limit raw < raw ∧ 0 < di) ∨ (raw < limit raw ∧ di < 0)
        (1 ≤ r.law → r.law ≤ 3 →
          (¬ deeper → out (limit raw) 0 ∧ (loopGet t k).i = f32OfRat (i + di)) ∧
          (deeper → out (limit (kp * e + i + d)) 0 ∧ (loopGet t k).i = f32OfRat i)) ∧
        (r.law = 4 → out (if reg Reg.LPE_L_DBAND / 2 < e0 then limit (reg Reg.LPE_L_OMAX)
          else if e0 < -(reg Reg.LPE_L_DBAND / 2) then limit (reg Reg.LPE_L_OMIN) else up) 0)))) ∧
  (∀ (c : Nat) (s : State), RegsWf s → domOn s 6 = true → c < 4 → s.lpe.inj.length = 4 → s.lpe.cap.length = 4 →
    let x := nth s.lpe.inj c {}
    let y := nth s.lpe.cap c {}
    (x.running = true → (getReg s (Reg.LPE_INJ_LEN + 0x20 * c)).toNat ≤ x.k →
      ∃ t, exec (.injectionEnd c) s = .next t ∧ nth t.lpe.inj c {} = { x with running := false } ∧
        getBit t Reg.LPE_CAUSE 3 = true ∧ getBit t (Reg.LPE_INJ_STAT + 0x20 * c) 24 = false) ∧
    (x.running = true → x.k < (getReg s (Reg.LPE_INJ_LEN + 0x20 * c)).toNat → exec (.injectionEnd c) s = .next s) ∧
    (y.running = true → y.full = true →
      ∃ t, exec (.captureDone c) s = .next t ∧ nth t.lpe.cap c {} = { y with running := false } ∧
        getBit t Reg.LPE_CAUSE 5 = true ∧ getBit t (Reg.LPE_CAP_STAT + 0x20 * c) 16 = false) ∧
    (y.full = false → exec (.captureDone c) s = .next s))

/-! ### Ticks, headways and the solver fabric -/

/-- R14 steps 1 and 2, R20, R33, R35, R36, R415: a headway start counts the headway and begins its phases; in RUN every
line sends its regular train; RUN takes a single device from READY to RUN, and STOP takes it back. -/
def Obligations.HeadwayStart : Prop :=
  ∀ s : State, s.dev.hwDue = true → s.tx.st ≠ 4 →
    let begun (t : State) : Prop := t.dev.headway = (s.dev.headway + 1) % 2 ^ 32 ∧ t.dev.hwRunning = true ∧
      t.dev.hwDue = false ∧ t.dev.tickInHw = 0 ∧ t.dev.siPublished = false ∧ t.dev.nsPublished = false ∧
      t.dev.outFrozen = false
    (s.dev.cmd = none → s.dev.mode = .run ∨ s.dev.mode = .safe ∨
        (s.dev.mode = .ready ∧ s.dev.autoRunDue = false ∧ s.red.wantRun = false) →
      s.red.handover = false →
      ∃ t, exec .headwayStart s = .next t ∧ begun t ∧ t.dev.mode = s.dev.mode ∧
        t.dev.optCount = (if s.dev.hwRunning = false ∨ max 1 (theTt s).plan.optHeadways ≤ s.dev.optCount + 1 then 0
          else s.dev.optCount + 1) ∧
        (s.slk.lines.length = 8 → ∀ p ∈ headPorts (theTt s),
          (trainsLeave s = true → (lineSt t p).train = some (lineSt s p).next ∧ (lineSt t p).regular = true ∧
            (lineSt t p).next = ((lineSt s p).next + 1) % 2 ^ 32 ∧ (lineSt t p).epoch = (getReg s Reg.SLK_EPOCH).toNat) ∧
          (trainsLeave s = false → lineSt t p = lineSt s p))) ∧
    (s.dev.cmd = some .run → s.dev.mode = .ready → paired s = false →
      ∃ t, exec .headwayStart s = .next t ∧ begun t ∧ t.dev.mode = .run ∧ t.dev.cmd = none ∧ t.dev.cmdStatus = 2 ∧
        t.dev.schedOrigin = s.pwr.tick ∧ t.dev.optCount = 0) ∧
    (s.dev.cmd = some .stop → s.dev.mode = .run → s.dev.fatalDue = false → s.red.handover = false →
      ∃ t, exec .headwayStart s = .next t ∧ t.dev.mode = .ready ∧ t.dev.cmd = none ∧ t.dev.cmdStatus = 2 ∧
        t.dev.headway = 0)

/-- R14 steps 3, 4 and 6, R15, R106, R127: at t_in the received inputs become the SI generation, and a PRESENT station
without inputs becomes ABSENT; at t_est an estimate that is not finished is published as it is, what was not updated
STALE; at t_out the SO generation is frozen. (What HYD and the optimiser do next starts from the state named here.) -/
def Obligations.HeadwayMarks : Prop :=
  (∀ s : State, Canonical s → tickOpen s = true → hwStates s.dev.mode = true → s.dev.hwRunning = true → s.dev.siPublished = false →
    (theTt s).plan.tIn ≤ s.dev.tickInHw → ((headRoster (theTt s)).map (·.station)).Nodup →
    ∃ u, exec .inputClose s = .next (if estWorks u then hydStart u else u) ∧ u.dev = { s.dev with siPublished := true } ∧
      u.img.si = u.img.siWork ∧
      (trainsRun s = true → ∀ r ∈ headRoster (theTt s),
        let n := r.station
        let x := stnSt s n
        (∀ g, x.got = some g → x.state = 2 →
          stnSt u n = { x with got := none, missed := 0, last := g.1 } ∧
          wordVal (imgGet u 0 (16 * n)) = BitVec.ofNat 32 g.1 ∧
          ∀ k < 12, imgGet u 0 (16 * n + 1 + k) =
            mkWord (w32 g.2 (4 + 4 * k)) (qualityOf (u32 g.2 0 / 4 ^ k))) ∧
        (x.got = none → x.state = 2 →
          stnSt u n = { x with state := 3, missed := satInc 16 x.missed, drops := satInc 16 x.drops } ∧
          getBit u Reg.SLK_CAUSE 0 = true ∧
          ∀ k < 14, wordVal (imgGet u 0 (16 * n + k)) = wordVal (imgGetWork s 0 (16 * n + k)) ∧
            wordQ (imgGet u 0 (16 * n + k)) ≠ .good))) ∧
  (∀ s : State, Canonical s → estWorks s = true → s.dev.siPublished = true → s.dev.nsPublished = false →
    (theTt s).plan.tEst ≤ s.dev.tickInHw → s.hyd.busy = true ∨ s.ftr.busy = true →
    ∃ u, exec .estimateClose s = .next (if u.opt.due = true then optStart u else u) ∧ u.dev.nsPublished = true ∧
      u.hyd.busy = false ∧ u.ftr.busy = false ∧ u.slv.hydHolds = false ∧ u.img.ns = u.img.nsWork ∧
      getBit u Reg.DEV_CAUSE 16 = true ∧ getFld u Reg.DEV_LATE 15 0 = satInc 16 (getFld s Reg.DEV_LATE 15 0) ∧
      ∀ i, i ≠ 0xC010 → i ∈ ftrWords (theTt s) ∨ (s.hyd.done = false ∧ i ∈ hydWords (theTt s)) →
        wordVal (imgGet u 4 i) = wordVal (imgGetWork s 4 i) ∧ wordQ (imgGet u 4 i) ≠ .good) ∧
  (∀ s : State, tickOpen s = true → hwStates s.dev.mode = true → s.dev.hwRunning = true → s.dev.outFrozen = false →
    (theTt s).plan.tOut ≤ s.dev.tickInHw → freezeWaits s = false →
    ∃ t, exec .outputFreeze s = .next t ∧ t.dev.outFrozen = true ∧ t.img.so = s.img.soWork ∧ t.img.soWork = s.img.soWork ∧
      t.img.si = s.img.si ∧ t.dev.mode = s.dev.mode ∧
      (paired s = false → t = { s with dev := { s.dev with outFrozen := true }, img := t.img }))

/-- R17, R209, R210, R226, R227, R159, R249: the fabric's units and its two clients. A factorisation is followed by a
solve, a solve of the optimiser by the corrector and then by its step, a failed one by a retry with a larger δ, at
most three times; a failed solve ends HYD's estimate. The tracker's move publishes NS. -/
def Obligations.FabricEvents : Prop :=
  (∀ s : State, fabOn s = true → s.slv.pauseDue = true → s.slv.holder = 2 →
    (s.slv.hyd.unit ≠ .none → ∃ t, exec .optPause s = .next t ∧ t.slv.holder = 1 ∧ t.slv.paused = true ∧
      t.slv.pauseDue = false ∧ t.slv.opt = s.slv.opt) ∧
    (s.slv.hyd.unit = .none → s.slv.hydHolds = true → exec .optPause s =
      .next { s with slv := { s.slv with holder := 0, paused := true, pauseDue := false } })) ∧
  (∀ s : State, RegsWf s →
    (domOn s 5 = true → s.slv.selftest = 1 →
      (∃ t, exec (.slvSelftestDone true) s = .next t ∧ t.slv = { s.slv with selftest := 2, fs := t.slv.fs } ∧ t.regs = s.regs ∧
        t.dev = s.dev) ∧
      ∃ t, exec (.slvSelftestDone false) s = .next t ∧ t.slv = { s.slv with selftest := 3, fs := t.slv.fs } ∧
        getBit t Reg.SLV_CAUSE 6 = true) ∧
    (domOn s 5 = false ∨ s.slv.selftest ≠ 1 → ∀ b, exec (.slvSelftestDone b) s = .next s)) ∧
  (∀ s : State, RegsWf s → fabOn s = true → s.slv.holder = 2 → ∀ c ∈ [(Instr.fabricFactorisationDone, FabUnit.factor, (slvFactor 2 s).1),
      (.fabricSolveDone, .solve, (slvSolve 2 s).1)], s.slv.opt.unit = c.2.1 →
    let ok := c.2.2 = 1 ∨ c.2.2 = 2
    ∃ t, exec c.1 s = .next t ∧
      (ok → c.2.1 = .factor → t.opt.phase = .predictor ∧ t.slv.opt.unit = .solve ∧ t.opt.dataList = []) ∧
      (ok → c.2.1 = .solve → s.opt.phase = .predictor → t.opt.phase = .corrector ∧ t.slv.opt.unit = .solve) ∧
      (ok → c.2.1 = .solve → s.opt.phase ≠ .predictor → t.opt.iter = s.opt.iter + 1 ∧
        t.opt.merits.length = s.opt.merits.length + 1) ∧
      (¬ ok → s.opt.retries < 3 → t.opt.phase = .factor ∧ t.opt.retries = s.opt.retries + 1 ∧
        t.opt.boost = s.opt.boost + 1 ∧ t.slv.opt.unit = .factor ∧ getBit t Reg.OPT_CAUSE 2 = true) ∧
      (¬ ok → 3 ≤ s.opt.retries → t.opt.phase = .idle ∧ t.opt.fallbackDue = true ∧ getFld t Reg.OPT_STAT 2 0 = 3)) ∧
  (∀ s : State, RegsWf s → fabOn s = true → s.slv.holder = 1 → s.dev.nsPublished = false → ∀ c ∈ [(Instr.fabricFactorisationDone,
      FabUnit.factor, (slvFactor 1 s).1), (.fabricSolveDone, .solve, (slvSolve 1 s).1)], s.slv.hyd.unit = c.2.1 →
    let ok := c.2.2 = 1 ∨ c.2.2 = 2
    ∃ t, exec c.1 s = .next t ∧
      (ok → c.2.1 = .factor → t.slv.hyd.unit = .solve ∧ t.slv.holder = 1) ∧
      (ok → c.2.1 = .solve → t.hyd.iter = s.hyd.iter + 1) ∧
      (¬ ok → t.hyd.busy = false ∧ t.hyd.failed = true ∧ t.hyd.failRun = s.hyd.failRun + 1 ∧ t.ftr.busy = true ∧
        getBit t Reg.HYD_CAUSE 1 = true)) ∧
  (∀ s : State, domOn s 3 = true → s.ftr.busy = true →
    ∃ u, exec .ftrMoveDone s = .next (if u.opt.due = true then optStart u else u) ∧ u.dev.nsPublished = true ∧
      u.ftr.busy = false ∧ u.ftr.moveTick = s.pwr.tick ∧ u.hyd.busy = false ∧ u.slv.hydHolds = false ∧
      u.img.ns = u.img.nsWork)

/-! ### Redundant pairs -/

/-- R495, R496, R498, R499, R514 step 4: the interlock pins, the claim and the conflict. -/
def Obligations.Interlock : Prop :=
  (∀ (a : Bool) (s : State), RegsWf s →
    let fault := a = false ∧ s.red.actIn = true ∧ paired s = true ∧ s.red.sync = true ∧
      (s.red.peerMode = 3 ∨ s.red.peerMode = 5)
    let hands := a = true ∧ s.red.handKeep = true
    ∃ t, exec (.actInNChange a) s = .next t ∧ t.red.actIn = a ∧ t.dev.mode = s.dev.mode ∧
      (a = true ∨ s.red.sync = true → t.red.downTick = none) ∧
      (a = false → s.red.sync = false → t.red.downTick = some (s.red.downTick.getD (s.pwr.tick + 1))) ∧
      (fault → getBit t Reg.RED_CAUSE 8 = true) ∧
      (hands → t.red.actOut = false ∧ t.red.handKeep = false ∧ getBit t Reg.RED_CAUSE 2 = true ∧
        getReg t Reg.RED_SWAP_LAST = BitVec.ofNat 32 s.mgt.cal.seconds) ∧
      (¬ hands → t.red.actOut = s.red.actOut)) ∧
  (∀ s : State, RegsWf s → s.dev.mode = .ready → s.red.claiming = true →
    (s.red.actIn = false ∨ preferred s = true →
      ∃ t, exec .claimSample s = .next t ∧ t.dev.mode = .run ∧ t.red.claiming = false ∧ t.red.actOut = paired s) ∧
    (s.red.actIn = true → preferred s = false →
      ∃ t, exec .claimSample s = .next t ∧ t.red.actOut = false ∧ t.red.claiming = false ∧ getBit t Reg.RED_CAUSE 9 = true ∧
        (s.red.sync = false → t.dev.mode = .ready ∧ t.red.waitSync = true) ∧
        (s.red.sync = true → s.red.peerDigest = (theTt s).digest → t.dev.mode = .standby ∧ t.red.aligning = true) ∧
        (s.red.sync = true → s.red.peerDigest ≠ (theTt s).digest →
          t.dev.mode = .ready ∧ getBit t Reg.RED_CAUSE 10 = true))) ∧
  (∀ s : State, RegsWf s → paired s = true → s.red.actOut = true → s.red.actIn = true → s.red.claiming = false →
    s.red.handKeep = false →
    ∃ t, exec .interlockConflict s = .next t ∧ t.dev.mode = s.dev.mode ∧ t.red.actOut = preferred s ∧
      (s.dev.mode = .run → t.dev.fatalDue = true ∧ getBit t Reg.DEV_CAUSE 11 = true) ∧
      (s.dev.mode ≠ .run → t.dev = s.dev))

/-- R500, R501, R505, R496, R499: the sync link: a frame is taken once, an acknowledgement ends its wait, the tick
stream and the input copy wait for the standby's tick; the link goes down, comes up and loses a lane. -/
def Obligations.SyncLink : Prop :=
  ∀ s : State, RegsWf s → domOn s 17 = true →
    (paired s = true → s.red.sync = true → ∀ seq,
      (exec (.syncFrame seq .ack) s = .next { s with red := { s.red with tx := s.red.tx.filter (fun x => x.seq != seq) } }) ∧
      (∀ m, m ≠ .ack → s.red.rxSeq = some seq →
        exec (.syncFrame seq m) s = .next { s with red := { s.red with sent := some (seq, .ack) } }) ∧
      (s.red.rxSeq ≠ some seq →
        (∀ m, (∃ ws, m = .ci ws) ∨ (∃ a w, m = .write a w) ∨ (∃ k x y, m = .meter k x y) ∨
            (∃ a b c d, m = .cadence a b c d) ∨ m = .tickEnd →
          (s.dev.mode = .standby → exec (.syncFrame seq m) s =
            .next { s with red := { s.red with rxSeq := some seq, sent := some (seq, .ack), rx := s.red.rx ++ [m] } }) ∧
          (s.dev.mode ≠ .standby → exec (.syncFrame seq m) s =
            .next { s with red := { s.red with rxSeq := some seq, sent := some (seq, .ack) } })) ∧
        (∀ ws, s.dev.mode = .standby → exec (.syncFrame seq (.si ws)) s =
          .next { s with red := { s.red with rxSeq := some seq, sent := some (seq, .ack), rxSi := some ws } }) ∧
        (∀ mode fit digest lock, s.dev.mode ≠ .standby → s.red.waitSync = false →
          let v := { s with red := { s.red with
            rxSeq := some seq, sent := some (seq, .ack), peerMode := mode, peerFit := fit, peerDigest := digest, peerLock := lock } }
          (s.red.actIn = true ∨ (mode ≠ 3 ∧ mode ≠ 5) → exec (.syncFrame seq (.status mode fit digest lock)) s = .next v) ∧
          (s.red.actIn = false → mode = 3 ∨ mode = 5 → getBit s Reg.RED_CAUSE 8 = false →
            exec (.syncFrame seq (.status mode fit digest lock)) s = .next (cause Reg.RED_CAUSE 8 v))) ∧
        (∀ mode fit digest lock, s.dev.mode = .standby → mode = 3 ∨ mode = 5 → digest ≠ (theTt s).digest →
          ∃ t, exec (.syncFrame seq (.status mode fit digest lock)) s = .next t ∧ t.dev.mode = .ready ∧
            getBit t Reg.RED_CAUSE 10 = true))) ∧
    (∀ seq, s.red.sync = true → (∃ x ∈ s.red.tx, x.seq = seq) →
      ∃ x ∈ s.red.tx, x.seq = seq ∧ exec (.syncResendTimeout seq) s =
        .next (incFld Reg.RED_LINK 15 0 { s with red := { s.red with sent := some (seq, x.msg) } })) ∧
    (s.red.sync = true → ∃ t, exec .syncLinkTimeout s = .next t ∧ t.red.sync = false ∧ t.red.lanes = 0 ∧ t.red.tx = [] ∧
      t.red.peerFit = false ∧ t.dev = s.dev ∧ getBit t Reg.RED_CAUSE 6 = true ∧
      getFld t Reg.RED_LINK 31 16 = satInc 16 (getFld s Reg.RED_LINK 31 16)) ∧
    (s.red.sync = false → exec .syncLinkTimeout s = .next s) ∧
    (paired s = true → s.red.sync = false → s.pwr.serLock = true →
      ∃ t, exec .syncLinkUp s = .next t ∧ t.red.sync = true ∧ t.red.lanes = (theTt s).redundancy.lanes ∧
        (s.dev.mode ≠ .ready ∨ s.red.waitSync = false → t.dev = s.dev) ∧
        (s.dev.mode = .ready → s.red.waitSync = true → s.red.actIn = true →
          (s.red.peerDigest = (theTt s).digest → t.dev.mode = .standby ∧ t.red.aligning = true ∧ t.red.waitSync = false) ∧
          (s.red.peerDigest ≠ (theTt s).digest → t.dev = s.dev ∧ t.red.waitSync = true)) ∧
        (s.dev.mode = .ready → s.red.waitSync = true → s.red.actIn = false →
          t.dev = s.dev ∧ t.red.wantRun = true ∧ t.red.waitSync = false)) ∧
    (∀ lane < 2, s.red.sync = true → s.red.lanes = 3 → ∃ t, exec (.syncLaneLoss lane) s = .next t ∧
      t.red = { s.red with lanes := 2 - lane } ∧ getBit t Reg.RED_CAUSE 7 = true)

/-- R502, R507, R511, R513, R519: a standby performs the active member's tick from its streams, and takes its place in
the headway; it aligns again when they fail to come or on RED_CMD realign; and it takes over after the guard,
unaligned when it is not in lock-step. R514 step 1, R516, R519: RED_CMD handover and the proving swap announce a
handover under R516's conditions; otherwise the command is refused, and the swap put off with its cause. -/
def Obligations.StandbyTakeoverAndHandover : Prop :=
  (∀ s : State, RegsWf s →
    (s.dev.mode = .standby → s.red.stepped = false → streamsReady s = true → ∀ ms pos origin opt busy rest,
      s.red.rx = ms ++ [.cadence pos origin opt busy, .tickEnd] ++ rest → SyncMsg.tickEnd ∉ ms →
      ∃ t, exec .standbyTickWork s = .next t ∧ t.red.rx = rest ∧ t.red.stepped = true ∧ t.dev.mode = .standby ∧ t.dev.tickInHw = pos ∧
        t.dev.hwDue = (pos == 0) ∧ t.dev.hwRunning = true ∧ t.dev.schedOrigin = s.pwr.tick - origin) ∧
    (s.dev.mode = .standby → s.red.aligning = false → s.red.stepped = false → streamsReady s = false →
      ∃ t, exec .lagTimeout s = .next t ∧ t.red.aligning = true ∧ t.red.lockstep = false ∧ t.dev = s.dev ∧
        t.opt.phase = .idle ∧ t.hyd.busy = false ∧ getBit t Reg.RED_CAUSE 5 = true) ∧
    (s.dev.mode = .standby → ∃ t, exec .realign s = .next t ∧ t.red.aligning = true ∧ t.red.lockstep = false ∧
      t.red.cmdStatus = 1 ∧ t.dev = s.dev) ∧
    (s.dev.mode ≠ .standby → exec .realign s = .next { s with red := { s.red with cmdStatus := 3 } }) ∧
    (∀ since, s.red.downTick = some since → s.dev.mode = .standby → getFld s Reg.DEV_CAUSE 12 8 = 0 →
      (∀ r ∈ (theTt s).roster, r.station < 2048) →
      let guard := if (theTt s).redundancy.takeover = 0 then 16 else (theTt s).redundancy.takeover
      (guard ≤ s.pwr.tick - since → ∃ t, exec .takeover s = .next t ∧ t.dev.mode = .run ∧ t.red.actOut = paired s ∧
        getBit t Reg.RED_CAUSE 0 = true ∧
        (streamsReady s = false → s.red.lockstep = false → getBit t Reg.RED_CAUSE 1 = true) ∧
        (streamsReady s = false → s.red.lockstep = true → getBit t Reg.RED_CAUSE 1 = getBit s Reg.RED_CAUSE 1)) ∧
      (s.pwr.tick - since < guard → exec .takeover s = .next s))) ∧
  (∀ s : State, RegsWf s →
    let ok := s.dev.mode = .run ∧ paired s = true ∧ s.mgt.cal.valid = true ∧ s.red.sync = true ∧
      s.red.lanes = (theTt s).redundancy.lanes ∧ s.red.peerMode = 4 ∧ s.red.peerFit = true ∧ s.red.peerLock = true ∧
      s.red.mismatch = false ∧ s.tx.st ≠ 2 ∧ s.tx.st ≠ 3 ∧ s.tx.st ≠ 4 ∧ s.pwr.pfwNow = false ∧
      getBit s Reg.RED_CTL 8 = false
    (ok → s.red.handover = false → exec .handover s = .next { s with red := { s.red with
      handover := true, handAck := false, handCmd := true, cmdStatus := 1 } }) ∧
    (¬ ok ∨ s.red.handover = true → exec .handover s = .next { s with red := { s.red with cmdStatus := 3 } }) ∧
    (s.red.swapDay = some (s.mgt.cal.seconds / 86400) → exec .provingSwap s = .next s) ∧
    (s.dev.mode = .run → paired s = true → s.red.swapDue = true → s.red.handover = false →
      s.red.swapDay ≠ some (s.mgt.cal.seconds / 86400) →
      let now := s.mgt.cal.valid = false ∨ s.mgt.cal.seconds / 60 % 1440 = (theTt s).redundancy.swapMinute
      (now → ok → exec .provingSwap s = .next { s with red := { s.red with handover := true, handAck := false } }) ∧
      (now → ¬ ok → ∃ t, exec .provingSwap s = .next t ∧
        t.red = { s.red with swapDay := some (s.mgt.cal.seconds / 86400) } ∧ getBit t Reg.RED_CAUSE 3 = true) ∧
      (¬ now → exec .provingSwap s = .next s)))

/-! ### Every command by name -/

/-- Where each command completes with its own effect, by name (completion; the statements above say what the effects
are). Under the conditions that its rule puts on the state and the operands, the command answers a next state, and
that is the state its rule makes of the present one: the commands that always act, those with a condition, the
register writes of the host port, the mailbox commands in a state that allows them while no page is programmed and
no key command runs, the commands on a task, a channel, a meter or a car, and the instructions of an engine, each of
which retires (or takes a trap of its own). -/
def Obligations.CommandsTakeEffect : Prop :=
  ∀ s : State,
    (∀ (rb : Option (List Byte)) (p : Instr × State), p ∈ [
        (Instr.refFail, cause Reg.PWR_CAUSE 3 { s with pwr := { s.pwr with refOk := false } }),
        (.vbatLow, cause Reg.PWR_CAUSE 6 { s with pwr := { s.pwr with vbatOk := false } }),
        (.journalCopyAWritten rb, rstAfterSave (jnlAWritten rb s)), (.journalCopyBWritten rb, rstAfterSave (jnlCopyB rb s)),
        (.evrCtlFlush, evFlush false s),
        (.snapFire, snapFire s),
        (.tickLoRead, (tickLoRead s).2), (.jnlSeqLoRead, (jnlSeqLoRead s).2), (.calSecRead, (calSecRead s).2),
        (.evrSeqLoRead, (evrSeqLoRead s).2), (.keyCtrLoRead, (keyCtrLoRead s).2),
        (.retentiveSave, retRequest s),
        (.rngHealthFail, cause Reg.KEY_CAUSE 2 (setKey { s.key with rngOk := false } s)),
        (.rngReseed, setKey { s.key with rngOk := true } s), (.syncLinkTimeout, syncDown s),
        (.handover, redHandover s), (.realign, redRealign s)] → exec p.1 s = .next p.2) ∧
    (∀ (d n g e a len c k : Nat) (u : DomUser) (b : Bool) (data : List Byte) (ecc : Option Nat)
        (cm : Byte) (wins : List WaveIn) (p : Instr × Prop × State), p ∈ [
        (Instr.headwayStart, s.dev.hwDue = true ∧ hwStates s.dev.mode = true, headwayStart s),
        (.commitBoundary, txDue s = true, txApply (s.dev.headway + b2n s.dev.hwDue) s),
        (.inputClose, tickOpen s = true ∧ hwStates s.dev.mode = true ∧ s.dev.hwRunning = true ∧ s.dev.siPublished = false ∧
          (theTt s).plan.tIn ≤ s.dev.tickInHw, inputClose s),
        (.optPause, fabOn s = true ∧ s.slv.pauseDue = true ∧ s.slv.holder = 2,
          fabGrant { s with slv := { s.slv with holder := 0, paused := true, pauseDue := false } }),
        (.estimateClose, estWorks s = true ∧ s.dev.siPublished = true ∧ s.dev.nsPublished = false ∧
          (theTt s).plan.tEst ≤ s.dev.tickInHw ∧ (s.hyd.busy = true ∨ s.ftr.busy = true), optIfDue (nsLate s)),
        (.outputFreeze, tickOpen s = true ∧ hwStates s.dev.mode = true ∧ s.dev.hwRunning = true ∧ s.dev.outFrozen = false ∧
          (theTt s).plan.tOut ≤ s.dev.tickInHw ∧ freezeWaits s = false, outputFreeze s),
        (.ftrMoveDone, domOn s 3 = true ∧ s.ftr.busy = true, optIfDue (nsPublish s.hyd.done (ftrMove s))),
        (.fatalCauseSafe, s.dev.fatalDue = true ∧ s.dev.mode = .run ∧ (enterSafe s).dev.cmd = none, enterSafe s),
        (.run c, c = theKey ∧ s.dev.cmd = none ∧ devHalted .run s = false ∧ devAllowedNow .run s = true,
          devCommand .run c s),
        (.stop c, c = theKey ∧ s.dev.cmd = none ∧ devHalted .stop s = false ∧ devAllowedNow .stop s = true,
          devCommand .stop c s),
        (.hold c, c = theKey ∧ s.dev.cmd = none ∧ devHalted .hold s = false ∧ devAllowedNow .hold s = true,
          devCommand .hold c s),
        (.loadA c, c = theKey ∧ s.dev.cmd = none ∧ devHalted .loadA s = false ∧ devAllowedNow .loadA s = true,
          devCommand .loadA c s),
        (.loadB c, c = theKey ∧ s.dev.cmd = none ∧ devHalted .loadB s = false ∧ devAllowedNow .loadB s = true,
          devCommand .loadB c s),
        (.clear c, c = theKey ∧ s.dev.cmd = none ∧ devHalted .clear s = false ∧ devAllowedNow .clear s = true,
          devCommand .clear c s),
        (.reset c, c = theKey ∧ s.dev.cmd = none ∧ devHalted .reset s = false ∧ devAllowedNow .reset s = true,
          devCommand .reset c s),
        (.backgroundSlotCheckDone k, k ≤ 1 ∧ s.dev.mode ≠ .boot ∧ (slotRep s k).done = false ∧
          ((slotRep s k).checking = true → (slotRep s k).background = true) ∧ s.dev.writer ≠ some k,
          slotReport k (ttCheckSlot s (baseTotals s) k).1 s),
        (.timetableCheckDone k, k ≤ 1 ∧ (slotRep s k).checking = true ∧ (slotRep s k).background = false ∧ s.tx.st ≠ 2 ∧
          s.dev.cmd = none, slotReport k (ttCheckSlot s (if placed s then baseLoaded s else baseTotals s) k).1 s),
        (.throughForwardStart, s.pwr.powerGood = true ∧ s.slk.thruValid = true, setSlk { s.slk with thruOn := true } s),
        (.xtalReturn, s.pwr.rcClock = true, { s with pwr := { s.pwr with xtalOk := true, rcClock := false } }),
        (.pllUnlock .sys, pllRuns .sys s = true, fatal 10 0 { s with pwr := { s.pwr with sysLock := false } }),
        (.pllUnlock .slv, pllRuns .slv s = true, fatal 10 0 { s with pwr := { s.pwr with slvLock := false } }),
        (.pllUnlock .ser, pllRuns .ser s = true,
          syncDown (cause Reg.PWR_CAUSE 4 { s with pwr := { s.pwr with serLock := false } })),
        (.pfwRecoverTimeout, s.pwr.saved = true ∧ s.pwr.powerGood = true ∧ s.dev.mode ≠ .boot, enterBoot .full false true s),
        (.domainEnableRequest d u, domOk d = true, domRequest d u true s),
        (.domainDisableRequest d u, domOk d = true, domRequest d u false s),
        (.domainStartDone d, domOk d = true ∧ (dom s d).st = .starting,
          pllStop (setDom d (dom s d).startDone (pllStarted d s))),
        (.domainStopDone d, domOk d = true ∧ (dom s d).st = .stopping, pllStop (setDom d (dom s d).stopDone s)),
        (.domainStartTimeout d, domOk d = true ∧ (dom s d).st = .starting,
          cause Reg.PWR_CAUSE 5 (pllStop (setDom d { dom s d with st := .off } s))),
        (.scheduledWake d, domOk d = true ∧ usedNext d s = true ∧ s.pwr.sub ≤ 32 - getFld s Reg.PWR_CTL 3 0,
          domRequest d .scheduled true { s with pwr := { s.pwr with sub := 32 - getFld s Reg.PWR_CTL 3 0 } }),
        (.lingerExpire d, domOk d = true ∧ domStays s d = false ∧ domBusy d s = false ∧ domLingers d s = false,
          domRequest d .work false (domRequest d .scheduled false s)),
        (.hostLingerExpire d, domOk d = true ∧ hostLingers s d = false, domRequest d .host false s),
        (.readWidth1 a n c ecc, s.pwr.powerGood = true, hostRead 0x03#8 a n c ecc s),
        (.readWidth4 a n c ecc, s.pwr.powerGood = true, hostRead 0xEB#8 a n c ecc s),
        (.writeWidth1 a len data c, s.pwr.powerGood = true ∧ len = data.length, hostWrite 0x02#8 a len data c s),
        (.writeWidth4 a len data c, s.pwr.powerGood = true ∧ len = data.length, hostWrite 0x38#8 a len data c s),
        (.statusWidth1 c, s.pwr.powerGood = true, hostStatus 0x05#8 c s),
        (.statusWidth4 c, s.pwr.powerGood = true, hostStatus 0x75#8 c s),
        (.badCmd cm, cm ∉ [0x03#8, 0xEB#8, 0x02#8, 0x38#8, 0x05#8, 0x75#8],
          cause Reg.HIF_CAUSE 3 { s with hif := { s.hif with inResponse := false, response := [] } }),
        (.hostCsNEarlyRise none, True, cause Reg.HIF_CAUSE 2 (incFld Reg.HIF_CNT2 31 16 s)),
        (.hostCsNEarlyRise (some k), s.hif.inResponse = true ∧ s.hif.latched = [],
          incFld Reg.HIF_CNT2 31 16 { s with hif := { s.hif with inResponse := false, latched := [] } }),
        (.mbAck, s.hif.mbState = 2, { s with hif := { s.hif with mbState := 0 } }),
        (.mbUnknownCommand, s.hif.mbState = 1 ∧ mbCode s ∉ mbKnown, mbReply 7 [] s),
        (.begin c, c = theKey, txBegin { s with tx := { s.tx with idleTicks := 0 } }),
        (.commit c, c = theKey, txCommit false { s with tx := { s.tx with idleTicks := 0 } }),
        (.commitPrompt c, c = theKey, txCommit true { s with tx := { s.tx with idleTicks := 0 } }),
        (.rollback c, c = theKey, txRollback { s with tx := { s.tx with idleTicks := 0 } }),
        (.txIdleAbort, s.tx.st = 1 ∧ txIdleTime s * 1024 ≤ s.tx.idleTicks, cause Reg.JNL_CAUSE 4 (txEnd 3 0 0 s)),
        (.psUnlock n b c, c = theKey ∧ n < 4 ∧ psStates s = true, psUnlock n b s),
        (.psLock n b c, c = theKey ∧ n < 4 ∧ psStates s = true, psLock n b s),
        (.psSetPassword n b c, c = theKey ∧ n < 4 ∧ psStates s = true, psSet n b s),
        (.psLockoutExpire n true, n < 4 ∧ (psPart s n).writeLock = 0, setPart n { psPart s n with writeLock := 0 } s),
        (.psLockoutExpire n false, n < 4 ∧ (psPart s n).readLock = 0, setPart n { psPart s n with readLock := 0 } s),
        (.psWriteBurst a data, data ≠ [] ∧ s.ps.programming = false ∧ s.pwr.saving = false ∧ psPartOf a = some n ∧ psReason n true s = 0,
          psBurst a data s),
        (.psPageProgrammed, s.ps.programming = true, psProgram s),
        (.calSet c, c = theKey, setCal { s.mgt.cal with setPending := true } s),
        (.calInvalidate c, c = theKey, setCal { s.mgt.cal with invPending := true } s),
        (.ppsTimeout, 4096 ≤ s.mgt.cal.ppsTicks, setCal { s.mgt.cal with ppsLocked := false, ppsGood := 0 } s),
        (.snapEdge, getBit s Reg.MGT_SNAP_CTL 3 = true, { s with mgt := { s.mgt with snapReq := true } }),
        (.snapPeriodic, 0 < getFld s Reg.MGT_SNAP_PER 15 0 ∧ getFld s Reg.MGT_SNAP_PER 15 0 ≤ s.mgt.snapCount,
          { s with mgt := { s.mgt with snapReq := true, snapCount := 0 } }),
        (.snapStrobe, s.mgt.snapDue = true, snapStrobe s),
        (.pcLoRead n, n < 64, (pcLoRead n s).2), (.eTotLoRead g, g < 10, (eTotLoRead g s).2),
        (.trappcRead e, e < 8, (trapPcRead e s).2),
        (.totalsSave, s.dev.mode ≠ .hold, { s with mtr := { s.mtr with saveDue := some 1 } }),
        (.totalsSavePeriodic,
          hwStates s.dev.mode = true ∧ getFld s Reg.MTR_SAVE 11 0 * 1024 ≤ s.pwr.tick - s.mtr.saveTick,
          { s with mtr := { s.mtr with saveTick := s.pwr.tick, saveDue := some (s.mtr.saveDue.getD 0) } }),
        (.slvSelftestDone true, domOn s 5 = true ∧ s.slv.selftest = 1,
          { selftestArea s with slv := { (selftestArea s).slv with selftest := 2 } }),
        (.slvSelftestDone false, domOn s 5 = true ∧ s.slv.selftest = 1,
          cause Reg.SLV_CAUSE 6 { selftestArea s with slv := { (selftestArea s).slv with selftest := 3 } }),
        (.injectionEnd c, domOn s 6 = true ∧ (nth s.lpe.inj c {}).running = true ∧
          (getReg s (Reg.LPE_INJ_LEN + 0x20 * c)).toNat ≤ (nth s.lpe.inj c {}).k,
          cause Reg.LPE_CAUSE 3 (injSet c { nth s.lpe.inj c {} with running := false } s)),
        (.captureDone c, domOn s 6 = true ∧ (nth s.lpe.cap c {}).running = true ∧ (nth s.lpe.cap c {}).full = true,
          cause Reg.LPE_CAUSE 5 (capSet c { nth s.lpe.cap c {} with running := false } s)),
        (.retentiveSavePeriodic,
          hwStates s.dev.mode = true ∧ getFld s Reg.CE_RET_CTL 15 0 * 1024 ≤ s.pwr.tick - s.ce.retTick,
          retRequest { s with ce := { s.ce with retTick := s.pwr.tick } }),
        (.filterWindowEnd n, (pcGet s n).winOpen = true, pcSet n { pcGet s n with winOpen := false } s),
        (.waveformWindow wins b, domOn s 15 = true ∧ domOn s 16 = true ∧ hwStates s.dev.mode = true ∧ s.red.aligning = false,
          forMeters (elecOne wins b) (forL wins s waveWords)),
        (.syncResendTimeout n, domOn s 17 = true ∧ s.red.sync = true ∧ s.red.tx.find? (fun x => x.seq == n) = some { seq := n, msg := .tickEnd, tick := 0 },
          incFld Reg.RED_LINK 15 0 (setRed { s.red with sent := some (n, .tickEnd) } s)),
        (.standbyTickWork, s.dev.mode = .standby ∧ s.red.stepped = false ∧ streamsReady s = true, standbyTick s),
        (.lagTimeout, s.dev.mode = .standby ∧ s.red.aligning = false ∧ s.red.stepped = false ∧ streamsReady s = false,
          alignStart (maxFld Reg.RED_LAG 4 0 (getFld s Reg.RED_CTL 4 0) (cause Reg.RED_CAUSE 5 s))),
        (.claimSample, s.dev.mode = .ready ∧ s.red.claiming = true ∧ (s.red.actIn && !preferred s) = false,
          enterRun true true s),
        (.syncLaneLoss n, domOn s 17 = true ∧ s.red.sync = true ∧ s.red.lanes = 3 ∧ n < 2,
          cause Reg.RED_CAUSE 7 (setRed { s.red with lanes := 3 - 2 ^ n } s)),
        (.interlockConflict, paired s = true ∧ s.red.actOut = true ∧ s.red.actIn = true ∧ s.red.claiming = false ∧
          s.red.handKeep = false ∧ s.dev.mode = .run ∧ preferred s = true, fatal 11 0 s)] →
      p.2.1 → exec p.1 s = .next p.2.2) ∧
    (∀ (a : Nat) (w : Word) (b : Bool) (c e k key : Nat) (p : Instr × Prop × Nat × Word), hostOpen s = true → p ∈ [
        (Instr.registerWrite a w, a < 0x100000 ∧ a % 4 = 0, a, w),
        (.slkStnSelWrite w, True, Reg.SLK_STN_SEL, w), (.chnSelWrite w, True, Reg.CHN_SEL, w),
        (.mtrSelWrite w, True, Reg.MTR_SEL, w), (.mtrIvlSelWrite w, True, Reg.MTR_IVL_SEL, w),
        (.tariffSubmit w, True, Reg.MTR_TAR_D + 8, w), (.dayofsWrite w, True, Reg.MTR_DAYOFS, w),
        (.hydColdRequest, True, Reg.HYD_CTL, withBits Reg.HYD_CTL 0x100 s),
        (.optColdRequest, True, Reg.OPT_CTL, withBits Reg.OPT_CTL 4 s),
        (.slvSelftestStart, True, Reg.SLV_CTL, withBits Reg.SLV_CTL 0x100 s),
        (.loopCoefficientWrite a w, (lpeBank a).isSome = true ∧ a % 4 = 0, a, w),
        (.loopModeWrite k b, k < 256, loopReg Reg.LPE_L_CTL k, BitVec.ofNat 32 (b2n b)),
        (.loopReinit k, k < 256, loopReg Reg.LPE_L_CTL k, withBits (loopReg Reg.LPE_L_CTL k) 2 s),
        (.injectionStart c w, c < 4, Reg.LPE_INJ_CTL + 0x20 * c, w ||| 0x1000#32),
        (.injectionStop c, c < 4, Reg.LPE_INJ_CTL + 0x20 * c, withBits (Reg.LPE_INJ_CTL + 0x20 * c) 0x2000 s),
        (.captureStart c w, c < 4, Reg.LPE_CAP_CTL + 0x20 * c, w ||| 0x100#32),
        (.captureStop c, c < 4, Reg.LPE_CAP_CTL + 0x20 * c, withBits (Reg.LPE_CAP_CTL + 0x20 * c) 0x200 s),
        (.taskStop e k key, True, Reg.CE_CMD, ceCmdWord e k 1 key),
        (.taskStart e k key, True, Reg.CE_CMD, ceCmdWord e k 2 key),
        (.taskRestart e k key, True, Reg.CE_CMD, ceCmdWord e k 3 key),
        (.patchSubmit w, True, Reg.CE_PATCH_CTL, w ||| 0x10000#32),
        (.domainForceOn (k + 1) b, k < 17, Reg.PWR_DOM + 4 * k, BitVec.ofNat 32 (16 * b2n b))] →
      let t := hostTouch (neededDomains p.2.2.1 4) s
      p.2.1 → served s p.2.2.1 4 = true → stages t p.2.2.1 = false → writeReason p.2.2.1 p.2.2.2 t = 0 →
      exec p.1 s = .next (performWord p.2.2.1 p.2.2.2 t)) ∧
    (∀ (p : Instr × Nat × (State → Bool) × (List Byte → State → State)), p ∈ [
        (Instr.info, 0x01, (fun s => s.dev.mode != .boot), infoDo), (.ttOpen, 0x10, okTtWriter, fun r => durably (ttOpen r)),
        (.ttWrite, 0x11, okTtOpen, fun r => durably (ttWriteDo r)), (.ttClose, 0x12, okTtOpen, fun r => durably (ttClose r)), (.ttAbort, 0x13, okTtOpen, ttAbortDo),
        (.ttRead, 0x14, okRead, slotReader ttSlotBase 16777216 2), (.fwOpen, 0x20, okFw, fun r => durably (fwOpen r)),
        (.fwWrite, 0x21, okFwOpen, fun r => durably (fwWriteDo r)), (.fwClose, 0x22, okFwOpen, fun _ => durably fwClose),
        (.fwActivate, 0x23, okFw, fwActivate), (.fwConfirm, 0x24, (fun s => okFw s && s.mgt.trial), fun _ => fwConfirm),
        (.fwRead, 0x25, okFw, slotReader fwBase 4194304 2), (.evrRead, 0x30, okNotBoot, evrReadDo),
        (.evrFlush, 0x31, okRead, evrFlushDo), (.logRead, 0x32, okRead, logReadDo), (.archRead, 0x33, okRead, archReadDo),
        (.jnlRead, 0x34, okRead, slotReader (fun k => 0x02800000 + k * 0x100000) 0x100000 16),
        (.keyInfo, 0x40, okNotBoot, keyInfoDo), (.keyGenerate, 0x41, okKeyChange, keyGenerateDo),
        (.keyImport, 0x42, okKeyChange, keyImportDo), (.keyDerive, 0x43, okKeyChange, keyDeriveDo),
        (.keyExport, 0x44, (fun s => okNotBoot s && (s.dev.mode == .hold || s.dev.mode == .ready)), keyExportDo),
        (.keyDestroy, 0x45, okKeyChange, keyDestroyDo), (.keyRemask, 0x46, okNotBoot, keyRemaskDo),
        (.compatMask, 0x47, okKeyChange, compatMaskDo), (.compatLoad, 0x48, okKeyChange, compatLoadDo),
        (.maExtend, 0x49, okNotBoot, maExtendDo), (.maRead, 0x4A, okNotBoot, maReadDo), (.maLog, 0x4B, okNotBoot, maLogDo),
        (.encrypt, 0x4C, okNotBoot, encryptDo), (.decrypt, 0x4D, okNotBoot, decryptDo),
        (.stationKey, 0x4E, okKeyChange, stationKeyDo),
        (.attest, 0x50, (fun s => okNotBoot s && (s.dev.mode == .hold || secFlag s 0)), attestDo),
        (.identity, 0x51, okNotBoot, identityDo), (.signerSet, 0x52, okNotBoot, signerSetDo),
        (.signerInfo, 0x53, okNotBoot, signerInfoDo)] →
      s.hif.mbState = 1 → s.hif.mbWait = false → mbCode s = p.2.1 → p.2.2.1 s = true → s.ps.programming = false → keyBusy s = false →
      exec p.1 s = .next (p.2.2.2 (mbReq s) s)) ∧
    (∀ (es : List Nat) (sc : List Upset) (rs : List Readback) (bist : BistReport) (b : Bool) (n : Nat) (ts : List Word)
        (mv : List Nat) (us : Rat),
      (∃ t, exec (.tick es sc rs) s = .next t ∧ t.pwr.tick = (s.pwr.tick + 1) % 2 ^ 48) ∧
      (s.pwr.powerGood = false → s.pwr.vao = true → ∃ t, exec (.powerGood bist b) s = .next t ∧ t.pwr.powerGood = true) ∧
      (s.pwr.powerGood = true → ∃ t, exec .powerGoodLoss s = .next t ∧ t.pwr.powerGood = false) ∧
      (10000 ≤ n → s.pwr.rstLow = false → s.pwr.rstHeld = false → s.pwr.saving = false →
        ∃ t, exec (.rstNAssert n) s = .next t ∧ t.pwr.rstLow = true ∧ t.dev.mode = .boot) ∧
      (s.pwr.rstHeld = false → s.pwr.rstLow = true → ∃ t, exec (.rstNRelease bist) s = .next t ∧ t.pwr.rstLow = false) ∧
      (∃ t, exec (.vaoRise b n) s = .next t ∧ t.pwr.tick = 0 ∧ t.dev.mode = .boot) ∧
      (s.pwr.rcClock = false → ∃ t, exec .xtalFail s = .next t ∧ t.pwr.rcClock = true ∧ t.mgt.cal.valid = false) ∧
      (getFld s Reg.PWR_PFW 5 0 * 1000 ≤ n → s.pwr.saving = false → s.pwr.saved = false →
        ∃ t, exec (.powerFailWarning n) s = .next t ∧ t.dev.mode = s.dev.mode ∧ t.dev.bootPending = none) ∧
      (exec (.healthSample ts mv) s = .next (forL (mv.take 7).zipIdx
        (forL (ts.take 4).zipIdx s (fun x s => healthTemp x.2 x.1 s)) (fun x s => healthRail x.2 x.1 s))) ∧
      (s.pwr.powerGood = true → s.pwr.rstLow = false → s.dev.mode ≠ .boot →
        exec .watchdogExpire s = .next (mbAbort (fatal 12 0 (cause Reg.MGT_CAUSE 0 s)))) ∧
      (∀ a data w, s.hif.pending = some (a, data) → hostRange a = some (.window w) →
        exec .hostWritePerform s = .next (wordsPerform (burstWords a data) s.hif.pendStaged
          { s with hif := { s.hif with pending := none, pendStaged := [], seq := (s.hif.seq + 1) % 2 ^ 16 } })) ∧
      (fabOn s = true → s.slv.holder ≠ 0 → (fabGet s s.slv.holder).unit = .factor →
        exec .fabricFactorisationDone s = .next (fabGrant (
          let r := slvFactor s.slv.holder s
          let v := fabEnd s.slv.holder r.2
          if s.slv.holder = 1 then optIfDue (hydFactored r.1 v) else optFactored r.1 v))) ∧
      (fabOn s = true → s.slv.holder ≠ 0 → (fabGet s s.slv.holder).unit = .solve →
        exec .fabricSolveDone s = .next (fabGrant (
          let r := slvSolve s.slv.holder s
          let v := fabEnd s.slv.holder r.2
          if s.slv.holder = 1 then hydSolved r.1 v else optSolved r.1 v))) ∧
      (∀ x rest, s.key.round.filter (fun x => keyMaskable s x) = x :: rest → keyBusy s = false → s.dev.mode ≠ .boot →
        s.key.rngOk = true → ∃ t u, exec .remaskDue s = .next t ∧ t = keyWrite x (keyEntry s x).ptr
          (xorBytes (slice (keyEntry s x).half 0x10 32) (keyRandom s).1 ++
            xorBytes (slice (keyEntry s x).half 0x30 32) (keyRandom s).1) true false [] u) ∧
      (s.mgt.cal.slew ≠ 0 → 32 ≤ s.mgt.cal.slewTick → ∃ t, exec .calSlewStep s = .next t ∧
        t.mgt.cal.slewTick = s.mgt.cal.slewTick - 32 ∧
        t.mgt.cal.slew = s.mgt.cal.slew - (if 0 < s.mgt.cal.slew then 1 else -1)) ∧
      (getBit s Reg.MGT_CAL_PPS 0 = true → s.mgt.cal.valid = true →
        ∃ t, exec (.ppsEdge us) s = .next t ∧ t.mgt.cal.ppsTicks = 0) ∧
      (s.mgt.cal.leapDone = true → ∃ t, exec .leapSecond s = .next t ∧ t.mgt.cal.leapDone = false) ∧
      (0 < getFld s Reg.MGT_EVR_CTL 11 0 → getFld s Reg.MGT_EVR_CTL 11 0 * 1024 ≤ s.mgt.flushTicks →
        ∃ t, exec .evrFlushPeriod s = .next t ∧ t.mgt.flushTicks = 0) ∧
      (s.pwr.tick % 1024 = 0 → ∃ t, exec .evrBucketRefill s = .next t ∧
        t.mgt.evr.buckets.map (fun x => x.code) = s.mgt.evr.buckets.map (fun x => x.code) ∧
        t.mgt.evr.overflow.tokens = min (600 * 3600) (s.mgt.evr.overflow.tokens + 600)) ∧
      ((stamp s).1 % 3600 = 0 → ∃ t, exec .evrSummary s = .next t ∧ t.mgt.evr.overflow.suppressed = 0) ∧
      (s.mgt.evr.scanning = true → ∃ t, exec .evrScanDone s = .next t ∧ t.mgt.evr.scanning = false)) ∧
    (∀ (e k x : Nat) (r : TaskRec) (lr : LoopRec),
      (lpeRuns s = true → commitDue s = false → loopNext s = some x → loopOf s x = some lr →
        exec .loopSample s = .next (loopTime (loopSample lr { s with lpe := { s.lpe with tick := s.pwr.tick, next := x + 1 } }))) ∧
      ((theTt s).task e k = some r → engRuns s e = true → ceLoaded (theTt s) e = true → (taskGet s e k).mode = .idle →
        (taskGet s e k).evalTick ≠ some s.pwr.tick →
        (r.kind = 0 → taskDue s r = true → exec (.taskRelease e k) s =
          .next (taskRelease e k (taskSet e k { taskGet s e k with evalTick := some s.pwr.tick } s))) ∧
        (r.kind = 1 → r.edge = 3 → (taskGet s e k).truth = some false →
          eventTruth s r.eventRef (some false) = some true → exec (.eventTaskRelease e k) s =
            .next (taskRelease e k (taskSet e k
              { taskGet s e k with truth := some true, evalTick := some s.pwr.tick } s)))) ∧
      (engRuns s e = true → (ceGet s e).run = none → nextTask s e = some r → (taskGet s e r.task).mode = .preempted →
        exec (.taskDispatch e) s = .next (taskSet e r.task { taskGet s e r.task with mode := .running }
          (ceSet e { ceGet s e with run := some r.task, atEnd := none } s))) ∧
      (engRuns s e = true → (ceGet s e).run = some k → (theTt s).task e k = some r →
        overBudget r (taskGet s e k).cycles = true →
        exec (.budgetExpire e) s = .next (ceTrap e k 0x0B (taskGet s e k).pc s)) ∧
      (∀ q, (ceGet s e).patches = [q] → atBoundary ((ceGet s e).task q.task) = true →
        exec (.patchApply e) s = .next (patchWrite e q (ceSet e { ceGet s e with patches := [] } s))) ∧
      (∀ t0 a, (ceGet s e).retReq = some t0 → (theTt s).ret e = some a → (ceGet s e).atEnd ≠ some s.pwr.tick →
        s.pwr.saving = false → ceIdle s e = true → exec (.retentiveCapture e) s = .next (retCapture a false (.retentive e) s))) ∧
    (∀ (p n : Nat) (f : List Byte) (c : Car) (time res : Int) (onward : Bool),
      (trainsLeave s = true → joinTime s = true → s.slk.joinTick ≠ some s.pwr.tick → exec .joinTrainDepart s = .next
        (forL ((headPorts (theTt s)).filter (fun p => (lineSt s p).joinPhase && decide ((lineSt s p).round < joinLimit s)))
          (setSlk { s.slk with joinTick := some s.pwr.tick } s) (sendTrain false))) ∧
      (exec .joinPhaseEnd s = .next
        (forL (headPorts (theTt s)) s (fun p s => if joinLimit s ≤ (lineSt s p).round then joinEnd p s else s))) ∧
      (rxJudge s p f = .car c → c.guest = false → carLate s p = false →
        (c.kind = 1 → exec (.timeCarReturn p f n) s = .next (
          let u := ringJudge p c (carBack p c false s)
          let v := setReg (Reg.SLK_LRT + 0x40 * p) (BitVec.ofNat 32 (n % 2 ^ 32))
            (maxFld (Reg.SLK_LRTMAX + 0x40 * p) 31 0 (n % 2 ^ 32) u)
          setLine p { lineSt v p with prev := (c.train, n % 2 ^ 32, u32 c.body 0x14), turnPos := c.hops % 512 } v)) ∧
        (c.kind = 2 → exec (.outputCarReturn p f) s = .next (ringJudge p c (carBack p c false s))) ∧
        (c.kind = 3 → exec (.inputCarReturn p f) s =
          .next (forN c.slots (ringJudge p c (carBack p c false s)) (fun k s => inputSlot p c k s))) ∧
        (c.kind = 4 → exec (.joinCarReturn p f) s =
          .next (forN 16 (ringJudge p c (carBack p c false s)) (fun k s => joinSlot p c k s)))) ∧
      (thruForwards s p = false → rxJudge s p f = .badFcs →
        exec (.frameDiscard p f) s = .next (incFld (Reg.SLK_LCNT_FCS + 0x40 * p) 15 0 s)) ∧
      (∀ r, (headRoster (theTt s)).find? (fun r => r.station == n) = some r → trainsRun s = true →
        (stnSt s n).state ≠ 2 → (stnSt s n).got = none → staleHeadways (theTt s) r.line ≤ (stnSt s n).missed →
        exec (.presenceStaleExpire n) s = .next (stnWorsen .bad n s)) ∧
      (hwStates s.dev.mode = true → s.slk.epochWait = none → (getReg s Reg.SLK_EPOCH).toNat < epochComputed s →
        ∃ t, exec .epochAdvance s = .next t ∧ t.slk.epochWait = some (epochComputed s)) ∧
      (s.dev.tt.isSome = true → s.pwr.tick % 64 = 0 → p < 8 → s.slk.lines.length = 8 → ((theTt s).line p).mode ≠ 0 →
        ∃ t, exec (.phyLinkPoll n) s = .next t ∧ (lineSt t p).link = (gateOpen s && bit n p)) ∧
      (∀ other v, thruOther s p = some other → thruForwards s p = true → 64 ≤ f.length → frameOk f = true →
        thruEther s p f = true → carOf (framePayload f) = some v →
        exec (.throughCarArrive p f time res onward) s = .next (thruForward p other f v time res onward s))) ∧
    (∀ (c us code : Nat) (r : Channel) (v1 v2 : Rat) (full exc b : Bool), (theTt s).chan c = some r → blind s r = false →
      domOn s 15 = true →
      (modeSlots r.mode ≠ 0 → scanNext s (c / 16) = some c →
        let rd := convRead ((theTt s).platform (c / 16)) r v1 v2 full exc
        let u := scanStep (c / 16) (excReport (c / 16) exc s)
        ∀ x, rd.val = some x → rd.bad = false → exec (.conversionDone c code v1 v2 full exc) s = .next
          (convGood r x rd.sec (setChan c { chanSt u c with code := code % 2 ^ 24, last := f32OfRat x } u))) ∧
      (r.mode = 7 → (chanSt s c).level = none → exec (.acceptedEdge c b us) s = .next
        (ciPrimary c (levelWord (b != bit r.p1 15) .good)
          (setChan c { chanSt s c with level := some (b != bit r.p1 15), highTick := s.pwr.tick } s))) ∧
      (r.mode = 7 → (chanSt s c).chatter = true → (edgesWithin r.p0 (instant s us) (chanSt s c).edges).length ≤ r.p1 % 256 / 2 →
        exec (.chatterExit c us) s = .next (ciPrimary c (levelWord ((chanSt s c).level.getD false) .good) (setChan c
          { chanSt s c with chatter := false, edges := edgesWithin r.p0 (instant s us) (chanSt s c).edges } s))) ∧
      (r.mode = 7 → bits r.p1 13 8 ≠ 0 → (chanSt s c).level = some true → (chanSt s c).stuck = false →
        bits r.p1 13 8 * 3600 * 1024 < s.pwr.tick - (chanSt s c).highTick →
        exec (.stuckTimeout c) s = .next (causeS Reg.CHN_CAUSE 3 c (setChan c { chanSt s c with stuck := true } s))) ∧
      (∀ v, r.mode = 19 → chnTarget s r = some v →
        exec (.pwmPeriodStart c) s = .next (setChan c { chanSt s c with duty := chnApplied r v } s)) ∧
      (r.mode = 20 → s.dev.mode = .run → 0 < (chanSt s c).tpQueue → (chanSt s c).pulseTick = none →
        exec (.testPulse c) s = .next (setChan c { chanSt s c with
            pulseTick := some s.pwr.tick
            tpQueue := (chanSt s c).tpQueue - 1 } s))) ∧
    (∀ (n m day : Nat) (recs : List (Nat × List Byte)) (r : Meter) (b : Bool) (msg : SyncMsg),
      (hwStates s.dev.mode = true → exec (.countedEdge n) s =
        .next (if (pulseEdge n s).2 = true then overrateMark (pcGet s n).channel (pulseEdge n s).1 else (pulseEdge n s).1)) ∧
      (domOn s 16 = true → hwStates s.dev.mode = true → (s.dev.mode = .standby → computes s = true) → s.pwr.tick % 256 = 0 →
        s.mtr.sampleTick ≠ some s.pwr.tick →
        exec .thermalSample s =
          .next (totalsBoundary (forMeters thermalOne { s with mtr := { s.mtr with sampleTick := some s.pwr.tick } }))) ∧
      (meterRec (theTt s) m = some r → domOn s 16 = true → hwStates s.dev.mode = true → exec (.intervalClose m) s = .next (ivlDue m r s)) ∧
      (s.mtr.archDue = some (day, recs) →
        ∃ t, exec (.midnightArchive none []) s = .next t ∧ t.mtr.archDue = none) ∧
      (∃ t, exec (.actInNChange b) s = .next t ∧ t.red.actIn = b) ∧
      (domOn s 17 = true → paired s = true → s.red.sync = true → msg ≠ .ack → s.red.rxSeq ≠ some n →
        exec (.syncFrame n msg) s = .next (syncReceive msg (setRed { s.red with
          sent := some (n, .ack)
          rxSeq := some n } s))) ∧
      (∀ t0, s.red.downTick = some t0 → s.dev.mode = .standby → noFatal s = true → guardTicks s ≤ s.pwr.tick - t0 →
        ∃ t, exec .takeover s = .next t ∧ t.dev.mode = .run) ∧
      (s.dev.mode = .run → paired s = true → s.red.swapDue = true → s.red.handover = false →
        s.red.swapDay = none → s.mgt.cal.seconds / 60 % 1440 = (theTt s).redundancy.swapMinute → swapOk s = true → exec .provingSwap s = .next (setRed { s.red with handover := true, handAck := false } s)) ∧
      (domOn s 17 = true → paired s = true → s.red.sync = false → s.pwr.serLock = true →
        ∃ t, exec .syncLinkUp s = .next t ∧ t.red.sync = true)) ∧
    (∀ (e : Nat) (c : CeCtx),
      (CeExecutes e c s → ∀ p ∈ [(Instr.ceAdd e, isR 0x00 0x00), (.ceSub e, isR 0x00 0x01), (.ceAnd e, isR 0x00 0x02),
          (.ceOr e, isR 0x00 0x03), (.ceXor e, isR 0x00 0x04), (.ceSll e, isR 0x00 0x05), (.ceSrl e, isR 0x00 0x06),
          (.ceSra e, isR 0x00 0x07), (.ceSlt e, isR 0x00 0x08), (.ceSltu e, isR 0x00 0x09), (.ceMin e, isR 0x00 0x0A),
          (.ceMax e, isR 0x00 0x0B), (.ceMul e, isR 0x00 0x0C), (.ceMulh e, isR 0x00 0x0D), (.ceMulhu e, isR 0x00 0x0E),
          (.ceDiv e, isR 0x00 0x10), (.ceDivu e, isR 0x00 0x11), (.ceRem e, isR 0x00 0x12), (.ceRemu e, isR 0x00 0x13),
          (.ceSlli e, isR 0x00 0x18), (.ceSrli e, isR 0x00 0x19), (.ceSrai e, isR 0x00 0x1A), (.ceClz e, isR1 0x00 0x1C),
          (.ceAddi e, isOp 0x02), (.ceAndi e, isOp 0x03), (.ceOri e, isOp 0x04), (.ceXori e, isOp 0x05),
          (.ceSlti e, isOp 0x06), (.ceSltiu e, isOp 0x07), (.ceLui e, isOp0 0x08), (.ceFadd e, isR 0x01 0x00),
          (.ceFsub e, isR 0x01 0x01), (.ceFmul e, isR 0x01 0x02), (.ceFdiv e, isR 0x01 0x03), (.ceFsqrt e, isR1 0x01 0x04),
          (.ceFmadd e, isR 0x01 0x05), (.ceFmin e, isR 0x01 0x06), (.ceFmax e, isR 0x01 0x07), (.ceFabs e, isR1 0x01 0x08),
          (.ceFneg e, isR1 0x01 0x09), (.ceFeq e, isR 0x01 0x0A), (.ceFlt e, isR 0x01 0x0B), (.ceFle e, isR 0x01 0x0C),
          (.ceFcvtWs e, isR1 0x01 0x0D), (.ceFcvtSw e, isR1 0x01 0x0E), (.ceFclamp e, isR 0x01 0x0F), (.ceLb e, isOp 0x10),
          (.ceLbu e, isOp 0x11), (.ceLh e, isOp 0x12), (.ceLhu e, isOp 0x13), (.ceLw e, isOp 0x14), (.ceLd e, isOpPair 0x15),
          (.ceSb e, isOp 0x18), (.ceSh e, isOp 0x19), (.ceSw e, isOp 0x1A), (.ceSd e, isOpPair 0x1B), (.ceLit e, isOp0 0x16),
          (.ceLitD e, fun w => isOp0 0x17 w && isOpPair 0x17 w), (.ceBeq e, isOp 0x20), (.ceBne e, isOp 0x21),
          (.ceBlt e, isOp 0x22), (.ceBge e, isOp 0x23), (.ceBltu e, isOp 0x24), (.ceBgeu e, isOp 0x25), (.ceJal e, isOp 0x26),
          (.ceJalr e, isOp 0x27), (.ceIrd e, isRPair 0x28 0x00), (.ceIwr e, isRPair 0x28 0x01), (.ceQmax e, isR 0x28 0x02),
          (.ceQok e, isR1 0x28 0x03), (.ceTon e, isR 0x29 0x00), (.ceTof e, isR 0x29 0x01), (.ceTp e, isR 0x29 0x02),
          (.ceTrst e, isR1 0x29 0x03), (.ceEdr e, isR 0x29 0x08), (.ceEdf e, isR 0x29 0x09), (.ceEdb e, isR 0x29 0x0A),
          (.ceNop e, fun w => isS 0x0 w && legalWord w), (.ceTrap e, fun w => isS 0x2 w && legalWord w),
          (.ceEvt e, fun w => isS 0x3 w && legalWord w), (.ceRdt e, fun w => isS 0x4 w && legalWord w),
          (.ceFstat e, fun w => isS 0x5 w && legalWord w)],
        p.2 c.w = true → (∃ b pc n u, exec p.1 s = .next (ceCommitBank c b pc n u)) ∨
          ∃ code, exec p.1 s = .next (ceTrap e c.k code c.t.pc s)) ∧
      (CeExecutes e c s → isS 0x1 c.w = true → legalWord c.w = true → endOverBudget c s = false →
        exec (.ceEnd e) s = .next (endRelease c s)) ∧
      (CeExecutes e c s → legalWord c.w = false → exec (.illegalInstruction e) s = .next (ceTrap e c.k 0x01 c.t.pc s)) ∧
      (ceCtx e s = some c → c.inText = false → overBudget c.r c.t.cycles = false →
        exec (.fetchAtTextEnd e) s = .next (ceTrap e c.k 0x04 c.t.pc s)))
end

