-- ==== Sys2Proof/Laws/Ops.lean ====
section
/-! SUPPORT. What the shared operations of Machine/Ops.lean can do: sparse maps in canonical form, the register file and
the die built on them, and the parts of a state that recording an event or a cause can touch. -/

namespace Sys2Proof.Machine

/-! ### Sparse maps -/

theorem smWfFrom_mono {α : Type} [DecidableEq α] (d : Nat → α) (a b : Nat) (m : List (Nat × α)) (h : a ≤ b)
    (hm : smWfFrom d b m = true) : smWfFrom d a m = true := by
  cases m with
  | nil => rfl
  | cons p m =>
    simp only [smWfFrom, Bool.and_eq_true, decide_eq_true_eq] at hm ⊢
    exact ⟨⟨by omega, hm.1.2⟩, hm.2⟩

theorem smGet_of_lt {α : Type} [DecidableEq α] (d : Nat → α) (m : List (Nat × α)) (lo k : Nat) (hm : smWfFrom d lo m = true)
    (h : k < lo) : smGet d m k = d k := by
  cases m with
  | nil => rfl
  | cons p m =>
    obtain ⟨k', v⟩ := p
    simp only [smWfFrom, Bool.and_eq_true, decide_eq_true_eq] at hm
    simp only [smGet]
    rw [if_neg (by omega), if_pos (by omega)]

theorem smInsert_wf {α : Type} [DecidableEq α] (d : Nat → α) (m : List (Nat × α)) (lo k : Nat) (v : α)
    (hm : smWfFrom d lo m = true) (h : lo ≤ k) (hv : v ≠ d k) : smWfFrom d lo (smInsert m k v) = true := by
  induction m generalizing lo with
  | nil => simp [smInsert, smWfFrom, h, hv]
  | cons p m ih =>
    obtain ⟨k', v'⟩ := p
    simp only [smWfFrom, Bool.and_eq_true, decide_eq_true_eq, Bool.not_eq_true', decide_eq_false_iff_not] at hm
    unfold smInsert
    split
    · simp only [smWfFrom, Bool.and_eq_true, decide_eq_true_eq, Bool.not_eq_true', decide_eq_false_iff_not]
      exact ⟨⟨h, hv⟩, ⟨by omega, hm.1.2⟩, hm.2⟩
    · split
      · rename_i hk
        subst hk
        simp only [smWfFrom, Bool.and_eq_true, decide_eq_true_eq, Bool.not_eq_true', decide_eq_false_iff_not]
        exact ⟨⟨h, hv⟩, hm.2⟩
      · simp only [smWfFrom, Bool.and_eq_true, decide_eq_true_eq, Bool.not_eq_true', decide_eq_false_iff_not]
        exact ⟨hm.1, ih _ hm.2 (by omega)⟩

theorem smErase_wf {α : Type} [DecidableEq α] (d : Nat → α) (m : List (Nat × α)) (lo k : Nat)
    (hm : smWfFrom d lo m = true) : smWfFrom d lo (smErase m k) = true := by
  induction m generalizing lo with
  | nil => rfl
  | cons p m ih =>
    obtain ⟨k', v'⟩ := p
    have h0 := hm
    simp only [smWfFrom, Bool.and_eq_true, decide_eq_true_eq, Bool.not_eq_true', decide_eq_false_iff_not] at hm
    unfold smErase
    split
    · exact h0
    · split
      · exact smWfFrom_mono d _ _ _ (by omega) hm.2
      · simp only [smWfFrom, Bool.and_eq_true, decide_eq_true_eq, Bool.not_eq_true', decide_eq_false_iff_not]
        exact ⟨hm.1, ih _ hm.2⟩

/-- A write keeps the canonical form. -/
theorem smPut_wf {α : Type} [DecidableEq α] (d : Nat → α) (m : List (Nat × α)) (k : Nat) (v : α) (hm : smWf d m = true) :
    smWf d (smPut d m k v) = true := by
  unfold smPut smWf
  split
  · exact smErase_wf d m 0 k hm
  · rename_i h
    exact smInsert_wf d m 0 k v hm (Nat.zero_le _) h

/-- So do writes of consecutive keys. -/
theorem smPutList_wf {α : Type} [DecidableEq α] (d : Nat → α) (m : List (Nat × α)) (k : Nat) (vs : List α)
    (hm : smWf d m = true) : smWf d (smPutList d m k vs) = true := by
  induction vs generalizing m k with
  | nil => exact hm
  | cons v vs ih => exact ih _ _ (smPut_wf d m k v hm)

theorem smGet_insert {α : Type} (d : Nat → α) (m : List (Nat × α)) (k j : Nat) (v : α) :
    smGet d (smInsert m k v) j = if j = k then v else smGet d m j := by
  induction m with
  | nil =>
    by_cases h : j = k
    · simp [smInsert, smGet, h]
    · simp [smInsert, smGet, h, Ne.symm h]
  | cons p m ih =>
    obtain ⟨k', v'⟩ := p
    unfold smInsert
    split
    · by_cases h : j = k
      · simp [smGet, h]
      · simp only [smGet, if_neg h, if_neg (Ne.symm h)]
        by_cases hj : j < k
        · rw [if_pos hj, if_neg (by omega), if_pos (by omega)]
        · rw [if_neg hj]
    · split
      · rename_i h1 h2
        subst h2
        by_cases h : j = k
        · simp [smGet, h]
        · simp [smGet, h, Ne.symm h]
      · rename_i h1 h2
        simp only [smGet, ih]
        by_cases h : j = k
        · rw [if_neg (by omega), if_neg (by omega), if_pos h, if_pos h]
        · simp [h]

theorem smGet_erase {α : Type} [DecidableEq α] (d : Nat → α) (m : List (Nat × α)) (lo k j : Nat)
    (hm : smWfFrom d lo m = true) : smGet d (smErase m k) j = if j = k then d k else smGet d m j := by
  induction m generalizing lo with
  | nil =>
    simp only [smErase, smGet]
    split <;> simp_all
  | cons p m ih =>
    obtain ⟨k', v'⟩ := p
    simp only [smWfFrom, Bool.and_eq_true, decide_eq_true_eq] at hm
    unfold smErase
    split
    · by_cases h : j = k
      · simp only [smGet]
        rw [if_neg (by omega), if_pos (by omega), if_pos h, h]
      · rw [if_neg h]
    · split
      · rename_i h1 h2
        subst h2
        by_cases h : j = k
        · rw [if_pos h, h]
          exact smGet_of_lt d m _ _ hm.2 (by omega)
        · rw [if_neg h]
          simp only [smGet]
          rw [if_neg (Ne.symm h)]
          split
          · exact smGet_of_lt d m _ _ hm.2 (by omega)
          · rfl
      · simp only [smGet, ih _ hm.2]
        by_cases h : j = k
        · rw [if_neg (by omega), if_neg (by omega), if_pos h, if_pos h]
        · simp [h]

/-- A read after a write: the value written at its key, the old one elsewhere. -/
theorem smGet_put {α : Type} [DecidableEq α] (d : Nat → α) (m : List (Nat × α)) (k j : Nat) (v : α)
    (hm : smWf d m = true) : smGet d (smPut d m k v) j = if j = k then v else smGet d m j := by
  unfold smPut
  split
  · rename_i h
    rw [smGet_erase d m 0 k j hm, h]
  · exact smGet_insert d m k j v

/-! ### The register file and the die -/

/-- The register file is in canonical form after every write of a register. -/
theorem setReg_wf (a : Nat) (v : Word) (s : State) (h : smWf regReset s.regs = true) :
    smWf regReset (setReg a v s).regs = true := smPut_wf _ _ _ _ h

/-- A register reads back what was written, and every other register is as before. -/
theorem getReg_setReg (a b : Nat) (v : Word) (s : State) (h : smWf regReset s.regs = true) :
    getReg (setReg a v s) b = if b = a then v else getReg s b := smGet_put _ _ _ _ _ h

/-- The die is in canonical form after every programming. -/
theorem nvWrite_wf (off : Nat) (bs : List Byte) (s : State) (h : smWf nvDelivery s.nv = true) :
    smWf nvDelivery (nvWrite off bs s).nv = true := smPutList_wf _ _ _ _ h

/-! ### What recording touches -/

/-- `t` differs from `s` in the register file, the die and the management block only. -/
def Recorded (s t : State) : Prop := t = { s with regs := t.regs, nv := t.nv, mgt := t.mgt }

theorem Recorded.refl (s : State) : Recorded s s := rfl

theorem Recorded.trans {s t u : State} (h : Recorded s t) (k : Recorded t u) : Recorded s u := by
  unfold Recorded at h k ⊢
  rw [k, h]

theorem setReg_recorded (a : Nat) (v : Word) (s : State) : Recorded s (setReg a v s) := rfl

theorem setFld_recorded (a hi lo v : Nat) (s : State) : Recorded s (setFld a hi lo v s) := rfl

theorem setBit_recorded (a i : Nat) (b : Bool) (s : State) : Recorded s (setBit a i b s) := rfl

theorem incFld_recorded (a hi lo : Nat) (s : State) : Recorded s (incFld a hi lo s) := rfl

theorem forL_recorded {α : Type} (xs : List α) (s : State) (f : α → State → State) (h : ∀ x t, Recorded t (f x t)) :
    Recorded s (forL xs s f) := by
  unfold forL
  induction xs generalizing s with
  | nil => exact Recorded.refl s
  | cons x xs ih => exact (h x s).trans (ih _)

theorem evProgram_recorded (s : State) : Recorded s (evProgram s) := by
  unfold evProgram
  extract_lets s1
  have h : Recorded s s1 := forL_recorded _ _ _ fun x t => rfl
  exact h.trans rfl

theorem evFlush_recorded (save : Bool) (s : State) : Recorded s (evFlush save s) := by
  unfold evFlush
  split
  · exact Recorded.refl s
  · dsimp only
    split
    · refine Recorded.trans ?_ (evProgram_recorded _)
      rfl
    · rfl

theorem evStore_recorded (direct : Bool) (r : List Byte) (s : State) : Recorded s (evStore direct r s) := by
  unfold evStore
  split
  · rfl
  · dsimp only
    split
    · rfl
    · split
      · rfl
      · split
        · refine Recorded.trans ?_ (evFlush_recorded false _)
          rfl
        · rfl

theorem evRecord_recorded (code source : Nat) (d0 d1 : Word) (x n : Nat) (s : State) :
    Recorded s (evRecord code source d0 d1 x n s) := evStore_recorded ..

/-- Raising an event touches nothing else. -/
theorem evRaise_recorded (code source : Nat) (d0 d1 : Word) (s : State) : Recorded s (evRaise code source d0 d1 s) := by
  unfold evRaise
  extract_lets e src done
  have hd (o : Option Nat) (e' : EvrState) : Recorded s (done o e') := by
    simp only [done]
    cases o with
    | some n => exact Recorded.trans (t := { s with mgt := { s.mgt with evr := e' } }) rfl (evRecord_recorded ..)
    | none => rfl
  split
  · exact hd ..
  · split <;> exact hd ..

/-- Nor does setting a cause. -/
theorem causeD_recorded (reg b src : Nat) (d0 d1 : Word) (s : State) : Recorded s (causeD reg b src d0 d1 s) := by
  unfold causeD
  dsimp only
  split
  · rfl
  · split <;> exact (setBit_recorded reg b true s).trans (evRaise_recorded ..)

theorem cause_recorded (reg b : Nat) (s : State) : Recorded s (cause reg b s) := causeD_recorded ..

theorem causeS_recorded (reg b src : Nat) (s : State) : Recorded s (causeS reg b src s) := causeD_recorded ..

end Sys2Proof.Machine
end

