-- ==== Sys2Proof/Laws/Cause.lean ====
section
/-! SUPPORT. Fields of registers, and which registers the recorder and the causes touch. -/

set_option linter.unusedSimpArgs false
set_option linter.unusedTactic false
set_option linter.unreachableTactic false

namespace Sys2Proof.Machine

/-! ### Fields -/

/-- A bit of a word with a field replaced: the field's inside it, the old one elsewhere. -/
theorem setField_bit (w : Word) (hi lo v i : Nat) (h : hi < 32) (hl : lo ≤ hi) (hi' : i < 32) :
    (setField w hi lo v).getLsbD i = if lo ≤ i ∧ i ≤ hi then v.testBit (i - lo) else w.getLsbD i := by
  have hp : (2 ^ (hi + 1 - lo) - 1) < 2 ^ 32 :=
    lt_of_lt_of_le (Nat.sub_lt (Nat.two_pow_pos _) Nat.one_pos) (Nat.pow_le_pow_right (by decide) (by omega))
  have hq : v % 2 ^ (hi + 1 - lo) < 2 ^ 32 :=
    lt_of_lt_of_le (Nat.mod_lt _ (Nat.two_pow_pos _)) (Nat.pow_le_pow_right (by decide) (by omega))
  simp only [setField, BitVec.getLsbD_or, BitVec.getLsbD_and, BitVec.getLsbD_not, BitVec.getLsbD_shiftLeft,
    BitVec.getLsbD_ofNat, Nat.testBit_two_pow_sub_one, Nat.testBit_mod_two_pow, hi', decide_true, Bool.true_and]
  by_cases h1 : lo ≤ i
  · by_cases h2 : i ≤ hi
    · have : i - lo < hi + 1 - lo := by omega
      simp [h1, h2, this, show ¬ i < lo from by omega, show i - lo < 32 from by omega]
    · have : ¬ i - lo < hi + 1 - lo := by omega
      simp [h1, h2, this]
  · simp [h1, show i < lo from by omega]

/-- A field that has been replaced. -/
theorem field_setField (w : Word) (hi lo v : Nat) (h : hi < 32) (hl : lo ≤ hi) :
    field (setField w hi lo v) hi lo = v % 2 ^ (hi + 1 - lo) := by
  apply Nat.eq_of_testBit_eq
  intro i
  simp only [field, bits, Nat.testBit_mod_two_pow, Nat.testBit_div_two_pow]
  by_cases hi' : i < hi + 1 - lo
  · have := setField_bit w hi lo v (i + lo) h hl (by omega)
    rw [if_pos ⟨by omega, by omega⟩] at this
    rw [show (setField w hi lo v).getLsbD (i + lo) = (setField w hi lo v).toNat.testBit (i + lo) from rfl] at this
    simpa [hi'] using this
  · simp [hi']

/-! ### Which registers change -/

/-- The register file stays in canonical form, and only registers of the list change. -/
def RegsExcept (as : List Nat) (s t : State) : Prop :=
  smWf regReset s.regs = true → smWf regReset t.regs = true ∧ ∀ a, a ∉ as → getReg t a = getReg s a

theorem RegsExcept.refl (as : List Nat) (s : State) : RegsExcept as s s := fun h => ⟨h, fun _ _ => rfl⟩

theorem RegsExcept.of_regs {as : List Nat} {s t : State} (h : t.regs = s.regs) : RegsExcept as s t := by
  intro hs
  simp [getReg, h, hs]

theorem RegsExcept.trans {as : List Nat} {s t u : State} (h : RegsExcept as s t) (k : RegsExcept as t u) :
    RegsExcept as s u := fun hs =>
  have ht := h hs
  have hu := k ht.1
  ⟨hu.1, fun a ha => (hu.2 a ha).trans (ht.2 a ha)⟩

theorem RegsExcept.mono {as bs : List Nat} {s t : State} (h : RegsExcept as s t) (hb : ∀ a ∈ as, a ∈ bs) :
    RegsExcept bs s t := fun hs => ⟨(h hs).1, fun a ha => (h hs).2 a fun k => ha (hb a k)⟩

theorem setReg_regs (a : Nat) (v : Word) (s : State) : RegsExcept [a] s (setReg a v s) := fun h =>
  ⟨setReg_wf a v s h, fun b hb => by rw [getReg_setReg a b v s h, if_neg (by simpa using hb)]⟩

theorem setFld_regs (a hi lo v : Nat) (s : State) : RegsExcept [a] s (setFld a hi lo v s) := setReg_regs a _ s

theorem setBit_regs (a i : Nat) (b : Bool) (s : State) : RegsExcept [a] s (setBit a i b s) := setReg_regs a _ s

theorem incFld_regs (a hi lo : Nat) (s : State) : RegsExcept [a] s (incFld a hi lo s) := setReg_regs a _ s

theorem forL_regs {α : Type} (as : List Nat) (xs : List α) (s : State) (f : α → State → State)
    (h : ∀ x t, RegsExcept as t (f x t)) : RegsExcept as s (forL xs s f) := by
  unfold forL
  induction xs generalizing s with
  | nil => exact RegsExcept.refl as s
  | cons x xs ih => exact (h x s).trans (ih _)

/-- The recorder's own registers. -/
abbrev evRegs : List Nat := [Reg.MGT_CAUSE, Reg.MGT_EVR_CNT]

theorem evProgram_regs (s : State) : (evProgram s).regs = s.regs := by
  unfold evProgram forL
  generalize s.mgt.evr.queue = xs
  have h : ∀ s : State, (xs.foldl (fun s r => evWrite r s) s).regs = s.regs := by
    induction xs with
    | nil => exact fun _ => rfl
    | cons x xs ih => exact fun s => (ih _).trans rfl
  exact h s

theorem evFlush_regs (save : Bool) (s : State) : (evFlush save s).regs = s.regs := by
  unfold evFlush
  split
  · rfl
  · dsimp only
    split
    · exact (evProgram_regs _).trans rfl
    · rfl

theorem evStore_regs (direct : Bool) (r : List Byte) (s : State) : RegsExcept evRegs s (evStore direct r s) := by
  unfold evStore
  split
  · exact RegsExcept.of_regs rfl
  · dsimp only
    split
    · exact RegsExcept.of_regs rfl
    · split
      · refine (RegsExcept.of_regs ?_).trans (((setBit_regs Reg.MGT_CAUSE 6 true _).mono (by simp)).trans
          ((incFld_regs Reg.MGT_EVR_CNT 31 16 _).mono (by simp)))
        rfl
      · split
        · exact RegsExcept.of_regs ((evFlush_regs false _).trans rfl)
        · exact RegsExcept.of_regs rfl

theorem evRaise_regs (code source : Nat) (d0 d1 : Word) (s : State) : RegsExcept evRegs s (evRaise code source d0 d1 s) := by
  unfold evRaise
  extract_lets e src done
  have hd (o : Option Nat) (e' : EvrState) : RegsExcept evRegs s (done o e') := by
    simp only [done]
    cases o with
    | some n =>
      exact (RegsExcept.of_regs (t := { s with mgt := { s.mgt with evr := e' } }) rfl).trans (evStore_regs _ _ _)
    | none =>
      refine (RegsExcept.of_regs (t := { s with mgt := { s.mgt with evr := e' } }) rfl).trans ?_
      exact ((setBit_regs Reg.MGT_CAUSE 7 true _).mono (by simp)).trans ((incFld_regs Reg.MGT_EVR_CNT 15 0 _).mono (by simp))
  split
  · exact hd _ _
  · split <;> exact hd _ _

/-- Setting a cause changes its own register and the recorder's. -/
theorem causeD_regs (reg b src : Nat) (d0 d1 : Word) (s : State) :
    RegsExcept (reg :: evRegs) s (causeD reg b src d0 d1 s) := by
  have h1 := (setBit_regs reg b true s).mono (bs := reg :: evRegs) (by simp)
  have h2 (c : Nat) (t : State) : RegsExcept (reg :: evRegs) t (evRaise c src d0 d1 t) :=
    (evRaise_regs c src d0 d1 t).mono (by simp)
  unfold causeD
  dsimp only
  split
  · exact h1
  · split <;> exact h1.trans (h2 _ _)

/-! ### The bit of a cause -/

/-- A bit set is set, and the register's other bits are as before. -/
theorem getBit_setBit (a i j : Nat) (b : Bool) (s : State) (h : smWf regReset s.regs = true) (hi : i < 32) (hj : j < 32) :
    getBit (setBit a i b s) a j = if j = i then b else getBit s a j := by
  unfold getBit setBit setFld
  rw [getReg_setReg a a _ s h, if_pos rfl, setField_bit _ _ _ _ _ hi (le_refl _) hj]
  by_cases hj : j = i
  · subst hj
    cases b <;> simp [b2n]
  · rw [if_neg (by omega), if_neg hj]

theorem getBit_congr {s t : State} {a : Nat} (h : getReg t a = getReg s a) (j : Nat) : getBit t a j = getBit s a j := by
  simp only [getBit, h]

theorem setBit_sets (a i j : Nat) (s : State) (hi : i < 32) (hj : j < 32) (h : smWf regReset s.regs = true)
    (hb : getBit s a j = true) : getBit (setBit a i true s) a j = true := by
  rw [getBit_setBit a i j true s h hi hj]
  split
  · rfl
  · exact hb

/-- The recorder sets bits of MGT_CAUSE and clears none. -/
theorem evStore_sets (direct : Bool) (r : List Byte) (s : State) (j : Nat) (hj : j < 32) (h : smWf regReset s.regs = true)
    (hb : getBit s Reg.MGT_CAUSE j = true) : getBit (evStore direct r s) Reg.MGT_CAUSE j = true := by
  unfold evStore
  split
  · exact hb
  · dsimp only
    split
    · exact hb
    · split
      · refine (getBit_congr ((incFld_regs Reg.MGT_EVR_CNT 31 16 _ ?_).2 Reg.MGT_CAUSE (by decide)) j).trans ?_
        · exact setReg_wf _ _ _ h
        · exact setBit_sets Reg.MGT_CAUSE 6 j _ (by omega) hj h hb
      · split
        · simp only [getBit, getReg, evFlush_regs]
          exact hb
        · exact hb

theorem evRaise_sets (code source : Nat) (d0 d1 : Word) (s : State) (j : Nat) (hj : j < 32)
    (h : smWf regReset s.regs = true) (hb : getBit s Reg.MGT_CAUSE j = true) :
    getBit (evRaise code source d0 d1 s) Reg.MGT_CAUSE j = true := by
  unfold evRaise
  extract_lets e src done
  have hd (o : Option Nat) (e' : EvrState) : getBit (done o e') Reg.MGT_CAUSE j = true := by
    simp only [done]
    cases o with
    | some n => exact evStore_sets _ _ _ j hj h hb
    | none =>
      refine (getBit_congr ((incFld_regs Reg.MGT_EVR_CNT 15 0 _ ?_).2 Reg.MGT_CAUSE (by decide)) j).trans ?_
      · exact setReg_wf _ _ _ h
      · exact setBit_sets Reg.MGT_CAUSE 7 j _ (by omega) hj h hb
  split
  · exact hd _ _
  · split <;> exact hd _ _

/-- A cause that is set is set. -/
theorem causeD_sets (reg b src : Nat) (d0 d1 : Word) (s : State) (hb : b < 32) (hr : reg ≠ Reg.MGT_EVR_CNT)
    (h : smWf regReset s.regs = true) : getBit (causeD reg b src d0 d1 s) reg b = true := by
  have h0 : getBit (setBit reg b true s) reg b = true := by rw [getBit_setBit _ _ _ _ _ h hb hb, if_pos rfl]
  have h1 : smWf regReset (setBit reg b true s).regs = true := setReg_wf _ _ _ h
  have key (c : Nat) : getBit (evRaise c src d0 d1 (setBit reg b true s)) reg b = true := by
    by_cases hm : reg = Reg.MGT_CAUSE
    · subst hm
      exact evRaise_sets c src d0 d1 _ b hb h1 h0
    · exact (getBit_congr ((evRaise_regs c src d0 d1 _ h1).2 reg (by simp [hm, hr])) b).trans h0
  unfold causeD
  dsimp only
  split
  · exact h0
  · split <;> exact key _

end Sys2Proof.Machine
end

