-- ==== Sys2Proof/Laws/Ctl.lean ====
section
/-! SUPPORT. The part of a state that decides which transitions of R24 a step can make, and its lemmas over loops: nearly
every operation of the model leaves it alone. -/

set_option linter.unusedSimpArgs false
set_option linter.unusedTactic false
set_option linter.unreachableTactic false

namespace Sys2Proof.Machine

/-- What most operations leave alone: the queue, the state, the placed timetable, the pending boot, the supply, RST_N and
the tick count. -/
structure Ctl where
  pending : List Instr
  mode : Mode
  tt : Option Timetable
  boot : Option BootKind
  good : Bool
  rst : Bool
  tick : Nat

/-- That part of a state. -/
def ctl (s : State) : Ctl :=
  ⟨s.pending, s.dev.mode, s.dev.tt, s.dev.bootPending, s.pwr.powerGood, s.pwr.rstLow, s.pwr.tick⟩

theorem ctl_views (s : State) : s.pending = (ctl s).pending ∧ s.dev.mode = (ctl s).mode ∧ s.dev.tt = (ctl s).tt ∧
    s.dev.bootPending = (ctl s).boot ∧ s.pwr.powerGood = (ctl s).good ∧ s.pwr.rstLow = (ctl s).rst ∧
    s.pwr.tick = (ctl s).tick :=
  ⟨rfl, rfl, rfl, rfl, rfl, rfl, rfl⟩

theorem ctl_mk (a b c d) (dev : DevState) (pwr : PwrState) (e f g h i j k l m n o p q r u v w x) :
    ctl (State.mk a b c d dev pwr e f g h i j k l m n o p q r u v w x) =
      ⟨a, dev.mode, dev.tt, dev.bootPending, pwr.powerGood, pwr.rstLow, pwr.tick⟩ := rfl

/-- A loop leaves alone what its body leaves alone. -/
theorem forL_keeps {α σ β : Type} (g : σ → β) (xs : List α) (s : σ) (f : α → σ → σ)
    (h : ∀ x t, g (f x t) = g t) : g (forL xs s f) = g s := by
  unfold forL
  induction xs generalizing s with
  | nil => rfl
  | cons x xs ih => simp [List.foldl_cons, ih, h]

@[simp] theorem forL_ctl {α : Type} (xs : List α) (s : State) (f : α → State → State)
    (h : ∀ x t, ctl (f x t) = ctl t) : ctl (forL xs s f) = ctl s := forL_keeps ctl xs s f h

@[simp] theorem forN_ctl (n : Nat) (s : State) (f : Nat → State → State) (h : ∀ x t, ctl (f x t) = ctl t) :
    ctl (forN n s f) = ctl s := forL_ctl (List.range n) s f h

@[simp] theorem ite_ctl (c : Prop) [Decidable c] (a b : State) :
    ctl (if c then a else b) = if c then ctl a else ctl b := by split <;> rfl

/-- A meaning answers a next state and leaves that part of the state alone. -/
def Keeps (s : State) (r : Result) : Prop := ∃ t, r = .next t ∧ ctl t = ctl s

@[simp] theorem keeps_next (s t : State) : Keeps s (.next t) ↔ ctl t = ctl s :=
  ⟨fun ⟨_, h, k⟩ => by cases h; exact k, fun h => ⟨t, rfl, h⟩⟩

@[simp] theorem keeps_ite (c : Prop) [Decidable c] (s : State) (a b : Result) :
    Keeps s (if c then a else b) ↔ if c then Keeps s a else Keeps s b := by split <;> rfl

end Sys2Proof.Machine
end

