-- ==== Sys2Proof/Laws/CtlOps.lean ====
section
/-! SUPPORT. What the operations of Machine/Ops.lean leave alone: the queue, the state, the placed timetable, the pending boot, the
supply, RST_N and the tick count (`ctl`, Laws/Ctl.lean). -/

set_option linter.unusedSimpArgs false
set_option linter.unusedTactic false
set_option linter.unreachableTactic false

namespace Sys2Proof.Machine

@[simp] theorem memHeal_ctl (a n : Nat) (s : State) : ctl (memHeal a n s) = ctl s := Eq.refl _

@[simp] theorem setReg_ctl (a : Nat) (v : Word) (s : State) : ctl (setReg a v s) = ctl s := Eq.refl _

@[simp] theorem setFld_ctl (a hi lo v : Nat) (s : State) : ctl (setFld a hi lo v s) = ctl s := Eq.refl _

@[simp] theorem setBit_ctl (a i : Nat) (b : Bool) (s : State) : ctl (setBit a i b s) = ctl s := Eq.refl _

@[simp] theorem incFld_ctl (a hi lo : Nat) (s : State) : ctl (incFld a hi lo s) = ctl s := Eq.refl _

@[simp] theorem addFld_ctl (a hi lo n : Nat) (s : State) : ctl (addFld a hi lo n s) = ctl s := Eq.refl _

@[simp] theorem incReg_ctl (a : Nat) (s : State) : ctl (incReg a s) = ctl s := Eq.refl _

@[simp] theorem maxFld_ctl (a hi lo v : Nat) (s : State) : ctl (maxFld a hi lo v s) = ctl s := by simp [maxFld]

@[simp] theorem fresh_ctl (s : State) : ctl (fresh s).2 = ctl s := Eq.refl _

@[simp] theorem nvWrite_ctl (off : Nat) (bs : List Byte) (s : State) : ctl (nvWrite off bs s) = ctl s := Eq.refl _

@[simp] theorem imgPut_ctl (r i : Nat) (w : DWord) (s : State) : ctl (imgPut r i w s) = ctl s :=
  by unfold imgPut; split <;> simp [ctl_views, ctl_mk]

@[simp] theorem imgPublish_ctl (r : Nat) (s : State) : ctl (imgPublish r s) = ctl s :=
  by unfold imgPublish; split <;> simp [ctl_views, ctl_mk]

@[simp] theorem evWrite_ctl (r : List Byte) (s : State) : ctl (evWrite r s) = ctl s := Eq.refl _

@[simp] theorem evProgram_ctl (s : State) : ctl (evProgram s) = ctl s := by simp [evProgram, ctl_views, ctl_mk]

@[simp] theorem evTick_ctl (s : State) : ctl (evTick s) = ctl s := by
  unfold evTick
  split <;> simp

@[simp] theorem evFlush_ctl (save : Bool) (s : State) : ctl (evFlush save s) = ctl s :=
  by simp [evFlush, ctl_views, ctl_mk]

@[simp] theorem evDrain_ctl (s : State) : ctl (evDrain s) = ctl s := by simp [evDrain]

@[simp] theorem evDirect_ctl (r : List Byte) (s : State) : ctl (evDirect r s) = ctl s := Eq.refl _

@[simp] theorem evNextSeq_ctl (s : State) : ctl (evNextSeq s).2 = ctl s := Eq.refl _

@[simp] theorem evStore_ctl (direct : Bool) (r : List Byte) (s : State) : ctl (evStore direct r s) = ctl s :=
  by simp [evStore, ctl_views, ctl_mk]

@[simp] theorem evRecord_ctl (code source : Nat) (d0 d1 : Word) (extraFlags supp : Nat) (s : State) :
    ctl (evRecord code source d0 d1 extraFlags supp s) = ctl s := by simp [evRecord]

@[simp] theorem evRaise_ctl (code source : Nat) (d0 d1 : Word) (s : State) :
    ctl (evRaise code source d0 d1 s) = ctl s := by
  unfold evRaise
  dsimp only
  repeat' split
  all_goals simp [ctl_views, ctl_mk]

@[simp] theorem causeD_ctl (reg b src : Nat) (d0 d1 : Word) (s : State) : ctl (causeD reg b src d0 d1 s) = ctl s :=
  by simp [causeD]

@[simp] theorem cause_ctl (reg b : Nat) (s : State) : ctl (cause reg b s) = ctl s := by simp [cause]

@[simp] theorem causeS_ctl (reg b src : Nat) (s : State) : ctl (causeS reg b src s) = ctl s := by simp [causeS]

@[simp] theorem redSend_ctl (m : SyncMsg) (s : State) : ctl (redSend m s) = ctl s :=
  by simp [redSend, ctl_views, ctl_mk]

@[simp] theorem redStream_ctl (m : SyncMsg) (s : State) : ctl (redStream m s) = ctl s := by simp [redStream]

@[simp] theorem redStatus_ctl (s : State) : ctl (redStatus s) = ctl s := by simp [redStatus]

@[simp] theorem loseStep_ctl (s : State) : ctl (loseStep s) = ctl s := Eq.refl _

@[simp] theorem fatal_ctl (b src : Nat) (s : State) : ctl (fatal b src s) = ctl s := by
  unfold fatal
  dsimp only
  repeat' split
  all_goals simp [ctl_views, ctl_mk]

@[simp] theorem memCorrected_ctl (mem : Nat) (s : State) : ctl (memCorrected mem s) = ctl s := by simp [memCorrected]

@[simp] theorem memRebuilt_ctl (mem n a : Nat) (s : State) : ctl (memRebuilt mem n a s) = ctl s := by simp [memRebuilt]

@[simp] theorem memUncorrected_ctl (mem a : Nat) (s : State) : ctl (memUncorrected mem a s) = ctl s := by
  simp [memUncorrected]

end Sys2Proof.Machine
end

