-- ==== Sys2Proof/Laws/CtlChn.lean ====
section
/-! SUPPORT. What the operations of Machine/Chn.lean leave alone: the queue, the state, the placed timetable, the pending boot, the
supply, RST_N and the tick count (`ctl`, Laws/Ctl.lean). -/

set_option linter.unusedSimpArgs false
set_option linter.unusedTactic false
set_option linter.unreachableTactic false

namespace Sys2Proof.Machine

@[simp] theorem ciPut_ctl (i : Nat) (w : DWord) (s : State) : ctl (ciPut i w s) = ctl s :=
  by simp [ciPut, ctl_views, ctl_mk]

@[simp] theorem ciPublish_ctl (s : State) : ctl (ciPublish s) = ctl s := by simp [ciPublish, ctl_views, ctl_mk]

@[simp] theorem ciPrimary_ctl (c : Nat) (w : DWord) (s : State) : ctl (ciPrimary c w s) = ctl s := by simp [ciPrimary]

@[simp] theorem ciSecondary_ctl (c : Nat) (w : DWord) (s : State) : ctl (ciSecondary c w s) = ctl s :=
  by simp [ciSecondary]

@[simp] theorem setChan_ctl (c : Nat) (x : ChanState) (s : State) : ctl (setChan c x s) = ctl s := Eq.refl _

@[simp] theorem convGood_ctl (r : Channel) (x ohm : Rat) (s : State) : ctl (convGood r x ohm s) = ctl s :=
  by simp [convGood]

@[simp] theorem convBad_ctl (r : Channel) (s : State) : ctl (convBad r s) = ctl s := by simp [convBad]

@[simp] theorem excReport_ctl (p : Nat) (exc : Bool) (s : State) : ctl (excReport p exc s) = ctl s :=
  by simp [excReport]

@[simp] theorem scanStep_ctl (p : Nat) (s : State) : ctl (scanStep p s) = ctl s := Eq.refl _

@[simp] theorem scanRestart_ctl (p : Nat) (s : State) : ctl (scanRestart p s) = ctl s := Eq.refl _

@[simp] theorem execConversionDone_keeps (c code : Nat) (v1 v2 : Rat) (full exc : Bool) (s : State) :
    Keeps s (execConversionDone c code v1 v2 full exc s) := by
  unfold execConversionDone
  dsimp only
  repeat' split
  all_goals simp [ctl_views, ctl_mk]

@[simp] theorem chnSecond_ctl (s : State) : ctl (chnSecond s) = ctl s := by simp [chnSecond, ctl_views, ctl_mk]

@[simp] theorem digitalEdge_ctl (r : Channel) (b : Bool) (now : Nat) (s : State) :
    ctl (digitalEdge r b now s) = ctl s := by simp [digitalEdge]

@[simp] theorem execAcceptedEdge_keeps (c : Nat) (level : Bool) (us : Nat) (s : State) :
    Keeps s (execAcceptedEdge c level us s) := by
  unfold execAcceptedEdge
  dsimp only
  repeat' split
  all_goals simp [ctl_views, ctl_mk]

@[simp] theorem execChatterExit_keeps (c us : Nat) (s : State) : Keeps s (execChatterExit c us s) :=
  by unfold execChatterExit; split <;> simp [ctl_views, ctl_mk]

@[simp] theorem execStuckTimeout_keeps (c : Nat) (s : State) : Keeps s (execStuckTimeout c s) :=
  by unfold execStuckTimeout; split <;> simp [ctl_views, ctl_mk]

@[simp] theorem pcSet_ctl (n : Nat) (x : PulseCtr) (s : State) : ctl (pcSet n x s) = ctl s := Eq.refl _

@[simp] theorem pulseEdge_ctl (n : Nat) (s : State) : ctl (pulseEdge n s).1 = ctl s := by
  unfold pulseEdge
  dsimp only
  repeat' split
  all_goals simp [ctl_views, ctl_mk]

@[simp] theorem execFilterWindowEnd_keeps (n : Nat) (s : State) : Keeps s (execFilterWindowEnd n s) :=
  by simp [execFilterWindowEnd]

@[simp] theorem pcTick_ctl (s : State) : ctl (pcTick s) = ctl s := by simp [pcTick]

@[simp] theorem pcHeadway_ctl (s : State) : ctl (pcHeadway s) = ctl s := by simp [pcHeadway]

@[simp] theorem pcLoRead_ctl (n : Nat) (s : State) : ctl (pcLoRead n s).2 = ctl s := Eq.refl _

@[simp] theorem execPcLoRead_keeps (n : Nat) (s : State) : Keeps s (execPcLoRead n s) := by simp [execPcLoRead]

@[simp] theorem pcAssign_ctl (n : Nat) (r : Option Channel) (s : State) : ctl (pcAssign n r s) = ctl s := by
  unfold pcAssign
  dsimp only
  split <;> simp [ctl_views, ctl_mk]

@[simp] theorem pcPlace_ctl (t : Timetable) (s : State) : ctl (pcPlace t s) = ctl s := by simp [pcPlace]

@[simp] theorem ciForget_ctl (f : Nat → Bool) (s : State) : ctl (ciForget f s) = ctl s := by
  unfold ciForget
  dsimp only
  exact forL_keeps ctl _ _ _ (fun _ _ => rfl)

@[simp] theorem ciImage_ctl (c : Nat) (w : DWord) (s : State) : ctl (ciImage c w s) = ctl s := by
  unfold ciImage
  dsimp only
  split <;> simp [ctl_views, ctl_mk]

@[simp] theorem chnPlace_ctl (old : Option Timetable) (t : Timetable) (s : State) : ctl (chnPlace old t s) = ctl s :=
  by unfold chnPlace; split <;> simp [ctl_views, ctl_mk]

@[simp] theorem waveWords_ctl (w : WaveIn) (s : State) : ctl (waveWords w s) = ctl s := by simp [waveWords]

@[simp] theorem coWrite_ctl (c : Nat) (w : DWord) (s : State) : ctl (coWrite c w s) = ctl s := Eq.refl _

@[simp] theorem outWrite_ctl (ref : Nat) (w : DWord) (s : State) : ctl (outWrite ref w s) = ctl s :=
  by unfold outWrite; split <;> simp [ctl_views, ctl_mk]

@[simp] theorem countLate_ctl (s : State) : ctl (countLate s) = ctl s := Eq.refl _

@[simp] theorem chnEnterRun_ctl (s : State) : ctl (chnEnterRun s) = ctl s := by simp [chnEnterRun]

@[simp] theorem execPwmPeriodStart_keeps (c : Nat) (s : State) : Keeps s (execPwmPeriodStart c s) := by
  unfold execPwmPeriodStart
  dsimp only
  repeat' split
  all_goals simp [ctl_views, ctl_mk]

@[simp] theorem chnReadback_ctl (x : Readback) (s : State) : ctl (chnReadback x s) = ctl s :=
  by unfold chnReadback; split <;> simp [ctl_views, ctl_mk]

@[simp] theorem chnSelect_ctl (data : Word) (s : State) : ctl (chnSelect data s) = ctl s := Eq.refl _

end Sys2Proof.Machine
end

