-- ==== Sys2Proof/Laws/CtlJournal.lean ====
section
/-! SUPPORT. What the operations of Machine/Journal.lean leave alone: the queue, the state, the placed timetable, the pending boot, the
supply, RST_N and the tick count (`ctl`, Laws/Ctl.lean). -/

set_option linter.unusedSimpArgs false
set_option linter.unusedTactic false
set_option linter.unreachableTactic false

namespace Sys2Proof.Machine

@[simp] theorem jnlOpen_ctl (s : State) : ctl (jnlOpen s) = ctl s := by simp [jnlOpen, ctl_views, ctl_mk]

@[simp] theorem jnlPlace_ctl (r : JReq) (retries : Nat) (s : State) : ctl (jnlPlace r retries s) = ctl s :=
  by unfold jnlPlace; split <;> simp [ctl_views, ctl_mk]

@[simp] theorem jnlRepair_ctl (s : State) : ctl (jnlRepair s) = ctl s := by simp [jnlRepair, ctl_views, ctl_mk]

@[simp] theorem jnlCompactOn_ctl (s : State) : ctl (jnlCompactOn s) = ctl s := Eq.refl _

@[simp] theorem jnlFreeOldest_ctl (s : State) : ctl (jnlFreeOldest s) = ctl s :=
  by simp [jnlFreeOldest, ctl_views, ctl_mk]

@[simp] theorem jnlCompactNext_ctl (n : Nat) (s : State) : ctl (jnlCompactNext n s) = ctl s := by
  induction n generalizing s with
  | zero => rfl
  | succ n ih =>
    unfold jnlCompactNext
    dsimp only
    repeat' split
    all_goals simp [ctl_mk, ih, ctl_views]

@[simp] theorem jnlKick_ctl (s : State) : ctl (jnlKick s) = ctl s := by
  unfold jnlKick
  repeat' split
  all_goals simp [ctl_views, ctl_mk]

@[simp] theorem jnlRequest_ctl (r : JReq) (s : State) : ctl (jnlRequest r s) = ctl s :=
  by simp [jnlRequest, ctl_views, ctl_mk]

@[simp] theorem jnlCopyA_ctl (readback : Option (List Byte)) (s : State) : ctl (jnlCopyA readback s).1 = ctl s := by
  unfold jnlCopyA
  dsimp only
  repeat' split
  all_goals simp [ctl_views, ctl_mk]

@[simp] theorem jnlCopyB_ctl (readback : Option (List Byte)) (s : State) : ctl (jnlCopyB readback s) = ctl s :=
  by unfold jnlCopyB; split <;> simp [ctl_views, ctl_mk]

@[simp] theorem jnlWriteNow_ctl (kind inst : Nat) (payload : List Byte) (s : State) :
    ctl (jnlWriteNow kind inst payload s) = ctl s := by
  unfold jnlWriteNow
  dsimp only
  split <;> simp [ctl_views, ctl_mk]

@[simp] theorem jnlRecover_ctl (s : State) : ctl (jnlRecover s) = ctl s :=
  by unfold jnlRecover; split <;> simp [ctl_views, ctl_mk]

end Sys2Proof.Machine
end

