-- ==== Sys2Proof/Laws/CtlMtr.lean ====
section
/-! SUPPORT. What the operations of Machine/Mtr.lean leave alone: the queue, the state, the placed timetable, the pending boot, the
supply, RST_N and the tick count (`ctl`, Laws/Ctl.lean). -/

set_option linter.unusedSimpArgs false
set_option linter.unusedTactic false
set_option linter.unreachableTactic false

namespace Sys2Proof.Machine

@[simp] theorem meterSet_ctl (m : Nat) (x : MeterSt) (s : State) : ctl (meterSet m x s) = ctl s := Eq.refl _

@[simp] theorem meterUpd_ctl (m : Nat) (f : MeterSt → MeterSt) (s : State) : ctl (meterUpd m f s) = ctl s := Eq.refl _

@[simp] theorem forMeters_ctl (f : Nat → Meter → State → State) (s : State) (h : ∀ m r t, ctl (f m r t) = ctl t) :
    ctl (forMeters f s) = ctl s := by
  unfold forMeters
  refine forN_ctl _ _ _ fun m t => ?_
  split
  · exact h ..
  · rfl

@[simp] theorem peakSet_ctl (m : Nat) (x : Rat) (s : State) : ctl (peakSet m x s) = ctl s := Eq.refl _

@[simp] theorem mtrLog_ctl (kind meter detail : Nat) (data : List Byte) (s : State) :
    ctl (mtrLog kind meter detail data s) = ctl s := by simp [mtrLog]

@[simp] theorem mtrLogBoot_ctl (s : State) : ctl (mtrLogBoot s) = ctl s := by
  unfold mtrLogBoot
  dsimp only
  split <;> simp

@[simp] theorem tariffSelect_ctl (data : Word) (s : State) : ctl (tariffSelect data s) = ctl s := Eq.refl _

@[simp] theorem tariffApply_ctl (d2 : Word) (s : State) : ctl (tariffApply d2 s) = ctl s :=
  by simp [tariffApply, ctl_views, ctl_mk]

@[simp] theorem dayofsApply_ctl (data : Word) (s : State) : ctl (dayofsApply data s) = ctl s := by simp [dayofsApply]

@[simp] theorem ivlError_ctl (m ms flags : Nat) (s : State) : ctl (ivlError m ms flags s) = ctl s := by simp [ivlError]

@[simp] theorem testPulseQueue_ctl (m k : Nat) (r : Channel) (s : State) : ctl (testPulseQueue m k r s) = ctl s := by
  unfold testPulseQueue
  dsimp only
  split <;> simp [setChan, ctl_views, ctl_mk]

@[simp] theorem testPulseAdd_ctl (m n : Nat) (r : Meter) (s : State) : ctl (testPulseAdd m n r s) = ctl s := by
  unfold testPulseAdd
  dsimp only
  repeat' split
  all_goals simp

@[simp] theorem testPulseClear_ctl (s : State) : ctl (testPulseClear s) = ctl s := Eq.refl _

@[simp] theorem blockEnd_ctl (m need : Nat) (s : State) : ctl (blockEnd m need s) = ctl s := by simp [blockEnd]

@[simp] theorem ivlClose_ctl (m code flags start newFlags : Nat) (s : State) :
    ctl (ivlClose m code flags start newFlags s) = ctl s := by simp [ivlClose]

@[simp] theorem ivlDue_ctl (m : Nat) (r : Meter) (s : State) : ctl (ivlDue m r s) = ctl s := by simp [ivlDue]

@[simp] theorem execIntervalClose_keeps (m : Nat) (s : State) : Keeps s (execIntervalClose m s) :=
  by unfold execIntervalClose; split <;> simp [ctl_views, ctl_mk]

@[simp] theorem ivlCloseAll_ctl (flags : Nat) (s : State) : ctl (ivlCloseAll flags s) = ctl s := by simp [ivlCloseAll]

@[simp] theorem mtrCalStep_ctl (became : Bool) (old : Nat) (s : State) : ctl (mtrCalStep became old s) = ctl s :=
  by simp [mtrCalStep]

@[simp] theorem thermalWords_ctl (m : Nat) (p q ts tr : Rat × Quality) (dT : Rat) (s : State) :
    ctl (thermalWords m p q ts tr dT s) = ctl s := by simp [thermalWords]

@[simp] theorem thermalAdd_ctl (m : Nat) (r : Meter) (rev : Bool) (volMl e dT : Rat) (tempOk : Bool) (s : State) :
    ctl (thermalAdd m r rev volMl e dT tempOk s) = ctl s := by simp [thermalAdd]

@[simp] theorem thermalOne_ctl (m : Nat) (r : Meter) (s : State) : ctl (thermalOne m r s) = ctl s :=
  by simp [thermalOne]

@[simp] theorem totalsCapture_ctl (kind : Nat) (s : State) : ctl (totalsCapture kind s).2 = ctl s := Eq.refl _

@[simp] theorem totalsDone_ctl (ok : Bool) (s : State) : ctl (totalsDone ok s) = ctl s :=
  by unfold totalsDone; split <;> simp [ctl_views, ctl_mk]

@[simp] theorem totalsRequest_ctl (kind : Nat) (owner : JOwner) (s : State) :
    ctl (totalsRequest kind owner s) = ctl s := by simp [totalsRequest, ctl_views, ctl_mk]

@[simp] theorem totalsNow_ctl (s : State) : ctl (totalsNow s) = ctl s := by simp [totalsNow, ctl_views, ctl_mk]

@[simp] theorem totalsCommand_ctl (s : State) : ctl (totalsCommand s) = ctl s := by
  unfold totalsCommand
  split <;> simp [ctl_views, ctl_mk]

@[simp] theorem execTotalsSave_keeps (s : State) : Keeps s (execTotalsSave s) :=
  by simp [execTotalsSave, ctl_views, ctl_mk]

@[simp] theorem execTotalsSavePeriodic_keeps (s : State) : Keeps s (execTotalsSavePeriodic s) :=
  by simp [execTotalsSavePeriodic, ctl_views, ctl_mk]

@[simp] theorem totalsBoundary_ctl (s : State) : ctl (totalsBoundary s) = ctl s :=
  by unfold totalsBoundary; split <;> simp [ctl_views, ctl_mk]

@[simp] theorem execThermalSample_keeps (s : State) : Keeps s (execThermalSample s) :=
  by simp [execThermalSample, ctl_views, ctl_mk]

@[simp] theorem elecWords_ctl (m : Nat) (vs is : List (Option (List Rat))) (f : Option Rat) (e : Option ElecIn) (s : State) :
    ctl (elecWords m vs is f e s) = ctl s := by simp [elecWords]

@[simp] theorem elecBook_ctl (m : Nat) (r : Meter) (e : ElecIn) (s : State) : ctl (elecBook m r e s) = ctl s := by
  unfold elecBook
  repeat' (first
    | with_reducible rfl
    | (split <;> rename_i h <;> first
        | obtain ⟨rfl, rfl⟩ := Prod.ext_iff.1 h
        | (obtain ⟨rfl, h2⟩ := Prod.ext_iff.1 h; obtain ⟨rfl, rfl⟩ := Prod.ext_iff.1 h2)
        | skip)
    | (with_reducible refine (forL_ctl _ _ _ fun _ _ => ?_).trans ?_)
    | (with_reducible refine (forN_ctl _ _ _ fun _ _ => ?_).trans ?_)
    | dsimp only)
  all_goals first | done | simp [ctl_views, ctl_mk]

@[simp] theorem elecOne_ctl (ws : List WaveIn) (secondEnd : Bool) (m : Nat) (r : Meter) (s : State) :
    ctl (elecOne ws secondEnd m r s) = ctl s := by
  unfold elecOne
  dsimp only
  repeat' split
  all_goals simp

@[simp] theorem execWaveformWindow_keeps (wins : List WaveIn) (secondEnd : Bool) (s : State) :
    Keeps s (execWaveformWindow wins secondEnd s) := by simp [execWaveformWindow]

@[simp] theorem overrateMark_ctl (c : Nat) (s : State) : ctl (overrateMark c s) = ctl s := by simp [overrateMark]

@[simp] theorem execCountedEdge_keeps (n : Nat) (s : State) : Keeps s (execCountedEdge n s) := by simp [execCountedEdge]

@[simp] theorem execTestPulse_keeps (c : Nat) (s : State) : Keeps s (execTestPulse c s) :=
  by unfold execTestPulse; split <;> simp [ctl_views, ctl_mk]

@[simp] theorem logBound_ctl (m tSave tCut : Nat) (peak : Rat) (detail : Nat) (s : State) :
    ctl (logBound m tSave tCut peak detail s) = ctl s := by simp [logBound]

@[simp] theorem mtrPending_ctl (s : State) : ctl (mtrPending s) = ctl s := by simp [mtrPending, ctl_views, ctl_mk]

@[simp] theorem mtrBound_ctl (m : Nat) (p : List Byte) (s : State) : ctl (mtrBound m p s) = ctl s := by
  unfold mtrBound
  dsimp only
  repeat' split
  all_goals simp [ctl_views, ctl_mk]

@[simp] theorem mtrMissed_ctl (m : Nat) (r : Meter) (b : List Byte) (s : State) : ctl (mtrMissed m r b s) = ctl s := by
  unfold mtrMissed
  repeat' split
  all_goals simp [ctl_views, ctl_mk]

@[simp] theorem meterStart_ctl (p : Option (List Byte)) (m : Nat) (r : Meter) (s : State) :
    ctl (meterStart p m r s) = ctl s := by simp [meterStart]

@[simp] theorem mtrStart_ctl (s : State) : ctl (mtrStart s) = ctl s := by
  unfold mtrStart
  extract_lets p src s0 s1 s2 s3 seq
  have h0 : ctl s0 = ctl s := by simp [s0, ctl_mk, ctl_views]
  have h1 : ctl s1 = ctl s0 := forN_ctl _ _ _ fun m t => by split <;> simp
  have h2 : ctl s2 = ctl s1 := by simp [s2]
  have h3 : ctl s3 = ctl s2 := by
    simp only [s3]
    clear_value p s2
    cases p with
    | none => rfl
    | some q =>
      dsimp only
      split
      · rfl
      · exact forN_ctl _ _ _ fun m t => by split <;> simp
  exact h3.trans (h2.trans (h1.trans h0))

@[simp] theorem mtrReady_ctl (s : State) : ctl (mtrReady s) = ctl s := by simp [mtrReady]

@[simp] theorem mtrStop_ctl (s : State) : ctl (mtrStop s) = ctl s := by simp [mtrStop]

@[simp] theorem mtrCommit_ctl (old new : Timetable) (s : State) : ctl (mtrCommit old new s) = ctl s := by
  unfold mtrCommit
  repeat' (first
    | with_reducible rfl
    | (split <;> rename_i h <;> first
        | obtain ⟨rfl, rfl⟩ := Prod.ext_iff.1 h
        | (obtain ⟨rfl, h2⟩ := Prod.ext_iff.1 h; obtain ⟨rfl, rfl⟩ := Prod.ext_iff.1 h2)
        | skip)
    | (with_reducible refine (forL_ctl _ _ _ fun _ _ => ?_).trans ?_)
    | (with_reducible refine (forN_ctl _ _ _ fun _ _ => ?_).trans ?_)
    | dsimp only)
  all_goals first | done | simp [ctl_views, ctl_mk]

@[simp] theorem mtrSelect_ctl (data : Word) (s : State) : ctl (mtrSelect data s) = ctl s := by simp [mtrSelect]

@[simp] theorem mtrIvlSelect_ctl (data : Word) (s : State) : ctl (mtrIvlSelect data s) = ctl s := by
  unfold mtrIvlSelect
  dsimp only
  repeat' split
  all_goals simp [ctl_views, ctl_mk]

end Sys2Proof.Machine
end

