-- ==== Sys2Proof/Laws/CtlPwr.lean ====
section
/-! SUPPORT. What the operations of Machine/Pwr.lean leave alone: the queue, the state, the placed timetable, the pending boot, the
supply, RST_N and the tick count (`ctl`, Laws/Ctl.lean). -/

set_option linter.unusedSimpArgs false
set_option linter.unusedTactic false
set_option linter.unreachableTactic false

namespace Sys2Proof.Machine

@[simp] theorem setDom_ctl (d : Nat) (x : Domain) (s : State) : ctl (setDom d x s) = ctl s :=
  by simp [setDom, ctl_views, ctl_mk]

@[simp] theorem pllStop_ctl (s : State) : ctl (pllStop s) = ctl s := Eq.refl _

@[simp] theorem pllStarted_ctl (d : Nat) (s : State) : ctl (pllStarted d s) = ctl s := Eq.refl _

@[simp] theorem domRequest_ctl (d : Nat) (u : DomUser) (b : Bool) (s : State) : ctl (domRequest d u b s) = ctl s :=
  by simp [domRequest]

@[simp] theorem hostTouch_ctl (ds : List Nat) (s : State) : ctl (hostTouch ds s) = ctl s := by simp [hostTouch]

@[simp] theorem subPass_ctl (hi : Nat) (s : State) : ctl (subPass hi s) = ctl s := Eq.refl _

@[simp] theorem bookEnergy_ctl (e : List Nat) (s : State) : ctl (bookEnergy e s) = ctl s := Eq.refl _

@[simp] theorem ledgerHeadway_ctl (s : State) : ctl (ledgerHeadway s) = ctl s :=
  by simp [ledgerHeadway, ctl_views, ctl_mk]

@[simp] theorem execDomainEnableRequest_keeps (d : Nat) (u : DomUser) (s : State) :
    Keeps s (execDomainEnableRequest d u s) := by simp [execDomainEnableRequest]

@[simp] theorem execDomainDisableRequest_keeps (d : Nat) (u : DomUser) (s : State) :
    Keeps s (execDomainDisableRequest d u s) := by simp [execDomainDisableRequest]

@[simp] theorem execDomainStartDone_keeps (d : Nat) (s : State) : Keeps s (execDomainStartDone d s) :=
  by simp [execDomainStartDone]

@[simp] theorem execDomainStopDone_keeps (d : Nat) (s : State) : Keeps s (execDomainStopDone d s) :=
  by simp [execDomainStopDone]

@[simp] theorem execDomainStartTimeout_keeps (d : Nat) (s : State) : Keeps s (execDomainStartTimeout d s) :=
  by simp [execDomainStartTimeout]

@[simp] theorem domKeep_ctl (s : State) : ctl (domKeep s) = ctl s := by
  unfold domKeep
  split
  · refine forN_ctl _ _ _ ?_
    intro k t
    split
    · exact domRequest_ctl _ _ _ t
    · rfl
  · rfl

@[simp] theorem execHostLingerExpire_keeps (d : Nat) (s : State) : Keeps s (execHostLingerExpire d s) :=
  by simp [execHostLingerExpire]

@[simp] theorem execXtalFail_keeps (s : State) : Keeps s (execXtalFail s) := by simp [execXtalFail, ctl_views, ctl_mk]

@[simp] theorem execXtalReturn_keeps (s : State) : Keeps s (execXtalReturn s) :=
  by simp [execXtalReturn, ctl_views, ctl_mk]

@[simp] theorem execRefFail_keeps (s : State) : Keeps s (execRefFail s) := by simp [execRefFail, ctl_views, ctl_mk]

@[simp] theorem execVbatLow_keeps (s : State) : Keeps s (execVbatLow s) := by simp [execVbatLow, ctl_views, ctl_mk]

@[simp] theorem tickLoRead_ctl (s : State) : ctl (tickLoRead s).2 = ctl s := Eq.refl _

@[simp] theorem eTotLoRead_ctl (g : Nat) (s : State) : ctl (eTotLoRead g s).2 = ctl s := Eq.refl _

end Sys2Proof.Machine
end

