-- ==== Sys2Proof/Laws/CtlMailbox.lean ====
section
/-! SUPPORT. What the operations of Machine/Mailbox.lean leave alone: the queue, the state, the placed timetable, the pending boot, the
supply, RST_N and the tick count (`ctl`, Laws/Ctl.lean). -/

set_option linter.unusedSimpArgs false
set_option linter.unusedTactic false
set_option linter.unreachableTactic false

namespace Sys2Proof.Machine

@[simp] theorem mbReply_ctl (result : Nat) (data : List Byte) (s : State) : ctl (mbReply result data s) = ctl s :=
  by simp [mbReply, ctl_views, ctl_mk]

@[simp] theorem mbHold_ctl (s : State) : ctl (mbHold s) = ctl s := Eq.refl _

@[simp] theorem mbLate_ctl (tag : Word) (result : Nat) (data : List Byte) (s : State) : ctl (mbLate tag result data s) = ctl s :=
  by simp [mbLate, ctl_views]

@[simp] theorem mbAbort_ctl (s : State) : ctl (mbAbort s) = ctl s := by simp [mbAbort, ctl_views, ctl_mk]

@[simp] theorem mbDo_keeps (code : Nat) (ok : State → Bool) (f : List Byte → State → State) (s : State)
    (h : ∀ r, ctl (f r s) = ctl s) : Keeps s (mbDo code ok f s) := by
  unfold mbDo
  split
  · split <;> simp [h]
  · simp

@[simp] theorem execMbAck_keeps (s : State) : Keeps s (execMbAck s) := by simp [execMbAck, ctl_views, ctl_mk]

@[simp] theorem execMbUnknownCommand_keeps (s : State) : Keeps s (execMbUnknownCommand s) :=
  by simp [execMbUnknownCommand]

end Sys2Proof.Machine
end

