-- ==== Sys2Proof/Laws/CtlKey.lean ====
section
/-! SUPPORT. What the operations of Machine/Key.lean leave alone: the queue, the state, the placed timetable, the pending boot, the
supply, RST_N and the tick count (`ctl`, Laws/Ctl.lean). -/

set_option linter.unusedSimpArgs false
set_option linter.unusedTactic false
set_option linter.unreachableTactic false

namespace Sys2Proof.Machine

@[simp] theorem setKey_ctl (k : KeyState) (s : State) : ctl (setKey k s) = ctl s := Eq.refl _

@[simp] theorem setKeyEntry_ctl (e : Nat) (x : KeyEntry) (s : State) : ctl (setKeyEntry e x s) = ctl s := Eq.refl _

@[simp] theorem keyRandom_ctl (s : State) : ctl (keyRandom s).2 = ctl s := Eq.refl _

@[simp] theorem maExtend_ctl (i : Nat) (v : List Byte) (s : State) : ctl (maExtend i v s) = ctl s := Eq.refl _

@[simp] theorem keyCounted_ctl (s : State) : ctl (keyCounted s) = ctl s := Eq.refl _

@[simp] theorem keyCount_ctl (s : State) : ctl (keyCount s) = ctl s := by simp [keyCount]

@[simp] theorem keyWrite_ctl (e : Nat) (p : KeyPtr) (body : List Byte) (remask mailbox : Bool) (reply : List Byte) (s : State) :
    ctl (keyWrite e p body remask mailbox reply s) = ctl s := by simp [keyWrite]

@[simp] theorem keyDestroy_ctl (e : Nat) (mailbox : Bool) (s : State) : ctl (keyDestroy e mailbox s) = ctl s :=
  by simp [keyDestroy]

@[simp] theorem keyDurable_ctl (ok : Bool) (s : State) : ctl (keyDurable ok s) = ctl s :=
  by unfold keyDurable; split <;> simp [ctl_views, ctl_mk]

@[simp] theorem keyDo_keeps (code : Nat) (ok : State → Bool) (f : List Byte → State → State) (s : State)
    (h : ∀ r, ctl (f r s) = ctl s) : Keeps s (keyDo code ok f s) := by
  unfold keyDo
  refine mbDo_keeps _ _ _ _ fun r => ?_
  split <;> simp [h]

@[simp] theorem keyLoad_ctl (e type attr flags mask : Nat) (k reply : List Byte) (s : State) :
    ctl (keyLoad e type attr flags mask k reply s) = ctl s := by simp [keyLoad]

@[simp] theorem keyKcv_ctl (s : State) (e : Nat) : ctl (keyKcv s e).2 = ctl s :=
  by unfold keyKcv; split <;> simp [ctl_views, ctl_mk]

@[simp] theorem execKeyInfo_keeps (s : State) : Keeps s (execKeyInfo s) := by simp [execKeyInfo, keyInfoDo]

@[simp] theorem execKeyGenerate_keeps (s : State) : Keeps s (execKeyGenerate s) := by simp [execKeyGenerate, keyGenerateDo]

@[simp] theorem execKeyImport_keeps (s : State) : Keeps s (execKeyImport s) := by
  unfold execKeyImport keyImportDo
  refine mbDo_keeps _ _ _ _ fun r => ?_
  dsimp only
  repeat' split
  all_goals simp [ctl_views, ctl_mk]

@[simp] theorem execKeyDerive_keeps (s : State) : Keeps s (execKeyDerive s) := by simp [execKeyDerive, keyDeriveDo]

@[simp] theorem execKeyExport_keeps (s : State) : Keeps s (execKeyExport s) := by simp [execKeyExport, keyExportDo]

@[simp] theorem execKeyDestroy_keeps (s : State) : Keeps s (execKeyDestroy s) := by simp [execKeyDestroy, keyDestroyDo]

@[simp] theorem execKeyRemask_keeps (s : State) : Keeps s (execKeyRemask s) := by simp [execKeyRemask, keyRemaskDo]

@[simp] theorem execRemaskDue_keeps (s : State) : Keeps s (execRemaskDue s) := by
  unfold execRemaskDue
  dsimp only
  repeat' split
  all_goals simp [ctl_views, ctl_mk]

@[simp] theorem execCompatMask_keeps (s : State) : Keeps s (execCompatMask s) := by
  unfold execCompatMask compatMaskDo
  refine mbDo_keeps _ _ _ _ fun r => ?_
  dsimp only
  repeat' split
  all_goals simp [ctl_views, ctl_mk]

@[simp] theorem execCompatLoad_keeps (s : State) : Keeps s (execCompatLoad s) := by simp [execCompatLoad, compatLoadDo]

@[simp] theorem execMaExtend_keeps (s : State) : Keeps s (execMaExtend s) := by simp [execMaExtend, maExtendDo]

@[simp] theorem execMaRead_keeps (s : State) : Keeps s (execMaRead s) := by simp [execMaRead, maReadDo]

@[simp] theorem execMaLog_keeps (s : State) : Keeps s (execMaLog s) := by simp [execMaLog, maLogDo]

@[simp] theorem execEncrypt_keeps (s : State) : Keeps s (execEncrypt s) := by simp [execEncrypt, encryptDo]

@[simp] theorem execDecrypt_keeps (s : State) : Keeps s (execDecrypt s) := by
  unfold execDecrypt decryptDo
  refine mbDo_keeps _ _ _ _ fun r => ?_
  dsimp only
  repeat' split
  all_goals simp [ctl_views, ctl_mk]

@[simp] theorem execStationKey_keeps (s : State) : Keeps s (execStationKey s) := by simp [execStationKey, stationKeyDo]

@[simp] theorem execAttest_keeps (s : State) : Keeps s (execAttest s) := by simp [execAttest, attestDo]

@[simp] theorem execIdentity_keeps (s : State) : Keeps s (execIdentity s) := by simp [execIdentity, identityDo]

@[simp] theorem execSignerSet_keeps (s : State) : Keeps s (execSignerSet s) := by simp [execSignerSet, signerSetDo]

@[simp] theorem execSignerInfo_keeps (s : State) : Keeps s (execSignerInfo s) := by
  unfold execSignerInfo signerInfoDo
  refine mbDo_keeps _ _ _ _ fun r => ?_
  dsimp only
  repeat' split
  all_goals simp [ctl_views, ctl_mk]

@[simp] theorem execRngHealthFail_keeps (s : State) : Keeps s (execRngHealthFail s) := by simp [execRngHealthFail]

@[simp] theorem execRngReseed_keeps (s : State) : Keeps s (execRngReseed s) := by simp [execRngReseed]

@[simp] theorem keyCtrLoRead_ctl (s : State) : ctl (keyCtrLoRead s).2 = ctl s := Eq.refl _

@[simp] theorem keyBootEntry_ctl (e : Nat) (s : State) : ctl (keyBootEntry e s) = ctl s := by
  unfold keyBootEntry
  dsimp only
  repeat' split
  all_goals simp [ctl_views, ctl_mk]

@[simp] theorem keyBoot_ctl (s : State) : ctl (keyBoot s) = ctl s := by simp [keyBoot]

@[simp] theorem keyClear_ctl (s : State) : ctl (keyClear s) = ctl s := Eq.refl _

end Sys2Proof.Machine
end

