-- ==== Sys2Proof/Laws/CtlMgt.lean ====
section
/-! SUPPORT. What the operations of Machine/Mgt.lean leave alone: the queue, the state, the placed timetable, the pending boot, the
supply, RST_N and the tick count (`ctl`, Laws/Ctl.lean). -/

set_option linter.unusedSimpArgs false
set_option linter.unusedTactic false
set_option linter.unreachableTactic false

namespace Sys2Proof.Machine

@[simp] theorem setCal_ctl (c : CalState) (s : State) : ctl (setCal c s) = ctl s := Eq.refl _

@[simp] theorem setEvr_ctl (e : EvrState) (s : State) : ctl (setEvr e s) = ctl s := Eq.refl _

@[simp] theorem leapEnd_ctl (s : State) : ctl (leapEnd s) = ctl s := by simp [leapEnd]

@[simp] theorem leapDo_ctl (s : State) : ctl (leapDo s) = ctl s := by
  unfold leapDo
  dsimp only
  split <;> simp

@[simp] theorem calForward_ctl (n : Nat) (s : State) : ctl (calForward n s) = ctl s := by
  have h : ctl (if s.mgt.cal.leapDone then leapDo s else s) = ctl s := by
    split
    · exact leapDo_ctl s
    · rfl
  unfold calForward
  dsimp only
  generalize (if s.mgt.cal.leapDone then leapDo s else s) = t at h ⊢
  split
  · exact (setCal_ctl _ _).trans h
  · split
    · exact (setCal_ctl _ _).trans h
    · split
      · exact (leapEnd_ctl _).trans ((setCal_ctl _ _).trans h)
      · exact (setCal_ctl _ _).trans h

@[simp] theorem calBack_ctl (s : State) : ctl (calBack s) = ctl s := by
  unfold calBack
  dsimp only
  split
  · exact setCal_ctl _ _
  · split <;> exact setCal_ctl _ _

@[simp] theorem calAdvance_ctl (s : State) : ctl (calAdvance s) = ctl s := calForward_ctl 64 s

@[simp] theorem calSetApply_ctl (s : State) : ctl (calSetApply s).1 = ctl s := by
  unfold calSetApply
  dsimp only
  repeat' split
  all_goals simp [ctl_views, ctl_mk]

@[simp] theorem calTick_ctl (s : State) : ctl (calTick s).1 = ctl s := by
  unfold calTick
  dsimp only
  repeat' split
  all_goals simp [ctl_views, ctl_mk]

@[simp] theorem execCalSet_keeps (key : Nat) (s : State) : Keeps s (execCalSet key s) := by simp [execCalSet]

@[simp] theorem execCalInvalidate_keeps (key : Nat) (s : State) : Keeps s (execCalInvalidate key s) :=
  by simp [execCalInvalidate]

@[simp] theorem execCalSlewStep_keeps (s : State) : Keeps s (execCalSlewStep s) := by simp [execCalSlewStep]

@[simp] theorem execPpsEdge_keeps (offUs : Rat) (s : State) : Keeps s (execPpsEdge offUs s) := by simp [execPpsEdge]

@[simp] theorem execPpsTimeout_keeps (s : State) : Keeps s (execPpsTimeout s) := by simp [execPpsTimeout]

@[simp] theorem execLeapSecond_keeps (s : State) : Keeps s (execLeapSecond s) := by simp [execLeapSecond]

@[simp] theorem calSecRead_ctl (s : State) : ctl (calSecRead s).2 = ctl s := Eq.refl _

@[simp] theorem evrSeqLoRead_ctl (s : State) : ctl (evrSeqLoRead s).2 = ctl s := Eq.refl _

@[simp] theorem execEvrCtlFlush_keeps (s : State) : Keeps s (execEvrCtlFlush s) := by simp [execEvrCtlFlush]

@[simp] theorem execEvrFlushPeriod_keeps (s : State) : Keeps s (execEvrFlushPeriod s) :=
  by simp [execEvrFlushPeriod, ctl_views, ctl_mk]

@[simp] theorem execEvrBucketRefill_keeps (s : State) : Keeps s (execEvrBucketRefill s) := by simp [execEvrBucketRefill]

@[simp] theorem evSummary_ctl (b : Bucket) (s : State) : ctl (evSummary b s) = ctl s := by simp [evSummary]

@[simp] theorem execEvrSummary_keeps (s : State) : Keeps s (execEvrSummary s) := by simp [execEvrSummary]

@[simp] theorem execEvrScanDone_keeps (s : State) : Keeps s (execEvrScanDone s) := by simp [execEvrScanDone]

@[simp] theorem healthTemp_ctl (k : Nat) (t : Word) (s : State) : ctl (healthTemp k t s) = ctl s :=
  by simp [healthTemp, ctl_views, ctl_mk]

@[simp] theorem healthRail_ctl (r mv : Nat) (s : State) : ctl (healthRail r mv s) = ctl s :=
  by simp [healthRail, ctl_views, ctl_mk]

@[simp] theorem execHealthSample_keeps (temps : List Word) (mv : List Nat) (s : State) :
    Keeps s (execHealthSample temps mv s) := by simp [execHealthSample]

@[simp] theorem snapFire_ctl (s : State) : ctl (snapFire s) = ctl s := by simp [snapFire, ctl_views, ctl_mk]

@[simp] theorem execSnapFire_keeps (s : State) : Keeps s (execSnapFire s) := by simp [execSnapFire]

@[simp] theorem execSnapEdge_keeps (s : State) : Keeps s (execSnapEdge s) := by simp [execSnapEdge, ctl_views, ctl_mk]

@[simp] theorem execSnapPeriodic_keeps (s : State) : Keeps s (execSnapPeriodic s) :=
  by simp [execSnapPeriodic, ctl_views, ctl_mk]

end Sys2Proof.Machine
end

