-- ==== Sys2Proof/Laws/CtlSlk.lean ====
section
/-! SUPPORT. What the operations of Machine/Slk.lean leave alone: the queue, the state, the placed timetable, the pending boot, the
supply, RST_N and the tick count (`ctl`, Laws/Ctl.lean). -/

set_option linter.unusedSimpArgs false
set_option linter.unusedTactic false
set_option linter.unreachableTactic false

namespace Sys2Proof.Machine

@[simp] theorem setSlk_ctl (k : SlkState) (s : State) : ctl (setSlk k s) = ctl s := Eq.refl _

@[simp] theorem setLine_ctl (p : Nat) (x : LineSt) (s : State) : ctl (setLine p x s) = ctl s := Eq.refl _

@[simp] theorem setStn_ctl (n : Nat) (x : StnSt) (s : State) : ctl (setStn n x s) = ctl s := Eq.refl _

@[simp] theorem stnState_ctl (n st : Nat) (s : State) : ctl (stnState n st s) = ctl s := Eq.refl _

@[simp] theorem tallyTrain_ctl (p : Nat) (s : State) : ctl (tallyTrain p s) = ctl s := by simp [tallyTrain]

@[simp] theorem sendTrain_ctl (regular : Bool) (p : Nat) (s : State) : ctl (sendTrain regular p s) = ctl s :=
  by simp [sendTrain]

@[simp] theorem lineHeadway_ctl (p : Nat) (s : State) : ctl (lineHeadway p s) = ctl s := Eq.refl _

@[simp] theorem slkHeadway_ctl (s : State) : ctl (slkHeadway s) = ctl s := by simp [slkHeadway]

@[simp] theorem execJoinTrainDepart_keeps (s : State) : Keeps s (execJoinTrainDepart s) := by simp [execJoinTrainDepart]

@[simp] theorem joinEnd_ctl (p : Nat) (s : State) : ctl (joinEnd p s) = ctl s := by simp [joinEnd]

@[simp] theorem joinCheck_ctl (p : Nat) (s : State) : ctl (joinCheck p s) = ctl s := by simp [joinCheck]

@[simp] theorem execJoinPhaseEnd_keeps (s : State) : Keeps s (execJoinPhaseEnd s) := by simp [execJoinPhaseEnd]

@[simp] theorem ringJudge_ctl (p : Nat) (c : Car) (s : State) : ctl (ringJudge p c s) = ctl s := by simp [ringJudge]

@[simp] theorem carBack_ctl (p : Nat) (c : Car) (late : Bool) (s : State) : ctl (carBack p c late s) = ctl s :=
  Eq.refl _

@[simp] theorem onCar_keeps (kind p : Nat) (f : List Byte) (act : Car → State → State) (s : State)
    (h : ∀ c t, ctl (act c t) = ctl t) : Keeps s (onCar kind p f act s) := by
  unfold onCar
  split
  · split
    · dsimp only
      split <;> simp [h]
    · simp
  · simp

@[simp] theorem execTimeCarReturn_keeps (p : Nat) (f : List Byte) (rt : Nat) (s : State) :
    Keeps s (execTimeCarReturn p f rt s) := by simp [execTimeCarReturn]

@[simp] theorem execOutputCarReturn_keeps (p : Nat) (f : List Byte) (s : State) :
    Keeps s (execOutputCarReturn p f s) := by simp [execOutputCarReturn]

@[simp] theorem inputSlot_ctl (p : Nat) (c : Car) (k : Nat) (s : State) : ctl (inputSlot p c k s) = ctl s :=
  by unfold inputSlot; split <;> simp [ctl_views, ctl_mk]

@[simp] theorem execInputCarReturn_keeps (p : Nat) (f : List Byte) (s : State) : Keeps s (execInputCarReturn p f s) :=
  by simp [execInputCarReturn]

@[simp] theorem addCmd_ctl (p : Nat) (c : SlotCmd) (s : State) : ctl (addCmd p c s) = ctl s := by simp [addCmd]

@[simp] theorem stnRestarted_ctl (n : Nat) (s : State) : ctl (stnRestarted n s) = ctl s := Eq.refl _

@[simp] theorem joinAdmit_ctl (p : Nat) (r : Station) (nonce : Nat) (s : State) :
    ctl (joinAdmit p r nonce s) = ctl s := by simp [joinAdmit]

@[simp] theorem joinRefuse_ctl (p pos station : Nat) (r : Option Station) (s : State) :
    ctl (joinRefuse p pos station r s) = ctl s := by
  unfold joinRefuse
  repeat' split
  all_goals simp [ctl_views, ctl_mk]

@[simp] theorem joinSlot_ctl (p : Nat) (c : Car) (k : Nat) (s : State) : ctl (joinSlot p c k s) = ctl s := by
  unfold joinSlot
  dsimp only
  repeat' split
  all_goals simp [ctl_views, ctl_mk]

@[simp] theorem execJoinCarReturn_keeps (p : Nat) (f : List Byte) (s : State) : Keeps s (execJoinCarReturn p f s) :=
  by simp [execJoinCarReturn]

@[simp] theorem execFrameDiscard_keeps (p : Nat) (f : List Byte) (s : State) : Keeps s (execFrameDiscard p f s) := by
  unfold execFrameDiscard
  repeat' (first
    | with_reducible rfl
    | (split <;> rename_i h <;> first
        | obtain ⟨rfl, rfl⟩ := Prod.ext_iff.1 h
        | (obtain ⟨rfl, h2⟩ := Prod.ext_iff.1 h; obtain ⟨rfl, rfl⟩ := Prod.ext_iff.1 h2)
        | skip)
    | (with_reducible refine (forL_ctl _ _ _ fun _ _ => ?_).trans ?_)
    | (with_reducible refine (forN_ctl _ _ _ fun _ _ => ?_).trans ?_)
    | dsimp only)
  all_goals first | done | simp [ctl_views, ctl_mk]

@[simp] theorem stnWrite_ctl (n train : Nat) (data : List Byte) (s : State) : ctl (stnWrite n train data s) = ctl s :=
  by simp [stnWrite]

@[simp] theorem stnWorsen_ctl (q : Quality) (n : Nat) (s : State) : ctl (stnWorsen q n s) = ctl s := by simp [stnWorsen]

@[simp] theorem stnDrop_ctl (r : Station) (s : State) : ctl (stnDrop r s) = ctl s := by
  unfold stnDrop
  dsimp only
  split <;> simp [ctl_views, ctl_mk]

@[simp] theorem stnClose_ctl (r : Station) (s : State) : ctl (stnClose r s) = ctl s := by
  unfold stnClose
  dsimp only
  repeat' split
  all_goals simp [ctl_views, ctl_mk]

@[simp] theorem slkInputClose_ctl (s : State) : ctl (slkInputClose s) = ctl s := by simp [slkInputClose]

@[simp] theorem execPresenceStaleExpire_keeps (st : Nat) (s : State) : Keeps s (execPresenceStaleExpire st s) :=
  by unfold execPresenceStaleExpire; split <;> simp [ctl_views, ctl_mk]

@[simp] theorem stnBad_ctl (n : Nat) (s : State) : ctl (stnBad n s) = ctl s := by simp [stnBad, ctl_views, ctl_mk]

@[simp] theorem slkDraw_ctl (old : Nat) (s : State) : ctl (slkDraw old s).2 = ctl s := by
  unfold slkDraw; split <;> rfl

@[simp] theorem lineStart_ctl (p : Nat) (s : State) : ctl (lineStart p s) = ctl s := by simp [lineStart]

@[simp] theorem slkEnterRun_ctl (fromReady : Bool) (s : State) : ctl (slkEnterRun fromReady s) = ctl s :=
  by simp [slkEnterRun]

@[simp] theorem slkReady_ctl (s : State) : ctl (slkReady s) = ctl s := Eq.refl _

@[simp] theorem slkPlace_ctl (s : State) : ctl (slkPlace s) = ctl s := Eq.refl _

@[simp] theorem stnLeave_ctl (r : Station) (s : State) : ctl (stnLeave r s) = ctl s := by
  unfold stnLeave
  simp [ctl_views, ctl_mk]

@[simp] theorem slkCommit_ctl (old : Timetable) (s : State) : ctl (slkCommit old s) = ctl s := by simp [slkCommit]

@[simp] theorem execEpochAdvance_keeps (s : State) : Keeps s (execEpochAdvance s) := by simp [execEpochAdvance]

@[simp] theorem epochDurable_ctl (ok : Bool) (s : State) : ctl (epochDurable ok s) = ctl s :=
  by unfold epochDurable; split <;> simp [ctl_views, ctl_mk]

@[simp] theorem execPhyLinkPoll_keeps (up : Nat) (s : State) : Keeps s (execPhyLinkPoll up s) :=
  by simp [execPhyLinkPoll]

@[simp] theorem slkSnap_ctl (s : State) : ctl (slkSnap s) = ctl s := by simp [slkSnap]

end Sys2Proof.Machine
end

