-- ==== Sys2Proof/Laws/CtlArch.lean ====
section
/-! SUPPORT. What the operations of Machine/Arch.lean leave alone: the queue, the state, the placed timetable, the pending boot, the
supply, RST_N and the tick count (`ctl`, Laws/Ctl.lean). -/

set_option linter.unusedSimpArgs false
set_option linter.unusedTactic false
set_option linter.unreachableTactic false

namespace Sys2Proof.Machine

@[simp] theorem ledgerRatio_ctl (reg hi lo : Nat) (prim pump deliv : Rat) (q : Quality) (s : State) :
    ctl (ledgerRatio reg hi lo prim pump deliv q s) = ctl s := by simp [ledgerRatio]

@[simp] theorem ledgerDayAdd_ctl (t : Rat × Rat × Rat) (q : Quality) (s : State) : ctl (ledgerDayAdd t q s) = ctl s :=
  Eq.refl _

@[simp] theorem ledgerPeriod_ctl (s : State) : ctl (ledgerPeriod s) = ctl s := by simp [ledgerPeriod, ctl_views, ctl_mk]

@[simp] theorem ledgerDay_ctl (s : State) : ctl (ledgerDay s) = ctl s := by simp [ledgerDay, ctl_views, ctl_mk]

@[simp] theorem stnDayUpd_ctl (n : Nat) (f : StnDay → StnDay) (s : State) : ctl (stnDayUpd n f s) = ctl s := Eq.refl _

@[simp] theorem stnBook_ctl (n : Nat) (w : Nat → DWord) (s : State) : ctl (stnBook n w s) = ctl s := Eq.refl _

@[simp] theorem archInputs_ctl (s : State) : ctl (archInputs s) = ctl s := by
  refine forL_ctl _ _ _ fun r t => ?_
  dsimp only
  repeat' split
  all_goals simp

@[simp] theorem archPending_ctl (s : State) : ctl (archPending s) = ctl s := by
  refine forL_ctl _ _ _ fun n t => ?_
  split <;> simp

@[simp] theorem archNewDays_ctl (s : State) : ctl (archNewDays s) = ctl s := by
  refine (forL_ctl _ _ _ fun n t => ?_).trans rfl
  split <;> simp

@[simp] theorem archMidnight_ctl (day : Nat) (s : State) : ctl (archMidnight day s) = ctl s :=
  by simp [archMidnight, ctl_views, ctl_mk]

@[simp] theorem archTick_ctl (s : State) : ctl (archTick s) = ctl s := by
  unfold archTick
  dsimp only
  repeat' split
  all_goals simp [ctl_views, ctl_mk]

@[simp] theorem archReady_ctl (s : State) : ctl (archReady s) = ctl s :=
  by unfold archReady; split <;> simp [ctl_views, ctl_mk]

@[simp] theorem archWrite_ctl (day : Nat) (x : Nat × List Byte) (fails : List Nat) (s : State) :
    ctl (archWrite day x fails s) = ctl s := by simp [archWrite]

@[simp] theorem execMidnightArchive_keeps (stop : Option Nat) (fails : List Nat) (s : State) :
    Keeps s (execMidnightArchive stop fails s) := by
  unfold execMidnightArchive
  dsimp only
  repeat' split
  all_goals simp [ctl_views, ctl_mk]

end Sys2Proof.Machine
end

