-- ==== Sys2Proof/Laws/CtlParity.lean ====
section
/-! SUPPORT. What the operations of Machine/Parity.lean leave alone: the queue, the state, the placed timetable, the pending boot, the
supply, RST_N and the tick count (`ctl`, Laws/Ctl.lean). -/

set_option linter.unusedSimpArgs false
set_option linter.unusedTactic false
set_option linter.unreachableTactic false

namespace Sys2Proof.Machine

@[simp] theorem memDrop_ctl (gone : Upset → Bool) (s : State) : ctl (memDrop gone s) = ctl s := Eq.refl _

theorem memMeet_ctl (lost : Upset → State → State) (h : ∀ u s, ctl (lost u s) = ctl s) (u : Upset) (s : State) :
    ctl (memMeet lost u s) = ctl s := by
  unfold memMeet
  dsimp only
  repeat' split
  all_goals simp [h]

/-- A read changes nothing of the control state, if losing a word does not. -/
theorem memRead_ctl (lost : Upset → State → State) (h : ∀ u s, ctl (lost u s) = ctl s) (a n : Nat) (s : State) :
    ctl (memRead lost a n s) = ctl s := forL_ctl _ _ _ (fun u t => memMeet_ctl lost h u t)

@[simp] theorem memUpset_ctl (u : Upset) (s : State) : ctl (memUpset u s) = ctl s := by
  unfold memUpset
  split <;> rfl

/-- Where no stored bit is wrong a read changes nothing. -/
@[simp] theorem memRead_clean {lost : Upset → State → State} {a n : Nat} {s : State} (h : memClean s a n = true) :
    memRead lost a n s = s := by
  have : s.mem.upsets.filter (upsetIn a n) = [] := by
    simp only [memClean, Bool.not_eq_true', List.any_eq_false] at h
    exact List.filter_eq_nil_iff.mpr (fun u hu => by simpa using h u hu)
  simp [memRead, this, forL]

/-- Where no stored bit is wrong no word is lost. -/
theorem memBad_clean {a n : Nat} {s : State} (h : memClean s a n = true) : memBad s a n = false := by
  simp only [memClean, Bool.not_eq_true', List.any_eq_false] at h
  simp only [memBad, List.any_eq_false, Bool.and_eq_true, not_and]
  exact fun u hu hi => absurd hi (h u hu)

end Sys2Proof.Machine
end

