-- ==== Sys2Proof/Laws/CtlCe.lean ====
section
/-! SUPPORT. What the operations of Machine/Ce.lean leave alone: the queue, the state, the placed timetable, the pending boot, the
supply, RST_N and the tick count (`ctl`, Laws/Ctl.lean). -/

set_option linter.unusedSimpArgs false
set_option linter.unusedTactic false
set_option linter.unreachableTactic false

namespace Sys2Proof.Machine

@[simp] theorem ceMemRead_ctl (a n : Nat) (s : State) : ctl (ceMemRead a n s) = ctl s := memRead_ctl _ (fun _ _ => rfl) a n s

@[simp] theorem ceSpend_ctl (e n : Nat) (s : State) : ctl (ceSpend e n s) = ctl s := Eq.refl _

@[simp] theorem ceSet_ctl (e : Nat) (x : EngineSt) (s : State) : ctl (ceSet e x s) = ctl s := Eq.refl _

@[simp] theorem taskSet_ctl (e k : Nat) (t : TaskSt) (s : State) : ctl (taskSet e k t s) = ctl s := Eq.refl _

@[simp] theorem dataWrite_ctl (e a : Nat) (bs : List Byte) (s : State) : ctl (dataWrite e a bs s) = ctl s := Eq.refl _

@[simp] theorem ceHostWrite_ctl (e off : Nat) (b : Byte) (s : State) : ctl (ceHostWrite e off b s) = ctl s :=
  by simp [ceHostWrite]

@[simp] theorem taskRelease_ctl (e k : Nat) (s : State) : ctl (taskRelease e k s) = ctl s := Eq.refl _

@[simp] theorem execTaskRelease_keeps (e k : Nat) (s : State) : Keeps s (execTaskRelease e k s) := by
  unfold execTaskRelease
  dsimp only
  repeat' split
  all_goals simp [ctl_views, ctl_mk]

@[simp] theorem execEventTaskRelease_keeps (e k : Nat) (s : State) : Keeps s (execEventTaskRelease e k s) := by
  unfold execEventTaskRelease
  dsimp only
  repeat' split
  all_goals simp [ctl_views, ctl_mk]

@[simp] theorem copyIn_ctl (e : Nat) (r : TaskRec) (s : State) : ctl (copyIn e r s) = ctl s := by simp [copyIn]

@[simp] theorem execTaskDispatch_keeps (e : Nat) (s : State) : Keeps s (execTaskDispatch e s) := by
  unfold execTaskDispatch
  dsimp only
  repeat' split
  all_goals simp [ctl_views, ctl_mk]

@[simp] theorem copyOutWord_ctl (own : List Nat) (ref : Nat) (w : DWord) (s : State) :
    ctl (copyOutWord own ref w s) = ctl s := by simp [copyOutWord]

@[simp] theorem copyOut_ctl (r : TaskRec) (s : State) : ctl (copyOut r s) = ctl s := by simp [copyOut]

@[simp] theorem releaseEnds_ctl (e k : Nat) (s : State) : ctl (releaseEnds e k s) = ctl s := Eq.refl _

@[simp] theorem taskStop_ctl (r : TaskRec) (s : State) : ctl (taskStop r s) = ctl s := by
  unfold taskStop
  repeat' (first
    | with_reducible rfl
    | (split <;> rename_i h <;> first
        | obtain ⟨rfl, rfl⟩ := Prod.ext_iff.1 h
        | (obtain ⟨rfl, h2⟩ := Prod.ext_iff.1 h; obtain ⟨rfl, rfl⟩ := Prod.ext_iff.1 h2)
        | skip)
    | (with_reducible refine (forL_ctl _ _ _ fun _ _ => ?_).trans ?_)
    | (with_reducible refine (forN_ctl _ _ _ fun _ _ => ?_).trans ?_)
    | dsimp only)
  all_goals first | done | simp [ctl_views, ctl_mk]

@[simp] theorem ceTrap_ctl (e k code pc : Nat) (s : State) : ctl (ceTrap e k code pc s) = ctl s :=
  by unfold ceTrap; split <;> simp [ctl_views, ctl_mk]

@[simp] theorem execBudgetExpire_keeps (e : Nat) (s : State) : Keeps s (execBudgetExpire e s) := by
  unfold execBudgetExpire
  dsimp only
  repeat' split
  all_goals simp [ctl_views, ctl_mk]

@[simp] theorem ceCmdStat_ctl (v : Nat) (s : State) : ctl (ceCmdStat v s) = ctl s := Eq.refl _

@[simp] theorem taskAbandon_ctl (e k : Nat) (s : State) : ctl (taskAbandon e k s) = ctl s := by
  unfold taskAbandon; split <;> simp

@[simp] theorem ceCommand_ctl (data : Word) (s : State) : ctl (ceCommand data s) = ctl s := by
  unfold ceCommand
  dsimp only
  repeat' split
  all_goals simp [ctl_views, ctl_mk]

@[simp] theorem retRequest_ctl (s : State) : ctl (retRequest s) = ctl s := by simp [retRequest]

@[simp] theorem execRetentiveSave_keeps (s : State) : Keeps s (execRetentiveSave s) := by simp [execRetentiveSave]

@[simp] theorem execRetentiveSavePeriodic_keeps (s : State) : Keeps s (execRetentiveSavePeriodic s) :=
  by simp [execRetentiveSavePeriodic, ctl_views, ctl_mk]

@[simp] theorem retCapture_ctl (r : Retentive) (mid : Bool) (owner : JOwner) (s : State) :
    ctl (retCapture r mid owner s) = ctl s := by simp [retCapture, ctl_views, ctl_mk]

@[simp] theorem execRetentiveCapture_keeps (e : Nat) (s : State) : Keeps s (execRetentiveCapture e s) := by
  unfold execRetentiveCapture
  dsimp only
  repeat' split
  all_goals simp [ctl_views, ctl_mk]

@[simp] theorem retDone_ctl (e : Nat) (ok : Bool) (s : State) : ctl (retDone e ok s) = ctl s :=
  by simp [retDone, ctl_views, ctl_mk]

@[simp] theorem retInit_ctl (r : Retentive) (s : State) : ctl (retInit r s) = ctl s := by simp [retInit]

@[simp] theorem retRestore_ctl (s : State) : ctl (retRestore s) = ctl s := by
  unfold retRestore
  split
  · rfl
  · refine (show ctl _ = ctl (forL _ _ _) from rfl).trans (forL_ctl _ _ _ fun r t => ?_)
    split
    · split <;> simp
    · simp

@[simp] theorem retEntered_ctl (s : State) : ctl (retEntered s) = ctl s := Eq.refl _

@[simp] theorem dataReload_ctl (e : Nat) (s : State) : ctl (dataReload e s) = ctl s :=
  by unfold dataReload; split <;> simp [ctl_views, ctl_mk]

@[simp] theorem ceEnterRun_ctl (s : State) : ctl (ceEnterRun s) = ctl s := by simp [ceEnterRun]

@[simp] theorem ceHalt_ctl (s : State) : ctl (ceHalt s) = ctl s := by simp [ceHalt]

@[simp] theorem ceReady_ctl (s : State) : ctl (ceReady s) = ctl s := by simp [ceReady]

@[simp] theorem cePlaceOne_ctl (t : Timetable) (e : Nat) (s : State) : ctl (cePlaceOne t e s) = ctl s := Eq.refl _

@[simp] theorem cePlace_ctl (t : Timetable) (s : State) : ctl (cePlace t s) = ctl s :=
  by simp [cePlace, ctl_views, ctl_mk]

@[simp] theorem ceRestart_ctl (old new : Timetable) (e : Nat) (s : State) : ctl (ceRestart old new e s) = ctl s := by
  unfold ceRestart
  repeat' split
  all_goals simp [ctl_views, ctl_mk]

@[simp] theorem ceCommit_ctl (old new : Timetable) (s : State) : ctl (ceCommit old new s) = ctl s := by simp [ceCommit]

@[simp] theorem patchWrite_ctl (e : Nat) (p : Patch) (s : State) : ctl (patchWrite e p s) = ctl s :=
  by simp [patchWrite]

@[simp] theorem patchEnter_ctl (staged masked : Bool) (s : State) : ctl (patchEnter staged masked s) = ctl s := by
  unfold patchEnter
  dsimp only
  repeat' split
  all_goals simp

@[simp] theorem patchSubmit_ctl (masked : Bool) (s : State) : ctl (patchSubmit masked s) = ctl s :=
  patchEnter_ctl _ _ _

@[simp] theorem execPatchApply_keeps (e : Nat) (s : State) : Keeps s (execPatchApply e s) := by
  unfold execPatchApply
  dsimp only
  repeat' split
  all_goals simp [ctl_views, ctl_mk]

@[simp] theorem ceHeadway_ctl (s : State) : ctl (ceHeadway s) = ctl s := by simp [ceHeadway]

@[simp] theorem trapPcRead_ctl (e : Nat) (s : State) : ctl (trapPcRead e s).2 = ctl s := Eq.refl _

@[simp] theorem execTrappcRead_keeps (e : Nat) (s : State) : Keeps s (execTrappcRead e s) := by simp [execTrappcRead]

end Sys2Proof.Machine
end

