-- ==== Sys2Proof/Laws/CtlCeIsa.lean ====
section
/-! SUPPORT. What the operations of Machine/CeIsa.lean leave alone: the queue, the state, the placed timetable, the pending boot, the
supply, RST_N and the tick count (`ctl`, Laws/Ctl.lean). -/

set_option linter.unusedSimpArgs false
set_option linter.unusedTactic false
set_option linter.unnecessarySeqFocus false
set_option linter.unreachableTactic false

namespace Sys2Proof.Machine

@[simp] theorem ceCommitBank_ctl (c : CeCtx) (t : TaskSt) (pc cycles : Nat) (s : State) :
    ctl (ceCommitBank c t pc cycles s) = ctl s := Eq.refl _

@[simp] theorem dataMend_ctl (e a n : Nat) (s : State) : ctl (dataMend e a n s) = ctl s := by simp [dataMend]

/-- An access that does not happen completes nothing. -/
@[simp] theorem ceFaultOut_done (f : CeFault) (t : TaskSt) (pc : Nat) (u : State) : (ceFaultOut f = .done t pc u) = False := by
  cases f <;> simp [ceFaultOut]

theorem ceStep_ctl (e : Nat) (legal : Word → Bool) (cycles : CeCtx → Nat) (act : CeCtx → State → CeOut) (s : State)
    (h : ∀ c v t pc u, act c v = .done t pc u → ctl u = ctl v) : ctl (ceStep e legal cycles act s) = ctl s := by
  unfold ceStep
  split
  · rfl
  · rename_i c _
    split
    · rfl
    · split
      · simp
      · dsimp only
        split
        · simp
        · split
          · simp
          · simp
          · rename_i hd
            simp [h _ _ _ _ _ hd]

@[simp] theorem ceAlu_ctl (op func n : Nat) (f : Word → Word → Word) (e : Nat) (s : State) :
    ctl (ceAlu op func n f e s) = ctl s := by
  unfold ceAlu
  refine ceStep_ctl _ _ _ _ _ fun c v t pc u h => ?_
  simp only [CeCtx.next, CeOut.done.injEq] at h
  simp [← h.2.2]

@[simp] theorem ceAlu1_ctl (op func n : Nat) (f : Word → Word) (e : Nat) (s : State) :
    ctl (ceAlu1 op func n f e s) = ctl s := by
  unfold ceAlu1
  refine ceStep_ctl _ _ _ _ _ fun c v t pc u h => ?_
  simp only [CeCtx.next, CeOut.done.injEq] at h
  simp [← h.2.2]

@[simp] theorem ceShift_ctl (func : Nat) (f : Word → Nat → Word) (e : Nat) (s : State) :
    ctl (ceShift func f e s) = ctl s := by
  unfold ceShift
  refine ceStep_ctl _ _ _ _ _ fun c v t pc u h => ?_
  simp only [CeCtx.next, CeOut.done.injEq] at h
  simp [← h.2.2]

@[simp] theorem ceImm_ctl (op : Nat) (f : Word → Word → Word) (e : Nat) (s : State) : ctl (ceImm op f e s) = ctl s := by
  unfold ceImm
  refine ceStep_ctl _ _ _ _ _ fun c v t pc u h => ?_
  simp only [CeCtx.next, CeOut.done.injEq] at h
  simp [← h.2.2]

@[simp] theorem ceDivide_ctl (func : Nat) (f : Word → Word → Word) (e : Nat) (s : State) :
    ctl (ceDivide func f e s) = ctl s := by
  unfold ceDivide
  refine ceStep_ctl _ _ _ _ _ fun c v t pc u h => ?_
  split at h
  · simp at h
  · simp only [CeCtx.next, CeOut.done.injEq] at h
    simp [← h.2.2]

@[simp] theorem ceFloat2_ctl (func n : Nat) (f : Word → Word → Word × FFlags) (e : Nat) (s : State) :
    ctl (ceFloat2 func n f e s) = ctl s := by
  unfold ceFloat2
  refine ceStep_ctl _ _ _ _ _ fun c v t pc u h => ?_
  unfold ceFloatOut at h
  split at h
  · simp at h
  · simp only [CeCtx.next, CeOut.done.injEq] at h
    simp [← h.2.2]

@[simp] theorem ceFloat3_ctl (func n : Nat) (f : Word → Word → Word → Word × FFlags) (e : Nat) (s : State) :
    ctl (ceFloat3 func n f e s) = ctl s := by
  unfold ceFloat3
  refine ceStep_ctl _ _ _ _ _ fun c v t pc u h => ?_
  unfold ceFloatOut at h
  split at h
  · simp at h
  · simp only [CeCtx.next, CeOut.done.injEq] at h
    simp [← h.2.2]

@[simp] theorem ceFloat1_ctl (func n : Nat) (res : Bool) (f : Word → Word × FFlags) (e : Nat) (s : State) :
    ctl (ceFloat1 func n res f e s) = ctl s := by
  unfold ceFloat1
  refine ceStep_ctl _ _ _ _ _ fun c v t pc u h => ?_
  unfold ceFloatOut at h
  split at h
  · simp at h
  · simp only [CeCtx.next, CeOut.done.injEq] at h
    simp [← h.2.2]

@[simp] theorem ceFcmp_ctl (func : Nat) (f : Word → Word → Bool) (e : Nat) (s : State) :
    ctl (ceFcmp func f e s) = ctl s := by
  unfold ceFcmp
  refine ceStep_ctl _ _ _ _ _ fun c v t pc u h => ?_
  unfold ceFloatOut at h
  split at h
  · simp at h
  · simp only [CeCtx.next, CeOut.done.injEq] at h
    simp [← h.2.2]

@[simp] theorem ceLoad_ctl (legal : Word → Bool) (n : Nat) (f : CeCtx → List Byte → TaskSt) (e : Nat) (s : State) :
    ctl (ceLoad legal n f e s) = ctl s := by
  unfold ceLoad
  refine ceStep_ctl _ _ _ _ _ fun c v t pc u h => ?_
  split at h
  · simp at h
  · simp only [CeCtx.next, CeOut.done.injEq] at h
    simp [← h.2.2]

@[simp] theorem ceStore_ctl (legal : Word → Bool) (n : Nat) (f : CeCtx → List Byte) (e : Nat) (s : State) :
    ctl (ceStore legal n f e s) = ctl s := by
  unfold ceStore
  refine ceStep_ctl _ _ _ _ _ fun c v t pc u h => ?_
  split at h
  · simp at h
  · simp only [CeCtx.next, CeOut.done.injEq] at h
    simp [← h.2.2]

@[simp] theorem ceLiteral_ctl (legal : Word → Bool) (n e : Nat) (s : State) : ctl (ceLiteral legal n e s) = ctl s := by
  unfold ceLiteral
  refine ceStep_ctl _ _ _ _ _ fun c v t pc u h => ?_
  dsimp only at h
  split at h
  · cases h
  · split at h
    · cases h
    · split at h <;> simp only [CeCtx.next, CeOut.done.injEq] at h <;> simp [← h.2.2]

@[simp] theorem ceBranch_ctl (op : Nat) (f : Word → Word → Bool) (e : Nat) (s : State) :
    ctl (ceBranch op f e s) = ctl s := by
  unfold ceBranch
  refine ceStep_ctl _ _ _ _ _ fun c v t pc u h => ?_
  split at h
  · simp only [CeCtx.jump] at h
    split at h
    · cases h
    · simp only [CeOut.done.injEq] at h
      simp [← h.2.2]
  · simp only [CeCtx.next, CeOut.done.injEq] at h
    simp [← h.2.2]

@[simp] theorem ceTimer_ctl (func : Nat) (f : Bool → Nat → TimerCell → TimerCell) (e : Nat) (s : State) :
    ctl (ceTimer func f e s) = ctl s := by
  unfold ceTimer
  refine ceStep_ctl _ _ _ _ _ fun c v t pc u h => ?_
  split at h
  · simp at h
  · simp only [CeCtx.next, CeOut.done.injEq] at h
    simp [← h.2.2]

@[simp] theorem ceEdge_ctl (func : Nat) (f : Bool → Bool → Bool) (e : Nat) (s : State) :
    ctl (ceEdge func f e s) = ctl s := by
  unfold ceEdge
  refine ceStep_ctl _ _ _ _ _ fun c v t pc u h => ?_
  split at h
  · simp at h
  · simp only [CeCtx.next, CeOut.done.injEq] at h
    simp [← h.2.2]

@[simp] theorem imageWrite_ctl (c : CeCtx) (ref : Nat) (w : DWord) (s : State) : ctl (imageWrite c ref w s) = ctl s :=
  by simp [imageWrite]

@[simp] theorem endRelease_ctl (c : CeCtx) (s : State) : ctl (endRelease c s) = ctl s := by simp [endRelease]

@[simp] theorem execCeAdd_keeps (e : Nat) (s : State) : Keeps s (execCeAdd e s) := by simp [execCeAdd]

@[simp] theorem execCeSub_keeps (e : Nat) (s : State) : Keeps s (execCeSub e s) := by simp [execCeSub]

@[simp] theorem execCeAnd_keeps (e : Nat) (s : State) : Keeps s (execCeAnd e s) := by simp [execCeAnd]

@[simp] theorem execCeOr_keeps (e : Nat) (s : State) : Keeps s (execCeOr e s) := by simp [execCeOr]

@[simp] theorem execCeXor_keeps (e : Nat) (s : State) : Keeps s (execCeXor e s) := by simp [execCeXor]

@[simp] theorem execCeSll_keeps (e : Nat) (s : State) : Keeps s (execCeSll e s) := by simp [execCeSll]

@[simp] theorem execCeSrl_keeps (e : Nat) (s : State) : Keeps s (execCeSrl e s) := by simp [execCeSrl]

@[simp] theorem execCeSra_keeps (e : Nat) (s : State) : Keeps s (execCeSra e s) := by simp [execCeSra]

@[simp] theorem execCeSlt_keeps (e : Nat) (s : State) : Keeps s (execCeSlt e s) := by simp [execCeSlt]

@[simp] theorem execCeSltu_keeps (e : Nat) (s : State) : Keeps s (execCeSltu e s) := by simp [execCeSltu]

@[simp] theorem execCeMin_keeps (e : Nat) (s : State) : Keeps s (execCeMin e s) := by simp [execCeMin]

@[simp] theorem execCeMax_keeps (e : Nat) (s : State) : Keeps s (execCeMax e s) := by simp [execCeMax]

@[simp] theorem execCeMul_keeps (e : Nat) (s : State) : Keeps s (execCeMul e s) := by simp [execCeMul]

@[simp] theorem execCeMulh_keeps (e : Nat) (s : State) : Keeps s (execCeMulh e s) := by simp [execCeMulh]

@[simp] theorem execCeMulhu_keeps (e : Nat) (s : State) : Keeps s (execCeMulhu e s) := by simp [execCeMulhu]

@[simp] theorem execCeDiv_keeps (e : Nat) (s : State) : Keeps s (execCeDiv e s) := by simp [execCeDiv]

@[simp] theorem execCeDivu_keeps (e : Nat) (s : State) : Keeps s (execCeDivu e s) := by simp [execCeDivu]

@[simp] theorem execCeRem_keeps (e : Nat) (s : State) : Keeps s (execCeRem e s) := by simp [execCeRem]

@[simp] theorem execCeRemu_keeps (e : Nat) (s : State) : Keeps s (execCeRemu e s) := by simp [execCeRemu]

@[simp] theorem execCeSlli_keeps (e : Nat) (s : State) : Keeps s (execCeSlli e s) := by simp [execCeSlli]

@[simp] theorem execCeSrli_keeps (e : Nat) (s : State) : Keeps s (execCeSrli e s) := by simp [execCeSrli]

@[simp] theorem execCeSrai_keeps (e : Nat) (s : State) : Keeps s (execCeSrai e s) := by simp [execCeSrai]

@[simp] theorem execCeClz_keeps (e : Nat) (s : State) : Keeps s (execCeClz e s) := by simp [execCeClz]

@[simp] theorem execCeAddi_keeps (e : Nat) (s : State) : Keeps s (execCeAddi e s) := by simp [execCeAddi]

@[simp] theorem execCeAndi_keeps (e : Nat) (s : State) : Keeps s (execCeAndi e s) := by simp [execCeAndi]

@[simp] theorem execCeOri_keeps (e : Nat) (s : State) : Keeps s (execCeOri e s) := by simp [execCeOri]

@[simp] theorem execCeXori_keeps (e : Nat) (s : State) : Keeps s (execCeXori e s) := by simp [execCeXori]

@[simp] theorem execCeSlti_keeps (e : Nat) (s : State) : Keeps s (execCeSlti e s) := by simp [execCeSlti]

@[simp] theorem execCeSltiu_keeps (e : Nat) (s : State) : Keeps s (execCeSltiu e s) := by simp [execCeSltiu]

@[simp] theorem execCeFadd_keeps (e : Nat) (s : State) : Keeps s (execCeFadd e s) := by simp [execCeFadd]

@[simp] theorem execCeFsub_keeps (e : Nat) (s : State) : Keeps s (execCeFsub e s) := by simp [execCeFsub]

@[simp] theorem execCeFmul_keeps (e : Nat) (s : State) : Keeps s (execCeFmul e s) := by simp [execCeFmul]

@[simp] theorem execCeFdiv_keeps (e : Nat) (s : State) : Keeps s (execCeFdiv e s) := by simp [execCeFdiv]

@[simp] theorem execCeFmin_keeps (e : Nat) (s : State) : Keeps s (execCeFmin e s) := by simp [execCeFmin]

@[simp] theorem execCeFmax_keeps (e : Nat) (s : State) : Keeps s (execCeFmax e s) := by simp [execCeFmax]

@[simp] theorem execCeFsqrt_keeps (e : Nat) (s : State) : Keeps s (execCeFsqrt e s) := by simp [execCeFsqrt]

@[simp] theorem execCeFmadd_keeps (e : Nat) (s : State) : Keeps s (execCeFmadd e s) := by simp [execCeFmadd]

@[simp] theorem execCeFclamp_keeps (e : Nat) (s : State) : Keeps s (execCeFclamp e s) := by simp [execCeFclamp]

@[simp] theorem execCeFabs_keeps (e : Nat) (s : State) : Keeps s (execCeFabs e s) := by simp [execCeFabs]

@[simp] theorem execCeFneg_keeps (e : Nat) (s : State) : Keeps s (execCeFneg e s) := by simp [execCeFneg]

@[simp] theorem execCeFeq_keeps (e : Nat) (s : State) : Keeps s (execCeFeq e s) := by simp [execCeFeq]

@[simp] theorem execCeFlt_keeps (e : Nat) (s : State) : Keeps s (execCeFlt e s) := by simp [execCeFlt]

@[simp] theorem execCeFle_keeps (e : Nat) (s : State) : Keeps s (execCeFle e s) := by simp [execCeFle]

@[simp] theorem execCeFcvtWs_keeps (e : Nat) (s : State) : Keeps s (execCeFcvtWs e s) := by simp [execCeFcvtWs]

@[simp] theorem execCeFcvtSw_keeps (e : Nat) (s : State) : Keeps s (execCeFcvtSw e s) := by simp [execCeFcvtSw]

@[simp] theorem execCeLb_keeps (e : Nat) (s : State) : Keeps s (execCeLb e s) := by simp [execCeLb]

@[simp] theorem execCeLbu_keeps (e : Nat) (s : State) : Keeps s (execCeLbu e s) := by simp [execCeLbu]

@[simp] theorem execCeLh_keeps (e : Nat) (s : State) : Keeps s (execCeLh e s) := by simp [execCeLh]

@[simp] theorem execCeLhu_keeps (e : Nat) (s : State) : Keeps s (execCeLhu e s) := by simp [execCeLhu]

@[simp] theorem execCeLw_keeps (e : Nat) (s : State) : Keeps s (execCeLw e s) := by simp [execCeLw]

@[simp] theorem execCeLd_keeps (e : Nat) (s : State) : Keeps s (execCeLd e s) := by simp [execCeLd]

@[simp] theorem execCeSb_keeps (e : Nat) (s : State) : Keeps s (execCeSb e s) := by simp [execCeSb]

@[simp] theorem execCeSh_keeps (e : Nat) (s : State) : Keeps s (execCeSh e s) := by simp [execCeSh]

@[simp] theorem execCeSw_keeps (e : Nat) (s : State) : Keeps s (execCeSw e s) := by simp [execCeSw]

@[simp] theorem execCeSd_keeps (e : Nat) (s : State) : Keeps s (execCeSd e s) := by simp [execCeSd]

@[simp] theorem execCeLit_keeps (e : Nat) (s : State) : Keeps s (execCeLit e s) := by simp [execCeLit]

@[simp] theorem execCeLitD_keeps (e : Nat) (s : State) : Keeps s (execCeLitD e s) := by simp [execCeLitD]

@[simp] theorem execCeBeq_keeps (e : Nat) (s : State) : Keeps s (execCeBeq e s) := by simp [execCeBeq]

@[simp] theorem execCeBne_keeps (e : Nat) (s : State) : Keeps s (execCeBne e s) := by simp [execCeBne]

@[simp] theorem execCeBlt_keeps (e : Nat) (s : State) : Keeps s (execCeBlt e s) := by simp [execCeBlt]

@[simp] theorem execCeBge_keeps (e : Nat) (s : State) : Keeps s (execCeBge e s) := by simp [execCeBge]

@[simp] theorem execCeBltu_keeps (e : Nat) (s : State) : Keeps s (execCeBltu e s) := by simp [execCeBltu]

@[simp] theorem execCeBgeu_keeps (e : Nat) (s : State) : Keeps s (execCeBgeu e s) := by simp [execCeBgeu]

@[simp] theorem execCeQmax_keeps (e : Nat) (s : State) : Keeps s (execCeQmax e s) := by simp [execCeQmax]

@[simp] theorem execCeQok_keeps (e : Nat) (s : State) : Keeps s (execCeQok e s) := by simp [execCeQok]

@[simp] theorem execCeTon_keeps (e : Nat) (s : State) : Keeps s (execCeTon e s) := by simp [execCeTon]

@[simp] theorem execCeTof_keeps (e : Nat) (s : State) : Keeps s (execCeTof e s) := by simp [execCeTof]

@[simp] theorem execCeTp_keeps (e : Nat) (s : State) : Keeps s (execCeTp e s) := by simp [execCeTp]

@[simp] theorem execCeEdr_keeps (e : Nat) (s : State) : Keeps s (execCeEdr e s) := by simp [execCeEdr]

@[simp] theorem execCeEdf_keeps (e : Nat) (s : State) : Keeps s (execCeEdf e s) := by simp [execCeEdf]

@[simp] theorem execCeEdb_keeps (e : Nat) (s : State) : Keeps s (execCeEdb e s) := by simp [execCeEdb]

@[simp] theorem execCeEnd_keeps (e : Nat) (s : State) : Keeps s (execCeEnd e s) :=
  by unfold execCeEnd; split <;> simp [ctl_views, ctl_mk]

@[simp] theorem execFetchAtTextEnd_keeps (e : Nat) (s : State) : Keeps s (execFetchAtTextEnd e s) :=
  by unfold execFetchAtTextEnd; split <;> simp [ctl_views, ctl_mk]

@[simp] theorem execCeLui_keeps (e : Nat) (s : State) : Keeps s (execCeLui e s) := by
  unfold execCeLui
  rw [keeps_next]
  refine ceStep_ctl _ _ _ _ _ fun c v t pc u h => ?_
  try simp only [CeCtx.next, CeCtx.jump] at h
  repeat' split at h
  all_goals cases h <;> simp

@[simp] theorem execCeJal_keeps (e : Nat) (s : State) : Keeps s (execCeJal e s) := by
  unfold execCeJal
  rw [keeps_next]
  refine ceStep_ctl _ _ _ _ _ fun c v t pc u h => ?_
  try simp only [CeCtx.next, CeCtx.jump] at h
  repeat' split at h
  all_goals cases h <;> simp

@[simp] theorem execCeJalr_keeps (e : Nat) (s : State) : Keeps s (execCeJalr e s) := by
  unfold execCeJalr
  rw [keeps_next]
  refine ceStep_ctl _ _ _ _ _ fun c v t pc u h => ?_
  try simp only [CeCtx.next, CeCtx.jump] at h
  repeat' split at h
  all_goals cases h <;> simp

@[simp] theorem execCeIrd_keeps (e : Nat) (s : State) : Keeps s (execCeIrd e s) := by
  unfold execCeIrd
  rw [keeps_next]
  refine ceStep_ctl _ _ _ _ _ fun c v t pc u h => ?_
  try simp only [CeCtx.next, CeCtx.jump] at h
  repeat' split at h
  all_goals cases h <;> simp

@[simp] theorem execCeIwr_keeps (e : Nat) (s : State) : Keeps s (execCeIwr e s) := by
  unfold execCeIwr
  rw [keeps_next]
  refine ceStep_ctl _ _ _ _ _ fun c v t pc u h => ?_
  try simp only [CeCtx.next, CeCtx.jump] at h
  repeat' split at h
  all_goals cases h <;> simp

@[simp] theorem execCeTrst_keeps (e : Nat) (s : State) : Keeps s (execCeTrst e s) := by
  unfold execCeTrst
  rw [keeps_next]
  refine ceStep_ctl _ _ _ _ _ fun c v t pc u h => ?_
  try simp only [CeCtx.next, CeCtx.jump] at h
  repeat' split at h
  all_goals first | (simp at h; done) | (cases h <;> simp)

@[simp] theorem execCeNop_keeps (e : Nat) (s : State) : Keeps s (execCeNop e s) := by
  unfold execCeNop
  rw [keeps_next]
  refine ceStep_ctl _ _ _ _ _ fun c v t pc u h => ?_
  try simp only [CeCtx.next, CeCtx.jump] at h
  repeat' split at h
  all_goals cases h <;> simp

@[simp] theorem execCeTrap_keeps (e : Nat) (s : State) : Keeps s (execCeTrap e s) := by
  unfold execCeTrap
  rw [keeps_next]
  refine ceStep_ctl _ _ _ _ _ fun c v t pc u h => ?_
  try simp only [CeCtx.next, CeCtx.jump] at h
  repeat' split at h
  all_goals cases h <;> simp

@[simp] theorem execCeEvt_keeps (e : Nat) (s : State) : Keeps s (execCeEvt e s) := by
  unfold execCeEvt
  rw [keeps_next]
  refine ceStep_ctl _ _ _ _ _ fun c v t pc u h => ?_
  try simp only [CeCtx.next, CeCtx.jump] at h
  repeat' split at h
  all_goals cases h <;> simp

@[simp] theorem execCeRdt_keeps (e : Nat) (s : State) : Keeps s (execCeRdt e s) := by
  unfold execCeRdt
  rw [keeps_next]
  refine ceStep_ctl _ _ _ _ _ fun c v t pc u h => ?_
  try simp only [CeCtx.next, CeCtx.jump] at h
  repeat' split at h
  all_goals cases h <;> simp

@[simp] theorem execCeFstat_keeps (e : Nat) (s : State) : Keeps s (execCeFstat e s) := by
  unfold execCeFstat
  rw [keeps_next]
  refine ceStep_ctl _ _ _ _ _ fun c v t pc u h => ?_
  try simp only [CeCtx.next, CeCtx.jump] at h
  repeat' split at h
  all_goals cases h <;> simp

@[simp] theorem execIllegalInstruction_keeps (e : Nat) (s : State) : Keeps s (execIllegalInstruction e s) := by
  unfold execIllegalInstruction
  rw [keeps_next]
  refine ceStep_ctl _ _ _ _ _ fun c v t pc u h => ?_
  try simp only [CeCtx.next, CeCtx.jump] at h
  repeat' split at h
  all_goals cases h <;> simp

end Sys2Proof.Machine
end

