-- ==== Sys2Proof/Laws/Ce.lean ====
section
/-! SUPPORT. The control engines: banks and engines read back, what a completed instruction leaves (`CeRetired`), and the one
lemma for each outcome of the shared instruction step. -/

set_option linter.unusedSimpArgs false
set_option linter.unusedTactic false
set_option linter.unreachableTactic false

namespace Sys2Proof.Machine

theorem nth_setNth_eq {α : Type} (xs : List α) (i : Nat) (v d : α) (h : i < xs.length) : nth (setNth xs i v) i d = v := by
  simp [nth, setNth, h]

theorem nth_setNth_ne {α : Type} (xs : List α) (i j : Nat) (v d : α) (h : i ≠ j) : nth (setNth xs i v) j d = nth xs j d := by
  simp [nth, setNth, List.getElem?_set_ne h]

theorem nth_default {α : Type} (xs : List α) (i : Nat) (d : α) (h : xs.length ≤ i) : nth xs i d = d := by
  simp [nth, h]

theorem smGet_insert_eq {α : Type} (d : Nat → α) (m : List (Nat × α)) (k : Nat) (v : α) : smGet d (smInsert m k v) k = v := by
  induction m with
  | nil => simp [smInsert, smGet]
  | cons p m ih =>
    obtain ⟨k', v'⟩ := p
    unfold smInsert
    split
    · simp [smGet]
    · split
      · simp [smGet]
      · rename_i h1 h2
        simp only [smGet, ih]
        rw [if_neg (fun h => h2 h.symm), if_neg h1]

theorem smGet_insert_ne {α : Type} (d : Nat → α) (m : List (Nat × α)) (k j : Nat) (v : α) (h : k ≠ j) :
    smGet d (smInsert m k v) j = smGet d m j := by
  induction m with
  | nil =>
    simp [smInsert, smGet, h]
  | cons p m ih =>
    obtain ⟨k', v'⟩ := p
    unfold smInsert
    split
    · simp only [smGet, if_neg h]
      by_cases hj : j < k
      · rw [if_pos hj, if_neg (by omega), if_pos (by omega)]
      · rw [if_neg hj]
    · split
      · simp only [smGet, if_neg h]
        rename_i h1 h2
        subst h2
        simp [h]
      · simp only [smGet, ih]

theorem taskGet_setTask_eq (x : EngineSt) (k : Nat) (t : TaskSt) (h : t ≠ {}) : (x.setTask k t).task k = t := by
  simp only [EngineSt.setTask, EngineSt.task, smPut, if_neg h, smGet_insert_eq]

theorem taskGet_setTask_ne (x : EngineSt) (k j : Nat) (t : TaskSt) (h : t ≠ {}) (hk : k ≠ j) :
    (x.setTask k t).task j = x.task j := by
  simp only [EngineSt.setTask, EngineSt.task, smPut, if_neg h, smGet_insert_ne _ _ _ _ _ hk]

theorem ceGet_ceSet_eq (s : State) (e : Nat) (x : EngineSt) (h : e < s.ce.engines.length) : ceGet (ceSet e x s) e = x :=
  nth_setNth_eq _ _ _ _ h

theorem ceGet_ceSet_ne (s : State) (e f : Nat) (x : EngineSt) (h : e ≠ f) : ceGet (ceSet e x s) f = ceGet s f :=
  nth_setNth_ne _ _ _ _ _ h
@[simp] theorem ceSet_len (s : State) (e : Nat) (x : EngineSt) : (ceSet e x s).ce.engines.length = s.ce.engines.length := by
  simp [ceSet, setNth]

theorem run_range {s : State} {e k : Nat} (h : (ceGet s e).run = some k) : e < s.ce.engines.length := by
  by_contra hh
  rw [ceGet, nth_default _ _ _ (by omega)] at h
  cases h

theorem ceCtx_inv {e : Nat} {s : State} {c : CeCtx} (h : ceCtx e s = some c) :
    c.e = e ∧ (ceGet s e).run = some c.k ∧ c.tt = theTt s ∧ (theTt s).task e c.k = some c.r ∧ c.t = taskGet s e c.k ∧
    engRuns s e = true := by
  unfold ceCtx at h
  split at h
  · cases h
  · rename_i hr
    split at h
    · cases h
    · split at h
      · cases h
      · rename_i k hk r hrr
        cases h
        simp_all

theorem commit_retired {c : CeCtx} {b : TaskSt} {pc n : Nat} {s : State} (hn : 0 < n) (hr : c.e < s.ce.engines.length) :
    CeRetired c b pc n s (ceCommitBank c b pc n s) := by
  have hb : ({ b with pc := pc, cycles := c.t.cycles + n } : TaskSt) ≠ {} := by
    intro h
    have := congrArg TaskSt.cycles h
    simp at this
    omega
  have key : ∀ e, ceGet (ceCommitBank c b pc n s) e =
      if e = c.e then { (ceGet s c.e).setTask c.k { b with pc := pc, cycles := c.t.cycles + n } with
        hwCycles := (ceGet s c.e).hwCycles + n, atEnd := none } else ceGet s e := by
    intro e
    unfold ceCommitBank taskSet
    dsimp only
    split
    · rename_i h
      subst h
      rw [ceGet_ceSet_eq _ _ _ (by simpa using hr), ceGet_ceSet_eq _ _ _ hr]
      simp [EngineSt.setTask]
    · rename_i h
      rw [ceGet_ceSet_ne _ _ _ _ (fun x => h x.symm), ceGet_ceSet_ne _ _ _ _ (fun x => h x.symm)]
  refine ⟨?_, ?_, ?_, ?_⟩
  · rw [taskGet, key, if_pos rfl]
    exact taskGet_setTask_eq _ _ _ hb
  · intro e k h
    rw [taskGet, key]
    split
    · rename_i he
      subst he
      have hk : c.k ≠ k := by rcases h with h | h; exact absurd rfl h; exact fun x => h x.symm
      show ((ceGet s c.e).setTask c.k _).task k = _
      rw [taskGet_setTask_ne _ _ _ _ hb hk]; rfl
    · rfl
  · intro e
    rw [key]
    split
    · rename_i he; subst he; simp [EngineSt.setTask]
    · simp
  · simp [ceCommitBank, taskSet, ceSet]

theorem ceStep_done {e : Nat} {c : CeCtx} {s : State} {legal : Word → Bool} {cyc : CeCtx → Nat} {act : CeCtx → State → CeOut}
    {b : TaskSt} {pc : Nat} {s1 : State} (h : CeExecutes e c s) (hl : legal c.w = true) (ha : act c s = .done b pc s1) :
    ceStep e legal cyc act s = ceCommitBank c b pc (cyc c) s1 := by
  obtain ⟨h1, h2, h3, h4⟩ := h
  simp [ceStep, h1, h2, h3, ceMemRead, h4, memBad_clean h4, hl, ha]

theorem ceStep_trap {e : Nat} {c : CeCtx} {s : State} {legal : Word → Bool} {cyc : CeCtx → Nat} {act : CeCtx → State → CeOut}
    {code : Nat} (h : CeExecutes e c s) (hl : legal c.w = true) (ha : act c s = .trap code) :
    ceStep e legal cyc act s = ceTrap c.e c.k code c.t.pc s := by
  obtain ⟨h1, h2, h3, h4⟩ := h
  simp [ceStep, h1, h2, h3, ceMemRead, h4, memBad_clean h4, hl, ha, (ceCtx_inv h1).1]

theorem does_of {i : Instr} {e : Nat} {c : CeCtx} {s : State} {legal : Word → Bool} {cyc : CeCtx → Nat} {act : CeCtx → State → CeOut}
    {b : TaskSt} (hx : exec i s = .next (ceStep e legal cyc act s)) (h : CeExecutes e c s) (hl : legal c.w = true)
    (hn : 0 < cyc c) (ha : act c s = .done b (c.t.pc + 4) s) : CeDoes i c b (cyc c) s := by
  obtain ⟨h1, h2, h3, h4⟩ := ceCtx_inv h.1
  refine ⟨_, hx, ?_⟩
  rw [ceStep_done h hl ha]
  exact commit_retired hn (h1 ▸ run_range h2)

theorem traps_of {i : Instr} {e : Nat} {c : CeCtx} {s : State} {legal : Word → Bool} {cyc : CeCtx → Nat} {act : CeCtx → State → CeOut}
    {code : Nat} (hx : exec i s = .next (ceStep e legal cyc act s)) (h : CeExecutes e c s) (hl : legal c.w = true)
    (ha : act c s = .trap code) : CeTraps i c code s := by
  unfold CeTraps
  rw [hx, ceStep_trap h hl ha]

theorem writes_of {i : Instr} {e : Nat} {c : CeCtx} {s s1 : State} {legal : Word → Bool} {cyc : CeCtx → Nat} {act : CeCtx → State → CeOut}
    {b : TaskSt} (hx : exec i s = .next (ceStep e legal cyc act s)) (h : CeExecutes e c s) (hl : legal c.w = true)
    (hn : 0 < cyc c) (hr : s1.ce.engines.length = s.ce.engines.length) (ha : act c s = .done b (c.t.pc + 4) s1) : CeWrites i c b (cyc c) s s1 := by
  obtain ⟨h1, h2, h3, h4⟩ := ceCtx_inv h.1
  refine ⟨_, hx, ?_⟩
  rw [ceStep_done h hl ha]
  exact commit_retired hn (h1 ▸ hr ▸ run_range h2)

theorem does_of1 {i : Instr} {e n : Nat} {c : CeCtx} {s : State} {legal : Word → Bool} {act : CeCtx → State → CeOut}
    {b : TaskSt} (hx : exec i s = .next (ceStep e legal (fun _ => n) act s)) (h : CeExecutes e c s) (hl : legal c.w = true)
    (hn : 0 < n) (ha : act c s = .done b (c.t.pc + 4) s) : CeDoes i c b n s := does_of hx h hl hn ha

theorem writes_of1 {i : Instr} {e n : Nat} {c : CeCtx} {s s1 : State} {legal : Word → Bool} {act : CeCtx → State → CeOut}
    {b : TaskSt} (hx : exec i s = .next (ceStep e legal (fun _ => n) act s)) (h : CeExecutes e c s) (hl : legal c.w = true)
    (hn : 0 < n) (hr : s1.ce.engines.length = s.ce.engines.length) (ha : act c s = .done b (c.t.pc + 4) s1) :
    CeWrites i c b n s s1 := writes_of hx h hl hn hr ha

theorem Recorded.ce {s t : State} (h : Recorded s t) : t.ce = s.ce := by rw [h]

theorem imgPut_ce (r i : Nat) (w : DWord) (s : State) : (imgPut r i w s).ce = s.ce := by
  unfold imgPut; split <;> rfl

theorem outWrite_ce (ref : Nat) (w : DWord) (s : State) : (outWrite ref w s).ce = s.ce := by
  unfold outWrite
  split
  · exact imgPut_ce ..
  · unfold coWrite
    simp [imgPut_ce, setChan]
  · rfl

theorem ceGet_congr {s t : State} (h : t.ce = s.ce) (e : Nat) : ceGet t e = ceGet s e := by simp [ceGet, h]

theorem task_rec {t : Timetable} {e k : Nat} {r : TaskRec} (h : t.task e k = some r) : r.engine = e ∧ r.task = k := by
  have := List.find?_some h
  simpa using this

theorem copyOutWord_ce (own : List Nat) (ref : Nat) (w : DWord) (s : State) : (copyOutWord own ref w s).ce = s.ce := by
  unfold copyOutWord
  split
  · exact outWrite_ce ..
  · rw [(cause_recorded ..).ce, (incFld_recorded ..).ce]

theorem copyOut_ce (r : TaskRec) (s : State) (hr : r.engine < s.ce.engines.length) :
    (ceGet (copyOut r s) r.engine).run = (ceGet s r.engine).run ∧
    (taskGet (copyOut r s) r.engine r.task).pendingRel = (taskGet s r.engine r.task).pendingRel ∧
    (copyOut r s).ce.engines.length = s.ce.engines.length := by
  unfold copyOut
  extract_lets own l late s1 t
  have h1 : s1.ce = s.ce := forL_keeps (fun u : State => u.ce) _ _ _ fun x u => copyOutWord_ce ..
  split
  · have hne : ({ t with late := satInc 16 t.late } : TaskSt) ≠ {} := by
      intro h
      have := congrArg TaskSt.late h
      simp only [satInc] at this
      split at this <;> simp at this
    have h2 : (countLate (taskSet r.engine r.task { t with late := satInc 16 t.late } s1)).ce =
        (taskSet r.engine r.task { t with late := satInc 16 t.late } s1).ce := rfl
    have hlen : r.engine < s1.ce.engines.length := by rw [h1]; exact hr
    refine ⟨?_, ?_, ?_⟩
    · rw [ceGet_congr h2, taskSet, ceGet_ceSet_eq _ _ _ hlen]
      simp [EngineSt.setTask, ceGet_congr h1]
    · rw [taskGet, ceGet_congr h2, taskSet, ceGet_ceSet_eq _ _ _ hlen, taskGet_setTask_eq _ _ _ hne]
      simp [t, taskGet, ceGet_congr h1]
    · rw [h2]; simp [taskSet, h1]
  · exact ⟨by rw [ceGet_congr h1], by rw [taskGet, ceGet_congr h1]; rfl, by rw [h1]⟩

theorem releaseEnds_get {e k : Nat} {s : State} (he : e < s.ce.engines.length) (hr : (ceGet s e).run = some k)
    (hc : (taskGet s e k).cycles ≠ 0) :
    (ceGet (releaseEnds e k s) e).run = none ∧ (releaseEnds e k s).ce.engines.length = s.ce.engines.length ∧
    taskGet (releaseEnds e k s) e k = if (taskGet s e k).pendingRel = true then
      { taskGet s e k with mode := .released, pendingRel := false, relTick := s.pwr.tick } else { taskGet s e k with mode := .idle } := by
  unfold releaseEnds
  extract_lets x t x1
  have hg := ceGet_ceSet_eq s e (x1.setTask k (if t.pendingRel then { t with mode := .released, pendingRel := false, relTick := s.pwr.tick }
    else { t with mode := .idle })) he
  refine ⟨?_, by simp, ?_⟩
  · rw [hg]; simp [EngineSt.setTask, x1, x, hr]
  · rw [taskGet, hg, taskGet_setTask_eq]
    · rfl
    · intro hh
      have := congrArg TaskSt.cycles hh
      have hc' : t.cycles ≠ 0 := hc
      split at this <;> exact hc' this

theorem taskSet_get {e k : Nat} {s : State} {b : TaskSt} (he : e < s.ce.engines.length) (hb : b ≠ {}) :
    (ceGet (taskSet e k b s) e).run = (ceGet s e).run ∧ (taskSet e k b s).ce.engines.length = s.ce.engines.length ∧
    taskGet (taskSet e k b s) e k = b := by
  unfold taskSet
  have hg := ceGet_ceSet_eq s e ((ceGet s e).setTask k b) he
  refine ⟨by rw [hg]; rfl, by simp, ?_⟩
  rw [taskGet, hg, taskGet_setTask_eq _ _ _ hb]

theorem ceSet_get {e k : Nat} {s : State} {x : EngineSt} (he : e < s.ce.engines.length) (hx : x.tasks = (ceGet s e).tasks)
    (hr : x.run = (ceGet s e).run) :
    (ceGet (ceSet e x s) e).run = (ceGet s e).run ∧ taskGet (ceSet e x s) e k = taskGet s e k := by
  have hg := ceGet_ceSet_eq s e x he
  refine ⟨by rw [hg, hr], ?_⟩
  rw [taskGet, hg, EngineSt.task, hx]; rfl

theorem endRel_core {e k : Nat} {s1 : State} {b : TaskSt} (f g : EngineSt → EngineSt)
    (hf : ∀ x, (f x).tasks = x.tasks ∧ (f x).run = x.run) (hg : ∀ x, (g x).tasks = x.tasks ∧ (g x).run = x.run)
    (hrun : (ceGet s1 e).run = some k) (hb : b.cycles ≠ 0) :
    let s2 := taskSet e k b s1
    let s3 := ceSet e (f (ceGet s2 e)) s2
    let s4 := releaseEnds e k s3
    let s5 := ceSet e (g (ceGet s4 e)) s4
    (ceGet s5 e).run = none ∧ taskGet s5 e k = if b.pendingRel = true then
      { b with mode := .released, pendingRel := false, relTick := s1.pwr.tick } else { b with mode := .idle } := by
  intro s2 s3 s4 s5
  have hlen := run_range hrun
  have a2 := taskSet_get (e := e) (k := k) (s := s1) (b := b) hlen (by intro hh; rw [hh] at hb; exact hb rfl)
  have l2 : e < s2.ce.engines.length := by rw [a2.2.1]; exact hlen
  have a3 := ceSet_get (e := e) (k := k) (s := s2) l2 (hf (ceGet s2 e)).1 (hf (ceGet s2 e)).2
  have l3 : e < s3.ce.engines.length := by simpa [s3] using l2
  have t3 : taskGet s3 e k = b := a3.2.trans a2.2.2
  have a4 := releaseEnds_get (e := e) (k := k) (s := s3) l3 (a3.1.trans (a2.1.trans hrun)) (by rw [t3]; exact hb)
  have l4 : e < s4.ce.engines.length := by rw [a4.2.1]; exact l3
  have a5 := ceSet_get (e := e) (k := k) (s := s4) l4 (hg (ceGet s4 e)).1 (hg (ceGet s4 e)).2
  refine ⟨a5.1.trans a4.1, ?_⟩
  rw [a5.2.trans a4.2.2, t3]
  rfl

theorem endRelease_get {c : CeCtx} {s : State} (hrun : (ceGet s c.e).run = some c.k) (hr : c.r.engine = c.e ∧ c.r.task = c.k)
    (ht : c.t = taskGet s c.e c.k) :
    (ceGet (endRelease c s) c.e).run = none ∧
    (c.t.pendingRel = false → (taskGet (endRelease c s) c.e c.k).mode = .idle) ∧
    (c.t.pendingRel = true → (taskGet (endRelease c s) c.e c.k).mode = .released ∧
      (taskGet (endRelease c s) c.e c.k).relTick = s.pwr.tick) := by
  have hlen := run_range hrun
  obtain ⟨c1, c2, c3⟩ := copyOut_ce c.r s (by rw [hr.1]; exact hlen)
  rw [hr.1] at c1
  rw [hr.1, hr.2, ← ht] at c2
  have hp : (copyOut c.r s).pwr.tick = s.pwr.tick := congrArg Ctl.tick (copyOut_ctl c.r s)
  obtain ⟨e1, e2⟩ := endRel_core (e := c.e) (k := c.k) (s1 := copyOut c.r s)
    (b := { taskGet (copyOut c.r s) c.e c.k with
      cycles := c.t.cycles + 1 + copyCycles (copyListMem s c.e c.r.outList).length,
      last := min 0xFFFF ((c.t.cycles + 1 + copyCycles (copyListMem s c.e c.r.outList).length) / 4000),
      longest := max (taskGet (copyOut c.r s) c.e c.k).longest (min 0xFFFF ((c.t.cycles + 1 + copyCycles (copyListMem s c.e c.r.outList).length) / 4000)),
      pc := c.t.pc + 4 })
    (fun x => { x with hwCycles := x.hwCycles + 1 + copyCycles (copyListMem s c.e c.r.outList).length })
    (fun x => { x with atEnd := some s.pwr.tick }) (fun x => ⟨rfl, rfl⟩) (fun x => ⟨rfl, rfl⟩) (c1.trans hrun)
    (by change c.t.cycles + 1 + copyCycles _ ≠ 0; omega)
  have key : ∀ x, x = endRelease c s → (ceGet x c.e).run = none → taskGet x c.e c.k = (if c.t.pendingRel = true then
      { ({ taskGet (copyOut c.r s) c.e c.k with
      cycles := c.t.cycles + 1 + copyCycles (copyListMem s c.e c.r.outList).length,
      last := min 0xFFFF ((c.t.cycles + 1 + copyCycles (copyListMem s c.e c.r.outList).length) / 4000),
      longest := max (taskGet (copyOut c.r s) c.e c.k).longest (min 0xFFFF ((c.t.cycles + 1 + copyCycles (copyListMem s c.e c.r.outList).length) / 4000)),
      pc := c.t.pc + 4 } : TaskSt) with mode := .released, pendingRel := false, relTick := s.pwr.tick } else
      { ({ taskGet (copyOut c.r s) c.e c.k with
      cycles := c.t.cycles + 1 + copyCycles (copyListMem s c.e c.r.outList).length,
      last := min 0xFFFF ((c.t.cycles + 1 + copyCycles (copyListMem s c.e c.r.outList).length) / 4000),
      longest := max (taskGet (copyOut c.r s) c.e c.k).longest (min 0xFFFF ((c.t.cycles + 1 + copyCycles (copyListMem s c.e c.r.outList).length) / 4000)),
      pc := c.t.pc + 4 } : TaskSt) with mode := .idle }) →
      (ceGet x c.e).run = none ∧ (c.t.pendingRel = false → (taskGet x c.e c.k).mode = .idle) ∧
    (c.t.pendingRel = true → (taskGet x c.e c.k).mode = .released ∧ (taskGet x c.e c.k).relTick = s.pwr.tick) := by
    intro x _ h1 h2
    refine ⟨h1, fun h => ?_, fun h => ?_⟩
    · rw [h2, h]; rfl
    · rw [h2, h]; exact ⟨rfl, rfl⟩
  refine key _ rfl e1 ?_
  refine Eq.trans e2 ?_
  rw [hp]
  simp only [c2]

end Sys2Proof.Machine
end

