-- ==== Sys2Proof/Laws/CtlLpe.lean ====
section
/-! SUPPORT. What the operations of Machine/Lpe.lean leave alone: the queue, the state, the placed timetable, the pending boot, the
supply, RST_N and the tick count (`ctl`, Laws/Ctl.lean). -/

set_option linter.unusedSimpArgs false
set_option linter.unusedTactic false
set_option linter.unreachableTactic false

namespace Sys2Proof.Machine

@[simp] theorem loopSet_ctl (k : Nat) (x : LoopSt) (s : State) : ctl (loopSet k x s) = ctl s := Eq.refl _

@[simp] theorem coefLoad_ctl (r : LoopRec) (s : State) : ctl (coefLoad r s) = ctl s := by simp [coefLoad]

@[simp] theorem injSet_ctl (c : Nat) (x : Injector) (s : State) : ctl (injSet c x s) = ctl s := Eq.refl _

@[simp] theorem injSample_ctl (c : Nat) (h : Rat) (s : State) : ctl (injSample c h s).2 = ctl s := by
  unfold injSample
  dsimp only
  repeat' split
  all_goals simp [ctl_views, ctl_mk]

@[simp] theorem injAbort_ctl (c : Nat) (s : State) : ctl (injAbort c s) = ctl s := by simp [injAbort]

@[simp] theorem injAbortLoop_ctl (k : Nat) (s : State) : ctl (injAbortLoop k s) = ctl s :=
  by unfold injAbortLoop; split <;> simp [ctl_views, ctl_mk]

@[simp] theorem capSet_ctl (c : Nat) (x : Capture) (s : State) : ctl (capSet c x s) = ctl s := Eq.refl _

@[simp] theorem capStop_ctl (c : Nat) (s : State) : ctl (capStop c s) = ctl s := by simp [capStop]

@[simp] theorem capRecord_ctl (c : Nat) (sig : CapSignals) (s : State) : ctl (capRecord c sig s) = ctl s :=
  by simp [capRecord, ctl_views, ctl_mk]

@[simp] theorem capSample_ctl (k : Nat) (injFirst : Bool) (sig : CapSignals) (s : State) :
    ctl (capSample k injFirst sig s) = ctl s := by simp [capSample]

@[simp] theorem capSnap_ctl (s : State) : ctl (capSnap s) = ctl s := by simp [capSnap]

@[simp] theorem loopEmit_ctl (r : LoopRec) (x : LoopSt) (u : Word) (q pvq : Quality) (lim : Bool × Bool × Bool) (frozen : Bool) (s : State) :
    ctl (loopEmit r x u q pvq lim frozen s) = ctl s := by simp [loopEmit]

@[simp] theorem loopEnterFb_ctl (k : Nat) (s : State) : ctl (loopEnterFb k s) = ctl s := by simp [loopEnterFb]

@[simp] theorem loopFallback_ctl (r : LoopRec) (c : Coef) (h : Rat) (x : LoopSt) (f : Rat) (ffBad : Bool) (pvq : Quality) (s : State) :
    ctl (loopFallback r c h x f ffBad pvq s) = ctl s := by unfold loopFallback; split <;> simp [ctl_views, ctl_mk]

@[simp] theorem loopManual_ctl (r : LoopRec) (c : Coef) (h sg : Rat) (x : LoopSt) (inp : LoopInputs) (f : Rat) (s : State) :
    ctl (loopManual r c h sg x inp f s) = ctl s := by
  unfold loopManual
  dsimp only
  repeat' split
  all_goals simp [ctl_views, ctl_mk]

@[simp] theorem loopAuto_ctl (r : LoopRec) (c : Coef) (h sg : Rat) (x : LoopSt) (inp : LoopInputs) (f fOld : Rat) (fq : Quality) (s : State) :
    ctl (loopAuto r c h sg x inp f fOld fq s) = ctl s := by
  unfold loopAuto
  dsimp only
  repeat' split
  all_goals simp [ctl_views, ctl_mk]

@[simp] theorem loopSample_ctl (r : LoopRec) (s : State) : ctl (loopSample r s) = ctl s := by simp [loopSample]

@[simp] theorem loopTime_ctl (s : State) : ctl (loopTime s) = ctl s := by simp [loopTime]

@[simp] theorem execLoopSample_keeps (s : State) : Keeps s (execLoopSample s) := by
  unfold execLoopSample
  dsimp only
  repeat' split
  all_goals simp [ctl_views, ctl_mk]

@[simp] theorem lpePlace_ctl (t : Timetable) (s : State) : ctl (lpePlace t s) = ctl s :=
  by simp [lpePlace, ctl_views, ctl_mk]

@[simp] theorem lpeEnterRun_ctl (s : State) : ctl (lpeEnterRun s) = ctl s := by simp [lpeEnterRun, ctl_views, ctl_mk]

@[simp] theorem lpeLeaveRun_ctl (s : State) : ctl (lpeLeaveRun s) = ctl s := by simp [lpeLeaveRun]

@[simp] theorem loopChange_ctl (k : Nat) (s : State) : ctl (loopChange k s) = ctl s := by simp [loopChange]

@[simp] theorem loopClear_ctl (k : Nat) (s : State) : ctl (loopClear k s) = ctl s := by simp [loopClear]

@[simp] theorem lpeCommit_ctl (old new : Timetable) (s : State) : ctl (lpeCommit old new s) = ctl s := by
  refine forN_ctl _ _ _ fun k u => ?_
  dsimp only
  repeat' split
  all_goals simp

@[simp] theorem execInjectionEnd_keeps (c : Nat) (s : State) : Keeps s (execInjectionEnd c s) :=
  by simp [execInjectionEnd]

@[simp] theorem execCaptureDone_keeps (c : Nat) (s : State) : Keeps s (execCaptureDone c s) := by simp [execCaptureDone]

@[simp] theorem injStart_ctl (c : Nat) (s : State) : ctl (injStart c s) = ctl s := Eq.refl _

@[simp] theorem capStart_ctl (c : Nat) (s : State) : ctl (capStart c s) = ctl s := by simp [capStart]

end Sys2Proof.Machine
end

