-- ==== Sys2Proof/Laws/CtlSlv.lean ====
section
/-! SUPPORT. What the operations of Machine/Slv.lean leave alone: the queue, the state, the placed timetable, the pending boot, the
supply, RST_N and the tick count (`ctl`, Laws/Ctl.lean). -/

set_option linter.unusedSimpArgs false
set_option linter.unusedTactic false
set_option linter.unreachableTactic false

namespace Sys2Proof.Machine

@[simp] theorem fsPut_ctl (i : Nat) (ws : List Word) (s : State) : ctl (fsPut i ws s) = ctl s := Eq.refl _

@[simp] theorem fabSet_ctl (c : Nat) (x : FabClient) (s : State) : ctl (fabSet c x s) = ctl s :=
  by simp [fabSet, ctl_views, ctl_mk]

@[simp] theorem slvResult_ctl (c res : Nat) (s : State) : ctl (slvResult c res s) = ctl s := by simp [slvResult]

@[simp] theorem slvFailIx_ctl (c loc ix : Nat) (s : State) : ctl (slvFailIx c loc ix s) = ctl s := by simp [slvFailIx]

@[simp] theorem fabStart_ctl (c : Nat) (s : State) : ctl (fabStart c s) = ctl s := by
  unfold fabStart
  dsimp only
  repeat' split
  all_goals simp [ctl_views, ctl_mk]

@[simp] theorem fabGrant_ctl (s : State) : ctl (fabGrant s) = ctl s := by simp [fabGrant]

@[simp] theorem fabRequest_ctl (c : Nat) (u : FabUnit) (s : State) : ctl (fabRequest c u s) = ctl s :=
  by simp [fabRequest, ctl_views, ctl_mk]

@[simp] theorem fabHydTake_ctl (s : State) : ctl (fabHydTake s) = ctl s := Eq.refl _

@[simp] theorem fabHydRelease_ctl (s : State) : ctl (fabHydRelease s) = ctl s :=
  by simp [fabHydRelease, ctl_views, ctl_mk]

@[simp] theorem fabEnd_ctl (c : Nat) (s : State) : ctl (fabEnd c s) = ctl s := by simp [fabEnd, ctl_views, ctl_mk]

@[simp] theorem fabAbandon_ctl (c : Nat) (s : State) : ctl (fabAbandon c s) = ctl s :=
  by simp [fabAbandon, ctl_views, ctl_mk]

@[simp] theorem execOptPause_keeps (s : State) : Keeps s (execOptPause s) := by simp [execOptPause, ctl_views, ctl_mk]

@[simp] theorem listStore_ctl (t : Timetable) (c inst : Nat) (r : Route) (l : List (Nat × Word)) (s : State) :
    ctl (listStore t c inst r l s) = ctl s := by simp [listStore]

@[simp] theorem entryLost_ctl (i : Nat) (s : State) : ctl (entryLost i s) = ctl s := by simp [entryLost]

@[simp] theorem slvMemError_ctl (pattern : Bool) (off : Nat) (s : State) : ctl (slvMemError pattern off s) = ctl s :=
  by simp [slvMemError]

@[simp] theorem fabRead_ctl (i n : Nat) (s : State) : ctl (fabRead i n s) = ctl s :=
  memRead_ctl _ (fun _ _ => slvMemError_ctl _ _ _) _ _ _

@[simp] theorem patRead_ctl (c k : Nat) (s : State) : ctl (patRead c k s) = ctl s := by
  unfold patRead
  dsimp only
  repeat' split
  all_goals first
    | rfl
    | exact memRead_ctl _ (fun _ _ => slvMemError_ctl _ _ _) _ _ _

@[simp] theorem factorReads_ctl (c : Nat) (s : State) : ctl (factorReads c s) = ctl s := by
  unfold factorReads
  dsimp only
  split <;> simp

@[simp] theorem solveReads_ctl (c : Nat) (s : State) : ctl (solveReads c s) = ctl s := by simp [solveReads]

@[simp] theorem slvFactor_ctl (c : Nat) (s : State) : ctl (slvFactor c s).2 = ctl s := by
  unfold slvFactor
  extract_lets sr x t r b wb routeReg src s0 clear done s1 j sf s2 vb k sc run0 run s3 s4 s5 s6 repl src' s7 s8
  have h0 : ctl s0 = ctl s := (incFld_ctl ..).trans (factorReads_ctl c s)
  have hd (res : Nat) (u : State) : ctl (done res u).2 = ctl u := slvResult_ctl ..
  have hc (u : State) : ctl (clear u) = ctl u := by simp [clear]
  have h1 : ctl s1 = ctl s := by
    simp only [s1]
    split <;> simp [h0]
  have hf : ctl sf = ctl s := by simp [sf, hc, h1]
  have h2 : ctl s2 = ctl s := by simp [s2, hc, h1]
  have h5 : ctl s5 = ctl s := by simp [s5, s4, s3, h2]
  have h6 : ctl s6 = ctl s := by
    simp only [s6]
    split <;> simp [h5]
  have h8 : ctl s8 = ctl s := by
    simp only [s8, s7]
    split <;> simp [h6]
  clear_value s0 s8 sf done clear
  repeat' split
  all_goals simp [hd, hc, h0, hf, h8]

@[simp] theorem slvSolve_ctl (c : Nat) (s : State) : ctl (slvSolve c s).2 = ctl s := by
  unfold slvSolve
  dsimp only
  repeat' split
  all_goals simp [ctl_views, ctl_mk]

@[simp] theorem fabRhs_ctl (c : Nat) (v : List Word) (s : State) : ctl (fabRhs c v s) = ctl s := Eq.refl _

@[simp] theorem areaMove_ctl (s0 : State) (i j n : Nat) (s : State) : ctl (areaMove s0 i j n s) = ctl s := by
  simp [areaMove]

@[simp] theorem routePlace_ctl (old : Option Timetable) (t : Timetable) (s0 : State) (c k rg : Nat) (s : State) :
    ctl (routePlace old t s0 c k rg s) = ctl s := by
  unfold routePlace
  dsimp only
  split
  · refine (setReg_ctl ..).trans ?_
    repeat' split
    all_goals simp
  · simp

@[simp] theorem slvPlace_ctl (old : Option Timetable) (t : Timetable) (s : State) : ctl (slvPlace old t s) = ctl s := by
  cases old <;> simp [slvPlace]

@[simp] theorem selftestStart_ctl (s : State) : ctl (selftestStart s) = ctl s := Eq.refl _

@[simp] theorem selftestArea_ctl (s : State) : ctl (selftestArea s) = ctl s := Eq.refl _

@[simp] theorem execSlvSelftestDone_keeps (pass : Bool) (s : State) : Keeps s (execSlvSelftestDone pass s) :=
  by simp [execSlvSelftestDone, ctl_views, ctl_mk]

end Sys2Proof.Machine
end

