-- ==== Sys2Proof/Laws/CtlHyd.lean ====
section
/-! SUPPORT. What the operations of Machine/Hyd.lean leave alone: the queue, the state, the placed timetable, the pending boot, the
supply, RST_N and the tick count (`ctl`, Laws/Ctl.lean). -/

set_option linter.unusedSimpArgs false
set_option linter.unusedTactic false
set_option linter.unreachableTactic false

namespace Sys2Proof.Machine

@[simp] theorem usedPut_ctl (key : Nat) (w : Word) (s : State) : ctl (usedPut key w s) = ctl s := Eq.refl _

@[simp] theorem nowPut_ctl (key : Nat) (w : DWord) (s : State) : ctl (nowPut key w s) = ctl s := Eq.refl _

@[simp] theorem hydResolve_ctl (key ref : Nat) (dflt : Word) (dq : Quality) (s : State) :
    ctl (hydResolve key ref dflt dq s) = ctl s := by
  unfold hydResolve
  repeat' split
  all_goals simp [ctl_views, ctl_mk]

@[simp] theorem hydResolveAll_ctl (s : State) : ctl (hydResolveAll s) = ctl s :=
  by simp [hydResolveAll, ctl_views, ctl_mk]

@[simp] theorem hydIterate_ctl (s : State) : ctl (hydIterate s) = ctl s := by simp [hydIterate, ctl_views, ctl_mk]

@[simp] theorem hydWrite_ctl (converged : Bool) (s : State) : ctl (hydWrite converged s) = ctl s := by simp [hydWrite]

@[simp] theorem nsStale_ctl (is : List Nat) (s : State) : ctl (nsStale is s) = ctl s := by simp [nsStale]

@[simp] theorem suspectOne_ctl (old : List (Nat × Nat)) (key src kind : Nat) (r limit : Rat) (s : State) :
    ctl (suspectOne old key src kind r limit s) = ctl s := by
  unfold suspectOne
  dsimp only
  repeat' split
  all_goals simp [ctl_views, ctl_mk]

@[simp] theorem hydMonitor_ctl (s : State) : ctl (hydMonitor s) = ctl s := by
  simp [hydMonitor, ctl_views, ctl_mk]

@[simp] theorem freeDuration_ctl (last mx : Nat) (s : State) : ctl (freeDuration last mx s) = ctl s :=
  by simp [freeDuration]

@[simp] theorem hydEnd_ctl (s : State) : ctl (hydEnd s) = ctl s := by simp [hydEnd, ctl_views, ctl_mk]

@[simp] theorem hydFinish_ctl (converged : Bool) (s : State) : ctl (hydFinish converged s) = ctl s :=
  by simp [hydFinish, ctl_views, ctl_mk]

@[simp] theorem hydFail_ctl (s : State) : ctl (hydFail s) = ctl s := by simp [hydFail, ctl_views, ctl_mk]

@[simp] theorem hydStart_ctl (s : State) : ctl (hydStart s) = ctl s := by simp [hydStart, ctl_views, ctl_mk]

@[simp] theorem hydFactored_ctl (res : Nat) (s : State) : ctl (hydFactored res s) = ctl s := by simp [hydFactored]

@[simp] theorem hydSolved_ctl (res : Nat) (s : State) : ctl (hydSolved res s) = ctl s :=
  by simp [hydSolved, ctl_views, ctl_mk]

@[simp] theorem hydEnterRun_ctl (s : State) : ctl (hydEnterRun s) = ctl s := Eq.refl _

@[simp] theorem hydCommit_ctl (old new : Timetable) (s : State) : ctl (hydCommit old new s) = ctl s :=
  by simp [hydCommit, ctl_views, ctl_mk]

@[simp] theorem hydStop_ctl (s : State) : ctl (hydStop s) = ctl s := by simp [hydStop, ctl_views, ctl_mk]

end Sys2Proof.Machine
end

