-- ==== Sys2Proof/Laws/CtlFtr.lean ====
section
/-! SUPPORT. What the operations of Machine/Ftr.lean leave alone: the queue, the state, the placed timetable, the pending boot, the
supply, RST_N and the tick count (`ctl`, Laws/Ctl.lean). -/

set_option linter.unusedSimpArgs false
set_option linter.unusedTactic false
set_option linter.unreachableTactic false

namespace Sys2Proof.Machine

@[simp] theorem pipeSet_ctl (e : Nat) (ws : List Wagon) (s : State) : ctl (pipeSet e ws s) = ctl s := Eq.refl _

@[simp] theorem wagonNew_ctl (s : State) : ctl (wagonNew s).2 = ctl s := by
  unfold wagonNew
  dsimp only
  repeat' split
  all_goals simp [ctl_views, ctl_mk]

@[simp] theorem ftrSeed_ctl (which : Element → Bool) (s : State) : ctl (ftrSeed which s) = ctl s := by
  unfold ftrSeed
  refine forL_ctl _ _ _ fun e t => ?_
  have hc := wagonNew_ctl (pipeSet e.element [] t)
  dsimp only
  split <;> rename_i h <;> rw [h] at hc <;> simpa using hc

@[simp] theorem wagonPush_ctl (p : Part) (ws : List Wagon) (s : State) : ctl (wagonPush p ws s).2 = ctl s := by
  have hc := wagonNew_ctl s
  unfold wagonPush
  extract_lets now f
  have hf (rest : List Wagon) : ctl (f s rest).2 = ctl s := by
    simp only [f]
    split <;> rename_i h <;> rw [h] at hc
    · exact hc
    · split <;> simpa using hc
  split
  · exact hf _
  · split
    · rfl
    · exact hf _

@[simp] theorem mixSet_ctl (n : Nat) (x : NodeMix) (s : State) : ctl (mixSet n x s) = ctl s := Eq.refl _

@[simp] theorem nodeTref_ctl (want : Bool) (n : Node) (s : State) : ctl (nodeTref want n s).2 = ctl s := by
  unfold nodeTref
  repeat' split
  all_goals simp [ctl_views, ctl_mk]

@[simp] theorem injected_ctl (vol mixed : Rat) (now : Nat) (tref : Option (Option Word × Quality)) (s : State) :
    ctl (injected vol mixed now tref s).2 = ctl s := by
  unfold injected
  split <;> simp [ctl_views, ctl_mk]

@[simp] theorem coolAll_ctl (dt : Rat) (s : State) : ctl (coolAll dt s) = ctl s := by simp [coolAll]

@[simp] theorem predictNode_ctl (n : Node) (s : State) : ctl (predictNode n s) = ctl s := by simp [predictNode]

@[simp] theorem adjustTol_ctl (s : State) : ctl (adjustTol s) = ctl s := by simp [adjustTol]

@[simp] theorem nodeWords_ctl (n : Node) (s : State) : ctl (nodeWords n s) = ctl s := by simp [nodeWords]

@[simp] theorem ftrReseed_ctl (s : State) : ctl (ftrReseed s) = ctl s := by simp [ftrReseed, ctl_views, ctl_mk]

theorem give_ctl (m : Move) (n : Nat) (ps : List Part) : ctl (m.give n ps).s = ctl m.s := rfl

theorem nodeBoundary_ctl (n : Node) (d : Rat) (s : State) : ctl (nodeBoundary n d s).2 = ctl s := by
  unfold nodeBoundary
  split <;> simp

theorem nodeInjected_ctl (d dt mixed : Rat) (now : Nat) (tref : Option (Option Word × Quality)) (s : State) :
    ctl (nodeInjected d dt mixed now tref s).2 = ctl s := by
  unfold nodeInjected
  split <;> simp

theorem nodeMixAt_ctl (old : State) (dt : Rat) (n : Node) (m : Move) : ctl (nodeMixAt old dt n m).s = ctl m.s := by
  exact (mixSet_ctl ..).trans ((nodeInjected_ctl ..).trans (nodeBoundary_ctl ..))

theorem elemOut_ctl (dt : Rat) (n : Node) (e : Element) (m : Move) : ctl (elemOut dt n e m).s = ctl m.s := by
  unfold elemOut
  dsimp only
  split
  · rfl
  · split
    · refine (give_ctl ..).trans ?_
      simp
    · rfl

@[simp] theorem parcelError_ctl (a : Nat) (s : State) : ctl (parcelError a s) = ctl s := by
  unfold parcelError
  dsimp only
  repeat' split
  all_goals simp [ctl_views, ctl_mk]

@[simp] theorem wagonsRead_ctl (s : State) : ctl (wagonsRead s) = ctl s :=
  forL_ctl _ _ _ (fun _ _ => memRead_ctl _ (fun _ _ => parcelError_ctl _ _) _ _ _)

@[simp] theorem ftrMove_ctl (s : State) : ctl (ftrMove s) = ctl s := by
  unfold ftrMove
  extract_lets dt s1 m s2 s3 s4 n raised s5 s6
  have h1 : ctl s1 = ctl s := by simp [s1]
  have hm : ctl m.s = ctl s1 := forL_keeps (fun m : Move => ctl m.s) _ _ _ fun n m =>
    (forL_keeps (fun m : Move => ctl m.s) _ _ _ fun e m => elemOut_ctl ..).trans (nodeMixAt_ctl ..)
  have h6 : ctl s6 = ctl m.s := by simp [s6, s5, s4, s3, s2]
  exact (show ctl _ = ctl s6 from rfl).trans (h6.trans (hm.trans h1))

@[simp] theorem nsStatus_ctl (fresh_ : Bool) (s : State) : ctl (nsStatus fresh_ s) = ctl s := by simp [nsStatus]

@[simp] theorem nsPublish_ctl (fresh_ : Bool) (s : State) : ctl (nsPublish fresh_ s) = ctl s :=
  by simp [nsPublish, ctl_views, ctl_mk]

@[simp] theorem nsLate_ctl (s : State) : ctl (nsLate s) = ctl s := by
  simp [nsLate]
  exact fun _ => (show ctl _ = ctl (fabAbandon 1 s) from rfl).trans (fabAbandon_ctl 1 s)

@[simp] theorem ftrPlace_ctl (t : Timetable) (s : State) : ctl (ftrPlace t s) = ctl s := Eq.refl _

@[simp] theorem ftrEnterRun_ctl (s : State) : ctl (ftrEnterRun s) = ctl s := by simp [ftrEnterRun, ctl_views, ctl_mk]

@[simp] theorem ftrCommit_ctl (old : Timetable) (s : State) : ctl (ftrCommit old s) = ctl s := by
  unfold ftrCommit
  extract_lets t same keep src s0 changed s1 s2
  have h1 : ctl s1 = ctl s := (forL_ctl _ _ _ fun e u => by dsimp only; split <;> simp).trans rfl
  have h2 : ctl s2 = ctl s := by simp only [s2]; split <;> simp [h1]
  split <;> simp [h2]

end Sys2Proof.Machine
end

