-- ==== Sys2Proof/Laws/CtlOpt.lean ====
section
/-! SUPPORT. What the operations of Machine/Opt.lean leave alone: the queue, the state, the placed timetable, the pending boot, the
supply, RST_N and the tick count (`ctl`, Laws/Ctl.lean). -/

set_option linter.unusedSimpArgs false
set_option linter.unusedTactic false
set_option linter.unreachableTactic false

namespace Sys2Proof.Machine

@[simp] theorem lightHeadway_ctl (s : State) : ctl (lightHeadway s) = ctl s := by simp [lightHeadway, ctl_views, ctl_mk]

@[simp] theorem substCount_ctl (s : State) : ctl (substCount s) = ctl s :=
  (cause_ctl ..).trans rfl

@[simp] theorem switchSet_ctl (k v : Nat) (s : State) : ctl (switchSet k v s) = ctl s := Eq.refl _

@[simp] theorem lagEnter_ctl (s : State) : ctl (lagEnter s) = ctl s := by
  refine forL_ctl _ _ _ fun r u => ?_
  repeat' split
  all_goals simp

@[simp] theorem readSwitches_ctl (s : State) : ctl (readSwitches s) = ctl s := by
  refine forL_ctl _ _ _ fun r u => ?_
  dsimp only
  repeat' split
  all_goals simp

@[simp] theorem sourceEntry_ctl (ix : Nat) (r : SourceRec) (j : Nat) (s : State) :
    ctl (sourceEntry ix r j s).2.2 = ctl s := by
  unfold sourceEntry
  dsimp only
  repeat' split
  all_goals first | rfl | exact substCount_ctl _

@[simp] theorem evalSources_ctl (d : RouteDesc) (s : State) : ctl (evalSources d s).2.2 = ctl s :=
  forL_keeps (fun a : List (Nat × Word) × Quality × State => ctl a.2.2) _ _ _ fun e a =>
    forL_keeps (fun a : List (Nat × Word) × Quality × State => ctl a.2.2) _ _ _ fun j a => by simp

@[simp] theorem reloadCount_ctl (s : State) : ctl (reloadCount s) = ctl s := Eq.refl _

@[simp] theorem fullReload_ctl (k : Nat) (vals : List (Nat × Word)) (s : State) : ctl (fullReload k vals s) = ctl s :=
  by simp [fullReload]

@[simp] theorem tjWrite_ctl (s : State) : ctl (tjWrite s) = ctl s := by
  unfold tjWrite
  extract_lets t o frac head s1 s2
  have h1 : ctl s1 = ctl s := forL_ctl _ _ _ fun r u => by
    split
    · rfl
    · simp
  simp [s2, h1]

@[simp] theorem planFallback_ctl (s : State) : ctl (planFallback s) = ctl s := by simp [planFallback, ctl_views, ctl_mk]

@[simp] theorem planTake_ctl (s : State) : ctl (planTake s) = ctl s := by
  unfold planTake
  dsimp only
  split
  · exact (setReg_ctl ..).trans rfl
  · rfl

@[simp] theorem planStepOn_ctl (s : State) : ctl (planStepOn s) = ctl s := by
  unfold planStepOn
  dsimp only
  repeat' split
  all_goals rfl

@[simp] theorem planMark_ctl (s : State) : ctl (planMark s) = ctl s := by
  unfold planMark
  split <;> rfl

@[simp] theorem optHeadway_ctl (s : State) : ctl (optHeadway s) = ctl s := by
  unfold optHeadway
  extract_lets s1 s2 s3
  have h2 : ctl s2 = ctl s := by simp only [s2]; split <;> simp [s1]
  have h3 : ctl s3 = ctl s := by simp [s3, h2]
  split <;> simp [h3]

@[simp] theorem optSeen_ctl (s : State) : ctl (optSeen s) = ctl s := by
  unfold optSeen
  split <;> rfl

@[simp] theorem optEnterRun_ctl (s : State) : ctl (optEnterRun s) = ctl s :=
  (optSeen_ctl _).trans ((show ctl _ = ctl (lagEnter s) from rfl).trans (lagEnter_ctl s))

@[simp] theorem optEnd_ctl (outcome : Nat) (s : State) : ctl (optEnd outcome s) = ctl s :=
  by simp [optEnd, ctl_views, ctl_mk]

@[simp] theorem optNoSolution_ctl (s : State) : ctl (optNoSolution s) = ctl s :=
  by simp [optNoSolution, ctl_views, ctl_mk]

@[simp] theorem optSolution_ctl (acceptable : Bool) (s : State) : ctl (optSolution acceptable s) = ctl s :=
  by simp [optSolution, ctl_views, ctl_mk]

@[simp] theorem optAbandon_ctl (s : State) : ctl (optAbandon s) = ctl s := by simp [optAbandon, ctl_views, ctl_mk]

@[simp] theorem optFactor_ctl (s : State) : ctl (optFactor s) = ctl s := by simp [optFactor, ctl_views, ctl_mk]

@[simp] theorem optJudge_ctl (s : State) : ctl (optJudge s) = ctl s := by simp [optJudge, ctl_views, ctl_mk]

@[simp] theorem optRetry_ctl (s : State) : ctl (optRetry s) = ctl s := by simp [optRetry, ctl_views, ctl_mk]

@[simp] theorem optFactored_ctl (res : Nat) (s : State) : ctl (optFactored res s) = ctl s :=
  by simp [optFactored, ctl_views, ctl_mk]

@[simp] theorem optSolved_ctl (res : Nat) (s : State) : ctl (optSolved res s) = ctl s :=
  by simp [optSolved, ctl_views, ctl_mk]

@[simp] theorem optLoad_ctl (d : RouteDesc) (q : Quality) (vals l : List (Nat × Word)) (s : State) :
    ctl (optLoad d q vals l s) = ctl s := by simp [optLoad, ctl_views, ctl_mk]

@[simp] theorem optColdEvent_ctl (d : RouteDesc) (reason : Option Nat) (cov : Rat) (s : State) :
    ctl (optColdEvent d reason cov s) = ctl s := by cases reason <;> simp [optColdEvent]

@[simp] theorem optRoute_ctl (d : RouteDesc) (last : Option Nat) (s : State) : ctl (optRoute d last s) = ctl s := by
  cases last <;> simp [optRoute, ctl_views, ctl_mk]

@[simp] theorem optBegin_ctl (d : RouteDesc) (s t : State) : ctl (optBegin d s t) = ctl t := by
  simp [optBegin, ctl_views, ctl_mk]

@[simp] theorem optStart_ctl (s : State) : ctl (optStart s) = ctl s := by
  unfold optStart
  dsimp only
  split <;> simp [ctl_views, ctl_mk]

@[simp] theorem optPeriod_ctl (joined : Bool) (s : State) : ctl (optPeriod joined s) = ctl s :=
  by simp [optPeriod, ctl_views, ctl_mk]

@[simp] theorem optIfDue_ctl (s : State) : ctl (optIfDue s) = ctl s := by simp [optIfDue]

@[simp] theorem optCommit_ctl (old : Timetable) (s : State) : ctl (optCommit old s) = ctl s :=
  by simp [optCommit, ctl_views, ctl_mk]

@[simp] theorem execFabricFactorisationDone_keeps (s : State) : Keeps s (execFabricFactorisationDone s) :=
  by simp [execFabricFactorisationDone]

@[simp] theorem execFabricSolveDone_keeps (s : State) : Keeps s (execFabricSolveDone s) := by simp [execFabricSolveDone]

@[simp] theorem execFtrMoveDone_keeps (s : State) : Keeps s (execFtrMoveDone s) := by simp [execFtrMoveDone]

end Sys2Proof.Machine
end

