-- ==== Sys2Proof/Laws/CtlRegs.lean ====
section
/-! SUPPORT. What the operations of Machine/Regs.lean leave alone: the queue, the state, the placed timetable, the pending boot, the
supply, RST_N and the tick count (`ctl`, Laws/Ctl.lean). -/

set_option linter.unusedSimpArgs false
set_option linter.unusedTactic false
set_option linter.unreachableTactic false

namespace Sys2Proof.Machine

@[simp] theorem after_ctl (r : Result) (s : State) (h : Keeps s r) : ctl (after r s) = ctl s := by
  obtain ⟨t, rfl, ht⟩ := h
  exact ht

@[simp] theorem refuseEffect_ctl (a : Nat) (w : Word) (reason : Nat) (s : State) :
    ctl (refuseEffect a w reason s) = ctl s := by simp [refuseEffect]

@[simp] theorem stage_ctl (a : Nat) (w : Word) (s : State) : ctl (stage a w s) = ctl s := Eq.refl _

@[simp] theorem loopEffect_ctl (k off : Nat) (w : Word) (s : State) : ctl (loopEffect k off w s) = ctl s :=
  by simp [loopEffect]

@[simp] theorem capEffect_ctl (c off : Nat) (w : Word) (s : State) : ctl (capEffect c off w s) = ctl s :=
  by simp [capEffect]

@[simp] theorem injEffect_ctl (c off : Nat) (w : Word) (s : State) : ctl (injEffect c off w s) = ctl s :=
  by simp [injEffect]

@[simp] theorem lpeEffect_ctl (a : Nat) (w : Word) (s : State) : ctl (lpeEffect a w s) = ctl s := by
  unfold lpeEffect
  repeat' split
  all_goals simp [ctl_views, ctl_mk]

@[simp] theorem ceEffect_ctl (a : Nat) (w : Word) (s : State) : ctl (ceEffect a w s) = ctl s := by simp [ceEffect]

@[simp] theorem mtrEffect_ctl (a : Nat) (w : Word) (s : State) : ctl (mtrEffect a w s) = ctl s :=
  by simp [mtrEffect, ctl_views, ctl_mk]

@[simp] theorem mgtEffect_ctl (a : Nat) (w : Word) (s : State) : ctl (mgtEffect a w s) = ctl s := by simp [mgtEffect]

@[simp] theorem regEffect_ctl (a : Nat) (w : Word) (s : State) : ctl (regEffect a w s) = ctl s := by
  unfold regEffect
  repeat' split
  all_goals simp [ctl_views, ctl_mk]

@[simp] theorem applyReg_ctl (a : Nat) (w : Word) (s : State) : ctl (applyReg a w s) = ctl s :=
  by unfold applyReg; split <;> simp [ctl_views, ctl_mk]

@[simp] theorem applyEntry_ctl (a : Nat) (w : Word) (s : State) : ctl (applyEntry a w s) = ctl s := by
  unfold applyEntry
  split
  · split <;> simp
  · simp

end Sys2Proof.Machine
end

