-- ==== Sys2Proof/Laws/CtlThru.lean ====
section
/-! SUPPORT. What the operations of Machine/Thru.lean leave alone: the queue, the state, the placed timetable, the pending boot, the
supply, RST_N and the tick count (`ctl`, Laws/Ctl.lean). -/

set_option linter.unusedSimpArgs false
set_option linter.unusedTactic false
set_option linter.unreachableTactic false

namespace Sys2Proof.Machine

@[simp] theorem bootBlockWrite_ctl (seq : Nat) (payload : List Byte) (s : State) :
    ctl (bootBlockWrite seq payload s) = ctl s := Eq.refl _

@[simp] theorem thruSetup_ctl (payload : List Byte) (s : State) : ctl (thruSetup payload s) = ctl s := Eq.refl _

@[simp] theorem thruDurable_ctl (s : State) : ctl (thruDurable s) = ctl s :=
  by unfold thruDurable; split <;> simp [ctl_views, ctl_mk]

@[simp] theorem thruBoot_ctl (powerUp : Bool) (s : State) : ctl (thruBoot powerUp s) = ctl s :=
  by unfold thruBoot; split <;> simp [ctl_views, ctl_mk]

@[simp] theorem thruRecover_ctl (s : State) : ctl (thruRecover s) = ctl s :=
  by unfold thruRecover; split <;> simp [ctl_views, ctl_mk]

@[simp] theorem thruPlace_ctl (t : Timetable) (s : State) : ctl (thruPlace t s) = ctl s := by simp [thruPlace]

@[simp] theorem thruCommit_ctl (t : Timetable) (s : State) : ctl (thruCommit t s) = ctl s := by simp [thruCommit]

@[simp] theorem execThroughForwardStart_keeps (s : State) : Keeps s (execThroughForwardStart s) :=
  by simp [execThroughForwardStart]

@[simp] theorem setThru_ctl (p : Nat) (x : ThruSt) (s : State) : ctl (setThru p x s) = ctl s := Eq.refl _

@[simp] theorem thruLatch_ctl (p : Nat) (now : Int) (s : State) : ctl (thruLatch p now s) = ctl s := by
  unfold thruLatch
  dsimp only
  repeat' split
  all_goals simp [ctl_views, ctl_mk]

@[simp] theorem thruClock_ctl (p : Nat) (a : Int) (c : Car) (s : State) : ctl (thruClock p a c s) = ctl s := by
  unfold thruClock
  dsimp only
  split <;> simp [ctl_views, ctl_mk]

@[simp] theorem thruTime_ctl (p : Nat) (time residence : Int) (turned : Bool) (c : Car) (s : State) :
    ctl (thruTime p time residence turned c s).2 = ctl s := by
  unfold thruTime
  dsimp only
  repeat' split
  all_goals simp [ctl_views, ctl_mk]

@[simp] theorem thruApply_ctl (n : Nat) (data : List Byte) (s : State) : ctl (thruApply n data s) = ctl s :=
  by simp [thruApply]

@[simp] theorem thruAccept_ctl (p n : Nat) (now : Int) (data : List Byte) (s : State) :
    ctl (thruAccept p n now data s) = ctl s := by
  unfold thruAccept
  dsimp only
  split <;> simp [ctl_views, ctl_mk]

@[simp] theorem thruTick_ctl (s : State) : ctl (thruTick s) = ctl s := by
  unfold thruTick
  refine forL_keeps ctl _ _ _ (fun p t => ?_)
  dsimp only
  split
  · simp
  · split <;> simp

@[simp] theorem thruOutput_ctl (p : Nat) (r : Station) (time : Int) (k : Nat) (c : Car) (s : State) :
    ctl (thruOutput p r time k c s).2 = ctl s := by
  unfold thruOutput
  dsimp only
  repeat' split
  all_goals simp [ctl_views, ctl_mk]

@[simp] theorem thruInput_ctl (p : Nat) (r : Station) (time : Int) (k : Nat) (c : Car) (s : State) :
    ctl (thruInput p r time k c s).2 = ctl s := by
  unfold thruInput
  dsimp only
  repeat' split
  all_goals simp [ctl_views, ctl_mk]

@[simp] theorem thruJoin_ctl (p : Nat) (r : Station) (c : Car) (s : State) : ctl (thruJoin p r c s).2 = ctl s := by
  unfold thruJoin
  dsimp only
  repeat' split
  all_goals simp [ctl_views, ctl_mk]

@[simp] theorem thruProcess_ctl (p : Nat) (time residence : Int) (turned : Bool) (c : Car) (s : State) :
    ctl (thruProcess p time residence turned c s).2 = ctl s := by
  unfold thruProcess
  repeat' split
  all_goals simp [ctl_views, ctl_mk]

@[simp] theorem thruForward_ctl (q other : Nat) (f : List Byte) (c : Car) (time residence : Int) (onward : Bool) (s : State) :
    ctl (thruForward q other f c time residence onward s) = ctl s := by simp [thruForward]

@[simp] theorem execThroughCarArrive_keeps (q : Nat) (f : List Byte) (time residence : Int) (onward : Bool) (s : State) :
    Keeps s (execThroughCarArrive q f time residence onward s) := by
  unfold execThroughCarArrive
  dsimp only
  repeat' split
  all_goals simp [ctl_views, ctl_mk]

end Sys2Proof.Machine
end

