-- ==== Sys2Proof/Laws/CtlTTCheck.lean ====
section
/-! SUPPORT. What the operations of Machine/TTCheck.lean leave alone: the queue, the state, the placed timetable, the pending boot, the
supply, RST_N and the tick count (`ctl`, Laws/Ctl.lean). -/

set_option linter.unusedSimpArgs false
set_option linter.unusedTactic false
set_option linter.unreachableTactic false

namespace Sys2Proof.Machine

@[simp] theorem setSlotRep_ctl (slot : Nat) (r : SlotReport) (s : State) : ctl (setSlotRep slot r s) = ctl s :=
  by simp [setSlotRep, ctl_views, ctl_mk]

@[simp] theorem slotReport_ctl (slot : Nat) (v : Verdict) (s : State) : ctl (slotReport slot v s) = ctl s :=
  by simp [slotReport, ctl_views, ctl_mk]

@[simp] theorem slotUnchecked_ctl (slot : Nat) (checking : Bool) (s : State) :
    ctl (slotUnchecked slot checking s) = ctl s := by simp [slotUnchecked, ctl_views, ctl_mk]

end Sys2Proof.Machine
end

