-- ==== Sys2Proof/Laws/CtlViews.lean ====
section
/-! SUPPORT. What the operations of Machine/Views.lean leave alone: the queue, the state, the placed timetable, the pending boot, the
supply, RST_N and the tick count (`ctl`, Laws/Ctl.lean). -/

set_option linter.unusedSimpArgs false
set_option linter.unusedTactic false
set_option linter.unreachableTactic false

namespace Sys2Proof.Machine

@[simp] theorem jnlSeqLoRead_ctl (s : State) : ctl (jnlSeqLoRead s).2 = ctl s := Eq.refl _

@[simp] theorem readReg_ctl (a : Nat) (s : State) : ctl (readReg a s).2 = ctl s := by
  unfold readReg
  repeat' split
  all_goals simp [ctl_views, ctl_mk]

@[simp] theorem execTickLoRead_keeps (s : State) : Keeps s (execTickLoRead s) := by simp [execTickLoRead]

@[simp] theorem execETotLoRead_keeps (g : Nat) (s : State) : Keeps s (execETotLoRead g s) := by simp [execETotLoRead]

@[simp] theorem execJnlSeqLoRead_keeps (s : State) : Keeps s (execJnlSeqLoRead s) := by simp [execJnlSeqLoRead]

@[simp] theorem execCalSecRead_keeps (s : State) : Keeps s (execCalSecRead s) := by simp [execCalSecRead]

@[simp] theorem execEvrSeqLoRead_keeps (s : State) : Keeps s (execEvrSeqLoRead s) := by simp [execEvrSeqLoRead]

@[simp] theorem execKeyCtrLoRead_keeps (s : State) : Keeps s (execKeyCtrLoRead s) := by simp [execKeyCtrLoRead]

end Sys2Proof.Machine
end

