-- ==== Sys2Proof/Laws/CtlSnap.lean ====
section
/-! SUPPORT. What the operations of Machine/Snap.lean leave alone: the queue, the state, the placed timetable, the pending boot, the
supply, RST_N and the tick count (`ctl`, Laws/Ctl.lean). -/

set_option linter.unusedSimpArgs false
set_option linter.unusedTactic false
set_option linter.unreachableTactic false

namespace Sys2Proof.Machine

@[simp] theorem snapLow_ctl (s : State) : ctl (snapLow s) = ctl s := by simp [snapLow]

@[simp] theorem snapMid_ctl (s : State) : ctl (snapMid s) = ctl s := by simp [snapMid]

@[simp] theorem snapField_ctl (s : State) : ctl (snapField s) = ctl s := by simp [snapField]

@[simp] theorem snapHigh_ctl (s : State) : ctl (snapHigh s) = ctl s := by simp [snapHigh]

@[simp] theorem snapLatch_ctl (s : State) : ctl (snapLatch s) = ctl s := by simp [snapLatch]

@[simp] theorem snapStrobe_ctl (s : State) : ctl (snapStrobe s) = ctl s := by simp [snapStrobe, ctl_views, ctl_mk]

@[simp] theorem execSnapStrobe_keeps (s : State) : Keeps s (execSnapStrobe s) := by simp [execSnapStrobe]

end Sys2Proof.Machine
end

