-- ==== Sys2Proof/Laws/CtlTxn.lean ====
section
/-! SUPPORT. What the operations of Machine/Txn.lean leave alone: the queue, the state, the placed timetable, the pending boot, the
supply, RST_N and the tick count (`ctl`, Laws/Ctl.lean). -/

set_option linter.unusedSimpArgs false
set_option linter.unusedTactic false
set_option linter.unreachableTactic false

namespace Sys2Proof.Machine

@[simp] theorem setTx_ctl (x : TxState) (s : State) : ctl (setTx x s) = ctl s := Eq.refl _

@[simp] theorem txCmd_ctl (v : Nat) (s : State) : ctl (txCmd v s) = ctl s := Eq.refl _

@[simp] theorem txEnd_ctl (result reason entry : Nat) (s : State) : ctl (txEnd result reason entry s) = ctl s :=
  Eq.refl _

@[simp] theorem txFail_ctl (reason entry : Nat) (s : State) : ctl (txFail reason entry s) = ctl s := by simp [txFail]

@[simp] theorem txDiscard_ctl (reason : Nat) (s : State) : ctl (txDiscard reason s) = ctl s := by simp [txDiscard]

@[simp] theorem txLeave_ctl (s : State) : ctl (txLeave s) = ctl s := by simp [txLeave]

@[simp] theorem txBegin_ctl (s : State) : ctl (txBegin s) = ctl s := by simp [txBegin]

@[simp] theorem rawWrite_ctl (e : Nat × Word) (s : State) : ctl (rawWrite e s) = ctl s :=
  by unfold rawWrite; split <;> simp [ctl_views, ctl_mk]

@[simp] theorem txWrite_ctl (s : State) : ctl (txWrite s) = ctl s := by simp [txWrite]

@[simp] theorem txValidate_ctl (s : State) : ctl (txValidate s) = ctl s := by
  unfold txValidate
  dsimp only
  repeat' split
  all_goals simp [ctl_views, ctl_mk]

@[simp] theorem txCommit_ctl (prompt : Bool) (s : State) : ctl (txCommit prompt s) = ctl s := by
  unfold txCommit
  repeat' split
  all_goals simp [ctl_views, ctl_mk]

@[simp] theorem txChecked_ctl (v : Verdict) (t : Timetable) (s : State) : ctl (txChecked v t s) = ctl s :=
  by simp [txChecked]

@[simp] theorem txRollback_ctl (s : State) : ctl (txRollback s) = ctl s := by simp [txRollback]

@[simp] theorem txIdle_ctl (s : State) : ctl (txIdle s) = ctl s := by simp [txIdle]

@[simp] theorem txDurable_ctl (ok : Bool) (s : State) : ctl (txDurable ok s) = ctl s := by
  unfold txDurable
  repeat' split
  all_goals simp [ctl_views, ctl_mk]

@[simp] theorem imgReset_ctl (r i : Nat) (s : State) : ctl (imgReset r i s) = ctl s :=
  by unfold imgReset; split <;> simp [ctl_views, ctl_mk]

@[simp] theorem tjErase_ctl (c : Nat) (s : State) : ctl (tjErase c s) = ctl s := by simp [tjErase]

@[simp] theorem tjUnused_ctl (steps c : Nat) (s : State) : ctl (tjUnused steps c s) = ctl s :=
  by simp [tjUnused, ctl_views, ctl_mk]

@[simp] theorem tjSteps_ctl (a b c : Nat) (s : State) : ctl (tjSteps a b c s) = ctl s := by simp [tjSteps]

@[simp] theorem imgPlace_ctl (t : Timetable) (s : State) : ctl (imgPlace t s) = ctl s :=
  by simp [imgPlace, ctl_views, ctl_mk]

@[simp] theorem imgCommit_ctl (old new : Timetable) (s : State) : ctl (imgCommit old new s) = ctl s :=
  by simp [imgCommit]

@[simp] theorem ttMeasure_ctl (t : Timetable) (s : State) : ctl (ttMeasure t s) = ctl s := Eq.refl _

@[simp] theorem txKeyed_keeps (key : Nat) (f : State → State) (s : State) (h : ∀ t, ctl (f t) = ctl t) :
    Keeps s (txKeyed key f s) := by
  unfold txKeyed
  dsimp only
  split <;> simp [h, ctl_mk, ctl_views]

@[simp] theorem execBegin_keeps (key : Nat) (s : State) : Keeps s (execBegin key s) := by simp [execBegin]

@[simp] theorem execCommit_keeps (key : Nat) (s : State) : Keeps s (execCommit key s) := by simp [execCommit]

@[simp] theorem execCommitPrompt_keeps (key : Nat) (s : State) : Keeps s (execCommitPrompt key s) :=
  by simp [execCommitPrompt]

@[simp] theorem execRollback_keeps (key : Nat) (s : State) : Keeps s (execRollback key s) := by simp [execRollback]

@[simp] theorem execTxIdleAbort_keeps (s : State) : Keeps s (execTxIdleAbort s) := by simp [execTxIdleAbort]

end Sys2Proof.Machine
end

