-- ==== Sys2Proof/Laws/CtlMbCmd.lean ====
section
/-! SUPPORT. What the operations of Machine/MbCmd.lean leave alone: the queue, the state, the placed timetable, the pending boot, the
supply, RST_N and the tick count (`ctl`, Laws/Ctl.lean). -/

set_option linter.unusedSimpArgs false
set_option linter.unusedTactic false
set_option linter.unreachableTactic false

namespace Sys2Proof.Machine

@[simp] theorem fwVersions_ctl (s : State) : ctl (fwVersions s) = ctl s := Eq.refl _

@[simp] theorem fwPtrDurable_ctl (tag : Word) (ok : Bool) (s : State) : ctl (fwPtrDurable tag ok s) = ctl s := by
  unfold fwPtrDurable
  repeat' split
  all_goals simp [ctl_views, ctl_mk]

@[simp] theorem fwPtrWrite_ctl (p : Nat × Nat × Nat × Nat × Nat) (s : State) : ctl (fwPtrWrite p s) = ctl s :=
  by simp [fwPtrWrite]

@[simp] theorem unlessPage_ctl (f : State → State) (s : State) (h : ctl (f s) = ctl s) : ctl (unlessPage f s) = ctl s := by
  unfold unlessPage
  split <;> simp [h]

/-- Whether what a command writes is durable makes no difference to what the command leaves alone. -/
@[simp] theorem durably_ctl (f : State → State) (s : State) (h : ∀ t, ctl (f t) = ctl t) :
    ctl (durably f s) = ctl s := by
  unfold durably
  split
  · exact h s
  · split
    · simp
    · exact (h _).trans (fresh_ctl s)

@[simp] theorem unlessPage_durably_ctl (f : State → State) (s : State) (h : ∀ t, ctl (f t) = ctl t) :
    ctl (unlessPage (durably f) s) = ctl s := unlessPage_ctl _ _ (durably_ctl f s h)

@[simp] theorem txTouch_ctl (s : State) : ctl (txTouch s) = ctl s := Eq.refl _

@[simp] theorem execInfo_keeps (s : State) : Keeps s (execInfo s) := by simp [execInfo, infoDo]

@[simp] theorem ttPut_ctl (k off : Nat) (bs : List Byte) (s : State) : ctl (ttPut k off bs s) = ctl s := by simp [ttPut]

@[simp] theorem ttOpen_ctl (r : List Byte) (s : State) : ctl (ttOpen r s) = ctl s := by simp [ttOpen, ctl_views, ctl_mk]

@[simp] theorem execTtOpen_keeps (s : State) : Keeps s (execTtOpen s) := by simp [execTtOpen]

@[simp] theorem execTtWrite_keeps (s : State) : Keeps s (execTtWrite s) := by
  simp [execTtWrite, ttWriteDo]

@[simp] theorem ttClose_ctl (r : List Byte) (s : State) : ctl (ttClose r s) = ctl s :=
  by simp [ttClose, ctl_views, ctl_mk]

@[simp] theorem execTtClose_keeps (s : State) : Keeps s (execTtClose s) := by simp [execTtClose]

@[simp] theorem execTtAbort_keeps (s : State) : Keeps s (execTtAbort s) := by simp [execTtAbort, ttAbortDo, ctl_views, ctl_mk]

@[simp] theorem slotReader_ctl (base : Nat → Nat) (size slots : Nat) (r : List Byte) (s : State) :
    ctl (slotReader base size slots r s) = ctl s := by simp [slotReader]

@[simp] theorem execTtRead_keeps (s : State) : Keeps s (execTtRead s) := by simp [execTtRead]

@[simp] theorem fwOpen_ctl (r : List Byte) (s : State) : ctl (fwOpen r s) = ctl s := by simp [fwOpen, ctl_views, ctl_mk]

@[simp] theorem execFwOpen_keeps (s : State) : Keeps s (execFwOpen s) := by simp [execFwOpen]

@[simp] theorem execFwWrite_keeps (s : State) : Keeps s (execFwWrite s) := by
  simp [execFwWrite, fwWriteDo]

@[simp] theorem fwClose_ctl (s : State) : ctl (fwClose s) = ctl s := by simp [fwClose, ctl_views, ctl_mk]

@[simp] theorem execFwClose_keeps (s : State) : Keeps s (execFwClose s) := by simp [execFwClose]

@[simp] theorem fwActivate_ctl (r : List Byte) (s : State) : ctl (fwActivate r s) = ctl s := by simp [fwActivate]

@[simp] theorem execFwActivate_keeps (s : State) : Keeps s (execFwActivate s) := by simp [execFwActivate]

@[simp] theorem fwConfirm_ctl (s : State) : ctl (fwConfirm s) = ctl s := by simp [fwConfirm]

@[simp] theorem execFwConfirm_keeps (s : State) : Keeps s (execFwConfirm s) := by simp [execFwConfirm]

@[simp] theorem execFwRead_keeps (s : State) : Keeps s (execFwRead s) := by simp [execFwRead]

@[simp] theorem recordReply_ctl (rs : List (Option (List Byte))) (s : State) : ctl (recordReply rs s) = ctl s :=
  by simp [recordReply]

@[simp] theorem execEvrRead_keeps (s : State) : Keeps s (execEvrRead s) := by simp [execEvrRead, evrReadDo]

@[simp] theorem execEvrFlush_keeps (s : State) : Keeps s (execEvrFlush s) := by simp [execEvrFlush, evrFlushDo]

@[simp] theorem execLogRead_keeps (s : State) : Keeps s (execLogRead s) := by simp [execLogRead, logReadDo]

@[simp] theorem execArchRead_keeps (s : State) : Keeps s (execArchRead s) := by simp [execArchRead, archReadDo]

@[simp] theorem execJnlRead_keeps (s : State) : Keeps s (execJnlRead s) := by simp [execJnlRead]

end Sys2Proof.Machine
end

