-- ==== Sys2Proof/Laws/CtlPs.lean ====
section
/-! SUPPORT. What the operations of Machine/Ps.lean leave alone: the queue, the state, the placed timetable, the pending boot, the
supply, RST_N and the tick count (`ctl`, Laws/Ctl.lean). -/

set_option linter.unusedSimpArgs false
set_option linter.unusedTactic false
set_option linter.unreachableTactic false

namespace Sys2Proof.Machine

@[simp] theorem setPs_ctl (x : PsState) (s : State) : ctl (setPs x s) = ctl s := Eq.refl _

@[simp] theorem setPart_ctl (p : Nat) (x : Partition) (s : State) : ctl (setPart p x s) = ctl s := Eq.refl _

@[simp] theorem psStore_ctl (p : Nat) (s : State) : ctl (psStore p s) = ctl s := by simp [psStore]

@[simp] theorem psBoot_ctl (s : State) : ctl (psBoot s) = ctl s := Eq.refl _

@[simp] theorem psLockAll_ctl (s : State) : ctl (psLockAll s) = ctl s := Eq.refl _

@[simp] theorem psDone_ctl (status : Nat) (s : State) : ctl (psDone status s) = ctl s := Eq.refl _

@[simp] theorem psUnlock_ctl (p : Nat) (wr : Bool) (s : State) : ctl (psUnlock p wr s) = ctl s := by simp [psUnlock]

@[simp] theorem psLock_ctl (p : Nat) (wr : Bool) (s : State) : ctl (psLock p wr s) = ctl s := Eq.refl _

@[simp] theorem psSet_ctl (p : Nat) (wr : Bool) (s : State) : ctl (psSet p wr s) = ctl s := by simp [psSet]

@[simp] theorem psKeyed_keeps (p key : Nat) (f : State → State) (s : State) (h : ∀ t, ctl (f t) = ctl t) :
    Keeps s (psKeyed p key f s) := by
  unfold psKeyed
  split <;> simp [h]

@[simp] theorem execPsUnlock_keeps (p : Nat) (wr : Bool) (key : Nat) (s : State) :
    Keeps s (execPsUnlock p wr key s) := by simp [execPsUnlock]

@[simp] theorem execPsLock_keeps (p : Nat) (wr : Bool) (key : Nat) (s : State) : Keeps s (execPsLock p wr key s) :=
  by simp [execPsLock]

@[simp] theorem execPsSetPassword_keeps (p : Nat) (wr : Bool) (key : Nat) (s : State) :
    Keeps s (execPsSetPassword p wr key s) := by simp [execPsSetPassword]

@[simp] theorem psTick_ctl (s : State) : ctl (psTick s) = ctl s := by simp [psTick]

@[simp] theorem execPsLockoutExpire_keeps (p : Nat) (wr : Bool) (s : State) : Keeps s (execPsLockoutExpire p wr s) :=
  by simp [execPsLockoutExpire]

@[simp] theorem psRefuse_ctl (s : State) : ctl (psRefuse s) = ctl s := by simp [psRefuse]

@[simp] theorem psBurst_ctl (a : Nat) (data : List Byte) (s : State) : ctl (psBurst a data s) = ctl s := Eq.refl _

@[simp] theorem psPerform_ctl (a : Nat) (data : List Byte) (s : State) : ctl (psPerform a data s) = ctl s := by
  unfold psPerform
  split <;> simp [psRefuse]

@[simp] theorem execPsWriteBurst_keeps (addr : Nat) (data : List Byte) (s : State) :
    Keeps s (execPsWriteBurst addr data s) := by unfold execPsWriteBurst; split <;> simp [ctl_views, ctl_mk]

@[simp] theorem psProgram_ctl (s : State) : ctl (psProgram s) = ctl s := by simp [psProgram]

@[simp] theorem execPsPageProgrammed_keeps (s : State) : Keeps s (execPsPageProgrammed s) :=
  by simp [execPsPageProgrammed]

end Sys2Proof.Machine
end

