-- ==== Sys2Proof/Laws/CtlJnlDone.lean ====
section
/-! SUPPORT. What the operations of Machine/JnlDone.lean leave alone: the queue, the state, the placed timetable, the pending boot, the
supply, RST_N and the tick count (`ctl`, Laws/Ctl.lean). -/

set_option linter.unusedSimpArgs false
set_option linter.unusedTactic false
set_option linter.unreachableTactic false

namespace Sys2Proof.Machine

@[simp] theorem saveStep_ctl (n : Nat) (s : State) : ctl (saveStep n s) = ctl s := Eq.refl _

@[simp] theorem saveFinish_ctl (s : State) : ctl (saveFinish s) = ctl s := by simp [saveFinish, ctl_views, ctl_mk]

@[simp] theorem saveSeal_ctl (s : State) : ctl (saveSeal s) = ctl s := by simp [saveSeal, ctl_views, ctl_mk]

@[simp] theorem saveEvents_ctl (s : State) : ctl (saveEvents s) = ctl s := by simp [saveEvents]

@[simp] theorem saveRetentive_ctl (left : List Nat) (s : State) : ctl (saveRetentive left s) = ctl s := by
  unfold saveRetentive
  repeat' split
  all_goals simp [ctl_views, ctl_mk]

@[simp] theorem saveRetentives_ctl (s : State) : ctl (saveRetentives s) = ctl s := by
  unfold saveRetentives
  split <;> simp [ctl_views, ctl_mk]

@[simp] theorem saveTotals_ctl (s : State) : ctl (saveTotals s) = ctl s := by simp [saveTotals, ctl_views, ctl_mk]

@[simp] theorem saveStart_ctl (s : State) : ctl (saveStart s) = ctl s := by simp [saveStart, ctl_views, ctl_mk]

@[simp] theorem saveNext_ctl (s : State) : ctl (saveNext s) = ctl s :=
  by unfold saveNext; split <;> simp [ctl_views, ctl_mk]

@[simp] theorem saveBegin_ctl (s : State) : ctl (saveBegin s) = ctl s := by simp [saveBegin]

@[simp] theorem loadDurable_ctl (ok : Bool) (s : State) : ctl (loadDurable ok s) = ctl s :=
  by unfold loadDurable; split <;> simp [ctl_views, ctl_mk]

@[simp] theorem jnlDone_ctl (o : JOwner) (ok : Bool) (s : State) : ctl (jnlDone o ok s) = ctl s := by
  unfold jnlDone
  repeat' split
  all_goals simp [ctl_views, ctl_mk]

@[simp] theorem jnlMirror_ctl (s : State) : ctl (jnlMirror s) = ctl s :=
  by unfold jnlMirror; split <;> simp [ctl_views, ctl_mk]

end Sys2Proof.Machine
end

