-- ==== Sys2Proof/Laws/CtlDev.lean ====
section
/-! SUPPORT. What the operations of Machine/Dev.lean leave alone: the queue, the state, the placed timetable, the pending boot, the
supply, RST_N and the tick count (`ctl`, Laws/Ctl.lean). -/

set_option linter.unusedSimpArgs false
set_option linter.unusedTactic false
set_option linter.unreachableTactic false

namespace Sys2Proof.Machine

@[simp] theorem clearCounters_ctl (s : State) : ctl (clearCounters s) = ctl s := by
  unfold clearCounters
  dsimp only
  repeat' split
  all_goals simp [ctl_views, ctl_mk]

@[simp] theorem pairIdle_ctl (s : State) : ctl (pairIdle s) = ctl s := Eq.refl _

@[simp] theorem stopWork_ctl (s : State) : ctl (stopWork s) = ctl s :=
  by unfold stopWork; split <;> simp [ctl_views, ctl_mk]

@[simp] theorem headwayReset_ctl (s : State) : ctl (headwayReset s) = ctl s := Eq.refl _

@[simp] theorem devRefuse_ctl (s : State) : ctl (devRefuse s) = ctl s := Eq.refl _

@[simp] theorem devDrop_ctl (s : State) : ctl (devDrop s) = ctl s := Eq.refl _

@[simp] theorem devCmdDone_ctl (s : State) : ctl (devCmdDone s) = ctl s := Eq.refl _

@[simp] theorem devCommand_ctl (c : DevCmd) (key : Nat) (s : State) : ctl (devCommand c key s) = ctl s := by
  unfold devCommand
  repeat' split
  all_goals simp [ctl_views, ctl_mk]

@[simp] theorem execRun_keeps (key : Nat) (s : State) : Keeps s (execRun key s) := by simp [execRun]

@[simp] theorem execStop_keeps (key : Nat) (s : State) : Keeps s (execStop key s) := by simp [execStop]

@[simp] theorem execHold_keeps (key : Nat) (s : State) : Keeps s (execHold key s) := by simp [execHold]

@[simp] theorem execLoadA_keeps (key : Nat) (s : State) : Keeps s (execLoadA key s) := by simp [execLoadA]

@[simp] theorem execLoadB_keeps (key : Nat) (s : State) : Keeps s (execLoadB key s) := by simp [execLoadB]

@[simp] theorem execClear_keeps (key : Nat) (s : State) : Keeps s (execClear key s) := by simp [execClear]

@[simp] theorem execReset_keeps (key : Nat) (s : State) : Keeps s (execReset key s) := by simp [execReset]

@[simp] theorem loadChecked_ctl (slot : Nat) (v : Verdict) (s : State) : ctl (loadChecked slot v s) = ctl s :=
  by simp [loadChecked]

@[simp] theorem execTimetableCheckDone_keeps (slot : Nat) (s : State) : Keeps s (execTimetableCheckDone slot s) :=
  by simp [execTimetableCheckDone]

@[simp] theorem execBackgroundSlotCheckDone_keeps (slot : Nat) (s : State) :
    Keeps s (execBackgroundSlotCheckDone slot s) := by simp [execBackgroundSlotCheckDone]

end Sys2Proof.Machine
end

