-- ==== Sys2Proof/Laws/CtlRed.lean ====
section
/-! SUPPORT. What the operations of Machine/Red.lean leave alone: the queue, the state, the placed timetable, the pending boot, the
supply, RST_N and the tick count (`ctl`, Laws/Ctl.lean). -/

set_option linter.unusedSimpArgs false
set_option linter.unusedTactic false
set_option linter.unreachableTactic false

namespace Sys2Proof.Machine

@[simp] theorem setRed_ctl (r : RedState) (s : State) : ctl (setRed r s) = ctl s := Eq.refl _

@[simp] theorem redDown_ctl (s : State) : ctl (redDown s) = ctl s := Eq.refl _

@[simp] theorem redTickEnd_ctl (s : State) : ctl (redTickEnd s) = ctl s := by simp [redTickEnd]

@[simp] theorem redMeters_ctl (s : State) : ctl (redMeters s) = ctl s := by simp [redMeters]

@[simp] theorem redWrite_ctl (a : Nat) (w : Word) (s : State) : ctl (redWrite a w s) = ctl s := by simp [redWrite]

@[simp] theorem alignStart_ctl (s : State) : ctl (alignStart s) = ctl s := by simp [alignStart, ctl_views, ctl_mk]

@[simp] theorem lockCheck_ctl (s : State) : ctl (lockCheck s) = ctl s := by simp [lockCheck]

@[simp] theorem alignEnd_ctl (s : State) : ctl (alignEnd s) = ctl s := by simp [alignEnd]

@[simp] theorem coAligned_ctl (s : State) : ctl (coAligned s) = ctl s :=
  forL_ctl _ _ _ fun _ _ => Eq.refl _

@[simp] theorem lineCounted_ctl (s : State) : ctl (lineCounted s) = ctl s := by simp [lineCounted]

@[simp] theorem mirrorOwned_ctl (r : Nat) (ws : List (Nat × DWord)) (s : State) : ctl (mirrorOwned r ws s) = ctl s := by
  simp [mirrorOwned]

@[simp] theorem alignApply_ctl (m : SyncMsg) (s : State) : ctl (alignApply m s) = ctl s :=
  by unfold alignApply; split <;> simp [ctl_views, ctl_mk]

@[simp] theorem alignLine_ctl (m : SyncMsg) (s : State) : ctl (alignLine m s) = ctl s :=
  by unfold alignLine; split <;> simp

@[simp] theorem applyStream_ctl (m : SyncMsg) (s : State) : ctl (applyStream m s) = ctl s :=
  by unfold applyStream; split <;> simp [ctl_views, ctl_mk]

@[simp] theorem wiringFault_ctl (s : State) : ctl (wiringFault s) = ctl s := by unfold wiringFault; split <;> simp

@[simp] theorem standbyTick_ctl (s : State) : ctl (standbyTick s) = ctl s :=
  by unfold standbyTick; split <;> simp [ctl_views, ctl_mk]

@[simp] theorem execStandbyTickWork_keeps (s : State) : Keeps s (execStandbyTickWork s) := by simp [execStandbyTickWork]

@[simp] theorem execLagTimeout_keeps (s : State) : Keeps s (execLagTimeout s) := by simp [execLagTimeout]

@[simp] theorem handoverDone_ctl (s : State) : ctl (handoverDone s) = ctl s := by simp [handoverDone]

@[simp] theorem execActInNChange_keeps (asserted : Bool) (s : State) : Keeps s (execActInNChange asserted s) :=
  by simp [execActInNChange, ctl_views, ctl_mk]

@[simp] theorem execInterlockConflict_keeps (s : State) : Keeps s (execInterlockConflict s) :=
  by simp [execInterlockConflict, ctl_views, ctl_mk]

@[simp] theorem redCompare_ctl (s : State) : ctl (redCompare s) = ctl s :=
  by unfold redCompare; split <;> simp [ctl_views, ctl_mk]

@[simp] theorem mirrorCommit_ctl (p : List Byte) (s : State) : ctl (mirrorCommit p s) = ctl s := by simp [mirrorCommit]

@[simp] theorem mirrorJournal_ctl (off : Nat) (b : List Byte) (s : State) : ctl (mirrorJournal off b s) = ctl s :=
  by simp [mirrorJournal, ctl_views, ctl_mk]

@[simp] theorem mirrorRecord_ctl (off : Nat) (b : List Byte) (s : State) : ctl (mirrorRecord off b s) = ctl s :=
  by simp [mirrorRecord]

@[simp] theorem execSyncResendTimeout_keeps (seq : Nat) (s : State) : Keeps s (execSyncResendTimeout seq s) :=
  by unfold execSyncResendTimeout; split <;> simp

@[simp] theorem syncDown_ctl (s : State) : ctl (syncDown s) = ctl s := by simp [syncDown]

@[simp] theorem execSyncLinkTimeout_keeps (s : State) : Keeps s (execSyncLinkTimeout s) := by simp [execSyncLinkTimeout]

@[simp] theorem execSyncLaneLoss_keeps (lane : Nat) (s : State) : Keeps s (execSyncLaneLoss lane s) :=
  by simp [execSyncLaneLoss]

@[simp] theorem swapTick_ctl (s : State) : ctl (swapTick s) = ctl s :=
  by unfold swapTick; split <;> simp [ctl_views, ctl_mk]

@[simp] theorem swapDefer_ctl (s : State) : ctl (swapDefer s) = ctl s := by simp [swapDefer]

@[simp] theorem handoverOff_ctl (s : State) : ctl (handoverOff s) = ctl s := by simp [handoverOff]

@[simp] theorem execProvingSwap_keeps (s : State) : Keeps s (execProvingSwap s) := by simp [execProvingSwap]

@[simp] theorem redHandover_ctl (s : State) : ctl (redHandover s) = ctl s := by simp [redHandover]

@[simp] theorem execHandover_keeps (s : State) : Keeps s (execHandover s) := by simp [execHandover]

@[simp] theorem redRealign_ctl (s : State) : ctl (redRealign s) = ctl s := by simp [redRealign]

@[simp] theorem execRealign_keeps (s : State) : Keeps s (execRealign s) := by simp [execRealign]

@[simp] theorem redCommand_ctl (w : Word) (s : State) : ctl (redCommand w s) = ctl s := by simp [redCommand]

@[simp] theorem takeOn_ctl (s : State) : ctl (takeOn s) = ctl s := by simp [takeOn, ctl_views, ctl_mk]

@[simp] theorem takePrivate_ctl (s : State) : ctl (takePrivate s) = ctl s := by simp [takePrivate]

@[simp] theorem finishTicks_ctl (s : State) : ctl (finishTicks s) = ctl s := by simp [finishTicks]

@[simp] theorem takeRecords_ctl (s : State) : ctl (takeRecords s) = ctl s :=
  by unfold takeRecords; split <;> simp [ctl_views, ctl_mk]

end Sys2Proof.Machine
end

