-- ==== Sys2Proof/Laws/CtlHeadway.lean ====
section
/-! SUPPORT. What the operations of Machine/Headway.lean leave alone: the queue, the state, the placed timetable, the pending boot, the
supply, RST_N and the tick count (`ctl`, Laws/Ctl.lean). -/

set_option linter.unusedSimpArgs false
set_option linter.unusedTactic false
set_option linter.unreachableTactic false

namespace Sys2Proof.Machine

@[simp] theorem headwayCount_ctl (s : State) : ctl (headwayCount s) = ctl s := Eq.refl _

@[simp] theorem periodStart_ctl (fresh_ : Bool) (s : State) : ctl (periodStart fresh_ s) = ctl s :=
  by simp [periodStart, ctl_views, ctl_mk]

@[simp] theorem periodNext_ctl (s : State) : ctl (periodNext s) = ctl s := Eq.refl _

@[simp] theorem headwayPair_ctl (s : State) : ctl (headwayPair s) = ctl s := by simp [headwayPair]

@[simp] theorem lockLatch_ctl (s : State) : ctl (lockLatch s) = ctl s := Eq.refl _

@[simp] theorem handoverJudge_ctl (s : State) : ctl (handoverJudge s) = ctl s := by simp [handoverJudge]

@[simp] theorem headwayWork_ctl (entered newPeriod : Bool) (s : State) :
    ctl (headwayWork entered newPeriod s) = ctl s := by simp [headwayWork]

@[simp] theorem inputClose_ctl (s : State) : ctl (inputClose s) = ctl s := by
  unfold inputClose
  repeat' split
  all_goals simp [ctl_views, ctl_mk]

@[simp] theorem execInputClose_keeps (s : State) : Keeps s (execInputClose s) := by simp [execInputClose, ctl_mk]

@[simp] theorem execEstimateClose_keeps (s : State) : Keeps s (execEstimateClose s) := by simp [execEstimateClose]

@[simp] theorem outputFreeze_ctl (s : State) : ctl (outputFreeze s) = ctl s := by
  unfold outputFreeze
  dsimp only
  repeat' split
  all_goals simp [ctl_views, ctl_mk]

@[simp] theorem execOutputFreeze_keeps (s : State) : Keeps s (execOutputFreeze s) := by simp [execOutputFreeze]

end Sys2Proof.Machine
end

