-- ==== Sys2Proof/Laws/CtlHostWord.lean ====
section
/-! SUPPORT. What the operations of Machine/HostWord.lean leave alone: the queue, the state, the placed timetable, the pending boot, the
supply, RST_N and the tick count (`ctl`, Laws/Ctl.lean). -/

set_option linter.unusedSimpArgs false
set_option linter.unusedTactic false
set_option linter.unreachableTactic false

namespace Sys2Proof.Machine

@[simp] theorem devCmdWrite_ctl (w : Word) (s : State) : ctl (devCmdWrite w s) = ctl s :=
  by unfold devCmdWrite; split <;> simp [ctl_views, ctl_mk]

@[simp] theorem txCmdWrite_ctl (w : Word) (s : State) : ctl (txCmdWrite w s) = ctl s :=
  by unfold txCmdWrite; split <;> simp [ctl_views, ctl_mk]

@[simp] theorem psCmdWrite_ctl (w : Word) (s : State) : ctl (psCmdWrite w s) = ctl s :=
  by unfold psCmdWrite; split <;> simp [ctl_views, ctl_mk]

@[simp] theorem doorWrite_ctl (w : Word) (s : State) : ctl (doorWrite w s) = ctl s :=
  by simp [doorWrite, ctl_views, ctl_mk]

@[simp] theorem psKeyWrite_ctl (k : Nat) (w : Word) (s : State) : ctl (psKeyWrite k w s) = ctl s := Eq.refl _

@[simp] theorem fatalCleared_ctl (before s : State) : ctl (fatalCleared before s) = ctl s := by simp [fatalCleared]

@[simp] theorem performWord_ctl (a : Nat) (w : Word) (s : State) : ctl (performWord a w s) = ctl s := by
  unfold performWord
  repeat' split
  all_goals simp [ctl_views, ctl_mk]

@[simp] theorem hostWord_ctl (a : Nat) (w : Word) (s : State) : ctl (hostWord a w s).2 = ctl s := by
  unfold hostWord
  repeat' split
  all_goals simp [ctl_views, ctl_mk]

@[simp] theorem raiseHost_ctl (ds : List Nat) (s : State) : ctl (raiseHost ds s) = ctl s := by simp [raiseHost]

@[simp] theorem wordRow_keeps (a : Nat) (w : Word) (s : State) : Keeps s (wordRow a w s) := by
  unfold wordRow
  repeat' split
  all_goals simp [ctl_views, ctl_mk]

@[simp] theorem execDomainForceOn_keeps (d : Nat) (on : Bool) (s : State) : Keeps s (execDomainForceOn d on s) := by
  unfold execDomainForceOn
  split <;> simp

@[simp] theorem execRegisterWrite_keeps (addr : Nat) (data : Word) (s : State) :
    Keeps s (execRegisterWrite addr data s) := by simp [execRegisterWrite]

@[simp] theorem execSlkStnSelWrite_keeps (data : Word) (s : State) : Keeps s (execSlkStnSelWrite data s) :=
  by simp [execSlkStnSelWrite]

@[simp] theorem execChnSelWrite_keeps (data : Word) (s : State) : Keeps s (execChnSelWrite data s) :=
  by simp [execChnSelWrite]

@[simp] theorem execMtrSelWrite_keeps (data : Word) (s : State) : Keeps s (execMtrSelWrite data s) :=
  by simp [execMtrSelWrite]

@[simp] theorem execMtrIvlSelWrite_keeps (data : Word) (s : State) : Keeps s (execMtrIvlSelWrite data s) :=
  by simp [execMtrIvlSelWrite]

@[simp] theorem execTariffSubmit_keeps (data : Word) (s : State) : Keeps s (execTariffSubmit data s) :=
  by simp [execTariffSubmit]

@[simp] theorem execDayofsWrite_keeps (data : Word) (s : State) : Keeps s (execDayofsWrite data s) :=
  by simp [execDayofsWrite]

@[simp] theorem execHydColdRequest_keeps (s : State) : Keeps s (execHydColdRequest s) := by simp [execHydColdRequest]

@[simp] theorem execOptColdRequest_keeps (s : State) : Keeps s (execOptColdRequest s) := by simp [execOptColdRequest]

@[simp] theorem execSlvSelftestStart_keeps (s : State) : Keeps s (execSlvSelftestStart s) :=
  by simp [execSlvSelftestStart]

@[simp] theorem execLoopCoefficientWrite_keeps (addr : Nat) (data : Word) (s : State) :
    Keeps s (execLoopCoefficientWrite addr data s) := by simp [execLoopCoefficientWrite]

@[simp] theorem execLoopModeWrite_keeps (k : Nat) (manual : Bool) (s : State) :
    Keeps s (execLoopModeWrite k manual s) := by simp [execLoopModeWrite]

@[simp] theorem execLoopReinit_keeps (k : Nat) (s : State) : Keeps s (execLoopReinit k s) := by simp [execLoopReinit]

@[simp] theorem execInjectionStart_keeps (c : Nat) (data : Word) (s : State) :
    Keeps s (execInjectionStart c data s) := by simp [execInjectionStart]

@[simp] theorem execInjectionStop_keeps (c : Nat) (s : State) : Keeps s (execInjectionStop c s) :=
  by simp [execInjectionStop]

@[simp] theorem execCaptureStart_keeps (c : Nat) (data : Word) (s : State) : Keeps s (execCaptureStart c data s) :=
  by simp [execCaptureStart]

@[simp] theorem execCaptureStop_keeps (c : Nat) (s : State) : Keeps s (execCaptureStop c s) := by simp [execCaptureStop]

@[simp] theorem execTaskStop_keeps (e k key : Nat) (s : State) : Keeps s (execTaskStop e k key s) :=
  by simp [execTaskStop]

@[simp] theorem execTaskStart_keeps (e k key : Nat) (s : State) : Keeps s (execTaskStart e k key s) :=
  by simp [execTaskStart]

@[simp] theorem execTaskRestart_keeps (e k key : Nat) (s : State) : Keeps s (execTaskRestart e k key s) :=
  by simp [execTaskRestart]

@[simp] theorem execPatchSubmit_keeps (data : Word) (s : State) : Keeps s (execPatchSubmit data s) :=
  by simp [execPatchSubmit]

end Sys2Proof.Machine
end

