-- ==== Sys2Proof/Laws/CtlEcc.lean ====
section
/-! SUPPORT. What the operations of Machine/Ecc.lean leave alone: the queue, the state, the placed timetable, the pending boot, the
supply, RST_N and the tick count (`ctl`, Laws/Ctl.lean). -/

set_option linter.unusedSimpArgs false
set_option linter.unusedTactic false
set_option linter.unreachableTactic false

namespace Sys2Proof.Machine

@[simp] theorem captureError_ctl (a : Nat) (s : State) : ctl (captureError a s) = ctl s :=
  by simp [captureError, ctl_views, ctl_mk]

@[simp] theorem eventError_ctl (a : Nat) (s : State) : ctl (eventError a s) = ctl s := Eq.refl _

@[simp] theorem engineError_ctl (e : Nat) (s : State) : ctl (engineError e s) = ctl s := by
  unfold engineError
  repeat' split
  all_goals simp [ctl_views, ctl_mk]

@[simp] theorem memLost_ctl (u : Upset) (s : State) : ctl (memLost u s) = ctl s :=
  by unfold memLost; split <;> simp [ctl_views, ctl_mk]

@[simp] theorem scrubLine_ctl (k line : Nat) (s : State) : ctl (scrubLine k line s) = ctl s :=
  forL_ctl _ _ _ (fun u t => memMeet_ctl memLost memLost_ctl u t)

@[simp] theorem scrubMem_ctl (k : Nat) (s : State) : ctl (scrubMem k s) = ctl s := by
  unfold scrubMem
  dsimp only
  split <;> simp [ctl_views, ctl_mk]

@[simp] theorem scrub_ctl (s : State) : ctl (scrub s) = ctl s := by simp [scrub]

end Sys2Proof.Machine
end

