-- ==== Sys2Proof/Laws/CtlHif.lean ====
section
/-! SUPPORT. What the operations of Machine/Hif.lean leave alone: the queue, the state, the placed timetable, the pending boot, the
supply, RST_N and the tick count (`ctl`, Laws/Ctl.lean). -/

set_option linter.unusedSimpArgs false
set_option linter.unusedTactic false
set_option linter.unreachableTactic false

namespace Sys2Proof.Machine

@[simp] theorem portRaise_ctl (a n : Nat) (s : State) : ctl (portRaise a n s) = ctl s := by
  unfold portRaise
  split <;> simp

@[simp] theorem engineWrite_ctl (a : Nat) (b : Byte) (s : State) : ctl (engineWrite a b s) = ctl s := Eq.refl _

@[simp] theorem factorWrite_ctl (a : Nat) (b : Byte) (s : State) : ctl (factorWrite a b s) = ctl s := Eq.refl _

@[simp] theorem hostMemWrite_ctl (r : HostRange) (a : Nat) (data : List Byte) (s : State) :
    ctl (hostMemWrite r a data s) = ctl s := by unfold hostMemWrite; split <;> simp [ctl_views, ctl_mk]

@[simp] theorem respond_ctl (body : List Byte) (s : State) : ctl (respond body s) = ctl s := Eq.refl _

@[simp] theorem codeEffect_ctl (c : HostCode) (reason addr : Nat) (wr : Bool) (s : State) :
    ctl (codeEffect c reason addr wr s) = ctl s := by unfold codeEffect; split <;> simp [ctl_views, ctl_mk]

@[simp] theorem accessCode_ctl (wr : Bool) (a n : Nat) (s : State) : ctl (accessCode wr a n s).2 = ctl s := by
  unfold accessCode
  repeat' split
  all_goals simp [ctl_views, ctl_mk]

@[simp] theorem readNone_ctl (c : HostCode) (reason a n : Nat) (s : State) : ctl (readNone c reason a n s) = ctl s :=
  by simp [readNone]

@[simp] theorem writeAnswer_ctl (c : HostCode) (reason count addr : Nat) (s : State) :
    ctl (writeAnswer c reason count addr s) = ctl s := by simp [writeAnswer]

@[simp] theorem hostStatus_ctl (cmd : Byte) (crc : Nat) (s : State) : ctl (hostStatus cmd crc s) = ctl s :=
  by simp [hostStatus]

@[simp] theorem execStatusWidth1_keeps (crc : Nat) (s : State) : Keeps s (execStatusWidth1 crc s) :=
  by simp [execStatusWidth1]

@[simp] theorem execStatusWidth4_keeps (crc : Nat) (s : State) : Keeps s (execStatusWidth4 crc s) :=
  by simp [execStatusWidth4]

@[simp] theorem execBadCmd_keeps (cmd : Byte) (s : State) : Keeps s (execBadCmd cmd s) :=
  by simp [execBadCmd, ctl_views, ctl_mk]

@[simp] theorem execHostCsNEarlyRise_keeps (fetched : Option Nat) (s : State) :
    Keeps s (execHostCsNEarlyRise fetched s) := by unfold execHostCsNEarlyRise; split <;> simp [ctl_views, ctl_mk]

end Sys2Proof.Machine
end

