-- ==== Sys2Proof/Laws/CtlBoot.lean ====
section
/-! SUPPORT. What the operations of Machine/Boot.lean leave alone: the queue, the state, the placed timetable, the pending boot, the
supply, RST_N and the tick count (`ctl`, Laws/Ctl.lean). -/

set_option linter.unusedSimpArgs false
set_option linter.unusedTactic false
set_option linter.unreachableTactic false

namespace Sys2Proof.Machine

@[simp] theorem bootRegs_ctl (s : State) : ctl (bootRegs s) = ctl s := Eq.refl _

@[simp] theorem bootDomains_ctl (s : State) : ctl (bootDomains s) = ctl s := Eq.refl _

@[simp] theorem bistReport_ctl (s : State) : ctl (bistReport s) = ctl s := by simp [bistReport]

@[simp] theorem bistRun_ctl (s : State) : ctl (bistRun s) = ctl s := by simp [bistRun, ctl_views, ctl_mk]

@[simp] theorem fwPtrSet_ctl (p : Nat × Nat × Nat × Nat × Nat) (s : State) : ctl (fwPtrSet p s) = ctl s :=
  by simp [fwPtrSet, ctl_views, ctl_mk]

@[simp] theorem fwSelect_ctl (s : State) : ctl (fwSelect s).2.2 = ctl s := by
  unfold fwSelect
  repeat' split
  all_goals simp [ctl_views, ctl_mk]

@[simp] theorem fwStart_ctl (slot : Nat) (trial : Bool) (s : State) : ctl (fwStart slot trial s) = ctl s :=
  by simp [fwStart, ctl_views, ctl_mk]

@[simp] theorem fwBoot_ctl (s : State) : ctl (fwBoot s) = ctl s := by simp [fwBoot, ctl_views, ctl_mk]

@[simp] theorem commitClose_ctl (s : State) : ctl (commitClose s) = ctl s := by simp [commitClose]

@[simp] theorem ptrRecover_ctl (s : State) : ctl (ptrRecover s) = ctl s := by
  unfold ptrRecover
  repeat' split
  all_goals simp [ctl_views, ctl_mk]

end Sys2Proof.Machine
end

