-- ==== Sys2Proof/Laws/CtlPwrFail.lean ====
section
/-! SUPPORT. What the operations of Machine/PwrFail.lean leave alone: the queue, the state, the placed timetable, the pending boot, the
supply, RST_N and the tick count (`ctl`, Laws/Ctl.lean). -/

set_option linter.unusedSimpArgs false
set_option linter.unusedTactic false
set_option linter.unreachableTactic false

namespace Sys2Proof.Machine

@[simp] theorem tornWrites_ctl (s : State) : ctl (tornWrites s) = ctl s := by
  unfold tornWrites
  dsimp only
  repeat' split
  all_goals simp [ctl_views, ctl_mk]

@[simp] theorem rstSeen_ctl (lowNs : Nat) (s : State) : ctl (rstSeen lowNs s).2 = ctl s := by
  unfold rstSeen
  dsimp only
  repeat' split
  all_goals simp [ctl_views, ctl_mk]

@[simp] theorem pfwTx_ctl (s : State) : ctl (pfwTx s) = ctl s := by unfold pfwTx; split <;> simp [ctl_views, ctl_mk]

@[simp] theorem pfwKeys_ctl (s : State) : ctl (pfwKeys s) = ctl s := by simp [pfwKeys, ctl_views, ctl_mk]

@[simp] theorem pfwDomains_ctl (s : State) : ctl (pfwDomains s) = ctl s := by simp [pfwDomains]

@[simp] theorem pfwStop_ctl (s : State) : ctl (pfwStop s) = ctl s := by simp [pfwStop, ctl_views, ctl_mk]

@[simp] theorem execPllUnlock_keeps (pll : Pll) (s : State) : Keeps s (execPllUnlock pll s) := by
  unfold execPllUnlock
  dsimp only
  repeat' split
  all_goals simp [ctl_views, ctl_mk]

end Sys2Proof.Machine
end

