-- ==== Sys2Proof/Laws/CtlTick.lean ====
section
/-! SUPPORT. What the operations of Machine/Tick.lean leave alone: the queue, the state, the placed timetable, the pending boot, the
supply, RST_N and the tick count (`ctl`, Laws/Ctl.lean). -/

set_option linter.unusedSimpArgs false
set_option linter.unusedTactic false
set_option linter.unreachableTactic false

namespace Sys2Proof.Machine

@[simp] theorem tickHeadway_ctl (s : State) : ctl (tickHeadway s) = ctl s :=
  by unfold tickHeadway; split <;> simp [ctl_views, ctl_mk]

@[simp] theorem tickLedger_ctl (s : State) : ctl (tickLedger s) = ctl s := by simp [tickLedger, ctl_views, ctl_mk]

@[simp] theorem tickTimers_ctl (s : State) : ctl (tickTimers s) = ctl s := by simp [tickTimers, ctl_views, ctl_mk]

@[simp] theorem tickCalendar_ctl (s : State) : ctl (tickCalendar s) = ctl s := by simp [tickCalendar]

@[simp] theorem tickChannels_ctl (readback : List Readback) (s : State) : ctl (tickChannels readback s) = ctl s :=
  by simp [tickChannels]

end Sys2Proof.Machine
end

