-- ==== Sys2Proof/Laws/CtlWake.lean ====
section
/-! SUPPORT. What the operations of Machine/Wake.lean leave alone: the queue, the state, the placed timetable, the pending boot, the
supply, RST_N and the tick count (`ctl`, Laws/Ctl.lean). -/

namespace Sys2Proof.Machine

@[simp] theorem execScheduledWake_keeps (d : Nat) (s : State) : Keeps s (execScheduledWake d s) := by
  simp [execScheduledWake, ctl_views, ctl_mk]

@[simp] theorem execLingerExpire_keeps (d : Nat) (s : State) : Keeps s (execLingerExpire d s) := by
  simp [execLingerExpire]

end Sys2Proof.Machine
end

