-- ==== Sys2Proof/Laws/State.lean ====
section
/-! SUPPORT. What each plain update of the state leaves alone: one lemma for every field, and what it sets where that is a
whole field. -/

namespace Sys2Proof.Machine

/-! `setReg` -/

@[simp] theorem setReg_pending (a : Nat) (v : Word) (s : State) : (setReg a v s).pending = s.pending := rfl
@[simp] theorem setReg_free (a : Nat) (v : Word) (s : State) : (setReg a v s).free = s.free := rfl
@[simp] theorem setReg_nv (a : Nat) (v : Word) (s : State) : (setReg a v s).nv = s.nv := rfl
@[simp] theorem setReg_dev (a : Nat) (v : Word) (s : State) : (setReg a v s).dev = s.dev := rfl
@[simp] theorem setReg_pwr (a : Nat) (v : Word) (s : State) : (setReg a v s).pwr = s.pwr := rfl
@[simp] theorem setReg_jnl (a : Nat) (v : Word) (s : State) : (setReg a v s).jnl = s.jnl := rfl
@[simp] theorem setReg_tx (a : Nat) (v : Word) (s : State) : (setReg a v s).tx = s.tx := rfl
@[simp] theorem setReg_ps (a : Nat) (v : Word) (s : State) : (setReg a v s).ps = s.ps := rfl
@[simp] theorem setReg_img (a : Nat) (v : Word) (s : State) : (setReg a v s).img = s.img := rfl
@[simp] theorem setReg_mem (a : Nat) (v : Word) (s : State) : (setReg a v s).mem = s.mem := rfl
@[simp] theorem setReg_mgt (a : Nat) (v : Word) (s : State) : (setReg a v s).mgt = s.mgt := rfl
@[simp] theorem setReg_hif (a : Nat) (v : Word) (s : State) : (setReg a v s).hif = s.hif := rfl
@[simp] theorem setReg_key (a : Nat) (v : Word) (s : State) : (setReg a v s).key = s.key := rfl
@[simp] theorem setReg_chn (a : Nat) (v : Word) (s : State) : (setReg a v s).chn = s.chn := rfl
@[simp] theorem setReg_mtr (a : Nat) (v : Word) (s : State) : (setReg a v s).mtr = s.mtr := rfl
@[simp] theorem setReg_red (a : Nat) (v : Word) (s : State) : (setReg a v s).red = s.red := rfl
@[simp] theorem setReg_lpe (a : Nat) (v : Word) (s : State) : (setReg a v s).lpe = s.lpe := rfl
@[simp] theorem setReg_ce (a : Nat) (v : Word) (s : State) : (setReg a v s).ce = s.ce := rfl
@[simp] theorem setReg_slv (a : Nat) (v : Word) (s : State) : (setReg a v s).slv = s.slv := rfl
@[simp] theorem setReg_hyd (a : Nat) (v : Word) (s : State) : (setReg a v s).hyd = s.hyd := rfl
@[simp] theorem setReg_ftr (a : Nat) (v : Word) (s : State) : (setReg a v s).ftr = s.ftr := rfl
@[simp] theorem setReg_opt (a : Nat) (v : Word) (s : State) : (setReg a v s).opt = s.opt := rfl
@[simp] theorem setReg_slk (a : Nat) (v : Word) (s : State) : (setReg a v s).slk = s.slk := rfl

/-! `setFld` -/

@[simp] theorem setFld_pending (a hi lo v : Nat) (s : State) : (setFld a hi lo v s).pending = s.pending := rfl
@[simp] theorem setFld_free (a hi lo v : Nat) (s : State) : (setFld a hi lo v s).free = s.free := rfl
@[simp] theorem setFld_nv (a hi lo v : Nat) (s : State) : (setFld a hi lo v s).nv = s.nv := rfl
@[simp] theorem setFld_dev (a hi lo v : Nat) (s : State) : (setFld a hi lo v s).dev = s.dev := rfl
@[simp] theorem setFld_pwr (a hi lo v : Nat) (s : State) : (setFld a hi lo v s).pwr = s.pwr := rfl
@[simp] theorem setFld_jnl (a hi lo v : Nat) (s : State) : (setFld a hi lo v s).jnl = s.jnl := rfl
@[simp] theorem setFld_tx (a hi lo v : Nat) (s : State) : (setFld a hi lo v s).tx = s.tx := rfl
@[simp] theorem setFld_ps (a hi lo v : Nat) (s : State) : (setFld a hi lo v s).ps = s.ps := rfl
@[simp] theorem setFld_img (a hi lo v : Nat) (s : State) : (setFld a hi lo v s).img = s.img := rfl
@[simp] theorem setFld_mem (a hi lo v : Nat) (s : State) : (setFld a hi lo v s).mem = s.mem := rfl
@[simp] theorem setFld_mgt (a hi lo v : Nat) (s : State) : (setFld a hi lo v s).mgt = s.mgt := rfl
@[simp] theorem setFld_hif (a hi lo v : Nat) (s : State) : (setFld a hi lo v s).hif = s.hif := rfl
@[simp] theorem setFld_key (a hi lo v : Nat) (s : State) : (setFld a hi lo v s).key = s.key := rfl
@[simp] theorem setFld_chn (a hi lo v : Nat) (s : State) : (setFld a hi lo v s).chn = s.chn := rfl
@[simp] theorem setFld_mtr (a hi lo v : Nat) (s : State) : (setFld a hi lo v s).mtr = s.mtr := rfl
@[simp] theorem setFld_red (a hi lo v : Nat) (s : State) : (setFld a hi lo v s).red = s.red := rfl
@[simp] theorem setFld_lpe (a hi lo v : Nat) (s : State) : (setFld a hi lo v s).lpe = s.lpe := rfl
@[simp] theorem setFld_ce (a hi lo v : Nat) (s : State) : (setFld a hi lo v s).ce = s.ce := rfl
@[simp] theorem setFld_slv (a hi lo v : Nat) (s : State) : (setFld a hi lo v s).slv = s.slv := rfl
@[simp] theorem setFld_hyd (a hi lo v : Nat) (s : State) : (setFld a hi lo v s).hyd = s.hyd := rfl
@[simp] theorem setFld_ftr (a hi lo v : Nat) (s : State) : (setFld a hi lo v s).ftr = s.ftr := rfl
@[simp] theorem setFld_opt (a hi lo v : Nat) (s : State) : (setFld a hi lo v s).opt = s.opt := rfl
@[simp] theorem setFld_slk (a hi lo v : Nat) (s : State) : (setFld a hi lo v s).slk = s.slk := rfl

/-! `setBit` -/

@[simp] theorem setBit_pending (a i : Nat) (b : Bool) (s : State) : (setBit a i b s).pending = s.pending := rfl
@[simp] theorem setBit_free (a i : Nat) (b : Bool) (s : State) : (setBit a i b s).free = s.free := rfl
@[simp] theorem setBit_nv (a i : Nat) (b : Bool) (s : State) : (setBit a i b s).nv = s.nv := rfl
@[simp] theorem setBit_dev (a i : Nat) (b : Bool) (s : State) : (setBit a i b s).dev = s.dev := rfl
@[simp] theorem setBit_pwr (a i : Nat) (b : Bool) (s : State) : (setBit a i b s).pwr = s.pwr := rfl
@[simp] theorem setBit_jnl (a i : Nat) (b : Bool) (s : State) : (setBit a i b s).jnl = s.jnl := rfl
@[simp] theorem setBit_tx (a i : Nat) (b : Bool) (s : State) : (setBit a i b s).tx = s.tx := rfl
@[simp] theorem setBit_ps (a i : Nat) (b : Bool) (s : State) : (setBit a i b s).ps = s.ps := rfl
@[simp] theorem setBit_img (a i : Nat) (b : Bool) (s : State) : (setBit a i b s).img = s.img := rfl
@[simp] theorem setBit_mem (a i : Nat) (b : Bool) (s : State) : (setBit a i b s).mem = s.mem := rfl
@[simp] theorem setBit_mgt (a i : Nat) (b : Bool) (s : State) : (setBit a i b s).mgt = s.mgt := rfl
@[simp] theorem setBit_hif (a i : Nat) (b : Bool) (s : State) : (setBit a i b s).hif = s.hif := rfl
@[simp] theorem setBit_key (a i : Nat) (b : Bool) (s : State) : (setBit a i b s).key = s.key := rfl
@[simp] theorem setBit_chn (a i : Nat) (b : Bool) (s : State) : (setBit a i b s).chn = s.chn := rfl
@[simp] theorem setBit_mtr (a i : Nat) (b : Bool) (s : State) : (setBit a i b s).mtr = s.mtr := rfl
@[simp] theorem setBit_red (a i : Nat) (b : Bool) (s : State) : (setBit a i b s).red = s.red := rfl
@[simp] theorem setBit_lpe (a i : Nat) (b : Bool) (s : State) : (setBit a i b s).lpe = s.lpe := rfl
@[simp] theorem setBit_ce (a i : Nat) (b : Bool) (s : State) : (setBit a i b s).ce = s.ce := rfl
@[simp] theorem setBit_slv (a i : Nat) (b : Bool) (s : State) : (setBit a i b s).slv = s.slv := rfl
@[simp] theorem setBit_hyd (a i : Nat) (b : Bool) (s : State) : (setBit a i b s).hyd = s.hyd := rfl
@[simp] theorem setBit_ftr (a i : Nat) (b : Bool) (s : State) : (setBit a i b s).ftr = s.ftr := rfl
@[simp] theorem setBit_opt (a i : Nat) (b : Bool) (s : State) : (setBit a i b s).opt = s.opt := rfl
@[simp] theorem setBit_slk (a i : Nat) (b : Bool) (s : State) : (setBit a i b s).slk = s.slk := rfl

/-! `incFld` -/

@[simp] theorem incFld_pending (a hi lo : Nat) (s : State) : (incFld a hi lo s).pending = s.pending := rfl
@[simp] theorem incFld_free (a hi lo : Nat) (s : State) : (incFld a hi lo s).free = s.free := rfl
@[simp] theorem incFld_nv (a hi lo : Nat) (s : State) : (incFld a hi lo s).nv = s.nv := rfl
@[simp] theorem incFld_dev (a hi lo : Nat) (s : State) : (incFld a hi lo s).dev = s.dev := rfl
@[simp] theorem incFld_pwr (a hi lo : Nat) (s : State) : (incFld a hi lo s).pwr = s.pwr := rfl
@[simp] theorem incFld_jnl (a hi lo : Nat) (s : State) : (incFld a hi lo s).jnl = s.jnl := rfl
@[simp] theorem incFld_tx (a hi lo : Nat) (s : State) : (incFld a hi lo s).tx = s.tx := rfl
@[simp] theorem incFld_ps (a hi lo : Nat) (s : State) : (incFld a hi lo s).ps = s.ps := rfl
@[simp] theorem incFld_img (a hi lo : Nat) (s : State) : (incFld a hi lo s).img = s.img := rfl
@[simp] theorem incFld_mem (a hi lo : Nat) (s : State) : (incFld a hi lo s).mem = s.mem := rfl
@[simp] theorem incFld_mgt (a hi lo : Nat) (s : State) : (incFld a hi lo s).mgt = s.mgt := rfl
@[simp] theorem incFld_hif (a hi lo : Nat) (s : State) : (incFld a hi lo s).hif = s.hif := rfl
@[simp] theorem incFld_key (a hi lo : Nat) (s : State) : (incFld a hi lo s).key = s.key := rfl
@[simp] theorem incFld_chn (a hi lo : Nat) (s : State) : (incFld a hi lo s).chn = s.chn := rfl
@[simp] theorem incFld_mtr (a hi lo : Nat) (s : State) : (incFld a hi lo s).mtr = s.mtr := rfl
@[simp] theorem incFld_red (a hi lo : Nat) (s : State) : (incFld a hi lo s).red = s.red := rfl
@[simp] theorem incFld_lpe (a hi lo : Nat) (s : State) : (incFld a hi lo s).lpe = s.lpe := rfl
@[simp] theorem incFld_ce (a hi lo : Nat) (s : State) : (incFld a hi lo s).ce = s.ce := rfl
@[simp] theorem incFld_slv (a hi lo : Nat) (s : State) : (incFld a hi lo s).slv = s.slv := rfl
@[simp] theorem incFld_hyd (a hi lo : Nat) (s : State) : (incFld a hi lo s).hyd = s.hyd := rfl
@[simp] theorem incFld_ftr (a hi lo : Nat) (s : State) : (incFld a hi lo s).ftr = s.ftr := rfl
@[simp] theorem incFld_opt (a hi lo : Nat) (s : State) : (incFld a hi lo s).opt = s.opt := rfl
@[simp] theorem incFld_slk (a hi lo : Nat) (s : State) : (incFld a hi lo s).slk = s.slk := rfl

/-! `addFld` -/

@[simp] theorem addFld_pending (a hi lo n : Nat) (s : State) : (addFld a hi lo n s).pending = s.pending := rfl
@[simp] theorem addFld_free (a hi lo n : Nat) (s : State) : (addFld a hi lo n s).free = s.free := rfl
@[simp] theorem addFld_nv (a hi lo n : Nat) (s : State) : (addFld a hi lo n s).nv = s.nv := rfl
@[simp] theorem addFld_dev (a hi lo n : Nat) (s : State) : (addFld a hi lo n s).dev = s.dev := rfl
@[simp] theorem addFld_pwr (a hi lo n : Nat) (s : State) : (addFld a hi lo n s).pwr = s.pwr := rfl
@[simp] theorem addFld_jnl (a hi lo n : Nat) (s : State) : (addFld a hi lo n s).jnl = s.jnl := rfl
@[simp] theorem addFld_tx (a hi lo n : Nat) (s : State) : (addFld a hi lo n s).tx = s.tx := rfl
@[simp] theorem addFld_ps (a hi lo n : Nat) (s : State) : (addFld a hi lo n s).ps = s.ps := rfl
@[simp] theorem addFld_img (a hi lo n : Nat) (s : State) : (addFld a hi lo n s).img = s.img := rfl
@[simp] theorem addFld_mem (a hi lo n : Nat) (s : State) : (addFld a hi lo n s).mem = s.mem := rfl
@[simp] theorem addFld_mgt (a hi lo n : Nat) (s : State) : (addFld a hi lo n s).mgt = s.mgt := rfl
@[simp] theorem addFld_hif (a hi lo n : Nat) (s : State) : (addFld a hi lo n s).hif = s.hif := rfl
@[simp] theorem addFld_key (a hi lo n : Nat) (s : State) : (addFld a hi lo n s).key = s.key := rfl
@[simp] theorem addFld_chn (a hi lo n : Nat) (s : State) : (addFld a hi lo n s).chn = s.chn := rfl
@[simp] theorem addFld_mtr (a hi lo n : Nat) (s : State) : (addFld a hi lo n s).mtr = s.mtr := rfl
@[simp] theorem addFld_red (a hi lo n : Nat) (s : State) : (addFld a hi lo n s).red = s.red := rfl
@[simp] theorem addFld_lpe (a hi lo n : Nat) (s : State) : (addFld a hi lo n s).lpe = s.lpe := rfl
@[simp] theorem addFld_ce (a hi lo n : Nat) (s : State) : (addFld a hi lo n s).ce = s.ce := rfl
@[simp] theorem addFld_slv (a hi lo n : Nat) (s : State) : (addFld a hi lo n s).slv = s.slv := rfl
@[simp] theorem addFld_hyd (a hi lo n : Nat) (s : State) : (addFld a hi lo n s).hyd = s.hyd := rfl
@[simp] theorem addFld_ftr (a hi lo n : Nat) (s : State) : (addFld a hi lo n s).ftr = s.ftr := rfl
@[simp] theorem addFld_opt (a hi lo n : Nat) (s : State) : (addFld a hi lo n s).opt = s.opt := rfl
@[simp] theorem addFld_slk (a hi lo n : Nat) (s : State) : (addFld a hi lo n s).slk = s.slk := rfl

/-! `incReg` -/

@[simp] theorem incReg_pending (a : Nat) (s : State) : (incReg a s).pending = s.pending := rfl
@[simp] theorem incReg_free (a : Nat) (s : State) : (incReg a s).free = s.free := rfl
@[simp] theorem incReg_nv (a : Nat) (s : State) : (incReg a s).nv = s.nv := rfl
@[simp] theorem incReg_dev (a : Nat) (s : State) : (incReg a s).dev = s.dev := rfl
@[simp] theorem incReg_pwr (a : Nat) (s : State) : (incReg a s).pwr = s.pwr := rfl
@[simp] theorem incReg_jnl (a : Nat) (s : State) : (incReg a s).jnl = s.jnl := rfl
@[simp] theorem incReg_tx (a : Nat) (s : State) : (incReg a s).tx = s.tx := rfl
@[simp] theorem incReg_ps (a : Nat) (s : State) : (incReg a s).ps = s.ps := rfl
@[simp] theorem incReg_img (a : Nat) (s : State) : (incReg a s).img = s.img := rfl
@[simp] theorem incReg_mem (a : Nat) (s : State) : (incReg a s).mem = s.mem := rfl
@[simp] theorem incReg_mgt (a : Nat) (s : State) : (incReg a s).mgt = s.mgt := rfl
@[simp] theorem incReg_hif (a : Nat) (s : State) : (incReg a s).hif = s.hif := rfl
@[simp] theorem incReg_key (a : Nat) (s : State) : (incReg a s).key = s.key := rfl
@[simp] theorem incReg_chn (a : Nat) (s : State) : (incReg a s).chn = s.chn := rfl
@[simp] theorem incReg_mtr (a : Nat) (s : State) : (incReg a s).mtr = s.mtr := rfl
@[simp] theorem incReg_red (a : Nat) (s : State) : (incReg a s).red = s.red := rfl
@[simp] theorem incReg_lpe (a : Nat) (s : State) : (incReg a s).lpe = s.lpe := rfl
@[simp] theorem incReg_ce (a : Nat) (s : State) : (incReg a s).ce = s.ce := rfl
@[simp] theorem incReg_slv (a : Nat) (s : State) : (incReg a s).slv = s.slv := rfl
@[simp] theorem incReg_hyd (a : Nat) (s : State) : (incReg a s).hyd = s.hyd := rfl
@[simp] theorem incReg_ftr (a : Nat) (s : State) : (incReg a s).ftr = s.ftr := rfl
@[simp] theorem incReg_opt (a : Nat) (s : State) : (incReg a s).opt = s.opt := rfl
@[simp] theorem incReg_slk (a : Nat) (s : State) : (incReg a s).slk = s.slk := rfl

/-! `nvWrite` -/

@[simp] theorem nvWrite_pending (off : Nat) (bs : List Byte) (s : State) : (nvWrite off bs s).pending = s.pending := rfl
@[simp] theorem nvWrite_free (off : Nat) (bs : List Byte) (s : State) : (nvWrite off bs s).free = s.free := rfl
@[simp] theorem nvWrite_regs (off : Nat) (bs : List Byte) (s : State) : (nvWrite off bs s).regs = s.regs := rfl
@[simp] theorem nvWrite_dev (off : Nat) (bs : List Byte) (s : State) : (nvWrite off bs s).dev = s.dev := rfl
@[simp] theorem nvWrite_pwr (off : Nat) (bs : List Byte) (s : State) : (nvWrite off bs s).pwr = s.pwr := rfl
@[simp] theorem nvWrite_jnl (off : Nat) (bs : List Byte) (s : State) : (nvWrite off bs s).jnl = s.jnl := rfl
@[simp] theorem nvWrite_tx (off : Nat) (bs : List Byte) (s : State) : (nvWrite off bs s).tx = s.tx := rfl
@[simp] theorem nvWrite_ps (off : Nat) (bs : List Byte) (s : State) : (nvWrite off bs s).ps = s.ps := rfl
@[simp] theorem nvWrite_img (off : Nat) (bs : List Byte) (s : State) : (nvWrite off bs s).img = s.img := rfl
@[simp] theorem nvWrite_mem (off : Nat) (bs : List Byte) (s : State) : (nvWrite off bs s).mem = s.mem := rfl
@[simp] theorem nvWrite_mgt (off : Nat) (bs : List Byte) (s : State) : (nvWrite off bs s).mgt = s.mgt := rfl
@[simp] theorem nvWrite_hif (off : Nat) (bs : List Byte) (s : State) : (nvWrite off bs s).hif = s.hif := rfl
@[simp] theorem nvWrite_key (off : Nat) (bs : List Byte) (s : State) : (nvWrite off bs s).key = s.key := rfl
@[simp] theorem nvWrite_chn (off : Nat) (bs : List Byte) (s : State) : (nvWrite off bs s).chn = s.chn := rfl
@[simp] theorem nvWrite_mtr (off : Nat) (bs : List Byte) (s : State) : (nvWrite off bs s).mtr = s.mtr := rfl
@[simp] theorem nvWrite_red (off : Nat) (bs : List Byte) (s : State) : (nvWrite off bs s).red = s.red := rfl
@[simp] theorem nvWrite_lpe (off : Nat) (bs : List Byte) (s : State) : (nvWrite off bs s).lpe = s.lpe := rfl
@[simp] theorem nvWrite_ce (off : Nat) (bs : List Byte) (s : State) : (nvWrite off bs s).ce = s.ce := rfl
@[simp] theorem nvWrite_slv (off : Nat) (bs : List Byte) (s : State) : (nvWrite off bs s).slv = s.slv := rfl
@[simp] theorem nvWrite_hyd (off : Nat) (bs : List Byte) (s : State) : (nvWrite off bs s).hyd = s.hyd := rfl
@[simp] theorem nvWrite_ftr (off : Nat) (bs : List Byte) (s : State) : (nvWrite off bs s).ftr = s.ftr := rfl
@[simp] theorem nvWrite_opt (off : Nat) (bs : List Byte) (s : State) : (nvWrite off bs s).opt = s.opt := rfl
@[simp] theorem nvWrite_slk (off : Nat) (bs : List Byte) (s : State) : (nvWrite off bs s).slk = s.slk := rfl

/-! `setDom` -/

@[simp] theorem setDom_pending (d : Nat) (x : Domain) (s : State) : (setDom d x s).pending = s.pending := by unfold setDom; split <;> rfl
@[simp] theorem setDom_free (d : Nat) (x : Domain) (s : State) : (setDom d x s).free = s.free := by unfold setDom; split <;> rfl
@[simp] theorem setDom_regs (d : Nat) (x : Domain) (s : State) : (setDom d x s).regs = s.regs := by unfold setDom; split <;> rfl
@[simp] theorem setDom_nv (d : Nat) (x : Domain) (s : State) : (setDom d x s).nv = s.nv := by unfold setDom; split <;> rfl
@[simp] theorem setDom_dev (d : Nat) (x : Domain) (s : State) : (setDom d x s).dev = s.dev := by unfold setDom; split <;> rfl
@[simp] theorem setDom_jnl (d : Nat) (x : Domain) (s : State) : (setDom d x s).jnl = s.jnl := by unfold setDom; split <;> rfl
@[simp] theorem setDom_tx (d : Nat) (x : Domain) (s : State) : (setDom d x s).tx = s.tx := by unfold setDom; split <;> rfl
@[simp] theorem setDom_ps (d : Nat) (x : Domain) (s : State) : (setDom d x s).ps = s.ps := by unfold setDom; split <;> rfl
@[simp] theorem setDom_img (d : Nat) (x : Domain) (s : State) : (setDom d x s).img = s.img := by unfold setDom; split <;> rfl
@[simp] theorem setDom_mem (d : Nat) (x : Domain) (s : State) : (setDom d x s).mem = s.mem := by unfold setDom; split <;> rfl
@[simp] theorem setDom_mgt (d : Nat) (x : Domain) (s : State) : (setDom d x s).mgt = s.mgt := by unfold setDom; split <;> rfl
@[simp] theorem setDom_hif (d : Nat) (x : Domain) (s : State) : (setDom d x s).hif = s.hif := by unfold setDom; split <;> rfl
@[simp] theorem setDom_key (d : Nat) (x : Domain) (s : State) : (setDom d x s).key = s.key := by unfold setDom; split <;> rfl
@[simp] theorem setDom_chn (d : Nat) (x : Domain) (s : State) : (setDom d x s).chn = s.chn := by unfold setDom; split <;> rfl
@[simp] theorem setDom_mtr (d : Nat) (x : Domain) (s : State) : (setDom d x s).mtr = s.mtr := by unfold setDom; split <;> rfl
@[simp] theorem setDom_red (d : Nat) (x : Domain) (s : State) : (setDom d x s).red = s.red := by unfold setDom; split <;> rfl
@[simp] theorem setDom_lpe (d : Nat) (x : Domain) (s : State) : (setDom d x s).lpe = s.lpe := by unfold setDom; split <;> rfl
@[simp] theorem setDom_ce (d : Nat) (x : Domain) (s : State) : (setDom d x s).ce = s.ce := by unfold setDom; split <;> rfl
@[simp] theorem setDom_slv (d : Nat) (x : Domain) (s : State) : (setDom d x s).slv = s.slv := by unfold setDom; split <;> rfl
@[simp] theorem setDom_hyd (d : Nat) (x : Domain) (s : State) : (setDom d x s).hyd = s.hyd := by unfold setDom; split <;> rfl
@[simp] theorem setDom_ftr (d : Nat) (x : Domain) (s : State) : (setDom d x s).ftr = s.ftr := by unfold setDom; split <;> rfl
@[simp] theorem setDom_opt (d : Nat) (x : Domain) (s : State) : (setDom d x s).opt = s.opt := by unfold setDom; split <;> rfl
@[simp] theorem setDom_slk (d : Nat) (x : Domain) (s : State) : (setDom d x s).slk = s.slk := by unfold setDom; split <;> rfl

/-! `setTx` -/

@[simp] theorem setTx_pending (x : TxState) (s : State) : (setTx x s).pending = s.pending := rfl
@[simp] theorem setTx_free (x : TxState) (s : State) : (setTx x s).free = s.free := rfl
@[simp] theorem setTx_regs (x : TxState) (s : State) : (setTx x s).regs = s.regs := rfl
@[simp] theorem setTx_nv (x : TxState) (s : State) : (setTx x s).nv = s.nv := rfl
@[simp] theorem setTx_dev (x : TxState) (s : State) : (setTx x s).dev = s.dev := rfl
@[simp] theorem setTx_pwr (x : TxState) (s : State) : (setTx x s).pwr = s.pwr := rfl
@[simp] theorem setTx_jnl (x : TxState) (s : State) : (setTx x s).jnl = s.jnl := rfl
@[simp] theorem setTx_ps (x : TxState) (s : State) : (setTx x s).ps = s.ps := rfl
@[simp] theorem setTx_img (x : TxState) (s : State) : (setTx x s).img = s.img := rfl
@[simp] theorem setTx_mem (x : TxState) (s : State) : (setTx x s).mem = s.mem := rfl
@[simp] theorem setTx_mgt (x : TxState) (s : State) : (setTx x s).mgt = s.mgt := rfl
@[simp] theorem setTx_hif (x : TxState) (s : State) : (setTx x s).hif = s.hif := rfl
@[simp] theorem setTx_key (x : TxState) (s : State) : (setTx x s).key = s.key := rfl
@[simp] theorem setTx_chn (x : TxState) (s : State) : (setTx x s).chn = s.chn := rfl
@[simp] theorem setTx_mtr (x : TxState) (s : State) : (setTx x s).mtr = s.mtr := rfl
@[simp] theorem setTx_red (x : TxState) (s : State) : (setTx x s).red = s.red := rfl
@[simp] theorem setTx_lpe (x : TxState) (s : State) : (setTx x s).lpe = s.lpe := rfl
@[simp] theorem setTx_ce (x : TxState) (s : State) : (setTx x s).ce = s.ce := rfl
@[simp] theorem setTx_slv (x : TxState) (s : State) : (setTx x s).slv = s.slv := rfl
@[simp] theorem setTx_hyd (x : TxState) (s : State) : (setTx x s).hyd = s.hyd := rfl
@[simp] theorem setTx_ftr (x : TxState) (s : State) : (setTx x s).ftr = s.ftr := rfl
@[simp] theorem setTx_opt (x : TxState) (s : State) : (setTx x s).opt = s.opt := rfl
@[simp] theorem setTx_slk (x : TxState) (s : State) : (setTx x s).slk = s.slk := rfl

/-! `setPs` -/

@[simp] theorem setPs_pending (x : PsState) (s : State) : (setPs x s).pending = s.pending := rfl
@[simp] theorem setPs_free (x : PsState) (s : State) : (setPs x s).free = s.free := rfl
@[simp] theorem setPs_regs (x : PsState) (s : State) : (setPs x s).regs = s.regs := rfl
@[simp] theorem setPs_nv (x : PsState) (s : State) : (setPs x s).nv = s.nv := rfl
@[simp] theorem setPs_dev (x : PsState) (s : State) : (setPs x s).dev = s.dev := rfl
@[simp] theorem setPs_pwr (x : PsState) (s : State) : (setPs x s).pwr = s.pwr := rfl
@[simp] theorem setPs_jnl (x : PsState) (s : State) : (setPs x s).jnl = s.jnl := rfl
@[simp] theorem setPs_tx (x : PsState) (s : State) : (setPs x s).tx = s.tx := rfl
@[simp] theorem setPs_img (x : PsState) (s : State) : (setPs x s).img = s.img := rfl
@[simp] theorem setPs_mem (x : PsState) (s : State) : (setPs x s).mem = s.mem := rfl
@[simp] theorem setPs_mgt (x : PsState) (s : State) : (setPs x s).mgt = s.mgt := rfl
@[simp] theorem setPs_hif (x : PsState) (s : State) : (setPs x s).hif = s.hif := rfl
@[simp] theorem setPs_key (x : PsState) (s : State) : (setPs x s).key = s.key := rfl
@[simp] theorem setPs_chn (x : PsState) (s : State) : (setPs x s).chn = s.chn := rfl
@[simp] theorem setPs_mtr (x : PsState) (s : State) : (setPs x s).mtr = s.mtr := rfl
@[simp] theorem setPs_red (x : PsState) (s : State) : (setPs x s).red = s.red := rfl
@[simp] theorem setPs_lpe (x : PsState) (s : State) : (setPs x s).lpe = s.lpe := rfl
@[simp] theorem setPs_ce (x : PsState) (s : State) : (setPs x s).ce = s.ce := rfl
@[simp] theorem setPs_slv (x : PsState) (s : State) : (setPs x s).slv = s.slv := rfl
@[simp] theorem setPs_hyd (x : PsState) (s : State) : (setPs x s).hyd = s.hyd := rfl
@[simp] theorem setPs_ftr (x : PsState) (s : State) : (setPs x s).ftr = s.ftr := rfl
@[simp] theorem setPs_opt (x : PsState) (s : State) : (setPs x s).opt = s.opt := rfl
@[simp] theorem setPs_slk (x : PsState) (s : State) : (setPs x s).slk = s.slk := rfl

/-! `setCal` -/

@[simp] theorem setCal_pending (x : CalState) (s : State) : (setCal x s).pending = s.pending := rfl
@[simp] theorem setCal_free (x : CalState) (s : State) : (setCal x s).free = s.free := rfl
@[simp] theorem setCal_regs (x : CalState) (s : State) : (setCal x s).regs = s.regs := rfl
@[simp] theorem setCal_nv (x : CalState) (s : State) : (setCal x s).nv = s.nv := rfl
@[simp] theorem setCal_dev (x : CalState) (s : State) : (setCal x s).dev = s.dev := rfl
@[simp] theorem setCal_pwr (x : CalState) (s : State) : (setCal x s).pwr = s.pwr := rfl
@[simp] theorem setCal_jnl (x : CalState) (s : State) : (setCal x s).jnl = s.jnl := rfl
@[simp] theorem setCal_tx (x : CalState) (s : State) : (setCal x s).tx = s.tx := rfl
@[simp] theorem setCal_ps (x : CalState) (s : State) : (setCal x s).ps = s.ps := rfl
@[simp] theorem setCal_img (x : CalState) (s : State) : (setCal x s).img = s.img := rfl
@[simp] theorem setCal_mem (x : CalState) (s : State) : (setCal x s).mem = s.mem := rfl
@[simp] theorem setCal_hif (x : CalState) (s : State) : (setCal x s).hif = s.hif := rfl
@[simp] theorem setCal_key (x : CalState) (s : State) : (setCal x s).key = s.key := rfl
@[simp] theorem setCal_chn (x : CalState) (s : State) : (setCal x s).chn = s.chn := rfl
@[simp] theorem setCal_mtr (x : CalState) (s : State) : (setCal x s).mtr = s.mtr := rfl
@[simp] theorem setCal_red (x : CalState) (s : State) : (setCal x s).red = s.red := rfl
@[simp] theorem setCal_lpe (x : CalState) (s : State) : (setCal x s).lpe = s.lpe := rfl
@[simp] theorem setCal_ce (x : CalState) (s : State) : (setCal x s).ce = s.ce := rfl
@[simp] theorem setCal_slv (x : CalState) (s : State) : (setCal x s).slv = s.slv := rfl
@[simp] theorem setCal_hyd (x : CalState) (s : State) : (setCal x s).hyd = s.hyd := rfl
@[simp] theorem setCal_ftr (x : CalState) (s : State) : (setCal x s).ftr = s.ftr := rfl
@[simp] theorem setCal_opt (x : CalState) (s : State) : (setCal x s).opt = s.opt := rfl
@[simp] theorem setCal_slk (x : CalState) (s : State) : (setCal x s).slk = s.slk := rfl

/-! `setEvr` -/

@[simp] theorem setEvr_pending (x : EvrState) (s : State) : (setEvr x s).pending = s.pending := rfl
@[simp] theorem setEvr_free (x : EvrState) (s : State) : (setEvr x s).free = s.free := rfl
@[simp] theorem setEvr_regs (x : EvrState) (s : State) : (setEvr x s).regs = s.regs := rfl
@[simp] theorem setEvr_nv (x : EvrState) (s : State) : (setEvr x s).nv = s.nv := rfl
@[simp] theorem setEvr_dev (x : EvrState) (s : State) : (setEvr x s).dev = s.dev := rfl
@[simp] theorem setEvr_pwr (x : EvrState) (s : State) : (setEvr x s).pwr = s.pwr := rfl
@[simp] theorem setEvr_jnl (x : EvrState) (s : State) : (setEvr x s).jnl = s.jnl := rfl
@[simp] theorem setEvr_tx (x : EvrState) (s : State) : (setEvr x s).tx = s.tx := rfl
@[simp] theorem setEvr_ps (x : EvrState) (s : State) : (setEvr x s).ps = s.ps := rfl
@[simp] theorem setEvr_img (x : EvrState) (s : State) : (setEvr x s).img = s.img := rfl
@[simp] theorem setEvr_mem (x : EvrState) (s : State) : (setEvr x s).mem = s.mem := rfl
@[simp] theorem setEvr_hif (x : EvrState) (s : State) : (setEvr x s).hif = s.hif := rfl
@[simp] theorem setEvr_key (x : EvrState) (s : State) : (setEvr x s).key = s.key := rfl
@[simp] theorem setEvr_chn (x : EvrState) (s : State) : (setEvr x s).chn = s.chn := rfl
@[simp] theorem setEvr_mtr (x : EvrState) (s : State) : (setEvr x s).mtr = s.mtr := rfl
@[simp] theorem setEvr_red (x : EvrState) (s : State) : (setEvr x s).red = s.red := rfl
@[simp] theorem setEvr_lpe (x : EvrState) (s : State) : (setEvr x s).lpe = s.lpe := rfl
@[simp] theorem setEvr_ce (x : EvrState) (s : State) : (setEvr x s).ce = s.ce := rfl
@[simp] theorem setEvr_slv (x : EvrState) (s : State) : (setEvr x s).slv = s.slv := rfl
@[simp] theorem setEvr_hyd (x : EvrState) (s : State) : (setEvr x s).hyd = s.hyd := rfl
@[simp] theorem setEvr_ftr (x : EvrState) (s : State) : (setEvr x s).ftr = s.ftr := rfl
@[simp] theorem setEvr_opt (x : EvrState) (s : State) : (setEvr x s).opt = s.opt := rfl
@[simp] theorem setEvr_slk (x : EvrState) (s : State) : (setEvr x s).slk = s.slk := rfl

/-! `setKey` -/

@[simp] theorem setKey_pending (x : KeyState) (s : State) : (setKey x s).pending = s.pending := rfl
@[simp] theorem setKey_free (x : KeyState) (s : State) : (setKey x s).free = s.free := rfl
@[simp] theorem setKey_regs (x : KeyState) (s : State) : (setKey x s).regs = s.regs := rfl
@[simp] theorem setKey_nv (x : KeyState) (s : State) : (setKey x s).nv = s.nv := rfl
@[simp] theorem setKey_dev (x : KeyState) (s : State) : (setKey x s).dev = s.dev := rfl
@[simp] theorem setKey_pwr (x : KeyState) (s : State) : (setKey x s).pwr = s.pwr := rfl
@[simp] theorem setKey_jnl (x : KeyState) (s : State) : (setKey x s).jnl = s.jnl := rfl
@[simp] theorem setKey_tx (x : KeyState) (s : State) : (setKey x s).tx = s.tx := rfl
@[simp] theorem setKey_ps (x : KeyState) (s : State) : (setKey x s).ps = s.ps := rfl
@[simp] theorem setKey_img (x : KeyState) (s : State) : (setKey x s).img = s.img := rfl
@[simp] theorem setKey_mem (x : KeyState) (s : State) : (setKey x s).mem = s.mem := rfl
@[simp] theorem setKey_mgt (x : KeyState) (s : State) : (setKey x s).mgt = s.mgt := rfl
@[simp] theorem setKey_hif (x : KeyState) (s : State) : (setKey x s).hif = s.hif := rfl
@[simp] theorem setKey_chn (x : KeyState) (s : State) : (setKey x s).chn = s.chn := rfl
@[simp] theorem setKey_mtr (x : KeyState) (s : State) : (setKey x s).mtr = s.mtr := rfl
@[simp] theorem setKey_red (x : KeyState) (s : State) : (setKey x s).red = s.red := rfl
@[simp] theorem setKey_lpe (x : KeyState) (s : State) : (setKey x s).lpe = s.lpe := rfl
@[simp] theorem setKey_ce (x : KeyState) (s : State) : (setKey x s).ce = s.ce := rfl
@[simp] theorem setKey_slv (x : KeyState) (s : State) : (setKey x s).slv = s.slv := rfl
@[simp] theorem setKey_hyd (x : KeyState) (s : State) : (setKey x s).hyd = s.hyd := rfl
@[simp] theorem setKey_ftr (x : KeyState) (s : State) : (setKey x s).ftr = s.ftr := rfl
@[simp] theorem setKey_opt (x : KeyState) (s : State) : (setKey x s).opt = s.opt := rfl
@[simp] theorem setKey_slk (x : KeyState) (s : State) : (setKey x s).slk = s.slk := rfl

/-! `setKeyEntry` -/

@[simp] theorem setKeyEntry_pending (e : Nat) (x : KeyEntry) (s : State) : (setKeyEntry e x s).pending = s.pending := rfl
@[simp] theorem setKeyEntry_free (e : Nat) (x : KeyEntry) (s : State) : (setKeyEntry e x s).free = s.free := rfl
@[simp] theorem setKeyEntry_regs (e : Nat) (x : KeyEntry) (s : State) : (setKeyEntry e x s).regs = s.regs := rfl
@[simp] theorem setKeyEntry_nv (e : Nat) (x : KeyEntry) (s : State) : (setKeyEntry e x s).nv = s.nv := rfl
@[simp] theorem setKeyEntry_dev (e : Nat) (x : KeyEntry) (s : State) : (setKeyEntry e x s).dev = s.dev := rfl
@[simp] theorem setKeyEntry_pwr (e : Nat) (x : KeyEntry) (s : State) : (setKeyEntry e x s).pwr = s.pwr := rfl
@[simp] theorem setKeyEntry_jnl (e : Nat) (x : KeyEntry) (s : State) : (setKeyEntry e x s).jnl = s.jnl := rfl
@[simp] theorem setKeyEntry_tx (e : Nat) (x : KeyEntry) (s : State) : (setKeyEntry e x s).tx = s.tx := rfl
@[simp] theorem setKeyEntry_ps (e : Nat) (x : KeyEntry) (s : State) : (setKeyEntry e x s).ps = s.ps := rfl
@[simp] theorem setKeyEntry_img (e : Nat) (x : KeyEntry) (s : State) : (setKeyEntry e x s).img = s.img := rfl
@[simp] theorem setKeyEntry_mem (e : Nat) (x : KeyEntry) (s : State) : (setKeyEntry e x s).mem = s.mem := rfl
@[simp] theorem setKeyEntry_mgt (e : Nat) (x : KeyEntry) (s : State) : (setKeyEntry e x s).mgt = s.mgt := rfl
@[simp] theorem setKeyEntry_hif (e : Nat) (x : KeyEntry) (s : State) : (setKeyEntry e x s).hif = s.hif := rfl
@[simp] theorem setKeyEntry_chn (e : Nat) (x : KeyEntry) (s : State) : (setKeyEntry e x s).chn = s.chn := rfl
@[simp] theorem setKeyEntry_mtr (e : Nat) (x : KeyEntry) (s : State) : (setKeyEntry e x s).mtr = s.mtr := rfl
@[simp] theorem setKeyEntry_red (e : Nat) (x : KeyEntry) (s : State) : (setKeyEntry e x s).red = s.red := rfl
@[simp] theorem setKeyEntry_lpe (e : Nat) (x : KeyEntry) (s : State) : (setKeyEntry e x s).lpe = s.lpe := rfl
@[simp] theorem setKeyEntry_ce (e : Nat) (x : KeyEntry) (s : State) : (setKeyEntry e x s).ce = s.ce := rfl
@[simp] theorem setKeyEntry_slv (e : Nat) (x : KeyEntry) (s : State) : (setKeyEntry e x s).slv = s.slv := rfl
@[simp] theorem setKeyEntry_hyd (e : Nat) (x : KeyEntry) (s : State) : (setKeyEntry e x s).hyd = s.hyd := rfl
@[simp] theorem setKeyEntry_ftr (e : Nat) (x : KeyEntry) (s : State) : (setKeyEntry e x s).ftr = s.ftr := rfl
@[simp] theorem setKeyEntry_opt (e : Nat) (x : KeyEntry) (s : State) : (setKeyEntry e x s).opt = s.opt := rfl
@[simp] theorem setKeyEntry_slk (e : Nat) (x : KeyEntry) (s : State) : (setKeyEntry e x s).slk = s.slk := rfl

/-! `setChan` -/

@[simp] theorem setChan_pending (c : Nat) (x : ChanState) (s : State) : (setChan c x s).pending = s.pending := rfl
@[simp] theorem setChan_free (c : Nat) (x : ChanState) (s : State) : (setChan c x s).free = s.free := rfl
@[simp] theorem setChan_regs (c : Nat) (x : ChanState) (s : State) : (setChan c x s).regs = s.regs := rfl
@[simp] theorem setChan_nv (c : Nat) (x : ChanState) (s : State) : (setChan c x s).nv = s.nv := rfl
@[simp] theorem setChan_dev (c : Nat) (x : ChanState) (s : State) : (setChan c x s).dev = s.dev := rfl
@[simp] theorem setChan_pwr (c : Nat) (x : ChanState) (s : State) : (setChan c x s).pwr = s.pwr := rfl
@[simp] theorem setChan_jnl (c : Nat) (x : ChanState) (s : State) : (setChan c x s).jnl = s.jnl := rfl
@[simp] theorem setChan_tx (c : Nat) (x : ChanState) (s : State) : (setChan c x s).tx = s.tx := rfl
@[simp] theorem setChan_ps (c : Nat) (x : ChanState) (s : State) : (setChan c x s).ps = s.ps := rfl
@[simp] theorem setChan_img (c : Nat) (x : ChanState) (s : State) : (setChan c x s).img = s.img := rfl
@[simp] theorem setChan_mem (c : Nat) (x : ChanState) (s : State) : (setChan c x s).mem = s.mem := rfl
@[simp] theorem setChan_mgt (c : Nat) (x : ChanState) (s : State) : (setChan c x s).mgt = s.mgt := rfl
@[simp] theorem setChan_hif (c : Nat) (x : ChanState) (s : State) : (setChan c x s).hif = s.hif := rfl
@[simp] theorem setChan_key (c : Nat) (x : ChanState) (s : State) : (setChan c x s).key = s.key := rfl
@[simp] theorem setChan_mtr (c : Nat) (x : ChanState) (s : State) : (setChan c x s).mtr = s.mtr := rfl
@[simp] theorem setChan_red (c : Nat) (x : ChanState) (s : State) : (setChan c x s).red = s.red := rfl
@[simp] theorem setChan_lpe (c : Nat) (x : ChanState) (s : State) : (setChan c x s).lpe = s.lpe := rfl
@[simp] theorem setChan_ce (c : Nat) (x : ChanState) (s : State) : (setChan c x s).ce = s.ce := rfl
@[simp] theorem setChan_slv (c : Nat) (x : ChanState) (s : State) : (setChan c x s).slv = s.slv := rfl
@[simp] theorem setChan_hyd (c : Nat) (x : ChanState) (s : State) : (setChan c x s).hyd = s.hyd := rfl
@[simp] theorem setChan_ftr (c : Nat) (x : ChanState) (s : State) : (setChan c x s).ftr = s.ftr := rfl
@[simp] theorem setChan_opt (c : Nat) (x : ChanState) (s : State) : (setChan c x s).opt = s.opt := rfl
@[simp] theorem setChan_slk (c : Nat) (x : ChanState) (s : State) : (setChan c x s).slk = s.slk := rfl

/-! `meterSet` -/

@[simp] theorem meterSet_pending (m : Nat) (x : MeterSt) (s : State) : (meterSet m x s).pending = s.pending := rfl
@[simp] theorem meterSet_free (m : Nat) (x : MeterSt) (s : State) : (meterSet m x s).free = s.free := rfl
@[simp] theorem meterSet_regs (m : Nat) (x : MeterSt) (s : State) : (meterSet m x s).regs = s.regs := rfl
@[simp] theorem meterSet_nv (m : Nat) (x : MeterSt) (s : State) : (meterSet m x s).nv = s.nv := rfl
@[simp] theorem meterSet_dev (m : Nat) (x : MeterSt) (s : State) : (meterSet m x s).dev = s.dev := rfl
@[simp] theorem meterSet_pwr (m : Nat) (x : MeterSt) (s : State) : (meterSet m x s).pwr = s.pwr := rfl
@[simp] theorem meterSet_jnl (m : Nat) (x : MeterSt) (s : State) : (meterSet m x s).jnl = s.jnl := rfl
@[simp] theorem meterSet_tx (m : Nat) (x : MeterSt) (s : State) : (meterSet m x s).tx = s.tx := rfl
@[simp] theorem meterSet_ps (m : Nat) (x : MeterSt) (s : State) : (meterSet m x s).ps = s.ps := rfl
@[simp] theorem meterSet_img (m : Nat) (x : MeterSt) (s : State) : (meterSet m x s).img = s.img := rfl
@[simp] theorem meterSet_mem (m : Nat) (x : MeterSt) (s : State) : (meterSet m x s).mem = s.mem := rfl
@[simp] theorem meterSet_mgt (m : Nat) (x : MeterSt) (s : State) : (meterSet m x s).mgt = s.mgt := rfl
@[simp] theorem meterSet_hif (m : Nat) (x : MeterSt) (s : State) : (meterSet m x s).hif = s.hif := rfl
@[simp] theorem meterSet_key (m : Nat) (x : MeterSt) (s : State) : (meterSet m x s).key = s.key := rfl
@[simp] theorem meterSet_chn (m : Nat) (x : MeterSt) (s : State) : (meterSet m x s).chn = s.chn := rfl
@[simp] theorem meterSet_red (m : Nat) (x : MeterSt) (s : State) : (meterSet m x s).red = s.red := rfl
@[simp] theorem meterSet_lpe (m : Nat) (x : MeterSt) (s : State) : (meterSet m x s).lpe = s.lpe := rfl
@[simp] theorem meterSet_ce (m : Nat) (x : MeterSt) (s : State) : (meterSet m x s).ce = s.ce := rfl
@[simp] theorem meterSet_slv (m : Nat) (x : MeterSt) (s : State) : (meterSet m x s).slv = s.slv := rfl
@[simp] theorem meterSet_hyd (m : Nat) (x : MeterSt) (s : State) : (meterSet m x s).hyd = s.hyd := rfl
@[simp] theorem meterSet_ftr (m : Nat) (x : MeterSt) (s : State) : (meterSet m x s).ftr = s.ftr := rfl
@[simp] theorem meterSet_opt (m : Nat) (x : MeterSt) (s : State) : (meterSet m x s).opt = s.opt := rfl
@[simp] theorem meterSet_slk (m : Nat) (x : MeterSt) (s : State) : (meterSet m x s).slk = s.slk := rfl

/-! `setRed` -/

@[simp] theorem setRed_pending (x : RedState) (s : State) : (setRed x s).pending = s.pending := rfl
@[simp] theorem setRed_free (x : RedState) (s : State) : (setRed x s).free = s.free := rfl
@[simp] theorem setRed_regs (x : RedState) (s : State) : (setRed x s).regs = s.regs := rfl
@[simp] theorem setRed_nv (x : RedState) (s : State) : (setRed x s).nv = s.nv := rfl
@[simp] theorem setRed_dev (x : RedState) (s : State) : (setRed x s).dev = s.dev := rfl
@[simp] theorem setRed_pwr (x : RedState) (s : State) : (setRed x s).pwr = s.pwr := rfl
@[simp] theorem setRed_jnl (x : RedState) (s : State) : (setRed x s).jnl = s.jnl := rfl
@[simp] theorem setRed_tx (x : RedState) (s : State) : (setRed x s).tx = s.tx := rfl
@[simp] theorem setRed_ps (x : RedState) (s : State) : (setRed x s).ps = s.ps := rfl
@[simp] theorem setRed_img (x : RedState) (s : State) : (setRed x s).img = s.img := rfl
@[simp] theorem setRed_mem (x : RedState) (s : State) : (setRed x s).mem = s.mem := rfl
@[simp] theorem setRed_mgt (x : RedState) (s : State) : (setRed x s).mgt = s.mgt := rfl
@[simp] theorem setRed_hif (x : RedState) (s : State) : (setRed x s).hif = s.hif := rfl
@[simp] theorem setRed_key (x : RedState) (s : State) : (setRed x s).key = s.key := rfl
@[simp] theorem setRed_chn (x : RedState) (s : State) : (setRed x s).chn = s.chn := rfl
@[simp] theorem setRed_mtr (x : RedState) (s : State) : (setRed x s).mtr = s.mtr := rfl
@[simp] theorem setRed_lpe (x : RedState) (s : State) : (setRed x s).lpe = s.lpe := rfl
@[simp] theorem setRed_ce (x : RedState) (s : State) : (setRed x s).ce = s.ce := rfl
@[simp] theorem setRed_slv (x : RedState) (s : State) : (setRed x s).slv = s.slv := rfl
@[simp] theorem setRed_hyd (x : RedState) (s : State) : (setRed x s).hyd = s.hyd := rfl
@[simp] theorem setRed_ftr (x : RedState) (s : State) : (setRed x s).ftr = s.ftr := rfl
@[simp] theorem setRed_opt (x : RedState) (s : State) : (setRed x s).opt = s.opt := rfl
@[simp] theorem setRed_slk (x : RedState) (s : State) : (setRed x s).slk = s.slk := rfl

/-! `loopSet` -/

@[simp] theorem loopSet_pending (k : Nat) (x : LoopSt) (s : State) : (loopSet k x s).pending = s.pending := rfl
@[simp] theorem loopSet_free (k : Nat) (x : LoopSt) (s : State) : (loopSet k x s).free = s.free := rfl
@[simp] theorem loopSet_regs (k : Nat) (x : LoopSt) (s : State) : (loopSet k x s).regs = s.regs := rfl
@[simp] theorem loopSet_nv (k : Nat) (x : LoopSt) (s : State) : (loopSet k x s).nv = s.nv := rfl
@[simp] theorem loopSet_dev (k : Nat) (x : LoopSt) (s : State) : (loopSet k x s).dev = s.dev := rfl
@[simp] theorem loopSet_pwr (k : Nat) (x : LoopSt) (s : State) : (loopSet k x s).pwr = s.pwr := rfl
@[simp] theorem loopSet_jnl (k : Nat) (x : LoopSt) (s : State) : (loopSet k x s).jnl = s.jnl := rfl
@[simp] theorem loopSet_tx (k : Nat) (x : LoopSt) (s : State) : (loopSet k x s).tx = s.tx := rfl
@[simp] theorem loopSet_ps (k : Nat) (x : LoopSt) (s : State) : (loopSet k x s).ps = s.ps := rfl
@[simp] theorem loopSet_img (k : Nat) (x : LoopSt) (s : State) : (loopSet k x s).img = s.img := rfl
@[simp] theorem loopSet_mem (k : Nat) (x : LoopSt) (s : State) : (loopSet k x s).mem = s.mem := rfl
@[simp] theorem loopSet_mgt (k : Nat) (x : LoopSt) (s : State) : (loopSet k x s).mgt = s.mgt := rfl
@[simp] theorem loopSet_hif (k : Nat) (x : LoopSt) (s : State) : (loopSet k x s).hif = s.hif := rfl
@[simp] theorem loopSet_key (k : Nat) (x : LoopSt) (s : State) : (loopSet k x s).key = s.key := rfl
@[simp] theorem loopSet_chn (k : Nat) (x : LoopSt) (s : State) : (loopSet k x s).chn = s.chn := rfl
@[simp] theorem loopSet_mtr (k : Nat) (x : LoopSt) (s : State) : (loopSet k x s).mtr = s.mtr := rfl
@[simp] theorem loopSet_red (k : Nat) (x : LoopSt) (s : State) : (loopSet k x s).red = s.red := rfl
@[simp] theorem loopSet_ce (k : Nat) (x : LoopSt) (s : State) : (loopSet k x s).ce = s.ce := rfl
@[simp] theorem loopSet_slv (k : Nat) (x : LoopSt) (s : State) : (loopSet k x s).slv = s.slv := rfl
@[simp] theorem loopSet_hyd (k : Nat) (x : LoopSt) (s : State) : (loopSet k x s).hyd = s.hyd := rfl
@[simp] theorem loopSet_ftr (k : Nat) (x : LoopSt) (s : State) : (loopSet k x s).ftr = s.ftr := rfl
@[simp] theorem loopSet_opt (k : Nat) (x : LoopSt) (s : State) : (loopSet k x s).opt = s.opt := rfl
@[simp] theorem loopSet_slk (k : Nat) (x : LoopSt) (s : State) : (loopSet k x s).slk = s.slk := rfl

/-! `ceSet` -/

@[simp] theorem ceSet_pending (e : Nat) (x : EngineSt) (s : State) : (ceSet e x s).pending = s.pending := rfl
@[simp] theorem ceSet_free (e : Nat) (x : EngineSt) (s : State) : (ceSet e x s).free = s.free := rfl
@[simp] theorem ceSet_regs (e : Nat) (x : EngineSt) (s : State) : (ceSet e x s).regs = s.regs := rfl
@[simp] theorem ceSet_nv (e : Nat) (x : EngineSt) (s : State) : (ceSet e x s).nv = s.nv := rfl
@[simp] theorem ceSet_dev (e : Nat) (x : EngineSt) (s : State) : (ceSet e x s).dev = s.dev := rfl
@[simp] theorem ceSet_pwr (e : Nat) (x : EngineSt) (s : State) : (ceSet e x s).pwr = s.pwr := rfl
@[simp] theorem ceSet_jnl (e : Nat) (x : EngineSt) (s : State) : (ceSet e x s).jnl = s.jnl := rfl
@[simp] theorem ceSet_tx (e : Nat) (x : EngineSt) (s : State) : (ceSet e x s).tx = s.tx := rfl
@[simp] theorem ceSet_ps (e : Nat) (x : EngineSt) (s : State) : (ceSet e x s).ps = s.ps := rfl
@[simp] theorem ceSet_img (e : Nat) (x : EngineSt) (s : State) : (ceSet e x s).img = s.img := rfl
@[simp] theorem ceSet_mem (e : Nat) (x : EngineSt) (s : State) : (ceSet e x s).mem = s.mem := rfl
@[simp] theorem ceSet_mgt (e : Nat) (x : EngineSt) (s : State) : (ceSet e x s).mgt = s.mgt := rfl
@[simp] theorem ceSet_hif (e : Nat) (x : EngineSt) (s : State) : (ceSet e x s).hif = s.hif := rfl
@[simp] theorem ceSet_key (e : Nat) (x : EngineSt) (s : State) : (ceSet e x s).key = s.key := rfl
@[simp] theorem ceSet_chn (e : Nat) (x : EngineSt) (s : State) : (ceSet e x s).chn = s.chn := rfl
@[simp] theorem ceSet_mtr (e : Nat) (x : EngineSt) (s : State) : (ceSet e x s).mtr = s.mtr := rfl
@[simp] theorem ceSet_red (e : Nat) (x : EngineSt) (s : State) : (ceSet e x s).red = s.red := rfl
@[simp] theorem ceSet_lpe (e : Nat) (x : EngineSt) (s : State) : (ceSet e x s).lpe = s.lpe := rfl
@[simp] theorem ceSet_slv (e : Nat) (x : EngineSt) (s : State) : (ceSet e x s).slv = s.slv := rfl
@[simp] theorem ceSet_hyd (e : Nat) (x : EngineSt) (s : State) : (ceSet e x s).hyd = s.hyd := rfl
@[simp] theorem ceSet_ftr (e : Nat) (x : EngineSt) (s : State) : (ceSet e x s).ftr = s.ftr := rfl
@[simp] theorem ceSet_opt (e : Nat) (x : EngineSt) (s : State) : (ceSet e x s).opt = s.opt := rfl
@[simp] theorem ceSet_slk (e : Nat) (x : EngineSt) (s : State) : (ceSet e x s).slk = s.slk := rfl

/-! `taskSet` -/

@[simp] theorem taskSet_pending (e k : Nat) (x : TaskSt) (s : State) : (taskSet e k x s).pending = s.pending := rfl
@[simp] theorem taskSet_free (e k : Nat) (x : TaskSt) (s : State) : (taskSet e k x s).free = s.free := rfl
@[simp] theorem taskSet_regs (e k : Nat) (x : TaskSt) (s : State) : (taskSet e k x s).regs = s.regs := rfl
@[simp] theorem taskSet_nv (e k : Nat) (x : TaskSt) (s : State) : (taskSet e k x s).nv = s.nv := rfl
@[simp] theorem taskSet_dev (e k : Nat) (x : TaskSt) (s : State) : (taskSet e k x s).dev = s.dev := rfl
@[simp] theorem taskSet_pwr (e k : Nat) (x : TaskSt) (s : State) : (taskSet e k x s).pwr = s.pwr := rfl
@[simp] theorem taskSet_jnl (e k : Nat) (x : TaskSt) (s : State) : (taskSet e k x s).jnl = s.jnl := rfl
@[simp] theorem taskSet_tx (e k : Nat) (x : TaskSt) (s : State) : (taskSet e k x s).tx = s.tx := rfl
@[simp] theorem taskSet_ps (e k : Nat) (x : TaskSt) (s : State) : (taskSet e k x s).ps = s.ps := rfl
@[simp] theorem taskSet_img (e k : Nat) (x : TaskSt) (s : State) : (taskSet e k x s).img = s.img := rfl
@[simp] theorem taskSet_mem (e k : Nat) (x : TaskSt) (s : State) : (taskSet e k x s).mem = s.mem := rfl
@[simp] theorem taskSet_mgt (e k : Nat) (x : TaskSt) (s : State) : (taskSet e k x s).mgt = s.mgt := rfl
@[simp] theorem taskSet_hif (e k : Nat) (x : TaskSt) (s : State) : (taskSet e k x s).hif = s.hif := rfl
@[simp] theorem taskSet_key (e k : Nat) (x : TaskSt) (s : State) : (taskSet e k x s).key = s.key := rfl
@[simp] theorem taskSet_chn (e k : Nat) (x : TaskSt) (s : State) : (taskSet e k x s).chn = s.chn := rfl
@[simp] theorem taskSet_mtr (e k : Nat) (x : TaskSt) (s : State) : (taskSet e k x s).mtr = s.mtr := rfl
@[simp] theorem taskSet_red (e k : Nat) (x : TaskSt) (s : State) : (taskSet e k x s).red = s.red := rfl
@[simp] theorem taskSet_lpe (e k : Nat) (x : TaskSt) (s : State) : (taskSet e k x s).lpe = s.lpe := rfl
@[simp] theorem taskSet_slv (e k : Nat) (x : TaskSt) (s : State) : (taskSet e k x s).slv = s.slv := rfl
@[simp] theorem taskSet_hyd (e k : Nat) (x : TaskSt) (s : State) : (taskSet e k x s).hyd = s.hyd := rfl
@[simp] theorem taskSet_ftr (e k : Nat) (x : TaskSt) (s : State) : (taskSet e k x s).ftr = s.ftr := rfl
@[simp] theorem taskSet_opt (e k : Nat) (x : TaskSt) (s : State) : (taskSet e k x s).opt = s.opt := rfl
@[simp] theorem taskSet_slk (e k : Nat) (x : TaskSt) (s : State) : (taskSet e k x s).slk = s.slk := rfl

/-! `pipeSet` -/

@[simp] theorem pipeSet_pending (e : Nat) (ws : List Wagon) (s : State) : (pipeSet e ws s).pending = s.pending := rfl
@[simp] theorem pipeSet_free (e : Nat) (ws : List Wagon) (s : State) : (pipeSet e ws s).free = s.free := rfl
@[simp] theorem pipeSet_regs (e : Nat) (ws : List Wagon) (s : State) : (pipeSet e ws s).regs = s.regs := rfl
@[simp] theorem pipeSet_nv (e : Nat) (ws : List Wagon) (s : State) : (pipeSet e ws s).nv = s.nv := rfl
@[simp] theorem pipeSet_dev (e : Nat) (ws : List Wagon) (s : State) : (pipeSet e ws s).dev = s.dev := rfl
@[simp] theorem pipeSet_pwr (e : Nat) (ws : List Wagon) (s : State) : (pipeSet e ws s).pwr = s.pwr := rfl
@[simp] theorem pipeSet_jnl (e : Nat) (ws : List Wagon) (s : State) : (pipeSet e ws s).jnl = s.jnl := rfl
@[simp] theorem pipeSet_tx (e : Nat) (ws : List Wagon) (s : State) : (pipeSet e ws s).tx = s.tx := rfl
@[simp] theorem pipeSet_ps (e : Nat) (ws : List Wagon) (s : State) : (pipeSet e ws s).ps = s.ps := rfl
@[simp] theorem pipeSet_img (e : Nat) (ws : List Wagon) (s : State) : (pipeSet e ws s).img = s.img := rfl
@[simp] theorem pipeSet_mem (e : Nat) (ws : List Wagon) (s : State) : (pipeSet e ws s).mem = s.mem := rfl
@[simp] theorem pipeSet_mgt (e : Nat) (ws : List Wagon) (s : State) : (pipeSet e ws s).mgt = s.mgt := rfl
@[simp] theorem pipeSet_hif (e : Nat) (ws : List Wagon) (s : State) : (pipeSet e ws s).hif = s.hif := rfl
@[simp] theorem pipeSet_key (e : Nat) (ws : List Wagon) (s : State) : (pipeSet e ws s).key = s.key := rfl
@[simp] theorem pipeSet_chn (e : Nat) (ws : List Wagon) (s : State) : (pipeSet e ws s).chn = s.chn := rfl
@[simp] theorem pipeSet_mtr (e : Nat) (ws : List Wagon) (s : State) : (pipeSet e ws s).mtr = s.mtr := rfl
@[simp] theorem pipeSet_red (e : Nat) (ws : List Wagon) (s : State) : (pipeSet e ws s).red = s.red := rfl
@[simp] theorem pipeSet_lpe (e : Nat) (ws : List Wagon) (s : State) : (pipeSet e ws s).lpe = s.lpe := rfl
@[simp] theorem pipeSet_ce (e : Nat) (ws : List Wagon) (s : State) : (pipeSet e ws s).ce = s.ce := rfl
@[simp] theorem pipeSet_slv (e : Nat) (ws : List Wagon) (s : State) : (pipeSet e ws s).slv = s.slv := rfl
@[simp] theorem pipeSet_hyd (e : Nat) (ws : List Wagon) (s : State) : (pipeSet e ws s).hyd = s.hyd := rfl
@[simp] theorem pipeSet_opt (e : Nat) (ws : List Wagon) (s : State) : (pipeSet e ws s).opt = s.opt := rfl
@[simp] theorem pipeSet_slk (e : Nat) (ws : List Wagon) (s : State) : (pipeSet e ws s).slk = s.slk := rfl

/-! `setSlk` -/

@[simp] theorem setSlk_pending (x : SlkState) (s : State) : (setSlk x s).pending = s.pending := rfl
@[simp] theorem setSlk_free (x : SlkState) (s : State) : (setSlk x s).free = s.free := rfl
@[simp] theorem setSlk_regs (x : SlkState) (s : State) : (setSlk x s).regs = s.regs := rfl
@[simp] theorem setSlk_nv (x : SlkState) (s : State) : (setSlk x s).nv = s.nv := rfl
@[simp] theorem setSlk_dev (x : SlkState) (s : State) : (setSlk x s).dev = s.dev := rfl
@[simp] theorem setSlk_pwr (x : SlkState) (s : State) : (setSlk x s).pwr = s.pwr := rfl
@[simp] theorem setSlk_jnl (x : SlkState) (s : State) : (setSlk x s).jnl = s.jnl := rfl
@[simp] theorem setSlk_tx (x : SlkState) (s : State) : (setSlk x s).tx = s.tx := rfl
@[simp] theorem setSlk_ps (x : SlkState) (s : State) : (setSlk x s).ps = s.ps := rfl
@[simp] theorem setSlk_img (x : SlkState) (s : State) : (setSlk x s).img = s.img := rfl
@[simp] theorem setSlk_mem (x : SlkState) (s : State) : (setSlk x s).mem = s.mem := rfl
@[simp] theorem setSlk_mgt (x : SlkState) (s : State) : (setSlk x s).mgt = s.mgt := rfl
@[simp] theorem setSlk_hif (x : SlkState) (s : State) : (setSlk x s).hif = s.hif := rfl
@[simp] theorem setSlk_key (x : SlkState) (s : State) : (setSlk x s).key = s.key := rfl
@[simp] theorem setSlk_chn (x : SlkState) (s : State) : (setSlk x s).chn = s.chn := rfl
@[simp] theorem setSlk_mtr (x : SlkState) (s : State) : (setSlk x s).mtr = s.mtr := rfl
@[simp] theorem setSlk_red (x : SlkState) (s : State) : (setSlk x s).red = s.red := rfl
@[simp] theorem setSlk_lpe (x : SlkState) (s : State) : (setSlk x s).lpe = s.lpe := rfl
@[simp] theorem setSlk_ce (x : SlkState) (s : State) : (setSlk x s).ce = s.ce := rfl
@[simp] theorem setSlk_slv (x : SlkState) (s : State) : (setSlk x s).slv = s.slv := rfl
@[simp] theorem setSlk_hyd (x : SlkState) (s : State) : (setSlk x s).hyd = s.hyd := rfl
@[simp] theorem setSlk_ftr (x : SlkState) (s : State) : (setSlk x s).ftr = s.ftr := rfl
@[simp] theorem setSlk_opt (x : SlkState) (s : State) : (setSlk x s).opt = s.opt := rfl

/-! `setLine` -/

@[simp] theorem setLine_pending (p : Nat) (x : LineSt) (s : State) : (setLine p x s).pending = s.pending := rfl
@[simp] theorem setLine_free (p : Nat) (x : LineSt) (s : State) : (setLine p x s).free = s.free := rfl
@[simp] theorem setLine_regs (p : Nat) (x : LineSt) (s : State) : (setLine p x s).regs = s.regs := rfl
@[simp] theorem setLine_nv (p : Nat) (x : LineSt) (s : State) : (setLine p x s).nv = s.nv := rfl
@[simp] theorem setLine_dev (p : Nat) (x : LineSt) (s : State) : (setLine p x s).dev = s.dev := rfl
@[simp] theorem setLine_pwr (p : Nat) (x : LineSt) (s : State) : (setLine p x s).pwr = s.pwr := rfl
@[simp] theorem setLine_jnl (p : Nat) (x : LineSt) (s : State) : (setLine p x s).jnl = s.jnl := rfl
@[simp] theorem setLine_tx (p : Nat) (x : LineSt) (s : State) : (setLine p x s).tx = s.tx := rfl
@[simp] theorem setLine_ps (p : Nat) (x : LineSt) (s : State) : (setLine p x s).ps = s.ps := rfl
@[simp] theorem setLine_img (p : Nat) (x : LineSt) (s : State) : (setLine p x s).img = s.img := rfl
@[simp] theorem setLine_mem (p : Nat) (x : LineSt) (s : State) : (setLine p x s).mem = s.mem := rfl
@[simp] theorem setLine_mgt (p : Nat) (x : LineSt) (s : State) : (setLine p x s).mgt = s.mgt := rfl
@[simp] theorem setLine_hif (p : Nat) (x : LineSt) (s : State) : (setLine p x s).hif = s.hif := rfl
@[simp] theorem setLine_key (p : Nat) (x : LineSt) (s : State) : (setLine p x s).key = s.key := rfl
@[simp] theorem setLine_chn (p : Nat) (x : LineSt) (s : State) : (setLine p x s).chn = s.chn := rfl
@[simp] theorem setLine_mtr (p : Nat) (x : LineSt) (s : State) : (setLine p x s).mtr = s.mtr := rfl
@[simp] theorem setLine_red (p : Nat) (x : LineSt) (s : State) : (setLine p x s).red = s.red := rfl
@[simp] theorem setLine_lpe (p : Nat) (x : LineSt) (s : State) : (setLine p x s).lpe = s.lpe := rfl
@[simp] theorem setLine_ce (p : Nat) (x : LineSt) (s : State) : (setLine p x s).ce = s.ce := rfl
@[simp] theorem setLine_slv (p : Nat) (x : LineSt) (s : State) : (setLine p x s).slv = s.slv := rfl
@[simp] theorem setLine_hyd (p : Nat) (x : LineSt) (s : State) : (setLine p x s).hyd = s.hyd := rfl
@[simp] theorem setLine_ftr (p : Nat) (x : LineSt) (s : State) : (setLine p x s).ftr = s.ftr := rfl
@[simp] theorem setLine_opt (p : Nat) (x : LineSt) (s : State) : (setLine p x s).opt = s.opt := rfl

/-! `setStn` -/

@[simp] theorem setStn_pending (n : Nat) (x : StnSt) (s : State) : (setStn n x s).pending = s.pending := rfl
@[simp] theorem setStn_free (n : Nat) (x : StnSt) (s : State) : (setStn n x s).free = s.free := rfl
@[simp] theorem setStn_regs (n : Nat) (x : StnSt) (s : State) : (setStn n x s).regs = s.regs := rfl
@[simp] theorem setStn_nv (n : Nat) (x : StnSt) (s : State) : (setStn n x s).nv = s.nv := rfl
@[simp] theorem setStn_dev (n : Nat) (x : StnSt) (s : State) : (setStn n x s).dev = s.dev := rfl
@[simp] theorem setStn_pwr (n : Nat) (x : StnSt) (s : State) : (setStn n x s).pwr = s.pwr := rfl
@[simp] theorem setStn_jnl (n : Nat) (x : StnSt) (s : State) : (setStn n x s).jnl = s.jnl := rfl
@[simp] theorem setStn_tx (n : Nat) (x : StnSt) (s : State) : (setStn n x s).tx = s.tx := rfl
@[simp] theorem setStn_ps (n : Nat) (x : StnSt) (s : State) : (setStn n x s).ps = s.ps := rfl
@[simp] theorem setStn_img (n : Nat) (x : StnSt) (s : State) : (setStn n x s).img = s.img := rfl
@[simp] theorem setStn_mem (n : Nat) (x : StnSt) (s : State) : (setStn n x s).mem = s.mem := rfl
@[simp] theorem setStn_mgt (n : Nat) (x : StnSt) (s : State) : (setStn n x s).mgt = s.mgt := rfl
@[simp] theorem setStn_hif (n : Nat) (x : StnSt) (s : State) : (setStn n x s).hif = s.hif := rfl
@[simp] theorem setStn_key (n : Nat) (x : StnSt) (s : State) : (setStn n x s).key = s.key := rfl
@[simp] theorem setStn_chn (n : Nat) (x : StnSt) (s : State) : (setStn n x s).chn = s.chn := rfl
@[simp] theorem setStn_mtr (n : Nat) (x : StnSt) (s : State) : (setStn n x s).mtr = s.mtr := rfl
@[simp] theorem setStn_red (n : Nat) (x : StnSt) (s : State) : (setStn n x s).red = s.red := rfl
@[simp] theorem setStn_lpe (n : Nat) (x : StnSt) (s : State) : (setStn n x s).lpe = s.lpe := rfl
@[simp] theorem setStn_ce (n : Nat) (x : StnSt) (s : State) : (setStn n x s).ce = s.ce := rfl
@[simp] theorem setStn_slv (n : Nat) (x : StnSt) (s : State) : (setStn n x s).slv = s.slv := rfl
@[simp] theorem setStn_hyd (n : Nat) (x : StnSt) (s : State) : (setStn n x s).hyd = s.hyd := rfl
@[simp] theorem setStn_ftr (n : Nat) (x : StnSt) (s : State) : (setStn n x s).ftr = s.ftr := rfl
@[simp] theorem setStn_opt (n : Nat) (x : StnSt) (s : State) : (setStn n x s).opt = s.opt := rfl

/-! `setThru` -/

@[simp] theorem setThru_pending (p : Nat) (x : ThruSt) (s : State) : (setThru p x s).pending = s.pending := rfl
@[simp] theorem setThru_free (p : Nat) (x : ThruSt) (s : State) : (setThru p x s).free = s.free := rfl
@[simp] theorem setThru_regs (p : Nat) (x : ThruSt) (s : State) : (setThru p x s).regs = s.regs := rfl
@[simp] theorem setThru_nv (p : Nat) (x : ThruSt) (s : State) : (setThru p x s).nv = s.nv := rfl
@[simp] theorem setThru_dev (p : Nat) (x : ThruSt) (s : State) : (setThru p x s).dev = s.dev := rfl
@[simp] theorem setThru_pwr (p : Nat) (x : ThruSt) (s : State) : (setThru p x s).pwr = s.pwr := rfl
@[simp] theorem setThru_jnl (p : Nat) (x : ThruSt) (s : State) : (setThru p x s).jnl = s.jnl := rfl
@[simp] theorem setThru_tx (p : Nat) (x : ThruSt) (s : State) : (setThru p x s).tx = s.tx := rfl
@[simp] theorem setThru_ps (p : Nat) (x : ThruSt) (s : State) : (setThru p x s).ps = s.ps := rfl
@[simp] theorem setThru_img (p : Nat) (x : ThruSt) (s : State) : (setThru p x s).img = s.img := rfl
@[simp] theorem setThru_mem (p : Nat) (x : ThruSt) (s : State) : (setThru p x s).mem = s.mem := rfl
@[simp] theorem setThru_mgt (p : Nat) (x : ThruSt) (s : State) : (setThru p x s).mgt = s.mgt := rfl
@[simp] theorem setThru_hif (p : Nat) (x : ThruSt) (s : State) : (setThru p x s).hif = s.hif := rfl
@[simp] theorem setThru_key (p : Nat) (x : ThruSt) (s : State) : (setThru p x s).key = s.key := rfl
@[simp] theorem setThru_chn (p : Nat) (x : ThruSt) (s : State) : (setThru p x s).chn = s.chn := rfl
@[simp] theorem setThru_mtr (p : Nat) (x : ThruSt) (s : State) : (setThru p x s).mtr = s.mtr := rfl
@[simp] theorem setThru_red (p : Nat) (x : ThruSt) (s : State) : (setThru p x s).red = s.red := rfl
@[simp] theorem setThru_lpe (p : Nat) (x : ThruSt) (s : State) : (setThru p x s).lpe = s.lpe := rfl
@[simp] theorem setThru_ce (p : Nat) (x : ThruSt) (s : State) : (setThru p x s).ce = s.ce := rfl
@[simp] theorem setThru_slv (p : Nat) (x : ThruSt) (s : State) : (setThru p x s).slv = s.slv := rfl
@[simp] theorem setThru_hyd (p : Nat) (x : ThruSt) (s : State) : (setThru p x s).hyd = s.hyd := rfl
@[simp] theorem setThru_ftr (p : Nat) (x : ThruSt) (s : State) : (setThru p x s).ftr = s.ftr := rfl
@[simp] theorem setThru_opt (p : Nat) (x : ThruSt) (s : State) : (setThru p x s).opt = s.opt := rfl
@[simp] theorem setTx_tx (x : TxState) (s : State) : (setTx x s).tx = x := rfl
@[simp] theorem setPs_ps (x : PsState) (s : State) : (setPs x s).ps = x := rfl
@[simp] theorem setKey_key (x : KeyState) (s : State) : (setKey x s).key = x := rfl
@[simp] theorem setRed_red (x : RedState) (s : State) : (setRed x s).red = x := rfl
@[simp] theorem setSlk_slk (x : SlkState) (s : State) : (setSlk x s).slk = x := rfl

end Sys2Proof.Machine
end

