-- ==== Sys2Proof/WellFormed.lean ====
section
/-! DEFINITION. Which operands a command can have: the numbers of objects, the widths of fields, and the shape of what the
environment reports. The meanings do not rest on it: a command with another operand has the effect its meaning says. -/

namespace Sys2Proof

/-- A number below a bound. -/
def okBelow (n v : Nat) : Bool := decide (v < n)

/-- A switchable domain (R404). -/
def okDomain (d : Nat) : Bool := decide (1 ≤ d) && decide (d ≤ 17)

/-- The address of a register word (R5). -/
def okRegister (a : Nat) : Bool := decide (a < 0x100000) && decide (a % 4 = 0)

/-- R580: the data of a WRITE frame is as long as its length field says; past 4,096 the frame is answered with LENGTH. -/
def okWrite (n : Nat) (data : List Byte) : Bool := decide (n < 65536) && (decide (data.length = n) || decide (4096 < n))

/-- R580: the command bytes. -/
def hostCommands : List Byte := [0x03#8, 0xEB#8, 0x02#8, 0x38#8, 0x05#8, 0x75#8]

/-- R477, R489: an upset lies in one of the fourteen memories, in one of its lines and banks. -/
def okUpset (u : Upset) : Bool :=
  okBelow 14 u.mem && okBelow (Machine.memLines u.mem) u.line && okBelow (Machine.memBanks u.mem) u.bank

/-- R477, R487: the self-test report of a bank, which has four redundant columns. -/
def okBistBank (b : BistBank) : Bool :=
  decide (b.usedBad ≤ b.fused) && decide (b.fused + b.spareBad ≤ 4)

/-- R490: a self-test report of the banks of the fourteen memories. -/
def okBist (r : BistReport) : Bool :=
  decide (r.mems.length ≤ 14) && r.ecc.all (okBelow 0x8000000) &&
    ((List.range r.mems.length).zip r.mems).all (fun m => decide (m.2.length ≤ Machine.memBanks m.1) && m.2.all okBistBank)

/-- The operands of a command lie in their ranges. -/
def Instr.wf (i : Instr) : Bool :=
  match i with
  | .tick energy upsets readback => decide (energy.length = 10) && upsets.all okUpset && readback.all (fun r => okBelow 512 r.chan)
  | .headwayStart => true
  | .commitBoundary => true
  | .inputClose => true
  | .optPause => true
  | .estimateClose => true
  | .outputFreeze => true
  | .ftrMoveDone => true
  | .fabricFactorisationDone => true
  | .fabricSolveDone => true
  | .fatalCauseSafe => true
  | .run key => okBelow 65536 key
  | .stop key => okBelow 65536 key
  | .hold key => okBelow 65536 key
  | .loadA key => okBelow 65536 key
  | .loadB key => okBelow 65536 key
  | .clear key => okBelow 65536 key
  | .reset key => okBelow 65536 key
  | .powerGood bist _ => okBist bist
  | .powerGoodLoss => true
  | .rstNAssert _ => true
  | .rstNRelease bist => okBist bist
  | .backgroundSlotCheckDone slot => okBelow 2 slot
  | .throughForwardStart => true
  | .vaoRise _ _ => true
  | .xtalFail => true
  | .xtalReturn => true
  | .refFail => true
  | .pllUnlock _ => true
  | .vbatLow => true
  | .powerFailWarning _ => true
  | .pfwRecoverTimeout => true
  | .domainEnableRequest d _ => okDomain d
  | .domainDisableRequest d _ => okDomain d
  | .domainStartDone d => okDomain d
  | .domainStopDone d => okDomain d
  | .domainStartTimeout d => okDomain d
  | .scheduledWake d => okDomain d
  | .lingerExpire d => okDomain d
  | .hostLingerExpire d => okDomain d
  | .domainForceOn d _ => okDomain d
  | .healthSample temps mv => decide (temps.length = 4) && decide (mv.length = 7)
  | .watchdogExpire => true
  | .readWidth1 addr n crc _ => okBelow (2 ^ 32) addr && okBelow 65536 n && okBelow 65536 crc
  | .readWidth4 addr n crc _ => okBelow (2 ^ 32) addr && okBelow 65536 n && okBelow 65536 crc
  | .writeWidth1 addr n data crc => okBelow (2 ^ 32) addr && okWrite n data && okBelow 65536 crc
  | .writeWidth4 addr n data crc => okBelow (2 ^ 32) addr && okWrite n data && okBelow 65536 crc
  | .statusWidth1 crc => okBelow 65536 crc
  | .statusWidth4 crc => okBelow 65536 crc
  | .badCmd cmd => !hostCommands.contains cmd
  | .hostCsNEarlyRise _ => true
  | .hostWritePerform => true
  | .registerWrite addr _ => okRegister addr
  | .mbAck => true
  | .mbUnknownCommand => true
  | .info => true
  | .ttOpen => true
  | .ttWrite => true
  | .ttClose => true
  | .ttAbort => true
  | .ttRead => true
  | .timetableCheckDone slot => okBelow 2 slot
  | .fwOpen => true
  | .fwWrite => true
  | .fwClose => true
  | .fwActivate => true
  | .fwConfirm => true
  | .fwRead => true
  | .evrRead => true
  | .evrFlush => true
  | .logRead => true
  | .archRead => true
  | .jnlRead => true
  | .keyInfo => true
  | .keyGenerate => true
  | .keyImport => true
  | .keyDerive => true
  | .keyExport => true
  | .keyDestroy => true
  | .keyRemask => true
  | .remaskDue => true
  | .compatMask => true
  | .compatLoad => true
  | .maExtend => true
  | .maRead => true
  | .maLog => true
  | .encrypt => true
  | .decrypt => true
  | .stationKey => true
  | .attest => true
  | .identity => true
  | .signerSet => true
  | .signerInfo => true
  | .rngHealthFail => true
  | .begin key => okBelow 65536 key
  | .commit key => okBelow 65536 key
  | .commitPrompt key => okBelow 65536 key
  | .rollback key => okBelow 65536 key
  | .txIdleAbort => true
  | .journalCopyAWritten _ => true
  | .journalCopyBWritten _ => true
  | .psUnlock p _ key => okBelow 4 p && okBelow 65536 key
  | .psLock p _ key => okBelow 4 p && okBelow 65536 key
  | .psSetPassword p _ key => okBelow 4 p && okBelow 65536 key
  | .psLockoutExpire p _ => okBelow 4 p
  | .psWriteBurst addr _ => okBelow (2 ^ 32) addr
  | .psPageProgrammed => true
  | .calSet key => okBelow 65536 key
  | .calInvalidate key => okBelow 65536 key
  | .calSlewStep => true
  | .ppsEdge offUs => decide (0 ≤ offUs) && decide (offUs < 15625 / 16)
  | .ppsTimeout => true
  | .leapSecond => true
  | .evrCtlFlush => true
  | .evrFlushPeriod => true
  | .evrBucketRefill => true
  | .evrSummary => true
  | .evrScanDone => true
  | .snapFire => true
  | .snapEdge => true
  | .snapPeriodic => true
  | .snapStrobe => true
  | .pcLoRead n => okBelow 64 n
  | .tickLoRead => true
  | .eTotLoRead g => okBelow 10 g
  | .jnlSeqLoRead => true
  | .calSecRead => true
  | .evrSeqLoRead => true
  | .keyCtrLoRead => true
  | .trappcRead e => okBelow 8 e
  | .slkStnSelWrite _ => true
  | .chnSelWrite _ => true
  | .mtrSelWrite _ => true
  | .mtrIvlSelWrite _ => true
  | .tariffSubmit _ => true
  | .dayofsWrite _ => true
  | .totalsSave => true
  | .totalsSavePeriodic => true
  | .hydColdRequest => true
  | .optColdRequest => true
  | .slvSelftestStart => true
  | .slvSelftestDone _ => true
  | .loopCoefficientWrite addr _ => okRegister addr
  | .loopModeWrite k _ => okBelow 256 k
  | .loopReinit k => okBelow 256 k
  | .loopSample => true
  | .injectionStart c _ => okBelow 4 c
  | .injectionStop c => okBelow 4 c
  | .injectionEnd c => okBelow 4 c
  | .captureStart c _ => okBelow 4 c
  | .captureStop c => okBelow 4 c
  | .captureDone c => okBelow 4 c
  | .taskRelease e k => okBelow 8 e && okBelow 16 k
  | .eventTaskRelease e k => okBelow 8 e && okBelow 16 k
  | .taskDispatch e => okBelow 8 e
  | .budgetExpire e => okBelow 8 e
  | .taskStop e k key => okBelow 8 e && okBelow 16 k && okBelow 65536 key
  | .taskStart e k key => okBelow 8 e && okBelow 16 k && okBelow 65536 key
  | .taskRestart e k key => okBelow 8 e && okBelow 16 k && okBelow 65536 key
  | .patchSubmit _ => true
  | .patchApply e => okBelow 8 e
  | .retentiveSave => true
  | .retentiveSavePeriodic => true
  | .retentiveCapture e => okBelow 8 e
  | .ceAdd e => okBelow 8 e
  | .ceSub e => okBelow 8 e
  | .ceAnd e => okBelow 8 e
  | .ceOr e => okBelow 8 e
  | .ceXor e => okBelow 8 e
  | .ceSll e => okBelow 8 e
  | .ceSrl e => okBelow 8 e
  | .ceSra e => okBelow 8 e
  | .ceSlt e => okBelow 8 e
  | .ceSltu e => okBelow 8 e
  | .ceMin e => okBelow 8 e
  | .ceMax e => okBelow 8 e
  | .ceMul e => okBelow 8 e
  | .ceMulh e => okBelow 8 e
  | .ceMulhu e => okBelow 8 e
  | .ceDiv e => okBelow 8 e
  | .ceDivu e => okBelow 8 e
  | .ceRem e => okBelow 8 e
  | .ceRemu e => okBelow 8 e
  | .ceSlli e => okBelow 8 e
  | .ceSrli e => okBelow 8 e
  | .ceSrai e => okBelow 8 e
  | .ceClz e => okBelow 8 e
  | .ceAddi e => okBelow 8 e
  | .ceAndi e => okBelow 8 e
  | .ceOri e => okBelow 8 e
  | .ceXori e => okBelow 8 e
  | .ceSlti e => okBelow 8 e
  | .ceSltiu e => okBelow 8 e
  | .ceLui e => okBelow 8 e
  | .ceFadd e => okBelow 8 e
  | .ceFsub e => okBelow 8 e
  | .ceFmul e => okBelow 8 e
  | .ceFdiv e => okBelow 8 e
  | .ceFsqrt e => okBelow 8 e
  | .ceFmadd e => okBelow 8 e
  | .ceFmin e => okBelow 8 e
  | .ceFmax e => okBelow 8 e
  | .ceFabs e => okBelow 8 e
  | .ceFneg e => okBelow 8 e
  | .ceFeq e => okBelow 8 e
  | .ceFlt e => okBelow 8 e
  | .ceFle e => okBelow 8 e
  | .ceFcvtWs e => okBelow 8 e
  | .ceFcvtSw e => okBelow 8 e
  | .ceFclamp e => okBelow 8 e
  | .ceLb e => okBelow 8 e
  | .ceLbu e => okBelow 8 e
  | .ceLh e => okBelow 8 e
  | .ceLhu e => okBelow 8 e
  | .ceLw e => okBelow 8 e
  | .ceLd e => okBelow 8 e
  | .ceSb e => okBelow 8 e
  | .ceSh e => okBelow 8 e
  | .ceSw e => okBelow 8 e
  | .ceSd e => okBelow 8 e
  | .ceLit e => okBelow 8 e
  | .ceLitD e => okBelow 8 e
  | .ceBeq e => okBelow 8 e
  | .ceBne e => okBelow 8 e
  | .ceBlt e => okBelow 8 e
  | .ceBge e => okBelow 8 e
  | .ceBltu e => okBelow 8 e
  | .ceBgeu e => okBelow 8 e
  | .ceJal e => okBelow 8 e
  | .ceJalr e => okBelow 8 e
  | .ceIrd e => okBelow 8 e
  | .ceIwr e => okBelow 8 e
  | .ceQmax e => okBelow 8 e
  | .ceQok e => okBelow 8 e
  | .ceTon e => okBelow 8 e
  | .ceTof e => okBelow 8 e
  | .ceTp e => okBelow 8 e
  | .ceTrst e => okBelow 8 e
  | .ceEdr e => okBelow 8 e
  | .ceEdf e => okBelow 8 e
  | .ceEdb e => okBelow 8 e
  | .ceNop e => okBelow 8 e
  | .ceEnd e => okBelow 8 e
  | .ceTrap e => okBelow 8 e
  | .ceEvt e => okBelow 8 e
  | .ceRdt e => okBelow 8 e
  | .ceFstat e => okBelow 8 e
  | .joinTrainDepart => true
  | .joinPhaseEnd => true
  | .timeCarReturn p _ rt => okBelow 8 p && okBelow (2 ^ 32) rt
  | .outputCarReturn p _ => okBelow 8 p
  | .inputCarReturn p _ => okBelow 8 p
  | .joinCarReturn p _ => okBelow 8 p
  | .frameDiscard p _ => okBelow 8 p
  | .presenceStaleExpire st => okBelow 2048 st
  | .epochAdvance => true
  | .phyLinkPoll up => okBelow 256 up
  | .throughCarArrive q _ _ _ _ => okBelow 8 q
  | .conversionDone c code _ _ _ _ => okBelow 512 c && okBelow (2 ^ 24) code
  | .acceptedEdge c _ us => okBelow 512 c && okBelow 977 us
  | .chatterExit c us => okBelow 512 c && okBelow 977 us
  | .stuckTimeout c => okBelow 512 c
  | .countedEdge n => okBelow 64 n
  | .filterWindowEnd n => okBelow 64 n
  | .waveformWindow wins _ => wins.all (fun w => okBelow 512 w.chan && decide (w.samples.length = 1600))
  | .pwmPeriodStart c => okBelow 512 c
  | .testPulse c => okBelow 512 c
  | .thermalSample => true
  | .intervalClose m => okBelow 72 m
  | .midnightArchive _ _ => true
  | .actInNChange _ => true
  | .claimSample => true
  | .interlockConflict => true
  | .syncFrame seq _ => okBelow (2 ^ 32) seq
  | .syncResendTimeout seq => okBelow (2 ^ 32) seq
  | .syncLinkTimeout => true
  | .standbyTickWork => true
  | .lagTimeout => true
  | .takeover => true
  | .handover => true
  | .realign => true
  | .provingSwap => true
  | .syncLinkUp => true
  | .syncLaneLoss lane => okBelow 2 lane
  | .rngReseed => true
  | .illegalInstruction e => okBelow 8 e
  | .fetchAtTextEnd e => okBelow 8 e

end Sys2Proof
end

