-- ==== Sys2Proof/Tests/Slice0.lean ====
section
/-! SUPPORT. The model's own tests: ill-formed operands that WellFormed refuses; for every statement a state and operands
that meet its hypotheses, clause by clause (`witness_…`); and single steps whose expected results are worked out from the
spec (`test_…`). -/

namespace Sys2Proof.Tests

set_option maxRecDepth 100000
set_option Elab.async false

open Sys2Proof.Machine

/-! ### Small states -/

/-- The head of an engine's code: text 0x100 to 0x200, literals 0x200 to 0x210, fp_trap bits. -/
def codeHead (fp : Nat) : List Byte := leBytes 4 0x100 ++ leBytes 4 0x200 ++ leBytes 4 0x200 ++ leBytes 4 0x210 ++ leBytes 4 fp

/-- The head of an engine's data: stack bases, and at 0x48 one copy list of one pair. -/
def dataHead : List Byte := leBytes 8 0 ++ (List.range 16).flatMap (fun k => leBytes 4 (0x8000 + 0x400 * k)) ++
  leBytes 8 1 ++ leBytes 4 0x30000005 ++ leBytes 4 0x100

/-- A timetable with a little of everything. -/
def tt : Timetable := {
  plan := { headway := 256, tIn := 16, tEst := 32, tOut := 56, optHeadways := 4 }
  tasks := [{ task := 1, priority := 3, period := 8, entry := 0x100, budget := 1, stack := 0x400, outList := 0x48, inList := 0x48 },
    { task := 2, priority := 1, kind := 1, edge := 3, entry := 0x140, stack := 0x400, eventRef := 0x30000000, trapPolicy := 1 },
    { task := 3, priority := 5, period := 8, entry := 0x100, stack := 0x400, outList := 0x48, inList := 0x48 }]
  blobs := [⟨0x0100, 0, codeHead 2⟩, ⟨0x0101, 0, dataHead⟩]
  platforms := [{ platform := 0, rateDiv := 1, scanMask := 0xFFFF }]
  channels := [{ channel := 0, mode := 1, p0 := 2, flags := 1, hold := 0x3F800000#32 }, { channel := 16, mode := 7, p1 := 0x0102 },
    { channel := 32, mode := 19, hold := 0x3F000000#32 }, { channel := 48, mode := 20, p0 := 0, p1 := 10 },
    { channel := 17, mode := 7, p0 := 10, p1 := 0x0001 }]
  meters := [{ meter := 0, interval := 0 }]
  lines := [{ port := 0, mode := 1, stations := 2, staleHeadways := 4 }, { port := 2, mode := 3, partner := 3 },
    { port := 3, mode := 3, partner := 2 }]
  roster := [{ station := 5, line := 0, position := 0, stationId := 0x1234#32 }, { station := 9, line := 2, position := 1 }]
  loops := [{ loop := 3, law := 2, period := 8, pvRef := 0x20000000, outRef := 0x30000003 },
    { loop := 4, law := 4, period := 8, pvRef := 0x20000000, outRef := 0x30000004, fallback := 3 }]
  retentive := [{ engine := 0, offset := 0, length := 16 }]
  security := { lockoutBase := 4, epochHours := 24, psMode := [2#8, 2#8, 0#8, 0#8], lineAuth := List.replicate 8 0#8, hostWriteMask := 0xFFFF, hostReadMask := 0xFFFF } }

/-- A powered device in a state with a timetable, at tick 1,024. -/
def onWith (m : Mode) (t : Timetable) : State := { State.reset with
  dev := { mode := m, tt := some t }
  pwr := { powerGood := true, tick := 1024, doms := List.replicate 17 { st := .on } } }

/-- The same with the timetable above. -/
def on (m : Mode) : State := onWith m tt

/-- HOLD without a timetable. -/
def hold : State := { State.reset with
  dev := { mode := .hold }
  pwr := { powerGood := true, tick := 1024, doms := List.replicate 17 { st := .on } } }

/-- BOOT with what remains of the boot waiting. -/
def boot : State := { State.reset with
  dev := { bootPending := some .full }
  pwr := { powerGood := true } }

/-- Change the device's part of a state. -/
def dv (f : DevState → DevState) (s : State) : State := { s with dev := f s.dev }
/-- Change the power part of a state. -/
def pw (f : PwrState → PwrState) (s : State) : State := { s with pwr := f s.pwr }
/-- Change the calendar. -/
def cl (f : CalState → CalState) (s : State) : State := { s with mgt := { s.mgt with cal := f s.mgt.cal } }
/-- Change the recorder. -/
def ev (f : EvrState → EvrState) (s : State) : State := { s with mgt := { s.mgt with evr := f s.mgt.evr } }
/-- Change the transaction. -/
def tx (f : TxState → TxState) (s : State) : State := { s with tx := f s.tx }
/-- Change the host port's part. -/
def hf (f : HifState → HifState) (s : State) : State := { s with hif := f s.hif }
/-- Change the pair's part. -/
def rd (f : RedState → RedState) (s : State) : State := { s with red := f s.red }
/-- Change the key store. -/
def ky (f : KeyState → KeyState) (s : State) : State := { s with key := f s.key }
/-- Change the parameter store's part. -/
def pst (f : PsState → PsState) (s : State) : State := { s with ps := f s.ps }

/-- A member of a pair: READY, RUN or STANDBY with the link up. -/
def pair (m : Mode) : State := rd (fun r =>
    { r with
      armed := true
      sync := true
      lanes := 3
      peerMode := 4
      peerFit := true
      peerLock := true })
  (onWith m { tt with redundancy := { mode := 1, lanes := 3, takeover := 4 } })

/-- The bank of a running task. -/
def bank (pc : Nat) (a b d : Word) : TaskSt :=
  { mode := .running, w := [0, a, d, b] ++ List.replicate 27 7 ++ [0x8800#32], pc := pc }

/-- An engine whose running task stands at the word `w`. -/
def engine (w a b d : Word) : EngineSt := {
  code := ((List.range 4).map (fun i => (0x104 + i, (w >>> (8 * i)).setWidth 8))).filter (fun c => c.2 != 0)
  tasks := [(1, bank 0x104 a b d)]
  run := some 1 }

/-- Engine 0 of a state with one running task whose word at `pc` is `w`; ra = w1, rb = w2, rd = w3. -/
def ceAt (w a b d : Word) : State :=
  { on .run with ce := { engines := engine w a b d :: List.replicate 7 ({} : EngineSt) } }

/-- What that engine executes. -/
def ctxAt (w a b d : Word) : CeCtx :=
  { e := 0, k := 1, tt := tt, r := tt.tasks.getD 0 {}, t := bank 0x104 a b d, w := w }

/-- A word of format R with rd = w2, ra = w1, rb = w3. -/
def wR (op func : Nat) : Word := BitVec.ofNat 32 (op * 2 ^ 26 + 2 * 2 ^ 21 + 1 * 2 ^ 16 + 3 * 2 ^ 11 + func)
/-- The same with rb zero. -/
def wR1 (op func : Nat) : Word := BitVec.ofNat 32 (op * 2 ^ 26 + 2 * 2 ^ 21 + 1 * 2 ^ 16 + func)
/-- A word of format I or B with rd = w2, ra = w1. -/
def wI (op imm : Nat) : Word := BitVec.ofNat 32 (op * 2 ^ 26 + 2 * 2 ^ 21 + 1 * 2 ^ 16 + imm % 65536)
/-- The same with ra zero. -/
def wI0 (op imm : Nat) : Word := BitVec.ofNat 32 (op * 2 ^ 26 + 2 * 2 ^ 21 + imm % 65536)
/-- A word of format S. -/
def wS (func rd ra imm : Nat) : Word := BitVec.ofNat 32 (0x2A * 2 ^ 26 + rd * 2 ^ 21 + ra * 2 ^ 16 + func * 2 ^ 12 + imm)

/-- What CeExecutes asks of engine 0 about to execute `w`, as a decision. -/
def executes (w a b d : Word) : Bool :=
  (match ceCtx 0 (ceAt w a b d) with
   | some c => c.w == w && c.k == 1 && c.inText && !overBudget c.r c.t.cycles && memClean (ceAt w a b d) (ceBase 0 + c.t.pc) 4
   | none => false)

/-- The stores of a state with its tasks in canonical form are in canonical form. -/
theorem canonical_of (s : State) (h : smWf regReset s.regs = true ∧ smWf nvDelivery s.nv = true ∧
    s.ce.engines.all (fun x => smWf (fun _ => ({} : TaskSt)) x.tasks) = true ∧
    smWf (fun _ => ({} : LoopSt)) s.lpe.loops = true ∧ smWf (fun _ => ({} : StnSt)) s.slk.stns = true ∧
    smWf (fun _ => ({} : ThruSt)) s.slk.thru = true ∧ smWf (imgInit 0) s.img.siWork = true ∧
    smWf (imgInit 1) s.img.soWork = true ∧ smWf (imgInit 3) s.img.co = true ∧ smWf (imgInit 4) s.img.nsWork = true) :
    Canonical s := by
  obtain ⟨h1, h2, h3, h4, h5, h6, h7, h8, h9, h10⟩ := h
  refine ⟨h1, h2, fun e => ?_, h4, h5, h6, h7, h8, h9, h10⟩
  rw [List.all_eq_true] at h3
  simp only [ceGet, nth]
  cases hx : s.ce.engines[e]? with
  | none => rfl
  | some x => exact h3 x (List.mem_of_getElem? hx)

/-! ### Ill-formed operands -/

/-- Operands out of range, one for each check of a command (part 1). -/
theorem test_ill_formed_1 : (([
    .tick [] [] [], .run 65536, .stop 65536, .hold 65536, .loadA 65536, .loadB 65536, .clear 65536, .reset
      65536, .powerGood { mems := [[{ fused := 5 }]] } true, .rstNRelease { mems := [[{ usedBad := 1 }]] }, .backgroundSlotCheckDone
      2, .domainEnableRequest 0 .host, .domainDisableRequest 18 .host, .domainStartDone 18, .domainStopDone 18,
      .domainStartTimeout 18, .scheduledWake 18, .lingerExpire 18, .hostLingerExpire 18, .domainForceOn 18 true,
      .healthSample [0, 0, 0] (List.replicate 7 0), .readWidth1 (2 ^ 32) 4 0 none, .readWidth4 0 65536 0 none,
      .writeWidth1 0 2 [0] 0, .writeWidth4 0 1 [0] 65536, .statusWidth1 65536, .statusWidth4 65536, .badCmd
      0x03#8, .registerWrite 2 0, .timetableCheckDone 2, .begin 65536, .commit 65536, .commitPrompt 65536,
      .rollback 65536, .psUnlock 4 true 0, .psLock 4 true 0, .psSetPassword 4 true 0, .psLockoutExpire 4 true,
      .psWriteBurst (2 ^ 32) [], .calSet 65536] : List Instr).all (fun c => !c.wf)) = true := by decide +kernel

/-- Operands out of range, one for each check of a command (part 2). -/
theorem test_ill_formed_2 : (([
    .calInvalidate 65536, .pcLoRead 64, .eTotLoRead 10, .trappcRead 8,
      .loopCoefficientWrite 0x100000 0, .loopModeWrite 256 true, .loopReinit 256, .injectionStart 4 0,
      .injectionStop 4, .injectionEnd 4, .captureStart 4 0, .captureStop 4, .captureDone 4, .taskRelease 8 0,
      .eventTaskRelease 8 0, .taskDispatch 8, .budgetExpire 8, .taskStop 8 0 0, .taskStart 8 0 0, .taskRestart 8
      0 0, .patchApply 8, .retentiveCapture 8, .ceAdd 8, .ceSub 8, .ceAnd 8, .ceOr 8, .ceXor 8, .ceSll 8, .ceSrl
      8, .ceSra 8, .ceSlt 8, .ceSltu 8, .ceMin 8, .ceMax 8, .ceMul 8, .ceMulh 8, .ceMulhu 8, .ceDiv 8, .ceDivu 8] : List Instr).all (fun c => !c.wf)) = true := by decide +kernel

/-- Operands out of range, one for each check of a command (part 3). -/
theorem test_ill_formed_3 : (([
    .ceRem 8, .ceRemu 8, .ceSlli 8, .ceSrli 8, .ceSrai 8, .ceClz 8, .ceAddi 8, .ceAndi 8, .ceOri 8, .ceXori 8,
      .ceSlti 8, .ceSltiu 8, .ceLui 8, .ceFadd 8, .ceFsub 8, .ceFmul 8, .ceFdiv 8, .ceFsqrt 8, .ceFmadd 8,
      .ceFmin 8, .ceFmax 8, .ceFabs 8, .ceFneg 8, .ceFeq 8, .ceFlt 8, .ceFle 8, .ceFcvtWs 8, .ceFcvtSw 8,
      .ceFclamp 8, .ceLb 8, .ceLbu 8, .ceLh 8, .ceLhu 8, .ceLw 8, .ceLd 8, .ceSb 8, .ceSh 8, .ceSw 8, .ceSd 8,
      .ceLit 8] : List Instr).all (fun c => !c.wf)) = true := by decide +kernel

/-- Operands out of range, one for each check of a command (part 4). -/
theorem test_ill_formed_4 : (([
    .ceLitD 8, .ceBeq 8, .ceBne 8, .ceBlt 8, .ceBge 8, .ceBltu 8, .ceBgeu 8, .ceJal 8, .ceJalr 8, .ceIrd 8,
      .ceIwr 8, .ceQmax 8, .ceQok 8, .ceTon 8, .ceTof 8, .ceTp 8, .ceTrst 8, .ceEdr 8, .ceEdf 8, .ceEdb 8,
      .ceNop 8, .ceEnd 8, .ceTrap 8, .ceEvt 8, .ceRdt 8, .ceFstat 8, .timeCarReturn 8 [] 0, .outputCarReturn 8
      [], .inputCarReturn 8 [], .joinCarReturn 8 [], .frameDiscard 8 [], .presenceStaleExpire 2048, .phyLinkPoll
      256, .throughCarArrive 8 [] 0 0 true, .conversionDone 512 0 0 0 false false, .acceptedEdge 0 true 977,
      .chatterExit 512 0, .stuckTimeout 512, .countedEdge 64, .filterWindowEnd 64] : List Instr).all (fun c => !c.wf)) = true := by decide +kernel

/-- Operands out of range, one for each check of a command (part 5). -/
theorem test_ill_formed_5 : (([
    .waveformWindow [⟨0, []⟩] true, .pwmPeriodStart 512, .testPulse 512, .intervalClose 72, .syncFrame (2 ^ 32)
      .ack, .syncResendTimeout (2 ^ 32), .syncLaneLoss 2, .illegalInstruction 8, .fetchAtTextEnd 8, .tick
      (List.replicate 10 0) [⟨14, 0, 0, false⟩] [], .tick (List.replicate 10 0) [⟨0, 65536, 0, true⟩] [], .tick
      (List.replicate 10 0) [⟨0, 0, 18, true⟩] [], .tick (List.replicate 10 0) [] [⟨512, 0, false⟩],
      .powerGood { ecc := [0x8000000] } true, .powerGood { mems := List.replicate 15 [] } true, .powerGood { mems := [List.replicate 19 {}] } true,
      .powerGood { mems := [[{ fused := 4, spareBad := 1 }]] } true, .healthSample [0, 0, 0, 0] [], .readWidth1 0 0
      65536 none, .writeWidth1 0 65536 [] 0, .writeWidth1 (2 ^ 32) 0 [] 0, .conversionDone 0 (2 ^
      24) 0 0 false false, .acceptedEdge 512 true 0, .chatterExit 0 977, .taskRelease 0 16, .taskStop 0 16 0,
      .taskStop 0 0 65536, .psUnlock 0 true 65536, .timeCarReturn 0 [] (2 ^ 32), .waveformWindow [⟨512,
      List.replicate 1600 0⟩] true, .domainEnableRequest 18 .host, .registerWrite 0x100000 0] : List Instr).all (fun c => !c.wf)) = true := by decide +kernel

/-- Operands in range are accepted. -/
theorem test_well_formed : (([.tick (List.replicate 10 0) [⟨13, 2047, 15, true⟩, ⟨1, 262143, 17, false⟩] [⟨511, 0, false⟩], .registerWrite 0xFFFFC 0, .ceAdd 7,
    .writeWidth1 0xFFFFFFFF 1 [0] 65535, .writeWidth4 0 5000 [] 0, .badCmd 0x04#8, .domainEnableRequest 17 .host] : List Instr).all
    (fun c => c.wf)) = true := by decide +kernel

/-- The table gives no row any bits, so no word spells a command, and placing one changes nothing. -/
theorem test_no_words : decodeTableWord 16 0 = none ∧ decodeTableWord 0 0 = none ∧
    State.reset.withFetchWord 8 1 = State.reset := by decide +kernel

/-! ### States that meet the hypotheses of the statements -/

/-- The stores of the small states are in canonical form. -/
theorem witness_Canonical : ∀ m ∈ [Mode.ready, .run, .safe, .standby], Canonical (on m) := by
  intro m hm
  fin_cases hm <;> exact canonical_of _ (by decide)

/-- StepKeepsDeviceStates, EveryCommandAnswers, OnlyTheseChangeTheState, TicksCountAndHeadwaysFallDue. -/
theorem witness_StepKeepsDeviceStates :
    let s : State := { on .run with pending := [.mbAck] }
    (∃ t, StateWf s ∧ step s = .next t) ∧ State.reset.pending = [] ∧ mayChangeState .mbAck = false ∧
    (∃ t, exec .mbAck (on .run) = .next t) :=
  ⟨⟨_, ⟨by decide, by decide, by decide, by unfold LoadedWf; decide⟩, rfl⟩, rfl, rfl, ⟨_, rfl⟩⟩

/-- DeviceIdentification, RegisterFields, CausesAndFatalCauses: a register file in canonical form. -/
theorem witness_DeviceIdentification : RegsWf State.reset ∧ RegsWf (setReg Reg.MGT_CAL_LEAP 1 (on .run)) := by
  refine ⟨?_, ?_⟩ <;> (unfold RegsWf; decide)

/-- DeviceCommands: accepted in each state that allows it; the loads; the refusals. -/
theorem witness_DeviceCommands :
    (∀ m ∈ [Mode.ready, .run, .safe, .hold, .boot, .standby], let s := dv (fun d => { d with mode := m }) hold
      s.dev.cmd = none ∧ s.pwr.saving = false ∧ s.pwr.saved = false ∧ s.dev.fatalDue = false ∧ fatalBits s = 0) ∧
    (dv (fun d => { d with cmd := some .stop }) (on .run)).dev.cmd.isSome = true ∧ (0xC0DF : Nat) ≠ 0xC0DE ∧
    (on .run).dev.mode ∉ [Mode.ready] := by decide +kernel

/-- CommandsAtTick: each pending command with its state; a fatal cause in RUN. -/
theorem witness_CommandsAtTick :
    let p (m : Mode) (c : DevCmd) : State := dv (fun d => { d with cmd := some c, loadReady := true }) (on m)
    (∀ s ∈ [p .ready .hold, p .safe .hold, p .safe .clear, p .run .reset, p .hold .loadA, p .hold .loadB, p .run .hold],
      s.dev.fatalDue = false) ∧ fatalBits (p .safe .clear) = 0 ∧ (p .hold .loadA).dev.loadReady = true ∧
    (on .run).dev.cmd = none ∧ (p .run .hold).dev.mode ≠ .safe ∧
    (dv (fun d => { d with fatalDue := true }) (on .run)).dev.mode = .run ∧ DevCmd.stop ≠ .hold ∧ DevCmd.stop ≠ .reset := by
  decide +kernel

/-- SlotChecksReport: the background check, and a check that the writer has begun. -/
theorem witness_SlotChecksReport :
    let b := dv (fun d => { d with repB := { checking := true, background := true } }) (on .ready)
    let w := dv (fun d => { d with repA := { checking := true } }) (on .ready)
    (b.dev.mode ≠ .boot ∧ (slotRep b 1).done = false ∧ (slotRep b 1).background = true ∧ b.dev.writer ≠ some 1) ∧
    ((slotRep w 0).checking = true ∧ (slotRep w 0).background = false ∧ w.tx.st ≠ 2 ∧ w.dev.cmd = none) := by decide +kernel

/-- StoresReadBack, JournalCopies: the die in canonical form, before and after a write of three bytes. -/
theorem witness_StoresReadBack :
    NvWf State.reset ∧ NvWf (nvWrite 0x02800000 [1, 2, 3] State.reset) := by
  refine ⟨?_, ?_⟩ <;> (unfold NvWf; decide)

/-- CheckBanks: a lane with two banks erased, each in turn P or a data bank, and one with three. -/
theorem witness_CheckBanks :
    let ds : List Byte := (List.range 16).map (fun i => BitVec.ofNat 8 (17 * i + 3))
    let held := (ds.set 0 0).set 15 0
    (∀ i < 16, i ∉ [0, 15] → nth held i 0#8 = nth ds i 0#8) ∧ ds.length = 16 ∧ held.length = 16 ∧ 16 ∉ [0, 15] ∧ 17 ∉ [0, 15] ∧
    ((List.range 18).filter (fun i => [0, 15].contains i)).length ≤ 2 ∧
    2 < ((List.range 18).filter (fun i => [0, 16, 17].contains i)).length ∧
    (let two (b : Nat) : Upset := ⟨1, 262143, b, true⟩
     let s : State := memUpset ⟨1, 5, 3, false⟩ (memUpset (two 17) (memUpset (two 0) State.reset))
     two 0 ∈ s.mem.upsets ∧ lineErasures 1 262143 s = [0, 17] ∧ (lineErasures 1 262143 (memUpset (two 4) s)).Nodup ∧
     2 < (lineErasures 1 262143 (memUpset (two 4) s)).length ∧ (⟨1, 5, 3, false⟩ : Upset) ∈ s.mem.upsets) := by decide +kernel

/-- The groups of CeExecutes statements: a task about to execute each word of the list. -/
theorem executes_of (w a b d : Word) (h : executes w a b d = true) : ∃ c, CeExecutes 0 c (ceAt w a b d) ∧ c.w = w := by
  unfold executes at h
  split at h
  · rename_i c hc
    simp only [Bool.and_eq_true, beq_iff_eq, Bool.not_eq_true'] at h
    exact ⟨c, ⟨hc, h.1.1.2, h.1.2, h.2⟩, h.1.1.1.1⟩
  · simp at h

/-- IntegerGroup: each instruction with a divisor of 1; the extreme values of CLZ. -/
theorem witness_IntegerGroup :
    (∀ f ∈ [0x00, 0x01, 0x02, 0x03, 0x04, 0x05, 0x06, 0x07, 0x08, 0x09, 0x0A, 0x0B, 0x0C, 0x0D, 0x0E, 0x10, 0x11, 0x12, 0x13,
        0x18, 0x19, 0x1A], isR 0x00 f (wR 0x00 f) = true ∧ executes (wR 0x00 f) 9 1 0 = true) ∧
    isR1 0x00 0x1C (wR1 0x00 0x1C) = true ∧ executes (wR1 0x00 0x1C) 0 0 0 = true ∧
    executes (wR1 0x00 0x1C) 0xFFFFFFFF 0 0 = true := by decide +kernel

/-- DivisionCornersAndImmediates. -/
theorem witness_DivisionCornersAndImmediates :
    (∀ f ∈ [0x10, 0x11, 0x12, 0x13], executes (wR 0x00 f) 9 0 0 = true ∧ executes (wR 0x00 f) 0x80000000 0xFFFFFFFF 0 = true) ∧
    (∀ op ∈ [0x02, 0x03, 0x04, 0x05, 0x06, 0x07], isOp op (wI op 0x8000) = true ∧ executes (wI op 0x8000) 9 0 0 = true) ∧
    isOp0 0x08 (wI0 0x08 0xFFFF) = true ∧ executes (wI0 0x08 0xFFFF) 0 0 0 = true := by decide +kernel

/-- FloatingPointGroup: each instruction; the task's trap bit is set, and an addition of the largest number to itself is not
finite. -/
theorem witness_FloatingPointGroup :
    (∀ f ∈ [0x00, 0x01, 0x02, 0x03, 0x05, 0x06, 0x07, 0x0F, 0x0A, 0x0B, 0x0C],
      isR 0x01 f (wR 0x01 f) = true ∧ executes (wR 0x01 f) 0x3F800000 0x3F800000 0 = true) ∧
    (∀ f ∈ [0x04, 0x08, 0x09, 0x0D, 0x0E], isR1 0x01 f (wR1 0x01 f) = true ∧ executes (wR1 0x01 f) 0x3F800000 0 0 = true) ∧
    fpTrap tt 0 1 = true ∧ f32IsFin 0x7F7FFFFF = true ∧ executes (wR 0x01 0x00) 0x7F7FFFFF 0x7F7FFFFF 0 = true := by decide +kernel

/-- LoadsAndStores: in data memory at its last bytes, outside it, and through w31 outside the stack. -/
theorem witness_LoadsAndStores :
    (∀ p ∈ [(0x10, 1), (0x11, 1), (0x12, 2), (0x13, 2), (0x14, 4), (0x15, 8), (0x18, 1), (0x19, 2), (0x1A, 4), (0x1B, 8)],
      iOp (wI p.1 0) = p.1 ∧ iRd (wI p.1 0) % 2 = 0 ∧
      executes (wI p.1 0) (BitVec.ofNat 32 (0x20000 - p.2)) 0 0 = true ∧ memClean (ceAt (wI p.1 0) 0 0 0) (0x20000 - p.2) p.2 = true ∧
      executes (wI p.1 1) (BitVec.ofNat 32 (0x20000 - p.2)) 0 0 = true) ∧
    (let w := BitVec.ofNat 32 (0x14 * 2 ^ 26 + 2 * 2 ^ 21 + 31 * 2 ^ 16)
     iRa w = 31 ∧ executes w 0 0 0 = true ∧ stackBase tt 0 1 ≤ 0x8800 ∧ stackTop tt ((tt.task 0 1).getD {}) < 0x8800 + 4) := by decide +kernel

/-- LiteralReads: the last word of the literal area and the first beyond it, and the same of pairs. -/
theorem witness_LiteralReads :
    (∀ i ∈ [3, 4], executes (wI0 0x16 i) 0 0 0 = true ∧ iRa (wI0 0x16 i) = 0) ∧
    (∀ i ∈ [1, 2], executes (wI0 0x17 i) 0 0 0 = true ∧ iRa (wI0 0x17 i) = 0 ∧ iRd (wI0 0x17 i) % 2 = 0) ∧
    litStart tt 0 + 4 * 3 + 4 ≤ litEnd tt 0 ∧ litEnd tt 0 < litStart tt 0 + 4 * 4 + 4 ∧
    litStart tt 0 + 8 * 1 + 8 ≤ litEnd tt 0 ∧ litEnd tt 0 < litStart tt 0 + 8 * 2 + 8 := by decide +kernel

/-- ControlTransfers: taken and not taken, to the first instruction and to the end of the text. -/
theorem witness_ControlTransfers :
    (∀ op ∈ [0x20, 0x21, 0x22, 0x23, 0x24, 0x25], iOp (wI op 0xFFFF) = op ∧ executes (wI op 0xFFFF) 1 0 1 = true ∧
      executes (wI op 0xFFFF) 1 0 2 = true ∧ executes (wI op 0xFFFF) 2 0 1 = true) ∧
    iOp (wI 0x26 4) = 0x26 ∧ executes (wI 0x26 4) 0 0 0 = true ∧ iOp (wI 0x27 0) = 0x27 ∧ executes (wI 0x27 0) 0x100 0 0 = true ∧
    executes (wI 0x27 0) 0x200 0 0 = true ∧ textStart tt 0 = 0x100 ∧ textEnd tt 0 = 0x200 := by decide +kernel

/-- ImageGroup: a valid reference, owned and not owned, and an invalid one. -/
theorem witness_ImageGroup :
    let ird := wR1 0x28 0x00
    let iwr := wR1 0x28 0x01
    isRPair 0x28 0x00 ird = true ∧ isRPair 0x28 0x01 iwr = true ∧ isR 0x28 0x02 (wR 0x28 0x02) = true ∧
    isR1 0x28 0x03 (wR1 0x28 0x03) = true ∧
    [ird, iwr].all (fun w => [0x30000005, 0x20000000, 0xF0000000].all (fun a => executes w a 0 0)) = true ∧
    executes (wR 0x28 0x02) 1 2 0 = true ∧ executes (wR1 0x28 0x03) 3 0 0 = true ∧
    tt.refValid 0x20000000 = true ∧ tt.refValid 0xF0000000 = false ∧ (refGet (on .run) 0x20000000).isSome = true ∧
    0x20000000 ∉ ownedRefs tt ((tt.task 0 1).getD {}) := by decide +kernel

/-- TimerInstructions, EdgeInstructions: a cell at the last place, one that is no multiple of 8, and one beyond memory. -/
theorem witness_TimerAndEdgeInstructions :
    (∀ f ∈ [0x00, 0x01, 0x02, 0x08, 0x09, 0x0A], isR 0x29 f (wR 0x29 f) = true ∧ executes (wR 0x29 f) 0x1FFF0 1 0 = true ∧
      executes (wR 0x29 f) 0x1FFF4 1 0 = true ∧ executes (wR 0x29 f) 0x20000 0 0 = true) ∧
    isR1 0x29 0x03 (wR1 0x29 0x03) = true ∧ executes (wR1 0x29 0x03) 0x1FFF0 0 0 = true ∧
    memClean (ceAt 0 0 0 0) (ceBase 0 + 0x20000 + 0x1FFF0) 16 = true ∧
    (let c (b : Nat) := TimerCell.ofBytes (leBytes 12 5 ++ leBytes 4 b)
     (c 0).last = false ∧ (c 0).out = false ∧ (c 2).out = true ∧ (c 1).last = true) := by decide +kernel

/-- SystemGroup: NOP, TRAP with 0x80 and 0xFF, EVT with 0x100, RDT with each selector, FSTAT. -/
theorem witness_SystemGroup :
    ([wS 0 0 0 0, wS 2 0 0 0x80, wS 2 0 0 0xFF, wS 3 0 1 0x100, wS 3 0 1 0xFFF, wS 5 2 0 0] ++
        (List.range 7).map (fun i => wS 4 2 0 i)).all (fun w => iOp w == 0x2A && executes w 0 0 0) = true ∧
    field (wS 2 0 0 0xFF) 15 12 = 2 ∧ field (wS 3 0 1 0x100) 11 0 = 0x100 ∧ iRa (wS 4 2 0 6) = 0 := by decide +kernel

/-- EndOfRelease: within the budget, and a copy-out that breaks it. -/
theorem witness_EndOfRelease :
    let w := wS 1 0 0 0
    iOp w = 0x2A ∧ field w 15 12 = 1 ∧ executes w 0 0 0 = true ∧
    (tt.task 0 1).any (fun r => r.budget == 1 && !overBudget r 50 && overBudget r 0x7FFFFFFF) = true := by decide +kernel

/-- FetchTraps: an illegal word, a pc at the end of the text with and without a broken budget. -/
theorem witness_FetchTraps :
    let s := ceAt 0xFFFFFFFF 0 0 0
    let past (n : Nat) : State := ceSet 0 { engine 0 0 0 0 with tasks := [(1, { bank 0x200 0 0 0 with cycles := n })] } s
    executes 0xFFFFFFFF 0 0 0 = true ∧ legalWord 0xFFFFFFFF = false ∧
    (∀ n ∈ [0, 0x7FFFFFFF],
      (ceCtx 0 (past n)).any (fun c => !c.inText && overBudget c.r c.t.cycles == decide (0 < n)) = true) := by decide +kernel

/-- TrapEntry: a running task with each policy; the trap register read and not read. -/
theorem witness_TrapEntry :
    let s := ceAt 0 0 0 0
    Canonical s ∧ (tt.task 0 1).any (fun r => r.task == 1 && r.engine == 0 && r.trapPolicy == 0) = true ∧
    (ceGet s 0).run = some 1 ∧ (tt.task 0 2).any (fun r => r.trapPolicy == 1) = true ∧ (taskGet s 0 2).pendingRel = false ∧
    getBit s Reg.CE_E_TRAP 12 = false ∧ getBit (setBit Reg.CE_E_TRAP 12 true s) Reg.CE_E_TRAP 12 = true := by
  refine ⟨canonical_of _ (by decide), ?_⟩
  decide +kernel

/-- RegisterBank. -/
theorem witness_RegisterBank : (bank 0 1 2 3).w.length = 32 ∧ (0 : Nat) < 31 ∧ (31 : Nat) < 32 ∧ (1 : Nat) ≠ 31 := by decide +kernel

/-- A state with domain `d` in a given state. -/
def domAt (d : Nat) (x : Domain) (m : Mode) : State := setDom d x (on m)

/-- DomainStates: the first and the last domain in every state of R409; demand that rises, falls and stays; a lingering host
demand and one that has lingered; a domain that stays; a use at the next tick and none; work that goes on and has ended. -/
theorem witness_DomainStates :
    ([1, 17].all (fun d => [DomSt.off, .starting, .on, .stopping].all (fun st =>
      let x : Domain := { st := st }
      (dom (domAt d x .ready) d).st == st && !x.demand && (x.setUser .host true).demand && !domStays (domAt 17 x .ready) 17 &&
      ({ x with restart := true }).restart))) = true ∧
    domStays (on .run) 15 = true ∧ domStays (on .run) 1 = true ∧
    (let s := domAt 6 { st := .on, host := true, scheduled := true } .ready
     (dom s 6).demand = true ∧ ((dom s 6).setUser .host false).demand = true ∧
     ¬ getFld s Reg.PWR_CTL 23 16 * 1024 < (s.pwr.tick - s.pwr.tick + 1) * 1000 ∧
     getFld s Reg.PWR_CTL 23 16 * 1024 < (300000 - (dom s 6).hostTick + 1) * 1000 ∧ s.pwr.tick < 2 ^ 48) ∧
    (let s := dv (fun d => { d with hwRunning := true, tickInHw := 255, optCount := 3 }) (on .run)
     usedNext 4 s = true ∧ s.pwr.sub ≤ 32 - getFld s Reg.PWR_CTL 3 0 ∧ usedNext 5 (on .hold) = false ∧
     usedNext 4 (pw (fun p => { p with sub := 32 - getFld s Reg.PWR_CTL 11 8 }) s) = true ∧
     32 ≤ 32 - getFld s Reg.PWR_CTL 11 8 + getFld s Reg.PWR_CTL 11 8) ∧
    (let s := domAt 4 { st := .on, scheduled := true } .ready
     (dom s 4).st = .on ∧ (dom s 4).scheduled = true ∧ domStays s 4 = false ∧ domBusy 4 s = false ∧ usedNext 4 s = false) ∧
    (let s := domAt 4 { st := .on, work := true } .ready
     (dom s 4).work = true ∧ domBusy 4 { s with opt := { s.opt with phase := .factor } } = true) := by decide +kernel

/-- ClockFaults. -/
theorem witness_ClockFaults :
    let s := on .run
    s.pwr.rcClock = false ∧ (pw (fun p => { p with rcClock := true }) s).pwr.rcClock = true ∧
    (∀ p ∈ [(Pll.sys, 1), (.slv, 5), (.ser, 17)], p.2 ∈ pllDoms p.1 ∧ (dom s p.2).st = .on) ∧ s.pwr.powerGood = true ∧
    s.pwr.rstLow = false ∧ (ev (fun e => { e with ready := true }) s).mgt.evr.ready = true ∧ boot.dev.mode = .boot ∧ boot.pwr.powerGood = true ∧
    (hf (fun h => { h with mbState := 1 }) s).hif.mbState = 1 := by decide +kernel

/-- HealthSample: 110 °C exactly, and rails at 1 % of each end of their range. -/
theorem witness_HealthSample :
    110 ≤ f32RatD 0x42DC0000#32 ∧ ¬ 110 ≤ f32RatD 0x42DBFFFF#32 ∧
    (2020 : Rat) ≤ (railRange 3).1 * 101 / 100 ∧ (railRange 3).2 * 99 / 100 ≤ (3564 : Rat) ∧
    [0#32, 0#32, 0#32, 0x42DC0000#32].length = 4 ∧ [750, 800, 1800, 2020, 3300, 1800, 5000].length = 7 := by decide +kernel

/-- SuppliesResetsAndWarnings: RST_N, the supplies, VAO, and PFW_N at the filter time. -/
theorem witness_SuppliesResetsAndWarnings :
    let s := on .run
    (s.pwr.rstLow = false ∧ s.pwr.rstHeld = false ∧ s.pwr.saving = false ∧ s.pwr.saved = false) ∧
    (let v := pw (fun p => { p with saving := true, rstHeld := true }) s; v.pwr.saving = true ∧ v.pwr.rstHeld = true) ∧
    (let v := pw (fun p => { p with rstLow := true }) boot
     v.dev.mode = .boot ∧ v.pwr.saving = false ∧ v.pwr.rstHeld = false ∧ v.pwr.powerGood = true ∧ v.dev.bootPending.isSome = true) ∧
    (State.reset.dev.mode = .boot ∧ State.reset.pwr.powerGood = false ∧ State.reset.pwr.vao = true ∧
      State.reset.pwr.rstLow = false ∧ State.reset.pwr.saving = false) ∧
    (pw (fun p => { p with rstLow := true }) State.reset).pwr.rstLow = true ∧
    calUnits State.reset.mgt.cal + 1 < 2 ^ 48 ∧
    (let n := getFld s Reg.PWR_PFW 5 0 * 1000; n - 1 < n) ∧
    (let v := pw (fun p => { p with saved := true }) s; v.pwr.saved = true ∧ v.pwr.powerGood = true ∧ v.dev.mode ≠ .boot) := by
  decide +kernel

/-- CausesAndFatalCauses, HealthSample, SnapStrobes, JoinTrainsAndPolls and others: registers in canonical form. -/
theorem witness_RegsWf : ∀ m ∈ [Mode.ready, .run, .standby, .safe], RegsWf (on m) ∧ NvWf (on m) := by
  intro m hm
  unfold RegsWf NvWf
  fin_cases hm <;> exact ⟨by decide +kernel, by decide +kernel⟩

/-- CalendarAndPps: a set within one second and one beyond, a slew each way, the leap second each way, PPS errors at 100 ms
and beyond, and a lock that is due to end. -/
theorem witness_CalendarAndPps :
    let c (sec slew : Int) : State := cl (fun c =>
      { c with
        valid := true
        seconds := sec.toNat
        slew := slew
        slewTick := 32
        ppsTicks := 4096 }) (on .run)
    let due (k sec : Nat) : State := setFld Reg.MGT_CAL_LEAP 17 16 k (setFld Reg.MGT_CAL_LEAP 15 0 1 (cl (fun c =>
      { c with
        frac := 65472
        leapDone := true }) (c sec 0)))
    let set (n : Nat) (s : State) : State := setReg Reg.MGT_CAL_SETSEC (BitVec.ofNat 32 n) s
    let v (s : State) : Int := ((getReg s Reg.MGT_CAL_SETSEC).toNat * 65536 + getFld s Reg.MGT_CAL_SETFRAC 15 0 : Nat)
    |v (set 8 (c 7 0)) - calUnits (set 8 (c 7 0)).mgt.cal| ≤ 65536 ∧ ¬ |v (set 9 (c 7 0)) - calUnits (set 9 (c 7 0)).mgt.cal| ≤ 65536 ∧
    (∀ d ∈ [(1 : Int), -1], (c 7 d).mgt.cal.slew ≠ 0 ∧ 32 ≤ (c 7 d).mgt.cal.slewTick ∧ 0 < calUnits (c 7 d).mgt.cal ∧
      calUnits (c 7 d).mgt.cal < 2 ^ 48 - 1 ∧
      leapPending (c 7 d) = false ∧ (c 7 d).mgt.cal.leapNow = false ∧ (c 7 d).mgt.cal.leapDone = false) ∧
    (∀ k ∈ [(1, 172799), (2, 172797)], let s := due k.1 k.2; s.mgt.cal.leapDone = true ∧ getFld s Reg.MGT_CAL_LEAP 17 16 = k.1 ∧
      s.mgt.cal.seconds + (if k.1 = 1 then 1 else 3) = getFld s Reg.MGT_CAL_LEAP 15 0 * 86400 + 86400 ∧
      65536 ≤ s.mgt.cal.frac + 64) ∧
    (let s := setBit Reg.MGT_CAL_PPS 0 true (c 7 0); getBit s Reg.MGT_CAL_PPS 0 = true ∧ s.mgt.cal.valid = true ∧
      4096 ≤ s.mgt.cal.ppsTicks ∧ s.mgt.cal.frac = 0) ∧
    |(100000 : Rat)| ≤ 100000 ∧ ¬ |(100001 : Rat)| ≤ 100000 ∧ |(100 : Rat)| ≤ 100 ∧ (on .run).mgt.cal.ppsTicks < 4096 := by
  decide +kernel

/-- EventRecorder: a bucket that can pay and one that cannot; a class written directly and one that is buffered; a flush that
is due; a second of refill; an hour; a scan. -/
theorem witness_EventRecorder :
    let b (n : Nat) : State := ev (fun e => { e with buckets := [{ code := 0xA101, source := 5, tokens := n }], ready := true }) (on .run)
    (∀ n ∈ [3600, 3599], (b n).mgt.evr.buckets.findIdx? (fun x => x.code == 0xA101 && x.source == 5) = some 0 ∧
      (b n).mgt.evr.ready = true ∧ (b n).mgt.evr.queue = [] ∧ (b n).pwr.powerGood = true ∧ (b n).pwr.rstLow = false ∧
      (b n).jnl.cur = none ∧ (b n).jnl.queue = [] ∧ (b n).mgt.evr.seq < 2 ^ 48 ∧ (b n).mgt.evr.buffer.length < 3071) ∧
    0xC123 / 4096 = 12 ∧ ¬ ((theTt (onWith .run { tt with eventClasses := [{ code := 0xA101, mode := 1 }] })).eventClass 0xA101).mode = 0 ∧
    (let s := setFld Reg.MGT_EVR_CTL 11 0 1 { on .run with mgt := { (on .run).mgt with flushTicks := 1024 } }
     0 < getFld s Reg.MGT_EVR_CTL 11 0 ∧ getFld s Reg.MGT_EVR_CTL 11 0 * 1024 ≤ s.mgt.flushTicks) ∧
    (on .run).pwr.tick % 1024 = 0 ∧ (stamp (cl (fun c => { c with valid := true, seconds := 7200 }) (on .run))).1 % 3600 = 0 ∧
    (ev (fun e => { e with scanning := true }) (on .run)).mgt.evr.waiting = [] := by decide +kernel

/-- SnapshotsAndLatchingReads: each condition of a strobe, set and clear. -/
theorem witness_SnapshotsAndLatchingReads :
    let s := { on .run with mgt := { (on .run).mgt with snapDue := true, snapCount := 1 } }
    (∀ i ∈ [1, 2, 3], getBit (setBit Reg.MGT_SNAP_CTL i false s) Reg.MGT_SNAP_CTL i = false ∧
      getBit (setBit Reg.MGT_SNAP_CTL i true s) Reg.MGT_SNAP_CTL i = true) ∧ s.mgt.snapDue = true ∧
    getFld (setFld Reg.MGT_SNAP_PER 15 0 1 s) Reg.MGT_SNAP_PER 15 0 ≤ s.mgt.snapCount ∧ (on .run).mgt.snapDue = false ∧
    (on .run).pwr.sub < 32 := by decide +kernel

/-- TransactionCommands: the states for BEGIN, an open transaction with the right and a wrong key, its idle time just spent;
COMMIT granted and not, with the writer open, with a staged slot, with an entry that is refused and one that is not. -/
theorem witness_TransactionCommands :
    let o := tx (fun x => { x with st := 1, idleTicks := 30 * 1024 }) (on .run)
    (on .run).tx.st = 0 ∧ hold.dev.mode = .hold ∧ o.tx.st = 1 ∧ txIdleTime o * 1024 ≤ o.tx.idleTicks ∧
    (tx (fun x => { x with idleTicks := 30 * 1024 - 1 }) o).tx.idleTicks < txIdleTime o * 1024 ∧
    secFlag o 2 = false ∧ secFlag (onWith .run { tt with security := { tt.security with flags := 4 } }) 2 = true ∧
    (dv (fun d => { d with writer := some 0 }) o).dev.writer.isSome = true ∧
    (tx (fun x => { x with stagedSlot := some 1 }) o).tx.stagedSlot = some 1 ∧
    (let e : Nat × Word := (Reg.MGT_SNAP_PER, 1)
     let s1 := tx (fun x => { x with st := 2, cmdStatus := 1, idleTicks := 0, entries := [e] }) o
     entryRefused s1 (txFinal s1) e = false ∧ e.1 ≠ Reg.MTR_TAR_D + 8 ∧ e.1 ≠ Reg.MTR_DAYOFS) ∧
    (let e : Nat × Word := (Reg.OPT_FC_CTL, 0x1FF)
     let s1 := tx (fun x => { x with st := 2, cmdStatus := 1, idleTicks := 0, entries := [e] }) o
     entryRefused s1 (txFinal s1) e = true) := by decide +kernel

/-- CommitBoundary: due by a headway start and by a prompt commit, and not due. -/
theorem witness_CommitBoundary :
    let s := tx (fun x => { x with st := 4, shadowTick := 1022 }) (on .run)
    s.tx.st = 4 ∧ s.tx.shadowTick + 2 ≤ s.pwr.tick ∧ (dv (fun d => { d with hwDue := true }) s).dev.hwDue = true ∧
    (tx (fun x => { x with prompt := true }) s).tx.prompt = true ∧ hwStates s.dev.mode = true ∧ workHalted s = false ∧
    ¬ (tx (fun x => { x with shadowTick := 1023 }) s).tx.shadowTick + 2 ≤ s.pwr.tick := by decide +kernel

/-- The check value of a partition's password. -/
theorem witness_right (k : List Byte) (c : Partition) (h : (psCheck 0 true k).isEmpty = false) :
    let s := pst (fun p => { p with key := k, parts := [{ c with writeCheck := psCheck 0 true k }, {}, {}, {}] }) (on .run)
    psCheck 0 true s.ps.key = psCheckOf s 0 true := by
  have : psCheckOf (pst (fun p => { p with key := k, parts := [{ c with writeCheck := psCheck 0 true k }, {}, {}, {}] })
    (on .run)) 0 true = if (psCheck 0 true k).isEmpty then psCheck 0 true (List.replicate 16 0#8) else psCheck 0 true k := rfl
  simp only [this, h]
  rfl

/-- ParameterStore: the last partition; open and closed, locked out and not; a page to its last byte. -/
theorem witness_ParameterStore :
    let s := pst (fun p => { p with parts := [{ writeOpen := true, writeLock := 1 }, {}, {}, { writeOpen := true }] }) (on .run)
    (0 < (psPart s 0).writeLock ∧ (psPart s 1).writeLock = 0 ∧ (psPart s 1).writeOpen = false ∧ hwStates s.dev.mode = true) ∧
    (psPartOf 0x0EA000F8 = some 0 ∧ psReason 0 true s = 0 ∧ 0x0EA000F8 % 256 + 8 ≤ 256 ∧ s.ps.programming = false) ∧
    (psPartOf 0x0F1FFFFF = some 3 ∧ psReason 3 true s ≠ 0) := by decide +kernel

/-- JournalCopies: a record of 16 bytes before and after copy A. -/
theorem witness_JournalCopies :
    let j (d : Bool) : State := { on .run with jnl := { (on .run).jnl with
      pairs := [0]
      cur := some { off := 64, bytes := List.replicate 16 1#8, durable := d, req := { owner := .done } } } }
    ∀ d ∈ [true, false], match (j d).jnl.cur with
      | some c => c.durable = d ∧ c.req.owner = .done ∧ c.retries < 2 ∧ (j d).jnl.queue = [] ∧ (j d).jnl.compacting = false ∧
        (j d).jnl.pairs ≠ [] ∧ (j d).pwr.rstHeld = false ∧ (List.replicate 16 2#8) ≠ c.bytes ∧
        (List.replicate 16 2#8 : List Byte).length = c.bytes.length
      | none => False := by decide +kernel

/-- RegisterWrites: each row of one register performed in a state of the host port that allows it, one refused, and the
staged ones. -/
theorem witness_RegisterWrites :
    let s := setReg (Reg.LPE_L_OMAX + 0xC0) 0x3F800000 (setReg (Reg.LPE_L_TI + 0xC0) 0x3F800000 (on .run))
    let o := tx (fun x => { x with st := 1 }) s
    let h (s : State) (a : Nat) : State := hostTouch (neededDomains a 4) s
    ([(Reg.SLK_STN_SEL, 5#32), (Reg.CHN_SEL, 3), (Reg.MTR_SEL, 0), (Reg.MTR_IVL_SEL, 0),
      (Reg.HYD_CTL, withBits Reg.HYD_CTL 0x100 s), (Reg.OPT_CTL, withBits Reg.OPT_CTL 4 s),
      (Reg.LPE_L_KP + 0xC0, 0x3F800000), (Reg.LPE_L_CTL + 0xC0, 1), (Reg.LPE_L_CTL + 0xC0, 2),
      (Reg.LPE_INJ_CTL + 0x60, 0x01071403), (Reg.LPE_INJ_CTL + 0x60, withBits (Reg.LPE_INJ_CTL + 0x60) 0x2000 s),
      (Reg.LPE_CAP_CTL + 0x60, 0x00010103), (Reg.LPE_CAP_CTL + 0x60, withBits (Reg.LPE_CAP_CTL + 0x60) 0x200 s),
      (Reg.CE_CMD, ceCmdWord 0 2 1 0xC0DE), (Reg.CE_PATCH_CTL, 0x10000)].all
        (fun p => !stages (h s p.1) p.1 && writeReason p.1 p.2 (h s p.1) == 0 && served s p.1 4)) = true ∧
    ([(Reg.MTR_TAR_D + 8, 0#32), (Reg.MTR_DAYOFS, 0), (Reg.SLV_CTL, withBits Reg.SLV_CTL 0x100 (on .ready))].all
        (fun p => !stages (h (on .ready) p.1) p.1 && writeReason p.1 p.2 (h (on .ready) p.1) == 0 && served (on .ready) p.1 4)) = true ∧
    (∃ d ∈ neededDomains Reg.RED_CTL 4, (dom (setDom 17 {} s) d).st ≠ .on) ∧ hostOpen s = true ∧ hostOpen (on .ready) = true ∧
    writeReason Reg.OPT_FC_CTL 0x1FF s ≠ 0 ∧ stages s Reg.OPT_FC_CTL = false ∧
    (stages o Reg.LPE_L_CTL = true ∧ Reg.LPE_L_CTL ∉ selectors ∧ o.tx.entries.length < 4096) ∧
    (stages o Reg.MTR_SEL = true ∧ Reg.MTR_SEL ∈ selectors ∧ writeReason Reg.MTR_SEL 71 o = 0 ∧ writeReason Reg.MTR_SEL 72 o ≠ 0) ∧
    regFind 0xFFFFC = none ∧ (regFind Reg.RED_CTL).any (fun r => r.fields.all (fun f => f.lo ≤ f.hi && f.hi < 32)) = true ∧
    Reg.RED_CTL / 0x10000 ∈ [2, 3, 4, 6, 11, 13, 15] ∧ s.red.sync = false ∧ s.dev.mode ≠ .standby := by decide +kernel

/-- StatusAndReadFrames: the request's CRC, and a read of one register window. -/
theorem witness_StatusAndReadFrames :
    let s := on .run
    let a := Reg.PWR_STAT
    (accessCode false a 8 s).1 = none ∧ hostRange a = some (.window (a / 0x10000)) ∧ (8 : Nat) ≤ 4096 ∧ s.hif.pending = none ∧
    s.pwr.saving = false ∧ (dom s 1).st = .on ∧ (dom (setDom 1 {} s) 1).st ≠ .on ∧ placeReason a 8 = 0 ∧ (crc16 (0x03#8 :: (beBytes 4 a ++ beBytes 2 8))).toNat < 65536 ∧
    (pw (fun p => { p with saving := true }) s).pwr.saving = true ∧ s.pwr.powerGood = true ∧ boot.dev.mode = .boot ∧
    (4096 : Nat) < 4097 := by decide +kernel

/-- WriteFrames: two words that are performed, two of which the second is refused, and one that is staged. -/
theorem witness_WriteFrames :
    let s := on .run
    let o := tx (fun x => { x with st := 1 }) s
    let put (a : Nat) (s : State) : Nat × Bool × Bool :=
      let r := wordsWrite (burstWords a [0x00#8, 0x00#8, 0x00#8, 0x00#8, 0x00#8, 0x00#8, 0x01#8, 0xFF#8]) 0 true s
      (r.1, r.2.1, r.2.2.1.isSome)
    (accessCode true Reg.MGT_SNAP_CTL 8 s).1 = none ∧ put Reg.MGT_SNAP_CTL s = (2, false, false) ∧
    (accessCode true (Reg.MTR_DAYOFS - 4) 8 s).1 = none ∧ put (Reg.MTR_DAYOFS - 4) s = (1, false, true) ∧
    (wordsWrite (burstWords Reg.LPE_L_CTL [0x00#8, 0x00#8, 0x00#8, 0x01#8]) 0 true o).2.1 = true := by decide +kernel

/-- HostPortEvents: a window write and a write of the request buffer that wait. -/
theorem witness_HostPortEvents :
    let w (a : Nat) : State := hf (fun h => { h with pending := some (a, [1#8, 2#8, 3#8, 4#8]), inResponse := true }) (on .run)
    hostRange Reg.MGT_SNAP_CTL = some (.window (Reg.MGT_SNAP_CTL / 0x10000)) ∧ (w Reg.MGT_SNAP_CTL).hif.pending.isSome = true ∧
    hostRange 0xF1FFC = some .request ∧ 0xF1000 ≤ 0xF1FFC ∧ 0xF1FFC + 4 ≤ 0xF2000 ∧
    smWf (fun _ => 0#8) (w 0xF1FFC).hif.reqBuf = true ∧ (w 0xF1FFC).hif.latched = [] ∧
    (hostWord Reg.MGT_SNAP_CTL 0 (on .run)).1 = .done ∧ (0x04#8 : Byte) ∉ [0x03#8, 0xEB#8, 0x02#8, 0x38#8, 0x05#8, 0x75#8] := by
  decide +kernel

/-- A state in which the mailbox is busy with a command of a code and its request data. -/
def mbx (code : Nat) (r : List Byte) (s : State) : State :=
  hf (fun h => { h with mbState := 1, reqBuf := r.zipIdx.filterMap (fun p => if p.1 = 0 then none else some (p.2, p.1)) })
    (setFld Reg.HIF_MB_CMD 28 16 r.length (setFld Reg.HIF_MB_CMD 7 0 code s))

/-- Loaded entries of the key store, with a healthy random source. -/
def keyed (s : State) : State := ky (fun k => { k with
  rngOk := true
  entries := [(0, { ptr := { st := 1, type := 1, attr := 1, flags := 1 } }), (1, { ptr := { st := 1, attr := 2 } }),
    (2, { ptr := { st := 1, type := 1, attr := 3 } }), (3, { ptr := { st := 1, type := 1, attr := 4, flags := 1 } })]
  maLog := List.replicate 3 (List.replicate 64 0) }) s

/-- The mailbox is busy with that command, and takes it. -/
def takes (code : Nat) (r : List Byte) (s : State) : Bool :=
  let t := mbx code r s
  t.hif.mbState == 1 && !t.hif.mbWait && getFld t Reg.HIF_MB_CMD 7 0 == code && mbReq t == r && t.dev.mode != .boot &&
    (t.dev.mode != .run || bit (theTt t).security.hostWriteMask 14) && !t.mgt.recovery && !t.ps.programming && !keyBusy t &&
    (t.dev.mode == .hold || t.dev.mode == .ready || bit (theTt t).security.hostWriteMask 14)

/-- What `takes` decides is what the statements of the mailbox and of the key store ask. -/
theorem takes_iff (code : Nat) (r : List Byte) (s : State) (h : takes code r s = true) :
    MbTakes code r (mbx code r s) ∧ KeyTakes code r (mbx code r s) := by
  simp only [takes, Bool.and_eq_true, beq_iff_eq, Bool.not_eq_true', bne_iff_ne, ne_eq, Bool.or_eq_true] at h
  obtain ⟨⟨⟨⟨⟨⟨⟨⟨⟨h1, h2⟩, h3⟩, h4⟩, h5⟩, h6⟩, h7⟩, h8⟩, h9⟩, h10⟩ := h
  have hb : MbBusy code r (mbx code r s) := ⟨h1, h2, h3, h4, h5⟩
  refine ⟨⟨hb, fun hr => ?_, h7, h8⟩, ⟨hb, h7, h9, ?_⟩⟩
  · cases h6 with
    | inl h => exact absurd hr h
    | inr h => exact h
  · rcases h10 with (h | h) | h
    · exact .inl h
    · exact .inr (.inl h)
    · exact .inr (.inr h)

/-- MailboxCommands: the protocol's states, and a reader's request of one record and of 127. -/
theorem witness_MailboxCommands :
    takes 0x01 [] hold = true ∧ takes 0x30 [0, 0, 0, 0, 0, 0, 127] (on .run) = true ∧ takes 0x31 [] (on .run) = true ∧
    takes 0x32 [0xFF, 0xFF, 0, 0, 1] (on .run) = true ∧ takes 0x33 [0x47, 0x80, 0, 0, 127] (on .run) = true ∧
    takes 0x34 [15, 0, 0xF0, 0x0F, 0, 0, 0x10, 0, 0] (on .run) = true ∧
    u32 [15, 0, 0xF0, 0x0F, 0, 0, 0x10, 0, 0] 1 + u32 [15, 0, 0xF0, 0x0F, 0, 0, 0x10, 0, 0] 5 ≤ 0x100000 ∧
    ([0x01, 0x10, 0x25, 0x34, 0x40, 0x53].all (fun c =>
      let b := dv (fun d => { d with mode := .boot, tt := none }) (mbx c [] hold)
      let k := ky (fun k => { k with wr := some {} }) (mbx c [] hold)
      let w := hf (fun h => { h with mbWait := true }) (mbx c [] hold)
      b.hif.mbState == 1 && getFld b Reg.HIF_MB_CMD 7 0 == c && keyBusy k && k.dev.mode == .hold && w.hif.mbWait)) = true ∧
    0xFF ∉ mbKnown ∧ getFld (mbx 0xFF [] hold) Reg.HIF_MB_CMD 7 0 = 0xFF ∧
    (hf (fun h => { h with mbState := 2 }) hold).hif.mbState = 2 := by decide +kernel

/-- TimetableWriter: opening, writing to the slot's last bytes and beyond, closing an image whose CRC holds and one whose
CRC does not, aborting, reading the last 4,096 bytes. -/
theorem witness_TimetableWriter :
    let w := dv (fun d => { d with writer := some 0 }) hold
    let bytes (crc : List Byte) : List Byte :=
      leBytes 12 0 ++ leBytes 4 224 ++ List.replicate (64 - 16) 0#8 ++ (leBytes 4 0 ++ crc ++ List.replicate 152 0#8)
    let img := leBytes 4 magicDxtt ++ (bytes []).drop 4
    let good := wordBytes (crc32c (img.take 64))
    takes 0x10 [1] hold = true ∧ hold.dev.writer = none ∧ hold.mgt.fwWriter = none ∧ hold.tx.st ≤ 1 ∧ hold.tx.stagedSlot = none ∧
    takes 0x11 (leBytes 4 16777208 ++ List.replicate 8 7#8) w = true ∧ takes 0x11 (leBytes 4 16777216 ++ List.replicate 8 7#8) w = true ∧
    takes 0x12 (leBytes 4 224) w = true ∧
    (let t := nvWrite (ttSlotBase 0) ((bytes good).set 0 1) w
     u32 (nvRead t (ttSlotBase 0) 16) 0xC = 224 ∧
     (let i := leBytes 4 magicDxtt ++ nvRead t (ttSlotBase 0 + 4) (224 - 4)
      u32 (slice i (224 - 160) 160) 4 = (crc32c (i.take (224 - 160))).toNat ∧
      u32 (slice i (224 - 160) 160) 4 ≠ (crc32c ((i.set 20 1#8).take (224 - 160))).toNat)) ∧
    takes 0x13 [] w = true ∧ takes 0x14 ([1#8] ++ leBytes 4 (16777216 - 4096) ++ leBytes 4 4096) hold = true := by decide +kernel

/-- FirmwareUpdate. -/
theorem witness_FirmwareUpdate :
    let w := { hold with mgt := { hold.mgt with fwWriter := some 1 } }
    let v := { hold with mgt := { hold.mgt with trial := true } }
    takes 0x20 [1] hold = true ∧ hold.mgt.fwWriter = none ∧ hold.dev.writer = none ∧ (hold.mgt.fwRunning = false ∨ 1 ≠ hold.mgt.fwSlot) ∧
    takes 0x21 (leBytes 4 4194296 ++ List.replicate 8 7#8) w = true ∧ takes 0x22 [] w = true ∧ takes 0x23 [1] hold = true ∧
    takes 0x24 [] v = true ∧ hold.mgt.trial = false ∧ takes 0x25 ([1#8] ++ leBytes 4 (4194304 - 4096) ++ leBytes 4 4096) hold = true := by
  decide +kernel

/-- KeyWritesAndRemask, KeyServices: entries of every use, the last ones that each command takes, and requests of the
lengths that it asks. -/
theorem witness_KeyCommands :
    let s := keyed hold
    let serves (w attr : Nat) : Bool := keyLoaded s w && (keyEntry s w).ptr.attr == attr
    takes 0x41 [55, 0, 1, 0, 0] s = true ∧ keyAttrsOk 55 0 1 0 = true ∧ keyAttrsOk 3 2 4 1 = true ∧
    takes 0x42 ([55, 2] ++ List.replicate 48 0) s = true ∧ serves 2 3 = true ∧ serves 3 4 = true ∧ serves 0 1 = true ∧
    serves 1 2 = true ∧ takes 0x43 ([55, 3, 1, 1, 1, 0, 55, 0, 0, 0, 64] ++ List.replicate 64 0) s = true ∧
    bit (keyEntry s 3).ptr.flags 0 = true ∧ takes 0x45 [3] s = true ∧ keyLoaded s 3 = true ∧ keyLoaded s 63 = false ∧
    takes 0x46 [0xFF] s = true ∧ keyMaskable s 3 = true ∧ takes 0x47 ([2] ++ List.replicate 48 0) s = true ∧
    takes 0x48 ([63] ++ List.replicate 32 0 ++ leBytes 4 12) s = true ∧
    takes 0x52 ([7, 3] ++ List.replicate 194 1) s = true ∧ (keyEntry s 0x47).ptr.st = 0 ∧
    takes 0x40 [3] s = true ∧ takes 0x40 [56] s = true ∧ (keyEntry s 0x48).ptr.st = 0 ∧ takes 0x44 [0, 2] s = true ∧ bit (keyEntry s 0).ptr.flags 0 = true ∧
    takes 0x49 ([7] ++ List.replicate 48 1) s = true ∧ s.key.ma.length = 8 ∧ takes 0x4A [] s = true ∧
    takes 0x4B [2, 1] s = true ∧ takes 0x4B [3, 1] s = true ∧ s.key.maLog.length = 3 ∧
    takes 0x4C ([0, 0, 1] ++ List.replicate 256 0) s = true ∧ takes 0x4D ([1, 0, 0] ++ List.replicate 28 0) s = true ∧
    takes 0x4E [3, 0xFF, 7, 7, 2] s = true ∧ (keyEntry s 3).ptr.type = 1 ∧ takes 0x50 (List.replicate 32 0) s = true ∧
    takes 0x51 [] s = true ∧ takes 0x53 [7] s = true ∧ (signer s 0).isSome = true ∧ (signer s 7).isNone = true ∧
    s.key.rngOk = true ∧ hold.key.rngOk = false ∧
    (let r := ky (fun k => { k with round := [3, 2] }) s; r.key.round = 3 :: [2] ∧ keyMaskable r 3 = true ∧ keyBusy r = false ∧
      smWf (fun _ => ({} : KeyEntry)) r.key.entries = true) := by decide +kernel

/-- Conversions: in range and failed, with and without a hold value, at 105 % of the range of mode 1. -/
theorem witness_Conversions :
    let s := { on .run with chn := { (on .run).chn with scanPos := (List.range 32).map (fun _ => 0) } }
    tt.chan 0 = some { channel := 0, mode := 1, p0 := 2, flags := 1, hold := 0x3F800000#32 } ∧ tt.redundancy.mode = 0 ∧
    domOn s 15 = true ∧ s.dev.mode ≠ .standby ∧ blind s { channel := 0, mode := 1 } = false ∧ scanNext s 0 = some 0 ∧ s.chn.ciNext = [] ∧ smWf (imgInit 2) s.img.ci = true ∧
    smWf (fun _ => ({} : ChanState)) s.chn.chans = true ∧
    ((convRead (tt.platform 0) { mode := 1 } (2625 / 1000) 0 false false).bad = false) ∧
    ((convRead (tt.platform 0) { mode := 1 } (2626 / 1000) 0 false false).bad = true) ∧
    ((convRead (tt.platform 0) { mode := 1 } (-2626 / 1000) 0 false false).bad = true) ∧
    ((convRead (tt.platform 0) { mode := 1 } 0 0 true false).bad = true) := by decide +kernel

/-- A state in which channel `c` has a state of its own. -/
def chAt (c : Nat) (x : ChanState) : State := setChan c x (on .run)

/-- DigitalInputs: without a level, with each level, with and without chatter detection, in chatter, held high too long. -/
theorem witness_DigitalInputs :
    let r := (tt.chan 16).getD {}
    let q := (tt.chan 17).getD {}
    domOn (on .run) 15 = true ∧ r.mode = 7 ∧ q.mode = 7 ∧ q.channel = 17 ∧ r.p0 = 0 ∧ q.p0 ≠ 0 ∧ blind (on .run) r = false ∧
    (chanSt (chAt 16 {}) 16).level = none ∧ (chanSt (chAt 16 { level := some true }) 16).level = some true ∧
    (let s := chAt 17 { level := some false, edges := [16000000] }
     let recent := (chanSt s 17).edges.filter (fun t => decide (s.pwr.tick * 15625 ≤ t + q.p0 * 16000))
     q.p1 % 256 < (recent ++ [s.pwr.tick * 15625]).length ∧ smWf (fun _ => ({} : ChanState)) s.chn.chans = true) ∧
    (let s := chAt 17 { chatter := true, edges := [0] }
     (chanSt s 17).chatter = true ∧ ([] : List Nat).length ≤ q.p1 % 256 / 2) ∧
    (let s := pw (fun p => { p with tick := 3600 * 1024 + 1 }) (chAt 16 { level := some true })
     bits r.p1 13 8 ≠ 0 ∧ bits q.p1 13 8 = 0 ∧ bits r.p1 13 8 * 3600 * 1024 < s.pwr.tick - (chanSt s 16).highTick) := by
  decide +kernel

/-- PulsesAndPwm: a counter with its window closed and open, not configured; a PWM channel; a test pulse queued and none. -/
theorem witness_PulsesAndPwm :
    let x (w : Bool) : State := pcSet 63 { configured := true, channel := 16, winOpen := w } (on .run)
    ([true, false].all (fun w => (pcGet (x w) 63).configured && !chanBlind (x w) (pcGet (x w) 63).channel)) = true ∧
    (dv (fun d => { d with mode := .hold, tt := none }) (x true)).dev.mode = .hold ∧ (pcGet (on .run) 0).configured = false ∧
    (tt.chan 32).any (fun r => r.mode == 19 && r.channel == 32 && (chnTarget (on .run) r).isSome) = true ∧
    (tt.chan 48).any (fun r => r.mode == 20 && r.channel == 48 &&
      decide (0 < (chanSt (setChan 48 { tpQueue := 1 } (on .run)) 48).tpQueue) &&
      (chanSt (on .run) 48).tpQueue == 0) = true ∧ domOn (on .run) 15 = true ∧ (chanSt (on .run) 48).pulseTick = none := by decide +kernel

/-- RegistersAccumulate: a fresh meter and a quantity of a half. -/
theorem witness_RegistersAccumulate :
    ({} : MeterSt).regs.length = 10 ∧ ({} : MeterSt).res.length = 10 ∧ (0 : Rat) ≤ nth ({} : MeterSt).res 9 0 + 1 / 2 ∧ 9 < 10 := by
  decide +kernel

/-- MeteringCommands: an interval that just closes, a save that is due, a sample that is due and one taken, an archive run. -/
theorem witness_MeteringCommands :
    let s := cl (fun c => { c with valid := true, seconds := 60 }) (meterSet 0 { configured := true } (on .run))
    (meterRec tt 0).any (fun r => decide (((meterGet s 0).ivlStart / ivlSeconds r.interval + 1) * ivlSeconds r.interval ≤
      s.mgt.cal.seconds)) = true ∧ (meterGet s 0).configured = true ∧ smWf (fun _ => ({} : MeterSt)) s.mtr.meters = true ∧
    (let n := getFld s Reg.MTR_SAVE 11 0 * 1024
     n ≤ (pw (fun p => { p with tick := n }) s).pwr.tick - s.mtr.saveTick) ∧
    s.pwr.tick % 256 = 0 ∧ s.mtr.sampleTick ≠ some s.pwr.tick ∧ hwStates s.dev.mode = true ∧ domOn s 15 = true ∧ domOn s 16 = true ∧
    (let b := rd (fun r => { r with stepped := true }) (pair .standby)
     b.dev.mode = .standby ∧ computes b = true ∧ b.pwr.tick % 256 = 0 ∧ b.mtr.sampleTick ≠ some b.pwr.tick ∧
     hwStates b.dev.mode = true ∧ b.red.aligning = false ∧ (rd (fun r => { r with aligning := true }) b).red.aligning = true) ∧
    domOn (setDom 16 {} s) 16 = false ∧ s.dev.mode ≠ .hold ∧ hold.dev.mode = .hold ∧ hold.mtr.started = false ∧
    ({ hold with mtr := { hold.mtr with started := true } }).mtr.started = true ∧
    (let recs : List (Nat × List Byte) := [(0, List.replicate 32 1), (2047, List.replicate 32 2), (0x8047, List.replicate 32 3)]
     recs.all (fun p => p.2.length == 32 && recs.all (fun q => q == p || archPos q.1 449 != archPos p.1 449)) = true ∧
     recs.take 0 = []) := by decide +kernel

/-- A car of a kind with a body, hops and masks. -/
def carFor (kind slots hops : Nat) (body : List Byte) (ack : Nat) : Car :=
  { word := kind + 0x10, train := 5, hops := hops, slots := slots, last := 1, body := body, ack := ack }
/-- Its frame, received on a port. -/
def frameFor (p : Nat) (c : Car) : List Byte := frameOf (destMac p) [] 0x88B5 c.bytes
/-- A state whose port 0 has sent train 5 and waits for it. -/
def linked (m : Mode) (stn : StnSt) : State :=
  let s := setStn 5 stn (on m)
  setLine 0 { lineSt s 0 with
    train := some 5
    next := 6
    cars := List.replicate 3 {}
    joinPhase := true
    link := true } (dv (fun d => { d with tickInHw := 102 }) s)
/-- Port 0 receives that frame as a car of its train. -/
def receives (c : Car) (s : State) : Bool := rxJudge s 0 (frameFor 0 c) == .car c

/-- JoinTrainsAndPolls: a join train's tick, a join phase at its limit and below it; frames that are discarded; a station long
without inputs; an epoch that rises; a poll. -/
theorem witness_JoinTrainsAndPolls :
    let s := linked .run { missed := 4, state := 3 }
    (trainsLeave s = true ∧ joinTime s = true ∧ s.slk.joinTick ≠ some s.pwr.tick ∧ s.slk.lines.length = 8 ∧ 0 ∈ headPorts tt ∧
      (lineSt s 0).joinPhase = true ∧ (lineSt s 0).round < joinLimit s) ∧
    joinLimit s ≤ (lineSt (setLine 0 { lineSt s 0 with round := 65535 } s) 0).round ∧
    (frameOk (List.replicate 64 0#8) = false ∧ frameOk (frameFor 0 (carFor 3 1 1 (List.replicate 64 0) 0)) = true ∧
      thruForwards s 0 = false) ∧
    ((headRoster tt).find? (fun r => r.station == 5)).any (fun r => staleHeadways tt r.line == (stnSt s 5).missed) = true ∧
    (stnSt s 5).state ≠ 2 ∧ (stnSt s 5).got = none ∧ s.slk.epochWait = none ∧ (theTt s).security.epochHours = 24 ∧
    (let v := cl (fun c => { c with valid := true, seconds := 86400 }) s
     (getReg v Reg.SLK_EPOCH).toNat < v.mgt.cal.seconds / (3600 * tt.security.epochHours)) ∧
    s.dev.tt.isSome = true ∧ s.pwr.tick % 64 = 0 ∧ (tt.line 0).mode ≠ 0 ∧ (tt.line 7).mode = 0 ∧ gateOpen s = true := by decide +kernel

/-- ReturnedCars, InputsAndRequests: a car of each kind is received; on time and late; an input slot that its station wrote
and whose check holds (the line is not authenticated), and one whose check does not; a request that matches and one that does
not. -/
theorem witness_ReturnedCars :
    let s := linked .run { state := 1 }
    (receives (carFor 1 0 2 (List.replicate 48 0) 0) s && receives (carFor 2 2 1 (List.replicate 64 0) 3) s &&
      receives (carFor 3 2 2 (List.replicate 128 0) 1) s && receives (carFor 4 16 2 (List.replicate 512 0) 1) s) = true ∧
    carLate s 0 = false ∧ carLate (setLine 0 { lineSt s 0 with regular := true } (dv (fun d => { d with siPublished := true }) s)) 0 = true ∧
    (let c := carFor 3 2 2 (List.replicate 128 0) 1
     slotPos c 0 = some 0 ∧ (stationAt tt c.line 0).any (fun r => r.station == 5) = true ∧ stationAt tt c.line 1 = none ∧
     bit c.ack 0 = true ∧ bit c.ack 1 = false ∧ macOk s 0 5 5 2 0 (slice c.body 0 56) (slice c.body 56 8) = true) ∧
    (let b := leBytes 2 5 ++ [0, 1] ++ leBytes 4 0x1234 ++ List.replicate 24 0#8
     u16 b 0 = 5 ∧ u8 b 3 = 1 ∧ u8 b 2 = 0 ∧ u32 b 4 = 0x1234 ∧ ((lineRoster tt 0).find? (fun r => r.station == 5)).isSome = true ∧
     ((lineRoster tt 0).find? (fun r => r.station == 6)).isNone = true ∧ macOk s 0 5 5 3 0 (b.take 24) (b.drop 24) = true) := by
  decide +kernel

/-- ThroughMode: a short frame, a bad one, a car on its way back, one that goes on, one that turns, and an output slot for the
device's own station, at its instant and before it. -/
theorem witness_ThroughMode :
    let s := { on .run with slk := { (on .run).slk with thruOn := true, thruValid := true, thruRec := [0, 0, 1, 2, 0, 0, 0, 0] } }
    let j (t : Int) : State := setThru 2 { joinedRun := some 1, run := some 1, applyAt := t, pos := some 1, line := 0 } s
    thruOther s 2 = some 3 ∧ thruForwards s 2 = true ∧ (List.replicate 63 0#8).length < 64 ∧
    frameOk (List.replicate 64 0#8) = false ∧
    (let c := { carFor 2 2 1 (List.replicate 64 0) 0 with word := 0x12 + 0x800 }
     frameOk (frameFor 2 c) = true ∧ carOf (framePayload (frameFor 2 c)) = some c ∧ c.dir = true ∧ c.kind ≠ 1) ∧
    (let c := carFor 2 2 1 (List.replicate 64 0) 0
     carOf (framePayload (frameFor 2 c)) = some c ∧ c.dir = false ∧ c.guest = false ∧ c.kind = 2 ∧ c.first ≤ c.hops ∧
     c.hops - c.first < c.slots ∧ c.extend = false) ∧
    thruRecord (dv (fun d => { d with mode := .safe }) s) 2 = none ∧ (thruRecord s 2).any (fun r => r.station == 9) = true ∧
    thruEther s 2 (frameFor 2 (carFor 2 2 1 (List.replicate 64 0) 0)) = true ∧ thruEther s 2 (List.replicate 64 0#8) = false ∧ (thruSt (j 0) 2).joined = true ∧
    lineAuth tt 2 = false ∧ (1 ≤ (5 + 2 ^ 32 - (thruSt (j 0) 2).last) % 2 ^ 32 ∧ (5 + 2 ^ 32 - (thruSt (j 0) 2).last) % 2 ^ 32 < 2 ^ 31) ∧
    (thruSt (j 7) 2).applyAt = 7 := by decide +kernel

/-- ThroughMode, JoinTrainsAndPolls, InputsAndRequests: those states are in canonical form. -/
theorem witness_linked_Canonical : Canonical (linked .run { state := 1 }) ∧
    Canonical (setThru 2 { joinedRun := some 1, pos := some 1 } (on .run)) ∧
    (∀ r ∈ (theTt (linked .run {})).roster, r.station < 2048) :=
  ⟨canonical_of _ (by decide +kernel), canonical_of _ (by decide +kernel), by decide +kernel⟩

/-- TaskReleases: a cyclic task due and not due, an event task on each edge, each state of a task. -/
theorem witness_TaskReleases :
    let s := taskSet 0 2 { truth := some false } (on .run)
    let t := pw (fun p => { p with tick := 1025 }) s
    (tt.task 0 1).any (fun r => r.kind == 0 && taskDue s r && !taskDue t r) = true ∧
    (tt.task 0 2).any (fun r => r.kind == 1 && r.edge == 3 && (refGet s r.eventRef).isSome) = true ∧
    engRuns s 0 = true ∧ ceLoaded tt 0 = true ∧ (taskGet s 0 1).evalTick ≠ some s.pwr.tick ∧ (0 < s.ce.engines.length) ∧
    (taskGet s 0 2).truth = some false ∧
    (let h := imgPut 3 0 (mkWord 0x3F800000 .good) s
     (tt.task 0 2).any (fun r => (refGet h r.eventRef).any (fun w => wordQ w == .good && wordVal w != 0)) = true) ∧
    ([TaskMode.idle, .released, .running, .preempted, .stopped].all (fun m =>
      (taskGet (taskSet 0 1 { mode := m, pendingRel := true } s) 0 1).mode == m)) = true := by decide +kernel

/-- TaskDispatch: a waiting task on a free engine, preempted and released; one that preempts, and one that does not. -/
theorem witness_TaskDispatch :
    let w (m : TaskMode) (k : Nat) (run : Option Nat) : State :=
      let s := taskSet 0 k { mode := m } (on .run)
      match run with
      | some j => taskSet 0 j { mode := .running } (ceSet 0 { ceGet s 0 with run := some j } s)
      | none => s
    ([TaskMode.preempted, .released].all (fun m => taskWaits (taskGet (w m 2 none) 0 2) && (ceGet (w m 2 none) 0).run.isNone &&
      tt.tasks.all (fun q => q.task == 2 || !taskWaits (taskGet (w m 2 none) 0 q.task)))) = true ∧
    engRuns (w .released 2 none) 0 = true ∧ (ceGet (w .released 2 (some 1)) 0).run = some 1 ∧
    taskWaits (taskGet (w .released 2 (some 1)) 0 2) = true ∧ (ceGet (w .released 3 (some 1)) 0).run = some 1 ∧
    (tt.task 0 2).any (fun r => (tt.task 0 1).any (fun q => decide (r.priority < q.priority))) = true ∧
    (tt.task 0 1).any (fun q => (tt.task 0 3).any (fun r => decide (q.priority ≤ r.priority))) = true := by decide +kernel

/-- RetentiveAndPatches: a capture that is asked for on an idle engine and at an END; a patch of each space at a boundary and
in a running task. -/
theorem witness_RetentiveAndPatches :
    let q (run at_ : Option Nat) : State := ceSet 0 { retReq := some 0, run := run, atEnd := at_, patches := [{ task := 1, space := 1 }] } (on .run)
    ((q none none).ce.engines.length = 8 ∧ tt.retentive.all (fun r => decide (r.engine < 8)) = true ∧ (tt.ret 0).any (fun r => r.engine == 0) = true) ∧
    ((ceGet (q none none) 0).run = none ∧ (ceGet (q none none) 0).retReq = some 0) ∧
    ((ceGet (q (some 1) (some 1024)) 0).atEnd = some (q none none).pwr.tick ∧ tt.plan.headway ≤ (q none none).pwr.tick - 0) ∧
    (ceGet (q none none) 0).patches.length = 1 ∧ ((ceGet (q none none) 0).task 1).mode = .idle ∧
    ((ceGet (taskSet 0 1 { mode := .running } (q (some 1) none)) 0).task 1).mode = .running ∧
    (let n := getFld (on .run) Reg.CE_RET_CTL 15 0 * 1024
     n ≤ (pw (fun p => { p with tick := n }) (on .run)).pwr.tick - (on .run).ce.retTick) := by decide +kernel

/-- A timetable of one loop. -/
def ttLoop (r : LoopRec) : Timetable := { tt with loops := [{ r with loop := 3, period := 8, pvRef := 0x20000000, outRef := 0x30000003 }] }
/-- The loop as it runs. -/
def looping (r : LoopRec) (q : Quality) (x : LoopSt) : State :=
  let s := onWith .run (ttLoop r)
  loopSet 3 x { s with img := { s.img with ci := [(0, mkWord 0x40000000 q)] } }

/-- LoopEngine: a loop of each law in automatic mode with a good value, in fallback with each code and a bad value, and in
manual mode; its samples due after a boundary and with one due. -/
theorem witness_LoopEngine :
    let auto : LoopSt := { start := false, kpPrev := getReg State.reset (Reg.LPE_L_KP + 0xC0), ffPrev := getReg State.reset (Reg.LPE_L_FFGAIN + 0xC0) }
    ([1, 2, 3, 4].all (fun law =>
      let s := looping { law := law } .good auto
      let x := loopGet s 3
      (loopOf s 3).any (fun r => r.loop == 3 && r.law == law && loopDue s r && !bit r.flags 0 && r.spSource == 0 &&
        (refGet s r.pvRef).any (fun w => wordQ w == .good && f32IsFin (wordVal w))) && lpeRuns s && !commitDue s &&
      (injOf s 3).isNone && !x.manual && !x.reinit && !x.fb && !x.start && x.kpPrev == getReg s (Reg.LPE_L_KP + 0xC0) &&
      x.ffPrev == getReg s (Reg.LPE_L_FFGAIN + 0xC0) && !getBit s (Reg.LPE_L_CTL + 0xC0) 0 &&
      f32RatD (getReg s (Reg.LPE_L_SPRATE + 0xC0)) * (8 / 1024) == 0)) = true ∧
    ([0, 1, 3].all (fun fbk =>
      let s := looping { law := 2, fallback := fbk } .bad { start := false, fb := true, released := fbk == 3 }
      (loopOf s 3).any (fun r => r.fallback == fbk && (refGet s r.pvRef).any (fun w => wordQ w == .bad)) && (loopGet s 3).fb)) = true ∧
    (let s := setReg (Reg.LPE_L_CTL + 0xC0) 1 (looping { law := 2 } .good { manual := true })
     getBit s (Reg.LPE_L_CTL + 0xC0) 0 = true ∧ (loopGet s 3).manual = true ∧ (loopGet s 3).reinit = false ∧
     f32IsFin (getReg s (Reg.LPE_L_MAN + 0xC0)) = true) ∧
    (let s := tx (fun x => { x with st := 4, prompt := true, shadowTick := 1022 }) (looping { law := 2 } .good auto)
     commitDue s = true) ∧
    (let s := { on .run with lpe := { (on .run).lpe with
      inj := [{ running := true, k := 1 }, {}, {}, {}]
      cap := [{ running := true, full := true }, {}, {}, {}] } }
     (nth s.lpe.inj 0 {}).running = true ∧ (getReg s Reg.LPE_INJ_LEN).toNat ≤ (nth s.lpe.inj 0 {}).k ∧
     (nth s.lpe.inj 0 {}).k < (getReg (setReg Reg.LPE_INJ_LEN 2 s) Reg.LPE_INJ_LEN).toNat ∧ (nth s.lpe.cap 0 {}).full = true) := by
  decide +kernel

/-- LoopEngine, TaskReleases, TaskDispatch, HeadwayMarks: those states are in canonical form. -/
theorem witness_engine_Canonical :
    Canonical (looping { law := 2 } .good { start := false }) ∧ Canonical (taskSet 0 2 { truth := some false } (on .run)) ∧
    Canonical (setStn 5 { state := 2, got := some (5, List.replicate 56 0) } (on .run)) :=
  ⟨canonical_of _ (by decide +kernel), canonical_of _ (by decide +kernel), canonical_of _ (by decide +kernel)⟩

/-- HeadwayStart: each kind of headway start; TicksCountAndHeadwaysFallDue: a headway at its last tick but one and at its
last. -/
theorem witness_HeadwayStart :
    let d (m : Mode) (c : Option DevCmd) : State := dv (fun d => { d with hwDue := true, cmd := c, hwRunning := true, tickInHw := 254 }) (on m)
    ([d .run none, d .safe none, d .ready none].all (fun s => s.dev.hwDue && s.dev.cmd.isNone && !s.dev.autoRunDue && !s.red.wantRun &&
      !s.red.handover && s.slk.lines.length == 8 && s.tx.st == 0)) = true ∧ (0 ∈ headPorts tt) ∧ trainsLeave (d .run none) = true ∧
    trainsLeave (d .ready none) = false ∧ paired (d .ready (some .run)) = false ∧ (d .run (some .stop)).dev.fatalDue = false ∧
    (d .run none).dev.bootPending = none ∧
    (let b := rd (fun r => { r with handAck := true, lockstep := true }) (dv (fun d => { d with hwRunning := true, tickInHw := 255 })
        (pair .standby))
     b.dev.mode = .standby ∧ b.red.handAck = true ∧ b.red.lockstep = true ∧ b.red.peerMode = 4 ∧
     (theTt b).plan.headway ≤ b.dev.tickInHw + 1) ∧ (pair .standby).red.handAck = false ∧
    254 + 1 < tt.plan.headway ∧ tt.plan.headway ≤ 255 + 1 := by decide +kernel

/-- HeadwayMarks: t_in, t_est and t_out reached; a station with inputs and one without; an estimate that is not finished. -/
theorem witness_HeadwayMarks :
    let s (k : Nat) : State := dv (fun d => { d with hwRunning := true, tickInHw := k }) (on .run)
    (tickOpen (s 16) = true ∧ hwStates (s 16).dev.mode = true ∧ (s 16).dev.siPublished = false ∧ (theTt (s 16)).plan.tIn ≤ 16 ∧
      ((headRoster tt).map (·.station)).Nodup ∧ trainsRun (s 16) = true ∧ (headRoster tt).length = 1) ∧
    (let e := dv (fun d => { d with siPublished := true }) { s 32 with hyd := { (s 32).hyd with busy := true } }
     estWorks e = true ∧ e.dev.nsPublished = false ∧ (theTt e).plan.tEst ≤ e.dev.tickInHw ∧ e.hyd.done = false) ∧
    (tickOpen (s 57) = true ∧ hwStates (s 57).dev.mode = true ∧ (theTt (s 57)).plan.tOut ≤ 57 ∧ freezeWaits (s 57) = false ∧ paired (s 57) = false) ∧
    (stnSt (setStn 5 { state := 2, got := some (5, List.replicate 56 0) } (s 16)) 5).got.isSome = true ∧
    (stnSt (setStn 5 { state := 2 } (s 16)) 5).got = none := by decide +kernel

/-- FabricEvents: each unit of each client with a result of 1 (an empty route) and of 5 (none), with retries left and none; a
pause; a self-test; a move. -/
theorem witness_FabricEvents :
    let t2 : Timetable := { tt with blobs := tt.blobs ++ [⟨0x0110, 0, []⟩, ⟨0x0111, 0, []⟩] }
    let f (t : Timetable) (h : Nat) (u : FabUnit) : State :=
      let s := onWith .run t
      { s with slv := { s.slv with holder := h, hyd := { unit := u }, opt := { unit := u } } }
    fabOn (f t2 1 .factor) = true ∧ fabOn (f tt 2 .solve) = true ∧ domOn (on .run) 5 = true ∧ domOn (on .run) 3 = true ∧
    domOn (setDom 5 {} (on .run)) 5 = false ∧
    (slvFactor 1 (f t2 1 .factor)).1 = 1 ∧ (slvFactor 2 (f t2 2 .factor)).1 = 1 ∧ (slvSolve 1 (f t2 1 .solve)).1 = 1 ∧
    (slvSolve 2 (f t2 2 .solve)).1 = 1 ∧ (slvFactor 1 (f tt 1 .factor)).1 = 5 ∧ (slvFactor 2 (f tt 2 .factor)).1 = 5 ∧
    (f t2 2 .solve).opt.retries < 3 ∧ (f t2 1 .solve).dev.nsPublished = false ∧ (f t2 2 .solve).slv.opt.unit = .solve ∧
    (let s := { f t2 2 .factor with slv := { (f t2 2 .factor).slv with pauseDue := true, hydHolds := true } }
     s.slv.pauseDue = true ∧ s.slv.hyd.unit ≠ .none ∧ s.slv.hydHolds = true) ∧
    ({ on .run with slv := { (on .run).slv with selftest := 1 } }).slv.selftest = 1 ∧ (on .run).slv.selftest ≠ 1 ∧
    ({ on .run with ftr := { (on .run).ftr with busy := true } }).ftr.busy = true := by decide +kernel

/-- Interlock: an interlock fault, a hand-over in its last step, a claim won and lost in each way, a conflict. -/
theorem witness_Interlock :
    let s := rd (fun r => { r with actIn := true }) (pair .run)
    (s.red.actIn = true ∧ paired s = true ∧ s.red.sync = true ∧ (rd (fun r => { r with peerMode := 3 }) s).red.peerMode = 3) ∧
    (rd (fun r => { r with handKeep := true }) s).red.handKeep = true ∧
    (let c := rd (fun r => { r with claiming := true, actIn := true, roleB := true }) (pair .ready)
     c.dev.mode = .ready ∧ c.red.claiming = true ∧ preferred c = false ∧ preferred (rd (fun r => { r with roleB := false }) c) = true ∧
     c.red.peerDigest = (theTt c).digest ∧ (rd (fun r => { r with peerDigest := [1] }) c).red.peerDigest ≠ (theTt c).digest ∧
     (rd (fun r => { r with sync := false }) c).red.sync = false) ∧
    (let c := rd (fun r => { r with actOut := true }) s
     paired c = true ∧ c.red.actOut = true ∧ c.red.actIn = true ∧ c.red.claiming = false ∧ c.red.handKeep = false ∧ c.dev.mode = .run) := by
  decide +kernel

/-- SyncLink: a frame that is new and one that is repeated; each state of the receiver; a frame in flight; both lanes. -/
theorem witness_SyncLink :
    let s := rd (fun r => { r with rxSeq := some 6, tx := [{ seq := 9 }], actIn := true }) (pair .standby)
    domOn s 17 = true ∧ s.red.waitSync = false ∧ (pair .run).red.waitSync = false ∧
    paired s = true ∧ s.red.sync = true ∧ s.red.rxSeq = some 6 ∧ s.red.rxSeq ≠ some 7 ∧ s.dev.mode = .standby ∧
    (pair .run).dev.mode ≠ .standby ∧ (s.red.tx.any (fun x => x.seq == 9)) = true ∧ s.red.lanes = 3 ∧
    getBit (pair .run) Reg.RED_CAUSE 8 = false ∧ (pair .run).red.actIn = false ∧ [1] ≠ (theTt s).digest ∧
    (let d := rd (fun r => { r with sync := false, waitSync := true, actIn := true }) (pw (fun p => { p with serLock := true }) (pair .ready))
     paired d = true ∧ d.red.sync = false ∧ d.pwr.serLock = true ∧ d.dev.mode = .ready ∧ d.red.waitSync = true ∧ d.red.actIn = true ∧
     (rd (fun r => { r with peerDigest := (theTt d).digest }) d).red.peerDigest = (theTt d).digest ∧
     (rd (fun r => { r with peerDigest := [1] }) d).red.peerDigest ≠ (theTt d).digest) := by
  decide +kernel

/-- StandbyTakeoverAndHandover: a tick of the active member that has arrived and none; a guard that has passed and one short
of it, in lock-step and not; a handover that may go ahead and one that may not; a swap in its minute. -/
theorem witness_StandbyTakeoverAndHandover :
    let s := rd (fun r => { r with rx := [.cadence 3 100 0 0, .tickEnd] }) (pair .standby)
    (streamsReady s = true ∧ s.red.stepped = false ∧ s.red.rx = [] ++ [.cadence 3 100 0 0, .tickEnd] ++ [] ∧ SyncMsg.tickEnd ∉ ([] : List SyncMsg)) ∧
    (streamsReady (pair .standby) = false ∧ (pair .standby).red.aligning = false ∧ (pair .standby).red.stepped = false) ∧
    (let g (n : Nat) (l : Bool) : State := rd (fun r => { r with downTick := some (1024 - n), lockstep := l }) (pair .standby)
     getFld (g 4 true) Reg.DEV_CAUSE 12 8 = 0 ∧ (theTt (g 4 true)).roster.all (fun r => decide (r.station < 2048)) = true ∧
     4 ≤ (g 4 true).pwr.tick - 1020 ∧ (g 3 false).pwr.tick - 1021 < 4 ∧ streamsReady (g 4 false) = false ∧
     (g 4 false).red.downTick = some 1020) ∧
    (let h := rd (fun r => { r with swapDue := true }) (cl (fun c => { c with valid := true }) (pair .run))
     swapOk h = true ∧ swapOk (pair .run) = false ∧ h.red.handover = false ∧ h.red.swapDue = true ∧ h.red.swapDay = none ∧
     (rd (fun r => { r with swapDay := some (h.mgt.cal.seconds / 86400) }) h).red.swapDay = some (h.mgt.cal.seconds / 86400) ∧
     h.mgt.cal.seconds / 60 % 1440 = (theTt h).redundancy.swapMinute) := by decide +kernel

/-- CommandsTakeEffect: the conditions that stand in no witness above. -/
theorem witness_CommandsTakeEffect :
    let s := on .run
    let m (code : Nat) : State := mbx code [] (keyed hold)
    ((lpeBank (Reg.LPE_L_KP + 0xC0)).isSome = true ∧ loopNext s = some 3 ∧ hostOpen s = true) ∧
    ([(0x41, okKeyChange), (0x40, okNotBoot), (0x10, okTtWriter), (0x14, okRead), (0x20, okFw)].all (fun p =>
      (m p.1).hif.mbState == 1 && !(m p.1).hif.mbWait && mbCode (m p.1) == p.1 && p.2 (m p.1) && !(m p.1).ps.programming)) = true ∧
    okTtOpen (dv (fun d => { d with writer := some 0 }) (m 0x11)) = true ∧
    okFwOpen ({ m 0x21 with mgt := { (m 0x21).mgt with fwWriter := some 1 } }) = true := by decide +kernel

/-! ### Single steps -/

/-- The state that a command leaves, and the present one if there were none. -/
def after (c : Instr) (s : State) : State :=
  match exec c s with
  | .next t => t
  | _ => s

/-- R119: the CRC-16, against its published check value for the digits 1 to 9. -/
theorem test_crc16 : (crc16 (ascii ['1', '2', '3', '4', '5', '6', '7', '8', '9'])).toNat = 0x29B1 := by decide +kernel
/-- R42: CRC-32C, against its published check value. -/
theorem test_crc32c : (crc32c (ascii ['1', '2', '3', '4', '5', '6', '7', '8', '9'])).toNat = 0xE3069283 := by decide +kernel
/-- R94: the Ethernet check sequence, against its published check value. -/
theorem test_crc32eth : (crc32eth (ascii ['1', '2', '3', '4', '5', '6', '7', '8', '9'])).toNat = 0xCBF43926 := by decide +kernel
/-- R483: P is the exclusive-or of the lane's bytes, and Q of a lane whose byte i alone is 1 is the i-th power of 2 modulo
0x11D: of byte 8 it is 0x1D. -/
theorem test_lane : laneP [1, 2, 4, 8, 0, 0, 0, 0, 0, 0, 0, 0, 0, 0, 0, 0x80] = 0x8F#8 ∧
    laneQ [0, 0, 0, 0, 0, 0, 0, 0, 1, 0, 0, 0, 0, 0, 0, 0] = 0x1D#8 := by decide +kernel
/-- R33: RUN with its key waits; with another key it is refused. -/
theorem test_run : (after (.run 0xC0DE) (on .ready)).dev.cmd = some .run ∧ (after (.run 0xC0DF) (on .ready)).dev.cmdStatus = 3 := by
  decide +kernel
/-- R33: the next headway start makes it RUN. -/
theorem test_headway : (after .headwayStart (dv (fun d => { d with cmd := some .run, hwDue := true }) (on .ready))).dev.mode = .run := by
  decide +kernel
/-- R26: a fatal cause takes RUN to SAFE. -/
theorem test_fatal : (after .fatalCauseSafe (dv (fun d => { d with fatalDue := true }) (on .run))).dev.mode = .safe := by
  decide +kernel
/-- R319: ADD wraps; the pc goes on by 4 and the release has run one cycle. -/
theorem test_add : let t := after (.ceAdd 0) (ceAt (wR 0x00 0x00) 0xFFFFFFFF 2 0)
    (taskGet t 0 1).reg 2 = 1#32 ∧ (taskGet t 0 1).pc = 0x108 ∧ (taskGet t 0 1).cycles = 1 := by decide +kernel
/-- R320: a division by zero stops the task with trap 0x06. -/
theorem test_div_zero : let t := after (.ceDiv 0) (ceAt (wR 0x00 0x10) 9 0 0)
    (taskGet t 0 1).mode = .stopped ∧ getFld t Reg.CE_E_TRAP 7 0 = 6 ∧ getFld t Reg.CE_E_TRAP 11 8 = 1 := by decide +kernel
/-- R321: 1.5 + 2.25 = 3.75. -/
theorem test_fadd : (taskGet (after (.ceFadd 0) (ceAt (wR 0x01 0x00) 0x3FC00000 0x40100000 0)) 0 1).reg 2 = 0x40700000#32 := by
  decide +kernel
/-- R327: a branch back by one word that is taken, and one that is not. -/
theorem test_beq : (taskGet (after (.ceBeq 0) (ceAt (wI 0x20 0xFFFF) 5 0 5)) 0 1).pc = 0x100 ∧
    (taskGet (after (.ceBeq 0) (ceAt (wI 0x20 0xFFFF) 5 0 6)) 0 1).pc = 0x108 := by decide +kernel
/-- R324: SW stores the bytes of rd, lowest first. -/
theorem test_sw : (List.range 4).map (fun i => dataRead (after (.ceSw 0) (ceAt (wI 0x1A 4) 0x100 0 0x11223344)) 0 (0x104 + i) 1) =
    [[0x44], [0x33], [0x22], [0x11]] := by decide +kernel
/-- R409: the first demand of a domain that is OFF starts it, and the end of the start turns it ON. -/
theorem test_domain : let s := setDom 17 {} (on .ready)
    (dom (after (.domainEnableRequest 17 .force) s) 17).st = .starting ∧
    (dom (after (.domainStartDone 17) (after (.domainEnableRequest 17 .force) s)) 17).st = .on := by decide +kernel
/-- R535: a second that is repeated. -/
theorem test_leap : let s := setFld Reg.MGT_CAL_LEAP 17 16 1 (cl (fun c => { c with valid := true, leapDone := true, seconds := 100 }) (on .run))
    (after .leapSecond s).mgt.cal.seconds = 100 ∧ (after .leapSecond s).mgt.cal.leapNow = true := by decide +kernel
/-- R453: BEGIN opens a transaction with the next number. -/
theorem test_begin : (after (.begin 0xC0DE) (on .run)).tx.st = 1 ∧ (after (.begin 0xC0DE) (on .run)).tx.number = 1 := by decide +kernel
/-- R591: STATUS in BOOT answers BUSY and a summary of zero. -/
theorem test_status : ((after (.statusWidth1 0) boot).hif.response.take 8) = [0, 0, 0, 1, 0, 0, 0, 0] := by decide +kernel
/-- R346: a voltage beyond 105 % of its range fails, one at 105 % does not. -/
theorem test_conversion : (convRead {} { mode := 1 } (2625 / 1000) 0 false false).bad = false ∧
    (convRead {} { mode := 1 } (-2626 / 1000) 0 false false).bad = true := by decide +kernel
/-- R355: the second pulse inside the window is an overrate and is not counted. -/
theorem test_pulse : let s := pcSet 0 { configured := true, channel := 16 } (on .ready)
    (pcGet (after (.countedEdge 0) s) 0).count = 1 ∧ (pcGet (after (.countedEdge 0) (after (.countedEdge 0) s)) 0).count = 1 := by
  decide +kernel
/-- R106: of word 0 of a station's outputs 16 bits are held, of word 14 none. -/
theorem test_so_words : imgGetWork (imgPut 1 0 0x3FFFFFFFF (on .run)) 1 0 = 0xFFFF#64 ∧
    imgGetWork (imgPut 1 14 0x3FFFFFFFF (on .run)) 1 14 = 0#64 := by decide +kernel
/-- R126: an input slot that its station wrote makes the station PRESENT. -/
theorem test_input_car : (stnSt (after (.inputCarReturn 0 (frameFor 0 (carFor 3 2 2 (List.replicate 128 0) 1)))
    (linked .run { state := 1 })) 5).state = 2 := by decide +kernel
/-- R496: a member that claims and sees the other's gate open does not enter RUN. -/
theorem test_claim : (after .claimSample (rd (fun r => { r with claiming := true, actIn := true, roleB := true }) (pair .ready))).dev.mode =
    .standby := by decide +kernel
/-- R511: a standby whose active member is gone for the guard takes over. -/
theorem test_takeover : (after .takeover (rd (fun r => { r with downTick := some 1020 }) (pair .standby))).dev.mode = .run := by
  decide +kernel
/-- R596: an acknowledged reply leaves the mailbox idle. -/
theorem test_mailbox : (after .mbAck (hf (fun h => { h with mbState := 2 }) hold)).hif.mbState = 0 := by decide +kernel

end Sys2Proof.Tests
end

section
/-! The stores read back as they were written: sparse maps, the register file, the die and the working generations. -/

open Sys2Proof Sys2Proof.Machine

namespace Sys2Proof.Machine

/-- Writing consecutive keys leaves every key outside them. -/
theorem smGet_putList_of_outside {α : Type} [DecidableEq α] (d : Nat → α) (m : List (Nat × α)) (k j : Nat) (vs : List α)
    (hm : smWf d m = true) (h : j < k ∨ k + vs.length ≤ j) : smGet d (smPutList d m k vs) j = smGet d m j := by
  induction vs generalizing m k with
  | nil => rfl
  | cons v vs ih =>
    rw [List.length_cons] at h
    rw [smPutList, ih _ _ (smPut_wf d m k v hm) (by omega), smGet_put d m k j v hm, if_neg (by omega)]

/-- Consecutive keys read back what was written to them. -/
theorem smGetList_putList {α : Type} [DecidableEq α] (d : Nat → α) (m : List (Nat × α)) (k : Nat) (vs : List α)
    (hm : smWf d m = true) : smGetList d (smPutList d m k vs) k vs.length = vs := by
  induction vs generalizing m k with
  | nil => rfl
  | cons v vs ih =>
    have hput := smPut_wf d m k v hm
    have hhead : smGet d (smPutList d (smPut d m k v) (k + 1) vs) k = v := by
      rw [smGet_putList_of_outside d _ _ _ _ hput (by omega), smGet_put d m k k v hm, if_pos rfl]
    rw [List.length_cons, smPutList, smGetList, hhead, ih _ _ hput]

/-- The die reads back the bytes that were programmed. -/
theorem nvRead_nvWrite (off : Nat) (bs : List Byte) (s : State) (h : NvWf s) :
    nvRead (nvWrite off bs s) off bs.length = bs := smGetList_putList _ _ _ _ h

/-- Every other byte of the die is as it was. -/
theorem nvRead_nvWrite_of_outside (off a : Nat) (bs : List Byte) (s : State) (h : NvWf s)
    (ha : a < off ∨ off + bs.length ≤ a) : nvRead (nvWrite off bs s) a 1 = nvRead s a 1 :=
  congrArg (fun b => [b]) (smGet_putList_of_outside _ _ _ _ _ h ha)

/-- The word that region `r` holds at index `i` after a write of `w` (R106 for the SO region). -/
def imgForm (r i : Nat) (w : DWord) : DWord := if r = 1 then soForm i w else w

/-- The regions with working generations, and CO: a word reads back in its region's form, the others as they were. -/
theorem imgGetWork_imgPut (r i j : Nat) (w : DWord) (s : State) (h : Canonical s) (hr : r = 0 ∨ r = 1 ∨ r = 3 ∨ r = 4) :
    imgGetWork (imgPut r i w s) r j = if j = i then imgForm r i w else imgGetWork s r j := by
  obtain rfl | rfl | rfl | rfl := hr
  · exact smGet_put _ _ _ _ _ h.si
  · exact smGet_put _ _ _ _ _ h.so
  · exact smGet_put _ _ _ _ _ h.co
  · exact smGet_put _ _ _ _ _ h.ns

/-- A write of a working generation keeps every store in canonical form. -/
theorem imgPut_canonical (r i : Nat) (w : DWord) (s : State) (h : Canonical s) (hr : r = 0 ∨ r = 1 ∨ r = 3 ∨ r = 4) :
    Canonical (imgPut r i w s) := by
  obtain rfl | rfl | rfl | rfl := hr
  · exact { h with si := smPut_wf _ _ _ _ h.si }
  · exact { h with so := smPut_wf _ _ _ _ h.so }
  · exact { h with co := smPut_wf _ _ _ _ h.co }
  · exact { h with ns := smPut_wf _ _ _ _ h.ns }

/-- R106, word by word of a station. -/
theorem imgForm_eq (r i : Nat) (w : DWord) : imgForm r i w =
    if r ≠ 1 then w else if i % 16 = 0 then w &&& 0xFFFF#64 else if i % 16 = 14 ∨ i % 16 = 15 then 0#64
      else w &&& 0x3FFFFFFFF#64 := by
  have hlast : 14 ≤ i % 16 ↔ i % 16 = 14 ∨ i % 16 = 15 := by omega
  simp only [imgForm, soForm, hlast, ite_not]
  rfl

/-- A value word is its value plus its quality above bit 31. -/
theorem mkWord_toNat (v : Word) (q : Quality) : (mkWord v q).toNat = v.toNat + qCode q * 2 ^ 32 := by
  have hv := v.isLt
  have hq : qCode q < 4 := by cases q <;> decide
  simp only [mkWord, BitVec.toNat_ofNat]
  omega

@[simp] theorem wordVal_mkWord (v : Word) (q : Quality) : wordVal (mkWord v q) = v := by
  apply BitVec.eq_of_toNat_eq
  have hv := v.isLt
  rw [wordVal, BitVec.toNat_setWidth, mkWord_toNat]
  omega

@[simp] theorem wordQ_mkWord (v : Word) (q : Quality) : wordQ (mkWord v q) = q := by
  have hv := v.isLt
  have hq : (mkWord v q).toNat / 2 ^ 32 = qCode q := by
    rw [mkWord_toNat]
    omega
  rw [wordQ, hq]
  cases q <;> rfl

end Sys2Proof.Machine

/-- Settles O11: each store is a sparse map in canonical form, which reads back what was put. -/
theorem storesReadBack : Obligations.StoresReadBack := by
  refine ⟨fun a b w s h => ⟨setReg_wf a w s h, ?_, fun hb => ?_⟩,
    fun off bs s h => ⟨nvWrite_wf off bs s h, nvRead_nvWrite off bs s h, fun a => nvRead_nvWrite_of_outside off a bs s h⟩,
    fun r i j w s h hr => ⟨imgPut_canonical r i w s h hr, ?_, fun hj => ?_⟩,
    fun v q => ⟨wordVal_mkWord v q, wordQ_mkWord v q⟩⟩
  · rw [getReg_setReg a a w s h, if_pos rfl]
  · rw [getReg_setReg a b w s h, if_neg hb]
  · rw [imgGetWork_imgPut r i i w s h hr, if_pos rfl, imgForm_eq]
  · rw [imgGetWork_imgPut r i j w s h hr, if_neg hj]
end

section
/-! Host writes of registers: the rows that are one word, its judgement, its bits (R5), and the effects of R142 to R501. -/

open Sys2Proof Sys2Proof.Machine

namespace Sys2Proof.Machine

/-! ### Rows that are writes of one register word -/

@[simp] theorem hostTouch_tx (ds : List Nat) (s : State) : (hostTouch ds s).tx = s.tx :=
  forL_keeps State.tx ds s _ fun d t => setDom_tx d _ t

theorem wordRow_of_closed (a : Nat) (w : Word) (s : State) (h : s.dev.mode = .boot ∨ s.pwr.saving = true) :
    wordRow a w s = .next s := by
  have hclosed : hostOpen s = false := by
    obtain h | h := h <;> simp [hostOpen, h]
  simp [wordRow, hclosed]

theorem served_iff (s : State) (a n : Nat) : served s a n = true ↔ ∀ d ∈ neededDomains a n, (dom s d).st = .on := by
  simp [served, domOn]

/-- Outside BOOT and a save, with every domain that the access needs ON, the row is the host's write of the word. -/
theorem wordRow_of_served (a : Nat) (w : Word) (s : State) (hm : s.dev.mode ≠ .boot) (hp : s.pwr.saving = false)
    (h : ∀ d ∈ neededDomains a 4, (dom s d).st = .on) :
    wordRow a w s = .next (hostWord a w (hostTouch (neededDomains a 4) s)).2 := by
  simp [wordRow, hostOpen, hm, hp, (served_iff s a 4).2 h]

/-- With one of them not ON it raises their demand alone. -/
theorem wordRow_of_not_served (a : Nat) (w : Word) (s : State) (hm : s.dev.mode ≠ .boot) (hp : s.pwr.saving = false)
    (h : ∃ d ∈ neededDomains a 4, (dom s d).st ≠ .on) : wordRow a w s = .next (raiseHost (neededDomains a 4) s) := by
  have hserved : ¬ served s a 4 = true := by
    obtain ⟨d, hd, hoff⟩ := h
    exact fun hs => hoff ((served_iff s a 4).1 hs d hd)
  simp [wordRow, hostOpen, hm, hp, hserved]

/-- A word that is not staged is performed, or refused. -/
theorem hostWord_of_not_stages (a : Nat) (w : Word) (s : State) (h : stages s a = false) :
    (hostWord a w s).2 =
      if writeReason a w s = 0 then performWord a w s else refuseEffect a w (writeReason a w s) s := by
  unfold hostWord
  rw [if_neg (by simp [h])]
  split <;> simp_all

/-- A full transaction takes no word. -/
theorem hostWord_of_full (a : Nat) (w : Word) (s : State) (h : stages s a = true) (hn : 4096 ≤ s.tx.entries.length) :
    (hostWord a w s).2 = s := by
  simp [hostWord, h, hn]

/-- A staged word joins the transaction. -/
theorem hostWord_of_stages (a : Nat) (w : Word) (s : State) (h : stages s a = true) (hn : s.tx.entries.length < 4096)
    (ha : a ∉ selectors) : (hostWord a w s).2 = stage a w s := by
  simp [hostWord, h, Nat.not_le.2 hn, ha]

/-- R455: a staged selector is performed as well, or refused. -/
theorem hostWord_of_selector (a : Nat) (w : Word) (s : State) (h : stages s a = true) (hn : s.tx.entries.length < 4096)
    (ha : a ∈ selectors) : (hostWord a w s).2 =
      if writeReason a w s = 0 then stage a w (performWord a w s) else refuseEffect a w (writeReason a w s) s := by
  unfold hostWord
  rw [if_pos h, if_neg (Nat.not_le.2 hn), if_pos (List.contains_iff_mem.2 ha)]
  split <;> simp_all

/-- The rows that write one register, each with its register and the word that it writes. -/
def registerRows (n k c addr : Nat) (w : Word) (manual : Bool) (s : State) : List (Instr × Nat × Word) :=
  [(.registerWrite addr w, addr, w), (.slkStnSelWrite w, Reg.SLK_STN_SEL, w), (.chnSelWrite w, Reg.CHN_SEL, w),
    (.mtrSelWrite w, Reg.MTR_SEL, w), (.mtrIvlSelWrite w, Reg.MTR_IVL_SEL, w), (.tariffSubmit w, Reg.MTR_TAR_D + 8, w),
    (.dayofsWrite w, Reg.MTR_DAYOFS, w), (.hydColdRequest, Reg.HYD_CTL, withBits Reg.HYD_CTL 0x100 s),
    (.optColdRequest, Reg.OPT_CTL, withBits Reg.OPT_CTL 4 s), (.slvSelftestStart, Reg.SLV_CTL, withBits Reg.SLV_CTL 0x100 s),
    (.loopCoefficientWrite (0x91000 + addr % 0x4000) w, 0x91000 + addr % 0x4000, w),
    (.loopModeWrite k manual, loopReg Reg.LPE_L_CTL k, if manual = true then 1#32 else 0#32),
    (.loopReinit k, loopReg Reg.LPE_L_CTL k, withBits (loopReg Reg.LPE_L_CTL k) 2 s),
    (.injectionStart c w, Reg.LPE_INJ_CTL + 0x20 * c, w ||| 0x1000#32),
    (.injectionStop c, Reg.LPE_INJ_CTL + 0x20 * c, withBits (Reg.LPE_INJ_CTL + 0x20 * c) 0x2000 s),
    (.captureStart c w, Reg.LPE_CAP_CTL + 0x20 * c, w ||| 0x100#32),
    (.captureStop c, Reg.LPE_CAP_CTL + 0x20 * c, withBits (Reg.LPE_CAP_CTL + 0x20 * c) 0x200 s),
    (.taskStop n k addr, Reg.CE_CMD, ceCmdWord n k 1 addr), (.taskStart n k addr, Reg.CE_CMD, ceCmdWord n k 2 addr),
    (.taskRestart n k addr, Reg.CE_CMD, ceCmdWord n k 3 addr), (.patchSubmit w, Reg.CE_PATCH_CTL, w ||| 0x10000#32),
    (.domainForceOn (1 + k % 17) manual, Reg.PWR_DOM + 4 * (k % 17), if manual = true then 16#32 else 0#32)]

/-- Each of them performs its word by `wordRow`. -/
theorem exec_of_mem_registerRows (n k c addr : Nat) (w : Word) (manual : Bool) (s : State) (ha : addr < 0x100000)
    (h4 : addr % 4 = 0) (hk : k < 256) (hc : c < 4) :
    ∀ p ∈ registerRows n k c addr w manual s, exec p.1 s = wordRow p.2.1 p.2.2 s := by
  have hbank : (lpeBank (0x91000 + addr % 0x4000)).isSome ∧ (0x91000 + addr % 0x4000) % 4 = 0 := by
    refine ⟨?_, by omega⟩
    rw [lpeBank, if_pos ⟨by omega, by omega⟩]
    rfl
  have hmode : exec (.loopModeWrite k manual) s =
      wordRow (loopReg Reg.LPE_L_CTL k) (if manual = true then 1#32 else 0#32) s := by
    cases manual <;> exact if_pos hk
  have hforce : exec (.domainForceOn (1 + k % 17) manual) s =
      wordRow (Reg.PWR_DOM + 4 * (k % 17)) (if manual = true then 16#32 else 0#32) s := by
    have hd : domOk (1 + k % 17) = true := by
      simp only [domOk, Bool.and_eq_true, decide_eq_true_eq]
      omega
    have hrow : exec (.domainForceOn (1 + k % 17) manual) s =
        wordRow (Reg.PWR_DOM + 4 * (1 + k % 17 - 1)) (BitVec.ofNat 32 (16 * b2n manual)) s := if_pos hd
    rw [hrow, Nat.add_sub_cancel_left]
    cases manual <;> rfl
  simp only [registerRows, List.forall_mem_cons, List.not_mem_nil, false_imp_iff, implies_true, and_true]
  exact ⟨if_pos ⟨ha, h4⟩, rfl, rfl, rfl, rfl, rfl, rfl, rfl, rfl, rfl, if_pos hbank, hmode, if_pos hk, if_pos hc,
    if_pos hc, if_pos hc, if_pos hc, rfl, rfl, rfl, rfl, hforce⟩

/-! ### The bits of a performed word (R5) -/

/-- A word with the bits of one field set, where the field's type is asked for: one step of `regMask`. -/
def maskField (p : FType → Bool) (w : Word) (f : FieldDef) : Word :=
  if p f.type then setField w f.hi f.lo (2 ^ (f.hi + 1 - f.lo) - 1) else w

theorem maskField_getLsbD (p : FType → Bool) (w : Word) (f : FieldDef) (i : Nat) (hf : f.lo ≤ f.hi ∧ f.hi < 32)
    (hi : i < 32) : (maskField p w f).getLsbD i = true ↔
      w.getLsbD i = true ∨ (p f.type = true ∧ f.lo ≤ i ∧ i ≤ f.hi) := by
  unfold maskField
  split
  · next hp =>
    rw [setField_bit _ _ _ _ _ hf.2 hf.1 hi, Nat.testBit_two_pow_sub_one]
    split
    · next hin => simp [hp, hin, show i - f.lo < f.hi + 1 - f.lo by omega]
    · next hout => simp [hp, hout]
  · next hp => simp [hp]

theorem foldl_maskField_getLsbD (p : FType → Bool) (fs : List FieldDef) (w : Word) (i : Nat)
    (hf : ∀ f ∈ fs, f.lo ≤ f.hi ∧ f.hi < 32) (hi : i < 32) : (fs.foldl (maskField p) w).getLsbD i = true ↔
      w.getLsbD i = true ∨ ∃ f ∈ fs, p f.type = true ∧ f.lo ≤ i ∧ i ≤ f.hi := by
  induction fs generalizing w with
  | nil => simp
  | cons f fs ih =>
    rw [List.forall_mem_cons] at hf
    rw [List.foldl_cons, ih _ hf.2, maskField_getLsbD p w f i hf.1 hi, List.exists_mem_cons_iff, or_assoc]

/-- The mask of a register holds the bits of the fields whose type is asked for. -/
theorem regMask_getLsbD (r : RegDef) (p : FType → Bool) (i : Nat) (hf : ∀ f ∈ r.fields, f.lo ≤ f.hi ∧ f.hi < 32)
    (hi : i < 32) : (regMask r p).getLsbD i = true ↔ ∃ f ∈ r.fields, p f.type = true ∧ f.lo ≤ i ∧ i ≤ f.hi := by
  have h := foldl_maskField_getLsbD p r.fields 0#32 i hf hi
  simp only [BitVec.getLsbD_zero, Bool.false_eq_true, false_or] at h
  exact h

/-- R5, bit by bit, by the masks. -/
theorem regWritten_getLsbD (r : RegDef) (old w : Word) (i : Nat) (hi : i < 32) :
    (regWritten r old w).getLsbD i = true ↔
      (((regMask r isRw).getLsbD i = true ∧ w.getLsbD i = true) ∨
          (¬ (regMask r isRw).getLsbD i = true ∧ old.getLsbD i = true)) ∧
        ¬ ((regMask r (· == .w1c)).getLsbD i = true ∧ w.getLsbD i = true) := by
  simp only [regWritten, BitVec.getLsbD_and, BitVec.getLsbD_or, BitVec.getLsbD_not, hi, decide_true, Bool.true_and]
  cases (regMask r isRw).getLsbD i <;> simp [imp_iff_not_or]

/-! ### What a performed word does -/

/-- A register with a word written into its fields; an address without a register has none (R474). -/
def regPut (a : Nat) (v : Word) (s : State) : State :=
  match regFind a with
  | some r => setReg a (regWritten r (getReg s a) v) s
  | none => s

/-- It changes nothing but the register file. -/
theorem regPut_rest (a : Nat) (v : Word) (s : State) : regPut a v s = { s with regs := (regPut a v s).regs } := by
  unfold regPut
  split <;> rfl

@[simp] theorem regPut_dev (a : Nat) (v : Word) (s : State) : (regPut a v s).dev = s.dev := by rw [regPut_rest]
@[simp] theorem regPut_red (a : Nat) (v : Word) (s : State) : (regPut a v s).red = s.red := by rw [regPut_rest]
@[simp] theorem regPut_hyd (a : Nat) (v : Word) (s : State) : (regPut a v s).hyd = s.hyd := by rw [regPut_rest]
@[simp] theorem regPut_opt (a : Nat) (v : Word) (s : State) : (regPut a v s).opt = s.opt := by rw [regPut_rest]
@[simp] theorem regPut_slv (a : Nat) (v : Word) (s : State) : (regPut a v s).slv = s.slv := by rw [regPut_rest]
@[simp] theorem regPut_lpe (a : Nat) (v : Word) (s : State) : (regPut a v s).lpe = s.lpe := by rw [regPut_rest]

theorem applyReg_of_none (a : Nat) (w : Word) (s : State) (h : regFind a = none) : applyReg a w s = s := by
  simp [applyReg, h]

/-- A performed word writes its fields and then has its register's effect; only MTR_DAYOFS goes by its log record. -/
theorem applyReg_eq_regEffect (a : Nat) (w : Word) (s : State) (hr : (regFind a).isSome = true) (ha : a ≠ Reg.MTR_DAYOFS) :
    applyReg a w s = regEffect a w (regPut a (storeMask a w) s) := by
  obtain ⟨r, hr⟩ := Option.isSome_iff_exists.1 hr
  simp only [applyReg, regPut, hr, if_neg ha]

/-- In the blocks 2, 3, 4, 6, 11, 13 and 15 no register has an effect of its own. -/
theorem applyReg_of_plain (a : Nat) (r : RegDef) (w : Word) (s : State) (hr : regFind a = some r)
    (hb : a / 0x10000 ∈ [2, 3, 4, 6, 11, 13, 15]) : applyReg a w s = setReg a (regWritten r (getReg s a) w) s := by
  have hd : a ≠ Reg.MTR_DAYOFS := by
    rintro rfl
    exact absurd hb (by decide)
  have hv : a ≠ Reg.SLV_CTL := by
    rintro rfl
    exact absurd hb (by decide)
  have he (t : State) : regEffect a w t = t := by
    simp only [List.mem_cons, List.not_mem_nil, or_false] at hb
    obtain h | h | h | h | h | h | h := hb <;> simp only [regEffect, h]
  rw [applyReg_eq_regEffect a w s (by rw [hr]; rfl) hd, he, storeMask, if_neg hv, regPut, hr]

/-! ### The sync link stays as it is -/

theorem Recorded.red {s t : State} (h : Recorded s t) : t.red = s.red := by rw [h]

@[simp] theorem cause_red (reg b : Nat) (s : State) : (cause reg b s).red = s.red := (cause_recorded reg b s).red

@[simp] theorem causeD_red (reg b src : Nat) (d0 d1 : Word) (s : State) : (causeD reg b src d0 d1 s).red = s.red :=
  (causeD_recorded reg b src d0 d1 s).red

@[simp] theorem causeS_red (reg b src : Nat) (s : State) : (causeS reg b src s).red = s.red :=
  (causeS_recorded reg b src s).red

@[simp] theorem redStream_sync (m : SyncMsg) (s : State) : (redStream m s).red.sync = s.red.sync := by
  unfold redStream redSend
  split
  · split <;> rfl
  · rfl

@[simp] theorem outWrite_red (ref : Nat) (w : DWord) (s : State) : (outWrite ref w s).red = s.red := by
  unfold outWrite
  split <;> rfl

@[simp] theorem taskStop_red (r : TaskRec) (s : State) : (taskStop r s).red = s.red := by
  refine (forL_keeps State.red _ _ _ fun ref t => ?_).trans rfl
  split
  · exact outWrite_red ..
  · rfl

@[simp] theorem ceCommand_red (w : Word) (s : State) : (ceCommand w s).red = s.red := by
  unfold ceCommand
  dsimp only
  split
  · rfl
  · split
    · rfl
    · split
      · rw [ceCmdStat, setFld_red]
        split
        · rfl
        · exact taskStop_red ..
      · rw [ceCmdStat, setFld_red]
        split <;> rfl
      · rw [ceCmdStat, setFld_red, taskAbandon]
        split <;> rfl

@[simp] theorem patchWrite_red (e : Nat) (p : Patch) (s : State) : (patchWrite e p s).red = s.red := by
  rw [patchWrite, causeS_red, setFld_red, setFld_red]
  split <;> rfl

@[simp] theorem patchEnter_red (staged masked : Bool) (s : State) : (patchEnter staged masked s).red = s.red := by
  unfold patchEnter
  dsimp only
  split
  · rw [causeS_red, setFld_red, setFld_red]
  · split
    · split <;> simp
    · rfl

@[simp] theorem retRequest_red (s : State) : (retRequest s).red = s.red := by
  unfold retRequest
  split
  · rfl
  · refine forL_keeps State.red _ _ _ fun r t => ?_
    dsimp only
    split <;> rfl

theorem ceEffect_red (a : Nat) (w : Word) (s : State) : (ceEffect a w s).red = s.red := by
  unfold ceEffect
  split
  · exact ceCommand_red w s
  · split
    · exact patchEnter_red _ _ s
    · split
      · exact retRequest_red s
      · rfl

theorem capStart_red (c : Nat) (s : State) : (capStart c s).red = s.red := by
  unfold capStart
  split <;> rfl

theorem capStop_red (c : Nat) (s : State) : (capStop c s).red = s.red := by
  unfold capStop
  dsimp only
  split <;> rfl

theorem injAbort_red (c : Nat) (s : State) : (injAbort c s).red = s.red := by
  unfold injAbort
  dsimp only
  split
  · exact cause_red ..
  · rfl

theorem capEffect_red (c off : Nat) (w : Word) (s : State) : (capEffect c off w s).red = s.red := by
  have hstop : (if w.getLsbD 9 then capStop c s else s).red = s.red := by
    split
    · exact capStop_red c s
    · rfl
  unfold capEffect
  dsimp only
  split
  · rfl
  · split
    · rw [capStart_red, hstop]
    · exact hstop

theorem injEffect_red (c off : Nat) (w : Word) (s : State) : (injEffect c off w s).red = s.red := by
  have habort : (if w.getLsbD 13 then injAbort c s else s).red = s.red := by
    split
    · exact injAbort_red c s
    · rfl
  unfold injEffect
  dsimp only
  split
  · rfl
  · split <;> exact habort

theorem lpeEffect_red (a : Nat) (w : Word) (s : State) : (lpeEffect a w s).red = s.red := by
  unfold lpeEffect
  split
  · unfold loopEffect
    split <;> rfl
  · split
    · exact capEffect_red ..
    · split
      · exact injEffect_red ..
      · rfl

theorem mtrLog_sync (kind meter detail : Nat) (data : List Byte) (s : State) :
    (mtrLog kind meter detail data s).red.sync = s.red.sync := by
  unfold mtrLog
  dsimp only
  split
  · rfl
  · split
    · rw [causeD_red, incFld_red]
    · split <;> simp

theorem tariffApply_sync (w : Word) (s : State) : (tariffApply w s).red.sync = s.red.sync := by
  unfold tariffApply
  split
  · rw [cause_red]
  · exact mtrLog_sync ..

theorem dayofsApply_sync (w : Word) (s : State) : (dayofsApply w s).red.sync = s.red.sync := by
  unfold dayofsApply
  split
  · rw [cause_red]
  · exact mtrLog_sync ..

/-- A loop leaves the pair's state where its body does. -/
theorem forN_red (n : Nat) (s : State) (f : Nat → State → State) (h : ∀ k t, (f k t).red = t.red) :
    (forN n s f).red = s.red := forL_keeps State.red _ s f h

theorem tariffSelect_red (w : Word) (s : State) : (tariffSelect w s).red = s.red :=
  forN_red 3 _ _ fun _ _ => rfl

theorem mtrSelect_red (w : Word) (s : State) : (mtrSelect w s).red = s.red :=
  forN_red 10 _ _ fun _ _ => rfl

theorem mtrIvlSelect_red (w : Word) (s : State) : (mtrIvlSelect w s).red = s.red := by
  unfold mtrIvlSelect
  dsimp only
  split <;> exact forN_red 16 _ _ fun _ _ => rfl

theorem mtrEffect_sync (a : Nat) (w : Word) (s : State) (ha : a ≠ Reg.MTR_SAVE) :
    (mtrEffect a w s).red.sync = s.red.sync := by
  unfold mtrEffect
  split
  · rw [tariffSelect_red]
  · split
    · exact tariffApply_sync w s
    · split
      · rw [mtrSelect_red]
      · split
        · rw [mtrIvlSelect_red]
        · rw [if_neg fun h => ha h.1]

/-- A register of the blocks 4 to 12 whose word is performed at once: MTR_DAYOFS goes by its log record, and MTR_SAVE by a
record of the journal. -/
def isBlockReg (a : Nat) : Bool :=
  decide (4 ≤ a / 0x10000) && decide (a / 0x10000 ≤ 12) && (regFind a).isSome && a != Reg.MTR_DAYOFS && a != Reg.MTR_SAVE

theorem regEffect_sync (a : Nat) (w : Word) (s : State) (h4 : 4 ≤ a / 0x10000) (h12 : a / 0x10000 ≤ 12)
    (ha : a ≠ Reg.MTR_SAVE) : (regEffect a w s).red.sync = s.red.sync := by
  unfold regEffect
  split
  · omega
  · split <;> rfl
  · split <;> rfl
  · split <;> rfl
  · rw [lpeEffect_red]
  · rw [ceEffect_red]
  · exact mtrEffect_sync a w s ha
  · omega
  · rfl

/-- A device whose sync link is down and that is no standby: nothing that it performs goes to a peer. -/
structure Alone (s : State) : Prop where
  sync : s.red.sync = false
  mode : s.dev.mode ≠ .standby

theorem redWrite_of_sync (a : Nat) (w : Word) (s : State) (h : s.red.sync = false) : redWrite a w s = s := by
  simp [redWrite, redStream, redSend, h]

theorem fatalCleared_of_mode (before s : State) (h : s.dev.mode ≠ .standby) : fatalCleared before s = s := by
  simp [fatalCleared, h]

/-- A word of the blocks 4 to 12 is performed as its register says, and by nothing else. -/
theorem performWord_of_block (a : Nat) (w : Word) (s : State) (h : Alone s) (h4 : 4 ≤ a / 0x10000) (h12 : a / 0x10000 ≤ 12)
    (hs : (applyReg a w s).red.sync = s.red.sync) : performWord a w s = applyReg a w s := by
  have hne (b : Nat) (hb : ¬ (4 ≤ b / 0x10000 ∧ b / 0x10000 ≤ 12)) : a ≠ b := by
    rintro rfl
    exact hb ⟨h4, h12⟩
  have hkey : bankIx Reg.JNL_PS_KEY 4 4 a = none := by
    simp only [bankIx, Reg.JNL_PS_KEY]
    exact if_neg (by omega)
  have hmode : (applyReg a w s).dev.mode = s.dev.mode := congrArg Ctl.mode (applyReg_ctl a w s)
  unfold performWord
  rw [if_neg (hne _ (by decide)), if_neg (hne _ (by decide)), if_neg (hne _ (by decide)), if_neg (hne _ (by decide)),
    if_neg (hne _ (by decide)), if_neg (hne _ (by decide)), hkey]
  dsimp only
  rw [redWrite_of_sync _ _ _ (hs.trans h.sync), fatalCleared_of_mode _ _ (hmode ▸ h.mode)]

/-- Its fields are written, and then its effect is performed. -/
theorem performWord_of_isBlockReg (a : Nat) (w : Word) (s : State) (h : Alone s) (ha : isBlockReg a = true) :
    performWord a w s = regEffect a w (regPut a (storeMask a w) s) := by
  simp only [isBlockReg, Bool.and_eq_true, decide_eq_true_eq, bne_iff_ne] at ha
  obtain ⟨⟨⟨⟨h4, h12⟩, hr⟩, hd⟩, hv⟩ := ha
  have happly := applyReg_eq_regEffect a w s hr hd
  rw [← happly]
  refine performWord_of_block a w s h h4 h12 ?_
  rw [happly, regEffect_sync a w _ h4 h12 hv, regPut_red]

/-- R395, R397: MTR_DAYOFS. -/
theorem performWord_dayofs (w : Word) (s : State) (h : Alone s) :
    performWord Reg.MTR_DAYOFS w s = dayofsApply w s := by
  have happly : applyReg Reg.MTR_DAYOFS w s = dayofsApply w s := rfl
  rw [← happly]
  exact performWord_of_block _ w s h (by decide) (by decide) (by rw [happly, dayofsApply_sync])

/-! ### The registers of loops, capture units and injectors -/

theorem isBlockReg_loop : ∀ k < 256, isBlockReg (Reg.LPE_L_CTL + 0x40 * k) = true := by decide +kernel

theorem isBlockReg_cap : ∀ c < 4, isBlockReg (Reg.LPE_CAP_CTL + 0x20 * c) = true := by decide +kernel

theorem isBlockReg_inj : ∀ c < 4, isBlockReg (Reg.LPE_INJ_CTL + 0x20 * c) = true := by decide +kernel

theorem bankOf_add (base stride n k : Nat) (hs : 0 < stride) (hk : k < n) :
    bankOf base stride n (base + stride * k) = some (k, 0) := by
  rw [bankOf, Nat.add_sub_cancel_left, Nat.mul_div_cancel_left _ hs, Nat.mul_mod_right, if_pos ⟨Nat.le_add_right _ _, hk⟩]

theorem lpeBank_loop (k : Nat) (hk : k < 256) : lpeBank (Reg.LPE_L_CTL + 0x40 * k) = some (k, 0) := by
  simp only [lpeBank, Reg.LPE_L_CTL]
  rw [if_pos (by omega), Nat.add_sub_cancel_left, Nat.mul_div_cancel_left _ (by decide), Nat.mul_mod_right]

/-- A word of a register of LPE that is performed. -/
theorem performWord_lpe (a : Nat) (w : Word) (s : State) (h : Alone s) (ha : isBlockReg a = true) (h9 : a / 0x10000 = 9) :
    performWord a w s = lpeEffect a w (regPut a w s) := by
  have hv : a ≠ Reg.SLV_CTL := by
    rintro rfl
    exact absurd h9 (by decide)
  rw [performWord_of_isBlockReg a w s h ha, storeMask, if_neg hv]
  simp only [regEffect, h9]

/-- R264, R265: LPE_Lk_CTL. -/
theorem performWord_loop (k : Nat) (w : Word) (s : State) (h : Alone s) (hk : k < 256) :
    performWord (Reg.LPE_L_CTL + 0x40 * k) w s = loopEffect k 0 w (regPut (Reg.LPE_L_CTL + 0x40 * k) w s) := by
  have h9 : (Reg.LPE_L_CTL + 0x40 * k) / 0x10000 = 9 := by
    simp only [Reg.LPE_L_CTL]
    omega
  rw [performWord_lpe _ w s h (isBlockReg_loop k hk) h9, lpeEffect, lpeBank_loop k hk]

/-- R274, R276: LPE_CAPc_CTL. -/
theorem performWord_cap (c : Nat) (w : Word) (s : State) (h : Alone s) (hc : c < 4) :
    performWord (Reg.LPE_CAP_CTL + 0x20 * c) w s = capEffect c 0 w (regPut (Reg.LPE_CAP_CTL + 0x20 * c) w s) := by
  have h9 : (Reg.LPE_CAP_CTL + 0x20 * c) / 0x10000 = 9 ∧ lpeBank (Reg.LPE_CAP_CTL + 0x20 * c) = none := by
    simp only [lpeBank, Reg.LPE_CAP_CTL]
    exact ⟨by omega, if_neg (by omega)⟩
  rw [performWord_lpe _ w s h (isBlockReg_cap c hc) h9.1, lpeEffect, h9.2, bankOf_add _ _ _ _ (by decide) hc]

/-- R272, R277: LPE_INJc_CTL. -/
theorem performWord_inj (c : Nat) (w : Word) (s : State) (h : Alone s) (hc : c < 4) :
    performWord (Reg.LPE_INJ_CTL + 0x20 * c) w s = injEffect c 0 w (regPut (Reg.LPE_INJ_CTL + 0x20 * c) w s) := by
  have h9 : (Reg.LPE_INJ_CTL + 0x20 * c) / 0x10000 = 9 ∧ lpeBank (Reg.LPE_INJ_CTL + 0x20 * c) = none ∧
      bankOf Reg.LPE_CAP_CTL 0x20 4 (Reg.LPE_INJ_CTL + 0x20 * c) = none := by
    simp only [lpeBank, bankOf, Reg.LPE_INJ_CTL, Reg.LPE_CAP_CTL]
    exact ⟨by omega, if_neg (by omega), if_neg (by omega)⟩
  obtain ⟨h9, hloop, hcap⟩ := h9
  rw [performWord_lpe _ w s h (isBlockReg_inj c hc) h9, lpeEffect, hloop, hcap, bankOf_add _ _ _ _ (by decide) hc]

/-! ### The registers with effects, one by one -/

section
variable (w : Word) (s : State) (h : Alone s)
include h

/-- R142, R363: a selector of a station or of a channel. -/
theorem performWord_select : ∀ a ∈ [Reg.SLK_STN_SEL, Reg.CHN_SEL], performWord a w s = regPut a w s := by
  simp only [List.forall_mem_cons, List.not_mem_nil, false_imp_iff, implies_true, and_true]
  exact ⟨performWord_of_isBlockReg _ w s h (by decide +kernel), performWord_of_isBlockReg _ w s h (by decide +kernel)⟩

/-- R399: MTR_SEL. -/
theorem performWord_mtrSel : performWord Reg.MTR_SEL w s = mtrSelect w (regPut Reg.MTR_SEL w s) :=
  performWord_of_isBlockReg _ w s h (by decide +kernel)

/-- R400: MTR_IVL_SEL. -/
theorem performWord_mtrIvlSel : performWord Reg.MTR_IVL_SEL w s = mtrIvlSelect w (regPut Reg.MTR_IVL_SEL w s) :=
  performWord_of_isBlockReg _ w s h (by decide +kernel)

/-- R395, R398: the last word of a tariff. -/
theorem performWord_tariff : performWord (Reg.MTR_TAR_D + 8) w s = tariffApply w (regPut (Reg.MTR_TAR_D + 8) w s) :=
  performWord_of_isBlockReg _ w s h (by decide +kernel)

/-- R304: CE_CMD. -/
theorem performWord_ceCmd : performWord Reg.CE_CMD w s = ceCommand w (regPut Reg.CE_CMD w s) :=
  performWord_of_isBlockReg _ w s h (by decide +kernel)

/-- R156: HYD_CTL.cold. -/
theorem performWord_hydCold (hw : w.getLsbD 8 = true) : performWord Reg.HYD_CTL w s =
    { regPut Reg.HYD_CTL w s with hyd := { s.hyd with coldDue := true } } := by
  have heff (t : State) : regEffect Reg.HYD_CTL w t = { t with hyd := { t.hyd with coldDue := true } } := if_pos ⟨rfl, hw⟩
  have hstore : storeMask Reg.HYD_CTL w = w := rfl
  rw [performWord_of_isBlockReg _ w s h (by decide +kernel), heff, hstore, regPut_hyd]

/-- R249, R250: SLV_CTL.selftest. -/
theorem performWord_slvSelftest (hw : w.getLsbD 8 = true) : performWord Reg.SLV_CTL w s =
    { regPut Reg.SLV_CTL (setField w 8 8 0) s with slv := { s.slv with selftest := 1 } } := by
  have heff (t : State) : regEffect Reg.SLV_CTL w t = selftestStart t := if_pos ⟨rfl, hw⟩
  have hstore : storeMask Reg.SLV_CTL w = setField w 8 8 0 := rfl
  rw [performWord_of_isBlockReg _ w s h (by decide +kernel), heff, hstore, selftestStart, regPut_slv]

/-- R207: OPT_CTL.cold. -/
theorem performWord_optCold (hw : w.getLsbD 2 = true) : performWord Reg.OPT_CTL w s =
    { regPut Reg.OPT_CTL w s with opt := { s.opt with cold := true } } := by
  have heff (t : State) : regEffect Reg.OPT_CTL w t = { t with opt := { t.opt with cold := true } } := if_pos ⟨rfl, hw⟩
  have hstore : storeMask Reg.OPT_CTL w = w := rfl
  rw [performWord_of_isBlockReg _ w s h (by decide +kernel), heff, hstore, regPut_opt]

/-- R301: CE_PATCH_CTL.go. -/
theorem performWord_patch (hw : w.getLsbD 16 = true) : performWord Reg.CE_PATCH_CTL w s =
    patchSubmit (s.dev.mode == .run && !writeMaskBit s 10) (regPut Reg.CE_PATCH_CTL w s) := by
  have heff (t : State) : regEffect Reg.CE_PATCH_CTL w t = patchSubmit (t.dev.mode == .run && !writeMaskBit t 10) t :=
    if_pos ⟨rfl, hw⟩
  have hstore : storeMask Reg.CE_PATCH_CTL w = w := rfl
  rw [performWord_of_isBlockReg _ w s h (by decide +kernel), heff, hstore]
  simp only [writeMaskBit, theTt, regPut_dev]

/-- R265: the mode of a loop is its field alone. -/
theorem performWord_loop_mode (k : Nat) (hk : k < 256) (hw : w.getLsbD 1 = false) :
    performWord (Reg.LPE_L_CTL + 0x40 * k) w s = regPut (Reg.LPE_L_CTL + 0x40 * k) w s := by
  rw [performWord_loop k w s h hk, loopEffect, hw, if_neg (by decide)]

/-- R264: reinit. -/
theorem performWord_loop_reinit (k : Nat) (hk : k < 256) (hw : w.getLsbD 1 = true) :
    performWord (Reg.LPE_L_CTL + 0x40 * k) w s =
      loopSet k { loopGet s k with reinit := true } (regPut (Reg.LPE_L_CTL + 0x40 * k) w s) := by
  rw [performWord_loop k w s h hk, loopEffect, if_pos ⟨rfl, hw⟩]
  simp only [loopGet, regPut_lpe]

/-- R274: a capture unit is started or armed. -/
theorem performWord_cap_start (c : Nat) (hc : c < 4) (h8 : w.getLsbD 8 = true) (h9 : w.getLsbD 9 = false) :
    performWord (Reg.LPE_CAP_CTL + 0x20 * c) w s = capStart c (regPut (Reg.LPE_CAP_CTL + 0x20 * c) w s) := by
  rw [performWord_cap c w s h hc]
  simp only [capEffect, h8, h9, ne_eq, not_true_eq_false, Bool.false_eq_true, ↓reduceIte]

/-- R273: a capture unit that runs or waits is stopped. -/
theorem performWord_cap_stop (c : Nat) (hc : c < 4) (h9 : w.getLsbD 9 = true) (h8 : w.getLsbD 8 = false)
    (hbusy : capBusy s c = true) : performWord (Reg.LPE_CAP_CTL + 0x20 * c) w s =
      capSet c { nth s.lpe.cap c {} with running := false, armed := false, go := false }
        (regPut (Reg.LPE_CAP_CTL + 0x20 * c) w s) := by
  rw [performWord_cap c w s h hc]
  simp only [capBusy] at hbusy
  simp only [capEffect, capStop, regPut_lpe, h8, h9, hbusy, ne_eq, not_true_eq_false, Bool.false_eq_true, ↓reduceIte]

/-- R271: an injector is started. -/
theorem performWord_inj_start (c : Nat) (hc : c < 4) (h12 : w.getLsbD 12 = true) (h13 : w.getLsbD 13 = false) :
    performWord (Reg.LPE_INJ_CTL + 0x20 * c) w s = injStart c (regPut (Reg.LPE_INJ_CTL + 0x20 * c) w s) := by
  rw [performWord_inj c w s h hc]
  simp only [injEffect, h12, h13, ne_eq, not_true_eq_false, Bool.false_eq_true, ↓reduceIte]

/-- R272: an injection that runs is aborted. -/
theorem performWord_inj_stop (c : Nat) (hc : c < 4) (h13 : w.getLsbD 13 = true) (h12 : w.getLsbD 12 = false)
    (hrun : (nth s.lpe.inj c {}).running = true) : performWord (Reg.LPE_INJ_CTL + 0x20 * c) w s =
      cause Reg.LPE_CAUSE 4 (injSet c { nth s.lpe.inj c {} with running := false }
        (regPut (Reg.LPE_INJ_CTL + 0x20 * c) w s)) := by
  rw [performWord_inj c w s h hc]
  simp only [injEffect, injAbort, regPut_lpe, h12, h13, hrun, ne_eq, not_true_eq_false, Bool.false_eq_true, ↓reduceIte]

end

end Sys2Proof.Machine

/-- Settles O33: every such row is one `wordRow`, whose word `hostWord` stages, performs or refuses; R5 bit by bit through the
masks of the register's fields; and each register's effect follows its fields, for nothing goes to a peer. -/
theorem registerWrites : Obligations.RegisterWrites := by
  refine ⟨?_, ?_, ?_⟩
  · intro n k c addr w manual s ha h4 hk hc old loop inj cap task p hp a v ds s1 staged
    have hrow : exec p.1 s = wordRow a v s := exec_of_mem_registerRows n k c addr w manual s ha h4 hk hc p hp
    have htx : s1.tx = s.tx := hostTouch_tx ds s
    rw [hrow]
    refine ⟨wordRow_of_closed a v s, wordRow_of_not_served a v s, fun hm hsave hon => ?_⟩
    have hopen : wordRow a v s = .next (hostWord a v s1).2 := wordRow_of_served a v s hm hsave hon
    rw [hopen, ← htx]
    refine ⟨fun h hn => ?_, fun h hn hsel => ?_, fun h hn hsel hok => ?_, fun h hn hsel hno => ?_, fun h hok => ?_,
      fun h hno => ?_⟩
    · rw [hostWord_of_full a v s1 h hn]
    · rw [hostWord_of_stages a v s1 h hn hsel]
      rfl
    · rw [hostWord_of_selector a v s1 h hn hsel, if_pos hok]
      rfl
    · rw [hostWord_of_selector a v s1 h hn hsel, if_neg hno]
    · rw [hostWord_of_not_stages a v s1 h, if_pos hok]
    · rw [hostWord_of_not_stages a v s1 h, if_neg hno]
  · intro a w s hs
    refine ⟨applyReg_of_none a w s, ?_⟩
    intro r hr hb t has hf
    have ht : t = setReg a (regWritten r (getReg s a) w) s := applyReg_of_plain a r w s hr hb
    refine ⟨?_, fun b hb => ?_, fun i hi => ?_⟩
    · rw [ht]
      rfl
    · rw [ht, getReg_setReg a b _ s hs, if_neg hb]
    · rw [ht, getReg_setReg a a _ s hs, if_pos rfl, regWritten_getLsbD r _ w i hi, regMask_getLsbD r _ i hf hi,
        regMask_getLsbD r _ i hf hi]
  · intro c w s hsync hmode hc put cap inj x
    have h : Alone s := ⟨hsync, hmode⟩
    have hbusy (hx : x.running = true ∨ x.armed = true ∨ x.go = true) : capBusy s c = true := by
      simpa only [capBusy, Bool.or_eq_true, or_assoc] using hx
    exact ⟨performWord_select w s h, performWord_mtrSel w s h, performWord_mtrIvlSel w s h, performWord_tariff w s h,
      performWord_dayofs w s h, performWord_ceCmd w s h,
      fun hw => ⟨performWord_hydCold w s h hw, performWord_slvSelftest w s h hw⟩,
      performWord_optCold w s h, performWord_patch w s h,
      fun k hk => ⟨performWord_loop_mode w s h k hk, performWord_loop_reinit w s h k hk⟩,
      performWord_cap_start w s h c hc, fun h9 h8 hx => performWord_cap_stop w s h c hc h9 h8 (hbusy hx),
      performWord_inj_start w s h c hc, performWord_inj_stop w s h c hc⟩
end

section
/-! What entering a state of R23 does to `ctl`, and operations around it whose frames Laws/ leaves out. -/

open Sys2Proof Sys2Proof.Machine

namespace Sys2Proof.Machine

@[simp] theorem jnlAWritten_ctl (r : Option (List Byte)) (s : State) : ctl (jnlAWritten r s) = ctl s := by
  have h : ctl (jnlCopyA r s).1 = ctl s := jnlCopyA_ctl r s
  unfold jnlAWritten
  split
  · next heq =>
    rw [heq] at h
    rw [jnlDone_ctl]
    split
    · exact (jnlMirror_ctl _).trans h
    · exact h
  · next heq => rwa [heq] at h

@[simp] theorem jnlFinish_ctl (n : Nat) (s : State) : ctl (jnlFinish n s) = ctl s := by
  induction n generalizing s with
  | zero => rfl
  | succ n ih =>
    unfold jnlFinish
    split
    · rfl
    · rw [ih]
      split
      · exact jnlCopyB_ctl none s
      · exact jnlAWritten_ctl none s

@[simp] theorem jnlAbandon_ctl (s : State) : ctl (jnlAbandon s) = ctl s := by
  unfold jnlAbandon
  split
  · rfl
  · split
    · dsimp only
      rw [jnlCopyB_ctl]
      split
      · rfl
      · exact jnlAWritten_ctl none s
    · split <;> rfl


/-! ### Operations whose frame the laws leave out -/

@[simp] theorem hostEnd_ctl (s : State) : ctl (hostEnd s) = ctl s := by
  unfold hostEnd
  split
  · rfl
  · dsimp only
    split
    · rw [psProgram_ctl, psPerform_ctl]
      rfl
    · rfl

@[simp] theorem ciBlind_ctl (s : State) : ctl (ciBlind s) = ctl s := by simp [ciBlind]

@[simp] theorem slotsBackground_ctl (s : State) : ctl (slotsBackground s) = ctl s := by simp [slotsBackground]

@[simp] theorem powerLost_ctl (s : State) : ctl (powerLost s) = { ctl s with good := false } := rfl

@[simp] theorem evCut_ctl (s : State) : ctl (evCut s) = ctl s := rfl

/-! ### Entering a state -/

@[simp] theorem setMode_ctl (m : Mode) (s : State) : ctl (setMode m s) = { ctl s with mode := m } := by
  rw [setMode, redStatus_ctl, evRaise_ctl]
  rfl

@[simp] theorem enterReady_ctl (s : State) : ctl (enterReady s) = { ctl s with mode := .ready } := by
  simp [enterReady, ctl_views, ctl_mk]

@[simp] theorem unload_ctl (s : State) : ctl (unload s) = { ctl s with tt := none } := by
  simp [unload, ctl_views, ctl_mk]

@[simp] theorem enterHold_ctl (s : State) : ctl (enterHold s) = { ctl s with mode := .hold, tt := none } := by
  simp [enterHold, ctl_views, ctl_mk]

@[simp] theorem enterBoot_ctl (k : BootKind) (c f : Bool) (s : State) :
    ctl (enterBoot k c f s) = { ctl s with mode := .boot, tt := none, boot := some k } := by
  cases c <;> cases f <;> simp [enterBoot, ctl_views, ctl_mk]

@[simp] theorem enterSafe_ctl (s : State) : ctl (enterSafe s) = { ctl s with mode := .safe } := by
  simp [enterSafe, ctl_views, ctl_mk]

@[simp] theorem enterRun_ctl (start ready : Bool) (s : State) : ctl (enterRun start ready s) = { ctl s with mode := .run } := by
  cases start <;> simp [enterRun, ctl_views, ctl_mk]

@[simp] theorem enterStandby_ctl (a : Bool) (s : State) : ctl (enterStandby a s) = { ctl s with mode := .standby } := by
  have h (s1 : State) (h1 : ctl s1 = { ctl s with mode := .standby }) :
      ctl (if a = true then s1 else
        alignStart { (if s1.ftr.seeded then s1 else ftrEnterRun s1) with
          red := { (if s1.ftr.seeded then s1 else ftrEnterRun s1).red with actOut := false } }) = { ctl s with mode := .standby } := by
    split
    · exact h1
    · rw [alignStart_ctl, ← h1]
      split
      · rfl
      · exact ftrEnterRun_ctl s1
  refine h _ ?_
  rw [ciBlind_ctl, setMode_ctl]
  simp [ctl_views, ctl_mk]

end Sys2Proof.Machine
end

section
/-! What a commit boundary, a boot and a stop at once do to `ctl`. -/

open Sys2Proof Sys2Proof.Machine

namespace Sys2Proof.Machine

/-! ### A commit boundary and a boot -/

@[simp] theorem ttCommit_ctl (new : Timetable) (slot : Nat) (s : State) :
    ctl (ttCommit new slot s) = { ctl s with tt := some new } := by
  simp [ttCommit, ctl_views, ctl_mk]

/-- What is staged comes into force: of `ctl` only the placed timetable can change. -/
theorem txApply_ctl (bound : Nat) (s : State) : ∃ x, ctl (txApply bound s) = { ctl s with tt := x } := by
  cases ht : s.tx.stagedTt with
  | none => exact ⟨s.dev.tt, by simp [txApply, ht, ctl_views, ctl_mk]⟩
  | some t =>
    cases hk : s.tx.stagedSlot with
    | none => exact ⟨s.dev.tt, by simp [txApply, ht, hk, ctl_views, ctl_mk]⟩
    | some k => exact ⟨some t, by simp [txApply, ht, hk, ctl_views, ctl_mk]⟩

/-- A commit boundary falls only where headways count. -/
theorem txBoundary_ctl (s : State) :
    ∃ x, ctl (txBoundary s) = { ctl s with tt := x } ∧ (x = s.dev.tt ∨ hwStates s.dev.mode = true) := by
  unfold txBoundary
  split
  · next hdue =>
    obtain ⟨x, hx⟩ := txApply_ctl (s.dev.headway + b2n s.dev.hwDue) s
    simp only [txDue, Bool.and_eq_true] at hdue
    exact ⟨x, hx, .inr hdue.1.2⟩
  · exact ⟨s.dev.tt, rfl, .inl rfl⟩

@[simp] theorem bootCommon_ctl (s : State) : ctl (bootCommon s) = { ctl s with tt := none, boot := none } := by
  simp [bootCommon, ctl_views, ctl_mk]

@[simp] theorem bootFull_ctl (s : State) : ctl (bootFull s) = { ctl s with tt := none, boot := none } := by
  simp [bootFull, ctl_views, ctl_mk]

@[simp] theorem bootSequence_ctl (s : State) : ctl (bootSequence s) = { ctl s with tt := none, boot := none } := by
  simp [bootSequence]

@[simp] theorem bootHold_ctl (s : State) : ctl (bootHold s) = { ctl s with mode := .hold } := by
  simp [bootHold, ctl_views, ctl_mk]

@[simp] theorem ttPlace_ctl (t : Timetable) (slot : Nat) (s : State) : ctl (ttPlace t slot s) = { ctl s with tt := some t } := by
  simp [ttPlace, ctl_views, ctl_mk]

theorem commitRecover_ctl (s : State) : ∃ x, ctl (commitRecover s).1 = { ctl s with tt := x } := by
  unfold commitRecover
  split
  · next c _ =>
    dsimp only
    split
    · exact ⟨s.dev.tt, by simp [ctl_views]⟩
    · split
      · exact ⟨s.dev.tt, by simp [ctl_views]⟩
      · rw [jnlFinish_ctl]
        exact txApply_ctl ..
  · exact ⟨s.dev.tt, rfl⟩

@[simp] theorem sealRecover_ctl (known : Option Nat) (s : State) : ctl (sealRecover known s) = ctl s := by
  unfold sealRecover
  repeat' split
  all_goals simp

theorem txRecover_ctl (s : State) : ∃ x, ctl (txRecover s).1 = { ctl s with tt := x } := by
  obtain ⟨x, hx⟩ := commitRecover_ctl s
  exact ⟨x, (sealRecover_ctl _ _).trans hx⟩

/-- The timetable steps of a boot end in HOLD, or with a timetable in READY. -/
theorem bootTimetable_ctl (s : State) : ctl (bootTimetable s) = { ctl s with mode := .hold } ∨
    ∃ x, ctl (bootTimetable s) = { ctl s with mode := .ready, tt := x } := by
  unfold bootTimetable
  dsimp only
  split
  · exact .inl (by simp [ctl_views, ctl_mk])
  · next slot _ =>
    split
    · exact .inl (by simp [ctl_views, ctl_mk])
    · split
      · exact .inl (by simp [ctl_views, ctl_mk])
      · refine .inr ?_
        generalize hs : ttMeasure _ _ = s1
        obtain ⟨x, hx⟩ := txRecover_ctl s1
        refine ⟨x, ?_⟩
        have h1 : ctl s1 = { ctl s with tt := (ctl s1).tt } := by
          rw [← hs]
          simp [ctl_views, ctl_mk]
        rw [h1] at hx
        simp [ctl_views, ctl_mk, hx]

/-- A boot ends in HOLD without a timetable, or in READY; nothing of it waits any more. -/
theorem bootRun_ctl (k : BootKind) (s : State) : ctl (bootRun k s) = { ctl s with mode := .hold, tt := none, boot := none } ∨
    ∃ x, ctl (bootRun k s) = { ctl s with mode := .ready, tt := x, boot := none } := by
  cases k with
  | full => simpa [bootRun] using bootTimetable_ctl (bootSequence s)
  | load => simpa [bootRun] using bootTimetable_ctl (mtrLogBoot (fwVersions (psBoot (bistReport (bootCommon s)))))

/-! ### What waits for a tick or a headway start -/

/-- A stop at once: BOOT, without a timetable, with a boot to come. -/
@[simp] theorem crash_ctl (s : State) : ctl (crash s) = { ctl s with mode := .boot, tt := none, boot := some .full } := by
  simp [crash, ctl_views, ctl_mk]

@[simp] theorem rstAct_ctl (low : Bool) (s : State) :
    ctl (rstAct low s) = { ctl s with mode := .boot, tt := none, boot := some .full, rst := low } := by
  simp [rstAct, ctl_views, ctl_mk]

end Sys2Proof.Machine
end

section
/-! The commands that leave `ctl` alone. -/

open Sys2Proof Sys2Proof.Machine

namespace Sys2Proof.Machine

/-! ### The host port -/

@[simp] theorem wordsRead_ctl (a n : Nat) (s : State) : ctl (wordsRead a n s).2.2 = ctl s := by
  induction n with
  | zero => rfl
  | succ n ih => exact (readReg_ctl _ _).trans ih

@[simp] theorem readDone_ctl (r : HostRange) (a n : Nat) (ecc : Option Nat) (s : State) :
    ctl (readDone r a n ecc s) = ctl s := by
  have hmem (t : State) (k : Nat) : ctl (memRead memLost a k t) = ctl t := memRead_ctl memLost memLost_ctl a k t
  unfold readDone
  dsimp only
  split
  · exact wordsRead_ctl a (n / 4) s
  · split
    · rw [respond_ctl, hmem, fresh_ctl]
    · rw [respond_ctl, codeEffect_ctl]
      split
      · rw [cause_ctl, psRefuse_ctl, hmem, fresh_ctl]
      · rw [hmem, fresh_ctl]

@[simp] theorem hostRead_ctl (cmd : Byte) (a n crc : Nat) (ecc : Option Nat) (s : State) :
    ctl (hostRead cmd a n crc ecc s) = ctl s := by
  have hacc := accessCode_ctl false (a % 2 ^ 32) (n % 2 ^ 16) s
  unfold hostRead
  dsimp only
  split
  · rfl
  · split
    · rw [readNone_ctl, portRaise_ctl]
    · split
      · next heq => rw [readNone_ctl, ← hacc, heq]
      · next heq =>
        rw [heq] at hacc
        split
        · exact (readDone_ctl ..).trans hacc
        · exact hacc

@[simp] theorem hostWrite_ctl (cmd : Byte) (a n : Nat) (data : List Byte) (crc : Nat) (s : State) :
    ctl (hostWrite cmd a n data crc s) = ctl s := by
  have hacc := accessCode_ctl true (a % 2 ^ 32) (n % 2 ^ 16) s
  have hwait (bs : List Byte) (p : Option (Nat × List Byte)) (st : List Bool) (t : State) :
      ctl (if bs.isEmpty then t else { t with hif := { t.hif with pending := p, pendStaged := st } }) = ctl t := by
    split <;> rfl
  unfold hostWrite
  dsimp only
  split
  · rfl
  · split
    · rw [writeAnswer_ctl, portRaise_ctl]
    · split
      · next heq => rw [writeAnswer_ctl, ← hacc, heq]
      · next heq =>
        rw [heq] at hacc
        split
        · split
          · rw [hwait, writeAnswer_ctl, refuseEffect_ctl, hacc]
          · rw [hwait, writeAnswer_ctl, hacc]
        · rw [hwait, writeAnswer_ctl, hacc]

@[simp] theorem wordPerform_ctl (a : Nat) (w : Word) (staged : Bool) (s : State) :
    ctl (wordPerform a w staged s) = ctl s := by
  unfold wordPerform
  split
  · exact performWord_ctl a w s
  · split
    · rw [stage_ctl]
      split
      · exact performWord_ctl a w s
      · rfl
    · rfl

@[simp] theorem wordsPerform_ctl (ws : List (Nat × Word)) (st : List Bool) (s : State) :
    ctl (wordsPerform ws st s) = ctl s := by
  induction ws generalizing st s with
  | nil => rfl
  | cons w ws ih => exact (ih _ _).trans (wordPerform_ctl ..)

@[simp] theorem execHostWritePerform_keeps (s : State) : Keeps s (execHostWritePerform s) := by
  unfold execHostWritePerform
  split
  · exact ⟨s, rfl, rfl⟩
  · dsimp only
    split
    · exact ⟨_, rfl, wordsPerform_ctl ..⟩
    · exact ⟨_, rfl, hostMemWrite_ctl ..⟩
    · exact ⟨_, rfl, rfl⟩

/-! ### The commands that leave the states alone -/

/-- The commands that touch what R24's transitions depend on: those that can change the state, and COMMIT_BOUNDARY (the placed
timetable), the warning and the watchdog (a boot that waits). -/
def steers (c : Instr) : Bool :=
  mayChangeState c || match c with
    | .commitBoundary | .powerFailWarning _ | .watchdogExpire => true
    | _ => false

/-- Every other command has its own law under Laws/. -/
theorem exec_keeps (c : Instr) (s : State) (h : steers c = false) : Keeps s (exec c s) := by
  cases c <;> simp [steers, mayChangeState, exec, execReadWidth1, execReadWidth4, execWriteWidth1, execWriteWidth4] at h ⊢

end Sys2Proof.Machine
end

section
/-! The invariant of the device states read off `ctl`, and the transitions of R24 at a tick (R26, R27, R33). -/

open Sys2Proof Sys2Proof.Machine

namespace Sys2Proof.Machine

/-! ### The invariant of the device states, read off `ctl` -/

/-- `StateWf`, of the part of a state that decides it. -/
structure CtlWf (c : Ctl) : Prop where
  boot : c.boot.isSome = true → c.mode = .boot
  power : c.good = false → c.mode = .boot
  rst : c.rst = true → c.mode = .boot
  loaded : c.mode = .boot ∨ c.mode = .hold → c.tt = none

theorem stateWf_iff (s : State) : StateWf s ↔ CtlWf (ctl s) :=
  ⟨fun ⟨hb, hp, hr, hl⟩ => ⟨hb, hp, hr, hl⟩, fun ⟨hb, hp, hr, hl⟩ => ⟨hb, hp, hr, hl⟩⟩

/-- In BOOT only the timetable has to be gone. -/
theorem CtlWf.of_boot {c : Ctl} (hm : c.mode = .boot) (ht : c.tt = none) : CtlWf c :=
  ⟨fun _ => hm, fun _ => hm, fun _ => hm, fun _ => ht⟩

/-- Outside BOOT the supplies are good, RST_N is high and no boot waits; in HOLD no timetable is loaded. -/
theorem CtlWf.of_running {c : Ctl} (hb : c.boot = none) (hp : c.good = true) (hr : c.rst = false) (hm : c.mode ≠ .boot)
    (ht : c.mode = .hold → c.tt = none) : CtlWf c :=
  ⟨by simp [hb], by simp [hp], by simp [hr], fun h => ht (h.resolve_left hm)⟩

theorem CtlWf.running {c : Ctl} (h : CtlWf c) (hm : c.mode ≠ .boot) : c.boot = none ∧ c.good = true ∧ c.rst = false := by
  refine ⟨?_, ?_, ?_⟩
  · simpa using mt h.boot hm
  · simpa using mt h.power hm
  · simpa using mt h.rst hm

/-- A move between states other than BOOT keeps the invariant, if it leaves no timetable in HOLD. -/
theorem CtlWf.move {c : Ctl} (h : CtlWf c) (hm : c.mode ≠ .boot) {m : Mode} {x : Option Timetable} (hn : m ≠ .boot)
    (ht : m = .hold → x = none) : CtlWf { c with mode := m, tt := x } := by
  obtain ⟨hb, hp, hr⟩ := h.running hm
  exact .of_running hb hp hr hn ht

/-- What a command does to `ctl`: the tick count becomes `n`, the queue stays, and from a state that meets the invariant it
makes a transition of R24 to one that meets it too. -/
structure CtlStep (n : Nat) (a b : Ctl) : Prop where
  pending : b.pending = a.pending
  tick : b.tick = n
  keeps : CtlWf a → CtlWf b ∧ modeStep a.mode b.mode = true

theorem mode_of_ctl {s : State} {c : Ctl} (h : ctl s = c) : s.dev.mode = c.mode := by
  rw [← h]
  rfl

theorem tick_of_ctl {s : State} {c : Ctl} (h : ctl s = c) : s.pwr.tick = c.tick := by
  rw [← h]
  rfl

theorem modeStep_refl (m : Mode) : modeStep m m = true := by cases m <;> rfl

theorem modeStep_boot (m : Mode) : modeStep m .boot = true := by cases m <;> rfl

theorem CtlStep.refl (c : Ctl) : CtlStep c.tick c c := ⟨rfl, rfl, fun h => ⟨h, modeStep_refl _⟩⟩

/-- Any state may go to BOOT, without a timetable. -/
theorem CtlStep.to_boot {s t : State} {k : Option BootKind} (h : ctl t = { ctl s with mode := .boot, tt := none, boot := k }) :
    CtlStep s.pwr.tick (ctl s) (ctl t) := by
  rw [h]
  exact ⟨rfl, rfl, fun _ => ⟨.of_boot rfl rfl, modeStep_boot _⟩⟩

/-- A transition between states other than BOOT, which leaves no timetable in HOLD. -/
theorem CtlStep.of_move {s t : State} {m : Mode} {x : Option Timetable} (h : ctl t = { ctl s with mode := m, tt := x })
    (hs : s.dev.mode ≠ .boot) (hm : m ≠ .boot) (ht : m = .hold → x = none) (hstep : modeStep s.dev.mode m = true) :
    CtlStep s.pwr.tick (ctl s) (ctl t) := by
  rw [h]
  exact ⟨rfl, rfl, fun hwf => ⟨hwf.move hs hm ht, hstep⟩⟩

/-! ### Pending commands and boots at a tick -/

/-- The boot that is pending runs, in BOOT with good supplies, or waits on. -/
theorem bootDo_step (s : State) : CtlStep s.pwr.tick (ctl s) (ctl (bootDo s)) := by
  unfold bootDo
  split
  · next k _ =>
    split
    · next hok =>
      obtain ⟨hm, hr, hp, -⟩ := hok
      have hrst : (ctl s).rst = false := by simpa [ctl] using hr
      obtain h | ⟨x, h⟩ := bootRun_ctl k { s with dev := { s.dev with bootPending := none } }
      all_goals
        rw [h]
        refine ⟨rfl, rfl, fun _ => ⟨.of_running rfl hp hrst (by simp) (by simp), ?_⟩⟩
        simp only [ctl, hm]
        rfl
    · exact .refl (ctl s)
  · exact .refl (ctl s)

/-- R33: what a pending command makes of the state at a tick: nothing, HOLD, READY after a CLEAR, or BOOT. -/
theorem devTick_ctl (s : State) : ctl (devTick s) = ctl s ∨
    ((s.dev.mode = .ready ∨ s.dev.mode = .safe) ∧ ctl (devTick s) = { ctl s with mode := .hold, tt := none }) ∨
    (s.dev.mode = .safe ∧ ctl (devTick s) = { ctl s with mode := .ready }) ∨
    ∃ k, ctl (devTick s) = { ctl s with mode := .boot, tt := none, boot := some k } := by
  have hload : ctl (if s.dev.mode ≠ .hold then devDrop s
      else if s.dev.loadReady then enterBoot .load true true (devCmdDone s) else s) = ctl s ∨
      ctl (if s.dev.mode ≠ .hold then devDrop s
        else if s.dev.loadReady then enterBoot .load true true (devCmdDone s) else s) =
        { ctl s with mode := .boot, tt := none, boot := some .load } := by
    split
    · exact .inl (devDrop_ctl s)
    · split
      · exact .inr ((enterBoot_ctl ..).trans (by rw [devCmdDone_ctl]))
      · exact .inl rfl
  unfold devTick
  split
  · exact .inl rfl
  · split
    · split
      · next hok =>
        refine .inr (.inl ⟨?_, (devCmdDone_ctl _).trans (enterHold_ctl s)⟩)
        cases hm : s.dev.mode <;> simp [hm, devAllowed] at hok ⊢
      · exact .inl (devDrop_ctl s)
    · split
      · next hok => exact .inr (.inr (.inl ⟨hok.1, (devCmdDone_ctl _).trans (enterReady_ctl s)⟩))
      · exact .inl (devDrop_ctl s)
    · exact .inr (.inr (.inr ⟨.full, enterBoot_ctl .full true true s⟩))
    · exact hload.imp_right fun h => .inr (.inr ⟨.load, h⟩)
    · exact hload.imp_right fun h => .inr (.inr ⟨.load, h⟩)
    all_goals exact .inl rfl

theorem devTick_step (s : State) : CtlStep s.pwr.tick (ctl s) (ctl (devTick s)) := by
  obtain h | ⟨hm, h⟩ | ⟨hm, h⟩ | ⟨k, h⟩ := devTick_ctl s
  · rw [h]
    exact .refl (ctl s)
  · refine .of_move h ?_ (by simp) (fun _ => rfl) ?_ <;> obtain hm | hm := hm <;> simp [hm, modeStep]
  · refine .of_move (x := s.dev.tt) h ?_ (by simp) (by simp) ?_ <;> simp [hm, modeStep]
  · exact .to_boot h

theorem tickCommands_step (s : State) : CtlStep s.pwr.tick (ctl s) (ctl (tickCommands s)) := by
  have hb := bootDo_step { s with dev := { s.dev with holdRefused := false } }
  have hd := devTick_step { s with dev := { s.dev with holdRefused := false } }
  unfold tickCommands
  dsimp only
  split
  · exact hb
  · exact hd

/-- R26, R27: the move to SAFE, with a pending HOLD or RESET judged against it in the same tick. -/
theorem execFatalCauseSafe_step (s : State) :
    ∃ t, execFatalCauseSafe s = .next t ∧ CtlStep s.pwr.tick (ctl s) (ctl t) := by
  unfold execFatalCauseSafe
  split
  · next h =>
    have hrun : s.dev.mode = .run := h.2
    have hs : ctl (enterSafe s) = { ctl s with mode := .safe } := enterSafe_ctl s
    have hstay (t : State) (ht : ctl t = ctl (enterSafe s)) : CtlStep s.pwr.tick (ctl s) (ctl t) :=
      .of_move (x := s.dev.tt) (ht.trans hs) (by simp [hrun]) (by simp) (by simp) (by rw [hrun]; rfl)
    have hcmd : CtlStep s.pwr.tick (ctl s) (ctl (devTick (enterSafe s))) := by
      obtain h | ⟨-, h⟩ | ⟨-, h⟩ | ⟨k, h⟩ := devTick_ctl (enterSafe s)
      · exact hstay _ h
      · rw [hs] at h
        exact .of_move h (by simp [hrun]) (by simp) (fun _ => rfl) (by rw [hrun]; rfl)
      · rw [hs] at h
        exact .of_move (x := s.dev.tt) h (by simp [hrun]) (by simp) (by simp) (by rw [hrun]; rfl)
      · rw [hs] at h
        exact .to_boot h
    dsimp only
    split
    · exact ⟨_, rfl, hcmd⟩
    · exact ⟨_, rfl, hcmd⟩
    · exact ⟨_, rfl, hstay _ (devDrop_ctl _)⟩
    · exact ⟨_, rfl, hstay _ rfl⟩
  · exact ⟨s, rfl, CtlStep.refl (ctl s)⟩

/-- TICK: the count steps, and then a boot or a pending command may act. -/
theorem execTick_step (energy : List Nat) (upsets : List Upset) (readback : List Readback) (s : State) :
    ∃ t, execTick energy upsets readback s = .next t ∧ CtlStep ((s.pwr.tick + 1) % 2 ^ 48) (ctl s) (ctl t) := by
  refine ⟨_, rfl, ?_⟩
  generalize hs3 : forL upsets _ memUpset = s3
  have h3 : ctl (evTick (thruTick (scrub s3))) = { ctl s with tick := (s.pwr.tick + 1) % 2 ^ 48 } := by
    rw [← hs3]
    simp [tickCount, ctl_views, ctl_mk]
  obtain ⟨hq, ht, hw⟩ := tickCommands_step (evTick (thruTick (scrub s3)))
  rw [domKeep_ctl, swapTick_ctl]
  rw [h3] at hq hw
  exact ⟨hq, ht.trans (tick_of_ctl h3), fun h => hw ⟨h.boot, h.power, h.rst, h.loaded⟩⟩

end Sys2Proof.Machine
end

section
/-! The transitions of R24 at a headway start and in a redundant pair. -/

open Sys2Proof Sys2Proof.Machine

namespace Sys2Proof.Machine

/-! ### Headway starts and the pair -/

/-- R496 step 1: the member passes to STANDBY, or stays. -/
theorem passive_ctl (s : State) : ctl (passive s) = ctl s ∨ ctl (passive s) = { ctl s with mode := .standby } := by
  unfold passive
  split
  · split
    · exact .inr (enterStandby_ctl false s)
    · exact .inl ((cause_ctl ..).trans (setRed_ctl ..))
  · exact .inl (setRed_ctl ..)

theorem claim_ctl (s : State) : ctl (claim s) = ctl s ∨ ctl (claim s) = { ctl s with mode := .standby } := by
  unfold claim
  split
  · exact passive_ctl s
  · split <;> exact .inl (setRed_ctl ..)

/-- RUN, an auto-run or a waiting claim: the device enters RUN, or as a member of a pair claims the active role. -/
theorem headwayStartRun_ctl (s : State) (h : s.dev.mode = .ready) :
    ∃ m, ctl (if paired s then claim s else enterRun true true s) = { ctl s with mode := m } ∧
      (m = .ready ∨ m = .run ∨ m = .standby) := by
  split
  · obtain hc | hc := claim_ctl s
    · exact ⟨.ready, hc.trans (by rw [← h]; rfl), .inl rfl⟩
    · exact ⟨.standby, hc, .inr (.inr rfl)⟩
  · exact ⟨.run, enterRun_ctl true true s, .inr (.inl rfl)⟩

/-- RUN and STOP at a headway start: from READY to RUN or STANDBY, from RUN or STANDBY to READY, or no change. -/
theorem headwayCommand_ctl (s : State) : ctl (headwayCommand s) = ctl s ∨
    ∃ m, ctl (headwayCommand s) = { ctl s with mode := m } ∧
      (s.dev.mode = .ready ∧ (m = .ready ∨ m = .run ∨ m = .standby) ∨
        (s.dev.mode = .run ∨ s.dev.mode = .standby) ∧ m = .ready) := by
  unfold headwayCommand
  split
  · exact .inl rfl
  · dsimp only
    split
    · split
      · next hok =>
        refine .inr ⟨.ready, (devCmdDone_ctl _).trans (enterReady_ctl s), .inr ⟨?_, rfl⟩⟩
        cases hm : s.dev.mode <;> simp [hm, devAllowed] at hok ⊢
      · exact .inl (devDrop_ctl s)
    · split
      · next hok =>
        have hm : s.dev.mode = .ready := by cases hm : s.dev.mode <;> simp [hm, devAllowed] at hok ⊢
        obtain ⟨m, h, hr⟩ := headwayStartRun_ctl s hm
        exact .inr ⟨m, (devCmdDone_ctl _).trans h, .inl ⟨hm, hr⟩⟩
      · exact .inl (devDrop_ctl s)
    · split
      · next hok =>
        have hm : s.dev.mode = .ready := hok.1
        obtain ⟨m, h, hr⟩ := headwayStartRun_ctl { s with dev := { s.dev with autoRunDue := false } } hm
        exact .inr ⟨m, h, .inl ⟨hm, hr⟩⟩
      · exact .inl rfl

@[simp] theorem handoverLeave_ctl (s : State) : ctl (handoverLeave s) = { ctl s with mode := .standby } := by
  simp [handoverLeave, ctl_views, ctl_mk]

@[simp] theorem handoverTake_ctl (s : State) : ctl (handoverTake s) = { ctl s with mode := .run } := by
  simp [handoverTake]

/-- Where headways count, a headway start ends in such a state again, after one transition of R24 at most. -/
theorem headwayStart_step (s : State) (h : hwStates s.dev.mode = true) :
    CtlStep s.pwr.tick (ctl s) (ctl (headwayStart s)) := by
  have hboot : s.dev.mode ≠ .boot := by
    intro hb
    simp [hwStates, hb] at h
  have hj : ctl (handoverJudge s) = ctl s := handoverJudge_ctl s
  have hjm : (handoverJudge s).dev.mode = s.dev.mode := mode_of_ctl hj
  unfold headwayStart
  dsimp only
  generalize handoverJudge s = u at hj hjm
  split
  · next hl =>
    refine .of_move (x := s.dev.tt) ((handoverLeave_ctl u).trans (by rw [hj]; rfl)) hboot (by simp) (by simp) ?_
    rw [← hjm, hl.1]
    rfl
  · obtain ⟨x, hx, -⟩ := txBoundary_ctl u
    have hxm : (txBoundary u).dev.mode = s.dev.mode := (mode_of_ctl hx).trans hjm
    have hx' : ctl (txBoundary u) = { ctl s with mode := s.dev.mode, tt := x } := by rw [hx, hj]; rfl
    generalize txBoundary u = v at hx hxm hx'
    have hw (t : State) (m : Mode) (ht : ctl t = { ctl s with mode := m, tt := x }) (hm : m ≠ .boot) (hm' : m ≠ .hold)
        (hs : modeStep s.dev.mode m = true) : CtlStep s.pwr.tick (ctl s) (ctl t) :=
      .of_move ht hboot hm (fun h => absurd h hm') hs
    obtain ⟨m, hm, hmb, hmh, hstep⟩ : ∃ m, ctl (headwayCommand v) = { ctl v with mode := m } ∧ m ≠ .boot ∧ m ≠ .hold ∧
        modeStep v.dev.mode m = true := by
      obtain hc | ⟨m, hc, hmoves⟩ := headwayCommand_ctl v
      · refine ⟨v.dev.mode, hc, by rwa [hxm], ?_, modeStep_refl _⟩
        rw [hxm]
        rintro hh
        simp [hwStates, hh] at h
      · refine ⟨m, hc, ?_⟩
        obtain ⟨hv, rfl | rfl | rfl⟩ | ⟨hv | hv, rfl⟩ := hmoves <;> simp [hv, modeStep]
    rw [hx'] at hm
    rw [hxm] at hstep
    split
    · exact hw _ m hm hmb hmh hstep
    · split
      · next ht =>
        refine hw _ .run ?_ (by simp) (by simp) ?_
        · rw [headwayWork_ctl, handoverTake_ctl, hm]
        · rw [← hxm, ht.2.1]
          rfl
      · exact hw _ m ((headwayWork_ctl ..).trans hm) hmb hmh hstep

theorem execHeadwayStart_step (s : State) :
    ∃ t, execHeadwayStart s = .next t ∧ CtlStep s.pwr.tick (ctl s) (ctl t) := by
  unfold execHeadwayStart
  split
  · next h => exact ⟨_, rfl, headwayStart_step s h.2⟩
  · exact ⟨s, rfl, CtlStep.refl (ctl s)⟩

theorem execCommitBoundary_step (s : State) :
    ∃ t, execCommitBoundary s = .next t ∧ CtlStep s.pwr.tick (ctl s) (ctl t) ∧ t.dev.mode = s.dev.mode := by
  obtain ⟨x, hx, hok⟩ := txBoundary_ctl s
  refine ⟨_, rfl, ?_, mode_of_ctl hx⟩
  obtain rfl | hm := hok
  · exact hx ▸ CtlStep.refl (ctl s)
  · have hm' : s.dev.mode ≠ .boot ∧ s.dev.mode ≠ .hold := by
      cases h : s.dev.mode <;> simp [hwStates, h] at hm ⊢
    exact .of_move (m := s.dev.mode) hx hm'.1 hm'.1 (fun h => absurd h hm'.2) (modeStep_refl _)

/-- From READY to READY, RUN or STANDBY, or from STANDBY to READY or RUN, the timetable and the rest as they were. -/
theorem CtlStep.of_pair {s t : State} {m : Mode} (h : ctl t = { ctl s with mode := m })
    (hm : s.dev.mode = .ready ∧ (m = .run ∨ m = .standby) ∨ s.dev.mode = .standby ∧ (m = .ready ∨ m = .run)) :
    CtlStep s.pwr.tick (ctl s) (ctl t) := by
  obtain ⟨hs, rfl | rfl⟩ | ⟨hs, rfl | rfl⟩ := hm <;>
    exact .of_move (x := s.dev.tt) h (by simp [hs]) (by simp) (by simp) (by rw [hs]; rfl)

theorem CtlStep.of_eq {s t : State} (h : ctl t = ctl s) : CtlStep s.pwr.tick (ctl s) (ctl t) := by
  rw [h]
  exact .refl (ctl s)

theorem CtlStep.passive {s t : State} (h : ctl t = ctl s) (hm : s.dev.mode = .ready) :
    CtlStep s.pwr.tick (ctl s) (ctl (passive t)) := by
  obtain hp | hp := passive_ctl t
  · exact .of_eq (hp.trans h)
  · exact .of_pair (hp.trans (by rw [h])) (.inl ⟨hm, .inr rfl⟩)

theorem execClaimSample_step (s : State) :
    ∃ t, execClaimSample s = .next t ∧ CtlStep s.pwr.tick (ctl s) (ctl t) := by
  unfold execClaimSample
  split
  · next h =>
    split
    · exact ⟨_, rfl, .passive ((cause_ctl ..).trans (setRed_ctl ..)) h.1⟩
    · exact ⟨_, rfl, .of_pair (enterRun_ctl true true s) (.inl ⟨h.1, .inl rfl⟩)⟩
  · exact ⟨s, rfl, CtlStep.refl (ctl s)⟩

theorem execSyncLinkUp_step (s : State) :
    ∃ t, execSyncLinkUp s = .next t ∧ CtlStep s.pwr.tick (ctl s) (ctl t) := by
  unfold execSyncLinkUp
  split
  · exact ⟨s, rfl, CtlStep.refl (ctl s)⟩
  · dsimp only
    generalize hu : redStatus _ = u
    have hc : ctl u = ctl s := by simp [← hu]
    split
    · next h =>
      have hm : s.dev.mode = .ready := (mode_of_ctl hc).symm.trans h.1
      split
      · refine ⟨_, rfl, ?_⟩
        split
        · exact .of_pair ((enterStandby_ctl false u).trans (by rw [hc])) (.inl ⟨hm, .inr rfl⟩)
        · exact .of_eq hc
      · exact ⟨_, rfl, .of_eq hc⟩
    · exact ⟨_, rfl, .of_eq hc⟩

theorem execTakeover_step (s : State) :
    ∃ t, execTakeover s = .next t ∧ CtlStep s.pwr.tick (ctl s) (ctl t) := by
  unfold execTakeover
  split
  · split
    · next h =>
      refine ⟨_, rfl, .of_pair (m := .run) ?_ (.inr ⟨h.1, .inr rfl⟩)⟩
      simp [ctl_views, ctl_mk]
    · exact ⟨s, rfl, CtlStep.refl (ctl s)⟩
  · exact ⟨s, rfl, CtlStep.refl (ctl s)⟩

theorem digestMismatch_ctl (s : State) : ctl (digestMismatch s) = { ctl s with mode := .ready } := by
  simp [digestMismatch]

/-- A message of the link leaves the state, or takes a STANDBY with another digest to READY, or a waiting READY to STANDBY. -/
theorem syncReceive_step (m : SyncMsg) (s : State) : CtlStep s.pwr.tick (ctl s) (ctl (syncReceive m s)) := by
  have hline (c : Prop) [Decidable c] (t : State) (ht : ctl t = ctl s) : CtlStep s.pwr.tick (ctl s) (ctl (if c then t else s)) := by
    split
    · exact .of_eq ht
    · exact .refl (ctl s)
  have hback (t : State) (ht : ctl t = ctl s) (hm : s.dev.mode = .standby) :
      CtlStep s.pwr.tick (ctl s) (ctl (digestMismatch t)) :=
    .of_pair ((digestMismatch_ctl t).trans (by rw [ht])) (.inr ⟨hm, .inl rfl⟩)
  cases m with
  | ack => exact .refl (ctl s)
  | ci | write | meter | cadence | tickEnd | si | handoverAck => exact hline _ _ (setRed_ctl ..)
  | record => exact hline _ _ (mirrorRecord_ctl ..)
  | data | warm | plan | loop | pipe | hyd | left => exact hline _ _ (alignLine_ctl ..)
  | image r ws =>
    unfold syncReceive
    dsimp only
    split
    · exact .of_eq (alignLine_ctl ..)
    · split
      · exact .of_eq (alignApply_ctl ..)
      · exact hline _ _ (mirrorOwned_ctl ..)
  | endHw hw crc mode f digest handover =>
    unfold syncReceive
    dsimp only
    split
    · exact .of_eq ((wiringFault_ctl _).trans (setRed_ctl ..))
    · next hm =>
      split
      · exact hback _ ((wiringFault_ctl _).trans (setRed_ctl ..)) (by simpa using hm)
      · refine .of_eq ?_
        split <;> simp
  | status mode fit digest lockstep =>
    unfold syncReceive
    dsimp only
    split
    · next h => exact hback _ ((wiringFault_ctl _).trans (setRed_ctl ..)) h.1
    · split
      · next h => exact .passive ((wiringFault_ctl _).trans (setRed_ctl ..)) h.1
      · exact .of_eq ((wiringFault_ctl _).trans (setRed_ctl ..))

theorem execSyncFrame_step (seq : Nat) (m : SyncMsg) (s : State) :
    ∃ t, execSyncFrame seq m s = .next t ∧ CtlStep s.pwr.tick (ctl s) (ctl t) := by
  unfold execSyncFrame
  split
  · exact ⟨s, rfl, CtlStep.refl (ctl s)⟩
  · split
    · exact ⟨_, rfl, .of_eq (setRed_ctl ..)⟩
    · dsimp only
      split
      · exact ⟨_, rfl, .of_eq (setRed_ctl ..)⟩
      · have h := syncReceive_step m (setRed { s.red with sent := some (seq, .ack), rxSeq := some seq } s)
        exact ⟨_, rfl, h⟩

end Sys2Proof.Machine
end

section
/-! Every command makes a transition of R24 and keeps the invariant of the device states: supplies, resets, the journal, and the
commands together. -/

open Sys2Proof Sys2Proof.Machine

namespace Sys2Proof.Machine

/-! ### Supplies, resets and the journal -/

/-- A boot may run once supplies, RST_N or the boot that waits have changed: the device is in BOOT then. -/
theorem bootDo_step_of {s u : State} {k : Option BootKind} {g r : Bool}
    (hu : ctl u = { ctl s with boot := k, good := g, rst := r }) (hb : CtlWf (ctl s) → s.dev.mode = .boot) :
    CtlStep s.pwr.tick (ctl s) (ctl (bootDo u)) := by
  obtain ⟨hq, ht, hw⟩ := bootDo_step u
  rw [tick_of_ctl hu] at ht
  rw [hu] at hq hw
  exact ⟨hq, ht, fun hs => hw (.of_boot (hb hs) (hs.loaded (.inl (hb hs))))⟩

theorem rstAct_step (low : Bool) {s t : State} (h : ctl t = ctl s) : CtlStep s.pwr.tick (ctl s) (ctl (rstAct low t)) := by
  have ha := rstAct_ctl low t
  rw [h] at ha
  rw [ha]
  exact ⟨rfl, rfl, fun _ => ⟨.of_boot rfl rfl, modeStep_boot _⟩⟩

theorem execRstNAssert_step (lowNs : Nat) (s : State) :
    ∃ t, execRstNAssert lowNs s = .next t ∧ CtlStep s.pwr.tick (ctl s) (ctl t) := by
  have h := rstSeen_ctl lowNs s
  unfold execRstNAssert
  generalize rstSeen lowNs s = r at h
  obtain ⟨seen, s0⟩ := r
  dsimp only at h ⊢
  split
  · exact ⟨_, rfl, .of_eq h⟩
  · split
    · exact ⟨_, rfl, .of_eq (h ▸ rfl)⟩
    · exact ⟨_, rfl, rstAct_step true ((setReg_ctl ..).trans h)⟩

theorem execRstNRelease_step (bist : BistReport) (s : State) :
    ∃ t, execRstNRelease bist s = .next t ∧ CtlStep s.pwr.tick (ctl s) (ctl t) := by
  unfold execRstNRelease
  dsimp only
  split
  · exact ⟨_, rfl, .of_eq rfl⟩
  · split
    · next h => exact ⟨_, rfl, bootDo_step_of (k := s.dev.bootPending) (g := s.pwr.powerGood) (r := false) rfl fun hs => hs.rst h⟩
    · exact ⟨s, rfl, .of_eq rfl⟩

theorem execPowerGood_step (bist : BistReport) (roleB : Bool) (s : State) :
    ∃ t, execPowerGood bist roleB s = .next t ∧ CtlStep s.pwr.tick (ctl s) (ctl t) := by
  unfold execPowerGood
  split
  · exact ⟨s, rfl, .of_eq rfl⟩
  · next h =>
    have hp : s.pwr.powerGood = false := by simpa using (not_or.1 h).1
    exact ⟨_, rfl, bootDo_step_of (k := some .full) (g := true) (r := s.pwr.rstLow) rfl fun hs => hs.power hp⟩

theorem execPowerGoodLoss_step (s : State) :
    ∃ t, execPowerGoodLoss s = .next t ∧ CtlStep s.pwr.tick (ctl s) (ctl t) := by
  unfold execPowerGoodLoss
  split
  · refine ⟨_, rfl, ?_⟩
    have hc : ctl (powerLost (crash s)) = { ctl s with mode := .boot, tt := none, boot := some .full, good := false } := by
      rw [powerLost_ctl, crash_ctl]
    have ht : CtlStep s.pwr.tick (ctl s) (ctl (powerLost (crash s))) := by
      rw [hc]
      exact ⟨rfl, rfl, fun _ => ⟨.of_boot rfl rfl, modeStep_boot _⟩⟩
    exact ht
  · exact ⟨s, rfl, .of_eq rfl⟩

/-- VAO rises: BOOT with the queue as it was, and the tick count at 0. -/
theorem execVaoRise_step (held : Bool) (elapsed : Nat) (s : State) :
    ∃ t, execVaoRise held elapsed s = .next t ∧ CtlStep 0 (ctl s) (ctl t) := by
  refine ⟨_, rfl, ?_, rfl, fun _ => ⟨.of_boot rfl rfl, modeStep_boot _⟩⟩
  have hc : (crash s).pending = s.pending := congrArg Ctl.pending (crash_ctl s)
  simp only [ctl]
  split
  · exact hc
  · rfl

@[simp] theorem pfwRecord_ctl (s : State) : ctl (pfwRecord s) = ctl s := by
  unfold pfwRecord
  split
  · split
    · exact jnlAbandon_ctl s
    · exact (jnlDone_ctl ..).trans (jnlAbandon_ctl s)
  · rfl

theorem execPowerFailWarning_step (lowNs : Nat) (s : State) :
    ∃ t, execPowerFailWarning lowNs s = .next t ∧ CtlStep s.pwr.tick (ctl s) (ctl t) ∧ t.dev.mode = s.dev.mode := by
  unfold execPowerFailWarning
  split
  · exact ⟨s, rfl, .of_eq rfl, rfl⟩
  · dsimp only
    split
    · have h : ctl (cause Reg.PWR_CAUSE 0 { s with pwr := { s.pwr with pfwNow := true } }) = ctl s := cause_ctl ..
      exact ⟨_, rfl, .of_eq h, mode_of_ctl h⟩
    · generalize ht : saveBegin _ = t
      have h : ctl t = { ctl s with boot := none } := by
        rw [← ht]
        simp [ctl_views, ctl_mk]
      refine ⟨t, rfl, ?_, mode_of_ctl h⟩
      rw [h]
      exact ⟨rfl, rfl, fun hs => ⟨⟨by simp, hs.power, hs.rst, hs.loaded⟩, modeStep_refl _⟩⟩

/-- In BOOT another boot may come to wait. -/
theorem CtlStep.boot_waits {s t : State} (h : ctl t = { ctl s with boot := some .full }) (hm : s.dev.mode = .boot) :
    CtlStep s.pwr.tick (ctl s) (ctl t) := by
  rw [h]
  exact ⟨rfl, rfl, fun hs => ⟨.of_boot hm (hs.loaded (.inl hm)), modeStep_refl _⟩⟩

theorem execPfwRecoverTimeout_step (s : State) :
    ∃ t, execPfwRecoverTimeout s = .next t ∧ CtlStep s.pwr.tick (ctl s) (ctl t) := by
  unfold execPfwRecoverTimeout
  split
  · split
    · next hm =>
      refine ⟨_, rfl, .boot_waits ?_ hm⟩
      simp [ctl_views, ctl_mk]
    · exact ⟨_, rfl, .to_boot (enterBoot_ctl .full false true s)⟩
  · exact ⟨s, rfl, .of_eq rfl⟩

theorem execWatchdogExpire_step (s : State) :
    ∃ t, execWatchdogExpire s = .next t ∧ CtlStep s.pwr.tick (ctl s) (ctl t) ∧ t.dev.mode = s.dev.mode := by
  unfold execWatchdogExpire
  split
  · exact ⟨s, rfl, .of_eq rfl, rfl⟩
  · split
    · next hm =>
      dsimp only
      generalize ht : State.mk _ _ _ _ _ _ _ _ _ _ _ _ _ _ _ _ _ _ _ _ _ _ _ _ = t
      have h : ctl t = { ctl s with boot := some .full } := by
        rw [← ht]
        simp [ctl_views, ctl_mk]
      exact ⟨t, rfl, .boot_waits h hm, mode_of_ctl h⟩
    · have h : ctl (mbAbort (fatal 12 0 (cause Reg.MGT_CAUSE 0 s))) = ctl s := by simp
      exact ⟨_, rfl, .of_eq h, mode_of_ctl h⟩

/-- R422: an assertion of RST_N that a save has held off acts once the save is complete. -/
theorem rstAfterSave_step {s t : State} (h : ctl t = ctl s) : CtlStep s.pwr.tick (ctl s) (ctl (rstAfterSave t)) := by
  unfold rstAfterSave
  split
  · exact rstAct_step _ h
  · exact .of_eq h

/-! ### Every command -/

/-- R406: the tick count that a command leaves. -/
def tickAfter (c : Instr) (n : Nat) : Nat :=
  match c with
  | .tick _ _ _ => (n + 1) % 2 ^ 48
  | .vaoRise _ _ => 0
  | _ => n

theorem Keeps.step {s : State} {r : Result} (h : Keeps s r) : ∃ t, r = .next t ∧ CtlStep s.pwr.tick (ctl s) (ctl t) := by
  obtain ⟨t, ht, hc⟩ := h
  exact ⟨t, ht, .of_eq hc⟩

theorem tickAfter_of_not_steers {c : Instr} (h : steers c = false) (n : Nat) : tickAfter c n = n := by
  cases c with
  | tick | vaoRise => exact absurd h (by simp [steers, mayChangeState])
  | _ => rfl

/-- Every command answers, keeps the queue, counts the tick count as R406 has it, and makes a transition of R24 that keeps the
invariant of the device states. -/
theorem exec_step (c : Instr) (s : State) :
    ∃ t, exec c s = .next t ∧ CtlStep (tickAfter c s.pwr.tick) (ctl s) (ctl t) := by
  by_cases h : steers c = true
  · cases c with
    | tick energy upsets readback => exact execTick_step energy upsets readback s
    | headwayStart => exact execHeadwayStart_step s
    | fatalCauseSafe => exact execFatalCauseSafe_step s
    | rstNAssert lowNs => exact execRstNAssert_step lowNs s
    | rstNRelease bist => exact execRstNRelease_step bist s
    | powerGood bist roleB => exact execPowerGood_step bist roleB s
    | powerGoodLoss => exact execPowerGoodLoss_step s
    | vaoRise held elapsed => exact execVaoRise_step held elapsed s
    | pfwRecoverTimeout => exact execPfwRecoverTimeout_step s
    | journalCopyAWritten r => exact ⟨_, rfl, rstAfterSave_step (jnlAWritten_ctl r s)⟩
    | journalCopyBWritten r => exact ⟨_, rfl, rstAfterSave_step (jnlCopyB_ctl r s)⟩
    | claimSample => exact execClaimSample_step s
    | syncFrame seq m => exact execSyncFrame_step seq m s
    | syncLinkUp => exact execSyncLinkUp_step s
    | takeover => exact execTakeover_step s
    | commitBoundary =>
      obtain ⟨t, ht, hc, -⟩ := execCommitBoundary_step s
      exact ⟨t, ht, hc⟩
    | powerFailWarning lowNs =>
      obtain ⟨t, ht, hc, -⟩ := execPowerFailWarning_step lowNs s
      exact ⟨t, ht, hc⟩
    | watchdogExpire =>
      obtain ⟨t, ht, hc, -⟩ := execWatchdogExpire_step s
      exact ⟨t, ht, hc⟩
    | _ => exact absurd h (by simp [steers, mayChangeState])
  · rw [Bool.not_eq_true] at h
    rw [tickAfter_of_not_steers h]
    exact (exec_keeps c s h).step

/-- Of the commands that cannot change the state, three touch what a boot or the timetable needs; none changes the state. -/
theorem exec_mode_of_not_mayChangeState (c : Instr) (s : State) (h : mayChangeState c = false) :
    ∃ t, exec c s = .next t ∧ t.dev.mode = s.dev.mode := by
  by_cases hs : steers c = true
  · cases c with
    | commitBoundary =>
      obtain ⟨t, ht, -, hm⟩ := execCommitBoundary_step s
      exact ⟨t, ht, hm⟩
    | powerFailWarning lowNs =>
      obtain ⟨t, ht, -, hm⟩ := execPowerFailWarning_step lowNs s
      exact ⟨t, ht, hm⟩
    | watchdogExpire =>
      obtain ⟨t, ht, -, hm⟩ := execWatchdogExpire_step s
      exact ⟨t, ht, hm⟩
    | _ => simp [steers, h] at hs
  · obtain ⟨t, ht, hc⟩ := exec_keeps c s (Bool.not_eq_true _ ▸ hs)
    exact ⟨t, ht, mode_of_ctl hc⟩

end Sys2Proof.Machine

/-- Settles O5: `exec_step` for the front command, on the state with the rest of the queue. -/
theorem stepKeepsDeviceStates : Obligations.StepKeepsDeviceStates := by
  intro s t hs hst
  rw [stateWf_iff] at hs ⊢
  unfold step at hst
  split at hst
  · next hq =>
    cases hst
    exact ⟨hs, by rw [hq]; rfl, modeStep_refl _⟩
  · next c rest hq =>
    obtain ⟨u, hu, hq', -, hw⟩ := exec_step c { s with pending := rest }
    cases hu.symm.trans hst
    obtain ⟨hwf, hm⟩ := hw ⟨hs.boot, hs.power, hs.rst, hs.loaded⟩
    exact ⟨hwf, by rw [hq]; exact hq', hm⟩

/-- Settles O6: nearly every command leaves `ctl`; the rest of those that `mayChangeState` leaves out keep the state. -/
theorem onlyTheseChangeTheState : Obligations.OnlyTheseChangeTheState := by
  intro c s t ht h
  obtain ⟨u, hu, hm⟩ := exec_mode_of_not_mayChangeState c s h
  cases hu.symm.trans ht
  exact hm
end

section
/-! A host write of DEV_ID (R5, R30). -/

open Sys2Proof Sys2Proof.Machine

namespace Sys2Proof.Machine

/-- DEV_ID has read-only fields, so a written word leaves what it holds. -/
theorem devId_fields_ro : ∃ r, regFind Reg.DEV_ID = some r ∧ regHas r isRw = false ∧ regHas r (· == .wo) = false ∧
    regMask r isRw = 0#32 ∧ regMask r (· == .w1c) = 0#32 := ⟨_, rfl, by decide, by decide, by decide, by decide⟩

/-- Writing back what a register holds changes no register. -/
theorem getReg_setReg_self (a b : Nat) (s : State) (h : RegsWf s) : getReg (setReg a (getReg s a) s) b = getReg s b := by
  rw [getReg_setReg a b _ s h]
  split
  · next hb => rw [hb]
  · rfl

/-- A performed word of DEV_ID writes back what it holds. -/
theorem performWord_devId (w : Word) (s : State) (h : RegsWf s) :
    performWord Reg.DEV_ID w s = setReg Reg.DEV_ID (getReg s Reg.DEV_ID) s := by
  obtain ⟨r, hr, -, -, hrw, hw1c⟩ := devId_fields_ro
  have hold : regWritten r (getReg s Reg.DEV_ID) (storeMask Reg.DEV_ID w) = getReg s Reg.DEV_ID := by
    simp only [regWritten, hrw, hw1c, BitVec.and_zero, BitVec.zero_and, BitVec.not_zero, BitVec.and_allOnes, BitVec.or_zero]
  have happly : applyReg Reg.DEV_ID w s = setReg Reg.DEV_ID (getReg s Reg.DEV_ID) s := by
    rw [applyReg_eq_regEffect Reg.DEV_ID w s (by rw [hr]; rfl) (by decide), regPut, hr]
    dsimp only
    rw [hold]
    rfl
  have hfatal : noFatal (setReg Reg.DEV_ID (getReg s Reg.DEV_ID) s) = noFatal s := by
    simp only [noFatal, getFld, getReg_setReg_self _ _ s h]
  have hperform : performWord Reg.DEV_ID w s = fatalCleared s (redWrite Reg.DEV_ID w (applyReg Reg.DEV_ID w s)) := rfl
  rw [hperform, happly, redWrite, if_neg (by decide), fatalCleared, hfatal, if_neg (by simp)]

/-- A host write of DEV_ID is performed and changes no register. -/
theorem getReg_hostWord_devId (w : Word) (s : State) (a : Nat) (h : RegsWf s) :
    getReg (hostWord Reg.DEV_ID w s).2 a = getReg s a := by
  obtain ⟨r, hr, hrw, hwo, -, -⟩ := devId_fields_ro
  have hlpe : lpeOff s Reg.DEV_ID = false := rfl
  have hreason : writeReason Reg.DEV_ID w s = 0 := by
    unfold writeReason
    rw [hr]
    simp [hrw, hwo, hlpe]
  have hstages : stages s Reg.DEV_ID = false := by simp [stages]
  rw [hostWord_of_not_stages _ w s hstages, if_pos hreason, performWord_devId w s h, getReg_setReg_self _ _ s h]

end Sys2Proof.Machine

/-- Settles O3: DEV_ID is read only, so a performed word writes back what the register holds. -/
theorem deviceIdentification : Obligations.DeviceIdentification :=
  ⟨by decide +kernel, fun w s a h => getReg_hostWord_devId w s a h⟩
end

section
/-! Writes of DEV_CMD (R24, R32, R33): what `devCommand` makes of a command. -/

open Sys2Proof Sys2Proof.Machine

namespace Sys2Proof.Machine

theorem devCommand_of_refused (c : DevCmd) (key : Nat) (s : State)
    (h : key ≠ theKey ∨ s.dev.cmd.isSome = true ∨ devHalted c s = true) : devCommand c key s = devRefuse s := if_pos h

theorem devJudged_of_not_fatalDue (s : State) (h : s.dev.fatalDue = false) : devJudged s = s.dev.mode := by
  simp [devJudged, h]

/-- A command becomes pending; a LOAD begins the check of its slot (R74). -/
def pendingWith (c : DevCmd) (s : State) : State :=
  { s with dev := { s.dev with cmd := some c, cmdStatus := 1, loadReady := false } }

/-- What a command that is allowed leads to. -/
def commandPends (c : DevCmd) (s : State) : State :=
  match loadSlot c with
  | some k => slotUnchecked k true (pendingWith c s)
  | none => pendingWith c s

theorem commandPends_plain {c : DevCmd} (h : loadSlot c = none) (s : State) : commandPends c s = pendingWith c s := by
  simp only [commandPends, h]

theorem commandPends_load {c : DevCmd} {k : Nat} (h : loadSlot c = some k) (s : State) :
    commandPends c s = slotUnchecked k true (pendingWith c s) := by simp only [commandPends, h]

theorem devCommand_of_allowed (c : DevCmd) (key : Nat) (s : State) (hk : key = theKey) (hc : s.dev.cmd = none)
    (hh : devHalted c s = false) (ha : devAllowedNow c s = true) : devCommand c key s = commandPends c s := by
  unfold devCommand
  rw [if_neg (by simp [hk, hc, hh]), if_neg (by simp [ha])]
  rfl

/-- Where the state does not allow it, it is refused; a HOLD in RUN is remembered. -/
theorem devCommand_of_not_allowed (c : DevCmd) (key : Nat) (s : State) (hk : key = theKey) (hc : s.dev.cmd = none)
    (hh : devHalted c s = false) (ha : devAllowedNow c s = false) : devCommand c key s =
      { s with dev := { s.dev with
          cmdStatus := 3
          holdRefused := s.dev.holdRefused || decide (c = .hold ∧ s.dev.mode = .run) } } := by
  unfold devCommand
  rw [if_neg (by simp [hk, hc, hh]), if_pos (by simp [ha])]
  by_cases h : c = .hold ∧ s.dev.mode = .run
  · simp [h, devRefuse]
  · simp [h, devRefuse]

/-- What the statement asks of one command: `ok` makes it pending, otherwise it is refused. -/
theorem devCommand_pending (c : DevCmd) (key : Nat) (s : State) (ha : devAllowed c s.dev.mode = true)
    (hk : key = 0xC0DE) (hc : s.dev.cmd = none) (hs : s.pwr.saving = false) (hd : s.pwr.saved = false)
    (hf : s.dev.fatalDue = false) (hclear : c = .clear → fatalBits s = 0) : devCommand c key s = commandPends c s := by
  refine devCommand_of_allowed c key s hk hc (by simp [devHalted, hs, hd]) ?_
  simp only [devAllowedNow, devJudged_of_not_fatalDue s hf, ha, Bool.true_and, Bool.or_eq_true, bne_iff_ne, beq_iff_eq]
  exact imp_iff_not_or.1 hclear

theorem devCommand_refused (c : DevCmd) (key : Nat) (s : State)
    (h : key ≠ 0xC0DE ∨ s.dev.cmd.isSome = true ∨ (s.dev.fatalDue = false ∧ devAllowed c s.dev.mode = false)) :
    devCommand c key s = { s with dev := { s.dev with
      cmdStatus := 3
      holdRefused := s.dev.holdRefused ||
        decide (c = .hold ∧ s.dev.mode = .run ∧ key = 0xC0DE ∧ s.dev.cmd = none ∧ s.pwr.saving = false ∧
          s.pwr.saved = false) } } := by
  by_cases hr : key ≠ theKey ∨ s.dev.cmd.isSome = true ∨ devHalted c s = true
  · have hno : ¬ (c = .hold ∧ s.dev.mode = .run ∧ key = 0xC0DE ∧ s.dev.cmd = none ∧ s.pwr.saving = false ∧
        s.pwr.saved = false) := by
      rintro ⟨rfl, -, hk, hc, hs, hd⟩
      obtain hr | hr | hr := hr
      · exact hr hk
      · simp [hc] at hr
      · simp [devHalted, hs, hd] at hr
    rw [devCommand_of_refused c key s hr, decide_eq_false hno, Bool.or_false]
    rfl
  · simp only [not_or, not_not, Bool.not_eq_true, Option.isSome_eq_false_iff, Option.isNone_iff_eq_none] at hr
    obtain ⟨hk, hc, hh⟩ := hr
    have hnow : s.dev.fatalDue = false ∧ devAllowed c s.dev.mode = false := by
      obtain h | h | h := h
      · exact absurd hk h
      · simp [hc] at h
      · exact h
    rw [devCommand_of_not_allowed c key s hk hc hh (by simp [devAllowedNow, devJudged_of_not_fatalDue s hnow.1, hnow.2])]
    have hiff : (c = .hold ∧ s.dev.mode = .run) ↔ (c = .hold ∧ s.dev.mode = .run ∧ key = 0xC0DE ∧ s.dev.cmd = none ∧
        s.pwr.saving = false ∧ s.pwr.saved = false) := by
      refine ⟨fun ⟨hhold, hrun⟩ => ⟨hhold, hrun, hk, hc, ?_⟩, fun ⟨hhold, hrun, _⟩ => ⟨hhold, hrun⟩⟩
      subst hhold
      simpa [devHalted] using hh
    simp only [hiff]

/-- R74: the check of slot `k` begins: its report is withdrawn, the other slot's stays, and of the state only `dev` changes. -/
theorem slotUnchecked_begins (k : Nat) (hk : k = 0 ∨ k = 1) (s : State) : let t := slotUnchecked k true s
    (slotRep t k).checking = true ∧ (slotRep t k).done = false ∧ slotRep t (1 - k) = slotRep s (1 - k) ∧
      t = { s with dev := t.dev } ∧ t.dev.cmd = s.dev.cmd ∧ t.dev.cmdStatus = s.dev.cmdStatus := by
  obtain rfl | rfl := hk <;> exact ⟨rfl, rfl, rfl, rfl, rfl, rfl⟩

/-- The rows of DEV_CMD, each with its command and the states of R24 that allow it. -/
def devRows (key : Nat) : List (Instr × DevCmd × List Mode) :=
  [(.run key, .run, [.ready]), (.stop key, .stop, [.run, .standby]), (.hold key, .hold, [.ready, .safe]),
    (.loadA key, .loadA, [.hold]), (.loadB key, .loadB, [.hold]), (.clear key, .clear, [.safe]),
    (.reset key, .reset, [.boot, .hold, .ready, .run, .standby, .safe])]

theorem exec_of_mem_devRows (key : Nat) (s : State) :
    ∀ p ∈ devRows key, exec p.1 s = .next (devCommand p.2.1 key s) ∧ ∀ m, m ∈ p.2.2 ↔ devAllowed p.2.1 m = true := by
  simp only [devRows, List.forall_mem_cons, List.not_mem_nil, false_imp_iff, implies_true, and_true]
  refine ⟨⟨rfl, ?_⟩, ⟨rfl, ?_⟩, ⟨rfl, ?_⟩, ⟨rfl, ?_⟩, ⟨rfl, ?_⟩, ⟨rfl, ?_⟩, rfl, ?_⟩ <;> intro m <;> cases m <;> decide

end Sys2Proof.Machine

/-- Settles O8: every row of DEV_CMD is one `devCommand`, which makes a command pending or refuses it. -/
theorem deviceCommands : Obligations.DeviceCommands := by
  intro key s p hp ok
  obtain ⟨hexec, hallowed⟩ := exec_of_mem_devRows key s p hp
  have hpend (hok : ok) (hf : s.dev.fatalDue = false) (hclear : p.2.1 = .clear → fatalBits s = 0) :=
    devCommand_pending p.2.1 key s ((hallowed _).1 hok.2.2.2.2) hok.1 hok.2.1 hok.2.2.1 hok.2.2.2.1 hf hclear
  rw [hexec]
  refine ⟨fun hok hf hclear ha hb => ?_, fun hok hf k hk => ?_, fun h => ?_⟩
  · have hslot : loadSlot p.2.1 = none := by
      cases hc : p.2.1 with
      | loadA => exact absurd hc ha
      | loadB => exact absurd hc hb
      | _ => rfl
    rw [hpend hok hf hclear, commandPends_plain hslot]
    rfl
  · have hslot : loadSlot p.2.1 = some k ∧ p.2.1 ≠ .clear ∧ (k = 0 ∨ k = 1) := by
      obtain ⟨hc, rfl⟩ | ⟨hc, rfl⟩ := hk <;> simp [hc, loadSlot]
    obtain ⟨hload, hclear, hk⟩ := hslot
    rw [hpend hok hf fun h => absurd h hclear, commandPends_load hload]
    obtain ⟨hcheck, hdone, hother, hrest, hcmd, hstat⟩ := slotUnchecked_begins k hk (pendingWith p.2.1 s)
    exact ⟨_, rfl, hcmd, hstat, hcheck, hdone, hother, hrest⟩
  · rw [devCommand_refused p.2.1 key s (h.imp_right (.imp_right fun ⟨hf, hm⟩ => ⟨hf, ?_⟩))]
    simpa [hallowed] using hm
end

section
/-! Causes and fatal causes (R26, R537, R540): what recording an event leaves alone, and the recorder's buffer after a flush. -/

open Sys2Proof Sys2Proof.Machine

namespace Sys2Proof.Machine

/-- `t` differs from `s` in the register file, the die and the recorder only, and the recorder is as ready as it was. -/
structure RecorderOnly (s t : State) : Prop where
  rest : t = { s with
    regs := t.regs
    nv := t.nv
    mgt := { s.mgt with
      evr := t.mgt.evr
      flushTicks := t.mgt.flushTicks } }
  ready : t.mgt.evr.ready = s.mgt.evr.ready

theorem RecorderOnly.trans {s t u : State} (h : RecorderOnly s t) (k : RecorderOnly t u) : RecorderOnly s u := by
  refine ⟨?_, k.ready.trans h.ready⟩
  rw [k.rest, h.rest]

theorem evFlush_recorderOnly (s : State) : RecorderOnly s (evFlush false s) := by
  unfold evFlush
  split <;> exact ⟨rfl, rfl⟩

theorem evStore_recorderOnly (direct : Bool) (r : List Byte) (s : State) : RecorderOnly s (evStore direct r s) := by
  unfold evStore
  split
  · exact ⟨rfl, rfl⟩
  · dsimp only
    split
    · exact ⟨rfl, rfl⟩
    · split
      · exact ⟨rfl, rfl⟩
      · split
        · refine RecorderOnly.trans ?_ (evFlush_recorderOnly _)
          exact ⟨rfl, rfl⟩
        · exact ⟨rfl, rfl⟩

/-- The buckets of R541 come and go; the record itself is stored. -/
theorem evRaise_recorderOnly (code source : Nat) (d0 d1 : Word) (s : State) :
    RecorderOnly s (evRaise code source d0 d1 s) := by
  unfold evRaise
  extract_lets e src done
  have hdone (o : Option Nat) (e' : EvrState) (he : e'.ready = s.mgt.evr.ready) : RecorderOnly s (done o e') := by
    simp only [done]
    cases o with
    | some n => exact RecorderOnly.trans (t := { s with mgt := { s.mgt with evr := e' } }) ⟨rfl, he⟩ (evStore_recorderOnly ..)
    | none => exact ⟨rfl, he⟩
  split
  · exact hdone _ _ rfl
  · split <;> exact hdone _ _ rfl

theorem causeD_recorderOnly (reg b src : Nat) (d0 d1 : Word) (s : State) : RecorderOnly s (causeD reg b src d0 d1 s) := by
  have hset : RecorderOnly s (setBit reg b true s) := ⟨rfl, rfl⟩
  unfold causeD
  dsimp only
  split
  · exact hset
  · split <;> exact hset.trans (evRaise_recorderOnly ..)

/-- The other bits of the register are as they were, the recorder's own registers apart. -/
theorem causeD_getBit_of_ne (reg b src i : Nat) (d0 d1 : Word) (s : State) (h : RegsWf s) (hb : b < 32) (hi : i ≠ b)
    (hm : reg ≠ Reg.MGT_CAUSE) (hr : reg ≠ Reg.MGT_EVR_CNT) :
    getBit (causeD reg b src d0 d1 s) reg i = getBit s reg i := by
  have hset : getBit (setBit reg b true s) reg i = getBit s reg i := by
    by_cases hi32 : i < 32
    · rw [getBit_setBit reg b i true s h hb hi32, if_neg hi]
    · simp [getBit, BitVec.getLsbD_of_ge _ _ (Nat.not_lt.1 hi32)]
  have hraise (c : Nat) : getBit (evRaise c src d0 d1 (setBit reg b true s)) reg i = getBit s reg i :=
    (getBit_congr ((evRaise_regs c src d0 d1 _ (setReg_wf reg _ s h)).2 reg (by simp [hm, hr])) i).trans hset
  unfold causeD
  dsimp only
  split
  · exact hset
  · split <;> exact hraise _

/-- R540: a flush leaves the buffer empty, once the ring scan has shown where records go. -/
theorem evFlush_buffer (s : State) (h : s.mgt.evr.ready = true) : (evFlush false s).mgt.evr.buffer = [] := by
  simp [evFlush, evWaits, h]

/-- What goes to the peer changes nothing but the pair's state. -/
theorem redStatus_loseStep_rest (s : State) :
    redStatus (loseStep s) = { s with red := (redStatus (loseStep s)).red } := by
  unfold redStatus redSend
  split <;> rfl

/-- The state in which a fatal cause is recorded and the recorder flushed (R26, R540). -/
def fatalRecorded (b src : Nat) (s : State) : State := evFlush false (causeS Reg.DEV_CAUSE b src s)

theorem fatalRecorded_recorderOnly (b src : Nat) (s : State) : RecorderOnly s (fatalRecorded b src s) :=
  (causeD_recorderOnly ..).trans (evFlush_recorderOnly _)

theorem fatalRecorded_getBit (b src : Nat) (s : State) (h : RegsWf s) (hb : b < 32) :
    getBit (fatalRecorded b src s) Reg.DEV_CAUSE b = true := by
  have hset := causeD_sets Reg.DEV_CAUSE b src 0 0 s hb (by decide) h
  simpa only [fatalRecorded, causeS, getBit, getReg, evFlush_regs] using hset

/-- R26, R508: after that, in RUN the move to SAFE is due; in STANDBY the member leaves the lock-step and tells its peer. -/
theorem fatal_cases (b src : Nat) (s : State) :
    (s.dev.mode = .run ∧ fatal b src s = { fatalRecorded b src s with dev := (fatal b src s).dev } ∧
        (fatal b src s).dev.fatalDue = true) ∨
      (s.dev.mode ≠ .run ∧ fatal b src s = { fatalRecorded b src s with red := (fatal b src s).red }) := by
  have hm : (fatalRecorded b src s).dev.mode = s.dev.mode := by rw [(fatalRecorded_recorderOnly b src s).rest]
  unfold fatal
  dsimp only
  generalize hu : evFlush false (causeS Reg.DEV_CAUSE b src s) = u
  have hrec : fatalRecorded b src s = u := hu
  rw [hrec] at hm ⊢
  split
  · next h =>
    refine .inl ⟨hm.symm.trans h, ?_⟩
    split <;> exact ⟨rfl, rfl⟩
  · next h => exact .inr ⟨by simp [← hm, h], redStatus_loseStep_rest u⟩
  · next h _ => exact .inr ⟨fun hr => h (hm.trans hr), rfl⟩

/-- A fatal cause leaves the registers, the recorder and the state as they are once it is recorded. -/
theorem fatal_recorded (b src : Nat) (s : State) : (fatal b src s).regs = (fatalRecorded b src s).regs ∧
    (fatal b src s).mgt = (fatalRecorded b src s).mgt := by
  obtain ⟨-, h, -⟩ | ⟨-, h⟩ := fatal_cases b src s <;> exact ⟨by rw [h], by rw [h]⟩

end Sys2Proof.Machine

/-- Settles O25: recording touches the registers, the die and the recorder; what a fatal cause adds is `fatal_cases`. -/
theorem causesAndFatalCauses : Obligations.CausesAndFatalCauses := by
  intro reg b src d0 d1 s h hb
  refine ⟨fun hr => ?_, ?_⟩
  · obtain ⟨hwf, hregs⟩ := causeD_regs reg b src d0 d1 s h
    exact ⟨causeD_sets reg b src d0 d1 s hb hr h, hwf, fun a h1 h2 h3 => hregs a (by simp [h1, h2, h3]),
      fun i hi hm => causeD_getBit_of_ne reg b src i d0 d1 s h hb hi hm hr, (causeD_recorderOnly reg b src d0 d1 s).rest⟩
  · obtain ⟨hregs, hmgt⟩ := fatal_recorded b src s
    have hbit := fatalRecorded_getBit b src s h hb
    refine ⟨?_, mode_of_ctl (fatal_ctl b src s), fun hready => ?_, fun hrun => ?_, fun hrun => ?_⟩
    · simpa only [getBit, getReg, hregs] using hbit
    · rw [hmgt]
      exact evFlush_buffer _ ((causeD_recorderOnly ..).ready.trans hready)
    · obtain ⟨-, -, hdue⟩ | ⟨hno, -⟩ := fatal_cases b src s
      · exact hdue
      · exact absurd hrun hno
    · obtain ⟨hyes, -, -⟩ | ⟨-, hrest⟩ := fatal_cases b src s
      · exact absurd hyes hrun
      · rw [hrest, (fatalRecorded_recorderOnly b src s).rest]
end


section

/-! ## The image group (R328 to R330) -/

open Sys2Proof Sys2Proof.Machine
namespace Sys2Proof.Machine

/-- The two bits of a quality code are what is left modulo 4. -/
theorem field_quality (a : Word) : field a 1 0 = a.toNat % 4 := by simp [field, bits]

theorem qualityOf_mod (n : Nat) : qualityOf (n % 4) = qualityOf n := by simp [qualityOf]

theorem causeS_ce (reg b src : Nat) (s : State) : (causeS reg b src s).ce = s.ce := (causeS_recorded ..).ce

theorem imageWrite_owned {c : CeCtx} {ref : Nat} {w : DWord} {s : State} (ho : ref ∈ ownedRefs c.tt c.r)
    (hl : outIsLate s ref = false) : imageWrite c ref w s = outWrite ref w s := by
  simp [imageWrite, ho, hl]

theorem imageWrite_notOwned {c : CeCtx} {ref : Nat} {w : DWord} {s : State} (ho : ref ∉ ownedRefs c.tt c.r) :
    imageWrite c ref w s = causeS Reg.CE_CAUSE 3 (taskId c.e c.k) (incFld Reg.CE_CNT 15 0 s) := by
  simp [imageWrite, ho]

theorem ceIrd_laws {e : Nat} {c : CeCtx} {s : State} (h : CeExecutes e c s) (hl : isRPair 0x28 0x00 c.w = true) :
    (c.tt.refValid c.ra.toNat = false → CeTraps (.ceIrd e) c 0x08 s) ∧
    (c.tt.refValid c.ra.toNat = true → ∀ w, refGet s c.ra.toNat = some w →
      CeDoes (.ceIrd e) c (c.t.setPair (iRd c.w) (w.setWidth 32) ((w >>> 32).setWidth 32)) 24 s) := by
  refine ⟨fun hv => traps_of rfl h hl ?_, fun hv w hw => does_of1 rfl h hl (by decide) ?_⟩
  · simp [hv]
  · simp [hv, hw, CeCtx.next, wordVal]

theorem ceIwr_laws {e : Nat} {c : CeCtx} {s : State} (h : CeExecutes e c s) (hl : isRPair 0x28 0x01 c.w = true) :
    (c.tt.refValid c.ra.toNat = false → CeTraps (.ceIwr e) c 0x08 s) ∧
    (c.tt.refValid c.ra.toNat = true → c.ra.toNat ∈ ownedRefs c.tt c.r → outIsLate s c.ra.toNat = false →
      CeWrites (.ceIwr e) c c.t 16 s
        (outWrite c.ra.toNat (mkWord c.rd (qualityOf ((c.t.reg (iRd c.w + 1)).toNat % 4))) s)) ∧
    (c.tt.refValid c.ra.toNat = true → c.ra.toNat ∉ ownedRefs c.tt c.r →
      CeWrites (.ceIwr e) c c.t 16 s (causeS Reg.CE_CAUSE 3 (taskId c.e c.k) (incFld Reg.CE_CNT 15 0 s))) := by
  refine ⟨fun hv => traps_of rfl h hl ?_, fun hv ho hn => writes_of1 rfl h hl (by decide) (by rw [outWrite_ce]) ?_,
    fun hv ho => writes_of1 rfl h hl (by decide) (by rw [causeS_ce, (incFld_recorded ..).ce]) ?_⟩
  · simp [hv]
  · simp [hv, CeCtx.next, imageWrite_owned ho hn, qualityOf_mod]
  · simp [hv, CeCtx.next, imageWrite_notOwned ho]

end Sys2Proof.Machine

/-- Settles O17: each instruction of the group by the rule of its retirement or of its trap. -/
theorem imageGroup : Obligations.ImageGroup := by
  intro e c s h d ref q
  refine ⟨ceIrd_laws h, ceIwr_laws h, fun hl => does_of1 rfl h hl (by decide) ?_, fun hl => does_of1 rfl h hl (by decide) ?_⟩
  · simp only [CeCtx.next, field_quality, d, q]
  · simp only [CeCtx.next, field_quality, d, q, boolWord]
    by_cases h3 : c.ra.toNat % 4 = 3 <;> simp [h3]

end


section

/-! ## A headway start in a register file out of order

HeadwayStart speaks of every state, also of one whose register file is not in ascending order. There SLK_EPOCH (R136) can
stand behind a word of a higher address and reads its reset value; the headway start writes the load of engine 0 (R307),
which removes that word, and the train that leaves then carries the uncovered epoch. -/

open Sys2Proof Sys2Proof.Machine
namespace Sys2Proof.Machine

/-- RUN with a headway start due; the load of engine 0 stands before SLK_EPOCH in the register file. -/
def epochCovered : State :=
  { Tests.dv (fun d => { d with hwDue := true }) (Tests.on .run) with
    regs := [(Reg.CE_E_LOAD, 5#32), (Reg.SLK_EPOCH, 7#32)] }

/-- The epoch of the train that port 0 sends at a headway start. -/
def epochSent (s : State) : Option Nat :=
  match exec .headwayStart s with
  | .next t => some (lineSt t 0).epoch
  | _ => none

theorem epochSent_epochCovered : epochSent epochCovered = some 7 := by decide +kernel

theorem getReg_epochCovered : (getReg epochCovered Reg.SLK_EPOCH).toNat = 0 := by decide +kernel

theorem epochCovered_sends : trainsLeave epochCovered = true ∧ 0 ∈ headPorts (theTt epochCovered) := by decide +kernel

end Sys2Proof.Machine

/-- Refutes O54: `epochCovered` reads epoch 0 before the headway start and sends its train with epoch 7. -/
theorem not_headwayStart : ¬ Obligations.HeadwayStart := by
  intro h
  obtain ⟨hrun, -, -⟩ := h epochCovered rfl (by decide)
  obtain ⟨t, hstep, -, -, -, hlines⟩ := hrun rfl (.inl rfl) rfl
  obtain ⟨hleaves, hhead⟩ := epochCovered_sends
  obtain ⟨-, -, -, hepoch⟩ := (hlines rfl 0 hhead).1 hleaves
  have hsent : (lineSt t 0).epoch = 7 := by simpa [epochSent, hstep] using epochSent_epochCovered
  rw [hsent, getReg_epochCovered] at hepoch
  exact absurd hepoch (by decide)

end


section

/-! ## The solver fabric and its two clients (R17, R209, R210, R226, R227, R159, R249) -/

open Sys2Proof Sys2Proof.Machine
namespace Sys2Proof.Machine

/-! ### What the fabric's own work touches -/

/-- `t` differs from `s` in the registers, the recorder, the die, the memories, the fabric and the free values only, and the
register file stays in canonical form. -/
structure Worked (s t : State) : Prop where
  rest : t = { s with free := t.free, regs := t.regs, nv := t.nv, mgt := t.mgt, mem := t.mem, slv := t.slv }
  wf : RegsWf s → RegsWf t

namespace Worked

theorem refl (s : State) : Worked s s := ⟨rfl, id⟩

theorem trans {s t u : State} (h : Worked s t) (k : Worked t u) : Worked s u := by
  refine ⟨?_, k.wf ∘ h.wf⟩
  have hu := k.rest
  rw [h.rest] at hu
  exact hu

theorem of_recorded {s t : State} (h : Recorded s t) (k : RegsWf s → RegsWf t) : Worked s t := ⟨by rw [h], k⟩

theorem opt {s t : State} (h : Worked s t) : t.opt = s.opt := by rw [h.rest]
theorem hyd {s t : State} (h : Worked s t) : t.hyd = s.hyd := by rw [h.rest]
theorem dev {s t : State} (h : Worked s t) : t.dev = s.dev := by rw [h.rest]

theorem forL {α : Type} (xs : List α) (s : State) (f : α → State → State) (h : ∀ x t, Worked t (f x t)) :
    Worked s (Machine.forL xs s f) := by
  unfold Machine.forL
  induction xs generalizing s with
  | nil => exact refl s
  | cons x xs ih => exact (h x s).trans (ih _)

theorem ite {c : Prop} [Decidable c] {s t u : State} (ht : Worked s t) (hu : Worked s u) :
    Worked s (if c then t else u) := by
  split
  · exact ht
  · exact hu

end Worked

theorem setReg_worked (a : Nat) (v : Word) (s : State) : Worked s (setReg a v s) :=
  .of_recorded (setReg_recorded ..) (setReg_wf a v s)

theorem setFld_worked (a hi lo v : Nat) (s : State) : Worked s (setFld a hi lo v s) := setReg_worked ..

theorem setBit_worked (a i : Nat) (b : Bool) (s : State) : Worked s (setBit a i b s) := setReg_worked ..

theorem incFld_worked (a hi lo : Nat) (s : State) : Worked s (incFld a hi lo s) := setReg_worked ..

theorem causeS_worked (reg b src : Nat) (s : State) : Worked s (causeS reg b src s) :=
  .of_recorded (causeS_recorded ..) fun h => (causeD_regs _ _ _ _ _ _ h).1

theorem cause_worked (reg b : Nat) (s : State) : Worked s (cause reg b s) := causeS_worked ..

theorem fsPut_worked (i : Nat) (ws : List Word) (s : State) : Worked s (fsPut i ws s) := ⟨rfl, id⟩

theorem fabSet_worked (c : Nat) (x : FabClient) (s : State) : Worked s (fabSet c x s) := by
  unfold fabSet
  exact .ite ⟨rfl, id⟩ ⟨rfl, id⟩

theorem fresh_worked (s : State) : Worked s (fresh s).2 := ⟨rfl, id⟩

theorem slvFailIx_worked (c loc ix : Nat) (s : State) : Worked s (slvFailIx c loc ix s) := setReg_worked ..

theorem slvResult_worked (c res : Nat) (s : State) : Worked s (slvResult c res s) := by
  have h := (setFld_worked (slvBank c) 2 0 res s).trans (setFld_worked (slvBank c) 11 8 (fabGet s c).route _)
  exact .ite (h.trans ((incFld_worked ..).trans (causeS_worked ..))) h

/-! ### Reading the stores -/

theorem memMeet_worked (lost : Upset → State → State) (h : ∀ u s, Worked s (lost u s)) (u : Upset) (s : State) :
    Worked s (memMeet lost u s) := by
  have hd (p : Upset → Bool) : Worked s (memDrop p s) := ⟨rfl, id⟩
  have hc (k : Nat) (t : State) : Worked t (memCorrected k t) := (incFld_worked ..).trans (cause_worked ..)
  have hu (k a : Nat) (t : State) : Worked t (memUncorrected k a t) :=
    (incFld_worked ..).trans ((setReg_worked ..).trans (cause_worked ..))
  have hr (k n a : Nat) (t : State) : Worked t (memRebuilt k n a t) :=
    (Worked.forL _ _ _ fun _ _ => incFld_worked ..).trans ((setReg_worked ..).trans (cause_worked ..))
  unfold memMeet
  exact .ite (.refl s) (.ite ((hd _).trans (hc ..)) (.ite (.ite ((hu ..).trans (h ..)) (.refl s)) ((hd _).trans (hr ..))))

theorem memRead_worked (lost : Upset → State → State) (h : ∀ u s, Worked s (lost u s)) (a n : Nat) (s : State) :
    Worked s (memRead lost a n s) := .forL _ _ _ fun u t => memMeet_worked lost h u t

theorem entryLost_worked (i : Nat) (s : State) : Worked s (entryLost i s) :=
  .ite (setBit_worked ..) (.ite (.forL _ _ _ fun _ t => .ite (setBit_worked ..) (.refl t))
    (.ite (.ite (.refl s) (fabSet_worked ..)) (.refl s)))

theorem slvMemError_worked (pattern : Bool) (off : Nat) (s : State) : Worked s (slvMemError pattern off s) := by
  unfold slvMemError
  refine .ite (.refl s) (.ite ?_ ?_)
  · exact ((Worked.ite (setBit_worked ..) (.refl s)).trans
      (.forL _ _ _ fun _ t => .ite (setBit_worked ..) (.refl t))).trans (cause_worked ..)
  · exact ((entryLost_worked ..).trans (entryLost_worked ..)).trans (.forL _ _ _ fun _ _ => cause_worked ..)

theorem fabRead_worked (i n : Nat) (s : State) : Worked s (fabRead i n s) :=
  memRead_worked _ (fun _ _ => slvMemError_worked ..) _ _ _

theorem patRead_worked (c k : Nat) (s : State) : Worked s (patRead c k s) := by
  unfold patRead
  exact .ite (.refl s) (memRead_worked _ (fun _ _ => slvMemError_worked ..) _ _ _)

theorem factorReads_worked (c : Nat) (s : State) : Worked s (factorReads c s) :=
  .ite ((patRead_worked ..).trans (fabRead_worked ..)) (.refl s)

theorem solveReads_worked (c : Nat) (s : State) : Worked s (solveReads c s) := fabRead_worked ..

/-! ### The two units of work -/

theorem listStore_worked (t : Timetable) (c inst : Nat) (r : Route) (l : List (Nat × Word)) (s : State) :
    Worked s (listStore t c inst r l s) := .forL _ _ _ fun _ u => .ite (fsPut_worked ..) (.refl u)

theorem slvFactor_worked (c : Nat) (s : State) : Worked s (slvFactor c s).2 := by
  unfold slvFactor
  extract_lets sr x t r b wb routeReg src s0 clear done s1 j sf s2 vb k sc run0 run s3 s4 s5 s6 repl src' s7 s8
  have h0 : Worked s s0 := (factorReads_worked c s).trans
    (Worked.trans (t := { sr with slv := { sr.slv with factors := (sr.slv.factors + 1) % 2 ^ 32 } }) ⟨rfl, id⟩ (incFld_worked ..))
  have hdone (res : Nat) (u : State) : Worked u (done res u).2 := slvResult_worked ..
  have hclear (u : State) : Worked u (clear u) := (setReg_worked ..).trans ((setReg_worked ..).trans (setReg_worked ..))
  have h1 : Worked s s1 := .ite (h0.trans ((fsPut_worked ..).trans (setBit_worked ..))) h0
  have hf : Worked s sf := h1.trans ((hclear _).trans ((setReg_worked ..).trans (slvFailIx_worked ..)))
  have h2 : Worked s s2 := (h1.trans (hclear _)).trans (listStore_worked ..)
  have h5 : Worked s s5 := h2.trans ((fsPut_worked ..).trans ((fsPut_worked ..).trans (setReg_worked ..)))
  have h6 : Worked s s6 := by
    simp only [s6]
    split
    · exact h5.trans (setReg_worked ..)
    · exact h5
  have h7 : Worked s s7 := h6.trans ((setReg_worked ..).trans (fabSet_worked ..))
  have h8 : Worked s s8 := .ite (h7.trans (causeS_worked ..)) h7
  clear_value s0 s8 sf done clear
  split
  · exact h0.trans ((fresh_worked _).trans ((hclear _).trans ((setReg_worked ..).trans (hdone ..))))
  · split
    · exact hf.trans ((causeS_worked ..).trans (hdone ..))
    · split
      · exact h8.trans ((slvFailIx_worked ..).trans (hdone ..))
      · exact h8.trans (hdone ..)

theorem slvSolve_worked (c : Nat) (s : State) : Worked s (slvSolve c s).2 := by
  unfold slvSolve
  extract_lets sr x t r b wb k fb vb facs fac rhs v cyc s1 nb den rel s2 s3 s4 s5 s6 res
  have h1 : Worked s s1 :=
    (solveReads_worked c s).trans ((setReg_worked ..).trans ((setReg_worked ..).trans (setFld_worked ..)))
  have h3 : Worked s s3 := h1.trans ((setReg_worked ..).trans (fsPut_worked ..))
  have h4 : Worked s s4 := .ite h3 (h3.trans (fsPut_worked ..))
  have h5 : Worked s s5 := .ite h4 (h4.trans (fsPut_worked ..))
  have h6 : Worked s s6 := h5.trans (fsPut_worked ..)
  clear_value s1 s6
  split
  · exact h1.trans (slvResult_worked c 5 _)
  · split
    · exact h1.trans ((slvFailIx_worked ..).trans (slvResult_worked c 3 _))
    · exact h6.trans (slvResult_worked c res _)

theorem fabEnd_worked (c : Nat) (s : State) : Worked s (fabEnd c s) := (fabSet_worked ..).trans ⟨rfl, id⟩

theorem fabEnd_holder (c : Nat) (s : State) : (fabEnd c s).slv.holder = 0 := rfl

theorem fabRhs_worked (c : Nat) (v : List Word) (s : State) : Worked s (fabRhs c v s) := fsPut_worked ..

end Sys2Proof.Machine

end


section

/-! ## The fabric's arbitration and the steps of its clients (R17, R209, R210, R226, R227) -/

open Sys2Proof Sys2Proof.Machine
namespace Sys2Proof.Machine

/-! ### Granting the fabric -/

/-- `t` differs from `s` in the fabric only, and no client's unit and no hold of HYD has changed. -/
structure Granted (s t : State) : Prop where
  rest : t = { s with slv := t.slv }
  hydUnit : t.slv.hyd.unit = s.slv.hyd.unit
  optUnit : t.slv.opt.unit = s.slv.opt.unit
  holds : t.slv.hydHolds = s.slv.hydHolds

theorem Granted.refl (s : State) : Granted s s := ⟨rfl, rfl, rfl, rfl⟩

theorem Granted.trans {s t u : State} (h : Granted s t) (k : Granted t u) : Granted s u := by
  refine ⟨?_, k.hydUnit.trans h.hydUnit, k.optUnit.trans h.optUnit, k.holds.trans h.holds⟩
  have hu := k.rest
  rw [h.rest] at hu
  exact hu

theorem fabSet_granted {c : Nat} {x : FabClient} {s : State} (h : x.unit = (fabGet s c).unit) :
    Granted s (fabSet c x s) := by
  unfold fabSet
  by_cases hc : c = 1
  · rw [if_pos hc]
    exact ⟨rfl, h.trans (by rw [fabGet, if_pos hc]), rfl, rfl⟩
  · rw [if_neg hc]
    exact ⟨rfl, rfl, h.trans (by rw [fabGet, if_neg hc]), rfl⟩

theorem fabStart_granted (c : Nat) (s : State) : Granted s (fabStart c s) := by
  unfold fabStart
  extract_lets x s1
  have h : Granted s s1 := by
    simp only [s1]
    repeat' split
    · exact .refl s
    · exact fabSet_granted rfl
    · exact fabSet_granted rfl
    · exact .refl s
  exact h.trans ⟨rfl, rfl, rfl, rfl⟩

theorem fabGrant_granted (s : State) : Granted s (fabGrant s) := by
  unfold fabGrant
  repeat' split
  · exact .refl s
  · exact fabStart_granted 1 s
  · exact .refl s
  · exact fabStart_granted 2 s
  · exact .refl s

@[simp] theorem fabGrant_regs (s : State) : (fabGrant s).regs = s.regs := by rw [(fabGrant_granted s).rest]
@[simp] theorem fabGrant_dev (s : State) : (fabGrant s).dev = s.dev := by rw [(fabGrant_granted s).rest]
@[simp] theorem fabGrant_img (s : State) : (fabGrant s).img = s.img := by rw [(fabGrant_granted s).rest]
@[simp] theorem fabGrant_hyd (s : State) : (fabGrant s).hyd = s.hyd := by rw [(fabGrant_granted s).rest]
@[simp] theorem fabGrant_ftr (s : State) : (fabGrant s).ftr = s.ftr := by rw [(fabGrant_granted s).rest]
@[simp] theorem fabGrant_opt (s : State) : (fabGrant s).opt = s.opt := by rw [(fabGrant_granted s).rest]
@[simp] theorem fabGrant_hydUnit (s : State) : (fabGrant s).slv.hyd.unit = s.slv.hyd.unit := (fabGrant_granted s).hydUnit
@[simp] theorem fabGrant_optUnit (s : State) : (fabGrant s).slv.opt.unit = s.slv.opt.unit := (fabGrant_granted s).optUnit
@[simp] theorem fabGrant_holds (s : State) : (fabGrant s).slv.hydHolds = s.slv.hydHolds := (fabGrant_granted s).holds

@[simp] theorem getBit_fabGrant (s : State) (a i : Nat) : getBit (fabGrant s) a i = getBit s a i := by simp [getBit, getReg]
@[simp] theorem getFld_fabGrant (s : State) (a hi lo : Nat) : getFld (fabGrant s) a hi lo = getFld s a hi lo := by
  simp [getFld, getReg]

theorem fabStart_holder (c : Nat) (s : State) : (fabStart c s).slv.holder = c := rfl

/-- A held fabric stays with its holder. -/
theorem fabGrant_held {s : State} (h : s.slv.holder ≠ 0) : fabGrant s = s := by simp [fabGrant, h]

/-- HYD comes before OPT. -/
theorem fabGrant_hydFirst {s : State} (h : s.slv.holder = 0) (hu : s.slv.hyd.unit ≠ .none) : fabGrant s = fabStart 1 s := by
  simp [fabGrant, h, hu]

/-- While HYD holds the fabric without a request, nobody starts. -/
theorem fabGrant_kept {s : State} (hu : s.slv.hyd.unit = .none) (hh : s.slv.hydHolds = true) : fabGrant s = s := by
  simp [fabGrant, hu, hh]

/-! ### Requests -/

@[simp] theorem fabSet_regs (c : Nat) (x : FabClient) (s : State) : (fabSet c x s).regs = s.regs := by
  unfold fabSet; split <;> rfl
@[simp] theorem fabSet_opt (c : Nat) (x : FabClient) (s : State) : (fabSet c x s).opt = s.opt := by
  unfold fabSet; split <;> rfl
@[simp] theorem fabSet_hyd (c : Nat) (x : FabClient) (s : State) : (fabSet c x s).hyd = s.hyd := by
  unfold fabSet; split <;> rfl
@[simp] theorem fabSet_ftr (c : Nat) (x : FabClient) (s : State) : (fabSet c x s).ftr = s.ftr := by
  unfold fabSet; split <;> rfl
@[simp] theorem fabSet_dev (c : Nat) (x : FabClient) (s : State) : (fabSet c x s).dev = s.dev := by
  unfold fabSet; split <;> rfl
@[simp] theorem fabSet_holder (c : Nat) (x : FabClient) (s : State) : (fabSet c x s).slv.holder = s.slv.holder := by
  unfold fabSet; split <;> rfl

@[simp] theorem fabRequest_regs (c : Nat) (u : FabUnit) (s : State) : (fabRequest c u s).regs = s.regs := by
  unfold fabRequest; dsimp only; split <;> simp
@[simp] theorem fabRequest_opt (c : Nat) (u : FabUnit) (s : State) : (fabRequest c u s).opt = s.opt := by
  unfold fabRequest; dsimp only; split <;> simp
@[simp] theorem fabRequest_hyd (c : Nat) (u : FabUnit) (s : State) : (fabRequest c u s).hyd = s.hyd := by
  unfold fabRequest; dsimp only; split <;> simp
@[simp] theorem fabRequest_dev (c : Nat) (u : FabUnit) (s : State) : (fabRequest c u s).dev = s.dev := by
  unfold fabRequest; dsimp only; split <;> simp
@[simp] theorem fabRequest_optUnit (u : FabUnit) (s : State) : (fabRequest 2 u s).slv.opt.unit = u := by
  simp [fabRequest, fabSet]

/-- A request of HYD for the free fabric starts at once. -/
theorem fabRequest_hydStarts {u : FabUnit} {s : State} (h : s.slv.holder = 0) (hu : u ≠ .none) :
    (fabRequest 1 u s).slv.hyd.unit = u ∧ (fabRequest 1 u s).slv.holder = 1 := by
  have hn : ¬(fabSet 1 { fabGet s 1 with unit := u, latched := false } s).slv.holder = 2 := by simp [h]
  unfold fabRequest
  simp only [hn, and_false, if_false]
  rw [fabGrant_hydFirst (by simpa using h) (by simpa [fabSet] using hu)]
  exact ⟨(fabStart_granted ..).hydUnit, fabStart_holder ..⟩

/-! ### The optimiser's next step (R209, R210) -/

theorem freeDuration_worked (last mx : Nat) (s : State) : Worked s (freeDuration last mx s) := by
  have h : Worked s (setReg last (Config.freeWord s.free) (fresh s).2) := (fresh_worked s).trans (setReg_worked ..)
  exact .ite (h.trans (setReg_worked ..)) h

/-- What the books of a solve leave of the optimiser. -/
theorem optEnd_opt (outcome : Nat) (s : State) :
    (optEnd outcome s).opt = { s.opt with phase := .idle, pred := [], dataList := [] } := by
  have h := (freeDuration_worked Reg.OPT_TIME Reg.OPT_TIMEMAX s).opt
  simp only [optEnd]
  rw [← h]
  rfl

theorem optEnd_wf (outcome : Nat) {s : State} (h : RegsWf s) : RegsWf (optEnd outcome s) := by
  have h1 := (freeDuration_worked Reg.OPT_TIME Reg.OPT_TIMEMAX s).wf h
  exact setReg_wf _ _ _ (setReg_wf _ _ _ (setReg_wf _ _ _ (setReg_wf _ _ _ (setReg_wf _ _ _ h1))))

theorem optNoSolution_opt (s : State) :
    (optNoSolution s).opt = { s.opt with phase := .idle, pred := [], dataList := [], fallbackDue := true } := by
  have h : (incFld Reg.OPT_FAIL 31 16 (cause Reg.OPT_CAUSE 1 (optEnd 3 s))).opt = (optEnd 3 s).opt :=
    ((cause_worked ..).trans (incFld_worked ..)).opt
  simp only [optNoSolution, h, optEnd_opt]

theorem optSolution_iter (acceptable : Bool) (s : State) :
    (optSolution acceptable s).opt.iter = s.opt.iter ∧ (optSolution acceptable s).opt.merits = s.opt.merits := by
  unfold optSolution
  dsimp only
  split <;> simp [(cause_worked ..).opt, optEnd_opt]

theorem optFactor_opt (s : State) : (optFactor s).opt = { s.opt with phase := .factor } := by simp [optFactor]

theorem optFactor_regs (s : State) : (optFactor s).regs = s.regs := by simp [optFactor]

theorem optFactor_unit (s : State) : (optFactor s).slv.opt.unit = .factor := by simp [optFactor]

/-- Judging the merit enters one merit and keeps the count of iterations. -/
theorem optJudge_iter (s : State) :
    (optJudge s).opt.iter = s.opt.iter ∧ (optJudge s).opt.merits.length = s.opt.merits.length + 1 := by
  unfold optJudge
  extract_lets m o s1 stalled s2
  have h1 : s1.opt.iter = s.opt.iter ∧ s1.opt.merits.length = s.opt.merits.length + 1 := ⟨rfl, rfl⟩
  have h2 : s2.opt = s1.opt := (Worked.ite (cause_worked ..) (.refl s1)).opt
  clear_value s1 s2
  split
  · rw [(optSolution_iter ..).1, (optSolution_iter ..).2]; exact h1
  · split
    · split
      · rw [(optSolution_iter ..).1, (optSolution_iter ..).2, h2]; exact h1
      · rw [optNoSolution_opt, h2]; exact h1
    · rw [optFactor_opt]; exact h1

theorem optRetry_again {s : State} (hr : s.opt.retries < 3) (hw : RegsWf s) :
    (optRetry s).opt.phase = .factor ∧ (optRetry s).opt.retries = s.opt.retries + 1 ∧
      (optRetry s).opt.boost = s.opt.boost + 1 ∧ (optRetry s).slv.opt.unit = .factor ∧
      getBit (optRetry s) Reg.OPT_CAUSE 2 = true := by
  have hc : getBit (incFld Reg.OPT_FAIL 15 0 (cause Reg.OPT_CAUSE 2 s)) Reg.OPT_CAUSE 2 = true :=
    (getBit_congr ((incFld_regs Reg.OPT_FAIL 15 0 _ ((cause_worked ..).wf hw)).2 Reg.OPT_CAUSE (by decide)) 2).trans
      (causeD_sets _ _ _ _ _ _ (by decide) (by decide) hw)
  unfold optRetry
  simp only [show ¬3 ≤ s.opt.retries by omega, if_false, optFactor_opt, optFactor_unit, true_and]
  simpa only [getBit, getReg, optFactor_regs] using hc

theorem optRetry_last {s : State} (hr : 3 ≤ s.opt.retries) : optRetry s = optNoSolution s := by simp [optRetry, hr]

end Sys2Proof.Machine

end


section

/-! ## HYD's next step and the publication of NS (R155 to R159) -/

open Sys2Proof Sys2Proof.Machine
namespace Sys2Proof.Machine

/-! ### HYD -/

theorem setReg_regsOf {as : List Nat} {a : Nat} (h : a ∈ as) (v : Word) (s : State) : RegsExcept as s (setReg a v s) :=
  RegsExcept.mono (as := [a]) (setReg_regs a v s) (by simpa using h)

theorem freeDuration_regs {as : List Nat} {last mx : Nat} (hl : last ∈ as) (hm : mx ∈ as) (s : State) :
    RegsExcept as s (freeDuration last mx s) := by
  have h : RegsExcept as s (setReg last (Config.freeWord s.free) (fresh s).2) :=
    RegsExcept.trans (t := (fresh s).2) (.of_regs rfl) (setReg_regsOf hl _ _)
  unfold freeDuration
  dsimp only
  split
  · exact h.trans (setReg_regsOf hm _ _)
  · exact h

theorem hydEnd_hyd (s : State) : (hydEnd s).hyd = { s.hyd with busy := false, done := true } := by
  have h := (freeDuration_worked Reg.HYD_TIME Reg.HYD_TIMEMAX s).hyd
  simp only [hydEnd]
  rw [← h]
  rfl

theorem hydEnd_dev (s : State) : (hydEnd s).dev = s.dev := by
  have h := (freeDuration_worked Reg.HYD_TIME Reg.HYD_TIMEMAX s).dev
  simp only [hydEnd]
  rw [← h]
  rfl

theorem hydEnd_ftr (s : State) : (hydEnd s).ftr.busy = true := by unfold hydEnd; exact Eq.refl _

/-- The registers of a hydraulic solve's end. -/
abbrev hydEndRegs : List Nat := [Reg.HYD_TIME, Reg.HYD_TIMEMAX, Reg.PWR_E_HYD, Reg.HYD_STAT]

theorem hydEnd_regs (s : State) : RegsExcept hydEndRegs s (hydEnd s) := by
  have hstat (hi lo v : Nat) (t : State) : RegsExcept hydEndRegs t (setFld Reg.HYD_STAT hi lo v t) :=
    setReg_regsOf (by simp) _ _
  unfold hydEnd
  extract_lets y s1 s2 s3
  have h1 : RegsExcept hydEndRegs s s1 :=
    RegsExcept.trans (freeDuration_regs (by simp) (by simp) s) (setReg_regsOf (by simp) _ _)
  have h2 : RegsExcept hydEndRegs s1 s2 :=
    (hstat _ _ _ _).trans ((hstat _ _ _ _).trans ((hstat _ _ _ _).trans (hstat _ _ _ _)))
  have h3 : RegsExcept hydEndRegs s2 s3 := (hstat _ _ _ _).trans (hstat _ _ _ _)
  exact h1.trans (h2.trans (h3.trans (.of_regs rfl)))

/-- `t` differs from `s` in the image only. -/
def ImageOnly (s t : State) : Prop := t = { s with img := t.img }

theorem ImageOnly.trans {s t u : State} (h : ImageOnly s t) (k : ImageOnly t u) : ImageOnly s u := by
  unfold ImageOnly at h k ⊢
  rw [h] at k
  exact k

theorem imgPut_imageOnly (r i : Nat) (w : DWord) (s : State) : ImageOnly s (imgPut r i w s) := by
  unfold imgPut
  split <;> rfl

theorem forL_imageOnly {α : Type} (xs : List α) (s : State) (f : α → State → State) (h : ∀ x t, ImageOnly t (f x t)) :
    ImageOnly s (forL xs s f) := by
  unfold forL
  induction xs generalizing s with
  | nil => rfl
  | cons x xs ih => exact (h x s).trans (ih _)

theorem nsStale_imageOnly (is : List Nat) (s : State) : ImageOnly s (nsStale is s) :=
  forL_imageOnly _ _ _ fun _ _ => imgPut_imageOnly ..

theorem hydWrite_imageOnly (converged : Bool) (s : State) : ImageOnly s (hydWrite converged s) := by
  unfold hydWrite
  extract_lets t comps quals cq s1 s2
  have h1 : ImageOnly s s1 := forL_imageOnly _ _ _ fun _ _ => imgPut_imageOnly ..
  have h2 : ImageOnly s s2 := h1.trans (forL_imageOnly _ _ _ fun _ _ => imgPut_imageOnly ..)
  refine h2.trans (forL_imageOnly _ _ _ fun c u => ?_)
  dsimp only
  split
  · rfl
  · exact imgPut_imageOnly ..

/-- The residual monitor keeps the count of iterations. -/
theorem suspectOne_iter (old : List (Nat × Nat)) (key src kind : Nat) (r limit : Rat) (s : State) :
    (suspectOne old key src kind r limit s).hyd.iter = s.hyd.iter := by
  unfold suspectOne
  dsimp only
  split
  · split
    · rw [(causeD_recorded ..)]
    · rfl
  · rfl

theorem hydMonitor_iter (s : State) : (hydMonitor s).hyd.iter = s.hyd.iter := by
  unfold hydMonitor
  extract_lets t good ps qs lp lq s1 old y s2
  have h2 : s2.hyd.iter = s.hyd.iter := forL_keeps (fun u : State => u.hyd.iter) _ _ _ fun _ _ => suspectOne_iter ..
  exact (forL_keeps (fun u : State => u.hyd.iter) _ _ _ fun _ _ => suspectOne_iter ..).trans h2

theorem hydFinish_iter (converged : Bool) (s : State) : (hydFinish converged s).hyd.iter = s.hyd.iter := by
  unfold hydFinish
  extract_lets s1 y s2 s3
  have h3 : s3.hyd.iter = s.hyd.iter := by
    refine (hydMonitor_iter s2).trans ?_
    change s1.hyd.iter = s.hyd.iter
    rw [show s1 = { s with img := s1.img } from hydWrite_imageOnly converged s]
  have h4 : (cause Reg.HYD_CAUSE 0 (incFld Reg.HYD_CNT 15 0 s3)).hyd = s3.hyd :=
    ((incFld_worked ..).trans (cause_worked ..)).hyd
  rw [hydEnd_hyd]
  split
  · exact h3
  · exact (congrArg HydState.iter h4).trans h3

theorem hydIterate_iter (s : State) : (hydIterate s).hyd.iter = s.hyd.iter := by simp [hydIterate]

/-- A solve that the fabric has done counts an iteration, whether the estimate ends with it or not. -/
theorem hydSolved_iter {res : Nat} (h : res = 1 ∨ res = 2) (s : State) :
    (hydSolved res s).hyd.iter = s.hyd.iter + 1 := by
  unfold hydSolved
  rw [if_neg (by omega)]
  dsimp only
  split
  · exact hydFinish_iter ..
  · split
    · exact hydFinish_iter ..
    · exact hydIterate_iter ..

theorem hydFail_dev (s : State) : (hydFail s).dev = s.dev := by
  unfold hydFail
  rw [hydEnd_dev, ((incFld_worked ..).trans (cause_worked ..)).dev, nsStale_imageOnly]

/-- What a failed solve leaves of the estimate. -/
theorem hydFail_laws {s : State} (hw : RegsWf s) :
    (hydFail s).hyd.busy = false ∧ (hydFail s).hyd.failed = true ∧ (hydFail s).hyd.failRun = s.hyd.failRun + 1 ∧
      (hydFail s).ftr.busy = true ∧ getBit (hydFail s) Reg.HYD_CAUSE 1 = true := by
  unfold hydFail
  extract_lets n y s1
  have h1 : ImageOnly _ s1 := nsStale_imageOnly ..
  have hc := (incFld_worked Reg.HYD_CNT 31 16 s1).trans (cause_worked Reg.HYD_CAUSE 1 _)
  have hwf : RegsWf s1 := by rw [h1]; exact hw
  have hy : s1.hyd.failed = true ∧ s1.hyd.failRun = s.hyd.failRun + 1 := by rw [h1]; exact ⟨rfl, rfl⟩
  clear_value s1
  refine ⟨by rw [hydEnd_hyd], ?_, ?_, hydEnd_ftr _, ?_⟩
  · rw [hydEnd_hyd, hc.hyd]; exact hy.1
  · rw [hydEnd_hyd, hc.hyd]; exact hy.2
  · refine (getBit_congr ((hydEnd_regs _ (hc.wf hwf)).2 Reg.HYD_CAUSE (by decide)) 1).trans ?_
    exact causeD_sets _ _ _ _ _ _ (by decide) (by decide) ((incFld_worked ..).wf hwf)

/-! ### The publication of NS -/

theorem nsStatus_rest (fresh_ : Bool) (s : State) :
    nsStatus fresh_ s = { s with regs := (nsStatus fresh_ s).regs, img := (nsStatus fresh_ s).img } := by
  unfold nsStatus
  extract_lets q y old low high
  have h := imgPut_imageOnly 4 0xC010 (BitVec.ofNat 64 (low + qCode q * 2 ^ 32 + high * 2 ^ 32)) s
  unfold ImageOnly at h
  rw [h]
  rfl

/-- What publishing NS leaves: the estimate and the move have ended, HYD has released the fabric, the NS generation is the
working one. -/
theorem nsPublish_laws (fresh_ : Bool) (s : State) :
    (nsPublish fresh_ s).dev = { s.dev with nsPublished := true } ∧
      (nsPublish fresh_ s).ftr = { s.ftr with busy := false } ∧
      (nsPublish fresh_ s).hyd = { s.hyd with busy := false, done := false } ∧
      (nsPublish fresh_ s).slv.hydHolds = false ∧ (nsPublish fresh_ s).opt = s.opt ∧
      (nsPublish fresh_ s).img.ns = (nsPublish fresh_ s).img.nsWork := by
  unfold nsPublish fabHydRelease
  simp only [fabGrant_dev, fabGrant_ftr, fabGrant_hyd, fabGrant_holds, fabGrant_opt, fabGrant_img, imgPublish]
  rw [nsStatus_rest]
  simp

theorem optIfDue_published {s : State} (h : s.dev.nsPublished = true) :
    optIfDue s = if s.opt.due = true then optStart s else s := by simp [optIfDue, h]

theorem optIfDue_waits {s : State} (h : s.dev.nsPublished = false) : optIfDue s = s := by simp [optIfDue, h]

end Sys2Proof.Machine

end


section

/-! ## The fabric's events (R17, R159, R209, R210, R226, R227, R249) -/

open Sys2Proof Sys2Proof.Machine
namespace Sys2Proof.Machine

/-! ### A pause point and the self-test -/

/-- The state in which OPT has paused and the fabric is free. -/
def fabPaused (s : State) : State := { s with slv := { s.slv with holder := 0, paused := true, pauseDue := false } }

theorem optPause_next {s : State} (hf : fabOn s = true) (hp : s.slv.pauseDue = true) (hh : s.slv.holder = 2) :
    exec .optPause s = .next (fabGrant (fabPaused s)) := by
  change execOptPause s = _
  simp [execOptPause, fabPaused, hf, hp, hh]

/-- HYD's start keeps the pause of OPT and what OPT has latched. -/
theorem fabStart_hyd (s : State) : (fabStart 1 s).slv.paused = s.slv.paused ∧ (fabStart 1 s).slv.opt = s.slv.opt ∧
    (fabStart 1 s).slv.pauseDue = s.slv.pauseDue := by
  unfold fabStart fabSet
  simp only [if_true, Nat.reduceEqDiff, if_false]
  repeat' split
  all_goals exact ⟨rfl, rfl, rfl⟩

theorem optPause_hydRuns {s : State} (hf : fabOn s = true) (hp : s.slv.pauseDue = true) (hh : s.slv.holder = 2)
    (hu : s.slv.hyd.unit ≠ .none) : ∃ t, exec .optPause s = .next t ∧ t.slv.holder = 1 ∧ t.slv.paused = true ∧
      t.slv.pauseDue = false ∧ t.slv.opt = s.slv.opt := by
  obtain ⟨hpaused, hopt, hdue⟩ := fabStart_hyd (fabPaused s)
  refine ⟨_, optPause_next hf hp hh, ?_⟩
  rw [fabGrant_hydFirst (s := fabPaused s) rfl hu]
  exact ⟨fabStart_holder .., hpaused, hdue, hopt⟩

/-- The state in which a self-test has ended with `n`, 2 passed or 3 failed. -/
def selftestEnded (n : Nat) (s : State) : State :=
  { selftestArea s with slv := { (selftestArea s).slv with selftest := n } }

theorem selftestEnded_slv (n : Nat) (s : State) :
    (selftestEnded n s).slv = { s.slv with selftest := n, fs := (selftestEnded n s).slv.fs } := rfl

theorem selftestEnded_regs (n : Nat) (s : State) : (selftestEnded n s).regs = s.regs := rfl

theorem selftestEnded_dev (n : Nat) (s : State) : (selftestEnded n s).dev = s.dev := rfl

theorem slvSelftestDone_next {s : State} (hd : domOn s 5 = true) (ht : s.slv.selftest = 1) :
    exec (.slvSelftestDone true) s = .next (selftestEnded 2 s) ∧
      exec (.slvSelftestDone false) s = .next (cause Reg.SLV_CAUSE 6 (selftestEnded 3 s)) := by
  have hr : domOn s 5 = true ∧ s.slv.selftest = 1 := ⟨hd, ht⟩
  constructor
  · change execSlvSelftestDone true s = _
    unfold execSlvSelftestDone
    rw [if_pos hr]
    rfl
  · change execSlvSelftestDone false s = _
    unfold execSlvSelftestDone
    rw [if_pos hr]
    rfl

theorem slvSelftestDone_idle {s : State} (h : domOn s 5 = false ∨ s.slv.selftest ≠ 1) (pass : Bool) :
    exec (.slvSelftestDone pass) s = .next s := by
  change execSlvSelftestDone pass s = _
  unfold execSlvSelftestDone
  rw [if_neg]
  rintro ⟨hd, ht⟩
  rcases h with h | h
  · simp [h] at hd
  · exact h ht

theorem slvSelftestDone_laws {s : State} (hw : RegsWf s) (hd : domOn s 5 = true) (ht : s.slv.selftest = 1) :
    (∃ t, exec (.slvSelftestDone true) s = .next t ∧ t.slv = { s.slv with selftest := 2, fs := t.slv.fs } ∧
      t.regs = s.regs ∧ t.dev = s.dev) ∧
    ∃ t, exec (.slvSelftestDone false) s = .next t ∧ t.slv = { s.slv with selftest := 3, fs := t.slv.fs } ∧
      getBit t Reg.SLV_CAUSE 6 = true := by
  obtain ⟨hpass, hfail⟩ := slvSelftestDone_next hd ht
  have hslv : (cause Reg.SLV_CAUSE 6 (selftestEnded 3 s)).slv = (selftestEnded 3 s).slv := by rw [cause_recorded]
  refine ⟨⟨_, hpass, selftestEnded_slv .., selftestEnded_regs .., selftestEnded_dev ..⟩, ⟨_, hfail, ?_, ?_⟩⟩
  · rw [hslv]
    exact selftestEnded_slv ..
  · exact causeD_sets _ _ _ _ _ _ (by decide) (by decide) (by rw [selftestEnded_regs]; exact hw)

/-! ### What follows a unit of work -/

theorem optFactored_good {res : Nat} (h : res = 1 ∨ res = 2) (s : State) :
    (optFactored res s).opt.phase = .predictor ∧ (optFactored res s).slv.opt.unit = .solve ∧
      (optFactored res s).opt.dataList = [] := by
  simp [optFactored, h, (fabRhs_worked ..).opt]

theorem optSolved_predictor {res : Nat} (h : res = 1 ∨ res = 2) {s : State} (hp : s.opt.phase = .predictor) :
    (optSolved res s).opt.phase = .corrector ∧ (optSolved res s).slv.opt.unit = .solve := by
  unfold optSolved
  rw [if_neg (by omega)]
  simp [hp, (fabRhs_worked ..).opt]

theorem optSolved_corrector {res : Nat} (h : res = 1 ∨ res = 2) {s : State} (hp : s.opt.phase ≠ .predictor) :
    (optSolved res s).opt.iter = s.opt.iter + 1 ∧ (optSolved res s).opt.merits.length = s.opt.merits.length + 1 := by
  unfold optSolved
  rw [if_neg (by omega)]
  simp only [hp, if_false]
  exact optJudge_iter _

/-- A failed unit is retried, whether its list was taken in or not. -/
theorem optFactored_failed {res : Nat} (h : ¬(res = 1 ∨ res = 2)) (s : State) :
    ∃ l, optFactored res s = optRetry { s with opt := { s.opt with dataList := l } } := by
  unfold optFactored
  rw [if_neg h]
  dsimp only
  split
  · exact ⟨_, rfl⟩
  · exact ⟨s.opt.dataList, rfl⟩

theorem optSolved_failed {res : Nat} (h : ¬(res = 1 ∨ res = 2)) (s : State) : optSolved res s = optRetry s := by
  unfold optSolved
  rw [if_pos (by omega)]

/-- A field that lies above the replaced one, or below, is as before. -/
theorem field_setField_apart (w : Word) {hi lo hi' lo' : Nat} (v : Nat) (h : hi < 32) (hl : lo ≤ hi) (h' : hi' < 32)
    (ha : hi' < lo ∨ hi < lo') : field (setField w hi lo v) hi' lo' = field w hi' lo' := by
  apply Nat.eq_of_testBit_eq
  intro i
  simp only [field, bits, Nat.testBit_mod_two_pow, Nat.testBit_div_two_pow]
  by_cases hw : i < hi' + 1 - lo'
  · have hb := setField_bit w hi lo v (i + lo') h hl (by omega)
    rw [if_neg (by omega)] at hb
    change (setField w hi lo v).toNat.testBit (i + lo') = w.toNat.testBit (i + lo') at hb
    simpa [hw] using hb
  · simp [hw]

theorem setFld_wf (a hi lo v : Nat) {s : State} (h : RegsWf s) : RegsWf (setFld a hi lo v s) := setReg_wf _ _ _ h

theorem getFld_setFld (a hi lo v : Nat) {s : State} (hw : RegsWf s) (h : hi < 32) (hl : lo ≤ hi) :
    getFld (setFld a hi lo v s) a hi lo = v % 2 ^ (hi + 1 - lo) := by
  unfold getFld setFld
  rw [getReg_setReg _ _ _ _ hw, if_pos rfl, field_setField _ _ _ _ h hl]

theorem getFld_setFld_apart (a : Nat) {hi lo hi' lo' : Nat} (v : Nat) {s : State} (hw : RegsWf s) (h : hi < 32)
    (hl : lo ≤ hi) (h' : hi' < 32) (ha : hi' < lo ∨ hi < lo') :
    getFld (setFld a hi lo v s) a hi' lo' = getFld s a hi' lo' := by
  unfold getFld setFld
  rw [getReg_setReg _ _ _ _ hw, if_pos rfl, field_setField_apart _ _ h hl h' ha]

theorem optEnd_stat (outcome : Nat) {s : State} (hw : RegsWf s) :
    getFld (optEnd outcome s) Reg.OPT_STAT 2 0 = outcome % 8 := by
  unfold optEnd
  extract_lets o s1 s2 s3
  have h1 : RegsWf s1 := setReg_wf _ _ _ ((freeDuration_worked ..).wf hw)
  have h2 : RegsWf s2 := setReg_wf _ _ _ h1
  have h3 := setFld_wf Reg.OPT_STAT 2 0 outcome h2
  have h4 := setFld_wf Reg.OPT_STAT 17 16 o.mostRetries h3
  have hs3 : getFld s3 Reg.OPT_STAT 2 0 = outcome % 8 := by
    simp only [s3]
    rw [getFld_setFld_apart _ _ h4 (by decide) (by decide) (by decide) (by decide),
      getFld_setFld_apart _ _ h3 (by decide) (by decide) (by decide) (by decide),
      getFld_setFld _ _ _ _ h2 (by decide) (by decide)]
    rfl
  clear_value s3
  exact hs3

theorem optNoSolution_stat {s : State} (hw : RegsWf s) : getFld (optNoSolution s) Reg.OPT_STAT 2 0 = 3 := by
  have he := optEnd_wf 3 hw
  have hc := (causeD_regs Reg.OPT_CAUSE 1 0 0 0 _ he)
  have hf := (incFld_regs Reg.OPT_FAIL 31 16 (cause Reg.OPT_CAUSE 1 (optEnd 3 s)) hc.1)
  unfold optNoSolution getFld
  exact (congrArg (field · 2 0) ((hf.2 Reg.OPT_STAT (by decide)).trans (hc.2 Reg.OPT_STAT (by decide)))).trans (optEnd_stat 3 hw)

/-! ### The events -/

/-- What the unit of work and its end touch, before the client goes on. -/
theorem fabEnd_after (c : Nat) {s u : State} (h : Worked s u) : Worked s (fabEnd c u) := h.trans (fabEnd_worked c u)

theorem factorisationDone_opt {s : State} (hf : fabOn s = true) (hh : s.slv.holder = 2) (hu : s.slv.opt.unit = .factor) :
    exec .fabricFactorisationDone s =
      .next (fabGrant (optFactored (slvFactor 2 s).1 (fabEnd 2 (slvFactor 2 s).2))) := by
  change execFabricFactorisationDone s = _
  simp [execFabricFactorisationDone, hf, hh, fabGet, hu]

theorem solveDone_opt {s : State} (hf : fabOn s = true) (hh : s.slv.holder = 2) (hu : s.slv.opt.unit = .solve) :
    exec .fabricSolveDone s = .next (fabGrant (optSolved (slvSolve 2 s).1 (fabEnd 2 (slvSolve 2 s).2))) := by
  change execFabricSolveDone s = _
  simp [execFabricSolveDone, hf, hh, fabGet, hu]

theorem factorisationDone_hyd {s : State} (hf : fabOn s = true) (hh : s.slv.holder = 1) (hu : s.slv.hyd.unit = .factor) :
    exec .fabricFactorisationDone s =
      .next (fabGrant (optIfDue (hydFactored (slvFactor 1 s).1 (fabEnd 1 (slvFactor 1 s).2)))) := by
  change execFabricFactorisationDone s = _
  simp [execFabricFactorisationDone, hf, hh, fabGet, hu]

theorem solveDone_hyd {s : State} (hf : fabOn s = true) (hh : s.slv.holder = 1) (hu : s.slv.hyd.unit = .solve) :
    exec .fabricSolveDone s = .next (fabGrant (hydSolved (slvSolve 1 s).1 (fabEnd 1 (slvSolve 1 s).2))) := by
  change execFabricSolveDone s = _
  simp [execFabricSolveDone, hf, hh, fabGet, hu]

/-- A failed unit of OPT: a retry, or after three retries the end without a solution. -/
theorem optRetry_laws {s u : State} (hw : RegsWf u) (hr : u.opt.retries = s.opt.retries) (hb : u.opt.boost = s.opt.boost) :
    let t := fabGrant (optRetry u)
    (s.opt.retries < 3 → t.opt.phase = .factor ∧ t.opt.retries = s.opt.retries + 1 ∧ t.opt.boost = s.opt.boost + 1 ∧
      t.slv.opt.unit = .factor ∧ getBit t Reg.OPT_CAUSE 2 = true) ∧
    (3 ≤ s.opt.retries → t.opt.phase = .idle ∧ t.opt.fallbackDue = true ∧ getFld t Reg.OPT_STAT 2 0 = 3) := by
  simp only [fabGrant_opt, fabGrant_optUnit, getBit_fabGrant, getFld_fabGrant, ← hr, ← hb]
  refine ⟨fun h => optRetry_again h hw, fun h => ?_⟩
  rw [optRetry_last h, optNoSolution_opt]
  exact ⟨rfl, rfl, optNoSolution_stat hw⟩

theorem optFactored_retry {res : Nat} (h : ¬(res = 1 ∨ res = 2)) {s u : State} (hw : RegsWf u) (ho : u.opt = s.opt) :
    let t := fabGrant (optFactored res u)
    (s.opt.retries < 3 → t.opt.phase = .factor ∧ t.opt.retries = s.opt.retries + 1 ∧ t.opt.boost = s.opt.boost + 1 ∧
      t.slv.opt.unit = .factor ∧ getBit t Reg.OPT_CAUSE 2 = true) ∧
    (3 ≤ s.opt.retries → t.opt.phase = .idle ∧ t.opt.fallbackDue = true ∧ getFld t Reg.OPT_STAT 2 0 = 3) := by
  obtain ⟨l, hl⟩ := optFactored_failed h u
  have hr : u.opt.retries = s.opt.retries := by rw [ho]
  have hb : u.opt.boost = s.opt.boost := by rw [ho]
  rw [hl]
  exact optRetry_laws hw hr hb

/-- HYD's factorisation is followed by its solve, which starts at once. -/
theorem hydFactored_good {res : Nat} (h : res = 1 ∨ res = 2) {s : State} (hh : s.slv.holder = 0) :
    (hydFactored res s).slv.hyd.unit = .solve ∧ (hydFactored res s).slv.holder = 1 ∧ (hydFactored res s).dev = s.dev := by
  unfold hydFactored
  rw [if_pos h]
  obtain ⟨hu, hr⟩ := fabRequest_hydStarts (u := .solve) (s := fabRhs 1 (hydRhs s) s) hh (by decide)
  exact ⟨hu, hr, by rw [fabRequest_dev, (fabRhs_worked ..).dev]⟩

theorem hydFail_event {s u : State} (hw : RegsWf u) (hy : u.hyd = s.hyd) :
    let t := fabGrant (hydFail u)
    t.hyd.busy = false ∧ t.hyd.failed = true ∧ t.hyd.failRun = s.hyd.failRun + 1 ∧ t.ftr.busy = true ∧
      getBit t Reg.HYD_CAUSE 1 = true := by
  obtain ⟨hb, hf, hr, ht, hc⟩ := hydFail_laws hw
  simp only [fabGrant_hyd, fabGrant_ftr, getBit_fabGrant, ← hy]
  exact ⟨hb, hf, hr, ht, hc⟩

theorem ftrMoveDone_next {s : State} (hd : domOn s 3 = true) (hb : s.ftr.busy = true) :
    exec .ftrMoveDone s = .next (optIfDue (nsPublish s.hyd.done (ftrMove s))) := by
  change execFtrMoveDone s = _
  simp [execFtrMoveDone, hd, hb]

theorem ftrMove_moveTick (s : State) : (ftrMove s).ftr.moveTick = s.pwr.tick := by simp only [ftrMove]

end Sys2Proof.Machine

/-- Settles O56: the end of a unit frees the fabric, then its client takes its next step. -/
theorem fabricEvents : Obligations.FabricEvents := by
  refine ⟨?_, ?_, ?_, ?_, ?_⟩
  · intro s hf hp hh
    refine ⟨optPause_hydRuns hf hp hh, fun hu hk => ?_⟩
    rw [optPause_next hf hp hh, fabGrant_kept (s := fabPaused s) hu hk]
    rfl
  · exact fun s hw => ⟨slvSelftestDone_laws hw, fun h pass => slvSelftestDone_idle h pass⟩
  · intro s hw hf hh c hc hu ok
    simp only [List.mem_cons, List.not_mem_nil, or_false] at hc
    rcases hc with rfl | rfl
    · have hk := fabEnd_after 2 (slvFactor_worked 2 s)
      refine ⟨_, factorisationDone_opt hf hh hu, fun h _ => ?_, fun _ h => (nomatch h), fun _ h => (nomatch h), ?_, ?_⟩
      · simpa using optFactored_good h _
      · exact fun h => (optFactored_retry h (hk.wf hw) hk.opt).1
      · exact fun h => (optFactored_retry h (hk.wf hw) hk.opt).2
    · have hk := fabEnd_after 2 (slvSolve_worked 2 s)
      have hr (h : ¬ok) := optSolved_failed h (fabEnd 2 (slvSolve 2 s).2)
      have hl := optRetry_laws (hk.wf hw) (congrArg OptState.retries hk.opt) (congrArg OptState.boost hk.opt)
      refine ⟨_, solveDone_opt hf hh hu, fun _ h => (nomatch h), fun h _ hp => ?_, fun h _ hp => ?_, fun h => ?_, fun h => ?_⟩
      · simpa using optSolved_predictor h ((congrArg OptState.phase hk.opt).trans hp)
      · rw [fabGrant_opt, ← hk.opt]
        exact optSolved_corrector h (by rw [hk.opt]; exact hp)
      · rw [hr h]; exact hl.1
      · rw [hr h]; exact hl.2
  · intro s hw hf hh hp c hc hu ok
    simp only [List.mem_cons, List.not_mem_nil, or_false] at hc
    rcases hc with rfl | rfl
    · have hk := fabEnd_after 1 (slvFactor_worked 1 s)
      have hn : (fabEnd 1 (slvFactor 1 s).2).dev.nsPublished = false := by rw [hk.dev, hp]
      refine ⟨_, factorisationDone_hyd hf hh hu, fun h _ => ?_, fun _ h => (nomatch h), fun h => ?_⟩
      · obtain ⟨hunit, hholder, hdev⟩ := hydFactored_good h (fabEnd_holder 1 (slvFactor 1 s).2)
        rw [optIfDue_waits (by rw [hdev]; exact hn), fabGrant_held (by rw [hholder]; decide)]
        exact ⟨hunit, hholder⟩
      · have hfail : hydFactored (slvFactor 1 s).1 (fabEnd 1 (slvFactor 1 s).2) = hydFail (fabEnd 1 (slvFactor 1 s).2) :=
          if_neg h
        rw [hfail, optIfDue_waits (by rw [hydFail_dev]; exact hn)]
        exact hydFail_event (hk.wf hw) hk.hyd
    · have hk := fabEnd_after 1 (slvSolve_worked 1 s)
      refine ⟨_, solveDone_hyd hf hh hu, fun _ h => (nomatch h), fun h _ => ?_, fun h => ?_⟩
      · rw [fabGrant_hyd, hydSolved_iter h, hk.hyd]
      · have hfail : hydSolved (slvSolve 1 s).1 (fabEnd 1 (slvSolve 1 s).2) = hydFail (fabEnd 1 (slvSolve 1 s).2) :=
          if_pos (not_or.1 h)
        rw [hfail]
        exact hydFail_event (hk.wf hw) hk.hyd
  · intro s hd hb
    obtain ⟨hdev, hftr, hhyd, hholds, -, hns⟩ := nsPublish_laws s.hyd.done (ftrMove s)
    have hp : (nsPublish s.hyd.done (ftrMove s)).dev.nsPublished = true := by rw [hdev]
    refine ⟨_, (ftrMoveDone_next hd hb).trans (congrArg _ (optIfDue_published hp)), hp, by rw [hftr], ?_, by rw [hhyd], hholds, hns⟩
    rw [hftr]
    exact ftrMove_moveTick s

end


section

/-! ## What the work of a tick leaves alone (R14, R406, R415)

The device's part of the state, the energy totals and what a handover turns on (R514): the operations of a tick keep them,
but for its count, its energy, its headway and its pending command. -/

open Sys2Proof Sys2Proof.Machine
namespace Sys2Proof.Machine

/-- The device's part of a state, the energy totals, and the pair's fields that make a handover due. -/
structure Held where
  dev : DevState
  eTot : List Nat
  handAck : Bool
  lockstep : Bool
  peerMode : Nat

/-- That part of a state. -/
def held (s : State) : Held := ⟨s.dev, s.pwr.eTot, s.red.handAck, s.red.lockstep, s.red.peerMode⟩

theorem held_views (s : State) : s.dev = (held s).dev ∧ s.pwr.eTot = (held s).eTot ∧ s.red.handAck = (held s).handAck ∧
    s.red.lockstep = (held s).lockstep ∧ s.red.peerMode = (held s).peerMode := ⟨rfl, rfl, rfl, rfl, rfl⟩

theorem held_mk (a b c d) (dev : DevState) (pwr : PwrState) (e f g h i j k l m n) (red : RedState) (p q r t u v w) :
    held (State.mk a b c d dev pwr e f g h i j k l m n red p q r t u v w) =
      ⟨dev, pwr.eTot, red.handAck, red.lockstep, red.peerMode⟩ := rfl

/-! ### Loops, registers and recording -/

@[simp] theorem forL_held {α : Type} (xs : List α) (s : State) (f : α → State → State)
    (h : ∀ x t, held (f x t) = held t) : held (forL xs s f) = held s := forL_keeps held xs s f h

@[simp] theorem forN_held (n : Nat) (s : State) (f : Nat → State → State) (h : ∀ x t, held (f x t) = held t) :
    held (forN n s f) = held s := forL_held (List.range n) s f h

@[simp] theorem ite_held (c : Prop) [Decidable c] (a b : State) :
    held (if c then a else b) = if c then held a else held b := by split <;> rfl

theorem Recorded.held {s t : State} (h : Recorded s t) : held t = held s := by rw [h]; rfl

theorem Worked.held {s t : State} (h : Worked s t) : held t = held s := by rw [h.rest]; rfl

@[simp] theorem setReg_held (a : Nat) (v : Word) (s : State) : held (setReg a v s) = held s := Eq.refl _
@[simp] theorem setFld_held (a hi lo v : Nat) (s : State) : held (setFld a hi lo v s) = held s := Eq.refl _
@[simp] theorem setBit_held (a i : Nat) (b : Bool) (s : State) : held (setBit a i b s) = held s := Eq.refl _
@[simp] theorem incFld_held (a hi lo : Nat) (s : State) : held (incFld a hi lo s) = held s := Eq.refl _
@[simp] theorem nvWrite_held (off : Nat) (bs : List Byte) (s : State) : held (nvWrite off bs s) = held s := Eq.refl _
@[simp] theorem evRaise_held (code source : Nat) (d0 d1 : Word) (s : State) :
    held (evRaise code source d0 d1 s) = held s := (evRaise_recorded ..).held
@[simp] theorem causeD_held (reg b src : Nat) (d0 d1 : Word) (s : State) :
    held (causeD reg b src d0 d1 s) = held s := (causeD_recorded ..).held
@[simp] theorem causeS_held (reg b src : Nat) (s : State) : held (causeS reg b src s) = held s := causeD_held ..
@[simp] theorem cause_held (reg b : Nat) (s : State) : held (cause reg b s) = held s := causeD_held ..
@[simp] theorem evProgram_held (s : State) : held (evProgram s) = held s := (evProgram_recorded s).held

/-! ### The pair's streams and the channel inputs -/

@[simp] theorem redSend_held (m : SyncMsg) (s : State) : held (redSend m s) = held s :=
  by simp [redSend, held_views, held_mk]

@[simp] theorem redTickEnd_held (s : State) : held (redTickEnd s) = held s := by simp [redTickEnd]

@[simp] theorem imgPut_held (r i : Nat) (w : DWord) (s : State) : held (imgPut r i w s) = held s :=
  by unfold imgPut; split <;> simp [held_views, held_mk]

@[simp] theorem ciPut_held (i : Nat) (w : DWord) (s : State) : held (ciPut i w s) = held s :=
  by simp [ciPut, held_views, held_mk]

@[simp] theorem redStream_held (m : SyncMsg) (s : State) : held (redStream m s) = held s := by simp [redStream]

@[simp] theorem ciPublish_held (s : State) : held (ciPublish s) = held s := by simp [ciPublish, held_views, held_mk]

/-! ### The calendar and the meters -/

@[simp] theorem forMeters_held (f : Nat → Meter → State → State) (s : State) (h : ∀ m r t, held (f m r t) = held t) :
    held (forMeters f s) = held s := by
  unfold forMeters
  refine forN_held _ _ _ fun m t => ?_
  split
  · exact h ..
  · rfl

@[simp] theorem meterSet_held (m : Nat) (x : MeterSt) (s : State) : held (meterSet m x s) = held s := Eq.refl _

@[simp] theorem ivlClose_held (m code flags start newFlags : Nat) (s : State) :
    held (ivlClose m code flags start newFlags s) = held s := by simp [ivlClose]

@[simp] theorem ivlCloseAll_held (flags : Nat) (s : State) : held (ivlCloseAll flags s) = held s := by simp [ivlCloseAll]

@[simp] theorem mtrLog_held (kind meter detail : Nat) (data : List Byte) (s : State) :
    held (mtrLog kind meter detail data s) = held s := by simp [mtrLog]

@[simp] theorem mtrCalStep_held (became : Bool) (old : Nat) (s : State) : held (mtrCalStep became old s) = held s :=
  by simp [mtrCalStep]

@[simp] theorem logBound_held (m tSave tCut : Nat) (peak : Rat) (detail : Nat) (s : State) :
    held (logBound m tSave tCut peak detail s) = held s := by simp [logBound]

@[simp] theorem mtrPending_held (s : State) : held (mtrPending s) = held s := by simp [mtrPending, held_views, held_mk]

@[simp] theorem leapEnd_held (s : State) : held (leapEnd s) = held s := by simp [leapEnd]

@[simp] theorem setCal_held (c : CalState) (s : State) : held (setCal c s) = held s := Eq.refl _

@[simp] theorem leapDo_held (s : State) : held (leapDo s) = held s := by
  unfold leapDo
  dsimp only
  split <;> simp

@[simp] theorem calForward_held (n : Nat) (s : State) : held (calForward n s) = held s := by
  have h : held (if s.mgt.cal.leapDone then leapDo s else s) = held s := by
    split
    · exact leapDo_held s
    · rfl
  unfold calForward
  dsimp only
  generalize (if s.mgt.cal.leapDone then leapDo s else s) = t at h ⊢
  split
  · exact (setCal_held _ _).trans h
  · split
    · exact (setCal_held _ _).trans h
    · split
      · exact (leapEnd_held _).trans ((setCal_held _ _).trans h)
      · exact (setCal_held _ _).trans h

@[simp] theorem calAdvance_held (s : State) : held (calAdvance s) = held s := calForward_held 64 s

@[simp] theorem calSetApply_held (s : State) : held (calSetApply s).1 = held s := by
  unfold calSetApply
  dsimp only
  repeat' split
  all_goals simp

@[simp] theorem calTick_held (s : State) : held (calTick s).1 = held s := by
  unfold calTick
  dsimp only
  repeat' split
  all_goals simp

@[simp] theorem tickCalendar_held (s : State) : held (tickCalendar s) = held s := by simp [tickCalendar]

/-! ### The timers, the energy ledger and the channels -/

@[simp] theorem setPs_held (x : PsState) (s : State) : held (setPs x s) = held s := Eq.refl _

@[simp] theorem psTick_held (s : State) : held (psTick s) = held s := by simp [psTick]

@[simp] theorem tickTimers_held (s : State) : held (tickTimers s) = held s := by simp [tickTimers, held_views, held_mk]

@[simp] theorem ledgerHeadway_held (s : State) : held (ledgerHeadway s) = held s :=
  by simp [ledgerHeadway, held_views, held_mk]

@[simp] theorem tickLedger_held (s : State) : held (tickLedger s) = held s := by simp [tickLedger, held_views, held_mk]

@[simp] theorem ciPrimary_held (c : Nat) (w : DWord) (s : State) : held (ciPrimary c w s) = held s := by simp [ciPrimary]

@[simp] theorem setChan_held (c : Nat) (x : ChanState) (s : State) : held (setChan c x s) = held s := Eq.refl _

@[simp] theorem chnReadback_held (x : Readback) (s : State) : held (chnReadback x s) = held s :=
  by unfold chnReadback; split <;> simp [held_views]

@[simp] theorem chnSecond_held (s : State) : held (chnSecond s) = held s := by simp [chnSecond, held_views, held_mk]

@[simp] theorem ciSecondary_held (c : Nat) (w : DWord) (s : State) : held (ciSecondary c w s) = held s :=
  by simp [ciSecondary]

@[simp] theorem pcTick_held (s : State) : held (pcTick s) = held s := by simp [pcTick]

@[simp] theorem tickChannels_held (readback : List Readback) (s : State) : held (tickChannels readback s) = held s :=
  by simp [tickChannels]

/-! ### The archive -/

@[simp] theorem fresh_held (s : State) : held (fresh s).2 = held s := Eq.refl _

@[simp] theorem ledgerRatio_held (reg hi lo : Nat) (prim pump deliv : Rat) (q : Quality) (s : State) :
    held (ledgerRatio reg hi lo prim pump deliv q s) = held s := by simp [ledgerRatio]

@[simp] theorem ledgerDayAdd_held (t : Rat × Rat × Rat) (q : Quality) (s : State) : held (ledgerDayAdd t q s) = held s :=
  Eq.refl _

@[simp] theorem ledgerDay_held (s : State) : held (ledgerDay s) = held s := by simp [ledgerDay, held_views, held_mk]

@[simp] theorem stnDayUpd_held (n : Nat) (f : StnDay → StnDay) (s : State) : held (stnDayUpd n f s) = held s := Eq.refl _

@[simp] theorem archNewDays_held (s : State) : held (archNewDays s) = held s := by
  refine (forL_held _ _ _ fun n t => ?_).trans rfl
  split <;> simp

@[simp] theorem stnBook_held (n : Nat) (w : Nat → DWord) (s : State) : held (stnBook n w s) = held s := Eq.refl _

@[simp] theorem archPending_held (s : State) : held (archPending s) = held s := by
  refine forL_held _ _ _ fun n t => ?_
  split <;> simp

@[simp] theorem archMidnight_held (day : Nat) (s : State) : held (archMidnight day s) = held s :=
  by simp [archMidnight, held_views, held_mk]

@[simp] theorem archTick_held (s : State) : held (archTick s) = held s := by
  unfold archTick
  dsimp only
  repeat' split
  all_goals simp [held_views, held_mk]

/-! ### The memories -/

@[simp] theorem memUpset_held (u : Upset) (s : State) : held (memUpset u s) = held s := by
  unfold memUpset
  split <;> rfl

@[simp] theorem ceSet_held (e : Nat) (x : EngineSt) (s : State) : held (ceSet e x s) = held s := Eq.refl _

@[simp] theorem releaseEnds_held (e k : Nat) (s : State) : held (releaseEnds e k s) = held s := Eq.refl _

@[simp] theorem coWrite_held (c : Nat) (w : DWord) (s : State) : held (coWrite c w s) = held s := Eq.refl _

@[simp] theorem outWrite_held (ref : Nat) (w : DWord) (s : State) : held (outWrite ref w s) = held s :=
  by unfold outWrite; split <;> simp

@[simp] theorem taskStop_held (r : TaskRec) (s : State) : held (taskStop r s) = held s := by
  unfold taskStop
  refine (forL_held _ _ _ fun ref u => ?_).trans (ceSet_held ..)
  split
  · exact outWrite_held ..
  · rfl

@[simp] theorem parcelError_held (a : Nat) (s : State) : held (parcelError a s) = held s := by
  unfold parcelError
  dsimp only
  repeat' split
  all_goals simp [held_views, held_mk]

@[simp] theorem capSet_held (c : Nat) (x : Capture) (s : State) : held (capSet c x s) = held s := Eq.refl _

@[simp] theorem memHeal_held (a n : Nat) (s : State) : held (memHeal a n s) = held s := Eq.refl _

@[simp] theorem captureError_held (a : Nat) (s : State) : held (captureError a s) = held s :=
  by simp [captureError, held_views, held_mk]

@[simp] theorem setEvr_held (e : EvrState) (s : State) : held (setEvr e s) = held s := Eq.refl _

@[simp] theorem eventError_held (a : Nat) (s : State) : held (eventError a s) = held s := Eq.refl _

/-! ### Through stations, the recorder, proving swaps and the domains -/

@[simp] theorem thruApply_held (n : Nat) (data : List Byte) (s : State) : held (thruApply n data s) = held s :=
  by simp [thruApply]

@[simp] theorem setSlk_held (k : SlkState) (s : State) : held (setSlk k s) = held s := Eq.refl _

@[simp] theorem setThru_held (p : Nat) (x : ThruSt) (s : State) : held (setThru p x s) = held s := Eq.refl _

@[simp] theorem thruLatch_held (p : Nat) (now : Int) (s : State) : held (thruLatch p now s) = held s := by
  unfold thruLatch
  dsimp only
  repeat' split
  all_goals simp

@[simp] theorem thruTick_held (s : State) : held (thruTick s) = held s := by
  unfold thruTick
  refine forL_keeps held _ _ _ (fun p t => ?_)
  dsimp only
  split
  · simp
  · split <;> simp

@[simp] theorem evTick_held (s : State) : held (evTick s) = held s := by
  unfold evTick
  split <;> simp

@[simp] theorem swapTick_held (s : State) : held (swapTick s) = held s := by
  unfold swapTick
  split
  · split <;> rfl
  · rfl

@[simp] theorem setDom_held (d : Nat) (x : Domain) (s : State) : held (setDom d x s) = held s :=
  by simp [setDom, held_views, held_mk]

@[simp] theorem pllStop_held (s : State) : held (pllStop s) = held s := Eq.refl _

@[simp] theorem domRequest_held (d : Nat) (u : DomUser) (b : Bool) (s : State) : held (domRequest d u b s) = held s :=
  by simp [domRequest]

@[simp] theorem domKeep_held (s : State) : held (domKeep s) = held s := by
  unfold domKeep
  split
  · refine forN_held _ _ _ ?_
    intro k t
    split
    · exact domRequest_held _ _ _ t
    · rfl
  · rfl

end Sys2Proof.Machine

end


section

/-! ## A tick: the count, the energy and the headway (R28, R36, R406, R415, R514) -/

open Sys2Proof Sys2Proof.Machine
namespace Sys2Proof.Machine

/-! ### Scrubbing can meet a fatal cause (R26, R484) -/

/-- Scrubbing leaves the device's part but for a command and the move to SAFE: a HOLD that a fatal cause in RUN brings with it
(R27) waits, as the move is due first. -/
structure Scrubbed (s t : State) : Prop where
  dev : t.dev = { s.dev with cmd := t.dev.cmd, cmdStatus := t.dev.cmdStatus, fatalDue := t.dev.fatalDue }
  eTot : t.pwr.eTot = s.pwr.eTot
  cmd : t.dev.cmd = s.dev.cmd ∨ (t.dev.fatalDue = true ∧ s.dev.mode = .run)
  due : s.dev.fatalDue = true → t.dev.fatalDue = true

namespace Scrubbed

theorem of_dev {s t : State} (hd : t.dev = s.dev) (he : t.pwr.eTot = s.pwr.eTot) : Scrubbed s t :=
  ⟨by rw [hd], he, .inl (by rw [hd]), fun k => by rw [hd]; exact k⟩

theorem of_held {s t : State} (h : held t = held s) : Scrubbed s t :=
  of_dev (congrArg Held.dev h) (congrArg Held.eTot h)

theorem refl (s : State) : Scrubbed s s := of_held rfl

theorem mode {s t : State} (h : Scrubbed s t) : t.dev.mode = s.dev.mode := by rw [h.dev]

theorem trans {s t u : State} (h : Scrubbed s t) (k : Scrubbed t u) : Scrubbed s u := by
  refine ⟨?_, k.eTot.trans h.eTot, ?_, fun hd => k.due (h.due hd)⟩
  · have hu := k.dev
    rw [h.dev] at hu
    exact hu
  · rcases k.cmd with hc | ⟨hd, hm⟩
    · rcases h.cmd with hc' | ⟨hd', hm'⟩
      · exact .inl (hc.trans hc')
      · exact .inr ⟨k.due hd', hm'⟩
    · exact .inr ⟨hd, h.mode ▸ hm⟩

theorem forL {α : Type} (xs : List α) (s : State) (f : α → State → State) (h : ∀ x t, Scrubbed t (f x t)) :
    Scrubbed s (Machine.forL xs s f) := by
  unfold Machine.forL
  induction xs generalizing s with
  | nil => exact refl s
  | cons x xs ih => exact (h x s).trans (ih _)

theorem ite {c : Prop} [Decidable c] {s t u : State} (ht : Scrubbed s t) (hu : Scrubbed s u) :
    Scrubbed s (if c then t else u) := by
  split
  · exact ht
  · exact hu

end Scrubbed

theorem fatal_scrubbed (b src : Nat) (s : State) : Scrubbed s (fatal b src s) := by
  have hr : Scrubbed s (fatalRecorded b src s) :=
    .of_held (by rw [(fatalRecorded_recorderOnly b src s).rest]; rfl)
  unfold fatalRecorded at hr
  unfold fatal
  dsimp only
  generalize evFlush false (causeS Reg.DEV_CAUSE b src s) = u at hr ⊢
  refine hr.trans ?_
  split
  case h_1 hm =>
    split
    · exact ⟨rfl, rfl, .inr ⟨rfl, hm⟩, fun _ => rfl⟩
    · exact ⟨rfl, rfl, .inl rfl, fun _ => rfl⟩
  case h_2 =>
    exact .of_dev (congrArg Held.dev (redSend_held _ (loseStep u))) (congrArg Held.eTot (redSend_held _ (loseStep u)))
  case h_3 => exact .refl _

theorem ceTrap_scrubbed (e k code pc : Nat) (s : State) : Scrubbed s (ceTrap e k code pc s) := by
  unfold ceTrap
  split
  · exact .refl s
  · extract_lets a s1 x s2 s3 s4 s5
    have h4 : held s4 = held s := by simp [s4, s3, s2, s1]
    clear_value s4
    have h5 : Scrubbed s s5 := .ite ((Scrubbed.of_held h4).trans (fatal_scrubbed ..)) (.of_held h4)
    exact .ite (h5.trans (fatal_scrubbed ..)) h5

theorem engineError_scrubbed (e : Nat) (s : State) : Scrubbed s (engineError e s) := by
  unfold engineError
  split
  · exact .ite (ceTrap_scrubbed ..) (fatal_scrubbed ..)
  · exact fatal_scrubbed ..

theorem memLost_scrubbed (u : Upset) (s : State) : Scrubbed s (memLost u s) := by
  unfold memLost
  split
  · exact fatal_scrubbed ..
  · exact .of_held (slvMemError_worked ..).held
  · exact .of_held (slvMemError_worked ..).held
  · exact .of_held (parcelError_held ..)
  · exact .of_held (captureError_held ..)
  · exact .of_held (eventError_held ..)
  · exact engineError_scrubbed ..

theorem memMeet_scrubbed (u : Upset) (s : State) : Scrubbed s (memMeet memLost u s) := by
  have hd (p : Upset → Bool) : held (memDrop p s) = held s := Eq.refl _
  unfold memMeet
  refine .ite (.refl s) (.ite (.of_held ?_) (.ite (.ite (.trans (.of_held ?_) (memLost_scrubbed ..)) (.refl s)) (.of_held ?_)))
  · simp [memCorrected, hd]
  · simp [memUncorrected]
  · simp [memRebuilt, hd]

theorem scrub_scrubbed (s : State) : Scrubbed s (scrub s) := by
  refine .forL _ _ _ fun k t => ?_
  unfold scrubMem
  split
  · extract_lets n pos s1
    have h1 : Scrubbed t s1 := .forL _ _ _ fun i u => .forL _ _ _ fun v w => memMeet_scrubbed v w
    exact h1.trans (.of_dev rfl rfl)
  · exact .refl t

/-! ### Before and after the headway counts -/

/-- A tick up to its timers: the energy is booked. -/
def tickStarted (energy : List Nat) (s : State) : State :=
  tickTimers (tickCalendar (ciPublish (tickCount (bookEnergy energy (redTickEnd s)))))

/-- A tick from its ledger to the retention of its events. -/
def tickWorked (upsets : List Upset) (readback : List Readback) (s : State) : State :=
  evTick (thruTick (scrub (forL upsets (archTick (tickChannels readback (tickLedger s))) memUpset)))

theorem exec_tick (energy : List Nat) (upsets : List Upset) (readback : List Readback) (s : State) :
    exec (.tick energy upsets readback) s =
      .next (domKeep (swapTick (tickCommands (tickWorked upsets readback (tickHeadway (tickStarted energy s)))))) := rfl

theorem tickStarted_held (energy : List Nat) (s : State) :
    held (tickStarted energy s) = { held s with
      eTot := (List.range 10).map (fun i => (nth s.pwr.eTot i 0 + nth energy i 0) % 2 ^ 64) } := by
  have hc (t : State) : held (tickCount t) = held t := Eq.refl _
  have hb (t : State) : held (bookEnergy energy t) = { held t with
      eTot := (List.range 10).map (fun i => (nth (held t).eTot i 0 + nth energy i 0) % 2 ^ 64) } := Eq.refl _
  unfold tickStarted
  rw [tickTimers_held, tickCalendar_held, ciPublish_held, hc, hb, redTickEnd_held]
  rfl

theorem tickStarted_views (energy : List Nat) (s : State) :
    (tickStarted energy s).dev = s.dev ∧
      (tickStarted energy s).pwr.eTot = (List.range 10).map (fun i => (nth s.pwr.eTot i 0 + nth energy i 0) % 2 ^ 64) ∧
      (tickStarted energy s).red.handAck = s.red.handAck ∧ (tickStarted energy s).red.lockstep = s.red.lockstep ∧
      (tickStarted energy s).red.peerMode = s.red.peerMode := Held.mk.inj (tickStarted_held energy s)

theorem tickWorked_scrubbed (upsets : List Upset) (readback : List Readback) (s : State) :
    Scrubbed s (tickWorked upsets readback s) := by
  have h1 : held (forL upsets (archTick (tickChannels readback (tickLedger s))) memUpset) = held s := by simp
  have h2 (t : State) : held (evTick (thruTick t)) = held t := by simp
  exact (Scrubbed.of_held h1).trans ((scrub_scrubbed _).trans (.of_held (h2 _)))

/-- What the headway reads and writes: the energy is as it was. -/
theorem tickHeadway_eTot (s : State) : (tickHeadway s).pwr.eTot = s.pwr.eTot := by
  unfold tickHeadway
  repeat' split
  all_goals rfl

/-- The headway count touches the headway's tick and its start only. -/
theorem tickHeadway_dev (s : State) : (tickHeadway s).dev = { s.dev with
    hwDue := (tickHeadway s).dev.hwDue
    tickInHw := (tickHeadway s).dev.tickInHw } := by
  unfold tickHeadway
  repeat' split
  all_goals rfl

/-- In READY, RUN and SAFE the tick counts in the headway that runs, or brings a start due. -/
theorem tickHeadway_counting {s : State} (hm : s.dev.mode = .ready ∨ s.dev.mode = .run ∨ s.dev.mode = .safe) :
    tickHeadway s =
      if s.dev.hwRunning = false ∨ (theTt s).plan.headway ≤ s.dev.tickInHw + 1 then
        { s with dev := { s.dev with hwDue := true } }
      else { s with dev := { s.dev with tickInHw := s.dev.tickInHw + 1 } } := by
  unfold tickHeadway
  by_cases hr : s.dev.hwRunning = true
  · rcases hm with hm | hm | hm <;> simp [hm, hr]
  · rcases hm with hm | hm | hm <;> simp [hm, hr]

theorem tickHeadway_idle {s : State}
    (hm : s.dev.mode = .boot ∨ s.dev.mode = .hold ∨ (s.dev.mode = .standby ∧ s.red.handAck = false)) :
    tickHeadway s = s := by
  unfold tickHeadway
  rcases hm with hm | hm | ⟨hm, ha⟩
  · simp [hm]
  · simp [hm]
  · simp [hm, handoverNow, ha]

theorem tickHeadway_handover {s : State} (hm : s.dev.mode = .standby) (hn : handoverNow s = true)
    (h : (theTt s).plan.headway ≤ s.dev.tickInHw + 1) : (tickHeadway s).dev.hwDue = true := by
  simp [tickHeadway, hm, hn, h]

/-! ### The end of a tick -/

/-- Without a boot that waits, and with no command but one that a fatal cause holds back, a tick's commands change the state of
the device no further. -/
theorem tickCommands_idle {s : State} (hb : s.dev.bootPending = none)
    (hc : s.dev.cmd = none ∨ (s.dev.fatalDue = true ∧ s.dev.mode = .run)) :
    tickCommands s = { s with dev := { s.dev with holdRefused := false } } := by
  unfold tickCommands devTick
  rcases hc with hc | ⟨hf, hm⟩
  · simp [hb, hc]
  · simp [hb, hf, hm]

/-- The state a tick leaves, from its headway count `v` and its work `w`. -/
theorem tick_ends {v w : State} (hw : Scrubbed v w) (hb : v.dev.bootPending = none) (hc : v.dev.cmd = none) :
    let t := domKeep (swapTick (tickCommands w))
    t.dev = { v.dev with
      cmd := t.dev.cmd, cmdStatus := t.dev.cmdStatus, fatalDue := t.dev.fatalDue, holdRefused := false } ∧
    t.pwr.eTot = v.pwr.eTot := by
  have hwb : w.dev.bootPending = none := by rw [hw.dev]; exact hb
  have hwc : w.dev.cmd = none ∨ (w.dev.fatalDue = true ∧ w.dev.mode = .run) := by
    rw [hw.mode]
    exact hw.cmd.imp (fun h => h.trans hc) id
  have hk (t : State) : held (domKeep (swapTick t)) = held t := by simp
  have hd (t : State) : (domKeep (swapTick t)).dev = t.dev := congrArg Held.dev (hk t)
  have he (t : State) : (domKeep (swapTick t)).pwr.eTot = t.pwr.eTot := congrArg Held.eTot (hk t)
  dsimp only
  rw [tickCommands_idle hwb hwc, hd, he]
  refine ⟨?_, hw.eTot⟩
  dsimp only
  rw [hw.dev]

theorem tick_count {c : Instr} {s t : State} (h : exec c s = .next t) : t.pwr.tick = tickAfter c s.pwr.tick := by
  obtain ⟨u, hu, -, ht, -⟩ := exec_step c s
  rw [h] at hu
  cases hu
  exact ht

end Sys2Proof.Machine

/-- Settles O7: what a tick does before and after its headway count leaves the device's part but for a fatal cause. -/
theorem ticksCountAndHeadwaysFallDue : Obligations.TicksCountAndHeadwaysFallDue := by
  refine ⟨fun energy upsets readback s hb hc => ?_, fun c s t h => ?_⟩
  · have hx := exec_tick energy upsets readback s
    have hu := tickStarted_views energy s
    have hw := tickWorked_scrubbed upsets readback (tickHeadway (tickStarted energy s))
    generalize tickStarted energy s = u at hx hu hw
    obtain ⟨hdev, htot, hack, hlock, hpeer⟩ := hu
    have hv := tickHeadway_dev u
    obtain ⟨ht, he⟩ := tick_ends hw (by rw [hv, hdev]; exact hb) (by rw [hv, hdev]; exact hc)
    generalize domKeep (swapTick (tickCommands (tickWorked upsets readback (tickHeadway u)))) = t at hx ht he
    have hdue : t.dev.hwDue = (tickHeadway u).dev.hwDue := by rw [ht]
    have htick : t.dev.tickInHw = (tickHeadway u).dev.tickInHw := by rw [ht]
    have htt : theTt u = theTt s := by rw [theTt, hdev, theTt]
    refine ⟨t, hx, by rw [ht, hv, hdev], by rw [ht, hv, hdev], tick_count hx, by rw [ht], by rw [ht, hv, hdev], fun g hg => ?_,
      fun hm => ⟨fun h => ?_, fun hr h => ?_⟩, fun hm => ?_, fun hm ha hl hp h => ?_⟩
    · rw [he, tickHeadway_eTot, htot]
      simp [nth, hg]
    · rw [hdue, htick, tickHeadway_counting (by rw [hdev]; exact hm), htt, hdev, if_pos h]
      exact ⟨rfl, rfl⟩
    · rw [hdue, htick, tickHeadway_counting (by rw [hdev]; exact hm), htt, hdev, if_neg (by simp [hr, h])]
      exact ⟨rfl, rfl⟩
    · rw [hdue, htick, tickHeadway_idle (by rw [hdev, hack]; exact hm), hdev]
      exact ⟨rfl, rfl⟩
    · rw [hdue]
      exact tickHeadway_handover (by rw [hdev]; exact hm) (by simp [handoverNow, hack, hlock, hpeer, ha, hl, hp])
        (by rw [htt, hdev]; exact h)
  · rw [tick_count h]
    cases c <;> rfl

end


section

/-! ## The end of the estimate at t_est and the freeze at t_out (R14, R15, R159, R161) -/

open Sys2Proof Sys2Proof.Machine
namespace Sys2Proof.Machine

/-! ### The working NS generation -/

/-- The working NS generation is in canonical form. -/
abbrev NsWf (s : State) : Prop := smWf (imgInit 4) s.img.nsWork = true

/-- A working NS word after a write: the word at its own index, the old one elsewhere. -/
theorem nsWord_put (i j : Nat) (w : DWord) {s : State} (h : NsWf s) :
    imgGetWork (imgPut 4 i w s) 4 j = if j = i then w else imgGetWork s 4 j := smGet_put _ _ _ _ _ h

theorem nsWord_put_wf (i : Nat) (w : DWord) {s : State} (h : NsWf s) : NsWf (imgPut 4 i w s) := smPut_wf _ _ _ _ h

theorem nsStale_cons (i : Nat) (is : List Nat) (s : State) :
    nsStale (i :: is) s = nsStale is (imgPut 4 i (mkWord (wordVal (imgGetWork s 4 i)) .stale) s) := by
  simp only [nsStale, forL, List.foldl_cons]

theorem nsStale_wf (is : List Nat) {s : State} (h : NsWf s) : NsWf (nsStale is s) := by
  induction is generalizing s with
  | nil => exact h
  | cons i is ih =>
    rw [nsStale_cons]
    exact ih (nsWord_put_wf _ _ h)

/-- What is marked STALE keeps its value, and nothing else changes. -/
theorem nsStale_word (is : List Nat) (j : Nat) {s : State} (h : NsWf s) : imgGetWork (nsStale is s) 4 j =
    if j ∈ is then mkWord (wordVal (imgGetWork s 4 j)) .stale else imgGetWork s 4 j := by
  induction is generalizing s with
  | nil => rfl
  | cons i is ih =>
    rw [nsStale_cons, ih (nsWord_put_wf _ _ h), nsWord_put _ _ _ h]
    by_cases hj : j = i
    · simp [hj]
    · simp [hj]

/-- The status of the estimate is one word and one field. -/
theorem nsStatus_eq (fresh_ : Bool) (s : State) :
    ∃ q w, nsStatus fresh_ s = setFld Reg.HYD_STAT 9 8 q (imgPut 4 0xC010 w s) := ⟨_, _, rfl⟩

theorem imgPut_regs (r i : Nat) (w : DWord) (s : State) : (imgPut r i w s).regs = s.regs := by rw [imgPut_imageOnly r i w s]

/-- The publication writes the status word and publishes the rest of the working generation as it is. -/
theorem nsPublish_word (fresh_ : Bool) {s : State} (h : NsWf s) {i : Nat} (hi : i ≠ 0xC010) :
    imgGet (nsPublish fresh_ s) 4 i = imgGetWork s 4 i := by
  obtain ⟨q, w, hq⟩ := nsStatus_eq fresh_ s
  have hp : imgGet (nsPublish fresh_ s) 4 i = imgGetWork (imgPut 4 0xC010 w s) 4 i := by
    simp [imgGet, imgGetWork, nsPublish, fabHydRelease, imgPublish, hq]
  rw [hp, nsWord_put _ _ _ h, if_neg hi]

theorem nsPublish_regs (fresh_ : Bool) (s : State) : RegsExcept [Reg.HYD_STAT] s (nsPublish fresh_ s) := by
  obtain ⟨q, w, hq⟩ := nsStatus_eq fresh_ s
  have h1 : RegsExcept [Reg.HYD_STAT] s (nsStatus fresh_ s) := by
    rw [hq]
    exact RegsExcept.trans (.of_regs (imgPut_regs 4 0xC010 w s)) (setFld_regs _ _ _ _ _)
  exact h1.trans (.of_regs (by simp [nsPublish, fabHydRelease, imgPublish]))

/-! ### Abandoning a client's work -/

theorem Granted.worked {s t : State} (h : Granted s t) : Worked s t :=
  ⟨by rw [h.rest], fun hs => by rw [h.rest]; exact hs⟩

/-- A client's work is dropped before the fabric is granted anew. -/
theorem fabAbandon_eq {c : Nat} {s : State} (h : (fabGet s c).unit ≠ .none) :
    ∃ x v, fabAbandon c s = fabGrant { slvResult c 6 (fabSet c x s) with slv := v } := by
  unfold fabAbandon
  rw [if_neg h]
  exact ⟨_, _, rfl⟩

theorem fabAbandon_none {c : Nat} {s : State} (h : (fabGet s c).unit = .none) : fabAbandon c s = s := by
  rw [fabAbandon, if_pos h]

theorem fabAbandon_worked (c : Nat) (s : State) : Worked s (fabAbandon c s) := by
  by_cases h : (fabGet s c).unit = .none
  · rw [fabAbandon_none h]
    exact .refl s
  · obtain ⟨x, v, hv⟩ := fabAbandon_eq h
    rw [hv]
    have hr := (fabSet_worked c x s).trans (slvResult_worked c 6 _)
    have hs : Worked _ { slvResult c 6 (fabSet c x s) with slv := v } := ⟨rfl, id⟩
    exact (hr.trans hs).trans (fabGrant_granted _).worked

theorem slvResult_regs (s : State) : RegsExcept [Reg.SLV_HYD_RES] s (slvResult 1 6 s) := by
  unfold slvResult
  rw [if_neg (by decide)]
  exact RegsExcept.trans (setReg_regs Reg.SLV_HYD_RES _ _) (setReg_regs Reg.SLV_HYD_RES _ _)

theorem fabAbandon_regs (s : State) : RegsExcept [Reg.SLV_HYD_RES] s (fabAbandon 1 s) := by
  by_cases h : (fabGet s 1).unit = .none
  · rw [fabAbandon_none h]
    exact .refl _ s
  · obtain ⟨x, v, hv⟩ := fabAbandon_eq h
    rw [hv]
    exact RegsExcept.trans (.of_regs (fabSet_regs 1 x s)) (RegsExcept.trans (slvResult_regs _) (.of_regs (fabGrant_regs _)))

/-! ### The late estimate -/

/-- The words that a late estimate marks STALE. -/
def lateWords (s : State) : List Nat :=
  if s.hyd.done then ftrWords (theTt s) else hydWords (theTt s) ++ ftrWords (theTt s)

theorem mem_lateWords {s : State} {i : Nat}
    (h : i ∈ ftrWords (theTt s) ∨ (s.hyd.done = false ∧ i ∈ hydWords (theTt s))) : i ∈ lateWords s := by
  unfold lateWords
  rcases h with h | ⟨hd, h⟩
  · split
    · exact h
    · exact List.mem_append_right _ h
  · rw [if_neg (by simp [hd])]
    exact List.mem_append_left _ h

/-- HYD is abandoned and its late words are marked. -/
def lateMarked (s : State) (y : HydState) : State := nsStale (lateWords s) { fabAbandon 1 s with hyd := y }

theorem lateMarked_regs (s : State) (y : HydState) : RegsExcept [Reg.SLV_HYD_RES] s (lateMarked s y) := by
  refine RegsExcept.trans (fabAbandon_regs s) (.of_regs ?_)
  rw [lateMarked, nsStale_imageOnly (lateWords s) { fabAbandon 1 s with hyd := y }]

theorem fabAbandon_img (s : State) : (fabAbandon 1 s).img = s.img := by rw [(fabAbandon_worked 1 s).rest]

theorem lateMarked_wf {s : State} (h : NsWf s) (y : HydState) : NsWf (lateMarked s y) :=
  nsStale_wf _ (s := { fabAbandon 1 s with hyd := y }) (by rw [NsWf, fabAbandon_img]; exact h)

theorem lateMarked_word {s : State} (h : NsWf s) (y : HydState) {i : Nat} (hi : i ∈ lateWords s) :
    imgGetWork (lateMarked s y) 4 i = mkWord (wordVal (imgGetWork s 4 i)) .stale := by
  have hw := nsStale_word (lateWords s) i (s := { fabAbandon 1 s with hyd := y }) (by rw [NsWf, fabAbandon_img]; exact h)
  rw [if_pos hi] at hw
  rw [lateMarked, hw]
  simp only [imgGetWork, fabAbandon_img]

/-- The lateness is recorded. -/
def lateRecorded (s : State) : State := setFld Reg.HYD_STAT 7 7 0 (incFld Reg.DEV_LATE 15 0 (cause Reg.DEV_CAUSE 16 s))

theorem lateRecorded_recorded (s : State) : Recorded s (lateRecorded s) :=
  (cause_recorded ..).trans ((incFld_recorded ..).trans (setFld_recorded ..))

theorem lateRecorded_img (s : State) : (lateRecorded s).img = s.img := by rw [lateRecorded_recorded s]

theorem cause_regs (reg b : Nat) (s : State) : RegsExcept (reg :: evRegs) s (cause reg b s) := causeD_regs reg b 0 0 0 s

theorem getFld_congr {s t : State} {a : Nat} (h : getReg t a = getReg s a) (hi lo : Nat) : getFld t a hi lo = getFld s a hi lo := by
  simp only [getFld, h]

theorem getFld_incFld (a hi lo : Nat) {s : State} (hw : RegsWf s) (h : hi < 32) (hl : lo ≤ hi) :
    getFld (incFld a hi lo s) a hi lo = satInc (hi + 1 - lo) (getFld s a hi lo) := by
  rw [incFld, getFld_setFld a hi lo _ hw h hl]
  refine Nat.mod_eq_of_lt ?_
  have hp := Nat.two_pow_pos (hi + 1 - lo)
  unfold satInc
  split <;> omega

/-- The cause and the count of a late estimate. -/
theorem lateRecorded_regs {s : State} (hw : RegsWf s) : RegsWf (lateRecorded s) ∧
    getBit (lateRecorded s) Reg.DEV_CAUSE 16 = true ∧
    getFld (lateRecorded s) Reg.DEV_LATE 15 0 = satInc 16 (getFld s Reg.DEV_LATE 15 0) := by
  obtain ⟨hcwf, hcreg⟩ := cause_regs Reg.DEV_CAUSE 16 s hw
  obtain ⟨hiwf, hireg⟩ := incFld_regs Reg.DEV_LATE 15 0 (cause Reg.DEV_CAUSE 16 s) hcwf
  obtain ⟨hfwf, hfreg⟩ := setFld_regs Reg.HYD_STAT 7 7 0 _ hiwf
  refine ⟨hfwf, ?_, ?_⟩
  · exact (getBit_congr ((hfreg Reg.DEV_CAUSE (by decide)).trans (hireg Reg.DEV_CAUSE (by decide))) 16).trans
      (causeD_sets _ _ _ _ _ _ (by decide) (by decide) hw)
  · rw [lateRecorded, getFld_congr (hfreg Reg.DEV_LATE (by decide)), getFld_incFld _ _ _ hcwf (by decide) (by decide),
      getFld_congr (hcreg Reg.DEV_LATE (by decide))]

theorem nsLate_eq (s : State) : ∃ y, nsLate s = nsPublish s.hyd.done (lateRecorded (lateMarked s y)) := by
  unfold nsLate lateRecorded lateMarked lateWords
  by_cases h : s.hyd.done = true
  · exact ⟨(fabAbandon 1 s).hyd, by simp only [if_pos h]⟩
  · exact ⟨{ (fabAbandon 1 s).hyd with suspect := [] }, by simp only [if_neg h]⟩

/-- What a late estimate leaves published, recorded and released. -/
theorem nsLate_laws {s : State} (hc : Canonical s) :
    (nsLate s).dev.nsPublished = true ∧ (nsLate s).hyd.busy = false ∧ (nsLate s).ftr.busy = false ∧
      (nsLate s).slv.hydHolds = false ∧ (nsLate s).img.ns = (nsLate s).img.nsWork ∧
      getBit (nsLate s) Reg.DEV_CAUSE 16 = true ∧
      getFld (nsLate s) Reg.DEV_LATE 15 0 = satInc 16 (getFld s Reg.DEV_LATE 15 0) ∧
      ∀ i, i ≠ 0xC010 → i ∈ lateWords s →
        wordVal (imgGet (nsLate s) 4 i) = wordVal (imgGetWork s 4 i) ∧ wordQ (imgGet (nsLate s) 4 i) ≠ .good := by
  obtain ⟨y, hy⟩ := nsLate_eq s
  obtain ⟨hmwf, hmreg⟩ := lateMarked_regs s y hc.regs
  obtain ⟨hwf, hbit, hfld⟩ := lateRecorded_regs hmwf
  obtain ⟨hdev, hftr, hhyd, hholds, -, hns⟩ := nsPublish_laws s.hyd.done (lateRecorded (lateMarked s y))
  obtain ⟨-, hpreg⟩ := nsPublish_regs s.hyd.done _ hwf
  rw [hy]
  refine ⟨by rw [hdev], by rw [hhyd], by rw [hftr], hholds, hns, ?_, ?_, fun i hi hm => ?_⟩
  · exact (getBit_congr (hpreg Reg.DEV_CAUSE (by decide)) 16).trans hbit
  · rw [getFld_congr (hpreg Reg.DEV_LATE (by decide)), hfld, getFld_congr (hmreg Reg.DEV_LATE (by decide))]
  · have hmns : NsWf (lateRecorded (lateMarked s y)) := by rw [NsWf, lateRecorded_img]; exact lateMarked_wf hc.ns y
    have hword : imgGetWork (lateRecorded (lateMarked s y)) 4 i = mkWord (wordVal (imgGetWork s 4 i)) .stale := by
      rw [← lateMarked_word hc.ns y hm]
      simp only [imgGetWork, lateRecorded_img]
    rw [nsPublish_word _ hmns hi, hword, wordVal_mkWord, wordQ_mkWord]
    exact ⟨rfl, by decide⟩

/-! ### The freeze of the outputs: what the pair's comparison leaves alone -/

/-- `t` shows what `s` shows: the device's part and the image are the same. -/
structure SameShown (s t : State) : Prop where
  dev : t.dev = s.dev
  img : t.img = s.img

namespace SameShown

theorem refl (s : State) : SameShown s s := ⟨rfl, rfl⟩

theorem trans {s t u : State} (h : SameShown s t) (k : SameShown t u) : SameShown s u :=
  ⟨k.dev.trans h.dev, k.img.trans h.img⟩

theorem of_worked {s t : State} (h : Worked s t) : SameShown s t := ⟨h.dev, by rw [h.rest]⟩

theorem of_recorded {s t : State} (h : Recorded s t) : SameShown s t := ⟨by rw [h], by rw [h]⟩

end SameShown

theorem redSend_shown (m : SyncMsg) (s : State) : SameShown s (redSend m s) := by
  unfold redSend
  split
  · exact ⟨rfl, rfl⟩
  · exact .refl s

theorem redStream_shown (m : SyncMsg) (s : State) : SameShown s (redStream m s) := by
  unfold redStream
  split
  · exact redSend_shown m s
  · exact .refl s

theorem setRed_shown (r : RedState) (s : State) : SameShown s (setRed r s) := ⟨rfl, rfl⟩

theorem hydStop_shown (s : State) : SameShown s (hydStop s) := by
  have h := (SameShown.of_worked (fabAbandon_worked 1 s)).trans (.of_recorded (setFld_recorded Reg.HYD_STAT 7 7 0 _))
  exact h.trans ⟨by simp [hydStop, fabHydRelease], by simp [hydStop, fabHydRelease]⟩

theorem alignStart_shown (s : State) : SameShown s (alignStart s) := by
  unfold alignStart
  extract_lets s0 o s1
  have h0 : SameShown s s0 := .of_recorded (setFld_recorded ..)
  have ho : SameShown s0 { s0 with opt := { o with phase := .idle, due := false } } := ⟨rfl, rfl⟩
  have h1 : SameShown s s1 := (h0.trans ho).trans ((SameShown.of_worked (fabAbandon_worked 2 _)).trans (hydStop_shown _))
  exact h1.trans ((setRed_shown ..).trans (redSend_shown ..))

theorem redCompare_shown (s : State) : SameShown s (redCompare s) := by
  unfold redCompare
  split
  · extract_lets r s0 s1 r1 s2
    have h0 : SameShown s s0 := setRed_shown ..
    have h1 : SameShown s s1 := h0.trans (.of_recorded ((setReg_recorded ..).trans ((setReg_recorded ..).trans (setReg_recorded ..))))
    have h2 : SameShown s s2 :=
      h1.trans (.of_recorded ((evRaise_recorded ..).trans ((incFld_recorded ..).trans (incFld_recorded ..))))
    split
    · exact h0
    · split
      · exact h1.trans ((setRed_shown ..).trans (.of_recorded (setFld_recorded ..)))
      · split
        · exact h2.trans ((setRed_shown ..).trans ((SameShown.of_recorded (cause_recorded ..)).trans (alignStart_shown _)))
        · exact h2
  · exact .refl s

/-- The outputs as they are published, before the pair compares them. -/
def soPublished (s : State) : State := imgPublish 1 { s with dev := { s.dev with outFrozen := true } }

theorem outputFreeze_single {s : State} (h : paired s = false) : outputFreeze s = soPublished s := by
  have hp : paired (soPublished s) = false := h
  unfold outputFreeze
  exact if_pos (by simpa [soPublished] using hp)

theorem outputFreeze_shown (s : State) : SameShown (soPublished s) (outputFreeze s) := by
  unfold outputFreeze
  extract_lets s1 c
  split
  · exact .refl _
  · split
    · exact redStream_shown ..
    · exact redStream_shown ..
    · exact (setRed_shown ..).trans (redCompare_shown _)
    · exact .refl _

end Sys2Proof.Machine

end


section

/-! ## The input close at t_in (R14, R106, R126, R127) -/

open Sys2Proof Sys2Proof.Machine
namespace Sys2Proof.Machine

/-! ### The SI words of a station -/

/-- The working SI generation is in canonical form. -/
abbrev SiWf (s : State) : Prop := smWf (imgInit 0) s.img.siWork = true

/-- A working SI word after a write: the word at its own index, the old one elsewhere. -/
theorem siWord_put (i j : Nat) (w : DWord) {s : State} (h : SiWf s) :
    imgGetWork (imgPut 0 i w s) 0 j = if j = i then w else imgGetWork s 0 j := smGet_put _ _ _ _ _ h

theorem siWord_put_wf (i : Nat) (w : DWord) {s : State} (h : SiWf s) : SiWf (imgPut 0 i w s) := smPut_wf _ _ _ _ h

/-- Replace `m` SI words from index `b` on by what `g` makes of each. -/
def siPutN (m b : Nat) (g : Nat → DWord → DWord) (s : State) : State :=
  forN m s fun k s => imgPut 0 (b + k) (g k (imgGetWork s 0 (b + k))) s

theorem forN_succ {σ : Type} (n : Nat) (s : σ) (f : Nat → σ → σ) : forN (n + 1) s f = f n (forN n s f) := by
  simp [forN, List.range_succ]

theorem siPutN_succ (m b : Nat) (g : Nat → DWord → DWord) (s : State) : siPutN (m + 1) b g s =
    imgPut 0 (b + m) (g m (imgGetWork (siPutN m b g s) 0 (b + m))) (siPutN m b g s) := forN_succ ..

theorem siPutN_wf (m b : Nat) (g : Nat → DWord → DWord) {s : State} (h : SiWf s) : SiWf (siPutN m b g s) := by
  induction m with
  | zero => exact h
  | succ m ih =>
    rw [siPutN_succ]
    exact siWord_put_wf _ _ ih

theorem siPutN_word (m b j : Nat) (g : Nat → DWord → DWord) {s : State} (h : SiWf s) :
    imgGetWork (siPutN m b g s) 0 j =
      if b ≤ j ∧ j < b + m then g (j - b) (imgGetWork s 0 j) else imgGetWork s 0 j := by
  induction m with
  | zero =>
    rw [if_neg (by omega)]
    rfl
  | succ m ih =>
    rw [siPutN_succ, siWord_put _ _ _ (siPutN_wf m b g h)]
    by_cases hj : j = b + m
    · subst hj
      rw [if_pos rfl, if_pos (by omega), Nat.add_sub_cancel_left, ih, if_neg (by omega)]
    · rw [if_neg hj, ih]
      by_cases hr : b ≤ j ∧ j < b + m
      · rw [if_pos hr, if_pos (by omega)]
      · rw [if_neg hr, if_neg (by omega)]

theorem stnWrite_eq (n train : Nat) (data : List Byte) (s : State) : stnWrite n train data s =
    imgPut 0 (16 * n + 13) (mkWord (w32 data 0x34) .good)
      (siPutN 12 (16 * n + 1) (fun k _ => mkWord (w32 data (4 + 4 * k)) (qualityOf (bits (u32 data 0) (2 * k + 1) (2 * k))))
        (imgPut 0 (16 * n) (BitVec.ofNat 64 (train + bits (u32 data 0) 26 24 * 2 ^ 40)) s)) := rfl

theorem stnWorsen_eq (q : Quality) (n : Nat) (s : State) : stnWorsen q n s =
    siPutN 13 (16 * n + 1) (fun _ w => worsen q w) (imgPut 0 (16 * n) (worsen q (imgGetWork s 0 (16 * n))) s) := rfl

/-! ### Worsened words -/

theorem worsen_toNat (q : Quality) (w : DWord) : (worsen q w).toNat =
    w.toNat % 2 ^ 32 + qCode (qMax (wordQ w) q) * 2 ^ 32 + w.toNat / 2 ^ 34 * 2 ^ 34 := by
  have hw := w.isLt
  have hq : qCode (qMax (wordQ w) q) < 4 := by cases qMax (wordQ w) q <;> decide
  simp only [worsen, BitVec.toNat_ofNat]
  omega

/-- A worsened word keeps its value. -/
theorem wordVal_worsen (q : Quality) (w : DWord) : wordVal (worsen q w) = wordVal w := by
  apply BitVec.eq_of_toNat_eq
  have hq : qCode (qMax (wordQ w) q) < 4 := by cases qMax (wordQ w) q <;> decide
  simp only [wordVal, BitVec.toNat_setWidth, worsen_toNat]
  omega

theorem qualityOf_qCode (q : Quality) : qualityOf (qCode q) = q := by cases q <;> rfl

theorem wordQ_worsen (q : Quality) (w : DWord) : wordQ (worsen q w) = qMax (wordQ w) q := by
  have hq : qCode (qMax (wordQ w) q) < 4 := by cases qMax (wordQ w) q <;> decide
  have h : (worsen q w).toNat / 2 ^ 32 % 4 = qCode (qMax (wordQ w) q) := by
    rw [worsen_toNat]
    omega
  rw [wordQ, ← qualityOf_mod, h, qualityOf_qCode]

theorem qMax_not_good {q : Quality} (h : q ≠ .good) (p : Quality) : qMax p q ≠ .good := by
  revert h
  cases p <;> cases q <;> decide

/-- The words of a station without inputs keep their values and are not GOOD. -/
theorem stnWorsen_word {q : Quality} (hq : q ≠ .good) (n : Nat) {s : State} (h : SiWf s) {k : Nat} (hk : k < 14) :
    wordVal (imgGetWork (stnWorsen q n s) 0 (16 * n + k)) = wordVal (imgGetWork s 0 (16 * n + k)) ∧
      wordQ (imgGetWork (stnWorsen q n s) 0 (16 * n + k)) ≠ .good := by
  have hw : imgGetWork (stnWorsen q n s) 0 (16 * n + k) = worsen q (imgGetWork s 0 (16 * n + k)) := by
    rw [stnWorsen_eq, siPutN_word _ _ _ _ (siWord_put_wf _ _ h), siWord_put _ _ _ h]
    by_cases h0 : k = 0
    · subst h0
      simp
    · rw [if_pos (by omega), if_neg (by omega)]
  rw [hw, wordVal_worsen, wordQ_worsen]
  exact ⟨rfl, qMax_not_good hq _⟩

theorem stnWrite_first (n train : Nat) (data : List Byte) {s : State} (h : SiWf s) :
    wordVal (imgGetWork (stnWrite n train data s) 0 (16 * n)) = BitVec.ofNat 32 train := by
  have h1 := siWord_put_wf (16 * n) (BitVec.ofNat 64 (train + bits (u32 data 0) 26 24 * 2 ^ 40)) h
  rw [stnWrite_eq, siWord_put _ _ _ (siPutN_wf _ _ _ h1), if_neg (by omega), siPutN_word _ _ _ _ h1, if_neg (by omega),
    siWord_put _ _ _ h, if_pos rfl]
  apply BitVec.eq_of_toNat_eq
  simp only [wordVal, BitVec.toNat_setWidth, BitVec.toNat_ofNat]
  omega

theorem stnWrite_word (n train : Nat) (data : List Byte) {s : State} (h : SiWf s) {k : Nat} (hk : k < 12) :
    imgGetWork (stnWrite n train data s) 0 (16 * n + 1 + k) =
      mkWord (w32 data (4 + 4 * k)) (qualityOf (u32 data 0 / 4 ^ k)) := by
  have h1 := siWord_put_wf (16 * n) (BitVec.ofNat 64 (train + bits (u32 data 0) 26 24 * 2 ^ 40)) h
  have hb : bits (u32 data 0) (2 * k + 1) (2 * k) = u32 data 0 / 4 ^ k % 4 := by
    rw [bits, show 2 * k + 1 + 1 - 2 * k = 2 by omega, pow_mul]
    rfl
  rw [stnWrite_eq, siWord_put _ _ _ (siPutN_wf _ _ _ h1), if_neg (by omega), siPutN_word _ _ _ _ h1, if_pos (by omega),
    show 16 * n + 1 + k - (16 * n + 1) = k by omega, hb, qualityOf_mod]

end Sys2Proof.Machine

end


section

/-! ## The stations at the input close, and the marks of a headway (R14, R15, R106, R127) -/

open Sys2Proof Sys2Proof.Machine
namespace Sys2Proof.Machine

/-! ### What the other stations leave of a station -/

/-- The stores that the input close uses are in canonical form. -/
structure InputsWf (s : State) : Prop where
  regs : RegsWf s
  stns : smWf (fun _ => ({} : StnSt)) s.slk.stns = true
  si : SiWf s

/-- A station has dropped off. -/
abbrev dropped (s : State) : Prop := getBit s Reg.SLK_CAUSE 0 = true

/-- `t` follows from `s` without touching station `n`: its record and its SI words are as they were, a drop stays recorded. -/
structure Beside (n : Nat) (s t : State) : Prop where
  dev : t.dev = s.dev
  wf : InputsWf t
  stn : stnSt t n = stnSt s n
  words : ∀ k < 16, imgGetWork t 0 (16 * n + k) = imgGetWork s 0 (16 * n + k)
  cause : dropped s → dropped t

namespace Beside

variable {n : Nat} {s t u : State}

theorem refl (h : InputsWf s) : Beside n s s := ⟨rfl, h, rfl, fun _ _ => rfl, id⟩

theorem trans (h : Beside n s t) (k : Beside n t u) : Beside n s u :=
  ⟨k.dev.trans h.dev, k.wf, k.stn.trans h.stn, fun i hi => (k.words i hi).trans (h.words i hi), k.cause ∘ h.cause⟩

/-- A recording beside every station. -/
theorem of_recorded (hw : InputsWf s) (h : Recorded s t) (hr : RegsWf t) (hc : dropped s → dropped t) : Beside n s t := by
  have hs : t.slk = s.slk := by rw [h]
  have hi : t.img = s.img := by rw [h]
  exact ⟨by rw [h], ⟨hr, by rw [hs]; exact hw.stns, by rw [SiWf, hi]; exact hw.si⟩, by simp only [stnSt, hs],
    fun _ _ => by simp only [imgGetWork, hi], hc⟩

theorem setReg (hw : InputsWf s) {a : Nat} (ha : a ≠ Reg.SLK_CAUSE) (v : Word) : Beside n s (setReg a v s) := by
  obtain ⟨hwf, hreg⟩ := setReg_regs a v s hw.regs
  exact of_recorded hw (setReg_recorded a v s) hwf
    fun h => (getBit_congr (hreg Reg.SLK_CAUSE (by simpa using ha.symm)) 0).trans h

theorem setBit (hw : InputsWf s) {a : Nat} (ha : a ≠ Reg.SLK_CAUSE) (i : Nat) (b : Bool) : Beside n s (setBit a i b s) :=
  setReg hw ha _

theorem causeD (hw : InputsWf s) {b : Nat} (hb : b < 32) (src : Nat) (d0 d1 : Word) :
    Beside n s (causeD Reg.SLK_CAUSE b src d0 d1 s) := by
  refine of_recorded hw (causeD_recorded ..) (causeD_regs Reg.SLK_CAUSE b src d0 d1 s hw.regs).1 fun h => ?_
  by_cases h0 : b = 0
  · subst h0
    exact causeD_sets _ _ _ _ _ _ hb (by decide) hw.regs
  · exact (causeD_getBit_of_ne _ _ _ _ _ _ _ hw.regs hb (fun h => h0 h.symm) (by decide) (by decide)).trans h

theorem setStn (hw : InputsWf s) {m : Nat} (hm : m ≠ n) (x : StnSt) : Beside n s (setStn m x s) := by
  refine ⟨rfl, ⟨hw.regs, smPut_wf _ _ _ _ hw.stns, hw.si⟩, ?_, fun _ _ => rfl, id⟩
  exact (smGet_put _ _ _ _ _ hw.stns).trans (if_neg hm.symm)

theorem imgPut (hw : InputsWf s) {m j : Nat} (hm : m ≠ n) (hj : j < 16) (w : DWord) :
    Beside n s (imgPut 0 (16 * m + j) w s) :=
  ⟨rfl, ⟨hw.regs, hw.stns, siWord_put_wf _ _ hw.si⟩, rfl,
    fun k hk => (siWord_put _ _ _ hw.si).trans (if_neg (by omega)), id⟩

theorem forL {α : Type} (xs : List α) {s : State} (hw : InputsWf s) (f : α → State → State)
    (h : ∀ x ∈ xs, ∀ t, InputsWf t → t.dev = s.dev → Beside n t (f x t)) : Beside n s (Machine.forL xs s f) := by
  unfold Machine.forL
  induction xs generalizing s with
  | nil => exact refl hw
  | cons x xs ih =>
    have hx := h x List.mem_cons_self s hw rfl
    exact hx.trans (ih hx.wf fun y hy t ht hd => h y (List.mem_cons_of_mem _ hy) t ht (hd.trans hx.dev))

theorem siPutN (hw : InputsWf s) {m c j : Nat} (hm : m ≠ n) (hc : j + c ≤ 16) (g : Nat → DWord → DWord) :
    Beside n s (siPutN c (16 * m + j) g s) := by
  refine forL _ hw _ fun k hk t ht _ => ?_
  have hk' := List.mem_range.1 hk
  have hb := imgPut ht (j := j + k) hm (by omega) (g k (imgGetWork t 0 (16 * m + j + k)))
  rwa [← Nat.add_assoc] at hb

end Beside

/-! ### One station at the input close -/

theorem setStn_wf (n : Nat) (x : StnSt) {s : State} (h : InputsWf s) : InputsWf (setStn n x s) :=
  ⟨h.regs, smPut_wf _ _ _ _ h.stns, h.si⟩

theorem stnSt_setStn (n : Nat) (x : StnSt) {s : State} (h : InputsWf s) : stnSt (setStn n x s) n = x :=
  (smGet_put _ _ _ _ _ h.stns).trans (if_pos rfl)

/-- The bits of presence and absence are registers beside every station. -/
theorem stnState_beside {n m : Nat} {s : State} (h : InputsWf s) (st : Nat) :
    Beside n (setStn m { stnSt s m with state := st } s) (stnState m st s) := by
  have hp : Reg.SLK_PRES + 4 * (m / 32) ≠ Reg.SLK_CAUSE := by simp only [Reg.SLK_PRES, Reg.SLK_CAUSE]; omega
  have ha : Reg.SLK_ABS + 4 * (m / 32) ≠ Reg.SLK_CAUSE := by simp only [Reg.SLK_ABS, Reg.SLK_CAUSE]; omega
  have h1 := Beside.setBit (n := n) (setStn_wf m { stnSt s m with state := st } h) hp (m % 32) (st == 2)
  exact h1.trans (.setBit h1.wf ha (m % 32) (st == 3))

/-- The record of station `m` as it drops off. -/
def stnDropped (m : Nat) (s : State) : State :=
  let u := setStn m { stnSt s m with drops := satInc 16 (stnSt s m).drops } s
  setStn m { stnSt u m with state := 3 } u

theorem stnDropped_stn (m : Nat) {s : State} (h : InputsWf s) : stnSt (stnDropped m s) m =
    { stnSt s m with state := 3, drops := satInc 16 (stnSt s m).drops } := by
  rw [stnDropped, stnSt_setStn _ _ (setStn_wf _ _ h), stnSt_setStn _ _ h]

theorem stnDropped_beside {n m : Nat} {s : State} (h : InputsWf s) (hm : m ≠ n) : Beside n s (stnDropped m s) :=
  (Beside.setStn h hm _).trans (.setStn (setStn_wf _ _ h) hm _)

/-- What a drop does besides the station's record: registers beside every station, and it stays recorded. -/
theorem stnDrop_beside (n : Nat) (r : Station) {s : State} (h : InputsWf s) :
    Beside n (stnDropped r.station s) (stnDrop r s) ∧ dropped (stnDrop r s) := by
  have hl : Reg.SLK_LCNT_DROP + 0x40 * r.line ≠ Reg.SLK_CAUSE := by simp only [Reg.SLK_LCNT_DROP, Reg.SLK_CAUSE]; omega
  unfold stnDrop
  extract_lets m x s1 s2
  have h1 : Beside n (stnDropped r.station s) s1 := stnState_beside (setStn_wf _ _ h) 3
  have h2 : Beside n (stnDropped r.station s) s2 := h1.trans (.setReg h1.wf hl _)
  have hset : dropped (setBit Reg.SLK_CAUSE 0 true s2) :=
    (getBit_setBit _ _ _ _ _ h2.wf.regs (by decide) (by decide)).trans (if_pos rfl)
  split
  · exact ⟨h2.trans (.of_recorded h2.wf (setBit_recorded ..) (setReg_wf _ _ _ h2.wf.regs) fun _ => hset), hset⟩
  · exact ⟨h2.trans (.causeD h2.wf (by decide) ..), causeD_sets _ _ _ _ _ _ (by decide) (by decide) h2.wf.regs⟩

theorem stnWrite_beside {n m : Nat} (train : Nat) (data : List Byte) {s : State} (h : InputsWf s) (hm : m ≠ n) :
    Beside n s (stnWrite m train data s) := by
  rw [stnWrite_eq]
  have h1 := Beside.imgPut h hm (j := 0) (by decide) (BitVec.ofNat 64 (train + bits (u32 data 0) 26 24 * 2 ^ 40))
  have h2 := h1.trans (.siPutN h1.wf hm (c := 12) (j := 1) (by decide)
    fun k _ => mkWord (w32 data (4 + 4 * k)) (qualityOf (bits (u32 data 0) (2 * k + 1) (2 * k))))
  exact h2.trans (.imgPut h2.wf hm (by decide) _)

theorem stnWorsen_beside {n m : Nat} (q : Quality) {s : State} (h : InputsWf s) (hm : m ≠ n) :
    Beside n s (stnWorsen q m s) := by
  rw [stnWorsen_eq]
  have h1 := Beside.imgPut h hm (j := 0) (by decide) (worsen q (imgGetWork s 0 (16 * m)))
  exact h1.trans (.siPutN h1.wf hm (c := 13) (j := 1) (by decide) _)

theorem stnClose_taken {r : Station} {s : State} {g : Nat × List Byte} (hg : (stnSt s r.station).got = some g)
    (hs : (stnSt s r.station).state = 2) : stnClose r s = stnWrite r.station g.1 g.2
      (setStn r.station { stnSt s r.station with got := none, missed := 0, last := g.1 } s) := by
  simp only [stnClose, hg, hs]

/-- The record of station `m` that misses its inputs. -/
def stnMissed (m : Nat) (s : State) : State :=
  setStn m { stnSt s m with got := none, missed := satInc 16 (stnSt s m).missed } s

/-- How far the words of a station without inputs worsen. -/
def missedQuality (r : Station) (s : State) : Quality :=
  if satInc 16 (stnSt s r.station).missed ≤ staleHeadways (theTt s) r.line then .stale else .bad

theorem missedQuality_not_good (r : Station) (s : State) : missedQuality r s ≠ .good := by
  unfold missedQuality
  split <;> decide

theorem stnClose_untaken {r : Station} {s : State}
    (h : ∀ g, (stnSt s r.station).got = some g → (stnSt s r.station).state ≠ 2) :
    stnClose r s = stnWorsen (missedQuality r s) r.station
      (if (stnSt s r.station).state = 2 then stnDrop r (stnMissed r.station s) else stnMissed r.station s) := by
  unfold stnClose
  dsimp only
  split
  case h_1 g hg hs => exact absurd hs (h g hg)
  case h_2 => rfl

theorem stnClose_beside {n : Nat} {r : Station} {s : State} (h : InputsWf s) (hr : r.station ≠ n) :
    Beside n s (stnClose r s) := by
  by_cases ht : ∃ g, (stnSt s r.station).got = some g ∧ (stnSt s r.station).state = 2
  · obtain ⟨g, hg, hs⟩ := ht
    rw [stnClose_taken hg hs]
    have h1 := Beside.setStn h hr { stnSt s r.station with got := none, missed := 0, last := g.1 }
    exact h1.trans (stnWrite_beside _ _ h1.wf hr)
  · rw [stnClose_untaken fun g hg hs => ht ⟨g, hg, hs⟩]
    have h1 : Beside n s (stnMissed r.station s) := .setStn h hr _
    split
    · have h2 := h1.trans ((stnDropped_beside h1.wf hr).trans (stnDrop_beside n r h1.wf).1)
      exact h2.trans (stnWorsen_beside _ h2.wf hr)
    · exact h1.trans (stnWorsen_beside _ h1.wf hr)

theorem siPutN_imageOnly (m b : Nat) (g : Nat → DWord → DWord) (s : State) : ImageOnly s (siPutN m b g s) :=
  forL_imageOnly _ _ _ fun _ _ => imgPut_imageOnly ..

theorem stnWrite_imageOnly (n train : Nat) (data : List Byte) (s : State) : ImageOnly s (stnWrite n train data s) := by
  rw [stnWrite_eq]
  exact (imgPut_imageOnly 0 (16 * n) _ s).trans ((siPutN_imageOnly ..).trans (imgPut_imageOnly ..))

theorem stnWorsen_imageOnly (q : Quality) (n : Nat) (s : State) : ImageOnly s (stnWorsen q n s) := by
  rw [stnWorsen_eq]
  exact (imgPut_imageOnly 0 (16 * n) _ s).trans (siPutN_imageOnly ..)

theorem ImageOnly.inputs {s t : State} (h : ImageOnly s t) (hs : InputsWf s) (ht : SiWf t) :
    InputsWf t ∧ t.dev = s.dev ∧ (∀ n, stnSt t n = stnSt s n) ∧ (dropped s → dropped t) := by
  have hr : t.regs = s.regs := by rw [h]
  have hk : t.slk = s.slk := by rw [h]
  refine ⟨⟨by rw [RegsWf, hr]; exact hs.regs, by rw [hk]; exact hs.stns, ht⟩, by rw [h], fun n => by simp only [stnSt, hk],
    fun hd => ?_⟩
  simpa only [dropped, getBit, getReg, hr] using hd

theorem stnWrite_wf (n train : Nat) (data : List Byte) {s : State} (h : SiWf s) : SiWf (stnWrite n train data s) := by
  rw [stnWrite_eq]
  exact siWord_put_wf _ _ (siPutN_wf _ _ _ (siWord_put_wf _ _ h))

theorem stnWorsen_wf (q : Quality) (n : Nat) {s : State} (h : SiWf s) : SiWf (stnWorsen q n s) := by
  rw [stnWorsen_eq]
  exact siPutN_wf _ _ _ (siWord_put_wf _ _ h)

/-- A station whose inputs have arrived: they are its SI words. -/
theorem stnClose_present {r : Station} {s : State} (h : InputsWf s) {g : Nat × List Byte}
    (hg : (stnSt s r.station).got = some g) (hs : (stnSt s r.station).state = 2) :
    InputsWf (stnClose r s) ∧ (stnClose r s).dev = s.dev ∧
    stnSt (stnClose r s) r.station = { stnSt s r.station with got := none, missed := 0, last := g.1 } ∧
    wordVal (imgGetWork (stnClose r s) 0 (16 * r.station)) = BitVec.ofNat 32 g.1 ∧
    ∀ k < 12, imgGetWork (stnClose r s) 0 (16 * r.station + 1 + k) =
      mkWord (w32 g.2 (4 + 4 * k)) (qualityOf (u32 g.2 0 / 4 ^ k)) := by
  have hw := setStn_wf r.station { stnSt s r.station with got := none, missed := 0, last := g.1 } h
  rw [stnClose_taken hg hs]
  obtain ⟨hwf, hdev, hstn, -⟩ := (stnWrite_imageOnly r.station g.1 g.2 _).inputs hw (stnWrite_wf _ _ _ hw.si)
  exact ⟨hwf, hdev, (hstn _).trans (stnSt_setStn _ _ h), stnWrite_first _ _ _ hw.si, fun k hk => stnWrite_word _ _ _ hw.si hk⟩

/-- A drop is of the station's record: the device's part and the image are as they were. -/
theorem stnDropped_missed_dev (m : Nat) (s : State) : (stnDropped m (stnMissed m s)).dev = s.dev := by
  simp only [stnDropped, stnMissed, setStn_dev]

theorem stnDropped_missed_img (m : Nat) (s : State) : (stnDropped m (stnMissed m s)).img = s.img := by
  simp only [stnDropped, stnMissed, setStn_img]

/-- A PRESENT station without inputs: it becomes ABSENT, its words keep their values and are not GOOD. -/
theorem stnClose_missing {r : Station} {s : State} (h : InputsWf s)
    (hg : (stnSt s r.station).got = none) (hs : (stnSt s r.station).state = 2) :
    InputsWf (stnClose r s) ∧ (stnClose r s).dev = s.dev ∧
    stnSt (stnClose r s) r.station = { stnSt s r.station with
      state := 3, missed := satInc 16 (stnSt s r.station).missed, drops := satInc 16 (stnSt s r.station).drops } ∧
    dropped (stnClose r s) ∧
    ∀ k < 14, wordVal (imgGetWork (stnClose r s) 0 (16 * r.station + k)) = wordVal (imgGetWork s 0 (16 * r.station + k)) ∧
      wordQ (imgGetWork (stnClose r s) 0 (16 * r.station + k)) ≠ .good := by
  have hm : InputsWf (stnMissed r.station s) := setStn_wf _ _ h
  obtain ⟨hb, hd⟩ := stnDrop_beside r.station r hm
  rw [stnClose_untaken (by simp [hg]), if_pos hs]
  obtain ⟨hwf, hdev, hstn, hdrop⟩ :=
    (stnWorsen_imageOnly (missedQuality r s) r.station _).inputs hb.wf (stnWorsen_wf _ _ hb.wf.si)
  refine ⟨hwf, by rw [hdev, hb.dev, stnDropped_missed_dev], ?_, hdrop hd, fun k hk => ?_⟩
  · rw [hstn, hb.stn, stnDropped_stn _ hm, stnMissed, stnSt_setStn _ _ h, ← hg]
  · have hword := stnWorsen_word (missedQuality_not_good r s) r.station hb.wf.si hk
    rw [hb.words k (by omega)] at hword
    simpa only [imgGetWork, stnDropped_missed_img] using hword

/-! ### Every station -/

theorem joinCheck_beside (n p : Nat) {s : State} (h : InputsWf s) : Beside n s (joinCheck p s) := by
  have hl (x : LineSt) : Beside n s (setLine p x s) := ⟨rfl, ⟨h.regs, h.stns, h.si⟩, rfl, fun _ _ => rfl, id⟩
  unfold joinCheck joinEnd
  split
  · split
    · dsimp only
      split
      · exact (hl _).trans (.causeD (hl _).wf (by decide) ..)
      · exact hl _
    · exact .refl h
  · exact .refl h

theorem closeAll_beside {n : Nat} {rs : List Station} {s : State} (h : InputsWf s) (hn : ∀ r ∈ rs, r.station ≠ n) :
    Beside n s (forL rs s stnClose) := .forL _ h _ fun r hr _ ht _ => stnClose_beside ht (hn r hr)

/-- The other stations' close, and the joins that end with it, do not touch what a station's own close leaves. -/
theorem slkInputClose_splits {s : State} (h : InputsWf s) (hn : ((headRoster (theTt s)).map (·.station)).Nodup)
    {r : Station} (hr : r ∈ headRoster (theTt s)) :
    ∃ a, Beside r.station s a ∧ (InputsWf (stnClose r a) → Beside r.station (stnClose r a) (slkInputClose s)) := by
  obtain ⟨before, after, hsplit⟩ := List.append_of_mem hr
  rw [hsplit, List.map_append, List.map_cons] at hn
  have hb : ∀ x ∈ before, x.station ≠ r.station := fun x hx he =>
    (List.nodup_append.1 hn).2.2 x.station (List.mem_map_of_mem hx) r.station List.mem_cons_self he
  have ha : ∀ x ∈ after, x.station ≠ r.station := fun x hx he =>
    (List.nodup_cons.1 (List.nodup_append.1 hn).2.1).1 (he ▸ List.mem_map_of_mem hx)
  refine ⟨forL before s stnClose, closeAll_beside h hb, fun hw => ?_⟩
  have hall : forL (headRoster (theTt s)) s stnClose = forL after (stnClose r (forL before s stnClose)) stnClose := by
    rw [hsplit]
    simp only [forL, List.foldl_append, List.foldl_cons]
  unfold slkInputClose
  dsimp only
  rw [hall]
  have hafter := closeAll_beside hw ha
  exact hafter.trans (.forL _ hafter.wf _ fun p _ t ht _ => joinCheck_beside _ p ht)

end Sys2Proof.Machine

end


section

/-! ## The marks t_in, t_est and t_out of a headway (R14, R15, R106, R127) -/

open Sys2Proof Sys2Proof.Machine
namespace Sys2Proof.Machine

/-! ### The SI generation at t_in -/

/-- The inputs that a headway takes: the stations', or on a standby the active member's. -/
def inputsTaken (s : State) : State :=
  if trainsRun s then slkInputClose s
  else
    match s.dev.mode, s.red.rxSi with
    | .standby, some ws => { s with img := { s.img with siWork := ws }, red := { s.red with rxSi := none } }
    | _, _ => s

/-- The inputs as the SI generation. -/
def siPublish (s : State) : State := imgPublish 0 { s with dev := { s.dev with siPublished := true } }

/-- The SI generation as it is published, sent and archived. -/
def inputsShown (s : State) : State := archInputs (redStream (.si (siPublish s).img.si) (siPublish s))

theorem inputClose_eq (s : State) : inputClose s =
    if estWorks (inputsShown (inputsTaken s)) then hydStart (inputsShown (inputsTaken s))
    else inputsShown (inputsTaken s) := rfl

theorem redStream_rest (m : SyncMsg) (s : State) : redStream m s = { s with red := (redStream m s).red } := by
  unfold redStream redSend
  repeat' split
  all_goals rfl

theorem archInputs_rest (s : State) : archInputs s = { s with mtr := (archInputs s).mtr } := by
  have h := forL_keeps (fun u : State => { u with mtr := {} })
    ((headRoster (theTt s)).filter (fun r => bit r.flags 0)) s (fun r s =>
      let n := r.station
      if (stnDay s n).taken then stnDayUpd n (fun d => { d with taken := false }) s
      else if (stnSt s n).state = 2 then stnBook n (fun k => imgGet s 0 (16 * n + 9 + k)) s
      else s) fun r u => by
    dsimp only
    split
    · rfl
    · split <;> rfl
  exact congrArg (fun u : State => { u with mtr := (archInputs s).mtr }) h

/-- What the publication of SI leaves: the mark, and the working generation as the published one. -/
theorem inputsShown_rest (s : State) : inputsShown s = { s with
    dev := { s.dev with siPublished := true }
    img := { s.img with si := s.img.siWork, gen := (inputsShown s).img.gen }
    red := (inputsShown s).red
    mtr := (inputsShown s).mtr } := by
  have hr := redStream_rest (.si (siPublish s).img.si) (siPublish s)
  have ha := archInputs_rest (redStream (.si (siPublish s).img.si) (siPublish s))
  unfold inputsShown
  generalize archInputs (redStream (.si (siPublish s).img.si) (siPublish s)) = a at ha ⊢
  generalize redStream (.si (siPublish s).img.si) (siPublish s) = r at hr ha
  rw [hr] at ha
  rw [ha]
  rfl

theorem stnDrop_dev (r : Station) (s : State) : (stnDrop r s).dev = s.dev := by
  unfold stnDrop
  dsimp only
  split
  · simp [stnState]
  · rw [causeS_recorded]
    simp [stnState]

theorem stnClose_dev (r : Station) (s : State) : (stnClose r s).dev = s.dev := by
  by_cases ht : ∃ g, (stnSt s r.station).got = some g ∧ (stnSt s r.station).state = 2
  · obtain ⟨g, hg, hs⟩ := ht
    rw [stnClose_taken hg hs, stnWrite_imageOnly, setStn_dev]
  · rw [stnClose_untaken fun g hg hs => ht ⟨g, hg, hs⟩, stnWorsen_imageOnly]
    dsimp only
    split
    · exact stnDrop_dev ..
    · rfl

theorem joinCheck_dev (p : Nat) (s : State) : (joinCheck p s).dev = s.dev := by
  unfold joinCheck joinEnd
  split
  · split
    · dsimp only
      split
      · rw [cause_recorded]
        rfl
      · rfl
    · rfl
  · rfl

theorem slkInputClose_dev (s : State) : (slkInputClose s).dev = s.dev :=
  (forL_keeps State.dev _ _ _ joinCheck_dev).trans (forL_keeps State.dev _ _ _ stnClose_dev)

theorem inputsTaken_dev (s : State) : (inputsTaken s).dev = s.dev := by
  unfold inputsTaken
  split
  · exact slkInputClose_dev s
  · split <;> rfl

theorem siShown_word (s : State) (i : Nat) : imgGet (inputsShown s) 0 i = imgGetWork s 0 i := by
  have h : (inputsShown s).img.si = s.img.siWork := by rw [inputsShown_rest]
  simp only [imgGet, imgGetWork, h]

theorem stnSt_inputsShown (s : State) (n : Nat) : stnSt (inputsShown s) n = stnSt s n := by
  have h : (inputsShown s).slk = s.slk := by rw [inputsShown_rest]
  simp only [stnSt, h]

theorem getBit_inputsShown (s : State) (a i : Nat) : getBit (inputsShown s) a i = getBit s a i := by
  have h : (inputsShown s).regs = s.regs := by rw [inputsShown_rest]
  simp only [getBit, getReg, h]

/-- What a station's close leaves is what the SI generation shows. -/
theorem inputsShown_station {s : State} (hc : Canonical s) (ht : trainsRun s = true)
    (hn : ((headRoster (theTt s)).map (·.station)).Nodup) {r : Station} (hr : r ∈ headRoster (theTt s)) :
    let n := r.station
    let x := stnSt s n
    let u := inputsShown (inputsTaken s)
    (∀ g, x.got = some g → x.state = 2 →
      stnSt u n = { x with got := none, missed := 0, last := g.1 } ∧
      wordVal (imgGet u 0 (16 * n)) = BitVec.ofNat 32 g.1 ∧
      ∀ k < 12, imgGet u 0 (16 * n + 1 + k) = mkWord (w32 g.2 (4 + 4 * k)) (qualityOf (u32 g.2 0 / 4 ^ k))) ∧
    (x.got = none → x.state = 2 →
      stnSt u n = { x with state := 3, missed := satInc 16 x.missed, drops := satInc 16 x.drops } ∧
      getBit u Reg.SLK_CAUSE 0 = true ∧
      ∀ k < 14, wordVal (imgGet u 0 (16 * n + k)) = wordVal (imgGetWork s 0 (16 * n + k)) ∧
        wordQ (imgGet u 0 (16 * n + k)) ≠ .good) := by
  obtain ⟨a, ha, hafter⟩ := slkInputClose_splits ⟨hc.regs, hc.stations, hc.si⟩ hn hr
  have htaken : inputsTaken s = slkInputClose s := if_pos ht
  simp only [stnSt_inputsShown, siShown_word, getBit_inputsShown, htaken, ← ha.stn]
  refine ⟨fun g hg hs => ?_, fun hg hs => ?_⟩
  · obtain ⟨hwf, -, hstn, hfirst, hwords⟩ := stnClose_present ha.wf hg hs
    have hb := hafter hwf
    refine ⟨hb.stn.trans hstn, ?_, fun k hk => ?_⟩
    · rw [← hfirst]
      exact congrArg wordVal (hb.words 0 (by decide))
    · rw [Nat.add_assoc, hb.words (1 + k) (by omega), ← Nat.add_assoc]
      exact hwords k hk
  · obtain ⟨hwf, -, hstn, hdrop, hwords⟩ := stnClose_missing ha.wf hg hs
    have hb := hafter hwf
    refine ⟨hb.stn.trans hstn, hb.cause hdrop, fun k hk => ?_⟩
    rw [hb.words k (by omega), ← ha.words k (by omega)]
    exact hwords k hk

/-! ### The marks -/

theorem inputClose_exec {s : State} (ho : tickOpen s = true) (hh : hwStates s.dev.mode = true) (hr : s.dev.hwRunning = true)
    (hp : s.dev.siPublished = false) (ht : (theTt s).plan.tIn ≤ s.dev.tickInHw) :
    exec .inputClose s = .next (inputClose s) := by
  change execInputClose s = _
  simp [execInputClose, ho, hh, hr, hp, ht]

theorem estimateClose_exec {s : State} (hw : estWorks s = true) (hp : s.dev.siPublished = true) (hn : s.dev.nsPublished = false)
    (ht : (theTt s).plan.tEst ≤ s.dev.tickInHw) (hb : s.hyd.busy = true ∨ s.ftr.busy = true) :
    exec .estimateClose s = .next (optIfDue (nsLate s)) := by
  change execEstimateClose s = _
  simp [execEstimateClose, hw, hp, hn, ht, hb]

theorem outputFreeze_exec {s : State} (ho : tickOpen s = true) (hh : hwStates s.dev.mode = true) (hr : s.dev.hwRunning = true)
    (hf : s.dev.outFrozen = false) (ht : (theTt s).plan.tOut ≤ s.dev.tickInHw) (hw : freezeWaits s = false) :
    exec .outputFreeze s = .next (outputFreeze s) := by
  change execOutputFreeze s = _
  simp [execOutputFreeze, ho, hh, hr, hf, ht, hw]

end Sys2Proof.Machine

/-- Settles O55: the stations close beside one another, a late estimate keeps its values, a freeze changes what is published. -/
theorem headwayMarks : Obligations.HeadwayMarks := by
  refine ⟨fun s hc ho hh hr hp ht hn => ?_, fun s hc hw hp hn ht hb => ?_, fun s ho hh hr hf ht hw => ?_⟩
  · have hdev : (inputsShown (inputsTaken s)).dev = { s.dev with siPublished := true } := by
      rw [inputsShown_rest, inputsTaken_dev]
    exact ⟨inputsShown (inputsTaken s), (inputClose_exec ho hh hr hp ht).trans (congrArg _ (inputClose_eq s)), hdev,
      by rw [inputsShown_rest], fun htr r hmem => inputsShown_station hc htr hn hmem⟩
  · obtain ⟨hpub, hbusy, hmove, hholds, hns, hbit, hlate, hwords⟩ := nsLate_laws hc
    exact ⟨nsLate s, (estimateClose_exec hw hp hn ht hb).trans (congrArg _ (optIfDue_published hpub)), hpub, hbusy, hmove,
      hholds, hns, hbit, hlate, fun i hi hm => hwords i hi (mem_lateWords hm)⟩
  · obtain ⟨hdev, himg⟩ := outputFreeze_shown s
    refine ⟨outputFreeze s, outputFreeze_exec ho hh hr hf ht hw, by rw [hdev]; rfl, by rw [himg]; rfl, by rw [himg]; rfl,
      by rw [himg]; rfl, by rw [hdev]; rfl, fun hs => ?_⟩
    rw [outputFreeze_single hs]
    rfl

end

section

/-! ## The timetable slots: the end of a check, and the mailbox commands of the writer (R71 to R77, R457, R528, R529) -/

open Sys2Proof Sys2Proof.Machine
namespace Sys2Proof.Machine

/-! ### Reports of a slot -/

/-- The report of a completed check (R83). -/
def reportOf (v : Verdict) : SlotReport := ⟨v.code, true, false, false, v.offset, v.section_, v.index⟩

/-- R31, R77: a completed check gives its slot the report and the valid bit, leaves the other slot's report, and touches
nothing but `dev`. -/
theorem slotReport_laws {k : Nat} (hk : k ≤ 1) (v : Verdict) (s : State) : let t := slotReport k v s
    t = { s with dev := t.dev } ∧ slotRep t k = reportOf v ∧ slotRep t (1 - k) = slotRep s (1 - k) ∧
      (if k = 0 then t.dev.slotAValid else t.dev.slotBValid) = (v.code == 0) := by
  obtain rfl | rfl : k = 0 ∨ k = 1 := by omega
  · exact ⟨rfl, rfl, rfl, rfl⟩
  · exact ⟨rfl, rfl, rfl, rfl⟩

/-- R76 step 6: a background check that nothing has overtaken reports its verdict. -/
theorem backgroundSlotCheckDone_exec {k : Nat} {s : State} (hk : k ≤ 1) (hm : s.dev.mode ≠ .boot)
    (hd : (slotRep s k).done = false) (hb : (slotRep s k).checking = true → (slotRep s k).background = true)
    (hw : s.dev.writer ≠ some k) :
    exec (.backgroundSlotCheckDone k) s = .next (slotReport k (ttCheckSlot s (baseTotals s) k).1 s) := by
  change execBackgroundSlotCheckDone k s = _
  have hopen : ¬ (1 < k ∨ s.dev.mode = .boot ∨ (slotRep s k).done = true ∨
      ((slotRep s k).checking = true ∧ (!(slotRep s k).background) = true) ∨ s.dev.writer = some k) := by
    rintro (h | h | h | ⟨hc, h⟩ | h)
    · omega
    · exact hm h
    · simp [hd] at h
    · simp [hb hc] at h
    · exact hw h
  rw [execBackgroundSlotCheckDone, if_neg hopen]

/-- R75: a check that neither a LOAD nor a COMMIT waits for reports its verdict (log entry 88: its baseline). -/
theorem timetableCheckDone_exec {k : Nat} {s : State} (hk : k ≤ 1) (hc : (slotRep s k).checking = true)
    (hb : (slotRep s k).background = false) (hx : s.tx.st ≠ 2) (hcmd : s.dev.cmd = none) :
    exec (.timetableCheckDone k) s =
      .next (slotReport k (ttCheckSlot s (if placed s then baseLoaded s else baseTotals s) k).1 s) := by
  change execTimetableCheckDone k s = _
  have hopen : ¬ ((!(slotRep s k).checking) = true ∨ (slotRep s k).background = true ∨ 1 < k) := by
    rintro (h | h | h)
    · simp [hc] at h
    · simp [hb] at h
    · omega
  have hcommit : ¬ (s.tx.st = 2 ∧ s.tx.stagedSlot = some k) := fun h => hx h.1
  have hload : (s.dev.cmd.bind loadSlot) ≠ some k := by simp [hcmd]
  rw [execTimetableCheckDone, if_neg hopen, if_neg hcommit, if_neg hload]

/-! ### A mailbox command that is taken -/

@[simp] theorem mbReply_mbResult (res : Nat) (data : List Byte) (s : State) : (mbReply res data s).hif.mbResult = res := by
  rw [mbReply, cause_recorded]
  simp only [domRequest]
  split
  · exact congrArg HifState.mbResult (setDom_hif ..)
  · rfl

/-- The row runs the command on the request data, in a state that its condition accepts. -/
theorem mbDo_of_takes {code : Nat} {r : List Byte} {s : State} (h : MbTakes code r s) {ok : State → Bool}
    (f : List Byte → State → State) (hok : ok s = true) : mbDo code ok f s = .next (f r s) := by
  have his : mbIs code s = true := by simp [mbIs, mbCode, h.busy, h.code, h.begins]
  rw [mbDo, if_pos his, if_pos hok, h.request]

theorem okRead_of_takes {code : Nat} {r : List Byte} {s : State} (h : MbTakes code r s) : okRead s = true := by
  have hrun : mbRunOk s = true := by
    by_cases hr : s.dev.mode = .run
    · simp [mbRunOk, writeMaskBit, h.mask hr]
    · simp [mbRunOk, hr]
  simp [okRead, okNotBoot, h.state, h.recovery, hrun]

theorem okTtOpen_of_takes {code : Nat} {r : List Byte} {s : State} (h : MbTakes code r s)
    (hw : s.dev.writer.isSome = true) : okTtOpen s = true := by
  simp [okTtOpen, okRead_of_takes h, hw]

theorem okTtWriter_of_takes {code : Nat} {r : List Byte} {s : State} (h : MbTakes code r s)
    (hm : s.dev.mode ≠ .standby) : okTtWriter s = true := by
  simp [okTtWriter, okRead_of_takes h, hm]

/-- A command that writes the die runs at once, as no page of the parameter store programs. -/
theorem mbDo_durably_of_takes {code : Nat} {r : List Byte} {s : State} (h : MbTakes code r s) {ok : State → Bool}
    (f : List Byte → State → State) (hok : ok s = true) :
    mbDo code ok (fun r => unlessPage (durably (f r))) s = .next (durably (f r) s) := by
  rw [mbDo_of_takes h _ hok]
  simp [unlessPage, h.page]

/-- What answers an error writes nothing. -/
theorem durably_error {f : State → State} {s x : State} {res : Nat} {data : List Byte} (hres : res ≠ 0)
    (h : f s = mbReply res data x) : durably f s = mbReply res data x := by
  rw [durably, if_pos (by rwa [h, mbReply_mbResult]), h]

/-- R527: what would be done is done, or its write has failed. -/
theorem durably_done {f : State → State} {s x y : State} {data : List Byte} (h : f s = mbReply 0 data x)
    (hu : f { s with free := s.free + 1 } = mbReply 0 data y) : durably f s =
      if Config.nvFails s.free = true then mbReply 5 [] { s with free := s.free + 1 } else mbReply 0 data y := by
  rw [durably, if_neg (by rw [h, mbReply_mbResult]; exact fun hz => hz rfl), ← hu]
  rfl

/-! ### Bytes of a slot -/

@[simp] theorem ttPut_tx (k off : Nat) (bs : List Byte) (s : State) : (ttPut k off bs s).tx = s.tx := by
  unfold ttPut
  split
  · rw [redStream_rest]; rfl
  · rfl

theorem ttPut_nv (k off : Nat) (bs : List Byte) (s : State) :
    (ttPut k off bs s).nv = (nvWrite (ttSlotBase k + off) bs s).nv := by
  unfold ttPut
  split
  · rw [redStream_rest]
  · rfl

/-- Without a staged replacement nothing goes to the standby. -/
theorem ttPut_of_unstaged {k off : Nat} {bs : List Byte} {s : State} (h : s.tx.stagedSlot = none) :
    ttPut k off bs s = nvWrite (ttSlotBase k + off) bs s := by
  simp [ttPut, h]

theorem slotUnchecked_rest (k : Nat) (c : Bool) (s : State) :
    slotUnchecked k c s = { s with dev := (slotUnchecked k c s).dev } := by
  unfold slotUnchecked setSlotRep
  split <;> rfl

theorem slotUnchecked_writer (k : Nat) (c : Bool) (s : State) :
    (slotUnchecked k c s).dev.writer = s.dev.writer := by
  unfold slotUnchecked setSlotRep
  split <;> rfl

theorem slotRep_slotUnchecked (k : Nat) (c : Bool) (s : State) :
    slotRep (slotUnchecked k c s) k = { checking := c } := by
  by_cases hk : k = 0 <;> simp [slotUnchecked, setSlotRep, slotRep, hk]

/-- A state whose die is that of `s` with the first bytes of slot `k` written reads them back (R71: the magic). -/
theorem nvRead_of_slot_start {k : Nat} {bs : List Byte} {s t : State} (hwf : NvWf s)
    (h : t.nv = (nvWrite (ttSlotBase k) bs s).nv) : nvRead t (ttSlotBase k) bs.length = bs := by
  rw [nvRead, h]
  exact nvRead_nvWrite _ _ _ hwf

/-! ### TT_OPEN -/

/-- An open transaction stages the slot (R457). -/
def slotStaged (k : Nat) (s : State) : State :=
  if s.tx.st = 1 then { s with tx := { s.tx with stagedSlot := some k } } else s

/-- The slot opened: staged, its magic zeroed, its report withdrawn, and the writer on it. -/
def slotOpened (k : Nat) (s : State) : State :=
  let t := slotUnchecked k false (ttPut k 0 (List.replicate 4 0#8) (slotStaged k s))
  txTouch { t with dev := { t.dev with writer := some k } }

theorem ttOpen_eq {r : List Byte} {s : State} (hl : r.length = 1) (hk : u8 r 0 ≤ 1) (hw : s.dev.writer = none)
    (hf : s.mgt.fwWriter = none) (ha : s.dev.mode = .hold ∨ u8 r 0 ≠ s.dev.activeSlot) (hx : s.tx.st ≤ 1) :
    ttOpen r s = mbReply 0 [] (slotOpened (u8 r 0) s) := by
  have hargs : ¬ (r.length ≠ 1 ∨ 1 < u8 r 0) := by omega
  have hactive : ¬ (s.dev.mode ≠ .hold ∧ u8 r 0 = s.dev.activeSlot) := fun ⟨hm, he⟩ => ha.elim hm (absurd he)
  have hbusy : ¬ (s.dev.writer.isSome = true ∨ s.mgt.fwWriter.isSome = true ∨
      (2 ≤ s.tx.st ∧ s.tx.stagedSlot = some (u8 r 0))) := by
    rw [hw, hf]
    rintro (h | h | ⟨h, -⟩)
    · cases h
    · cases h
    · omega
  simp only [ttOpen, if_neg hargs, if_neg hactive, if_neg hbusy, slotOpened, slotStaged]

theorem slotStaged_nv (k : Nat) (s : State) : (slotStaged k s).nv = s.nv := by
  unfold slotStaged
  split <;> rfl

theorem slotOpened_writer (k : Nat) (s : State) : (slotOpened k s).dev.writer = some k := rfl

theorem slotOpened_stagedSlot (k : Nat) (s : State) :
    (slotOpened k s).tx.stagedSlot = if s.tx.st = 1 then some k else s.tx.stagedSlot := by
  change (slotUnchecked k false _).tx.stagedSlot = _
  rw [slotUnchecked_rest]
  change (ttPut k 0 _ _).tx.stagedSlot = _
  rw [ttPut_tx, slotStaged]
  split <;> rfl

theorem slotOpened_nv (k : Nat) (s : State) :
    (slotOpened k s).nv = (nvWrite (ttSlotBase k) (List.replicate 4 0#8) s).nv := by
  change (slotUnchecked k false _).nv = _
  rw [slotUnchecked_rest]
  change (ttPut k 0 _ _).nv = _
  rw [ttPut_nv, Nat.add_zero, nvWrite, slotStaged_nv, nvWrite]

/-! ### TT_WRITE -/

theorem writeSpanOk_iff (size : Nat) (r : List Byte) : writeSpanOk size r = true ↔
    4 < r.length ∧ u32 r 0 % 8 = 0 ∧ (r.length - 4) % 8 = 0 ∧ u32 r 0 + (r.length - 4) ≤ size := by
  simp [writeSpanOk, and_assoc]

theorem ttWriteDo_eq {r : List Byte} {s : State} (hspan : writeSpanOk 16777216 r = true) (h : s.tx.stagedSlot = none) :
    ttWriteDo r s = mbReply 0 [] (txTouch (nvWrite (ttSlotBase (s.dev.writer.getD 0) + u32 r 0)
      (withoutMagic (u32 r 0) (r.drop 4)) s)) := by
  rw [ttWriteDo, if_pos hspan, ttPut_of_unstaged h]

theorem ttWriteDo_refused {r : List Byte} {s : State} (hspan : ¬ writeSpanOk 16777216 r = true) :
    ttWriteDo r s = mbReply 3 [] s := if_neg hspan

/-! ### TT_CLOSE -/

/-- R70: the length that the header of a slot gives its image. -/
def slotLen (k : Nat) (s : State) : Nat := u32 (nvRead s (ttSlotBase k) 16) 0xC

/-- The image of a slot, with its magic as it will be once written. -/
def slotImage (k : Nat) (s : State) : List Byte :=
  leBytes 4 magicDxtt ++ nvRead s (ttSlotBase k + 4) (slotLen k s - 4)

/-- The trailer of the image holds the CRC of what stands before it. -/
def SlotCrcOk (k : Nat) (s : State) : Prop :=
  u32 (slice (slotImage k s) (slotLen k s - 160) 160) 4 = (crc32c ((slotImage k s).take (slotLen k s - 160))).toNat

/-- The slot closed: its magic written, the writer off it, and its check begun. -/
def slotClosed (k : Nat) (s : State) : State :=
  let t := ttPut k 0 (leBytes 4 magicDxtt) s
  txTouch (slotUnchecked k true { t with dev := { t.dev with writer := none } })

section
variable {r : List Byte} {s : State} (hl : r.length = 4) (hlen : u32 r 0 = slotLen (s.dev.writer.getD 0) s)
  (hmin : 224 ≤ slotLen (s.dev.writer.getD 0) s) (hmax : slotLen (s.dev.writer.getD 0) s ≤ 16777216)
include hl hlen hmin hmax

/-- The length named at the close is that of the header, and in range. -/
theorem closeLength_ok : ¬ (r.length ≠ 4 ∨ u32 r 0 ≠ slotLen (s.dev.writer.getD 0) s ∨
    slotLen (s.dev.writer.getD 0) s < 224 ∨ 16777216 < slotLen (s.dev.writer.getD 0) s) := by omega

theorem ttClose_bad_crc (hcrc : ¬ SlotCrcOk (s.dev.writer.getD 0) s) : ttClose r s = mbReply 4 [7#8] (txTouch s) :=
  (if_neg (closeLength_ok hl hlen hmin hmax)).trans (if_pos hcrc)

theorem ttClose_good_crc (hcrc : SlotCrcOk (s.dev.writer.getD 0) s) :
    ttClose r s = mbReply 0 [0#8] (slotClosed (s.dev.writer.getD 0) s) :=
  (if_neg (closeLength_ok hl hlen hmin hmax)).trans (if_neg (not_not_intro hcrc))

end

theorem slotClosed_writer (k : Nat) (s : State) : (slotClosed k s).dev.writer = none := slotUnchecked_writer ..

theorem slotClosed_checking (k : Nat) (s : State) : (slotRep (slotClosed k s) k).checking = true :=
  congrArg SlotReport.checking (slotRep_slotUnchecked ..)

theorem slotClosed_nv (k : Nat) (s : State) :
    (slotClosed k s).nv = (nvWrite (ttSlotBase k) (leBytes 4 magicDxtt) s).nv := by
  change (slotUnchecked k true _).nv = _
  rw [slotUnchecked_rest]
  exact (ttPut_nv ..).trans (by rw [Nat.add_zero])

/-! ### TT_READ -/

theorem slotReader_eq {base : Nat → Nat} {size slots : Nat} {r : List Byte} {s : State} (hl : r.length = 9)
    (hk : u8 r 0 < slots) (hn : u32 r 5 ≤ 4096) (hend : u32 r 1 + u32 r 5 ≤ size) :
    slotReader base size slots r s = mbReply 0 (nvRead s (base (u8 r 0) + u32 r 1) (u32 r 5)) s :=
  if_neg (by omega)

/-! ### The rows -/

section
variable {r : List Byte} {s : State}

theorem ttOpen_exec (h : MbTakes 0x10 r s) (hm : s.dev.mode ≠ .standby) :
    exec .ttOpen s = .next (durably (ttOpen r) s) := mbDo_durably_of_takes h ttOpen (okTtWriter_of_takes h hm)

theorem ttWrite_exec (h : MbTakes 0x11 r s) (hw : s.dev.writer.isSome = true) :
    exec .ttWrite s = .next (durably (ttWriteDo r) s) := mbDo_durably_of_takes h ttWriteDo (okTtOpen_of_takes h hw)

theorem ttClose_exec (h : MbTakes 0x12 r s) (hw : s.dev.writer.isSome = true) :
    exec .ttClose s = .next (durably (ttClose r) s) := mbDo_durably_of_takes h ttClose (okTtOpen_of_takes h hw)

theorem ttAbort_exec (h : MbTakes 0x13 r s) (hw : s.dev.writer.isSome = true) :
    exec .ttAbort s = .next (ttAbortDo r s) := mbDo_of_takes h _ (okTtOpen_of_takes h hw)

theorem ttRead_exec (h : MbTakes 0x14 r s) : exec .ttRead s = .next (slotReader ttSlotBase 16777216 2 r s) :=
  mbDo_of_takes h _ (okRead_of_takes h)

end

end Sys2Proof.Machine

/-- Settles O10: neither check has a LOAD or a COMMIT waiting for it, so its end is one `slotReport`. -/
theorem slotChecksReport : Obligations.SlotChecksReport := by
  refine fun k s hk => ⟨fun hm hd hb hw => ?_, fun hc hb hx hcmd => ?_⟩
  · exact ⟨_, backgroundSlotCheckDone_exec hk hm hd hb hw, slotReport_laws hk _ s⟩
  · obtain ⟨hrest, hrep, -, hvalid⟩ :=
      slotReport_laws hk (ttCheckSlot s (if placed s then baseLoaded s else baseTotals s) k).1 s
    exact ⟨_, timetableCheckDone_exec hk hc hb hx hcmd, hrest, hrep, hvalid⟩

/-- Settles O38: each row runs its command, which is done durably or answers an error before it writes. -/
theorem timetableWriter : Obligations.TimetableWriter := by
  intro r s idle u done k off len img crcOk
  refine ⟨fun h hm hl hk hw hf ha hx hst => ?_, fun h hw hst => ⟨fun h4 h8 hn hend => ?_, fun hspan => ?_⟩,
    fun h hw hst hl hlen hmin hmax => ⟨fun hcrc => ?_, fun hcrc => ?_⟩, fun h hw => ttAbort_exec h hw,
    fun h hl hk hn hend => (ttRead_exec h).trans (congrArg _ (slotReader_eq hl (by omega) hn hend))⟩
  · refine ⟨slotOpened (u8 r 0) u, (ttOpen_exec h hm).trans (congrArg _ (durably_done (ttOpen_eq hl hk hw hf ha hx)
      (ttOpen_eq (s := u) hl hk hw hf ha hx))), slotOpened_writer .., fun h1 => ?_, fun h0 => ?_, fun hwf => ?_⟩
    · exact (slotOpened_stagedSlot ..).trans (if_pos h1)
    · exact ((slotOpened_stagedSlot ..).trans (if_neg (by change s.tx.st ≠ 1; omega))).trans hst
    · exact nvRead_of_slot_start (s := u) hwf (slotOpened_nv ..)
  · have hspan := (writeSpanOk_iff 16777216 r).2 ⟨h4, h8, hn, hend⟩
    exact (ttWrite_exec h hw).trans (congrArg _ (durably_done (ttWriteDo_eq hspan hst) (ttWriteDo_eq (s := u) hspan hst)))
  · rw [← writeSpanOk_iff] at hspan
    exact (ttWrite_exec h hw).trans (congrArg _ (durably_error (by decide) (ttWriteDo_refused hspan)))
  · exact (ttClose_exec h hw).trans (congrArg _ (durably_error (by decide) (ttClose_bad_crc hl hlen hmin hmax hcrc)))
  · refine ⟨slotClosed k u, (ttClose_exec h hw).trans (congrArg _ (durably_done (ttClose_good_crc hl hlen hmin hmax hcrc)
      (ttClose_good_crc (s := u) hl hlen hmin hmax hcrc))), slotClosed_writer .., slotClosed_checking .., fun hwf => ?_⟩
    exact nvRead_of_slot_start (s := u) hwf (slotClosed_nv ..)

end


section
/-! ## The lines of the station link: writes of a line, and the end of a join phase (R124, R138) -/

open Sys2Proof Sys2Proof.Machine
namespace Sys2Proof.Machine

theorem Recorded.dev {s t : State} (h : Recorded s t) : t.dev = s.dev := by rw [h]
theorem Recorded.slk {s t : State} (h : Recorded s t) : t.slk = s.slk := by rw [h]
theorem Recorded.img {s t : State} (h : Recorded s t) : t.img = s.img := by rw [h]

theorem Recorded.line {s t : State} (h : Recorded s t) (p : Nat) : lineSt t p = lineSt s p := by rw [lineSt, h.slk, lineSt]

theorem Recorded.stn {s t : State} (h : Recorded s t) (n : Nat) : stnSt t n = stnSt s n := by rw [stnSt, h.slk, stnSt]

theorem theTt_congr {s t : State} (h : t.dev = s.dev) : theTt t = theTt s := by rw [theTt, h, theTt]

/-! ### Writes of a line -/

/-- A port past the last one has no line to write. -/
theorem setLine_of_ge {p : Nat} {s : State} (h : s.slk.lines.length ≤ p) (x : LineSt) : setLine p x s = s := by
  rw [setLine, setNth, List.set_eq_of_length_le h]
  rfl

theorem lineSt_setLine_same {p : Nat} {s : State} (h : p < s.slk.lines.length) (x : LineSt) : lineSt (setLine p x s) p = x :=
  nth_setNth_eq _ _ _ _ h

theorem lineSt_setLine_ne {p q : Nat} (h : q ≠ p) (x : LineSt) (s : State) : lineSt (setLine p x s) q = lineSt s q :=
  nth_setNth_ne _ _ _ _ _ h.symm

@[simp] theorem setLine_lines_length (p : Nat) (x : LineSt) (s : State) :
    (setLine p x s).slk.lines.length = s.slk.lines.length := List.length_set

@[simp] theorem setLine_setLine (p : Nat) (x y : LineSt) (s : State) : setLine p y (setLine p x s) = setLine p y s := by
  simp only [setLine, setSlk, setNth, List.set_set]

/-- A line that is written over as it was written. -/
theorem setLine_modify (p : Nat) (x : LineSt) (s : State) (g : LineSt → LineSt) :
    setLine p (g (lineSt (setLine p x s) p)) (setLine p x s) = setLine p (g x) s := by
  by_cases hp : p < s.slk.lines.length
  · rw [lineSt_setLine_same hp, setLine_setLine]
  · have hge := Nat.not_lt.1 hp
    simp only [setLine_of_ge hge]

/-- What a written line has in common with the old one, every line has. -/
theorem lineSt_setLine_keeps {p : Nat} {x : LineSt} {s : State} (P : LineSt → LineSt → Prop) (hr : ∀ y, P y y)
    (h : P (lineSt s p) x) (q : Nat) : P (lineSt s q) (lineSt (setLine p x s) q) := by
  by_cases hp : p < s.slk.lines.length
  · by_cases hq : q = p
    · rw [hq, lineSt_setLine_same hp]
      exact h
    · rw [lineSt_setLine_ne hq]
      exact hr _
  · rw [setLine_of_ge (Nat.not_lt.1 hp)]
    exact hr _

theorem mem_headPorts {t : Timetable} {p : Nat} : p ∈ headPorts t ↔ p < 8 ∧ headsLine t p = true := by simp [headPorts]

theorem headPorts_nodup (t : Timetable) : (headPorts t).Nodup := List.nodup_range.filter _

/-! ### The end of a join phase -/

/-- The line of port `p` as its join phase ends. -/
def lineJoined (p : Nat) (s : State) : State := setLine p { lineSt s p with joinPhase := false, joinDone := true } s

/-- What the causes of the link touch. -/
abbrev slkCauseRegs : List Nat := Reg.SLK_CAUSE :: evRegs

theorem causeS_regs (reg b src : Nat) (s : State) : RegsExcept (reg :: evRegs) s (causeS reg b src s) := causeD_regs reg b src 0 0 s

theorem causeS_sets {reg b : Nat} (src : Nat) {s : State} (hw : RegsWf s) (hb : b < 32) (hr : reg ≠ Reg.MGT_EVR_CNT) :
    getBit (causeS reg b src s) reg b = true := causeD_sets reg b src 0 0 s hb hr hw

/-- A cause of the link that is set stays set when another one is. -/
theorem causeS_slk_keeps {b i : Nat} (src : Nat) {s : State} (hw : RegsWf s) (hb : b < 32)
    (h : getBit s Reg.SLK_CAUSE i = true) : getBit (causeS Reg.SLK_CAUSE b src s) Reg.SLK_CAUSE i = true := by
  by_cases hi : i = b
  · subst hi
    exact causeS_sets src hw hb (by decide)
  · exact (causeD_getBit_of_ne _ _ _ _ _ _ _ hw hb hi (by decide) (by decide)).trans h

theorem joinEnd_joined {p : Nat} {s : State} (h : (lineSt s p).joinPhase = false) : joinEnd p s = s := by simp [joinEnd, h]

theorem joinEnd_joining {p : Nat} {s : State} (h : (lineSt s p).joinPhase = true) : joinEnd p s =
    if allJoined (lineJoined p s) then cause Reg.SLK_CAUSE 5 (lineJoined p s) else lineJoined p s :=
  if_pos h

theorem Recorded.allJoined {s t : State} (h : Recorded s t) : allJoined t = allJoined s := by
  simp only [Machine.allJoined, theTt_congr h.dev, h.line]

/-- A line that ends its join phase: with the last one the cause is set. -/
theorem joinEnd_laws {p : Nat} {s : State} (hw : RegsWf s) (h : (lineSt s p).joinPhase = true) :
    Recorded (lineJoined p s) (joinEnd p s) ∧ RegsExcept slkCauseRegs s (joinEnd p s) ∧
    (allJoined (joinEnd p s) = true → getBit (joinEnd p s) Reg.SLK_CAUSE 5 = true) := by
  have hj : RegsExcept slkCauseRegs s (lineJoined p s) := .of_regs rfl
  rw [joinEnd_joining h]
  split
  · exact ⟨cause_recorded .., hj.trans (cause_regs Reg.SLK_CAUSE 5 _), fun _ => causeS_sets 0 (hj hw).1 (by decide) (by decide)⟩
  · next hall => exact ⟨.refl _, hj, fun h => absurd h hall⟩

end Sys2Proof.Machine

end


section
/-! ## Returned cars: how they are counted and marked, and what their content touches (R90, R91, R111, R113, R120, R126) -/

open Sys2Proof Sys2Proof.Machine
namespace Sys2Proof.Machine

/-! ### The row of a returned car -/

theorem onCar_other {kind p : Nat} {f : List Byte} {s : State} (act : Car → State → State)
    (h : ∀ c, rxJudge s p f = .car c → c.kind ≠ kind) : onCar kind p f act s = .next s := by
  unfold onCar
  split
  · next c hc => rw [if_neg (h c hc)]
  · rfl

/-- R90, R91: what a car that is on time shows of its ring; a guest car shows nothing. -/
def ringSeen (p : Nat) (c : Car) (s : State) : State := if c.guest then s else ringJudge p c s

theorem onCar_late {kind p : Nat} {f : List Byte} {c : Car} {s : State} (act : Car → State → State)
    (hc : rxJudge s p f = .car c) (hk : c.kind = kind) (hl : carLate s p = true) :
    onCar kind p f act s = .next (carBack p c true s) := by
  simp [onCar, hc, hk, hl]

theorem onCar_onTime {kind p : Nat} {f : List Byte} {c : Car} {s : State} (act : Car → State → State)
    (hc : rxJudge s p f = .car c) (hk : c.kind = kind) (hl : carLate s p = false) :
    onCar kind p f act s = .next (act c (ringSeen p c (carBack p c false s))) := by
  simp [onCar, hc, hk, hl, ringSeen]

/-! ### Counting and marking (R97, R111) -/

/-- A car as it is marked when it comes back; a car that came back before keeps its marks. -/
def markCar (c : Car) (late : Bool) (y : CarSent) : CarSent :=
  if y.returned then y else { y with returned := true, late := late, ack := c.ack, fault := c.fault }

/-- The line of port `p` with car `c` marked. -/
def lineMarked (p : Nat) (c : Car) (late : Bool) (s : State) : LineSt :=
  { lineSt s p with cars := setNth (lineSt s p).cars c.index (markCar c late (nth (lineSt s p).cars c.index {})) }

theorem carBack_recorded (p : Nat) (c : Car) (late : Bool) (s : State) :
    Recorded (setLine p (lineMarked p c late s) s) (carBack p c late s) := rfl

theorem carBack_regs (p : Nat) (c : Car) (late : Bool) (s : State) :
    RegsExcept [Reg.SLK_LCNT_RX + 0x40 * p] s (carBack p c late s) :=
  (RegsExcept.of_regs (t := setLine p (lineMarked p c late s) s) rfl).trans (setReg_regs _ _ _)

theorem carBack_counts (p : Nat) (c : Car) (late : Bool) {s : State} (hw : RegsWf s) :
    getReg (carBack p c late s) (Reg.SLK_LCNT_RX + 0x40 * p) = getReg s (Reg.SLK_LCNT_RX + 0x40 * p) + 1 := by
  have hl : RegsWf (setLine p (lineMarked p c late s) s) := hw
  exact (getReg_setReg _ _ _ _ hl).trans (if_pos rfl)

theorem carBack_line {p : Nat} (c : Car) (late : Bool) {s : State} (hp : p < s.slk.lines.length) :
    lineSt (carBack p c late s) p = lineMarked p c late s :=
  ((carBack_recorded p c late s).line p).trans (lineSt_setLine_same hp _)

/-! ### Breaks of a ring (R90, R91) -/

/-- A car of a ring line with stations. -/
def onRing (t : Timetable) (p : Nat) : Bool := decide ((t.line p).mode = 2 ∧ 0 < (t.line p).stations)

theorem onRing_iff {t : Timetable} {p : Nat} : onRing t p = true ↔ (t.line p).mode = 2 ∧ 0 < (t.line p).stations := decide_eq_true_iff

/-- The line after a car came back with its hops: whole to its last station, or broken after as many stations. -/
def ringLine (t : Timetable) (p : Nat) (c : Car) (x : LineSt) : LineSt :=
  let full := decide (c.last + 1 ≤ c.hops)
  { x with
    full := x.full || full
    broken := if onRing t p then !full else x.broken
    breakPos := if onRing t p && !full then c.hops else x.breakPos }

/-- What the hops of a car do: the line's record, and a cause where the ring broke or was repaired. -/
theorem ringJudge_eq (p : Nat) (c : Car) (s : State) : ringJudge p c s =
    let t := setLine p (ringLine (theTt s) p c (lineSt s p)) s
    if onRing (theTt s) p = false then t
    else if c.last + 1 ≤ c.hops then (if (lineSt s p).broken then causeS Reg.SLK_CAUSE 3 p t else t)
    else if (lineSt s p).broken then t else causeS Reg.SLK_CAUSE 2 p t := by
  have hring : (((theTt s).line p).mode ≠ 2 ∨ ((theTt s).line p).stations = 0) ↔ onRing (theTt s) p = false := by
    rw [← Bool.not_eq_true, onRing_iff]
    omega
  unfold ringJudge
  simp only [hring, setLine_modify p _ s (fun y => { y with broken := false }),
    setLine_modify p _ s (fun y => { y with breakPos := c.hops }),
    setLine_modify p _ s (fun y => { y with broken := true, breakPos := c.hops }), decide_eq_true_eq]
  cases hr : onRing (theTt s) p
  · simp [ringLine, hr]
  · by_cases hf : c.last + 1 ≤ c.hops
    · cases hb : (lineSt s p).broken <;> simp [ringLine, hr, hf]
    · cases hb : (lineSt s p).broken <;> simp [ringLine, hr, hf]

theorem ringJudge_laws (p : Nat) (c : Car) {s : State} (hw : RegsWf s) :
    Recorded (setLine p (ringLine (theTt s) p c (lineSt s p)) s) (ringJudge p c s) ∧
    RegsExcept slkCauseRegs s (ringJudge p c s) ∧
    (onRing (theTt s) p = true → c.last + 1 ≤ c.hops → (lineSt s p).broken = true →
      getBit (ringJudge p c s) Reg.SLK_CAUSE 3 = true) ∧
    (onRing (theTt s) p = true → c.hops < c.last + 1 → (lineSt s p).broken = false →
      getBit (ringJudge p c s) Reg.SLK_CAUSE 2 = true) := by
  rw [ringJudge_eq]
  extract_lets t
  have ht : RegsExcept slkCauseRegs s t := .of_regs rfl
  have hcause (b : Nat) : Recorded t (causeS Reg.SLK_CAUSE b p t) ∧ RegsExcept slkCauseRegs s (causeS Reg.SLK_CAUSE b p t) :=
    ⟨causeS_recorded .., ht.trans (causeS_regs Reg.SLK_CAUSE b p t)⟩
  cases hr : onRing (theTt s) p
  · exact ⟨.refl _, ht, fun h => absurd h Bool.false_ne_true, fun h => absurd h Bool.false_ne_true⟩
  · rw [if_neg Bool.noConfusion]
    by_cases hf : c.last + 1 ≤ c.hops
    · rw [if_pos hf]
      split
      · exact ⟨(hcause 3).1, (hcause 3).2, fun _ _ _ => causeS_sets p (ht hw).1 (by decide) (by decide), fun _ h => by omega⟩
      · next hb => exact ⟨.refl _, ht, fun _ _ h => absurd h hb, fun _ h => by omega⟩
    · rw [if_neg hf]
      split
      · next hb => exact ⟨.refl _, ht, fun _ h => absurd h hf, fun _ _ h => by simp [hb] at h⟩
      · exact ⟨(hcause 2).1, (hcause 2).2, fun _ h => absurd h hf, fun _ _ _ => causeS_sets p (ht hw).1 (by decide) (by decide)⟩

/-! ### What the content of a car touches -/

/-- `y` differs from `x` in its join phase, its commands and the round trip only. -/
def ActedOn (x y : LineSt) : Prop := y = { x with
  joinPhase := y.joinPhase
  joinDone := y.joinDone
  cmds := y.cmds
  prev := y.prev
  turnPos := y.turnPos }

theorem ActedOn.refl (x : LineSt) : ActedOn x x := rfl

theorem ActedOn.trans {x y z : LineSt} (h : ActedOn x y) (k : ActedOn y z) : ActedOn x z := by
  unfold ActedOn at h k ⊢
  rw [k, h]

/-- `t` follows from `s` by acting on the content of a returned car: the counts of returned cars are as they were, a cause
stays set, and of a line only its join phase, its commands and the round trip change. -/
structure CarActed (s t : State) : Prop where
  dev : t.dev = s.dev
  wf : RegsWf t
  received : ∀ p < 8, getReg t (Reg.SLK_LCNT_RX + 0x40 * p) = getReg s (Reg.SLK_LCNT_RX + 0x40 * p)
  cause : ∀ i, getBit s Reg.SLK_CAUSE i = true → getBit t Reg.SLK_CAUSE i = true
  line : ∀ p, ActedOn (lineSt s p) (lineSt t p)

namespace CarActed

variable {s t u : State}

theorem refl (h : RegsWf s) : CarActed s s := ⟨rfl, h, fun _ _ => rfl, fun _ => id, fun _ => .refl _⟩

theorem trans (h : CarActed s t) (k : CarActed t u) : CarActed s u :=
  ⟨k.dev.trans h.dev, k.wf, fun p hp => (k.received p hp).trans (h.received p hp), fun i hi => k.cause i (h.cause i hi),
    fun p => (h.line p).trans (k.line p)⟩

/-- The registers and the lines stay. -/
theorem of_same (hw : RegsWf s) (hd : t.dev = s.dev) (hr : t.regs = s.regs) (hl : t.slk.lines = s.slk.lines) : CarActed s t := by
  have hreg (a : Nat) : getReg t a = getReg s a := by simp only [getReg, hr]
  refine ⟨hd, by rwa [RegsWf, hr], fun p _ => hreg _, fun i hi => (getBit_congr (hreg _) i).trans hi, fun p => ?_⟩
  rw [show lineSt t p = lineSt s p by simp only [lineSt, hl]]
  exact .refl _

/-- Something is recorded, and the registers that count and the causes stay. -/
theorem of_recorded (hw : RegsWf s) (h : Recorded s t) {as : List Nat} (hr : RegsExcept as s t)
    (hc : Reg.SLK_CAUSE ∉ as) (ha : ∀ p < 8, Reg.SLK_LCNT_RX + 0x40 * p ∉ as) : CarActed s t := by
  obtain ⟨hwf, hreg⟩ := hr hw
  refine ⟨h.dev, hwf, fun p hp => hreg _ (ha p hp), fun i hi => (getBit_congr (hreg _ hc) i).trans hi, fun p => ?_⟩
  rw [h.line]
  exact .refl _

theorem setReg (hw : RegsWf s) {a : Nat} (hc : a ≠ Reg.SLK_CAUSE) (ha : ∀ p < 8, a ≠ Reg.SLK_LCNT_RX + 0x40 * p) (v : Word) :
    CarActed s (setReg a v s) :=
  of_recorded hw (setReg_recorded a v s) (setReg_regs a v s) (fun h => hc (List.mem_singleton.1 h).symm)
    fun p hp h => ha p hp (List.mem_singleton.1 h).symm

theorem setBit (hw : RegsWf s) {a : Nat} (hc : a ≠ Reg.SLK_CAUSE) (ha : ∀ p < 8, a ≠ Reg.SLK_LCNT_RX + 0x40 * p) (i : Nat)
    (b : Bool) : CarActed s (setBit a i b s) := setReg hw hc ha _

theorem causeS (hw : RegsWf s) {b : Nat} (hb : b < 32) (src : Nat) : CarActed s (causeS Reg.SLK_CAUSE b src s) := by
  obtain ⟨hwf, hreg⟩ := causeS_regs Reg.SLK_CAUSE b src s hw
  refine ⟨(causeS_recorded ..).dev, hwf, fun p hp => hreg _ ?_, fun i hi => causeS_slk_keeps src hw hb hi, fun p => ?_⟩
  · simp [Reg.SLK_LCNT_RX, Reg.SLK_CAUSE, Reg.MGT_CAUSE, Reg.MGT_EVR_CNT]
    omega
  · rw [(causeS_recorded ..).line]
    exact .refl _

theorem setLine (hw : RegsWf s) {p : Nat} {x : LineSt} (h : ActedOn (lineSt s p) x) : CarActed s (setLine p x s) :=
  ⟨rfl, hw, fun _ _ => rfl, fun _ => id, lineSt_setLine_keeps ActedOn .refl h⟩

theorem forN (n : Nat) (f : Nat → State → State) (hw : RegsWf s)
    (h : ∀ k, ∀ t, RegsWf t → t.dev = s.dev → CarActed t (f k t)) : CarActed s (Machine.forN n s f) := by
  induction n with
  | zero => exact refl hw
  | succ n ih =>
    rw [forN_succ]
    exact ih.trans (h n _ ih.wf ih.dev)

end CarActed

theorem stnState_acted {n : Nat} (hn : n < 2048) (st : Nat) {s : State} (hw : RegsWf s) : CarActed s (stnState n st s) := by
  have hp : Reg.SLK_PRES + 4 * (n / 32) ≠ Reg.SLK_CAUSE ∧ ∀ p < 8, Reg.SLK_PRES + 4 * (n / 32) ≠ Reg.SLK_LCNT_RX + 0x40 * p := by
    refine ⟨?_, fun p hp => ?_⟩ <;> simp only [Reg.SLK_PRES, Reg.SLK_CAUSE, Reg.SLK_LCNT_RX] <;> omega
  have ha : Reg.SLK_ABS + 4 * (n / 32) ≠ Reg.SLK_CAUSE ∧ ∀ p < 8, Reg.SLK_ABS + 4 * (n / 32) ≠ Reg.SLK_LCNT_RX + 0x40 * p := by
    refine ⟨?_, fun p hp => ?_⟩ <;> simp only [Reg.SLK_ABS, Reg.SLK_CAUSE, Reg.SLK_LCNT_RX] <;> omega
  have h1 : CarActed s (setStn n { stnSt s n with state := st } s) := .of_same hw rfl rfl rfl
  have h2 := h1.trans (.setBit h1.wf hp.1 hp.2 (n % 32) (st == 2))
  exact h2.trans (.setBit h2.wf ha.1 ha.2 (n % 32) (st == 3))

theorem joinEnd_acted (p : Nat) {s : State} (hw : RegsWf s) : CarActed s (joinEnd p s) := by
  cases h : (lineSt s p).joinPhase
  · rw [joinEnd_joined h]
    exact .refl hw
  · have hj : CarActed s (lineJoined p s) := .setLine hw rfl
    rw [joinEnd_joining h]
    split
    · exact hj.trans (.causeS hj.wf (by decide) 0)
    · exact hj

theorem joinCheck_acted (p : Nat) {s : State} (hw : RegsWf s) : CarActed s (joinCheck p s) := by
  unfold joinCheck
  split
  · exact joinEnd_acted p hw
  · exact .refl hw

end Sys2Proof.Machine

end


section
/-! ## The slots of returned input and join cars (R96, R118, R120, R121, R126) -/

open Sys2Proof Sys2Proof.Machine
namespace Sys2Proof.Machine

/-! ### An input slot -/

/-- R96: the rostered station of slot `k` of a car. -/
def slotStation (t : Timetable) (c : Car) (k : Nat) : Option Station := (slotPos c k).bind (stationAt t c.line)

theorem slotStation_mem {t : Timetable} {c : Car} {k : Nat} {r : Station} (h : slotStation t c k = some r) : r ∈ t.roster := by
  obtain ⟨q, -, hq⟩ := Option.bind_eq_some_iff.1 h
  exact List.mem_of_find?_eq_some hq

/-- R126: the slot's MAC verifies for its station. -/
def slotGood (p : Nat) (c : Car) (k : Nat) (r : Station) (s : State) : Bool :=
  macOk s c.line c.train r.station 2 (lineSt s p).epoch (slice c.body (64 * k) 56) (slice c.body (64 * k + 56) 8)

/-- The station has given its inputs. -/
def inputsGiven (c : Car) (k : Nat) (r : Station) (s : State) : State :=
  setStn r.station { stnSt s r.station with got := some (c.train, slice c.body (64 * k) 56) } s

/-- R121: and is PRESENT from then on. -/
def inputAccepted (c : Car) (k : Nat) (r : Station) (s : State) : State :=
  if (stnSt s r.station).state = 1 ∨ (stnSt s r.station).state = 3 then
    joinCheck c.line (stnState r.station 2 (inputsGiven c k r s))
  else inputsGiven c k r s

/-- The failed MAC is counted at the station and at its port. -/
def inputFailed (c : Car) (r : Station) (s : State) : State :=
  incFld (Reg.SLK_LCNT_MAC + 0x40 * c.line) 15 0
    (setStn r.station { stnSt s r.station with macFail := satInc 16 (stnSt s r.station).macFail } s)

theorem inputSlot_unrostered {p : Nat} {c : Car} {k : Nat} {s : State} (h : slotStation (theTt s) c k = none) :
    inputSlot p c k s = s := by
  unfold inputSlot
  rw [show (slotPos c k).bind (stationAt (theTt s) c.line) = none from h]

theorem inputSlot_unwritten {p : Nat} {c : Car} {k : Nat} {s : State} (h : bit c.ack k = false) : inputSlot p c k s = s := by
  unfold inputSlot
  split
  · rfl
  · simp [h]

theorem inputSlot_written {p : Nat} {c : Car} {k : Nat} {s : State} {r : Station} (h : slotStation (theTt s) c k = some r)
    (hb : bit c.ack k = true) :
    inputSlot p c k s = if slotGood p c k r s then inputAccepted c k r s else inputFailed c r s := by
  unfold inputSlot
  rw [show (slotPos c k).bind (stationAt (theTt s) c.line) = some r from h]
  simp only [hb]
  rfl

/-- The counts of MACs and of drop-offs of a line count no car. -/
theorem CarActed.incLine {s : State} (hw : RegsWf s) {a : Nat} (ha : a = Reg.SLK_LCNT_MAC ∨ a = Reg.SLK_LCNT_DROP)
    (p hi lo : Nat) : CarActed s (incFld (a + 0x40 * p) hi lo s) := by
  refine .setReg hw ?_ (fun q _ => ?_) _ <;>
    simp only [Reg.SLK_LCNT_MAC, Reg.SLK_LCNT_DROP] at ha <;>
    simp only [Reg.SLK_CAUSE, Reg.SLK_LCNT_RX] <;> omega

theorem inputAccepted_acted (c : Car) (k : Nat) {r : Station} (hr : r.station < 2048) {s : State} (hw : RegsWf s) :
    CarActed s (inputAccepted c k r s) := by
  have h1 : CarActed s (inputsGiven c k r s) := .of_same hw rfl rfl rfl
  unfold inputAccepted
  split
  · have h2 := h1.trans (stnState_acted hr 2 h1.wf)
    exact h2.trans (joinCheck_acted _ h2.wf)
  · exact h1

theorem inputSlot_acted (p : Nat) (c : Car) (k : Nat) {s : State} (hw : RegsWf s) (hn : ∀ r ∈ (theTt s).roster, r.station < 2048) :
    CarActed s (inputSlot p c k s) := by
  cases hb : bit c.ack k
  · rw [inputSlot_unwritten hb]
    exact .refl hw
  cases hs : slotStation (theTt s) c k with
  | none =>
    rw [inputSlot_unrostered hs]
    exact .refl hw
  | some r =>
    rw [inputSlot_written hs hb]
    split
    · exact inputAccepted_acted c k (hn r (slotStation_mem hs)) hw
    · have h1 : CarActed s (setStn r.station { stnSt s r.station with macFail := satInc 16 (stnSt s r.station).macFail } s) :=
        .of_same hw rfl rfl rfl
      exact h1.trans (.incLine h1.wf (.inl rfl) ..)

/-! ### A join slot -/

/-- The 32 bytes of join slot `k`. -/
def joinBytes (c : Car) (k : Nat) : List Byte := slice c.body (32 * k) 32

/-- R118: a station has written a request into the slot. -/
def JoinAsked (c : Car) (k : Nat) : Prop := bit c.ack k = true ∧ u8 (joinBytes c k) 3 = 1

/-- R120: the station of the line that a request names. -/
def joinStation (t : Timetable) (p : Nat) (c : Car) (k : Nat) : Option Station :=
  (lineRoster t p).find? (fun r => r.station == u16 (joinBytes c k) 0)

/-- R120: the request verifies and matches the roster. -/
def JoinOk (p : Nat) (c : Car) (k : Nat) (r : Station) (s : State) : Prop :=
  macOk s p c.train (u16 (joinBytes c k) 0) 3 (lineSt s p).epoch ((joinBytes c k).take 24) ((joinBytes c k).drop 24) = true ∧
    u8 (joinBytes c k) 2 = r.position ∧ u32 (joinBytes c k) 4 = r.stationId.toNat ∧
    (r.member = 0 ∨ u16 (joinBytes c k) 8 = r.member)

theorem joinStation_mem {t : Timetable} {p : Nat} {c : Car} {k : Nat} {r : Station} (h : joinStation t p c k = some r) :
    r ∈ t.roster ∧ r.station = u16 (joinBytes c k) 0 :=
  ⟨(List.mem_filter.1 (List.mem_of_find?_eq_some h)).1, by simpa using List.find?_some h⟩

theorem joinSlot_asked_iff {c : Car} {k : Nat} : (!bit c.ack k || u8 (joinBytes c k) 3 != 1) = true ↔ ¬ JoinAsked c k := by
  rw [JoinAsked]
  cases bit c.ack k <;> simp

theorem joinSlot_unasked {p : Nat} {c : Car} {k : Nat} {s : State} (h : ¬ JoinAsked c k) : joinSlot p c k s = s :=
  if_pos (joinSlot_asked_iff.2 h)

theorem joinSlot_unknown {p : Nat} {c : Car} {k : Nat} {s : State} (h : JoinAsked c k) (hs : joinStation (theTt s) p c k = none) :
    joinSlot p c k s = joinRefuse p (u8 (joinBytes c k) 2) (u16 (joinBytes c k) 0) none s := by
  refine (if_neg fun hn => joinSlot_asked_iff.1 hn h).trans ?_
  rw [show (lineRoster (theTt s) p).find? (fun r => r.station == u16 (slice c.body (32 * k) 32) 0) = none from hs]
  rfl

/-- A request of a rostered station is admitted if it matches. -/
theorem joinSlot_ok {p : Nat} {c : Car} {k : Nat} {s : State} {r : Station} (h : JoinAsked c k)
    (hs : joinStation (theTt s) p c k = some r) (hok : JoinOk p c k r s) :
    joinSlot p c k s = joinAdmit p r (u32 (joinBytes c k) 0xC) s := by
  refine (if_neg fun hn => joinSlot_asked_iff.1 hn h).trans ?_
  rw [show (lineRoster (theTt s) p).find? (fun r => r.station == u16 (slice c.body (32 * k) 32) 0) = some r from hs]
  exact if_pos hok

theorem joinSlot_mismatch {p : Nat} {c : Car} {k : Nat} {s : State} {r : Station} (h : JoinAsked c k)
    (hs : joinStation (theTt s) p c k = some r) (hok : ¬ JoinOk p c k r s) :
    joinSlot p c k s = joinRefuse p (u8 (joinBytes c k) 2) (u16 (joinBytes c k) 0) (some r) s := by
  refine (if_neg fun hn => joinSlot_asked_iff.1 hn h).trans ?_
  rw [show (lineRoster (theTt s) p).find? (fun r => r.station == u16 (slice c.body (32 * k) 32) 0) = some r from hs]
  exact if_neg hok

theorem addCmd_acted (p : Nat) (x : SlotCmd) {s : State} (hw : RegsWf s) : CarActed s (addCmd p x s) := by
  unfold addCmd
  extract_lets y refused
  split
  · exact .refl hw
  · exact .setLine hw rfl

theorem evRaise_acted (code source : Nat) (d0 d1 : Word) {s : State} (hw : RegsWf s) : CarActed s (evRaise code source d0 d1 s) := by
  refine .of_recorded hw (evRaise_recorded ..) (evRaise_regs code source d0 d1 s) (by decide) fun p hp => ?_
  simp [Reg.SLK_LCNT_RX, Reg.MGT_CAUSE, Reg.MGT_EVR_CNT]
  omega

/-- R123: what a restart of a station leaves besides its state. -/
def joinRestarted (p : Nat) (r : Station) (s : State) : State :=
  if (stnSt s r.station).state = 2 ∨ (stnSt s r.station).state = 3 then
    evRaise 0x4080 r.station (BitVec.ofNat 32 p) (BitVec.ofNat 32 (r.position + 1))
      (stnRestarted r.station (incFld (Reg.SLK_LCNT_DROP + 0x40 * p) 31 16 s))
  else s

theorem joinAdmit_eq (p : Nat) (r : Station) (nonce : Nat) (s : State) : joinAdmit p r nonce s =
    addCmd p { pos := r.position, station := r.station, admits := true, nonce := nonce }
      (stnState r.station 1 (joinRestarted p r s)) := rfl

theorem joinRestarted_acted (p : Nat) (r : Station) {s : State} (hw : RegsWf s) : CarActed s (joinRestarted p r s) := by
  unfold joinRestarted
  split
  · have h1 := CarActed.incLine hw (.inr rfl) p 31 16
    have h2 := h1.trans (.of_same (t := stnRestarted r.station (incFld (Reg.SLK_LCNT_DROP + 0x40 * p) 31 16 s)) h1.wf rfl rfl rfl)
    exact h2.trans (evRaise_acted _ _ _ _ h2.wf)
  · exact .refl hw

theorem joinAdmit_acted (p : Nat) {r : Station} (hr : r.station < 2048) (nonce : Nat) {s : State} (hw : RegsWf s) :
    CarActed s (joinAdmit p r nonce s) := by
  have h1 := joinRestarted_acted p r hw
  have h2 := h1.trans (stnState_acted hr 1 h1.wf)
  exact h2.trans (addCmd_acted _ _ h2.wf)

/-- R120: the refusal that the next train carries at a position of the line. -/
def joinDenied (p pos station : Nat) (s : State) : State :=
  if pos < ((theTt s).line p).stations then addCmd p { pos := pos, station := station } s else s

/-- A rostered station whose request is refused is REFUSED. -/
def stnRefused (r : Option Station) (s : State) : State := r.elim s (stnState ·.station 4 s)

theorem joinRefuse_eq (p pos station : Nat) (r : Option Station) (s : State) : joinRefuse p pos station r s =
    causeS Reg.SLK_CAUSE 1 station
      (incFld (Reg.SLK_LCNT_MAC + 0x40 * p) 31 16 (stnRefused r (joinDenied p pos station s))) := by
  cases r <;> rfl

theorem joinDenied_acted (p pos station : Nat) {s : State} (hw : RegsWf s) : CarActed s (joinDenied p pos station s) := by
  unfold joinDenied
  split
  · exact addCmd_acted _ _ hw
  · exact .refl hw

theorem stnRefused_acted {r : Option Station} (hr : ∀ x ∈ r, x.station < 2048) {s : State} (hw : RegsWf s) :
    CarActed s (stnRefused r s) := by
  cases r with
  | none => exact .refl hw
  | some r => exact stnState_acted (hr r rfl) 4 hw

theorem joinRefuse_acted (p pos station : Nat) {r : Option Station} (hr : ∀ x ∈ r, x.station < 2048) {s : State} (hw : RegsWf s) :
    CarActed s (joinRefuse p pos station r s) := by
  rw [joinRefuse_eq]
  have h1 := joinDenied_acted p pos station hw
  have h2 := h1.trans (stnRefused_acted hr h1.wf)
  have h3 := h2.trans (.incLine h2.wf (.inl rfl) p 31 16)
  exact h3.trans (.causeS h3.wf (by decide) station)

theorem joinSlot_acted (p : Nat) (c : Car) (k : Nat) {s : State} (hw : RegsWf s) (hn : ∀ r ∈ (theTt s).roster, r.station < 2048) :
    CarActed s (joinSlot p c k s) := by
  by_cases ha : JoinAsked c k
  · cases hs : joinStation (theTt s) p c k with
    | none =>
      rw [joinSlot_unknown ha hs]
      exact joinRefuse_acted _ _ _ (by simp) hw
    | some r =>
      have hr := hn r (joinStation_mem hs).1
      by_cases hok : JoinOk p c k r s
      · rw [joinSlot_ok ha hs hok]
        exact joinAdmit_acted p hr _ hw
      · rw [joinSlot_mismatch ha hs hok]
        exact joinRefuse_acted _ _ _ (fun x hx => Option.some.inj hx ▸ hr) hw
  · rw [joinSlot_unasked ha]
    exact .refl hw

/-! ### The time car (R113, R141) -/

/-- R141: the round trip of a time car, in registers. -/
def timeCounted (p rt : Nat) (s : State) : State :=
  setReg (Reg.SLK_LRT + 0x40 * p) (BitVec.ofNat 32 (rt % 2 ^ 32)) (maxFld (Reg.SLK_LRTMAX + 0x40 * p) 31 0 (rt % 2 ^ 32) s)

/-- R113: and what the next time car carries of it. -/
def timeTaken (p rt : Nat) (c : Car) (s : State) : State :=
  setLine p { lineSt (timeCounted p rt s) p with
    prev := (c.train, rt % 2 ^ 32, u32 c.body 0x14)
    turnPos := c.hops % 512 } (timeCounted p rt s)

theorem maxFld_acted (p v : Nat) {s : State} (hw : RegsWf s) : CarActed s (maxFld (Reg.SLK_LRTMAX + 0x40 * p) 31 0 v s) := by
  unfold maxFld
  split
  · refine .setReg hw ?_ (fun q _ => ?_) _ <;> simp only [Reg.SLK_LRTMAX, Reg.SLK_CAUSE, Reg.SLK_LCNT_RX] <;> omega
  · exact .refl hw

theorem timeCounted_acted (p rt : Nat) {s : State} (hw : RegsWf s) : CarActed s (timeCounted p rt s) := by
  have h1 := maxFld_acted p (rt % 2 ^ 32) hw
  refine h1.trans (.setReg h1.wf ?_ (fun q _ => ?_) _) <;> simp only [Reg.SLK_LRT, Reg.SLK_CAUSE, Reg.SLK_LCNT_RX] <;> omega

theorem timeTaken_acted (p rt : Nat) (c : Car) {s : State} (hw : RegsWf s) : CarActed s (timeTaken p rt c s) :=
  have h1 := timeCounted_acted p rt hw
  h1.trans (.setLine h1.wf rfl)

end Sys2Proof.Machine

end


section
/-! ## The rows of returned cars (R90, R91, R94, R111, R113, R141) -/

open Sys2Proof Sys2Proof.Machine
namespace Sys2Proof.Machine

/-! ### A car is counted, marked and judged -/

/-- `y` differs from `x` in the marks of its cars and in what is known of its ring only. -/
def SeenOn (x y : LineSt) : Prop := y = { x with
  cars := y.cars
  full := y.full
  broken := y.broken
  breakPos := y.breakPos }

theorem SeenOn.refl (x : LineSt) : SeenOn x x := rfl

theorem SeenOn.trans {x y z : LineSt} (h : SeenOn x y) (k : SeenOn y z) : SeenOn x z := by
  unfold SeenOn at h k ⊢
  rw [k, h]

/-- `t` follows from `s` by counting, marking and judging a car that came back on port `p`. -/
structure CarSeen (p : Nat) (s t : State) : Prop where
  dev : t.dev = s.dev
  img : t.img = s.img
  stns : t.slk.stns = s.slk.stns
  count : t.slk.lines.length = s.slk.lines.length
  regs : RegsExcept ((Reg.SLK_LCNT_RX + 0x40 * p) :: slkCauseRegs) s t
  line : ∀ q, SeenOn (lineSt s q) (lineSt t q)

theorem CarSeen.trans {p : Nat} {s t u : State} (h : CarSeen p s t) (k : CarSeen p t u) : CarSeen p s u :=
  ⟨k.dev.trans h.dev, k.img.trans h.img, k.stns.trans h.stns, k.count.trans h.count, h.regs.trans k.regs,
    fun q => (h.line q).trans (k.line q)⟩

theorem CarSeen.tt {p : Nat} {s t : State} (h : CarSeen p s t) : theTt t = theTt s := theTt_congr h.dev

/-- A write of the line, and what is recorded of it. -/
theorem CarSeen.of_recorded {p : Nat} {s t : State} {y : LineSt} (h : Recorded (setLine p y s) t) (hy : SeenOn (lineSt s p) y)
    {as : List Nat} (hr : RegsExcept as s t) (ha : ∀ a ∈ as, a ∈ (Reg.SLK_LCNT_RX + 0x40 * p) :: slkCauseRegs) : CarSeen p s t := by
  refine ⟨h.dev, h.img, by rw [h.slk]; rfl, by rw [h.slk, setLine_lines_length], hr.mono ha, fun q => ?_⟩
  rw [h.line]
  exact lineSt_setLine_keeps SeenOn .refl hy q

theorem carBack_seen (p : Nat) (c : Car) (late : Bool) (s : State) : CarSeen p s (carBack p c late s) :=
  .of_recorded (carBack_recorded p c late s) rfl (carBack_regs p c late s) (by simp)

theorem ringSeen_seen (p : Nat) (c : Car) {s : State} (hw : RegsWf s) : CarSeen p s (ringSeen p c s) := by
  unfold ringSeen
  split
  · exact ⟨rfl, rfl, rfl, rfl, .refl _ _, fun _ => .refl _⟩
  · obtain ⟨hrec, hregs, -, -⟩ := ringJudge_laws p c hw
    exact .of_recorded hrec rfl hregs fun a => List.mem_cons_of_mem _

theorem ringSeen_cars {p : Nat} (c : Car) {s : State} (hw : RegsWf s) (hp : p < s.slk.lines.length) :
    (lineSt (ringSeen p c s) p).cars = (lineSt s p).cars := by
  unfold ringSeen
  split
  · rfl
  · rw [(ringJudge_laws p c hw).1.line, lineSt_setLine_same hp]
    rfl

/-- Judging a car leaves the counts of returned cars. -/
theorem ringSeen_regs (p : Nat) (c : Car) {s : State} (hw : RegsWf s) : RegsExcept slkCauseRegs s (ringSeen p c s) := by
  unfold ringSeen
  split
  · exact .refl _ _
  · exact (ringJudge_laws p c hw).2.1

/-- A car that is on time shows its ring whole to the last station, or broken. -/
theorem ringSeen_laws {p : Nat} {c : Car} {s : State} (hw : RegsWf s) (hp : p < s.slk.lines.length)
    (hr : onRing (theTt s) p = true) (hg : c.guest = false) : let u := ringSeen p c s
    (c.last + 1 ≤ c.hops → (lineSt u p).broken = false ∧
      ((lineSt s p).broken = true → getBit u Reg.SLK_CAUSE 3 = true)) ∧
    (c.hops < c.last + 1 → (lineSt u p).broken = true ∧ (lineSt u p).breakPos = c.hops ∧
      ((lineSt s p).broken = false → getBit u Reg.SLK_CAUSE 2 = true)) := by
  intro u
  have hu : u = ringJudge p c s := by simp [u, ringSeen, hg]
  obtain ⟨hrec, -, hheal, hbreak⟩ := ringJudge_laws p c hw
  rw [hu, hrec.line, lineSt_setLine_same hp]
  refine ⟨fun hf => ⟨?_, hheal hr hf⟩, fun hf => ⟨?_, ?_, hbreak hr hf⟩⟩
  · simp [ringLine, hr, hf]
  · simpa [ringLine, hr] using hf
  · have hn : ¬ c.last + 1 ≤ c.hops := by omega
    simp [ringLine, hr, hn]

/-- Port registers are not those of the causes. -/
theorem portReg_not_cause {a p : Nat} (ha : 0x40400 ≤ a) (hp : a + 0x40 * p < 0xE0000) : a + 0x40 * p ∉ slkCauseRegs := by
  simp [Reg.SLK_CAUSE, Reg.MGT_CAUSE, Reg.MGT_EVR_CNT]
  omega

/-! ### What a time car tells -/

theorem getFld_maxFld {a v : Nat} {s : State} (hw : RegsWf s) (hv : v < 2 ^ 32) :
    getFld (maxFld a 31 0 v s) a 31 0 = max (getFld s a 31 0) v := by
  unfold maxFld
  split
  · rw [getFld_setFld _ _ _ _ hw (by decide) (by decide), Nat.mod_eq_of_lt hv]
    omega
  · omega

theorem maxFld_regs (a hi lo v : Nat) (s : State) : RegsExcept [a] s (maxFld a hi lo v s) := by
  unfold maxFld
  split
  · exact setFld_regs a hi lo v s
  · exact .refl _ _

/-- R113, R141: the round trip, its maximum, and what the next time car carries. -/
theorem timeTaken_laws {p : Nat} (rt : Nat) (c : Car) {s : State} (hw : RegsWf s) (hp : p < s.slk.lines.length) :
    (lineSt (timeTaken p rt c s) p).prev = (c.train, rt % 2 ^ 32, u32 c.body 0x14) ∧
    getReg (timeTaken p rt c s) (Reg.SLK_LRT + 0x40 * p) = BitVec.ofNat 32 rt ∧
    getFld (timeTaken p rt c s) (Reg.SLK_LRTMAX + 0x40 * p) 31 0 =
      max (getFld s (Reg.SLK_LRTMAX + 0x40 * p) 31 0) (rt % 2 ^ 32) := by
  obtain ⟨hwm, -⟩ := maxFld_regs (Reg.SLK_LRTMAX + 0x40 * p) 31 0 (rt % 2 ^ 32) s hw
  have hlt : p < (timeCounted p rt s).slk.lines.length := by
    unfold timeCounted maxFld
    split <;> exact hp
  have hne : Reg.SLK_LRTMAX + 0x40 * p ≠ Reg.SLK_LRT + 0x40 * p := by simp [Reg.SLK_LRTMAX, Reg.SLK_LRT]
  refine ⟨congrArg LineSt.prev (lineSt_setLine_same hlt _), ?_, ?_⟩
  · refine (getReg_setReg _ _ _ _ hwm).trans ((if_pos rfl).trans ?_)
    exact BitVec.eq_of_toNat_eq (by simp)
  · refine (getFld_congr ((getReg_setReg _ _ _ _ hwm).trans (if_neg hne)) 31 0).trans ?_
    exact getFld_maxFld hw (Nat.mod_lt _ (by decide))

/-! ### The four rows -/

/-- A row is that of a returned car, with an act on its content. -/
structure CarRow (p rt : Nat) (f : List Byte) (r : Nat × Instr) (act : Car → State → State) : Prop where
  exec : ∀ s, exec r.2 s = onCar r.1 p f act s
  acted : ∀ c s, RegsWf s → (∀ r ∈ (theTt s).roster, r.station < 2048) → CarActed s (act c s)
  time : r.1 = 1 → act = timeTaken p rt

theorem carRow_of_mem {p rt : Nat} {f : List Byte} {r : Nat × Instr}
    (h : r ∈ [(1, Instr.timeCarReturn p f rt), (2, .outputCarReturn p f), (3, .inputCarReturn p f), (4, .joinCarReturn p f)]) :
    ∃ act, CarRow p rt f r act := by
  simp only [List.mem_cons, List.not_mem_nil, or_false] at h
  obtain rfl | rfl | rfl | rfl := h
  · exact ⟨timeTaken p rt, fun _ => rfl, fun c s hw _ => timeTaken_acted p rt c hw, fun _ => rfl⟩
  · exact ⟨fun _ s => s, fun _ => rfl, fun _ _ hw _ => .refl hw, by simp⟩
  · refine ⟨fun c s => forN c.slots s (inputSlot p c), fun _ => rfl, fun c s hw hn => ?_, by simp⟩
    exact .forN _ _ hw fun k t ht hd => inputSlot_acted p c k ht (theTt_congr hd ▸ hn)
  · refine ⟨fun c s => forN 16 s (joinSlot p c), fun _ => rfl, fun c s hw hn => ?_, by simp⟩
    exact .forN _ _ hw fun k t ht hd => joinSlot_acted p c k ht (theTt_congr hd ▸ hn)

/-- What the row does with a car of its kind that is on time. -/
theorem CarRow.onTime {p rt : Nat} {f : List Byte} {r : Nat × Instr} {act : Car → State → State} (h : CarRow p rt f r act)
    {c : Car} {s : State} (hw : RegsWf s) (hn : ∀ r ∈ (theTt s).roster, r.station < 2048) (hc : rxJudge s p f = .car c)
    (hk : c.kind = r.1) (hl : carLate s p = false) :
    ∃ t, Machine.exec r.2 s = .next t ∧ CarActed (ringSeen p c (carBack p c false s)) t ∧
      (r.1 = 1 → t = timeTaken p rt c (ringSeen p c (carBack p c false s))) := by
  have hseen := (carBack_seen p c false s).trans (ringSeen_seen p c ((carBack_seen p c false s).regs hw).1)
  refine ⟨_, (h.exec s).trans (onCar_onTime act hc hk hl), h.acted c _ (hseen.regs hw).1 ?_, fun h1 => by rw [h.time h1]⟩
  rw [theTt_congr hseen.dev]
  exact hn

end Sys2Proof.Machine

/-- Settles O48: the row of each kind is `onCar`, which counts and marks the car, judges its ring, and acts on its content. -/
theorem returnedCars : Obligations.ReturnedCars := by
  intro p rt f s hw hn r hr
  obtain ⟨act, hrow⟩ := carRow_of_mem hr
  refine ⟨fun hc => (hrow.exec s).trans (onCar_other act hc), fun c hc hk hp hlen hix => ?_⟩
  intro x car late ring
  have hlt : p < s.slk.lines.length := hlen ▸ hp
  have hback := carBack_line c late hlt
  have hmark : car.returned = false → nth (lineSt (carBack p c late s) p).cars c.index {} =
      { car with returned := true, late := late, ack := c.ack, fault := c.fault } := fun hret => by
    rw [hback, lineMarked, nth_setNth_eq _ _ _ _ hix]
    exact if_neg fun h => Bool.false_ne_true (hret.symm.trans h)
  have hcount := carBack_counts p c late hw
  cases hl : carLate s p
  · have hlate : late = false := hl
    obtain ⟨t, ht, hact, htime⟩ := hrow.onTime hw hn hc hk hl
    rw [← hlate] at hact htime
    have hseen := carBack_seen p c late s
    have hw0 := (hseen.regs hw).1
    have hlt0 : p < (carBack p c late s).slk.lines.length := hseen.count ▸ hlt
    have hall := hseen.trans (ringSeen_seen p c hw0)
    have hlt1 : p < (ringSeen p c (carBack p c late s)).slk.lines.length := hall.count ▸ hlt
    have hline := hact.line p
    have hrx := (ringSeen_regs p c hw0 hw0).2 _ (portReg_not_cause (a := Reg.SLK_LCNT_RX) (p := p) (by decide)
      (by simp only [Reg.SLK_LCNT_RX]; omega))
    have hring (h : ring) := ringSeen_laws hw0 hlt0 (onRing_iff.2 ⟨hseen.tt ▸ h.1, hseen.tt ▸ h.2.1⟩) h.2.2.1
    refine ⟨t, ht, (hact.received p hp).trans (hrx.trans hcount), fun hret => ?_, fun h => absurd (hlate.symm.trans h) Bool.false_ne_true,
      fun _ h1 => ?_, fun h hf => ?_, fun h hf => ?_⟩
    · rw [hline, ringSeen_cars c hw0 hlt0]
      exact hmark hret
    · obtain ⟨hprev, hlrt, hmax⟩ := timeTaken_laws rt c (hall.regs hw).1 hlt1
      have hmax0 := (hall.regs hw).2 (Reg.SLK_LRTMAX + 0x40 * p) (by
        simp [Reg.SLK_LRTMAX, Reg.SLK_LCNT_RX, Reg.SLK_CAUSE, Reg.MGT_CAUSE, Reg.MGT_EVR_CNT]
        omega)
      rw [htime h1]
      exact ⟨hprev, hlrt, hmax.trans (by rw [getFld_congr hmax0])⟩
    · obtain ⟨hwhole, hheal⟩ := (hring h).1 hf
      refine ⟨hline ▸ hwhole, fun hb => hact.cause 3 (hheal ?_)⟩
      rw [hback]
      exact hb
    · obtain ⟨hbroken, hpos, hbreak⟩ := (hring h).2 hf
      refine ⟨hline ▸ hbroken, hline ▸ hpos, fun hb => hact.cause 2 (hbreak ?_)⟩
      rw [hback]
      exact hb
  · have hlate : late = true := hl
    refine ⟨_, (hrow.exec s).trans (onCar_late act hc hk hl), ?_⟩
    rw [hlate] at hback hmark hcount ⊢
    exact ⟨hcount, hmark, fun _ => ⟨rfl, rfl, by rw [hback]; rfl⟩, Bool.noConfusion,
      fun h => absurd (hlate.symm.trans h.2.2.2) Bool.noConfusion, fun h => absurd (hlate.symm.trans h.2.2.2) Bool.noConfusion⟩

end


section
/-! ## Input slots and join requests (R120, R121, R126) -/

open Sys2Proof Sys2Proof.Machine
namespace Sys2Proof.Machine

/-! ### MACs -/

/-- Whether a MAC verifies depends on the timetable and on the master key that the line uses. -/
theorem macOk_congr {s t : State} {p : Nat} (hd : theTt t = theTt s) (hm : (lineSt t p).master = (lineSt s p).master)
    (train st kind e : Nat) (data mac : List Byte) : macOk t p train st kind e data mac = macOk s p train st kind e data mac := by
  simp only [macOk, slotMac, hd, hm]

/-- A car that is seen, or acted on, leaves what verifies the slots of the next. -/
structure SameKeys (s t : State) : Prop where
  tt : theTt t = theTt s
  master : ∀ p, (lineSt t p).master = (lineSt s p).master
  epoch : ∀ p, (lineSt t p).epoch = (lineSt s p).epoch

theorem CarSeen.keys {p : Nat} {s t : State} (h : CarSeen p s t) : SameKeys s t :=
  ⟨h.tt, fun q => by rw [h.line q], fun q => by rw [h.line q]⟩

theorem CarActed.keys {s t : State} (h : CarActed s t) : SameKeys s t :=
  ⟨theTt_congr h.dev, fun q => by rw [h.line q], fun q => by rw [h.line q]⟩

theorem SameKeys.trans {s t u : State} (h : SameKeys s t) (k : SameKeys t u) : SameKeys s u :=
  ⟨k.tt.trans h.tt, fun q => (k.master q).trans (h.master q), fun q => (k.epoch q).trans (h.epoch q)⟩

theorem SameKeys.slotGood {s t : State} (h : SameKeys s t) (p : Nat) (c : Car) (k : Nat) (r : Station) :
    slotGood p c k r t = slotGood p c k r s := by
  rw [Machine.slotGood, macOk_congr h.tt (h.master _), h.epoch]
  rfl

theorem SameKeys.joinOk {s t : State} (h : SameKeys s t) (p : Nat) (c : Car) (k : Nat) (r : Station) :
    JoinOk p c k r t ↔ JoinOk p c k r s := by
  rw [JoinOk, macOk_congr h.tt (h.master _), h.epoch]
  rfl

/-! ### Input slots -/

/-- A station's record after its slot: nothing was written, its inputs have come, or its MAC failed. -/
def stnAfter (c : Car) (k : Nat) (good : Bool) (x : StnSt) : StnSt :=
  if bit c.ack k then
    if good then { x with
      got := some (c.train, slice c.body (64 * k) 56)
      state := if x.state = 1 ∨ x.state = 3 then 2 else x.state }
    else { x with macFail := satInc 16 x.macFail }
  else x

theorem inputSlot_beside {p : Nat} {c : Car} {j n : Nat} {s : State} (h : InputsWf s)
    (hn : ∀ r, slotStation (theTt s) c j = some r → r.station ≠ n) : Beside n s (inputSlot p c j s) := by
  cases hb : bit c.ack j
  · rw [inputSlot_unwritten hb]
    exact .refl h
  cases hs : slotStation (theTt s) c j with
  | none =>
    rw [inputSlot_unrostered hs]
    exact .refl h
  | some r =>
    have hr := hn r hs
    rw [inputSlot_written hs hb]
    split
    · have h1 : Beside n s (inputsGiven c j r s) := .setStn h hr _
      unfold inputAccepted
      split
      · have h2 := h1.trans ((Beside.setStn h1.wf hr _).trans (stnState_beside h1.wf 2))
        exact h2.trans (joinCheck_beside n c.line h2.wf)
      · exact h1
    · have h1 := Beside.setStn h hr { stnSt s r.station with macFail := satInc 16 (stnSt s r.station).macFail }
      have ha : Reg.SLK_LCNT_MAC + 0x40 * c.line ≠ Reg.SLK_CAUSE := by simp only [Reg.SLK_LCNT_MAC, Reg.SLK_CAUSE]; omega
      exact h1.trans (.setReg h1.wf ha _)

theorem inputAccepted_own {c : Car} {k : Nat} {r : Station} {s : State} (h : InputsWf s) :
    InputsWf (inputAccepted c k r s) ∧ stnSt (inputAccepted c k r s) r.station = { stnSt s r.station with
      got := some (c.train, slice c.body (64 * k) 56)
      state := if (stnSt s r.station).state = 1 ∨ (stnSt s r.station).state = 3 then 2 else (stnSt s r.station).state } := by
  have hg : InputsWf (inputsGiven c k r s) := setStn_wf _ _ h
  have hgs : stnSt (inputsGiven c k r s) r.station = _ := stnSt_setStn _ _ h
  unfold inputAccepted
  split
  · have hb := stnState_beside (n := r.station) (m := r.station) hg 2
    have hj := joinCheck_beside r.station c.line hb.wf
    refine ⟨hj.wf, ?_⟩
    rw [hj.stn, hb.stn, stnSt_setStn _ _ hg, hgs]
  · exact ⟨hg, hgs⟩

theorem inputSlot_own {p : Nat} {c : Car} {k : Nat} {r : Station} {s : State} (h : InputsWf s)
    (hs : slotStation (theTt s) c k = some r) : InputsWf (inputSlot p c k s) ∧
      stnSt (inputSlot p c k s) r.station = stnAfter c k (slotGood p c k r s) (stnSt s r.station) := by
  unfold stnAfter
  cases hb : bit c.ack k
  · rw [inputSlot_unwritten hb]
    exact ⟨h, rfl⟩
  · rw [inputSlot_written hs hb, if_pos rfl]
    cases slotGood p c k r s
    · have hw := setStn_wf r.station { stnSt s r.station with macFail := satInc 16 (stnSt s r.station).macFail } h
      exact ⟨⟨setReg_wf _ _ _ hw.regs, hw.stns, hw.si⟩, stnSt_setStn _ _ h⟩
    · exact inputAccepted_own h

/-- One slot of a car is its station's; the others do not touch the station. -/
theorem inputSlots_own {p : Nat} {c : Car} {k : Nat} {r : Station} {s : State} (h : InputsWf s)
    (hn : ∀ r ∈ (theTt s).roster, r.station < 2048) (hs : slotStation (theTt s) c k = some r) {m : Nat}
    (ho : ∀ j < m, j ≠ k → ∀ r', slotStation (theTt s) c j = some r' → r'.station ≠ r.station) :
    let t := forN m s (inputSlot p c)
    CarActed s t ∧ InputsWf t ∧ stnSt t r.station =
      if k < m then stnAfter c k (slotGood p c k r s) (stnSt s r.station) else stnSt s r.station := by
  induction m with
  | zero => exact ⟨.refl h.regs, h, rfl⟩
  | succ m ih =>
    obtain ⟨hact, hwf, hstn⟩ := ih fun j hj => ho j (by omega)
    have htt := hact.keys.tt
    rw [forN_succ]
    refine ⟨hact.trans (inputSlot_acted p c m hwf.regs (htt ▸ hn)), ?_⟩
    by_cases hm : m = k
    · subst hm
      obtain ⟨hw, hown⟩ := inputSlot_own (p := p) hwf (htt ▸ hs)
      refine ⟨hw, ?_⟩
      rw [hown, hstn, hact.keys.slotGood, if_neg (by omega), if_pos (by omega)]
    · have hb := inputSlot_beside (p := p) hwf (htt ▸ ho m (by omega) hm)
      have hlt : k < m ↔ k < m + 1 := by omega
      exact ⟨hb.wf, by rw [hb.stn, hstn]; simp only [hlt]⟩

/-! ### Join slots -/

/-- A loop of which one round alone does something. -/
theorem forN_only {σ : Type} {n k : Nat} (s : σ) (f : Nat → σ → σ) (ho : ∀ j < n, j ≠ k → ∀ t, f j t = t) (hk : k < n) :
    forN n s f = f k s := by
  have hm (m : Nat) (hm : m ≤ n) : forN m s f = if k < m then f k s else s := by
    induction m with
    | zero => rfl
    | succ m ih =>
      rw [forN_succ, ih (by omega)]
      by_cases h : m = k
      · subst h
        rw [if_neg (by omega), if_pos (by omega)]
      · have hlt : k < m ↔ k < m + 1 := by omega
        rw [ho m hm h]
        simp only [hlt]
  rw [hm n (le_refl n), if_pos hk]

/-- R140: a station's record after a change of its state; the others' are as they were. -/
theorem stnSt_stnState {n m st : Nat} {s : State} (h : smWf (fun _ => ({} : StnSt)) s.slk.stns = true) :
    stnSt (stnState n st s) m = if m = n then { stnSt s n with state := st } else stnSt s m := smGet_put _ _ _ _ _ h

theorem stnSt_congr {s t : State} (h : t.slk.stns = s.slk.stns) (n : Nat) : stnSt t n = stnSt s n := by rw [stnSt, h, stnSt]

theorem addCmd_stns (p : Nat) (x : SlotCmd) (s : State) : (addCmd p x s).slk.stns = s.slk.stns := by
  unfold addCmd
  extract_lets y refused
  split <;> rfl

theorem addCmd_regs (p : Nat) (x : SlotCmd) (s : State) : (addCmd p x s).regs = s.regs := by
  unfold addCmd
  extract_lets y refused
  split <;> rfl

/-- R120: a command that no refusal at its position precedes goes into the next train. -/
theorem mem_addCmd {p : Nat} {x : SlotCmd} {s : State} (hp : p < s.slk.lines.length)
    (h : x.admits = false ∨ (lineSt s p).cmds.any (fun y => y.pos == x.pos) = false) : x ∈ (lineSt (addCmd p x s) p).cmds := by
  have hr : (x.admits && (lineSt s p).cmds.any (fun y => y.pos == x.pos && !y.admits)) = false := by
    obtain h | h := h
    · rw [h, Bool.false_and]
    · have hany : (lineSt s p).cmds.any (fun y => y.pos == x.pos && !y.admits) = false := by
        simp only [List.any_eq_false, Bool.and_eq_true, beq_iff_eq] at h ⊢
        exact fun y hy hpos => h y hy hpos.1
      rw [hany, Bool.and_false]
  unfold addCmd
  dsimp only
  rw [hr, if_neg Bool.false_ne_true, lineSt_setLine_same hp]
  simp

theorem joinRestarted_slk (p : Nat) (r : Station) (s : State) : (joinRestarted p r s).slk = s.slk := by
  unfold joinRestarted
  split
  · rw [(evRaise_recorded ..).slk]
    rfl
  · rfl

/-- A request that is admitted: its station is JOINING, and the next train carries the admission. -/
theorem joinAdmit_laws {p : Nat} {r : Station} (nonce : Nat) {s : State} (h : smWf (fun _ => ({} : StnSt)) s.slk.stns = true)
    (hp : p < s.slk.lines.length) : let t := joinAdmit p r nonce s
    (∀ m, stnSt t m = if m = r.station then { stnSt s r.station with state := 1 } else stnSt s m) ∧
    ((lineSt s p).cmds.any (fun y => y.pos == r.position) = false →
      ({ pos := r.position, station := r.station, admits := true, nonce := nonce } : SlotCmd) ∈ (lineSt t p).cmds) := by
  have hk := joinRestarted_slk p r s
  refine ⟨fun m => ?_, fun hc => ?_⟩
  · rw [joinAdmit_eq, stnSt_congr (addCmd_stns ..), stnSt_stnState (by rwa [hk]), stnSt_congr (congrArg _ hk),
      stnSt_congr (congrArg _ hk)]
  · have hl : lineSt (stnState r.station 1 (joinRestarted p r s)) p = lineSt s p := by
      change nth (joinRestarted p r s).slk.lines p {} = _
      rw [hk]
      rfl
    refine mem_addCmd ?_ (.inr (hl ▸ hc))
    change p < (joinRestarted p r s).slk.lines.length
    rwa [hk]

theorem joinDenied_stns (p pos station : Nat) (s : State) : (joinDenied p pos station s).slk.stns = s.slk.stns := by
  unfold joinDenied
  split
  · exact addCmd_stns ..
  · rfl

theorem joinDenied_regs (p pos station : Nat) (s : State) : (joinDenied p pos station s).regs = s.regs := by
  unfold joinDenied
  split
  · exact addCmd_regs ..
  · rfl

/-- The registers of a station's state are not the ports' counts. -/
theorem stnState_lcnt {n : Nat} (hn : n < 2048) (st p : Nat) {s : State} (hw : RegsWf s) :
    RegsWf (stnState n st s) ∧
      getReg (stnState n st s) (Reg.SLK_LCNT_MAC + 0x40 * p) = getReg s (Reg.SLK_LCNT_MAC + 0x40 * p) := by
  have hr : RegsExcept [Reg.SLK_PRES + 4 * (n / 32), Reg.SLK_ABS + 4 * (n / 32)] s (stnState n st s) :=
    (RegsExcept.of_regs (t := setStn n { stnSt s n with state := st } s) rfl).trans
      (((setBit_regs _ (n % 32) (st == 2) _).mono (by simp)).trans ((setBit_regs _ (n % 32) (st == 3) _).mono (by simp)))
  refine ⟨(hr hw).1, (hr hw).2 _ ?_⟩
  simp [Reg.SLK_PRES, Reg.SLK_ABS, Reg.SLK_LCNT_MAC]
  omega

theorem stnRefused_lcnt {r : Option Station} (hr : ∀ x ∈ r, x.station < 2048) (p : Nat) {s : State} (hw : RegsWf s) :
    RegsWf (stnRefused r s) ∧
      getReg (stnRefused r s) (Reg.SLK_LCNT_MAC + 0x40 * p) = getReg s (Reg.SLK_LCNT_MAC + 0x40 * p) := by
  cases r with
  | none => exact ⟨hw, rfl⟩
  | some r => exact stnState_lcnt (hr r rfl) 4 p hw

theorem stnRefused_lines (r : Option Station) (s : State) : (stnRefused r s).slk.lines = s.slk.lines := by
  cases r <;> rfl

/-- A request that is refused is counted; its station is REFUSED, and the next train carries the refusal at its position. -/
theorem joinRefuse_laws {p pos station : Nat} {r : Option Station} (hr : ∀ x ∈ r, x.station < 2048) {s : State} (hw : RegsWf s)
    (h : smWf (fun _ => ({} : StnSt)) s.slk.stns = true) (hp : p < s.slk.lines.length) (hp8 : p < 8) :
    let t := joinRefuse p pos station r s
    (∀ m, stnSt t m = stnSt (stnRefused r s) m) ∧
    getFld t (Reg.SLK_LCNT_MAC + 0x40 * p) 31 16 = satInc 16 (getFld s (Reg.SLK_LCNT_MAC + 0x40 * p) 31 16) ∧
    getBit t Reg.SLK_CAUSE 1 = true ∧
    (pos < ((theTt s).line p).stations → ({ pos := pos, station := station } : SlotCmd) ∈ (lineSt t p).cmds) := by
  intro t
  have ht : t = _ := joinRefuse_eq p pos station r s
  have hdw : RegsWf (joinDenied p pos station s) := by rwa [RegsWf, joinDenied_regs]
  obtain ⟨hrw, hrl⟩ := stnRefused_lcnt hr p hdw
  obtain ⟨hiw, -⟩ := incFld_regs (Reg.SLK_LCNT_MAC + 0x40 * p) 31 16 _ hrw
  have hmac : Reg.SLK_LCNT_MAC + 0x40 * p ∉ Reg.SLK_CAUSE :: evRegs :=
    portReg_not_cause (by decide) (by simp only [Reg.SLK_LCNT_MAC]; omega)
  rw [ht]
  refine ⟨fun m => ?_, ?_, causeS_sets _ hiw (by decide) (by decide), fun hpos => ?_⟩
  · rw [(causeS_recorded ..).stn]
    change stnSt (stnRefused r (joinDenied p pos station s)) m = _
    cases r with
    | none => exact stnSt_congr (joinDenied_stns ..) m
    | some r =>
      refine (stnSt_stnState (by rwa [joinDenied_stns])).trans (.trans ?_ (stnSt_stnState h).symm)
      rw [stnSt_congr (joinDenied_stns ..), stnSt_congr (joinDenied_stns ..)]
  · rw [getFld_congr ((causeS_regs _ _ _ _ hiw).2 _ hmac), getFld_incFld _ _ _ hrw (by decide) (by decide), getFld_congr hrl]
    simp only [getFld, getReg, joinDenied_regs]
  · rw [(causeS_recorded ..).line]
    change _ ∈ (nth (stnRefused r (joinDenied p pos station s)).slk.lines p {}).cmds
    rw [stnRefused_lines, joinDenied, if_pos hpos]
    exact mem_addCmd hp (.inl rfl)

/-! ### Before the slots -/

theorem CarSeen.inputs {p : Nat} {s t : State} (h : CarSeen p s t) (hs : Canonical s) : InputsWf t :=
  ⟨(h.regs hs.regs).1, h.stns ▸ hs.stations, by rw [SiWf, h.img]; exact hs.si⟩

/-- The state in which the content of a car that is on time is acted on. -/
def carShown (p : Nat) (c : Car) (s : State) : State := ringSeen p c (carBack p c false s)

theorem carShown_seen (p : Nat) (c : Car) {s : State} (hw : RegsWf s) : CarSeen p s (carShown p c s) :=
  (carBack_seen p c false s).trans (ringSeen_seen p c ((carBack_seen p c false s).regs hw).1)

theorem inputCarReturn_exec {p : Nat} {f : List Byte} {c : Car} {s : State} (hc : rxJudge s p f = .car c) (hk : c.kind = 3)
    (hl : carLate s p = false) :
    exec (.inputCarReturn p f) s = .next (forN c.slots (carShown p c s) (inputSlot p c)) :=
  onCar_onTime (fun c s => forN c.slots s (inputSlot p c)) hc hk hl

/-- Of a join car with one request, only that request does something. -/
theorem joinCarReturn_exec {p k : Nat} {f : List Byte} {c : Car} {s : State} (hc : rxJudge s p f = .car c) (hk : c.kind = 4)
    (hl : carLate s p = false) (hlt : k < 16) (ho : ∀ j < 16, j ≠ k → bit c.ack j = false) :
    exec (.joinCarReturn p f) s = .next (joinSlot p c k (carShown p c s)) := by
  refine (onCar_onTime (fun c s => forN 16 s (joinSlot p c)) hc hk hl).trans (congrArg _ (forN_only _ _ (fun j hj hne t => ?_) hlt))
  exact joinSlot_unasked fun h => Bool.false_ne_true ((ho j hj hne).symm.trans h.1)

end Sys2Proof.Machine

/-- Settles O49: a slot touches its own station's record and keys no other slot's check; a request is admitted or refused. -/
theorem inputsAndRequests : Obligations.InputsAndRequests := by
  intro p k f c s hs hn hc hl
  have hseen := carShown_seen p c hs.regs
  have hin := hseen.inputs hs
  refine ⟨fun r hk hks hpos hst ho => ?_, fun hk hks hp hlen => ?_⟩
  · intro x data good
    have hslot : slotStation (theTt s) c k = some r := by rw [slotStation, hpos]; exact hst
    have hother : ∀ j < c.slots, j ≠ k → ∀ r', slotStation (theTt s) c j = some r' → r'.station ≠ r.station := by
      intro j hj hne r' hr'
      obtain ⟨q, hq, hqr⟩ := Option.bind_eq_some_iff.1 hr'
      exact ho j hj hne q r' hq hqr
    rw [← hseen.tt] at hslot hother hn
    obtain ⟨-, -, hstn⟩ := inputSlots_own hin hn hslot hother
    rw [if_pos hks, stnSt_congr hseen.stns, hseen.keys.slotGood] at hstn
    refine ⟨_, inputCarReturn_exec hc hk hl, fun hb => ?_, fun hb hg => ?_, fun hb hg => ?_⟩
    · rw [hstn, stnAfter, hb]
      rfl
    · rw [hstn, stnAfter, if_pos hb]
      exact if_pos hg
    · rw [hstn, stnAfter, if_pos hb]
      exact if_neg fun h => Bool.false_ne_true (hg.symm.trans h)
  · intro b n hb hasked ho hcmds known ok
    have hask : JoinAsked c k := ⟨hb, hasked⟩
    have hlt : p < (carShown p c s).slk.lines.length := by rw [hseen.count, hlen]; exact hp
    have hcm : (lineSt (carShown p c s) p).cmds = (lineSt s p).cmds := by rw [hseen.line p]
    have hmac := (hseen.regs hs.regs).2 (Reg.SLK_LCNT_MAC + 0x40 * p) (by
      simp [Reg.SLK_LCNT_MAC, Reg.SLK_LCNT_RX, Reg.SLK_CAUSE, Reg.MGT_CAUSE, Reg.MGT_EVR_CNT]
      omega)
    have hknown : joinStation (theTt (carShown p c s)) p c k = known := by rw [hseen.tt]; rfl
    have hfld := getFld_congr hmac 31 16
    have hkeys (r : Station) : JoinOk p c k r (carShown p c s) ↔ ok r := hseen.keys.joinOk p c k r
    have hstn := stnSt_congr hseen.stns
    refine ⟨_, joinCarReturn_exec hc hk hl hks ho, ?_⟩
    cases hj : known with
    | none =>
      obtain ⟨hs1, hcount, hcause, hcmd⟩ := joinRefuse_laws (p := p) (pos := u8 b 2) (station := n) (r := none)
        (by simp) hin.regs hin.stns hlt hp
      rw [show joinSlot p c k (carShown p c s) = joinRefuse p (u8 b 2) n none (carShown p c s) from
        joinSlot_unknown hask (hknown.trans hj)]
      rw [hfld] at hcount
      rw [hseen.tt] at hcmd
      exact ⟨fun m _ => (hs1 m).trans (hstn m), by simp, fun _ => ⟨hcount, hcause, hcmd, fun _ => (hs1 n).trans (hstn n), by simp⟩⟩
    | some r =>
      obtain ⟨hmem, hrn⟩ := joinStation_mem hj
      by_cases hok : ok r
      · obtain ⟨hs1, hcmd⟩ := joinAdmit_laws (r := r) (u32 b 0xC) hin.stns hlt
        rw [show joinSlot p c k (carShown p c s) = joinAdmit p r (u32 b 0xC) (carShown p c s) from
          joinSlot_ok hask (hknown.trans hj) ((hkeys r).2 hok)]
        have hrn' : r.station = n := hrn
        rw [hrn', hcm, ← hok.2.1] at hcmd
        refine ⟨fun m hm => ?_, fun r' hr' _ => ?_, ?_⟩
        · rw [hs1, if_neg (hrn'.symm ▸ hm)]
          exact hstn m
        · cases hr'
          refine ⟨?_, hok.2.1 ▸ hcmd hcmds⟩
          rw [hs1, if_pos hrn'.symm]
        · rintro (h | ⟨r', hr', hno⟩)
          · cases h
          · cases hr'
            exact absurd hok hno
      · obtain ⟨hs1, hcount, hcause, hcmd⟩ := joinRefuse_laws (p := p) (pos := u8 b 2) (station := n) (r := some r)
          (fun x hx => Option.some.inj hx ▸ hn r hmem) hin.regs hin.stns hlt hp
        rw [show joinSlot p c k (carShown p c s) = joinRefuse p (u8 b 2) n (some r) (carShown p c s) from
          joinSlot_mismatch hask (hknown.trans hj) (mt (hkeys r).1 hok)]
        rw [hfld] at hcount
        rw [hseen.tt] at hcmd
        have hrn' : r.station = n := hrn
        refine ⟨fun m hm => ?_, fun r' hr' hr'ok => ?_, fun _ => ⟨hcount, hcause, hcmd, by simp, fun _ => ?_⟩⟩
        · rw [hs1]
          exact (stnSt_stnState hin.stns).trans ((if_neg (hrn'.symm ▸ hm)).trans (hstn m))
        · cases hr'
          exact absurd hr'ok hok
        · rw [hs1, stnRefused, Option.elim_some, stnSt_stnState hin.stns, if_pos hrn'.symm]

end


section
/-! ## Join trains and the end of join phases (R111, R124, R125) -/

open Sys2Proof Sys2Proof.Machine
namespace Sys2Proof.Machine

/-! ### A train that is sent -/

theorem addFld_recorded (a hi lo n : Nat) (s : State) : Recorded s (addFld a hi lo n s) := rfl

/-- R111: counting the cars of the last train is recording. -/
theorem tallyTrain_recorded (p : Nat) (s : State) : Recorded s (tallyTrain p s) := by
  unfold tallyTrain
  extract_lets x late lost s1
  have h : Recorded s s1 := (addFld_recorded ..).trans (addFld_recorded ..)
  split
  · exact h.trans (causeS_recorded ..)
  · exact h

theorem tallyTrain_regs (p : Nat) (s : State) : RegsExcept ((Reg.SLK_LCNT_LOST + 0x40 * p) :: slkCauseRegs) s (tallyTrain p s) := by
  unfold tallyTrain
  extract_lets x late lost s1
  have h : RegsExcept ((Reg.SLK_LCNT_LOST + 0x40 * p) :: slkCauseRegs) s s1 :=
    ((setReg_regs _ _ _).trans (setReg_regs _ _ _)).mono (by simp)
  split
  · exact h.trans ((causeS_regs Reg.SLK_CAUSE 4 p s1).mono fun a => List.mem_cons_of_mem _)
  · exact h

/-- R95, R125: the line of port `p` as its train leaves. -/
def trainLine (regular : Bool) (p frac : Nat) (s : State) : LineSt :=
  let x := lineSt s p
  let epoch := (getReg s Reg.SLK_EPOCH).toNat
  let plan := trainCars s p x.next epoch regular frac
  { x with
    next := (x.next + 1) % 2 ^ 32
    train := some x.next
    regular := regular
    epoch := epoch
    cars := plan.zipIdx.map fun c =>
      ({ kind := c.1.kind, frame := carFrame s p x.next epoch plan.length c.2 c.1 } : CarSent)
    round := satInc 16 x.round
    cmds := []
    full := false }

/-- The state in which the train is built: the last train's cars are counted, and a free value is drawn. -/
def trainBegun (p : Nat) (s : State) : State := (fresh (tallyTrain p s)).2

/-- The line's record and its registers as a train leaves. -/
def trainOut (p : Nat) (y : LineSt) (s : State) : State :=
  setReg (Reg.SLK_LCNT_TX + 0x40 * p) (getReg s (Reg.SLK_LCNT_TX + 0x40 * p) + BitVec.ofNat 32 y.cars.length)
    (setReg (Reg.SLK_LTRAIN + 0x40 * p) (BitVec.ofNat 32 (lineSt s p).next) (setLine p y s))

theorem sendTrain_eq (regular : Bool) (p : Nat) (s : State) : ∃ frac, sendTrain regular p s =
    trainOut p (trainLine regular p frac (trainBegun p s)) (trainBegun p s) := ⟨_, rfl⟩

theorem trainBegun_regs (p : Nat) (s : State) : RegsExcept ((Reg.SLK_LCNT_LOST + 0x40 * p) :: slkCauseRegs) s (trainBegun p s) :=
  (tallyTrain_regs p s).trans (.of_regs rfl)

theorem trainBegun_slk (p : Nat) (s : State) : (trainBegun p s).slk = s.slk := (tallyTrain_recorded p s).slk

theorem trainBegun_dev (p : Nat) (s : State) : (trainBegun p s).dev = s.dev := (tallyTrain_recorded p s).dev

theorem trainBegun_img (p : Nat) (s : State) : (trainBegun p s).img = s.img := (tallyTrain_recorded p s).img

theorem trainBegun_line (p q : Nat) (s : State) : lineSt (trainBegun p s) q = lineSt s q := (tallyTrain_recorded p s).line q

/-- The registers that a train of port `p` changes. -/
abbrev trainRegs (p : Nat) : List Nat :=
  [Reg.SLK_LCNT_TX + 0x40 * p, Reg.SLK_LTRAIN + 0x40 * p, Reg.SLK_LCNT_LOST + 0x40 * p] ++ slkCauseRegs

theorem trainOut_regs (p : Nat) (y : LineSt) (s : State) : RegsExcept (trainRegs p) s (trainOut p y s) :=
  (RegsExcept.of_regs (t := setLine p y s) rfl).trans
    (((setReg_regs (Reg.SLK_LTRAIN + 0x40 * p) _ _).mono (by simp)).trans
      ((setReg_regs (Reg.SLK_LCNT_TX + 0x40 * p) _ _).mono (by simp)))

theorem trainOut_slk (p : Nat) (y : LineSt) (s : State) : (trainOut p y s).slk = { s.slk with lines := setNth s.slk.lines p y } := rfl

theorem trainOut_dev (p : Nat) (y : LineSt) (s : State) : (trainOut p y s).dev = s.dev := rfl

theorem trainOut_img (p : Nat) (y : LineSt) (s : State) : (trainOut p y s).img = s.img := rfl

theorem trainOut_line (p q : Nat) (y : LineSt) (s : State) : lineSt (trainOut p y s) q = lineSt (setLine p y s) q := rfl

theorem trainOut_laws (p : Nat) (y : LineSt) {s : State} (hw : RegsWf s) :
    getReg (trainOut p y s) (Reg.SLK_LTRAIN + 0x40 * p) = BitVec.ofNat 32 (lineSt s p).next ∧
    getReg (trainOut p y s) (Reg.SLK_LCNT_TX + 0x40 * p) =
      getReg s (Reg.SLK_LCNT_TX + 0x40 * p) + BitVec.ofNat 32 y.cars.length := by
  have hl : RegsWf (setLine p y s) := hw
  have hy := setReg_wf (Reg.SLK_LTRAIN + 0x40 * p) (BitVec.ofNat 32 (lineSt s p).next) _ hl
  have hne : Reg.SLK_LTRAIN + 0x40 * p ≠ Reg.SLK_LCNT_TX + 0x40 * p := by simp [Reg.SLK_LCNT_TX, Reg.SLK_LTRAIN]
  rw [trainOut, getReg_setReg _ _ _ _ hy, getReg_setReg _ _ _ _ hy, if_neg hne, getReg_setReg _ _ _ _ hl]
  exact ⟨if_pos rfl, if_pos rfl⟩

theorem sendTrain_regs (regular : Bool) (p : Nat) (s : State) : RegsExcept (trainRegs p) s (sendTrain regular p s) := by
  obtain ⟨frac, h⟩ := sendTrain_eq regular p s
  rw [h]
  exact ((trainBegun_regs p s).mono (by simp)).trans (trainOut_regs p _ _)

/-- A train changes its own line; the stations, the image and the tick of the join trains stay. -/
theorem sendTrain_views (regular : Bool) (p : Nat) (s : State) : (sendTrain regular p s).dev = s.dev ∧
    (sendTrain regular p s).img = s.img ∧ (sendTrain regular p s).slk.stns = s.slk.stns ∧
    (sendTrain regular p s).slk.joinTick = s.slk.joinTick ∧
    (sendTrain regular p s).slk.lines.length = s.slk.lines.length := by
  obtain ⟨frac, h⟩ := sendTrain_eq regular p s
  rw [h]
  rw [trainOut_slk, trainOut_dev, trainOut_img, trainBegun_slk]
  exact ⟨trainBegun_dev p s, trainBegun_img p s, rfl, rfl, List.length_set⟩

theorem sendTrain_line_ne (regular : Bool) {p q : Nat} (hq : q ≠ p) (s : State) :
    lineSt (sendTrain regular p s) q = lineSt s q := by
  obtain ⟨frac, h⟩ := sendTrain_eq regular p s
  rw [h, trainOut_line, lineSt_setLine_ne hq, trainBegun_line]

/-! ### A join train -/

/-- R124: a time car, the output cars, and a join car. -/
theorem joinCars_kinds (s : State) (p train epoch frac : Nat) : (trainCars s p train epoch false frac).map (·.kind) =
    [1] ++ List.replicate ((((theTt s).line p).stations + 11) / 12) 2 ++ [4] := by
  unfold trainCars ownCars
  simp only [and_false, Bool.false_eq_true, if_false, List.append_nil, List.map_append, List.map_cons, List.map_nil,
    List.map_map, carGroups]
  congr 2
  exact (List.map_const' ..).trans (by simp)

theorem trainLine_kinds (regular : Bool) (p frac : Nat) (s : State) : (trainLine regular p frac s).cars.map (·.kind) =
    (trainCars s p (lineSt s p).next (getReg s Reg.SLK_EPOCH).toNat regular frac).map (·.kind) := by
  rw [trainLine, List.map_map]
  refine Eq.trans ?_ (congrArg (List.map CarPlan.kind) (List.zipIdx_map_fst 0 _))
  rw [List.map_map]
  rfl

theorem trainLine_away {regular : Bool} {p frac : Nat} {s : State} : ∀ c ∈ (trainLine regular p frac s).cars, c.returned = false := by
  intro c hc
  obtain ⟨x, -, rfl⟩ := List.mem_map.1 hc
  rfl

/-- What port `p` has after a join train of its own. -/
structure JoinSent (p : Nat) (s t : State) : Prop where
  number : (lineSt t p).train = some (lineSt s p).next
  next : (lineSt t p).next = ((lineSt s p).next + 1) % 2 ^ 32
  regular : (lineSt t p).regular = false
  round : (lineSt t p).round = satInc 16 (lineSt s p).round
  epoch : (lineSt t p).epoch = (getReg s Reg.SLK_EPOCH).toNat
  cmds : (lineSt t p).cmds = []
  kinds : (lineSt t p).cars.map (·.kind) = [1] ++ List.replicate ((((theTt s).line p).stations + 11) / 12) 2 ++ [4]
  away : ∀ c ∈ (lineSt t p).cars, c.returned = false
  train : getReg t (Reg.SLK_LTRAIN + 0x40 * p) = BitVec.ofNat 32 (lineSt s p).next
  sent : getReg t (Reg.SLK_LCNT_TX + 0x40 * p) = getReg s (Reg.SLK_LCNT_TX + 0x40 * p) +
    BitVec.ofNat 32 ((((theTt s).line p).stations + 11) / 12 + 2)

/-- The trains of other ports leave what port `p` sends by. -/
structure TrainBeside (p : Nat) (s t : State) : Prop where
  dev : t.dev = s.dev
  wf : RegsWf t
  count : t.slk.lines.length = s.slk.lines.length
  line : lineSt t p = lineSt s p
  regs : ∀ a ∈ [Reg.SLK_EPOCH, Reg.SLK_LTRAIN + 0x40 * p, Reg.SLK_LCNT_TX + 0x40 * p], getReg t a = getReg s a

/-- A port's own join train. -/
theorem joinTrain_sent {p : Nat} {s : State} (hw : RegsWf s) (hp : p < s.slk.lines.length) : JoinSent p s (sendTrain false p s) := by
  obtain ⟨frac, h⟩ := sendTrain_eq false p s
  obtain ⟨hbw, hbr⟩ := trainBegun_regs p s hw
  have hbl := trainBegun_line p p s
  have hepoch : getReg (trainBegun p s) Reg.SLK_EPOCH = getReg s Reg.SLK_EPOCH := hbr _ (by
    simp [Reg.SLK_EPOCH, Reg.SLK_LCNT_LOST, Reg.SLK_CAUSE, Reg.MGT_CAUSE, Reg.MGT_EVR_CNT]
    omega)
  have htx : getReg (trainBegun p s) (Reg.SLK_LCNT_TX + 0x40 * p) = getReg s (Reg.SLK_LCNT_TX + 0x40 * p) := hbr _ (by
    simp [Reg.SLK_LCNT_TX, Reg.SLK_LCNT_LOST, Reg.SLK_CAUSE, Reg.MGT_CAUSE, Reg.MGT_EVR_CNT]
    omega)
  have hline : lineSt (sendTrain false p s) p = trainLine false p frac (trainBegun p s) := by
    rw [h, trainOut_line, lineSt_setLine_same (by rwa [trainBegun_slk])]
  have hkinds : (lineSt (sendTrain false p s) p).cars.map (·.kind) =
      [1] ++ List.replicate ((((theTt s).line p).stations + 11) / 12) 2 ++ [4] := by
    rw [hline, trainLine_kinds, joinCars_kinds, theTt_congr (trainBegun_dev p s)]
  have hlen : (trainLine false p frac (trainBegun p s)).cars.length = (((theTt s).line p).stations + 11) / 12 + 2 := by
    rw [← hline, ← List.length_map (f := (·.kind)), hkinds]
    simp
  obtain ⟨htrain, hsent⟩ := trainOut_laws p (trainLine false p frac (trainBegun p s)) hbw
  refine ⟨?_, ?_, ?_, ?_, ?_, ?_, hkinds, ?_, ?_, ?_⟩
  · rw [hline, ← hbl]; rfl
  · rw [hline, ← hbl]; rfl
  · rw [hline]; rfl
  · rw [hline, ← hbl]; rfl
  · rw [hline, ← hepoch]; rfl
  · rw [hline]; rfl
  · rw [hline]
    exact trainLine_away
  · rw [h, htrain, hbl]
  · rw [h, hsent, htx, hlen]

theorem TrainBeside.refl (p : Nat) {s : State} (hw : RegsWf s) : TrainBeside p s s := ⟨rfl, hw, rfl, rfl, fun _ _ => rfl⟩

theorem TrainBeside.trans {p : Nat} {s t u : State} (h : TrainBeside p s t) (k : TrainBeside p t u) : TrainBeside p s u :=
  ⟨k.dev.trans h.dev, k.wf, k.count.trans h.count, k.line.trans h.line, fun a ha => (k.regs a ha).trans (h.regs a ha)⟩

theorem sendTrain_beside (regular : Bool) {p q : Nat} (hq : q ≠ p) (h8 : q < 8) {s : State} (hw : RegsWf s) :
    TrainBeside q s (sendTrain regular p s) := by
  obtain ⟨hdev, -, -, -, hcount⟩ := sendTrain_views regular p s
  obtain ⟨hwf, hreg⟩ := sendTrain_regs regular p s hw
  refine ⟨hdev, hwf, hcount, sendTrain_line_ne regular hq s, fun a ha => hreg a ?_⟩
  simp only [List.mem_cons, List.not_mem_nil, or_false, List.cons_append, List.nil_append, not_or] at ha ⊢
  simp only [Reg.SLK_EPOCH, Reg.SLK_LTRAIN, Reg.SLK_LCNT_TX, Reg.SLK_LCNT_LOST, Reg.SLK_CAUSE, Reg.MGT_CAUSE,
    Reg.MGT_EVR_CNT] at ha ⊢
  omega

/-- A join train after those of other ports is as it would be alone. -/
theorem JoinSent.after {p : Nat} {s t u : State} (h : TrainBeside p s t) (k : JoinSent p t u) : JoinSent p s u := by
  have htt := theTt_congr h.dev
  have hep := h.regs Reg.SLK_EPOCH (by simp)
  have htx := h.regs (Reg.SLK_LCNT_TX + 0x40 * p) (by simp)
  obtain ⟨hnumber, hnext, hregular, hround, hepoch, hcmds, hkinds, haway, htrain, hsent⟩ := k
  rw [h.line] at hnumber hnext hround htrain
  rw [hep] at hepoch
  rw [htt] at hkinds
  rw [htx, htt] at hsent
  exact ⟨hnumber, hnext, hregular, hround, hepoch, hcmds, hkinds, haway, htrain, hsent⟩

/-- Other ports' trains leave it so. -/
theorem JoinSent.before {p : Nat} {s t u : State} (k : JoinSent p s t) (h : TrainBeside p t u) : JoinSent p s u := by
  obtain ⟨hnumber, hnext, hregular, hround, hepoch, hcmds, hkinds, haway, htrain, hsent⟩ := k
  rw [← h.line] at hnumber hnext hregular hround hepoch hcmds hkinds haway
  rw [← h.regs _ (by simp)] at htrain hsent
  exact ⟨hnumber, hnext, hregular, hround, hepoch, hcmds, hkinds, haway, htrain, hsent⟩

/-- Every listed port sends its join train; the others' lines stay. -/
theorem joinTrains_sent {ps : List Nat} (hnd : ps.Nodup) {s : State} (hw : RegsWf s) (hlt : ∀ p ∈ ps, p < s.slk.lines.length)
    {q : Nat} (h8 : q < 8) :
    (q ∉ ps → TrainBeside q s (forL ps s (sendTrain false))) ∧ (q ∈ ps → JoinSent q s (forL ps s (sendTrain false))) := by
  induction ps generalizing s with
  | nil => exact ⟨fun _ => .refl q hw, fun h => absurd h List.not_mem_nil⟩
  | cons p ps ih =>
    obtain ⟨hnp, hnd⟩ := List.nodup_cons.1 hnd
    obtain ⟨-, -, -, -, hcount⟩ := sendTrain_views false p s
    have hw1 := (sendTrain_regs false p s hw).1
    obtain ⟨hbeside, hsent⟩ := ih hnd hw1 fun x hx => hcount ▸ hlt x (List.mem_cons_of_mem _ hx)
    by_cases hq : q = p
    · subst hq
      exact ⟨fun h => absurd List.mem_cons_self h,
        fun _ => (joinTrain_sent hw (hlt q List.mem_cons_self)).before (hbeside hnp)⟩
    · have h1 := sendTrain_beside false hq h8 hw
      exact ⟨fun h => h1.trans (hbeside fun hm => h (List.mem_cons_of_mem _ hm)),
        fun h => .after h1 (hsent ((List.mem_cons.1 h).resolve_left hq))⟩

end Sys2Proof.Machine

end


section
/-! ## The end of join phases, discarded frames, stale stations, epochs and the link poll (R94, R104, R124, R127, R613) -/

open Sys2Proof Sys2Proof.Machine
namespace Sys2Proof.Machine

/-! ### The end of join phases -/

/-- R124: the line's join phase has run its trains and ends now. -/
def JoinEnds (p : Nat) (s : State) : Prop := joinLimit s ≤ (lineSt s p).round ∧ (lineSt s p).joinPhase = true

/-- The step of one line at the end of join phases. -/
def phaseEnd (p : Nat) (s : State) : State := if joinLimit s ≤ (lineSt s p).round then joinEnd p s else s

theorem phaseEnd_ends {p : Nat} {s : State} (h : JoinEnds p s) : phaseEnd p s = joinEnd p s := if_pos h.1

theorem phaseEnd_stays {p : Nat} {s : State} (h : ¬ JoinEnds p s) : phaseEnd p s = s := by
  unfold phaseEnd
  split
  · next hr => exact joinEnd_joined (Bool.eq_false_of_not_eq_true fun hj => h ⟨hr, hj⟩)
  · rfl

theorem phaseEnd_dev (p : Nat) (s : State) : (phaseEnd p s).dev = s.dev := by
  by_cases h : JoinEnds p s
  · rw [phaseEnd_ends h, joinEnd_joining h.2]
    split
    · exact (cause_recorded ..).dev
    · rfl
  · rw [phaseEnd_stays h]

/-- What ending one line's phase leaves of the others. -/
theorem joinEnd_views {p : Nat} {s : State} (hw : RegsWf s) (hp : p < s.slk.lines.length) (h : (lineSt s p).joinPhase = true) :
    RegsWf (joinEnd p s) ∧ (joinEnd p s).slk.lines.length = s.slk.lines.length ∧
    lineSt (joinEnd p s) p = { lineSt s p with joinPhase := false, joinDone := true } ∧
    ∀ q ≠ p, lineSt (joinEnd p s) q = lineSt s q ∧ (JoinEnds q (joinEnd p s) ↔ JoinEnds q s) := by
  obtain ⟨hrec, hregs, -⟩ := joinEnd_laws hw h
  obtain ⟨hwf, hreg⟩ := hregs hw
  have hlim : joinLimit (joinEnd p s) = joinLimit s := getFld_congr (hreg Reg.SLK_JOIN_LIM (by decide)) 15 0
  have hne (q : Nat) (hq : q ≠ p) : lineSt (joinEnd p s) q = lineSt s q := by
    rw [hrec.line]
    exact lineSt_setLine_ne hq _ _
  refine ⟨hwf, ?_, ?_, fun q hq => ⟨hne q hq, by rw [JoinEnds, hlim, hne q hq]; rfl⟩⟩
  · rw [hrec.slk]
    exact setLine_lines_length ..
  · rw [hrec.line]
    exact lineSt_setLine_same hp _

/-- Every listed line that has run its trains ends its phase; with the last one the cause is set. -/
theorem phasesEnd_laws {ps : List Nat} (hnd : ps.Nodup) {s : State} (hw : RegsWf s) (hlt : ∀ p ∈ ps, p < s.slk.lines.length) :
    let t := forL ps s phaseEnd
    (∀ q, (q ∈ ps ∧ JoinEnds q s → lineSt t q = { lineSt s q with joinPhase := false, joinDone := true }) ∧
      (¬ (q ∈ ps ∧ JoinEnds q s) → lineSt t q = lineSt s q)) ∧
    ((∃ p ∈ ps, JoinEnds p s) → allJoined t = true → getBit t Reg.SLK_CAUSE 5 = true) ∧
    ((∀ p ∈ ps, ¬ JoinEnds p s) → t = s) := by
  induction ps generalizing s with
  | nil => exact ⟨fun q => ⟨fun h => absurd h.1 List.not_mem_nil, fun _ => rfl⟩,
      fun ⟨_, h, _⟩ => absurd h List.not_mem_nil, fun _ => rfl⟩
  | cons p ps ih =>
    obtain ⟨hnp, hnd⟩ := List.nodup_cons.1 hnd
    rw [show forL (p :: ps) s phaseEnd = forL ps (phaseEnd p s) phaseEnd from rfl]
    by_cases hp : JoinEnds p s
    · rw [phaseEnd_ends hp]
      obtain ⟨hw1, hcount, hown, hothers⟩ := joinEnd_views hw (hlt p List.mem_cons_self) hp.2
      obtain ⟨hlines, hcause, hsame⟩ := ih hnd hw1 fun x hx => hcount ▸ hlt x (List.mem_cons_of_mem _ hx)
      refine ⟨fun q => ?_, fun _ hall => ?_, fun hno => absurd hp (hno p List.mem_cons_self)⟩
      · by_cases hq : q = p
        · subst hq
          refine ⟨fun _ => ((hlines q).2 fun h => hnp h.1).trans hown, fun h => absurd ⟨List.mem_cons_self, hp⟩ h⟩
        · obtain ⟨hl, he⟩ := hothers q hq
          have hmem : q ∈ p :: ps ↔ q ∈ ps := by simp [hq]
          rw [hmem, ← he, ← hl]
          exact hlines q
      · by_cases hany : ∃ x ∈ ps, JoinEnds x (joinEnd p s)
        · exact hcause hany hall
        · have ht := hsame fun x hx hxe => hany ⟨x, hx, hxe⟩
          rw [ht] at hall ⊢
          exact (joinEnd_laws hw hp.2).2.2 hall
    · rw [phaseEnd_stays hp]
      obtain ⟨hlines, hcause, hsame⟩ := ih hnd hw fun x hx => hlt x (List.mem_cons_of_mem _ hx)
      have hmem (q : Nat) : q ∈ p :: ps ∧ JoinEnds q s ↔ q ∈ ps ∧ JoinEnds q s := by
        rw [List.mem_cons]
        exact ⟨fun h => ⟨h.1.resolve_left fun he => hp (he ▸ h.2), h.2⟩, fun h => ⟨.inr h.1, h.2⟩⟩
      refine ⟨fun q => by rw [hmem]; exact hlines q, fun ⟨x, hx, hxe⟩ => ?_,
        fun hno => hsame fun x hx => hno x (List.mem_cons_of_mem _ hx)⟩
      exact hcause ⟨x, (hmem x).1 ⟨hx, hxe⟩⟩

/-! ### Discarded frames -/

theorem rxJudge_bad {s : State} {p : Nat} {f : List Byte} (h : frameOk f = false) : rxJudge s p f = .badFcs := by
  simp [rxJudge, h]

theorem rxJudge_foreign {s : State} {p : Nat} {f : List Byte} (h : frameOk f = true)
    (hc : ∀ c, carOf (framePayload f) = some c → (lineSt s p).train ≠ some c.train) : rxJudge s p f = .foreign := by
  unfold rxJudge
  rw [h]
  simp only [Bool.not_true, Bool.false_eq_true, if_false]
  split
  · rfl
  · split
    · rfl
    · next c hcar => exact if_neg (hc c hcar)

section
variable {s : State} {p : Nat} {f : List Byte} (hf : thruForwards s p = false)
include hf

theorem frameDiscard_bad (h : rxJudge s p f = .badFcs) :
    exec (.frameDiscard p f) s = .next (incFld (Reg.SLK_LCNT_FCS + 0x40 * p) 15 0 s) := by
  change execFrameDiscard p f s = _
  simp [execFrameDiscard, hf, h]

theorem frameDiscard_foreign (h : rxJudge s p f = .foreign) :
    exec (.frameDiscard p f) s = .next (incFld (Reg.SLK_LCNT_FCS + 0x40 * p) 31 16 s) := by
  change execFrameDiscard p f s = _
  simp [execFrameDiscard, hf, h]

theorem frameDiscard_car {c : Car} (h : rxJudge s p f = .car c) : exec (.frameDiscard p f) s = .next s := by
  change execFrameDiscard p f s = _
  simp [execFrameDiscard, hf, h]

end

/-! ### Stale stations -/

theorem qMax_bad (q : Quality) : qMax q .bad = .bad := by cases q <;> rfl

/-- R127: the words of a station whose inputs are long gone are BAD, with the values they had; no other word changes. -/
theorem stnWorsen_bad (n : Nat) {s : State} (h : SiWf s) :
    (∀ k < 14, wordQ (imgGetWork (stnWorsen .bad n s) 0 (16 * n + k)) = .bad ∧
      wordVal (imgGetWork (stnWorsen .bad n s) 0 (16 * n + k)) = wordVal (imgGetWork s 0 (16 * n + k))) ∧
    ∀ i, i < 16 * n ∨ 16 * n + 14 ≤ i → imgGetWork (stnWorsen .bad n s) 0 i = imgGetWork s 0 i := by
  have hw (i : Nat) : imgGetWork (stnWorsen .bad n s) 0 i =
      if 16 * n ≤ i ∧ i < 16 * n + 14 then worsen .bad (imgGetWork s 0 i) else imgGetWork s 0 i := by
    rw [stnWorsen_eq, siPutN_word _ _ _ _ (siWord_put_wf _ _ h), siWord_put _ _ _ h]
    by_cases h0 : i = 16 * n
    · subst h0
      rw [if_neg (by omega), if_pos rfl, if_pos (by omega)]
    · rw [if_neg h0]
      congr 1
      exact propext (by omega)
  refine ⟨fun k hk => ?_, fun i hi => by rw [hw, if_neg (by omega)]⟩
  rw [hw, if_pos (by omega), wordQ_worsen, wordVal_worsen]
  exact ⟨qMax_bad _, rfl⟩

theorem presenceStaleExpire_exec {n : Nat} {r : Station} {s : State}
    (hr : (headRoster (theTt s)).find? (fun r => r.station == n) = some r) (ht : trainsRun s = true) (hs : (stnSt s n).state ≠ 2)
    (hg : (stnSt s n).got = none) (hm : staleHeadways (theTt s) r.line ≤ (stnSt s n).missed) :
    exec (.presenceStaleExpire n) s = .next (stnWorsen .bad n s) := by
  change execPresenceStaleExpire n s = _
  unfold execPresenceStaleExpire
  rw [hr]
  exact if_pos ⟨ht, hs, hg, hm⟩

end Sys2Proof.Machine

end


section
/-! ## Requests of journal records, the link poll, and O47 (R104, R445, R451, R613) -/

open Sys2Proof Sys2Proof.Machine
namespace Sys2Proof.Machine

/-! ### What a request of a journal record touches -/

/-- A register that is not set to its reset value leaves the others, also in a register file out of order. -/
theorem getReg_setReg_ne {a b : Nat} {v : Word} (s : State) (hv : v ≠ regReset a) (hb : b ≠ a) :
    getReg (setReg a v s) b = getReg s b := by
  change smGet regReset (smPut regReset s.regs a v) b = _
  rw [smPut, if_neg hv, smGet_insert, if_neg hb]
  rfl

theorem regReset_jnlCnt2 : regReset Reg.JNL_CNT2 = 0 := by decide +kernel

/-- A count of freed pairs is not zero. -/
theorem jnlCnt2_ne_reset (w : Word) (v : Nat) : setField w 15 0 (satInc 16 v) ≠ regReset Reg.JNL_CNT2 := by
  intro h
  have hf := congrArg (field · 15 0) h
  rw [regReset_jnlCnt2] at hf
  simp only [field_setField w 15 0 _ (by decide) (by decide)] at hf
  have hs : 0 < satInc 16 v ∧ satInc 16 v < 2 ^ 16 := by
    unfold satInc
    split <;> omega
  rw [Nat.mod_eq_of_lt hs.2] at hf
  exact absurd hf (Nat.pos_iff_ne_zero.1 hs.1)

/-- `t` differs from `s` in the journal, the die and the count of freed pairs only. -/
structure Journalled (s t : State) : Prop where
  rest : t = { s with regs := t.regs, nv := t.nv, jnl := t.jnl }
  regs : ∀ a, a ≠ Reg.JNL_CNT2 → getReg t a = getReg s a

theorem Journalled.refl (s : State) : Journalled s s := ⟨rfl, fun _ _ => rfl⟩

theorem Journalled.trans {s t u : State} (h : Journalled s t) (k : Journalled t u) : Journalled s u := by
  refine ⟨?_, fun a ha => (k.regs a ha).trans (h.regs a ha)⟩
  rw [k.rest, h.rest]

theorem Journalled.of_regs {s t : State} (h : t = { s with regs := t.regs, nv := t.nv, jnl := t.jnl }) (hr : t.regs = s.regs) :
    Journalled s t := ⟨h, fun a _ => by rw [getReg, hr, getReg]⟩

theorem Journalled.setJnl {s t : State} (h : Journalled s t) (j : JnlState) : Journalled s { t with jnl := j } :=
  h.trans (.of_regs rfl rfl)

theorem Journalled.nvWrite {s t : State} (h : Journalled s t) (off : Nat) (bs : List Byte) : Journalled s (nvWrite off bs t) :=
  h.trans (.of_regs rfl rfl)

theorem jnlOpen_journalled (s : State) : Journalled s (jnlOpen s) := by
  unfold jnlOpen
  extract_lets j k h s1 pairs start
  have h1 : Journalled s s1 := ((Journalled.refl s).nvWrite (segA k) h).nvWrite (segB k) h
  exact h1.setJnl _

theorem jnlPlace_journalled (r : JReq) (retries : Nat) (s : State) : Journalled s (jnlPlace r retries s) := by
  unfold jnlPlace
  extract_lets r' bs k sp s1 j
  have hsp : Journalled s sp := by
    unfold sp
    split
    · exact ((Journalled.refl s).nvWrite _ _).nvWrite _ _
    · exact .refl s
  have h1 : Journalled s s1 := by
    unfold s1
    split
    · exact .refl s
    · exact hsp.trans (jnlOpen_journalled sp)
  exact h1.setJnl _

theorem jnlRepair_journalled (s : State) : Journalled s (jnlRepair s) := by
  unfold jnlRepair
  extract_lets s1
  have h1 : Journalled s s1 := by
    unfold s1 forL
    generalize s.jnl.rewrites = ws
    induction ws generalizing s with
    | nil => exact .refl s
    | cons w ws ih => exact ((Journalled.refl s).nvWrite w.1 w.2).trans (ih _)
  exact h1.setJnl _

theorem pairFreed_journalled (s : State) : Journalled s (incFld Reg.JNL_CNT2 15 0 s) :=
  ⟨rfl, fun _ ha => getReg_setReg_ne s (jnlCnt2_ne_reset _ _) ha⟩

theorem jnlCompactOn_journalled (s : State) : Journalled s (jnlCompactOn s) := (Journalled.refl s).setJnl _

theorem jnlFreeOldest_journalled (s : State) : Journalled s (jnlFreeOldest s) := by
  unfold jnlFreeOldest
  extract_lets k z s2
  have h2 : Journalled s s2 := ((Journalled.refl s).nvWrite (segA k) z).nvWrite (segB k) z
  have h3 := h2.setJnl { s2.jnl with pairs := s2.jnl.pairs.tail }
  split
  · exact jnlCompactOn_journalled s
  · exact h3.trans ((pairFreed_journalled _).trans (jnlCompactOn_journalled _))

theorem jnlCompactNext_journalled (fuel : Nat) (s : State) : Journalled s (jnlCompactNext fuel s) := by
  induction fuel generalizing s with
  | zero => exact .refl s
  | succ fuel ih =>
    unfold jnlCompactNext
    split
    · exact jnlFreeOldest_journalled s
    · next k i rest _ =>
      have h := (Journalled.refl s).setJnl { s.jnl with compact := rest }
      dsimp only
      split
      · exact h.trans (jnlPlace_journalled ..)
      · exact h.trans (ih _)

/-- A waiting request is placed once due rewrites are done. -/
theorem jnlTake_journalled (r : JReq) (rest : List JReq) (s : State) :
    Journalled s (jnlPlace r 0 { (jnlRepair s) with jnl := { (jnlRepair s).jnl with queue := rest } }) :=
  ((jnlRepair_journalled s).setJnl { (jnlRepair s).jnl with queue := rest }).trans (jnlPlace_journalled ..)

theorem jnlKick_journalled (s : State) : Journalled s (jnlKick s) := by
  unfold jnlKick
  split
  · exact .refl s
  split
  · exact .refl s
  split
  · split
    · split
      · exact jnlTake_journalled ..
      · exact .refl s
    · exact .refl s
  split
  · exact jnlCompactNext_journalled ..
  split
  · exact jnlTake_journalled ..
  split
  · exact jnlCompactNext_journalled ..
  · exact .refl s

theorem jnlRequest_journalled (r : JReq) (s : State) : Journalled s (jnlRequest r s) :=
  ((Journalled.refl s).setJnl { s.jnl with queue := if r.owner = .save then r :: s.jnl.queue else s.jnl.queue ++ [r] }).trans
    (jnlKick_journalled _)

/-! ### The link poll -/

/-- R613: the line with the level of its port read. -/
def linePolled (up p : Nat) (s : State) : LineSt := { lineSt s p with link := gateOpen s && bit up p }

/-- R613: the poll of one port. -/
def portPoll (up p : Nat) (s : State) : State :=
  if ((theTt s).line p).mode = 0 then s
  else if ((theTt s).line p).mode = 3 ∧ (lineSt s p).link ∧ ¬ (gateOpen s && bit up p) ∧ gateOpen s then
    causeS Reg.SLK_CAUSE 7 p (setLine p (linePolled up p s) s)
  else setLine p (linePolled up p s) s

theorem phyLinkPoll_exec (up : Nat) {s : State} (ht : s.dev.tt.isSome = true) (hk : s.pwr.tick % 64 = 0) :
    exec (.phyLinkPoll up) s = .next (forN 8 s (portPoll up)) := if_pos ⟨ht, hk⟩

/-- The poll of a through-mode port whose link is lost. -/
abbrev LinkLost (up p : Nat) (s : State) : Prop :=
  ((theTt s).line p).mode = 3 ∧ (lineSt s p).link = true ∧ gateOpen s = true ∧ bit up p = false

/-- The poll of a used port is a write of its line, and a cause when a through-mode link is lost. -/
theorem portPoll_laws (up : Nat) {p : Nat} {s : State} (hw : RegsWf s) (hm : ((theTt s).line p).mode ≠ 0) :
    Recorded (setLine p (linePolled up p s) s) (portPoll up p s) ∧ RegsWf (portPoll up p s) ∧
    (LinkLost up p s ∨ getBit s Reg.SLK_CAUSE 7 = true → getBit (portPoll up p s) Reg.SLK_CAUSE 7 = true) := by
  have hset : RegsWf (setLine p (linePolled up p s) s) := hw
  unfold portPoll
  rw [if_neg hm]
  split
  · exact ⟨causeS_recorded .., (causeS_regs _ _ _ _ hset).1, fun _ => causeS_sets p hset (by decide) (by decide)⟩
  · next hno =>
    refine ⟨.refl _, hset, fun h => h.elim (fun hl => absurd ⟨hl.1, hl.2.1, ?_, hl.2.2.1⟩ hno) id⟩
    simp [hl.2.2.2]

/-- The first `n` ports are polled. -/
structure Polled (up n : Nat) (s t : State) : Prop where
  dev : t.dev = s.dev
  red : t.red = s.red
  wf : RegsWf t
  count : t.slk.lines.length = s.slk.lines.length
  line : ∀ p, lineSt t p = if p < n ∧ ((theTt s).line p).mode ≠ 0 then linePolled up p s else lineSt s p
  lost : ∀ p < n, LinkLost up p s → getBit t Reg.SLK_CAUSE 7 = true

theorem gateOpen_congr {s t : State} (h : t.red = s.red) : gateOpen t = gateOpen s := by rw [gateOpen, h, gateOpen]

theorem portsPolled (up n : Nat) {s : State} (hw : RegsWf s) (hn : n ≤ s.slk.lines.length) :
    Polled up n s (forN n s (portPoll up)) := by
  induction n with
  | zero => exact ⟨rfl, rfl, hw, rfl, fun p => (if_neg fun h => Nat.not_lt_zero p h.1).symm, fun p h => absurd h (Nat.not_lt_zero p)⟩
  | succ n ih =>
    obtain ⟨hdev, hred, hwf, hcount, hline, hlost⟩ := ih (by omega)
    rw [forN_succ]
    generalize forN n s (portPoll up) = u at hdev hred hwf hcount hline hlost ⊢
    have htt := theTt_congr hdev
    have hgate := gateOpen_congr hred
    have hown : lineSt u n = lineSt s n := (hline n).trans (if_neg fun h => absurd h.1 (lt_irrefl n))
    by_cases hm : ((theTt s).line n).mode = 0
    · rw [show portPoll up n u = u from if_pos (by rw [htt]; exact hm)]
      have hne (p : Nat) (h : p < n + 1) (h0 : ((theTt s).line p).mode ≠ 0) : p < n := by
        have : p ≠ n := fun he => h0 (he ▸ hm)
        omega
      refine ⟨hdev, hred, hwf, hcount, fun p => ?_, fun p hp hl => hlost p (hne p hp (by rw [hl.1]; decide)) hl⟩
      rw [hline]
      congr 1
      exact propext ⟨fun h => ⟨by omega, h.2⟩, fun h => ⟨hne p h.1 h.2, h.2⟩⟩
    · obtain ⟨hrec, hwf', hbit⟩ := portPoll_laws up hwf (p := n) (by rw [htt]; exact hm)
      have hpoll : linePolled up n u = linePolled up n s := by rw [linePolled, hown, hgate]; rfl
      refine ⟨hrec.dev.trans hdev, hrec.red.trans hred, hwf', ?_, fun p => ?_, fun p hp hl => hbit ?_⟩
      · rw [hrec.slk, setLine_lines_length, hcount]
      · rw [hrec.line]
        by_cases hp : p = n
        · subst hp
          rw [lineSt_setLine_same (by omega), if_pos ⟨by omega, hm⟩, hpoll]
        · rw [lineSt_setLine_ne hp, hline]
          congr 1
          exact propext (by omega)
      · by_cases hp' : p = n
        · subst hp'
          exact .inl (by rw [LinkLost, htt, hown, hgate]; exact hl)
        · exact .inr (hlost p (by omega) hl)

/-! ### Join trains and epochs -/

theorem joinTrainDepart_exec {s : State} (hl : trainsLeave s = true) (ht : joinTime s = true)
    (hk : s.slk.joinTick ≠ some s.pwr.tick) : exec .joinTrainDepart s = .next
      (forL ((headPorts (theTt s)).filter fun p => (lineSt s p).joinPhase && decide ((lineSt s p).round < joinLimit s))
        (setSlk { s.slk with joinTick := some s.pwr.tick } s) (sendTrain false)) := if_pos ⟨hl, ht, hk⟩

theorem joinPhaseEnd_exec (s : State) : exec .joinPhaseEnd s = .next (forL (headPorts (theTt s)) s phaseEnd) := rfl

theorem epochComputed_eq {s : State} (hv : s.mgt.cal.valid = true) :
    epochComputed s = s.mgt.cal.seconds / (3600 * (theTt s).security.epochHours) := if_pos hv

/-- R104: a higher epoch waits for its record. -/
theorem epochAdvance_higher {s : State} (hh : hwStates s.dev.mode = true) (hn : s.slk.epochWait = none)
    (hlt : (getReg s Reg.SLK_EPOCH).toNat < epochComputed s) : ∃ t, exec .epochAdvance s = .next t ∧
      Journalled (setSlk { s.slk with epochWait := some (epochComputed s) } s) t :=
  ⟨_, if_pos ⟨hh, hn, hlt⟩, jnlRequest_journalled ..⟩

theorem epochAdvance_not_higher {s : State} (hle : epochComputed s ≤ (getReg s Reg.SLK_EPOCH).toNat) :
    exec .epochAdvance s = .next s := if_neg fun h => absurd h.2.2 (Nat.not_lt.2 hle)

end Sys2Proof.Machine

end


section
/-! ## Join trains, discarded frames, stale stations, epochs and link polls (R94, R104, R111, R124, R125, R127, R613) -/

open Sys2Proof Sys2Proof.Machine
namespace Sys2Proof.Machine

/-- The ports that send a join train. -/
def joinPorts (s : State) : List Nat :=
  (headPorts (theTt s)).filter fun p => (lineSt s p).joinPhase && decide ((lineSt s p).round < joinLimit s)

theorem mem_joinPorts {s : State} {p : Nat} :
    p ∈ joinPorts s ↔ p ∈ headPorts (theTt s) ∧ (lineSt s p).joinPhase = true ∧ (lineSt s p).round < joinLimit s := by
  simp [joinPorts]

theorem headPort_lt {s : State} (hlen : s.slk.lines.length = 8) {p : Nat} (h : p ∈ headPorts (theTt s)) :
    p < s.slk.lines.length := by
  rw [hlen]
  exact (mem_headPorts.1 h).1

/-- The trains of a tick leave the stations, the image and the tick itself. -/
theorem joinTrains_views (ps : List Nat) (s : State) : (forL ps s (sendTrain false)).img = s.img ∧
    (forL ps s (sendTrain false)).slk.stns = s.slk.stns ∧ (forL ps s (sendTrain false)).slk.joinTick = s.slk.joinTick :=
  ⟨forL_keeps State.img ps s _ fun p t => (sendTrain_views false p t).2.1,
    forL_keeps (fun t : State => t.slk.stns) ps s _ fun p t => (sendTrain_views false p t).2.2.1,
    forL_keeps (fun t : State => t.slk.joinTick) ps s _ fun p t => (sendTrain_views false p t).2.2.2.1⟩

end Sys2Proof.Machine

/-- Settles O47: the ports' trains and polls do not touch one another's lines; the last line to end its phase sets the cause. -/
theorem joinTrainsAndPolls : Obligations.JoinTrainsAndPolls := by
  refine ⟨fun s hw hlen => ⟨fun hl ht hk => ?_, ?_⟩, ?_, ?_, ?_, ?_⟩
  · -- the trains of a join phase's tick
    have hnd : (joinPorts s).Nodup := (headPorts_nodup _).filter _
    have hlt : ∀ p ∈ joinPorts s, p < s.slk.lines.length := fun p hp => headPort_lt hlen (mem_joinPorts.1 hp).1
    obtain ⟨himg, hstns, htick⟩ := joinTrains_views (joinPorts s) (setSlk { s.slk with joinTick := some s.pwr.tick } s)
    refine ⟨_, joinTrainDepart_exec hl ht hk, htick, hstns, himg, fun p hp => ?_⟩
    intro x y outs
    obtain ⟨hbeside, hsent⟩ := joinTrains_sent hnd (s := setSlk { s.slk with joinTick := some s.pwr.tick } s) hw hlt hp
    refine ⟨fun hh hj hr => ?_, fun hno => ?_⟩
    · have hs := hsent (mem_joinPorts.2 ⟨hh, hj, hr⟩)
      exact ⟨hs.number, hs.next, hs.regular, hs.round, hs.epoch, hs.cmds, hs.kinds, hs.away, hs.train, hs.sent⟩
    · refine (hbeside fun hm => ?_).line
      obtain ⟨hh, hj, hr⟩ := mem_joinPorts.1 hm
      obtain h | h | h := hno
      · exact h hh
      · exact Bool.false_ne_true (h.symm.trans hj)
      · exact absurd hr (Nat.not_lt.2 h)
  · -- the end of join phases
    obtain ⟨hlines, hcause, hsame⟩ := phasesEnd_laws (headPorts_nodup _) hw fun p => headPort_lt hlen
    refine ⟨_, joinPhaseEnd_exec s, ?_⟩
    intro ends
    refine ⟨fun p _ => hlines p, fun ⟨p, hh, he⟩ hall => hcause ⟨p, hh, he⟩ ?_,
      fun hno => hsame fun p hh he => hno p ⟨hh, he⟩⟩
    have htt := theTt_congr (forL_keeps State.dev (headPorts (theTt s)) s phaseEnd phaseEnd_dev)
    rw [allJoined, htt]
    exact List.all_eq_true.2 fun p hp => by rw [hall p hp]; rfl
  · exact fun p f s hf => ⟨fun hb => frameDiscard_bad hf (rxJudge_bad hb), fun hg hc => frameDiscard_foreign hf (rxJudge_foreign hg hc),
      fun c hc => frameDiscard_car hf hc⟩
  · intro n r s hs hr ht hst hg hm
    exact ⟨_, presenceStaleExpire_exec hr ht hst hg hm, stnWorsen_imageOnly .bad n s, stnWorsen_bad n hs.si⟩
  · intro e s hv he hh hn
    rw [he, ← epochComputed_eq hv]
    refine ⟨fun hlt => ?_, epochAdvance_not_higher⟩
    obtain ⟨t, hexec, hj⟩ := epochAdvance_higher hh hn hlt
    exact ⟨t, hexec, by rw [hj.rest]; rfl, by rw [hj.rest]; rfl, hj.regs _ (by decide)⟩
  · intro up s hw ht hk hlen
    have hpoll := portsPolled up 8 hw (le_of_eq hlen.symm)
    refine ⟨_, phyLinkPoll_exec up ht hk, fun p hp => ⟨fun h0 => ?_, fun h0 => ?_,
      fun h3 hlk hgate hb => hpoll.lost p hp ⟨h3, hlk, hgate, hb⟩⟩⟩
    · exact (hpoll.line p).trans (if_neg fun h => h.2 h0)
    · exact (hpoll.line p).trans (if_pos ⟨hp, h0⟩)

end


section
/-! ## Through pairs: what is forwarded (R89, R94, R110, R130) -/

open Sys2Proof Sys2Proof.Machine
namespace Sys2Proof.Machine

/-! ### The device's own station on a pair -/

/-- The through stations are in canonical form. -/
abbrev ThruWf (s : State) : Prop := smWf (fun _ => ({} : ThruSt)) s.slk.thru = true

theorem thruSt_setThru (p : Nat) (x : ThruSt) {s : State} (h : ThruWf s) : thruSt (setThru p x s) p = x :=
  (smGet_put _ _ _ _ _ h).trans (if_pos rfl)

theorem setThru_thruWf (p : Nat) (x : ThruSt) {s : State} (h : ThruWf s) : ThruWf (setThru p x s) := smPut_wf _ _ _ _ h

theorem thruTurns_iff (x : ThruSt) (c : Car) (onward : Bool) : thruTurns x c onward = true ↔
    onward = false ∨ (c.extend = false ∧ c.line = x.line ∧ x.pos = some c.last) := by
  simp [thruTurns, and_assoc]

/-! ### A frame on a pair -/

section
variable {q other : Nat} {f : List Byte} {time residence : Int} {onward : Bool} {s : State}
  (ho : thruOther s q = some other) (hf : thruForwards s q = true)
include ho hf

theorem carArrive_short (h : f.length < 64) :
    exec (.throughCarArrive q f time residence onward) s = .next (incFld (Reg.SLK_LCNT_FCS + 0x40 * q) 15 0 s) := by
  change execThroughCarArrive q f time residence onward s = _
  simp [execThroughCarArrive, ho, hf, h]

/-- R110 item 3: a bad frame goes on with the complement of its check sequence. -/
theorem carArrive_bad (h : 64 ≤ f.length) (hb : frameOk f = false) :
    exec (.throughCarArrive q f time residence onward) s = .next (incFld (Reg.SLK_LCNT_FCS + 0x40 * q) 15 0
      (setSlk { s.slk with fwd := some (if onward then other else q,
        f.take (f.length - 4) ++ wordBytes (~~~ crc32eth (f.take (f.length - 4)))) } s)) := by
  change execThroughCarArrive q f time residence onward s = _
  simp [execThroughCarArrive, ho, hf, Nat.not_lt.2 h, hb]

theorem carArrive_foreign (h : 64 ≤ f.length) (hg : frameOk f = true) (he : thruEther s q f = false) :
    exec (.throughCarArrive q f time residence onward) s = .next (incFld (Reg.SLK_LCNT_FCS + 0x40 * q) 31 16 s) := by
  change execThroughCarArrive q f time residence onward s = _
  simp [execThroughCarArrive, ho, hf, Nat.not_lt.2 h, hg, he]

theorem carArrive_car {c : Car} (hg : frameOk f = true) (he : thruEther s q f = true) (hc : carOf (framePayload f) = some c) :
    exec (.throughCarArrive q f time residence onward) s = .next (thruForward q other f c time residence onward s) := by
  have h : ¬ f.length < 64 := by
    rw [frameOk, Bool.and_eq_true, decide_eq_true_eq] at hg
    exact Nat.not_lt.2 hg.1
  change execThroughCarArrive q f time residence onward s = _
  simp [execThroughCarArrive, ho, hf, h, hg, he, hc]

end

/-! ### A car that goes on or turns -/

/-- R89, R95: the car as it leaves: outbound one hop further, back one hop further unless it turns here, and then returning. -/
def carLeaves (out turned : Bool) (c : Car) : Car :=
  let d := if out then { c with hops := (c.hops + 1) % 65536 }
    else if turned then c
    else { c with retHops := (c.retHops + 1) % 65536 }
  { d with word := orBit d.word 11 turned }

/-- The frame of a car, behind the header that it came with. -/
def carFrameOn (f : List Byte) (c : Car) : List Byte :=
  f.take 14 ++ c.bytes ++ wordBytes (crc32eth (f.take 14 ++ c.bytes))

/-- What the device knows as a station once a car has passed. -/
def thruLearned (q p : Nat) (c : Car) (s : State) : State := setThru p (thruLearn q p c (thruSt s p)) s

/-- A forwarded car: what the device makes of it as a station, and the frame that leaves. -/
theorem thruForward_eq {q other : Nat} {f : List Byte} {c c1 : Car} {time residence : Int} {onward : Bool} {s s2 : State}
    (h : thruProcess (min q other) time residence (thruTurns (thruLearn q (min q other) c (thruSt s (min q other))) c onward) c
      (thruLearned q (min q other) c s) = (c1, s2)) :
    thruForward q other f c time residence onward s =
      let turned := thruTurns (thruLearn q (min q other) c (thruSt s (min q other))) c onward
      setSlk { s2.slk with fwd := some (if turned then q else other, carFrameOn f (carLeaves (!c.dir) turned c1)) } s2 := by
  unfold thruForward
  extract_lets p x1 s1 turned
  rw [show thruProcess p time residence turned c s1 = (c1, s2) from h]
  rfl

/-- The device only forwards a car that comes back. -/
theorem thruProcess_back {p : Nat} {c : Car} (time residence : Int) (turned : Bool) (s : State) (hk : c.kind ≠ 1)
    (hd : c.dir = true) : thruProcess p time residence turned c s = (c, s) := by
  simp [thruProcess, hk, hd]

/-- It only forwards where it is no station. -/
theorem thruProcess_unrostered {p : Nat} {c : Car} (time residence : Int) (turned : Bool) {s : State} (hk : c.kind ≠ 1)
    (hr : thruRecord s p = none) : thruProcess p time residence turned c s = (c, s) := by
  unfold thruProcess
  rw [if_neg hk, hr]
  exact ite_self _

theorem thruLearn_back {q p : Nat} {c : Car} (x : ThruSt) (hd : c.dir = true) : thruLearn q p c x = x := by
  simp [thruLearn, hd]

theorem carLeaves_back {c : Car} (turned : Bool) (hd : c.dir = true) :
    carLeaves false turned c = if turned then c else { c with retHops := (c.retHops + 1) % 65536 } := by
  have hb : bit c.word 11 = true := hd
  cases turned <;> simp [carLeaves, orBit, hb]

theorem carLeaves_out {c : Car} (turned : Bool) (hd : c.dir = false) :
    carLeaves true turned c = { c with hops := (c.hops + 1) % 65536, word := if turned then c.word + 2 ^ 11 else c.word } := by
  have hb : bit c.word 11 = false := hd
  cases turned <;> simp [carLeaves, orBit, hb]

end Sys2Proof.Machine

end


section
/-! ## The device as a station: its output slot (R98, R110, R114, R129, R132) -/

open Sys2Proof Sys2Proof.Machine
namespace Sys2Proof.Machine

/-! ### The words of an output slot -/

/-- Write `w k` at the SI words `b + k`, `k < m`, for which `cond` holds. -/
def siPutWhere (m b : Nat) (cond : Nat → Prop) [DecidablePred cond] (w : Nat → DWord) (s : State) : State :=
  forN m s fun k s => if cond k then imgPut 0 (b + k) (w k) s else s

theorem siPutWhere_word (m b j : Nat) (cond : Nat → Prop) [DecidablePred cond] (w : Nat → DWord) {s : State} (h : SiWf s) :
    SiWf (siPutWhere m b cond w s) ∧ imgGetWork (siPutWhere m b cond w s) 0 j =
      if (b ≤ j ∧ j < b + m) ∧ cond (j - b) then w (j - b) else imgGetWork s 0 j := by
  induction m with
  | zero =>
    rw [if_neg (by omega)]
    exact ⟨h, rfl⟩
  | succ m ih =>
    obtain ⟨hwf, hword⟩ := ih
    rw [show siPutWhere (m + 1) b cond w s = if cond m then imgPut 0 (b + m) (w m) (siPutWhere m b cond w s)
      else siPutWhere m b cond w s from forN_succ ..]
    by_cases hj : j = b + m
    · subst hj
      rw [if_neg (by omega)] at hword
      simp only [Nat.add_sub_cancel_left]
      split
      · next hc => exact ⟨siWord_put_wf _ _ hwf, by rw [siWord_put _ _ _ hwf, if_pos rfl, if_pos ⟨by omega, hc⟩]⟩
      · next hc => exact ⟨hwf, by rw [hword, if_neg fun h => hc h.2]⟩
    · have hr : (b ≤ j ∧ j < b + (m + 1)) ↔ b ≤ j ∧ j < b + m := by omega
      simp only [hr]
      split
      · exact ⟨siWord_put_wf _ _ hwf, by rw [siWord_put _ _ _ hwf, if_neg hj, hword]⟩
      · exact ⟨hwf, hword⟩

theorem thruApply_eq (n : Nat) (data : List Byte) (s : State) : thruApply n data s =
    siPutWhere 5 (16 * n + 1) (fun k => bit (u16 data 2) k = true ∧ ¬ bit (u16 data 0) 0 = true)
      (fun k => mkWord (w32 data (4 + 4 * k)) .good) (imgPut 0 (16 * n) (mkWord (BitVec.ofNat 32 (u16 data 0)) .good) s) := rfl

/-- R132: `t` holds the command, and the values that are valid and not held; its others are those of `s`. -/
def SiTaken (n : Nat) (data : List Byte) (s t : State) : Prop :=
  imgGetWork t 0 (16 * n) = mkWord (BitVec.ofNat 32 (u16 data 0)) .good ∧
  ∀ i < 5, (bit (u16 data 2) i = true → bit (u16 data 0) 0 = false →
      imgGetWork t 0 (16 * n + 1 + i) = mkWord (w32 data (4 + 4 * i)) .good) ∧
    (bit (u16 data 2) i = false ∨ bit (u16 data 0) 0 = true →
      imgGetWork t 0 (16 * n + 1 + i) = imgGetWork s 0 (16 * n + 1 + i))

theorem thruApply_taken (n : Nat) (data : List Byte) {s : State} (h : SiWf s) : SiTaken n data s (thruApply n data s) := by
  have h1 := siWord_put_wf (16 * n) (mkWord (BitVec.ofNat 32 (u16 data 0)) .good) h
  refine ⟨?_, fun i hi => ?_⟩
  · rw [thruApply_eq, (siPutWhere_word _ _ _ _ _ h1).2, if_neg (by omega), siWord_put _ _ _ h, if_pos rfl]
  · rw [thruApply_eq, (siPutWhere_word _ _ _ _ _ h1).2, siWord_put _ _ _ h, if_neg (by omega : 16 * n + 1 + i ≠ 16 * n),
      Nat.add_sub_cancel_left]
    refine ⟨fun hv hh => if_pos ⟨⟨by omega, by omega⟩, hv, by rw [hh]; decide⟩, fun hn => if_neg ?_⟩
    rintro ⟨-, hv, hh⟩
    exact hn.elim (fun h => by rw [h] at hv; exact absurd hv (by decide)) hh

theorem thruApply_imageOnly (n : Nat) (data : List Byte) (s : State) : ImageOnly s (thruApply n data s) := by
  refine (imgPut_imageOnly 0 (16 * n) _ s).trans (forL_imageOnly _ _ _ fun k t => ?_)
  split
  · exact imgPut_imageOnly ..
  · rfl

theorem thruApply_thru (n : Nat) (data : List Byte) (s : State) (p : Nat) : thruSt (thruApply n data s) p = thruSt s p := by
  rw [thruSt, thruApply_imageOnly]
  rfl

/-! ### The slot's acceptance -/

/-- R102, R104, R105: the slot is of no lower epoch, and its MAC verifies or the line uses none. -/
def thruSlotOk (p : Nat) (r : Station) (k : Nat) (c : Car) (s : State) : Bool :=
  decide ((thruSt s p).epoch ≤ c.epoch) && (!lineAuth (theTt s) p ||
    slice c.body (32 * k + 24) 8 == thruMac s p c.line c.train r.station 1 c.epoch (slice c.body (32 * k) 24))

theorem thruSlotOk_iff {p : Nat} {r : Station} {k : Nat} {c : Car} {s : State} (he : (thruSt s p).epoch ≤ c.epoch) :
    thruSlotOk p r k c s = true ↔ lineAuth (theTt s) p = false ∨
      slice c.body (32 * k + 24) 8 = thruMac s p c.line c.train r.station 1 c.epoch (slice c.body (32 * k) 24) := by
  simp [thruSlotOk, he]

theorem trainNewer_iff (n last : Nat) : trainNewer n last = true ↔
    1 ≤ (n + 2 ^ 32 - last) % 2 ^ 32 ∧ (n + 2 ^ 32 - last) % 2 ^ 32 < 2 ^ 31 := decide_eq_true_iff

/-- What is noted of a slot that verifies: a refusal ends a request. -/
def thruNoted (ok : Bool) (data : List Byte) (x : ThruSt) : ThruSt :=
  if ok ∧ bit (u16 data 0) 2 then { x with wait := 64, nonce := none } else x

theorem thruNoted_views (ok : Bool) (data : List Byte) (x : ThruSt) : (thruNoted ok data x).last = x.last ∧
    (thruNoted ok data x).applyAt = x.applyAt ∧ (thruNoted ok data x).held = x.held := by
  unfold thruNoted
  split <;> exact ⟨rfl, rfl, rfl⟩

/-- R129: a joined station accepts a newer slot that verifies, and notes any that verifies. -/
theorem thruOutput_joined {p k : Nat} {r : Station} {time : Int} {c : Car} {s : State} (hj : (thruSt s p).joined = true) :
    thruOutput p r time k c s =
      let data := slice c.body (32 * k) 24
      let x := thruNoted (thruSlotOk p r k c s) data (thruSt s p)
      if thruSlotOk p r k c s && trainNewer c.train (thruSt s p).last then
        ({ c with ack := orBit c.ack k true }, thruAccept p r.station time data
          (setThru p { x with last := c.train, epoch := c.epoch, nonce := none, joinedRun := (thruSt s p).run } s))
      else ({ c with fault := orBit c.fault k true }, setThru p x s) := by
  unfold thruOutput
  simp only [hj, if_true]
  rfl

/-- What acceptance leaves of the device's station, up to R114: the train is the last accepted one. -/
structure ThruTaken (p train : Nat) (s s2 : State) : Prop where
  through : ThruWf s2
  img : s2.img = s.img
  last : (thruSt s2 p).last = train
  applyAt : (thruSt s2 p).applyAt = (thruSt s p).applyAt
  held : (thruSt s2 p).held = (thruSt s p).held

theorem thruOutput_accepts {p k : Nat} {r : Station} {c : Car} {s : State} (time : Int) (ht : ThruWf s)
    (hj : (thruSt s p).joined = true) (hok : thruSlotOk p r k c s = true) (hn : trainNewer c.train (thruSt s p).last = true) :
    ∃ s2, ThruTaken p c.train s s2 ∧
      (thruOutput p r time k c s).2 = thruAccept p r.station time (slice c.body (32 * k) 24) s2 := by
  obtain ⟨-, ha, hh⟩ := thruNoted_views true (slice c.body (32 * k) 24) (thruSt s p)
  rw [thruOutput_joined hj]
  simp only [hok, hn, Bool.and_self, if_true]
  exact ⟨_, ⟨setThru_thruWf _ _ ht, rfl, by rw [thruSt_setThru _ _ ht], by rwa [thruSt_setThru _ _ ht],
    by rwa [thruSt_setThru _ _ ht]⟩, rfl⟩

theorem thruOutput_rejects {p k : Nat} {r : Station} {c : Car} {s : State} (time : Int) (ht : ThruWf s)
    (hj : (thruSt s p).joined = true) (h : ¬ (thruSlotOk p r k c s = true ∧ trainNewer c.train (thruSt s p).last = true)) :
    (thruOutput p r time k c s).2.img = s.img ∧ (thruSt (thruOutput p r time k c s).2 p).last = (thruSt s p).last := by
  rw [thruOutput_joined hj, ← Bool.and_eq_true] at *
  dsimp only
  rw [if_neg h, thruSt_setThru _ _ ht]
  exact ⟨rfl, (thruNoted_views ..).1⟩

/-- R114: an accepted slot applies at once, or waits for its instant. -/
theorem thruAccept_laws {p n : Nat} {now : Int} {data : List Byte} {s : State} (ht : ThruWf s) :
    (thruSt (thruAccept p n now data s) p).last = (thruSt s p).last ∧
    (now < (thruSt s p).applyAt → (thruAccept p n now data s).img = s.img ∧
      (thruSt (thruAccept p n now data s) p).held = (thruSt s p).held ++ [((thruSt s p).applyAt, n, data)]) ∧
    ((thruSt s p).applyAt ≤ now → thruAccept p n now data s = thruApply n data s) := by
  unfold thruAccept
  dsimp only
  split
  · next h => exact ⟨by rw [thruApply_thru], fun h' => absurd h (not_le.2 h'), fun _ => rfl⟩
  · next h =>
    rw [thruSt_setThru _ _ ht]
    exact ⟨rfl, fun _ => ⟨rfl, rfl⟩, fun h' => absurd h' h⟩

/-- What an accepted slot does, told of the state before it was noted (R114, R132). -/
theorem ThruTaken.accepted {p train : Nat} {s s2 : State} (h : ThruTaken p train s s2) (hs : SiWf s) (n : Nat) (now : Int)
    (data : List Byte) :
    (thruSt (thruAccept p n now data s2) p).last = train ∧
    (now < (thruSt s p).applyAt → (thruAccept p n now data s2).img = s.img ∧
      (thruSt (thruAccept p n now data s2) p).held = (thruSt s p).held ++ [((thruSt s p).applyAt, n, data)]) ∧
    ((thruSt s p).applyAt ≤ now → SiTaken n data s (thruAccept p n now data s2)) := by
  obtain ⟨hlast, hlater, hnow⟩ := thruAccept_laws (p := p) (n := n) (now := now) (data := data) h.through
  rw [h.applyAt, h.held, h.img] at hlater
  rw [h.applyAt] at hnow
  have hsi : imgGetWork s2 0 = imgGetWork s 0 := by
    funext i
    rw [imgGetWork, h.img]
    rfl
  refine ⟨hlast.trans h.last, hlater, fun hn => ?_⟩
  have hw := thruApply_taken n data (s := s2) (by rwa [SiWf, h.img])
  rwa [SiTaken, hsi, ← hnow hn] at hw

/-- The device's own slot in an output car that goes out, from the upstream port (R90, R96). -/
theorem thruProcess_output {p k : Nat} {r : Station} {time residence : Int} {turned : Bool} {c : Car} {s : State}
    (hk : c.kind = 2) (hd : c.dir = false) (hr : thruRecord s p = some r) (hs : thruSlot (thruSt s p) c = some k) :
    thruProcess p time residence turned c s = thruOutput p r time k c s := by
  unfold thruProcess
  simp [hk, hd, hr, hs]

/-- An ordinary car that goes out tells the device its line and its position. -/
theorem thruLearn_out {q : Nat} {c : Car} {x : ThruSt} (hd : c.dir = false) (hg : c.guest = false) (he : x.epoch ≤ c.epoch) :
    thruLearn q q c x = { x with line := c.line, pos := some c.hops } := by
  simp [thruLearn, hd, hg, he]

theorem thruSlot_learned {c : Car} {x : ThruSt} (hg : c.guest = false) (hf : c.first ≤ c.hops) (hk : c.hops - c.first < c.slots) :
    thruSlot { x with line := c.line, pos := some c.hops } c = some (c.hops - c.first) := by
  simp [thruSlot, hg, hf, hk]

/-- A MAC is made under the key that is latched, or in force. -/
theorem thruMac_setThru {p : Nat} {x : ThruSt} {s : State} (ht : ThruWf s) (hx : x.key = (thruSt s p).key)
    (line train st kind e : Nat) (data : List Byte) :
    thruMac (setThru p x s) p line train st kind e data = thruMac s p line train st kind e data := by
  unfold thruMac
  rw [thruSt_setThru _ _ ht, hx]
  rfl

/-- What the device knows once an ordinary car that goes out has passed: line and position. -/
def thruShown (q : Nat) (c : Car) (s : State) : State := setThru q { thruSt s q with line := c.line, pos := some c.hops } s

theorem thruShown_st (q : Nat) (c : Car) {s : State} (hs : ThruWf s) :
    thruSt (thruShown q c s) q = { thruSt s q with line := c.line, pos := some c.hops } := thruSt_setThru _ _ hs

theorem thruShown_wf (q : Nat) (c : Car) {s : State} (hs : ThruWf s) : ThruWf (thruShown q c s) := setThru_thruWf _ _ hs

theorem thruSlotOk_shown {q k : Nat} {r : Station} {c : Car} {s : State} (hs : ThruWf s) (he : (thruSt s q).epoch ≤ c.epoch) :
    thruSlotOk q r k c (thruShown q c s) = true ↔ lineAuth (theTt s) q = false ∨
      slice c.body (32 * k + 24) 8 = thruMac s q c.line c.train r.station 1 c.epoch (slice c.body (32 * k) 24) := by
  have hm := thruMac_setThru (p := q) (x := { thruSt s q with line := c.line, pos := some c.hops }) hs rfl
  rw [thruSlotOk_iff (by rw [thruShown_st _ _ hs]; exact he), thruShown, hm]
  rfl

/-- An output car that goes out with a slot of the device's: it is judged by a device that has learned from the car. -/
theorem carArrive_output {q other : Nat} {f : List Byte} {time residence : Int} {onward : Bool} {s : State} {c : Car}
    {r : Station} (ho : thruOther s q = some other) (hf : thruForwards s q = true) (hg : frameOk f = true)
    (he : thruEther s q f = true) (hc : carOf (framePayload f) = some c) (hs : ThruWf s) (hk : c.kind = 2) (hd : c.dir = false)
    (hgu : c.guest = false) (hq : min q other = q) (hr : thruRecord s q = some r) (hep : (thruSt s q).epoch ≤ c.epoch)
    (hfi : c.first ≤ c.hops) (hsl : c.hops - c.first < c.slots) :
    ∃ fwd s2, (thruOutput q r time (c.hops - c.first) c (thruShown q c s)).2 = s2 ∧
      exec (.throughCarArrive q f time residence onward) s = .next (setSlk { s2.slk with fwd := fwd } s2) := by
  have hl : thruLearned q q c s = thruShown q c s := by rw [thruLearned, thruLearn_out hd hgu hep, thruShown]
  have hslot : thruSlot (thruSt (thruLearned q q c s) q) c = some (c.hops - c.first) := by
    rw [hl, thruShown_st _ _ hs, thruSlot_learned hgu hfi hsl]
  have hp : ∀ turned, thruProcess q time residence turned c (thruLearned q q c s) =
      thruOutput q r time (c.hops - c.first) c (thruShown q c s) := fun turned =>
    hl ▸ thruProcess_output hk hd hr hslot
  refine ⟨_, _, rfl, (carArrive_car ho hf hg he hc).trans (congrArg _ (thruForward_eq (Eq.trans ?_ Prod.mk.eta.symm)))⟩
  rw [hq]
  exact hp _

end Sys2Proof.Machine

/-- Settles O50: a car is forwarded as `thruForward_eq` says; the device's own slot is accepted or not by `thruOutput_joined`. -/
theorem throughMode : Obligations.ThroughMode := by
  refine ⟨fun s hg hv => if_pos ⟨hg, hv⟩, fun q other f time residence onward s ho hf => ?_⟩
  intro row x
  refine ⟨carArrive_short ho hf, fun h hb => ⟨_, carArrive_bad ho hf h hb, rfl⟩, carArrive_foreign ho hf,
    fun c hg he hc hk hd => ?_, fun c hg he hc hk hd hr => ?_, ?_⟩
  · have hx : thruLearn q (min q other) c x = x := thruLearn_back x hd
    refine ⟨_, (carArrive_car ho hf hg he hc).trans (congrArg _ (thruForward_eq (thruProcess_back _ _ _ _ hk hd))), rfl,
      by rw [thruLearned, hx]; rfl, ?_⟩
    have ht := thruTurns_iff x c onward
    intro turned body on
    rw [hx, hd]
    refine ⟨fun h => ?_, fun h => ?_⟩
    · rw [ht.2 h]
      simp only [Bool.not_true, carLeaves_back _ hd]
      rfl
    · rw [Bool.eq_false_iff.2 (mt ht.1 h)]
      simp only [Bool.not_true, carLeaves_back _ hd]
      rfl
  · refine ⟨_, (carArrive_car ho hf hg he hc).trans (congrArg _ (thruForward_eq (thruProcess_unrostered _ _ _ hk hr))), rfl, ?_⟩
    intro y turned body
    have ht := thruTurns_iff (thruLearn q (min q other) c (thruSt s (min q other))) c onward
    refine ⟨fun h => ?_, fun h => ?_⟩
    · rw [ht.2 h, hd]
      simp only [Bool.not_false, carLeaves_out _ hd]
      rfl
    · rw [Bool.eq_false_iff.2 (mt ht.1 h), hd]
      simp only [Bool.not_false, carLeaves_out _ hd]
      rfl
  · intro c r k hs hg he hc hk hd hgu hq
    subst x
    rw [min_eq_left hq.le]
    intro hr hj hep hfi hkk hsl data good newer
    subst hkk
    obtain ⟨fwd, s2, ho2, hrow⟩ := carArrive_output ho hf hg he hc hs.through hk hd hgu (min_eq_left hq.le) hr hep hfi hsl
      (time := time) (residence := residence) (onward := onward)
    have hok := thruSlotOk_shown (k := c.hops - c.first) (r := r) hs.through hep
    have hx := thruShown_st q c hs.through
    have hwf := thruShown_wf q c hs.through
    have hnew : trainNewer c.train (thruSt (thruShown q c s) q).last = true ↔ newer := by
      rw [trainNewer_iff, hx]
    have hj1 : (thruSt (thruShown q c s) q).joined = true := by rw [hx]; exact hj
    refine ⟨_, hrow, ?_⟩
    by_cases hacc : good ∧ newer
    · obtain ⟨s3, h3, ho3⟩ := thruOutput_accepts time hwf hj1 (hok.2 hacc.1) (hnew.2 hacc.2)
      have hlaws := h3.accepted hs.si r.station time data
      rw [← ho3, ho2, hx] at hlaws
      obtain ⟨hlast, hlater, hnow⟩ := hlaws
      exact ⟨fun _ _ => hlast, fun _ _ => hlater, fun _ _ => hnow, fun h => absurd hacc (not_and_or.2 h)⟩
    · obtain ⟨himg, hlast⟩ := thruOutput_rejects (r := r) (k := c.hops - c.first) time hwf hj1
        (mt (fun h => ⟨hok.1 h.1, hnew.1 h.2⟩) hacc)
      rw [hx, ho2] at hlast
      rw [ho2] at himg
      exact ⟨fun h1 h2 => absurd ⟨h1, h2⟩ hacc, fun h1 h2 => absurd ⟨h1, h2⟩ hacc, fun h1 h2 => absurd ⟨h1, h2⟩ hacc,
        fun _ => ⟨himg, hlast⟩⟩

end


section
/-! ## Loops: what a sample shows, and what goes on beside it (R255, R263, R273, R278) -/

open Sys2Proof Sys2Proof.Machine
namespace Sys2Proof.Machine

/-! ### The place of the loop engine in its tick -/

/-- R254: the tick of the last sample, and the loop from which due loops are still to sample in it. -/
def lpePlaceOf (s : State) : Nat × Nat := (s.lpe.tick, s.lpe.next)

theorem Recorded.lpe {s t : State} (h : Recorded s t) : t.lpe = s.lpe := by rw [h]

theorem outWrite_lpe (ref : Nat) (w : DWord) (s : State) : (outWrite ref w s).lpe = s.lpe := by
  unfold outWrite
  split <;> rfl

theorem outWrite_regs (ref : Nat) (w : DWord) (s : State) : (outWrite ref w s).regs = s.regs := by
  unfold outWrite
  split <;> rfl

@[simp] theorem ite_lpePlaceOf (p : Prop) [Decidable p] (a b : State) :
    lpePlaceOf (if p then a else b) = if p then lpePlaceOf a else lpePlaceOf b := by split <;> rfl

@[simp] theorem setReg_lpePlaceOf (a : Nat) (v : Word) (s : State) : lpePlaceOf (setReg a v s) = lpePlaceOf s := Eq.refl _

@[simp] theorem setFld_lpePlaceOf (a hi lo v : Nat) (s : State) : lpePlaceOf (setFld a hi lo v s) = lpePlaceOf s := Eq.refl _

@[simp] theorem incFld_lpePlaceOf (a hi lo : Nat) (s : State) : lpePlaceOf (incFld a hi lo s) = lpePlaceOf s := Eq.refl _

@[simp] theorem causeS_lpePlaceOf (reg b src : Nat) (s : State) : lpePlaceOf (causeS reg b src s) = lpePlaceOf s := by
  rw [lpePlaceOf, (causeS_recorded ..).lpe, lpePlaceOf]

@[simp] theorem outWrite_lpePlaceOf (ref : Nat) (w : DWord) (s : State) : lpePlaceOf (outWrite ref w s) = lpePlaceOf s := by
  rw [lpePlaceOf, outWrite_lpe, lpePlaceOf]

@[simp] theorem loopSet_lpePlaceOf (k : Nat) (x : LoopSt) (s : State) : lpePlaceOf (loopSet k x s) = lpePlaceOf s := Eq.refl _

@[simp] theorem injSet_lpePlaceOf (c : Nat) (x : Injector) (s : State) : lpePlaceOf (injSet c x s) = lpePlaceOf s := Eq.refl _

@[simp] theorem injSample_lpePlaceOf (c : Nat) (h : Rat) (s : State) : lpePlaceOf (injSample c h s).2 = lpePlaceOf s := by
  unfold injSample
  dsimp only
  split <;> rfl

@[simp] theorem injAbort_lpePlaceOf (c : Nat) (s : State) : lpePlaceOf (injAbort c s) = lpePlaceOf s := by
  unfold injAbort
  dsimp only
  split
  · rw [lpePlaceOf, (cause_recorded ..).lpe]
    rfl
  · rfl

@[simp] theorem injAbortLoop_lpePlaceOf (k : Nat) (s : State) : lpePlaceOf (injAbortLoop k s) = lpePlaceOf s := by
  unfold injAbortLoop
  split
  · exact injAbort_lpePlaceOf ..
  · rfl

@[simp] theorem loopEnterFb_lpePlaceOf (k : Nat) (s : State) : lpePlaceOf (loopEnterFb k s) = lpePlaceOf s := by
  simp [loopEnterFb]

@[simp] theorem loopEmit_lpePlaceOf (r : LoopRec) (x : LoopSt) (u : Word) (q pvq : Quality) (lim : Bool × Bool × Bool)
    (still : Bool) (s : State) : lpePlaceOf (loopEmit r x u q pvq lim still s) = lpePlaceOf s := by
  simp [loopEmit, countLate]

@[simp] theorem loopFallback_lpePlaceOf (r : LoopRec) (c : Coef) (h : Rat) (x : LoopSt) (f : Rat) (ffBad : Bool)
    (pvq : Quality) (s : State) : lpePlaceOf (loopFallback r c h x f ffBad pvq s) = lpePlaceOf s := by
  unfold loopFallback
  split <;> simp

@[simp] theorem loopManual_lpePlaceOf (r : LoopRec) (c : Coef) (h sg : Rat) (x : LoopSt) (inp : LoopInputs) (f : Rat)
    (s : State) : lpePlaceOf (loopManual r c h sg x inp f s) = lpePlaceOf s := by
  have hf (t : State) : lpePlaceOf (fresh t).2 = lpePlaceOf t := rfl
  unfold loopManual
  rw [loopEmit_lpePlaceOf]
  split <;> split <;> simp [hf]

/-! ### What the capture units and the time of the tick leave alone -/

/-- `t` differs from `s` outside the image and the loops' states and banks only. -/
structure BesideLoops (s t : State) : Prop where
  img : t.img = s.img
  loops : t.lpe.loops = s.lpe.loops
  place : lpePlaceOf t = lpePlaceOf s
  regs : RegsWf s → RegsWf t ∧ ∀ a, Reg.LPE_L_CTL ≤ a → getReg t a = getReg s a

namespace BesideLoops

theorem refl (s : State) : BesideLoops s s := ⟨rfl, rfl, rfl, fun h => ⟨h, fun _ _ => rfl⟩⟩

theorem trans {s t u : State} (h : BesideLoops s t) (k : BesideLoops t u) : BesideLoops s u where
  img := k.img.trans h.img
  loops := k.loops.trans h.loops
  place := k.place.trans h.place
  regs hs :=
    have ht := h.regs hs
    have hu := k.regs ht.1
    ⟨hu.1, fun a ha => (hu.2 a ha).trans (ht.2 a ha)⟩

theorem forN {n : Nat} {f : Nat → State → State} (h : ∀ c < n, ∀ t, BesideLoops t (f c t)) (s : State) :
    BesideLoops s (Machine.forN n s f) :=
  List.foldlRecOn _ _ (refl s) fun t ht c hc => ht.trans (h c (List.mem_range.1 hc) t)

end BesideLoops

theorem setReg_besideLoops {a : Nat} (h : a < Reg.LPE_L_CTL) (v : Word) (s : State) : BesideLoops s (setReg a v s) :=
  ⟨rfl, rfl, rfl, fun hs => ⟨setReg_wf a v s hs, fun b hb => by rw [getReg_setReg a b v s hs, if_neg (by omega)]⟩⟩

theorem capSet_besideLoops {c : Nat} (hc : c < 4) (x : Capture) (s : State) : BesideLoops s (capSet c x s) :=
  .trans (t := { s with lpe := { s.lpe with cap := setNth s.lpe.cap c x } }) ⟨rfl, rfl, rfl, fun h => ⟨h, fun _ _ => rfl⟩⟩
    (setReg_besideLoops (by simp only [Reg.LPE_CAP_STAT, Reg.LPE_L_CTL]; omega) _ _)

theorem capRecord_besideLoops {c : Nat} (hc : c < 4) (sig : CapSignals) (s : State) :
    BesideLoops s (capRecord c sig s) := by
  unfold capRecord
  extract_lets a sel len cont x vs bytes suspect buf s1 s2 wrap
  split
  · exact .refl s
  · have h1 : BesideLoops s s1 := ⟨rfl, rfl, rfl, fun h => ⟨h, fun _ _ => rfl⟩⟩
    have h2 : BesideLoops s1 s2 := by
      simp only [s2]
      split
      · exact setReg_besideLoops (by simp only [a, Reg.LPE_CAP_T0, Reg.LPE_L_CTL]; omega) _ _
      · exact .refl s1
    exact (h1.trans h2).trans (capSet_besideLoops hc ..)

theorem capSample_besideLoops (k : Nat) (first : Bool) (sig : CapSignals) (s : State) :
    BesideLoops s (capSample k first sig s) := by
  refine .forN (fun c hc t => ?_) s
  extract_lets a x start y dec t1
  have h1 : BesideLoops t t1 := capSet_besideLoops hc ..
  split
  · exact .refl t
  · split
    · exact .refl t
    · split
      · exact h1.trans (capRecord_besideLoops hc ..)
      · exact h1

theorem loopTime_besideLoops (s : State) : BesideLoops s (loopTime s) := by
  have hf : BesideLoops s (fresh s).2 := ⟨rfl, rfl, rfl, fun h => ⟨h, fun _ _ => rfl⟩⟩
  unfold loopTime maxFld
  split
  · exact hf.trans (setReg_besideLoops (by decide) _ _)
  · exact hf

@[simp] theorem capSample_lpePlaceOf (k : Nat) (first : Bool) (sig : CapSignals) (s : State) :
    lpePlaceOf (capSample k first sig s) = lpePlaceOf s := (capSample_besideLoops ..).place

@[simp] theorem loopAuto_lpePlaceOf (r : LoopRec) (c : Coef) (h sg : Rat) (x : LoopSt) (inp : LoopInputs) (f fOld : Rat)
    (fq : Quality) (s : State) : lpePlaceOf (loopAuto r c h sg x inp f fOld fq s) = lpePlaceOf s := by
  unfold loopAuto
  dsimp only
  rw [capSample_lpePlaceOf, loopEmit_lpePlaceOf]
  split
  · exact injSample_lpePlaceOf ..
  · rfl

theorem loopSample_lpePlaceOf (r : LoopRec) (s : State) : lpePlaceOf (loopSample r s) = lpePlaceOf s := by
  simp [loopSample]

/-! ### The output of a sample -/

/-- Loop `k` shows a sample: its state, the output in its register, and the output's quality (R263, R278). -/
structure LoopShown (k : Nat) (x : LoopSt) (u : Word) (q : Quality) (t : State) : Prop where
  state : loopGet t k = x
  out : getReg t (Reg.LPE_L_OUT + 0x40 * k) = u
  quality : getFld t (Reg.LPE_L_STAT + 0x40 * k) 3 2 = qCode q
  wf : RegsWf t

/-- Work beside the loops leaves a sample shown. -/
theorem LoopShown.beside {k : Nat} {x : LoopSt} {u : Word} {q : Quality} {s t : State} (h : LoopShown k x u q s)
    (hb : BesideLoops s t) : LoopShown k x u q t := by
  obtain ⟨hwf, hreg⟩ := hb.regs h.wf
  refine ⟨?_, ?_, ?_, hwf⟩
  · rw [← h.state, loopGet, hb.loops, loopGet]
  · rw [hreg _ (by simp only [Reg.LPE_L_OUT, Reg.LPE_L_CTL]; omega), h.out]
  · rw [getFld_congr (hreg _ (by simp only [Reg.LPE_L_STAT, Reg.LPE_L_CTL]; omega)), h.quality]

/-- LPE_Lk_STAT.out_q, under the fields above it. -/
theorem field_loopStat (pvq q : Quality) (a b c d e : Nat) :
    field (setField (setField (setField (setField (setField (setField (setField 0#32 1 0 (qCode pvq)) 3 2 (qCode q)) 4 4 a)
      5 5 b) 6 6 c) 7 7 d) 8 8 e) 3 2 = qCode q := by
  have apart (w : Word) (i v : Nat) (hi : 3 < i ∧ i < 32) : field (setField w i i v) 3 2 = field w 3 2 :=
    field_setField_apart w v hi.2 le_rfl (by decide) (.inl hi.1)
  rw [apart _ 8 _ (by decide), apart _ 7 _ (by decide), apart _ 6 _ (by decide), apart _ 5 _ (by decide),
    apart _ 4 _ (by decide), field_setField _ _ _ _ (by decide) (by decide)]
  cases q <;> rfl

theorem loopGet_loopSet (k : Nat) (x : LoopSt) {s : State} (h : smWf (fun _ => ({} : LoopSt)) s.lpe.loops = true) :
    loopGet (loopSet k x s) k = x := (smGet_put _ _ k k x h).trans (if_pos rfl)

/-- R255: what a sample writes is what its bank shows. -/
theorem loopEmit_shown {r : LoopRec} {x : LoopSt} {u : Word} {q pvq : Quality} {lim : Bool × Bool × Bool} {still : Bool}
    {s : State} (hr : RegsWf s) (hl : smWf (fun _ => ({} : LoopSt)) s.lpe.loops = true) :
    LoopShown r.loop x u q (loopEmit r x u q pvq lim still s) := by
  unfold loopEmit
  extract_lets k s0 s1 st st2
  have hs1 : RegsWf s1 ∧ s1.lpe = s.lpe := by
    have h0 : RegsWf s0 := by rw [RegsWf, outWrite_regs]; exact hr
    simp only [s1]
    split
    · exact ⟨setFld_wf _ _ _ _ h0, outWrite_lpe ..⟩
    · exact ⟨h0, outWrite_lpe ..⟩
  obtain ⟨hwf, hlpe⟩ := hs1
  have hwf0 : RegsWf (loopSet k x s1) := hwf
  have hwf1 : RegsWf (setReg (loopReg Reg.LPE_L_OUT k) u (loopSet k x s1)) := setReg_wf _ _ _ hwf0
  have hwf2 := setReg_wf (loopReg Reg.LPE_L_SPEFF k) x.spEff _ hwf1
  refine ⟨?_, ?_, ?_, setReg_wf _ _ _ hwf2⟩
  · exact loopGet_loopSet k x (by rw [hlpe]; exact hl)
  · change getReg _ (loopReg Reg.LPE_L_OUT k) = u
    rw [getReg_setReg _ _ _ _ hwf2, if_neg (by simp only [loopReg, Reg.LPE_L_OUT, Reg.LPE_L_STAT]; omega),
      getReg_setReg _ _ _ _ hwf1, if_neg (by simp only [loopReg, Reg.LPE_L_OUT, Reg.LPE_L_SPEFF]; omega),
      getReg_setReg _ _ _ _ hwf0, if_pos rfl]
  · change getFld _ (loopReg Reg.LPE_L_STAT k) 3 2 = qCode q
    rw [getFld, getReg_setReg _ _ _ _ hwf2, if_pos rfl]
    exact field_loopStat ..

/-- A sample of a loop: it writes its output with a quality, and the capture units take what it has computed. -/
def Sampled (r : LoopRec) (x : LoopSt) (u : Word) (q : Quality) (s t : State) : Prop :=
  ∃ first sig pvq lim still, t = capSample r.loop first sig (loopEmit r x u q pvq lim still s)

theorem Sampled.shown {r : LoopRec} {x : LoopSt} {u : Word} {q : Quality} {s t : State} (h : Sampled r x u q s t)
    (hr : RegsWf s) (hl : smWf (fun _ => ({} : LoopSt)) s.lpe.loops = true) : LoopShown r.loop x u q t := by
  obtain ⟨first, sig, pvq, lim, still, rfl⟩ := h
  exact (loopEmit_shown hr hl).beside (capSample_besideLoops ..)

/-- What a sample shows once the tick's time is taken (R256): the loop holds its output as u_prev. -/
theorem Sampled.timed {r : LoopRec} {x : LoopSt} {u : Word} {q : Quality} {s t : State} (h : Sampled r x u q s t)
    (hr : RegsWf s) (hl : smWf (fun _ => ({} : LoopSt)) s.lpe.loops = true) (hx : x.uPrev = u) :
    (getReg (loopTime t) (Reg.LPE_L_OUT + 0x40 * r.loop) = u ∧ (loopGet (loopTime t) r.loop).uPrev = u ∧
      getFld (loopTime t) (Reg.LPE_L_STAT + 0x40 * r.loop) 3 2 = qCode q) ∧ loopGet (loopTime t) r.loop = x := by
  obtain ⟨hst, hout, hq, -⟩ := (h.shown hr hl).beside (loopTime_besideLoops t)
  exact ⟨⟨hout, by rw [hst, hx], hq⟩, hst⟩

end Sys2Proof.Machine
end


section
/-! ## One sample of a loop: manual mode, fallback, and the laws in automatic mode (R257 to R259, R262, R263, R265) -/

open Sys2Proof Sys2Proof.Machine
namespace Sys2Proof.Machine

/-- R258: rate(clamp(v, out_min, out_max)) of a loop that samples. -/
def loopLimited (r : LoopRec) (s : State) (v : Rat) : Rat :=
  (loopLimit (coefGet s r.loop) (r.period / 1024) (f32RatD (loopGet s r.loop).uPrev) v).1

/-! ### The setpoint -/

/-- Reading the setpoint changes nothing but what the loop knows of it. -/
theorem loopSp_eq (c : Coef) (h : Rat) (x : LoopSt) (sp : Rat × Quality) (pv : Option (Rat × Quality)) :
    loopSp c h x sp pv = { x with spEff := (loopSp c h x sp pv).spEff, spKnown := (loopSp c h x sp pv).spKnown } := by
  unfold loopSp
  split <;> rfl

theorem loopSp_uPrev (c : Coef) (h : Rat) (x : LoopSt) (sp : Rat × Quality) (pv : Option (Rat × Quality)) :
    (loopSp c h x sp pv).uPrev = x.uPrev := by rw [loopSp_eq]

theorem loopSp_fb (c : Coef) (h : Rat) (x : LoopSt) (sp : Rat × Quality) (pv : Option (Rat × Quality)) :
    (loopSp c h x sp pv).fb = x.fb := by rw [loopSp_eq]

theorem loopSp_released (c : Coef) (h : Rat) (x : LoopSt) (sp : Rat × Quality) (pv : Option (Rat × Quality)) :
    (loopSp c h x sp pv).released = x.released := by rw [loopSp_eq]

/-- R260: without sp_rate the effective setpoint is the setpoint. -/
theorem loopSp_unlimited {c : Coef} {h : Rat} {x : LoopSt} {v : Rat} (pv : Option (Rat × Quality))
    (hs : x.start = false) (hr : f32RatD c.spRate * h = 0) :
    loopSp c h x (v, .good) pv = { x with spEff := f32OfRat v, spKnown := true } := by
  simp [loopSp, hs, hr]

/-! ### Manual mode and fallback -/

/-- R265: a sample in manual mode that has begun. -/
theorem loopManual_emits {r : LoopRec} {c : Coef} {h sg : Rat} {x : LoopSt} {inp : LoopInputs} {f : Rat} {s : State}
    (hm : x.manual = true) (hf : f32IsFin (getReg s (loopReg Reg.LPE_L_MAN r.loop)) = true) :
    ∃ y pvq lim still,
      let u := f32OfRat (loopLimit c h (f32RatD x.uPrev) (f32RatD (getReg s (loopReg Reg.LPE_L_MAN r.loop)))).1
      y.uPrev = u ∧ loopManual r c h sg x inp f s = loopEmit r y u .good pvq lim still s := by
  simp only [loopManual, hm, if_true, hf, loopSp_uPrev]
  exact ⟨_, _, _, _, rfl, rfl⟩

/-- In manual mode the sample is `loopManual`, of a state with the loop's u_prev. -/
theorem loopSample_of_manual {r : LoopRec} {s : State} (hc : getBit s (loopReg Reg.LPE_L_CTL r.loop) 0 = true)
    (hm : (loopGet s r.loop).manual = true) (hr : (loopGet s r.loop).reinit = false) :
    ∃ sig sg x inp f, loopSample r s =
        capSample r.loop false sig (loopManual r (coefGet s r.loop) (r.period / 1024) sg x inp f s) ∧
      x.uPrev = (loopGet s r.loop).uPrev ∧ x.manual = true := by
  simp only [loopSample, hc, hm, hr, Bool.not_true, Bool.false_and, Bool.false_eq_true, if_false, if_true]
  exact ⟨_, _, _, _, _, rfl, rfl, rfl⟩

/-- R265: the output in manual mode. -/
theorem loopSample_manual {r : LoopRec} {s : State} (hc : getBit s (loopReg Reg.LPE_L_CTL r.loop) 0 = true)
    (hm : (loopGet s r.loop).manual = true) (hr : (loopGet s r.loop).reinit = false)
    (hf : f32IsFin (getReg s (loopReg Reg.LPE_L_MAN r.loop)) = true) :
    ∃ y, let u := f32OfRat (loopLimited r s (f32RatD (getReg s (loopReg Reg.LPE_L_MAN r.loop))))
      y.uPrev = u ∧ Sampled r y u .good s (loopSample r s) := by
  obtain ⟨sig, sg, x, inp, f, hs, hx, hxm⟩ := loopSample_of_manual hc hm hr
  obtain ⟨y, pvq, lim, still, hy, he⟩ := loopManual_emits (c := coefGet s r.loop) (h := r.period / 1024) (sg := sg)
    (inp := inp) (f := f) hxm hf
  rw [hx] at hy he
  exact ⟨y, hy, false, sig, pvq, lim, still, by rw [hs, he]; rfl⟩

theorem loopIn_bad {s : State} {ref : Nat} {w : DWord} (h : refGet s ref = some w) (hq : wordQ w = .bad) :
    (loopIn s ref).map (·.2) = some .bad := by
  simp only [loopIn, h, Option.map_some]
  split
  · rw [hq]
  · rfl

theorem loopIn_good {s : State} {ref : Nat} {w : DWord} (h : refGet s ref = some w) (hq : wordQ w = .good)
    (hf : f32IsFin (wordVal w) = true) : loopIn s ref = some (f32RatD (wordVal w), .good) := by
  simp only [loopIn, h, Option.map_some, hf, if_true, hq]

section
variable {r : LoopRec} {c : Coef} {h : Rat} {x : LoopSt} {f : Rat} {ffBad : Bool} {pvq : Quality} {s : State}

/-- R262 code 0. -/
theorem loopFallback_freeze (hf : r.fallback = 0) :
    loopFallback r c h x f ffBad pvq s = loopEmit r x x.uPrev .subst pvq (false, false, false) true s := by
  simp only [loopFallback, hf]

/-- R262 code 1. -/
theorem loopFallback_hold (hf : r.fallback = 1) :
    let l := loopLimit c h (f32RatD x.uPrev) (f32RatD c.hold)
    loopFallback r c h x f ffBad pvq s =
      loopEmit r { x with uPrev := f32OfRat l.1 } (f32OfRat l.1) .subst pvq l.2 true s := by
  simp only [loopFallback, hf]

/-- R262 code 3, R264: the BAD word carries the last output. -/
theorem loopFallback_release (hf : r.fallback = 3) (hx : x.released = false) :
    let last := getReg s (loopReg Reg.LPE_L_OUT r.loop)
    loopFallback r c h x f ffBad pvq s =
      loopEmit r { x with released := true, uPrev := last } last .bad pvq (false, false, false) true s := by
  simp only [loopFallback, hf, hx, Bool.false_eq_true, if_false]

/-- R262 code 3: once released, nothing is written. -/
theorem loopFallback_released (hf : r.fallback = 3) (hx : x.released = true) :
    (loopFallback r c h x f ffBad pvq s).img = s.img := by
  simp only [loopFallback, hf, hx, if_true]
  rfl

end

/-- A loop in fallback that samples in automatic mode, with a BAD process value `w` (R262). -/
structure FallsBack (r : LoopRec) (w : DWord) (s : State) : Prop where
  automatic : getBit s (loopReg Reg.LPE_L_CTL r.loop) 0 = false
  manual : (loopGet s r.loop).manual = false
  reinit : (loopGet s r.loop).reinit = false
  law : r.law ≠ 5
  fallback : (loopGet s r.loop).fb = true
  value : refGet s r.pvRef = some w
  bad : wordQ w = .bad

namespace FallsBack

variable {r : LoopRec} {w : DWord} {s : State}

/-- The sample is `loopFallback`, of a state with the loop's u_prev. -/
theorem sample (hs : FallsBack r w s) :
    ∃ sig x f ffBad pvq, loopSample r s =
        capSample r.loop false sig (loopFallback r (coefGet s r.loop) (r.period / 1024) x f ffBad pvq s) ∧
      x.uPrev = (loopGet s r.loop).uPrev ∧ x.released = (loopGet s r.loop).released := by
  obtain ⟨hc, hm, hr, hl, hb, hw, hq⟩ := hs
  have hpv : ((loopInputs s r (coefGet s r.loop)).pv.map (·.2)).getD .bad = .bad := by
    rw [show (loopInputs s r (coefGet s r.loop)).pv = loopIn s r.pvRef from rfl, loopIn_bad hw hq]
    rfl
  simp only [loopSample, hc, hm, hr, hb, hl, hpv, Bool.and_false, Bool.false_eq_true, if_false, if_true,
    beq_self_eq_true, Bool.true_or, Bool.not_true, Bool.true_and, loopSp_fb, loopSp_released]
  exact ⟨_, _, _, _, _, rfl, loopSp_uPrev .., rfl⟩

theorem freeze (hs : FallsBack r w s) (hf : r.fallback = 0) :
    ∃ y, let u := (loopGet s r.loop).uPrev
      y.uPrev = u ∧ Sampled r y u .subst s (loopSample r s) := by
  obtain ⟨sig, x, f, ffBad, pvq, he, hu, -⟩ := hs.sample
  exact ⟨x, hu, false, sig, pvq, _, _, by rw [he, loopFallback_freeze hf, hu]⟩

theorem hold (hs : FallsBack r w s) (hf : r.fallback = 1) :
    ∃ y, let u := f32OfRat (loopLimited r s (f32RatD (coefGet s r.loop).hold))
      y.uPrev = u ∧ Sampled r y u .subst s (loopSample r s) := by
  obtain ⟨sig, x, f, ffBad, pvq, he, hu, -⟩ := hs.sample
  exact ⟨_, rfl, false, sig, pvq, _, _, by rw [he, loopFallback_hold hf, hu]; rfl⟩

theorem release (hs : FallsBack r w s) (hf : r.fallback = 3) (hx : (loopGet s r.loop).released = false) :
    ∃ y, let u := getReg s (loopReg Reg.LPE_L_OUT r.loop)
      y.uPrev = u ∧ Sampled r y u .bad s (loopSample r s) := by
  obtain ⟨sig, x, f, ffBad, pvq, he, -, hr⟩ := hs.sample
  exact ⟨_, rfl, false, sig, pvq, _, _, by rw [he, loopFallback_release hf (hr.trans hx)]⟩

theorem released (hs : FallsBack r w s) (hf : r.fallback = 3) (hx : (loopGet s r.loop).released = true) :
    (loopSample r s).img = s.img := by
  obtain ⟨sig, x, f, ffBad, pvq, he, -, hr⟩ := hs.sample
  rw [he, (capSample_besideLoops ..).img, loopFallback_released hf (hr.trans hx)]

end FallsBack

/-! ### Automatic mode -/

/-- The flags that a sample in automatic mode clears are clear already. -/
theorem LoopSt.automatic {x : LoopSt} (hm : x.manual = false) (hr : x.reinit = false) (hb : x.fb = false) :
    { x with manual := false, reinit := false, fb := false } = x := by
  cases x
  dsimp only at hm hr hb
  subst hm hr hb
  rfl

/-- A sample in automatic mode with a good process value and the setpoint of LPE_Lk_SP, without feedforward or start. -/
theorem loopSample_auto {r : LoopRec} {s : State} (hc : getBit s (loopReg Reg.LPE_L_CTL r.loop) 0 = false)
    (hm : (loopGet s r.loop).manual = false) (hr : (loopGet s r.loop).reinit = false)
    (hb : (loopGet s r.loop).fb = false) (hff : bit r.flags 0 = false) (hsp : r.spSource = 0) {pv : Rat}
    (hpv : loopIn s r.pvRef = some (pv, .good)) :
    loopSample r s = loopAuto r (coefGet s r.loop) (r.period / 1024) (if bit r.flags 1 then -1 else 1) (loopGet s r.loop)
      ⟨some (pv, .good), (f32RatD (coefGet s r.loop).sp, .good), none⟩ 0 0 .good s := by
  have hin : loopInputs s r (coefGet s r.loop) =
      ⟨some (pv, .good), (f32RatD (coefGet s r.loop).sp, .good), none⟩ := by
    simp [loopInputs, hpv, hff, hsp]
  simp only [loopSample, hc, Bool.false_eq_true, ↓reduceIte, hin, Option.map_some, Option.getD_some, Bool.not_false, hm,
    Bool.and_false, hr, Bool.true_and, hb, Bool.false_and, Bool.ite_eq_true_distrib, beq_iff_eq, reduceCtorEq,
    Bool.or_eq_true, Bool.and_eq_true, Bool.not_eq_eq_eq_not, Bool.not_true, false_and, or_self, ite_self,
    Option.isSome_none, Bool.and_true, Bool.or_false]
  rw [LoopSt.automatic hm hr hb]

/-- The law decides the output and the integrator, when no injection runs and no gain has changed. -/
theorem loopAuto_sampled {r : LoopRec} {c : Coef} {h sg pv sp : Rat} {x : LoopSt} {s : State}
    (hx : x.start = false) (hi : injOf s r.loop = none) (hr : f32RatD c.spRate * h = 0)
    (hk : x.kpPrev = c.kp) (hg : x.ffPrev = c.ffGain) :
    ∃ x' y, let z := loopLaw r c h sg x' pv true (sg * (f32RatD (f32OfRat sp) - pv)) 0
      Sampled r y (f32OfRat z.2.1) .good s (loopAuto r c h sg x ⟨some (pv, .good), (sp, .good), none⟩ 0 0 .good s) ∧
      y.uPrev = f32OfRat z.2.1 ∧ y.i = z.1.i ∧
      x'.uPrev = x.uPrev ∧ x'.i = x.i ∧ x'.d = x.d ∧ x'.pvPrev = x.pvPrev := by
  simp only [loopAuto, loopSp_unlimited _ hx hr, hi, hx, hk, hg, Bool.false_eq_true, ↓reduceIte, bne_self_eq_false,
    Bool.or_self, Bool.and_false, Bool.false_and, Option.getD_some, BEq.rfl, add_zero, Prod.mk.eta, ite_self, reduceCtorEq,
    Bool.and_self, Option.map_some]
  exact ⟨_, _, ⟨_, _, _, _, _, rfl⟩, rfl, rfl, rfl, rfl, rfl, rfl⟩

/-! ### The laws -/

/-- R257: the increment of the integrator, with a good process value. -/
def lawIncrement (r : LoopRec) (c : Coef) (h e : Rat) : Rat :=
  if r.law = 1 then 0 else f32RatD c.kp * h / f32RatD c.ti * e

/-- R257: the derivative. -/
def lawDerivative (r : LoopRec) (c : Coef) (h sg : Rat) (x : LoopSt) (pv : Rat) : Rat :=
  let td := f32RatD c.td
  let a := (td / 8) / (td / 8 + h)
  if r.law = 3 ∧ 0 < td then
    a * f32RatD x.d - (1 - a) * sg * f32RatD c.kp * td * (pv - f32RatD x.pvPrev) / h
  else 0

/-- R258: an increment would deepen the limit at which the output `u` of `raw` stands. -/
def lawStops (u raw di : Rat) : Bool := (decide (u < raw) && decide (0 < di)) || (decide (raw < u) && decide (di < 0))

theorem lawStops_iff (u raw di : Rat) : lawStops u raw di = true ↔ (u < raw ∧ 0 < di) ∨ (raw < u ∧ di < 0) := by
  simp only [lawStops, Bool.or_eq_true, Bool.and_eq_true, decide_eq_true_eq]

/-- R257, R258: proportional, PI and PID with conditional integration. -/
theorem loopLaw_linear {r : LoopRec} {c : Coef} {h sg pv e0 : Rat} {x : LoopSt} (h1 : 1 ≤ r.law) (h3 : r.law ≤ 3) :
    let z := loopLaw r c h sg x pv true e0 0
    let e := if rabs e0 < f32RatD c.deadband then 0 else e0
    let p := f32RatD c.kp * e
    let i := f32RatD x.i
    let di := lawIncrement r c h e
    let d := lawDerivative r c h sg x pv
    let limit (v : Rat) := loopLimit c h (f32RatD x.uPrev) v
    let raw := p + i + di + d
    let stop := lawStops (limit raw).1 raw di
    z.2.1 = (limit (if stop then p + i + d else raw)).1 ∧ z.1.i = f32OfRat (i + if stop then 0 else di) := by
  have hdi (v : Rat) : (if 2 ≤ r.law then v else 0) = if r.law = 1 then 0 else v := by
    by_cases hl : r.law = 1
    · rw [if_neg (by omega), if_pos hl]
    · rw [if_pos (by omega), if_neg hl]
  simp only [loopLaw, if_neg (show r.law ≠ 4 by omega), if_neg (show r.law ≠ 5 by omega), add_zero, and_true, hdi]
  exact ⟨congrArg Prod.fst (apply_ite ..).symm, rfl⟩

/-- R259: the on-off law. -/
theorem loopLaw_onOff {r : LoopRec} {c : Coef} {h sg pv e0 f : Rat} {x : LoopSt} {good : Bool} (hl : r.law = 4) :
    let limit (v : Rat) := (loopLimit c h (f32RatD x.uPrev) v).1
    (loopLaw r c h sg x pv good e0 f).2.1 =
      if f32RatD c.deadband / 2 < e0 then limit (f32RatD c.outMax)
      else if e0 < -(f32RatD c.deadband / 2) then limit (f32RatD c.outMin) else f32RatD x.uPrev := by
  intro limit
  simp only [loopLaw, hl, if_true]
  by_cases hhi : f32RatD c.deadband / 2 < e0
  · rw [if_neg fun hb => absurd hhi (not_lt.2 hb.2), if_pos hhi, if_pos hhi]
  · by_cases hlo : e0 < -(f32RatD c.deadband / 2)
    · rw [if_neg fun hb => absurd hlo (not_lt.2 hb.1), if_neg hhi, if_neg hhi, if_pos hlo]
    · rw [if_pos ⟨not_lt.1 hlo, not_lt.1 hhi⟩, if_neg hhi, if_neg hlo]

/-! ### Samples in automatic mode -/

/-- A loop in automatic mode that samples a good process value `w`: no start, injection or feedforward, the setpoint of
LPE_Lk_SP without sp_rate, and no gain changed (R257, R260, R267). -/
structure Regulates (r : LoopRec) (w : DWord) (s : State) : Prop where
  automatic : getBit s (loopReg Reg.LPE_L_CTL r.loop) 0 = false
  manual : (loopGet s r.loop).manual = false
  reinit : (loopGet s r.loop).reinit = false
  fallback : (loopGet s r.loop).fb = false
  start : (loopGet s r.loop).start = false
  injection : injOf s r.loop = none
  feedforward : bit r.flags 0 = false
  source : r.spSource = 0
  spRate : f32RatD (coefGet s r.loop).spRate * (r.period / 1024) = 0
  kp : (loopGet s r.loop).kpPrev = (coefGet s r.loop).kp
  ffGain : (loopGet s r.loop).ffPrev = (coefGet s r.loop).ffGain
  value : refGet s r.pvRef = some w
  good : wordQ w = .good
  finite : f32IsFin (wordVal w) = true

/-- R257: s, which is −1 for a reverse-acting loop. -/
def loopSign (r : LoopRec) : Rat := if bit r.flags 1 then -1 else 1

/-- R257: the error before the deadband step. -/
def loopError0 (r : LoopRec) (w : DWord) (s : State) : Rat :=
  loopSign r * (f32RatD (f32OfRat (f32RatD (coefGet s r.loop).sp)) - f32RatD (wordVal w))

namespace Regulates

variable {r : LoopRec} {w : DWord} {s : State}

/-- The output and the integrator are those of the law. -/
theorem sampled (hs : Regulates r w s) :
    ∃ x y,
      let z := loopLaw r (coefGet s r.loop) (r.period / 1024) (loopSign r) x (f32RatD (wordVal w)) true (loopError0 r w s) 0
      Sampled r y (f32OfRat z.2.1) .good s (loopSample r s) ∧ y.uPrev = f32OfRat z.2.1 ∧ y.i = z.1.i ∧
      x.uPrev = (loopGet s r.loop).uPrev ∧ x.i = (loopGet s r.loop).i ∧ x.d = (loopGet s r.loop).d ∧
      x.pvPrev = (loopGet s r.loop).pvPrev := by
  rw [loopSample_auto hs.automatic hs.manual hs.reinit hs.fallback hs.feedforward hs.source
    (loopIn_good hs.value hs.good hs.finite)]
  exact loopAuto_sampled hs.start hs.injection hs.spRate hs.kp hs.ffGain

/-- R257, R258: the output of P, PI and PID, and the integrator, which stops at a limit that its increment would deepen. -/
theorem linear (hs : Regulates r w s) (h1 : 1 ≤ r.law) (h3 : r.law ≤ 3) (stop : Bool) :
    let c := coefGet s r.loop
    let h : Rat := r.period / 1024
    let e := if rabs (loopError0 r w s) < f32RatD c.deadband then 0 else loopError0 r w s
    let p := f32RatD c.kp * e
    let i := f32RatD (loopGet s r.loop).i
    let di := lawIncrement r c h e
    let d := lawDerivative r c h (loopSign r) (loopGet s r.loop) (f32RatD (wordVal w))
    let raw := p + i + di + d
    let u := f32OfRat (loopLimited r s (if stop then p + i + d else raw))
    lawStops (loopLimited r s raw) raw di = stop →
    ∃ y, y.uPrev = u ∧ y.i = f32OfRat (i + if stop then 0 else di) ∧ Sampled r y u .good s (loopSample r s) := by
  obtain ⟨x, y, hy, hu, hi, hxu, hxi, hxd, hxp⟩ := hs.sampled
  obtain ⟨hz, hzi⟩ := loopLaw_linear (c := coefGet s r.loop) (h := r.period / 1024) (sg := loopSign r)
    (pv := f32RatD (wordVal w)) (e0 := loopError0 r w s) (x := x) h1 h3
  intro c h e p i di d raw u hstop
  have hd : lawDerivative r c h (loopSign r) x (f32RatD (wordVal w)) = d := by
    simp only [d, lawDerivative, hxd, hxp]
  subst hstop
  rw [hxu, hxi, hd] at hz hzi
  exact ⟨y, hu.trans (congrArg f32OfRat hz), hi.trans hzi, by rw [hz] at hy; exact hy⟩

/-- R259: the output of the on-off law. -/
theorem onOff (hs : Regulates r w s) (hl : r.law = 4) :
    let c := coefGet s r.loop
    let u := f32OfRat (if f32RatD c.deadband / 2 < loopError0 r w s then loopLimited r s (f32RatD c.outMax)
      else if loopError0 r w s < -(f32RatD c.deadband / 2) then loopLimited r s (f32RatD c.outMin)
      else f32RatD (loopGet s r.loop).uPrev)
    ∃ y, y.uPrev = u ∧ Sampled r y u .good s (loopSample r s) := by
  obtain ⟨x, y, hy, hu, -, hxu, -, -, -⟩ := hs.sampled
  rw [loopLaw_onOff hl, hxu] at hy hu
  exact ⟨y, hu, hy⟩

end Regulates

end Sys2Proof.Machine
end


section
/-! ## The loop engine in a tick, and the ends of injections and captures (R254, R272, R273) -/

open Sys2Proof Sys2Proof.Machine
namespace Sys2Proof.Machine

/-! ### The next loop of a tick -/

/-- R254: the lowest-numbered loop that is due and has not sampled in this tick. -/
theorem loopNext_eq {s : State} {k : Nat} {r : LoopRec} (hk : k < 256) (hr : loopOf s k = some r)
    (hfrom : (if s.lpe.tick = s.pwr.tick then s.lpe.next else 0) ≤ k) (hd : loopDue s r = true)
    (hlow : ∀ j < k, (if s.lpe.tick = s.pwr.tick then s.lpe.next else 0) ≤ j →
      ∀ q, loopOf s j = some q → loopDue s q = false) : loopNext s = some k := by
  rw [loopNext, List.find?_range_eq_some]
  refine ⟨by simp only [hr, hd, hfrom, decide_true, Bool.and_self], List.mem_range.2 hk, fun j hj => ?_⟩
  by_cases hf : (if s.lpe.tick = s.pwr.tick then s.lpe.next else 0) ≤ j
  · cases hq : loopOf s j with
    | none => simp
    | some q => simp [hlow j hj hf q hq]
  · simp [hf]

/-- The state in which loop `k` samples: its place in the tick is taken. -/
def lpeAt (k : Nat) (s : State) : State := { s with lpe := { s.lpe with tick := s.pwr.tick, next := k + 1 } }

theorem execLoopSample_commit {s : State} (h : commitDue s = true) : exec .loopSample s = .next s :=
  if_pos (.inr h)

theorem execLoopSample_eq {s : State} {k : Nat} {r : LoopRec} (hr : lpeRuns s = true) (hc : commitDue s = false)
    (hn : loopNext s = some k) (hk : loopOf s k = some r) :
    exec .loopSample s = .next (loopTime (loopSample r (lpeAt k s))) := by
  simp [exec, execLoopSample, hr, hc, hn, hk, lpeAt]

/-! ### Injections and captures -/

theorem cause_getReg {reg b a : Nat} {s : State} (hs : RegsWf s) (h : a ≠ reg) (hm : a ≠ Reg.MGT_CAUSE)
    (hc : a ≠ Reg.MGT_EVR_CNT) : getReg (cause reg b s) a = getReg s a :=
  ((cause_regs reg b s) hs).2 a (by simp [h, hm, hc])

/-- R277: the unit and LPE_INJc_STAT. -/
theorem injSet_laws {c : Nat} (x : Injector) {s : State} (hs : RegsWf s) (hc : c < s.lpe.inj.length) :
    RegsWf (injSet c x s) ∧ nth (injSet c x s).lpe.inj c {} = x ∧
      getBit (injSet c x s) (Reg.LPE_INJ_STAT + 0x20 * c) 24 = x.running := by
  let s1 : State := { s with lpe := { s.lpe with inj := setNth s.lpe.inj c x } }
  have hs1 : RegsWf (setFld (Reg.LPE_INJ_STAT + 0x20 * c) 21 0 x.k s1) := setFld_wf _ _ _ _ hs
  refine ⟨setFld_wf _ _ _ _ hs1, nth_setNth_eq _ _ _ _ hc, ?_⟩
  exact (getBit_setBit _ 24 24 x.running _ hs1 (by decide) (by decide)).trans (if_pos rfl)

/-- R276: the unit and LPE_CAPc_STAT. -/
theorem capSet_laws {c : Nat} (x : Capture) {s : State} (hs : RegsWf s) (hc : c < s.lpe.cap.length) :
    RegsWf (capSet c x s) ∧ nth (capSet c x s).lpe.cap c {} = x ∧
      getBit (capSet c x s) (Reg.LPE_CAP_STAT + 0x20 * c) 16 = x.running := by
  let s1 : State := { s with lpe := { s.lpe with cap := setNth s.lpe.cap c x } }
  have hs1 : RegsWf s1 := hs
  refine ⟨setReg_wf _ _ s1 hs1, nth_setNth_eq _ _ _ _ hc, ?_⟩
  have apart (w : Word) (i v : Nat) (hi : 16 < i ∧ i < 32) : (setField w i i v).getLsbD 16 = w.getLsbD 16 := by
    rw [setField_bit w i i v 16 hi.2 le_rfl (by decide), if_neg (by omega)]
  unfold capSet
  rw [getBit, getReg_setReg _ _ _ s1 hs1, if_pos rfl, apart _ 19 _ (by decide), apart _ 18 _ (by decide),
    apart _ 17 _ (by decide), setField_bit _ _ _ _ _ (by decide) le_rfl (by decide), if_pos ⟨le_rfl, le_rfl⟩]
  cases x.running <;> rfl

section
variable {c : Nat} {s : State}

/-- R272: an injection that has made its LEN samples. -/
theorem execInjectionEnd_ends (hs : RegsWf s) (hd : domOn s 6 = true) (hc : c < s.lpe.inj.length) (h4 : c < 4)
    (hr : (nth s.lpe.inj c {}).running = true)
    (hk : (getReg s (Reg.LPE_INJ_LEN + 0x20 * c)).toNat ≤ (nth s.lpe.inj c {}).k) :
    ∃ t, exec (.injectionEnd c) s = .next t ∧ nth t.lpe.inj c {} = { nth s.lpe.inj c {} with running := false } ∧
      getBit t Reg.LPE_CAUSE 3 = true ∧ getBit t (Reg.LPE_INJ_STAT + 0x20 * c) 24 = false := by
  obtain ⟨hwf, hinj, hstat⟩ := injSet_laws { nth s.lpe.inj c {} with running := false } hs hc
  refine ⟨_, if_pos ⟨hd, hr, hk⟩, ?_, causeD_sets _ _ _ _ _ _ (by decide) (by decide) hwf, ?_⟩
  · rw [(cause_recorded ..).lpe, hinj]
  · rw [getBit_congr (cause_getReg hwf ?_ ?_ ?_), hstat]
    all_goals
      simp only [Reg.LPE_INJ_STAT, Reg.LPE_CAUSE, Reg.MGT_CAUSE, Reg.MGT_EVR_CNT]
      omega

/-- R273: a single capture that has taken its LEN samples. -/
theorem execCaptureDone_ends (hs : RegsWf s) (hd : domOn s 6 = true) (hc : c < s.lpe.cap.length) (h4 : c < 4)
    (hr : (nth s.lpe.cap c {}).running = true) (hf : (nth s.lpe.cap c {}).full = true) :
    ∃ t, exec (.captureDone c) s = .next t ∧ nth t.lpe.cap c {} = { nth s.lpe.cap c {} with running := false } ∧
      getBit t Reg.LPE_CAUSE 5 = true ∧ getBit t (Reg.LPE_CAP_STAT + 0x20 * c) 16 = false := by
  obtain ⟨hwf, hcap, hstat⟩ := capSet_laws { nth s.lpe.cap c {} with running := false } hs hc
  refine ⟨_, if_pos ⟨hd, hr, hf⟩, ?_, causeD_sets _ _ _ _ _ _ (by decide) (by decide) hwf, ?_⟩
  · rw [(cause_recorded ..).lpe, hcap]
  · rw [getBit_congr (cause_getReg hwf ?_ ?_ ?_), hstat]
    all_goals
      simp only [Reg.LPE_CAP_STAT, Reg.LPE_CAUSE, Reg.MGT_CAUSE, Reg.MGT_EVR_CNT]
      omega

end

end Sys2Proof.Machine

/-- Settles O53: a sample is `loopEmit` with the output of manual mode, the fallback or the law, and what follows it leaves
the loop's bank alone. -/
theorem loopEngine : Obligations.LoopEngine := by
  refine ⟨?_, fun c s hs hd hc hi hy => ⟨fun hr hk => execInjectionEnd_ends hs hd (by omega) hc hr hk, fun hr hk => ?_,
    fun hr hf => execCaptureDone_ends hs hd (by omega) hc hr hf, fun hf => ?_⟩⟩
  · intro k r s hs hk hr hrk hruns from_ hfrom hdue
    refine ⟨execLoopSample_commit, fun hc hlow => ?_⟩
    subst hrk
    intro x reg h up clamp step limit manual
    refine ⟨_, execLoopSample_eq hruns hc (loopNext_eq hk hr hfrom hdue hlow) hr, ?_⟩
    have hplace : lpePlaceOf (loopTime (loopSample r (lpeAt r.loop s))) = (s.pwr.tick, r.loop + 1) :=
      (loopTime_besideLoops _).place.trans (loopSample_lpePlaceOf ..)
    have hregs : RegsWf (lpeAt r.loop s) := hs.regs
    have hloops : smWf (fun _ => ({} : LoopSt)) (lpeAt r.loop s).lpe.loops = true := hs.loops
    refine ⟨congrArg Prod.fst hplace, congrArg Prod.snd hplace, fun hm hxm hf hxr => ?_,
      fun hm hxm hxr hl hb w hw hq => ?_,
      fun hm hxm hxr hb hst hi hff hsp hrate hkp hffg w hw hq hf => ?_⟩
    · obtain ⟨y, hy, ht⟩ := loopSample_manual (s := lpeAt r.loop s) hm hxm hxr hf
      exact (ht.timed hregs hloops hy).1
    · have hfb : FallsBack r w (lpeAt r.loop s) := ⟨hm, hxm, hxr, hl, hb, hw, hq⟩
      refine ⟨fun hf => ?_, fun hf => ?_, fun hf hx => ?_, fun hf hx => ?_⟩
      · obtain ⟨y, hy, ht⟩ := hfb.freeze hf
        obtain ⟨hout, -, hqual⟩ := (ht.timed hregs hloops hy).1
        exact ⟨hout, hqual⟩
      · obtain ⟨y, hy, ht⟩ := hfb.hold hf
        exact (ht.timed hregs hloops hy).1
      · obtain ⟨y, hy, ht⟩ := hfb.release hf hx
        exact (ht.timed hregs hloops hy).1
      · exact (loopTime_besideLoops _).img.trans (hfb.released hf hx)
    · have hreg : Regulates r w (lpeAt r.loop s) :=
        ⟨hm, hxm, hxr, hb, hst, hi, hff, hsp, hrate, hkp, hffg, hw, hq, hf⟩
      intro pv sg e0 e kp td i di a d raw deeper
      refine ⟨fun h1 h3 => ⟨fun hn => ?_, fun hd => ?_⟩, fun hl => ?_⟩
      · obtain ⟨y, hy, hyi, ht⟩ := hreg.linear h1 h3 false (Bool.eq_false_iff.2 (mt (lawStops_iff ..).1 hn))
        obtain ⟨hout, hstate⟩ := ht.timed hregs hloops hy
        exact ⟨hout, (congrArg LoopSt.i hstate).trans hyi⟩
      · obtain ⟨y, hy, hyi, ht⟩ := hreg.linear h1 h3 true ((lawStops_iff ..).2 hd)
        obtain ⟨hout, hstate⟩ := ht.timed hregs hloops hy
        exact ⟨hout, (congrArg LoopSt.i hstate).trans (hyi.trans (congrArg f32OfRat (add_zero _)))⟩
      · obtain ⟨y, hy, ht⟩ := hreg.onOff hl
        exact (ht.timed hregs hloops hy).1
  · exact if_neg fun h => absurd hk (not_lt.2 h.2.2)
  · exact if_neg fun h => absurd h.2.2 (by simp [hf])
end

section
/-! ## The system group (R283, R289, R333, R334) -/

open Sys2Proof Sys2Proof.Machine
namespace Sys2Proof.Machine

/-- A word of function `f` of the group that R317 calls legal encodes that function's instruction. -/
theorem isS_legal {w : Word} {f : Nat} (hop : iOp w = 0x2A) (hf : iSys w = f) (hl : legalWord w = true) :
    (isS f w && legalWord w) = true := by
  simp [isS, hop, hf, hl]

section
variable {e : Nat} {c : CeCtx} {s : State} (h : CeExecutes e c s) (hop : iOp c.w = 0x2A)

include h hop

theorem ceNop_retires (hf : iSys c.w = 0) (hd : iRd c.w = 0) (ha : iRa c.w = 0) (hi : iImm12 c.w = 0) :
    CeDoes (.ceNop e) c c.t 1 s :=
  does_of1 rfl h (isS_legal hop hf (by simp [legalWord, hop, hf, hd, ha, hi])) (by decide) rfl

theorem ceTrap_traps (hf : iSys c.w = 2) (hd : iRd c.w = 0) (ha : iRa c.w = 0) (h1 : 0x080 ≤ iImm12 c.w)
    (h2 : iImm12 c.w ≤ 0x0FF) : CeTraps (.ceTrap e) c (iImm12 c.w) s :=
  traps_of rfl h (isS_legal hop hf (by simp [legalWord, hop, hf, hd, ha, h1, h2])) rfl

theorem ceEvt_records (hf : iSys c.w = 3) (hd : iRd c.w = 0) (h1 : 0x100 ≤ iImm12 c.w) :
    CeWrites (.ceEvt e) c c.t 6 s (evRaise (0xA000 + iImm12 c.w) (taskId c.e c.k) c.ra 0#32 s) :=
  writes_of1 rfl h (isS_legal hop hf (by simp [legalWord, hop, hf, hd, h1])) (by decide)
    (by rw [(evRaise_recorded ..).ce]) rfl

theorem ceRdt_reads (hf : iSys c.w = 4) (ha : iRa c.w = 0) (hi : iImm12 c.w ≤ 6) :
    CeDoes (.ceRdt e) c (c.t.setReg (iRd c.w) (rdtValue c s)) 2 s :=
  does_of1 rfl h (isS_legal hop hf (by simp [legalWord, hop, hf, ha, hi])) (by decide) rfl

theorem ceFstat_reads (hf : iSys c.w = 5) (ha : iRa c.w = 0) :
    CeDoes (.ceFstat e) c ({ c.t with flags := 0 }.setReg (iRd c.w) (BitVec.ofNat 32 c.t.flags)) 1 s :=
  does_of1 rfl h (isS_legal hop hf (by simp [legalWord, hop, hf, ha])) (by decide) rfl

/-- R334: END takes the budget trap before it is issued, or the release ends. -/
theorem execCeEnd_eq (hf : iSys c.w = 1) (hd : iRd c.w = 0) (ha : iRa c.w = 0) : exec (.ceEnd e) s =
    .next (if endOverBudget c s then ceTrap e c.k 0x0B c.t.pc s else endRelease c s) := by
  obtain ⟨hctx, htext, hbudget, hclean⟩ := h
  have hl := isS_legal hop hf (by simp [legalWord, hop, hf, hd, ha])
  change execCeEnd e s = _
  by_cases hb : endOverBudget c s = true <;>
    simp [execCeEnd, hctx, htext, hbudget, hl, hb, ceMemRead, hclean, memBad_clean hclean]

end

/-- What RDT's selectors name (R333). -/
theorem rdtValue_of (c : CeCtx) (s : State) : ∀ p ∈ [(0, c.t.relTick), (1, s.pwr.tick), (2, s.dev.headway),
    (3, s.mgt.cal.seconds), (4, s.mgt.cal.frac + 2 ^ 31 * b2n s.mgt.cal.valid), (5, c.t.cycles / 400), (6, c.e + 256 * c.k)],
      iImm12 c.w = p.1 → iImm12 c.w ≤ 6 ∧ rdtValue c s = BitVec.ofNat 32 p.2 := by
  simp only [List.forall_mem_cons, List.not_mem_nil, false_imp_iff, implies_true, and_true]
  refine ⟨?_, ?_, ?_, ?_, ?_, ?_, ?_⟩ <;> exact fun hi => ⟨by omega, by simp [rdtValue, hi]⟩

end Sys2Proof.Machine

/-- Settles O19: each word of the group retires, traps or ends the release by the rule of its function. -/
theorem systemGroup : Obligations.SystemGroup := by
  constructor
  · intro e c s h f imm hop
    refine ⟨ceNop_retires h hop, ceTrap_traps h hop, ceEvt_records h hop, fun hf ha p hp hi => ?_, ceFstat_reads h hop⟩
    obtain ⟨hle, hv⟩ := rdtValue_of c s p hp hi
    exact hv ▸ ceRdt_reads h hop hf ha hle
  · intro e c s h hop hf hd ha n
    obtain ⟨rfl, hrun, -, hrec, ht, -⟩ := ceCtx_inv h.1
    have hx := execCeEnd_eq h hop hf hd ha
    refine ⟨fun hb => ?_, fun hb => ⟨endRelease c s, ?_, endRelease_get hrun (task_rec hrec) ht⟩⟩
    · rwa [show endOverBudget c s = true from hb, if_pos rfl] at hx
    · rwa [show endOverBudget c s = false from hb, if_neg Bool.false_ne_true] at hx
end

section
/-! ## The banks of the tasks: what a write of a task or of an engine leaves (R308, R309) -/

open Sys2Proof Sys2Proof.Machine
namespace Sys2Proof.Machine

/-- The banks of every engine's tasks are in canonical form. -/
def TasksWf (s : State) : Prop := ∀ e, smWf (fun _ => ({} : TaskSt)) (ceGet s e).tasks = true

theorem TasksWf.congr {s t : State} (hw : TasksWf s) (h : t.ce = s.ce) : TasksWf t := fun e => by
  rw [ceGet_congr h]
  exact hw e

theorem taskGet_congr {s t : State} (h : t.ce = s.ce) (e k : Nat) : taskGet t e k = taskGet s e k := by
  rw [taskGet, ceGet_congr h, taskGet]

theorem EngineSt.task_setTask {x : EngineSt} (hw : smWf (fun _ => ({} : TaskSt)) x.tasks = true) (k j : Nat) (t : TaskSt) :
    (x.setTask k t).task j = if j = k then t else x.task j := smGet_put _ _ _ _ _ hw

section
variable {s : State} {e : Nat}

theorem ceGet_ceSet (he : e < s.ce.engines.length) (x : EngineSt) (f : Nat) :
    ceGet (ceSet e x s) f = if f = e then x else ceGet s f := by
  split
  · next h => exact h ▸ ceGet_ceSet_eq s e x he
  · next h => exact ceGet_ceSet_ne s e f x (Ne.symm h)

/-- A write of an engine that leaves its tasks leaves every task. -/
theorem taskGet_ceSet (he : e < s.ce.engines.length) {x : EngineSt} (hx : x.tasks = (ceGet s e).tasks) (f j : Nat) :
    taskGet (ceSet e x s) f j = taskGet s f j := by
  rw [taskGet, ceGet_ceSet he]
  split
  · next h => rw [h, taskGet, EngineSt.task, EngineSt.task, hx]
  · rfl

theorem TasksWf.ceSet (hw : TasksWf s) (he : e < s.ce.engines.length) {x : EngineSt}
    (hx : smWf (fun _ => ({} : TaskSt)) x.tasks = true) : TasksWf (ceSet e x s) := fun f => by
  rw [ceGet_ceSet he]
  split
  · exact hx
  · exact hw f

theorem TasksWf.taskSet (hw : TasksWf s) (he : e < s.ce.engines.length) (k : Nat) (t : TaskSt) : TasksWf (taskSet e k t s) :=
  hw.ceSet he (smPut_wf _ _ _ _ (hw e))

theorem ceGet_taskSet (he : e < s.ce.engines.length) (k : Nat) (t : TaskSt) (f : Nat) :
    ceGet (taskSet e k t s) f = if f = e then (ceGet s e).setTask k t else ceGet s f := ceGet_ceSet he _ f

/-- A bank reads back as it was written, and every other bank is as before. -/
theorem taskGet_taskSet (hw : TasksWf s) (he : e < s.ce.engines.length) (k : Nat) (t : TaskSt) (f j : Nat) :
    taskGet (taskSet e k t s) f j = if f = e ∧ j = k then t else taskGet s f j := by
  rw [taskGet, ceGet_taskSet he]
  by_cases hf : f = e
  · rw [if_pos hf, EngineSt.task_setTask (hw e), hf]
    simp only [true_and]
    rfl
  · rw [if_neg hf, if_neg (fun h => hf h.1)]
    rfl

theorem taskGet_taskSet_same (hw : TasksWf s) (he : e < s.ce.engines.length) (k : Nat) (t : TaskSt) :
    taskGet (taskSet e k t s) e k = t := by rw [taskGet_taskSet hw he, if_pos ⟨rfl, rfl⟩]

end

@[simp] theorem taskSet_len (e k : Nat) (t : TaskSt) (s : State) :
    (taskSet e k t s).ce.engines.length = s.ce.engines.length := ceSet_len s e _

end Sys2Proof.Machine
end

section
/-! ## Traps (R285, R292, R317, R327, R337, R338) -/

open Sys2Proof Sys2Proof.Machine
namespace Sys2Proof.Machine

/-! ### The traps that no instruction of its own takes -/

section
variable {e : Nat} {c : CeCtx} {s : State}

theorem execFetchAtTextEnd_eq (hctx : ceCtx e s = some c) (ht : c.inText = false) : exec (.fetchAtTextEnd e) s =
    .next (ceTrap e c.k (if overBudget c.r c.t.cycles then 0x0B else 0x04) c.t.pc s) := by
  change execFetchAtTextEnd e s = _
  by_cases hb : overBudget c.r c.t.cycles = true <;> simp [execFetchAtTextEnd, hctx, ht, hb]

theorem execBudgetExpire_over (hctx : ceCtx e s = some c) (hb : overBudget c.r c.t.cycles = true) :
    exec (.budgetExpire e) s = .next (ceTrap e c.k 0x0B c.t.pc s) := by
  obtain ⟨-, hrun, -, hrec, ht, hon⟩ := ceCtx_inv hctx
  change execBudgetExpire e s = _
  simp [execBudgetExpire, hrun, hrec, ← ht, hon, hb]

end

/-! ### What a fatal cause and a write of an output leave alone -/

theorem fatal_ce (b src : Nat) (s : State) : (fatal b src s).ce = s.ce := by
  have hrec : (fatalRecorded b src s).ce = s.ce := by rw [(fatalRecorded_recorderOnly b src s).rest]
  obtain ⟨-, h, -⟩ | ⟨-, h⟩ := fatal_cases b src s <;> rw [h, ← hrec]

theorem fatal_regs (b src : Nat) (s : State) : RegsExcept (Reg.DEV_CAUSE :: evRegs) s (fatal b src s) :=
  (causeS_regs Reg.DEV_CAUSE b src s).trans (.of_regs ((fatal_recorded b src s).1.trans (evFlush_regs false _)))

/-- R291: the words that a stopped task writes touch neither registers nor engines. -/
theorem taskStop_outside (r : TaskRec) (s : State) : (taskStop r s).regs = s.regs ∧ (taskStop r s).ce =
    (ceSet r.engine ({ ceGet s r.engine with
      run := if (ceGet s r.engine).run = some r.task then none else (ceGet s r.engine).run }.setTask r.task
        { taskGet s r.engine r.task with mode := .stopped, pendingRel := false }) s).ce := by
  refine ⟨(forL_keeps (fun u : State => u.regs) _ _ _ fun ref u => ?_).trans rfl,
    forL_keeps (fun u : State => u.ce) _ _ _ fun ref u => ?_⟩
  · split
    · exact outWrite_regs ..
    · rfl
  · split
    · exact outWrite_ce ..
    · rfl

/-! ### What a trap records -/

/-- CE_En_TRAP with a trap that the host has not read (R337). -/
def trapWord (code k : Nat) : Word := setField (setField (setField 0#32 7 0 code) 11 8 k) 12 12 1

theorem trapWord_fields {code k : Nat} (hcode : code < 256) (hk : k < 16) : field (trapWord code k) 7 0 = code ∧
    field (trapWord code k) 11 8 = k ∧ (trapWord code k).getLsbD 12 = true := by
  refine ⟨?_, ?_, ?_⟩
  · rw [trapWord, field_setField_apart _ _ (by decide) le_rfl (by decide) (by decide),
      field_setField_apart _ _ (by decide) (by decide) (by decide) (by decide), field_setField _ _ _ _ (by decide) (by decide)]
    exact Nat.mod_eq_of_lt hcode
  · rw [trapWord, field_setField_apart _ _ (by decide) le_rfl (by decide) (by decide),
      field_setField _ _ _ _ (by decide) (by decide)]
    exact Nat.mod_eq_of_lt hk
  · rw [trapWord, setField_bit _ _ _ _ _ (by decide) le_rfl (by decide)]
    rfl

/-- The state with the trap shown in the engine's trap registers, unless an unread trap stands there (log entry 95). -/
def trapShown (e k code pc : Nat) (s : State) : State :=
  if getBit s (Reg.CE_E_TRAP + 0x200 * e) 12 then s
  else setReg (Reg.CE_E_TRAPPC + 0x200 * e) (BitVec.ofNat 32 pc)
    (setReg (Reg.CE_E_TRAP + 0x200 * e) (trapWord code k) s)

/-- The trap is then counted, and its cause set. -/
def trapRecorded (e k code pc : Nat) (s : State) : State :=
  causeS Reg.CE_CAUSE 0 (taskId e k) (incFld Reg.CE_CNT 31 16
    (ceSet e { ceGet (trapShown e k code pc s) e with atEnd := none } (trapShown e k code pc s)))

/-- R292: the task is stopped, or its release ends, by its policy. -/
def trapActed (r : TaskRec) (s : State) : State :=
  if r.trapPolicy = 0 then taskStop r s else releaseEnds r.engine r.task s

theorem ceTrap_eq {e k code pc : Nat} {r : TaskRec} {s : State} (hr : (theTt s).task e k = some r) (hc : code ≠ 0x0C) :
    ceTrap e k code pc s = if r.trapPolicy = 1 then fatal 8 (taskId e k) (trapActed r (trapRecorded e k code pc s))
      else trapActed r (trapRecorded e k code pc s) := by
  obtain ⟨rfl, rfl⟩ := task_rec hr
  unfold ceTrap
  rw [hr]
  simp only [if_neg hc]
  rfl

theorem trapShown_wf (e k code pc : Nat) {s : State} (hs : RegsWf s) : RegsWf (trapShown e k code pc s) := by
  unfold trapShown
  split
  · exact hs
  · exact setReg_wf _ _ _ (setReg_wf _ _ _ hs)

theorem trapShown_ce (e k code pc : Nat) (s : State) : (trapShown e k code pc s).ce = s.ce := by
  unfold trapShown
  split <;> rfl

theorem trapRecorded_ce (e k code pc : Nat) (s : State) :
    (trapRecorded e k code pc s).ce = (ceSet e { ceGet s e with atEnd := none } s).ce := by
  rw [trapRecorded, causeS_ce, (incFld_recorded ..).ce, ceSet, ceGet_congr (trapShown_ce ..), trapShown_ce]
  rfl

/-- The registers that a trap touches beside the engine's trap registers. -/
abbrev trapRegs : List Nat := [Reg.CE_CNT, Reg.CE_CAUSE, Reg.DEV_CAUSE, Reg.MGT_CAUSE, Reg.MGT_EVR_CNT]

theorem trapRecorded_regs (e k code pc : Nat) (s : State) : RegsExcept trapRegs (trapShown e k code pc s) (trapRecorded e k code pc s) :=
  (RegsExcept.of_regs rfl).trans (((incFld_regs Reg.CE_CNT 31 16 (ceSet e { ceGet (trapShown e k code pc s) e with atEnd := none }
    (trapShown e k code pc s))).mono (by simp)).trans ((causeS_regs Reg.CE_CAUSE 0 (taskId e k) _).mono (by simp)))

theorem trapActed_regs (r : TaskRec) (s : State) : (trapActed r s).regs = s.regs := by
  unfold trapActed
  split
  · exact (taskStop_outside r s).1
  · rfl

theorem ceTrap_regs {e k code pc : Nat} {r : TaskRec} {s : State} (hr : (theTt s).task e k = some r) (hc : code ≠ 0x0C) :
    RegsExcept (Reg.DEV_CAUSE :: evRegs) (trapRecorded e k code pc s) (ceTrap e k code pc s) := by
  rw [ceTrap_eq hr hc]
  have hact : RegsExcept (Reg.DEV_CAUSE :: evRegs) (trapRecorded e k code pc s) (trapActed r (trapRecorded e k code pc s)) :=
    .of_regs (trapActed_regs ..)
  split
  · exact hact.trans (fatal_regs 8 (taskId e k) _)
  · exact hact

/-- The registers apart from those of other causes: the engine's trap registers are as the trap is shown. -/
theorem ceTrap_shows {e k code pc : Nat} {r : TaskRec} {s : State} (hs : RegsWf s) (hr : (theTt s).task e k = some r)
    (hc : code ≠ 0x0C) {a : Nat} (ha : a ∉ trapRegs) : getReg (ceTrap e k code pc s) a = getReg (trapShown e k code pc s) a := by
  obtain ⟨hwf, hrec⟩ := trapRecorded_regs e k code pc s (trapShown_wf e k code pc hs)
  exact ((ceTrap_regs hr hc hwf).2 a fun h => ha (by simp at h ⊢; tauto)).trans (hrec a ha)

section
variable {e : Nat} (he : e < 8)
include he

theorem trapReg_apart : Reg.CE_E_TRAP + 0x200 * e ∉ trapRegs ∧ Reg.CE_E_TRAPPC + 0x200 * e ∉ trapRegs := by
  simp only [trapRegs, Reg.CE_E_TRAP, Reg.CE_E_TRAPPC, Reg.CE_CNT, Reg.CE_CAUSE, Reg.DEV_CAUSE, Reg.MGT_CAUSE, Reg.MGT_EVR_CNT,
    List.mem_cons, List.not_mem_nil, or_false]
  omega

variable {k code pc : Nat} {r : TaskRec} {s : State} (hs : RegsWf s) (hr : (theTt s).task e k = some r) (hc : code ≠ 0x0C)
include hs hr hc

/-- R337: without an unread trap the trap registers take the new one. -/
theorem ceTrap_taken (hun : getBit s (Reg.CE_E_TRAP + 0x200 * e) 12 = false) :
    getReg (ceTrap e k code pc s) (Reg.CE_E_TRAP + 0x200 * e) = trapWord code k ∧
      getReg (ceTrap e k code pc s) (Reg.CE_E_TRAPPC + 0x200 * e) = BitVec.ofNat 32 pc := by
  obtain ⟨ha, hp⟩ := trapReg_apart he
  have hw := setReg_wf (Reg.CE_E_TRAP + 0x200 * e) (trapWord code k) s hs
  rw [ceTrap_shows hs hr hc ha, ceTrap_shows hs hr hc hp, trapShown, hun, if_neg Bool.false_ne_true,
    getReg_setReg _ _ _ _ hw, getReg_setReg _ _ _ _ hw, if_pos rfl, if_neg, getReg_setReg _ _ _ _ hs, if_pos rfl]
  · exact ⟨rfl, rfl⟩
  · simp only [Reg.CE_E_TRAP, Reg.CE_E_TRAPPC]
    omega

/-- Log entry 95: an unread trap stays. -/
theorem ceTrap_unread (hun : getBit s (Reg.CE_E_TRAP + 0x200 * e) 12 = true) :
    getReg (ceTrap e k code pc s) (Reg.CE_E_TRAP + 0x200 * e) = getReg s (Reg.CE_E_TRAP + 0x200 * e) ∧
      getReg (ceTrap e k code pc s) (Reg.CE_E_TRAPPC + 0x200 * e) = getReg s (Reg.CE_E_TRAPPC + 0x200 * e) := by
  obtain ⟨ha, hp⟩ := trapReg_apart he
  rw [ceTrap_shows hs hr hc ha, ceTrap_shows hs hr hc hp, trapShown, if_pos hun]
  exact ⟨rfl, rfl⟩

end

theorem ceTrap_cause {e k code pc : Nat} {r : TaskRec} {s : State} (hs : RegsWf s) (hr : (theTt s).task e k = some r)
    (hc : code ≠ 0x0C) : getBit (ceTrap e k code pc s) Reg.CE_CAUSE 0 = true := by
  have hrec := trapRecorded_regs e k code pc s (trapShown_wf e k code pc hs)
  rw [getBit_congr ((ceTrap_regs hr hc hrec.1).2 Reg.CE_CAUSE (by decide))]
  exact causeS_sets _ (setFld_wf _ _ _ _ (trapShown_wf e k code pc hs)) (by decide) (by decide)

/-! ### What becomes of the task -/

theorem taskStop_stops {r : TaskRec} {s : State} (hw : TasksWf s) (hrun : (ceGet s r.engine).run = some r.task) :
    (ceGet (taskStop r s) r.engine).run = none ∧ (taskGet (taskStop r s) r.engine r.task).mode = .stopped := by
  have hce := (taskStop_outside r s).2
  rw [taskGet, ceGet_congr hce, ceGet_ceSet (run_range hrun), if_pos rfl, if_pos hrun]
  refine ⟨rfl, ?_⟩
  rw [EngineSt.task_setTask (by exact hw r.engine), if_pos rfl]

theorem releaseEnds_frees {e k : Nat} {s : State} (hw : TasksWf s) (hrun : (ceGet s e).run = some k) :
    (ceGet (releaseEnds e k s) e).run = none ∧
      ((taskGet s e k).pendingRel = false → (taskGet (releaseEnds e k s) e k).mode = .idle) := by
  unfold releaseEnds
  extract_lets x t x1
  constructor
  · rw [ceGet_ceSet (run_range hrun), if_pos rfl]
    exact if_pos hrun
  · intro hp
    have ht : t.pendingRel = false := hp
    rw [taskGet, ceGet_ceSet (run_range hrun), if_pos rfl, EngineSt.task_setTask (x := x1) (hw e), if_pos rfl, ht,
      if_neg Bool.false_ne_true]

/-- R292, R293: the engine is free; the task is stopped, or idle where no release is pending. -/
theorem trapActed_frees {r : TaskRec} {s : State} (hw : TasksWf s) (hrun : (ceGet s r.engine).run = some r.task) :
    (ceGet (trapActed r s) r.engine).run = none ∧
      (r.trapPolicy = 0 → (taskGet (trapActed r s) r.engine r.task).mode = .stopped) ∧
      (r.trapPolicy ≠ 0 → (taskGet s r.engine r.task).pendingRel = false →
        (taskGet (trapActed r s) r.engine r.task).mode = .idle) := by
  unfold trapActed
  split
  · next hp =>
    obtain ⟨hfree, hstop⟩ := taskStop_stops hw hrun
    exact ⟨hfree, fun _ => hstop, fun h => absurd hp h⟩
  · next hp =>
    obtain ⟨hfree, hidle⟩ := releaseEnds_frees hw hrun
    exact ⟨hfree, fun h => absurd h hp, fun _ => hidle⟩

theorem ceTrap_ce {e k code pc : Nat} {r : TaskRec} {s : State} (hr : (theTt s).task e k = some r) (hc : code ≠ 0x0C) :
    (ceTrap e k code pc s).ce = (trapActed r (trapRecorded e k code pc s)).ce := by
  rw [ceTrap_eq hr hc]
  split
  · exact fatal_ce ..
  · rfl

theorem ceTrap_frees {e k code pc : Nat} {r : TaskRec} {s : State} (hw : TasksWf s) (hr : (theTt s).task e k = some r)
    (hc : code ≠ 0x0C) (hrun : (ceGet s e).run = some k) : (ceGet (ceTrap e k code pc s) e).run = none ∧
      (r.trapPolicy = 0 → (taskGet (ceTrap e k code pc s) e k).mode = .stopped) ∧
      (r.trapPolicy ≠ 0 → (taskGet s e k).pendingRel = false → (taskGet (ceTrap e k code pc s) e k).mode = .idle) := by
  obtain ⟨rfl, rfl⟩ := task_rec hr
  have he := run_range hrun
  have hce := trapRecorded_ce r.engine r.task code pc s
  have hrecw : TasksWf (trapRecorded r.engine r.task code pc s) := (hw.ceSet he (x := { ceGet s r.engine with atEnd := none }) (hw r.engine)).congr hce
  have hrecrun : (ceGet (trapRecorded r.engine r.task code pc s) r.engine).run = some r.task := by
    rw [ceGet_congr hce, ceGet_ceSet he, if_pos rfl]
    exact hrun
  have htask : taskGet (trapRecorded r.engine r.task code pc s) r.engine r.task = taskGet s r.engine r.task :=
    (taskGet_congr hce ..).trans (taskGet_ceSet he (x := { ceGet s r.engine with atEnd := none }) rfl ..)
  rw [taskGet_congr (ceTrap_ce hr hc), ceGet_congr (ceTrap_ce hr hc), ← htask]
  exact trapActed_frees hrecw hrecrun

end Sys2Proof.Machine

/-- Settles O20: the traps that no instruction takes are `ceTrap`, whose registers and tasks are followed step by step. -/
theorem traps : Obligations.Traps := by
  refine ⟨fun e c s hctx => ⟨fun h hl => traps_of rfl h (by rw [hl]; rfl) rfl, fun ht hb => ?_, fun ht hb => ?_, fun hb => ?_⟩, ?_⟩
  · obtain ⟨rfl, -⟩ := ceCtx_inv hctx
    exact (execFetchAtTextEnd_eq hctx ht).trans (by rw [hb]; rfl)
  · obtain ⟨rfl, -⟩ := ceCtx_inv hctx
    exact (execFetchAtTextEnd_eq hctx ht).trans (by rw [hb]; rfl)
  · obtain ⟨rfl, -⟩ := ceCtx_inv hctx
    exact execBudgetExpire_over hctx hb
  · intro e k code pc r s hs he hk hcode hc hr _ _ hrun t a p
    refine ⟨fun hun => ?_, ceTrap_unread he hs.regs hr hc, ceTrap_cause hs.regs hr hc, ceTrap_frees hs.tasks hr hc hrun⟩
    obtain ⟨ha, hp⟩ := ceTrap_taken (pc := pc) he hs.regs hr hc hun
    obtain ⟨hfc, hfk, hfv⟩ := trapWord_fields hcode hk
    exact ⟨(congrArg (field · 7 0) ha).trans hfc, (congrArg (field · 11 8) ha).trans hfk,
      (congrArg (·.getLsbD 12) ha).trans hfv, hp⟩
end

section
/-! ## Snap strobes and reads that latch (R305, R364, R427, R429, R471, R543 to R548, R576) -/

open Sys2Proof Sys2Proof.Machine
namespace Sys2Proof.Machine

/-! ### Registers that latch together -/

/-- What a register latches: its address, and its word as a function of the state at the strobe. -/
abbrev Latch : Type := Nat × (State → Word)

/-- Latch the registers of a list, each with its word in the state `s0`. -/
def latchAll (s0 : State) (l : List Latch) (s : State) : State := forL l s (fun p s => setReg p.1 (p.2 s0) s)

theorem latchAll_append (s0 : State) (l m : List Latch) (s : State) :
    latchAll s0 (l ++ m) s = latchAll s0 m (latchAll s0 l s) := List.foldl_append

theorem latchAll_rest (s0 : State) (l : List Latch) (s : State) :
    latchAll s0 l s = { s with regs := (latchAll s0 l s).regs } := by
  induction l generalizing s with
  | nil => rfl
  | cons p l ih => exact ih (setReg p.1 (p.2 s0) s)

theorem latchAll_regs (s0 : State) (l : List Latch) (s : State) : RegsExcept (l.map (·.1)) s (latchAll s0 l s) := by
  induction l generalizing s with
  | nil => exact .refl _ s
  | cons p l ih =>
    exact ((setReg_regs p.1 (p.2 s0) s).mono (by simp)).trans ((ih _).mono fun a ha => List.mem_cons_of_mem _ ha)

/-- A register that stands once in the list shows its word. -/
theorem latchAll_reads {l : List Latch} {s0 s : State} (hs : RegsWf s) (hn : (l.map (·.1)).Nodup) {p : Latch}
    (hp : p ∈ l) : getReg (latchAll s0 l s) p.1 = p.2 s0 := by
  induction l generalizing s with
  | nil => cases hp
  | cons q l ih =>
    obtain ⟨hq, hl⟩ := List.nodup_cons.1 hn
    have hs' : RegsWf (setReg q.1 (q.2 s0) s) := setReg_wf _ _ _ hs
    cases hp with
    | head =>
      refine ((latchAll_regs s0 l _ hs').2 _ hq).trans ?_
      rw [getReg_setReg _ _ _ _ hs, if_pos rfl]
    | tail _ hp => exact ih hs' hl hp

/-- A loop that latches some registers in each of its turns. -/
theorem forN_latchAll (n : Nat) (s0 s : State) (f : Nat → List Latch) :
    forN n s (fun k x => latchAll s0 (f k) x) = latchAll s0 ((List.range n).flatMap f) s := by
  unfold forN
  generalize List.range n = ks
  induction ks generalizing s with
  | nil => rfl
  | cons k ks ih => rw [List.foldl_cons, ih, List.flatMap_cons, latchAll_append]

/-! ### The snapshot registers of the blocks (R543) -/

/-- The energy of all groups. -/
def snapEnergy (s : State) : Nat := s.pwr.eTot.foldl (· + ·) 0

/-- PWR, JNL and MEM. -/
def lowLatches : List Latch :=
  [(Reg.PWR_SNAP_STAT, pwrStat), (Reg.PWR_SNAP_E_LO, fun s => BitVec.ofNat 32 (snapEnergy s)),
    (Reg.PWR_SNAP_E_HI, fun s => BitVec.ofNat 32 (snapEnergy s / 2 ^ 32)),
    (Reg.PWR_SNAP_TICK_LO, fun s => BitVec.ofNat 32 s.pwr.tick),
    (Reg.PWR_SNAP_TICK_HI, fun s => BitVec.ofNat 32 (s.pwr.tick / 2 ^ 32 % 2 ^ 16 + s.pwr.sub % 32 * 2 ^ 16)),
    (Reg.JNL_SNAP_SEQ_LO, fun s => BitVec.ofNat 32 s.jnl.seq), (Reg.JNL_SNAP_SEQ_HI, fun s => BitVec.ofNat 32 (s.jnl.seq / 2 ^ 32)),
    (Reg.JNL_SNAP_TX, txStat), (Reg.MEM_SNAP_CNT, fun s => BitVec.ofNat 32 (memSum s Reg.MEM_M_CNT 15 0)),
    (Reg.MEM_SNAP_UNC, fun s =>
      BitVec.ofNat 32 (memSum s Reg.MEM_M_CNT 31 16 % 2 ^ 16 + 2 ^ 16 * memSum s Reg.MEM_M_UNC 15 0))]

theorem snapLow_eq (s : State) : snapLow s = latchAll s lowLatches s := rfl

/-- HYD to CE. -/
def midLatches : List Latch :=
  [(Reg.HYD_SNAP_STAT, (getReg · Reg.HYD_STAT)), (Reg.HYD_SNAP_HW, fun s => wordVal (imgGet s 4 0xC010)),
    (Reg.FTR_SNAP_WAGONS, fun s => BitVec.ofNat 32 (getFld s Reg.FTR_STAT 18 0)), (Reg.OPT_SNAP_STAT, optStat),
    (Reg.OPT_SNAP_STEP, (getReg · Reg.OPT_STEP0)), (Reg.SLV_SNAP_STAT, fun s => slvStat (domOn s 5) s),
    (Reg.SLV_SNAP_CNT, fun s => BitVec.ofNat 32 s.slv.factors)] ++
  (List.range 8).map (fun k => (Reg.LPE_SNAP_FB + 4 * k, (lpeFb · k))) ++
  [(Reg.LPE_SNAP_CNT, (getReg · Reg.LPE_CNT)), (Reg.CE_SNAP_STAT, ceStat), (Reg.CE_SNAP_CNT, (getReg · Reg.CE_CNT))]

theorem snapMid_eq (s : State) : snapMid s = latchAll s midLatches s := rfl

/-- A register pair that shows a count of 64 bits. -/
def pairLatches (lo hi : Nat) (f : State → Nat) : List Latch :=
  [(lo, fun s => BitVec.ofNat 32 (f s)), (hi, fun s => BitVec.ofNat 32 (f s / 2 ^ 32))]

/-- CHN and MTR, but for MTR_SNAP_STAT. -/
def fieldLatches : List Latch :=
  [(Reg.CHN_SNAP_BAD, fun s => BitVec.ofNat 32 (chnBadCount s))] ++
  (List.range 64).flatMap (fun n =>
    pairLatches (Reg.CHN_SNAP_PC_LO + 8 * n) (Reg.CHN_SNAP_PC_HI + 8 * n) (fun s => (pcGet s n).count)) ++
  (List.range 72).flatMap (fun m => pairLatches (Reg.MTR_SNAP_E_LO + 8 * m) (Reg.MTR_SNAP_E_HI + 8 * m)
    (fun s => nth (meterGet s m).regs (if m < 64 then 2 else 0) 0))

theorem snapField_eq (s : State) : snapField s = setReg Reg.MTR_SNAP_STAT (mtrStat s) (latchAll s fieldLatches s) := by
  rw [fieldLatches, latchAll_append, latchAll_append, ← forN_latchAll, ← forN_latchAll]
  rfl

/-- RED to HIF. -/
def highLatches : List Latch :=
  [(Reg.RED_SNAP_STAT, redStat), (Reg.RED_SNAP_CMP, (getReg · Reg.RED_CMP)),
    (Reg.MGT_SNAP_CAL, fun s => BitVec.ofNat 32 s.mgt.cal.seconds),
    (Reg.MGT_SNAP_FRAC, fun s => BitVec.ofNat 32 (s.mgt.cal.frac + bitAt 16 s.mgt.cal.valid)),
    (Reg.MGT_SNAP_EVR, fun s => BitVec.ofNat 32 s.mgt.evr.seq), (Reg.MGT_SNAP_STAT, mgtStat), (Reg.KEY_SNAP_STAT, keyStat),
    (Reg.KEY_SNAP_CTR, fun s => BitVec.ofNat 32 s.key.ctr), (Reg.HIF_SNAP_CNT, (getReg · Reg.HIF_CNT)),
    (Reg.HIF_SNAP_SEQ, fun s => BitVec.ofNat 32 (s.hif.seq % 2 ^ 16))]

theorem snapHigh_eq (s : State) : snapHigh s = latchAll s highLatches s := rfl

/-! ### Which registers a strobe changes -/

/-- The registers of a list of latches. -/
abbrev latchRegs (l : List Latch) : List Nat := l.map (·.1)

/-- The snapshot registers of CHN and MTR. -/
abbrev fieldRegs : List Nat := latchRegs fieldLatches ++ [Reg.MTR_SNAP_STAT]

/-- The snapshot registers of the station link. -/
abbrev slkSnapRegs : List Nat := (List.range 8).map (fun p => Reg.SLK_SNAP_L + 4 * p) ++ [Reg.SLK_SNAP_PRES]

/-- The registers of captures that a strobe triggers. -/
abbrev capRegs : List Nat := (List.range 4).map (fun c => Reg.LPE_CAP_STAT + 0x20 * c)

theorem RegsExcept.andThen {as bs : List Nat} {s t u : State} (h : RegsExcept as s t) (k : RegsExcept bs t u) :
    RegsExcept (as ++ bs) s u :=
  (h.mono fun _ => List.mem_append_left _).trans (k.mono fun _ => List.mem_append_right _)

theorem snapLow_regs (s : State) : RegsExcept (latchRegs lowLatches) s (snapLow s) := latchAll_regs s lowLatches s

theorem snapMid_regs (s : State) : RegsExcept (latchRegs midLatches) s (snapMid s) := latchAll_regs s midLatches s

theorem snapField_regs (s : State) : RegsExcept fieldRegs s (snapField s) :=
  snapField_eq s ▸ (latchAll_regs s fieldLatches s).andThen (setReg_regs Reg.MTR_SNAP_STAT _ _)

theorem snapHigh_regs (s : State) : RegsExcept (latchRegs highLatches) s (snapHigh s) := latchAll_regs s highLatches s

/-- A loop whose turn `k` changes one register of its own. -/
theorem forN_regs (n : Nat) (a : Nat → Nat) (s : State) (f : Nat → State → State) (h : ∀ k t, RegsExcept [a k] t (f k t)) :
    RegsExcept ((List.range n).map a) s (forN n s f) := by
  induction n with
  | zero => exact .refl _ s
  | succ n ih =>
    rw [forN_succ, List.range_succ, List.map_append]
    exact ih.andThen (h n _)

theorem slkSnap_regs (s : State) : RegsExcept slkSnapRegs s (slkSnap s) :=
  (forN_regs 8 (fun p => Reg.SLK_SNAP_L + 4 * p) s _ fun p t => setReg_regs (Reg.SLK_SNAP_L + 4 * p) _ t).andThen
    (setReg_regs Reg.SLK_SNAP_PRES _ _)

theorem capSnap_regs (s : State) : RegsExcept capRegs s (capSnap s) :=
  forN_regs 4 (fun c => Reg.LPE_CAP_STAT + 0x20 * c) s _ fun c t => by
    dsimp only
    split
    · exact (RegsExcept.of_regs rfl).trans (setReg_regs (Reg.LPE_CAP_STAT + 0x20 * c) _ _)
    · exact .refl _ t

/-! ### What the snapshots show stays as it is while they latch -/

/-- `t` differs from `s` in registers and capture units only. -/
def LatchOnly (s t : State) : Prop := t = { s with regs := t.regs, lpe := t.lpe }

theorem LatchOnly.trans {s t u : State} (h : LatchOnly s t) (k : LatchOnly t u) : LatchOnly s u := by
  unfold LatchOnly at h k ⊢
  rw [k, h]

theorem setReg_latchOnly (a : Nat) (v : Word) (s : State) : LatchOnly s (setReg a v s) := rfl

theorem LatchOnly.of_regs {s t : State} (h : t = { s with regs := t.regs }) : LatchOnly s t := by
  rw [h]
  rfl

theorem LatchOnly.loop (n : Nat) (s : State) (f : Nat → State → State) (h : ∀ k t, LatchOnly t (f k t)) :
    LatchOnly s (forN n s f) := by
  induction n with
  | zero => rfl
  | succ n ih => exact forN_succ n s f ▸ ih.trans (h n _)

theorem capSnap_only (s : State) : LatchOnly s (capSnap s) := .loop 4 s _ fun c t => by
  dsimp only
  split <;> rfl

theorem snapLow_only (s : State) : LatchOnly s (snapLow s) := .of_regs (latchAll_rest s lowLatches s)

theorem snapMid_only (s : State) : LatchOnly s (snapMid s) := .of_regs (latchAll_rest s midLatches s)

theorem snapField_only (s : State) : LatchOnly s (snapField s) := by
  rw [snapField_eq]
  exact (LatchOnly.of_regs (latchAll_rest s fieldLatches s)).trans (setReg_latchOnly ..)

theorem snapHigh_only (s : State) : LatchOnly s (snapHigh s) := .of_regs (latchAll_rest s highLatches s)

theorem slkSnap_only (s : State) : LatchOnly s (slkSnap s) :=
  (LatchOnly.loop 8 s _ fun _ _ => setReg_latchOnly ..).trans (setReg_latchOnly ..)

section
variable {s t : State} (h : LatchOnly s t)
include h

theorem LatchOnly.blocks : t.pwr = s.pwr ∧ t.jnl = s.jnl ∧ t.mgt = s.mgt ∧ t.key = s.key ∧ t.hif = s.hif := by
  rw [h]
  exact ⟨rfl, rfl, rfl, rfl, rfl⟩

theorem LatchOnly.pwrStat : pwrStat t = pwrStat s := by rw [h]; rfl

theorem LatchOnly.mtrStat (hr : getReg t Reg.MTR_LOG = getReg s Reg.MTR_LOG) : mtrStat t = mtrStat s := by
  have hl : logFull t = logFull s := congrArg (fun n => decide (65280 ≤ n)) (getFld_congr hr 16 0)
  rw [Machine.mtrStat, hl, h]
  rfl

theorem LatchOnly.optStat (hr : getReg t Reg.OPT_STAT = getReg s Reg.OPT_STAT) : optStat t = optStat s := by
  rw [Machine.optStat, hr, h]
  rfl

theorem LatchOnly.redStat (hr : getReg t Reg.DEV_CAUSE = getReg s Reg.DEV_CAUSE) : redStat t = redStat s := by
  have hf : fatalBits t = fatalBits s := getFld_congr hr 12 8
  rw [Machine.redStat, redFit, hf, h]
  rfl

theorem LatchOnly.ceStat (hr : getReg t Reg.DEV_CAUSE = getReg s Reg.DEV_CAUSE) : ceStat t = ceStat s := by
  have hf : noFatal t = noFatal s := congrArg (· == 0) (getFld_congr hr 12 8)
  have hw (e : Nat) : engWorks t e = engWorks s e := by
    rw [engWorks, ceRuns, computes, hf, h]
    rfl
  simp only [Machine.ceStat, hw]
  rw [h]
  rfl

end

/-! ### The registers after the strobe -/

/-- The registers latched after those of each part. -/
abbrev afterField : List Nat := latchRegs highLatches ++ slkSnapRegs
abbrev afterMid : List Nat := fieldRegs ++ afterField
abbrev afterLow : List Nat := latchRegs midLatches ++ afterMid

theorem snapLatch_afterField (s : State) : RegsExcept afterField (snapField (snapMid (snapLow s))) (snapLatch s) :=
  (snapHigh_regs _).andThen (slkSnap_regs _)

theorem snapLatch_afterMid (s : State) : RegsExcept afterMid (snapMid (snapLow s)) (snapLatch s) :=
  (snapField_regs _).andThen (snapLatch_afterField s)

theorem snapLatch_afterLow (s : State) : RegsExcept afterLow (snapLow s) (snapLatch s) :=
  (snapMid_regs _).andThen (snapLatch_afterMid s)

theorem snapLatch_regs (s : State) : RegsExcept (latchRegs lowLatches ++ afterLow) s (snapLatch s) :=
  (snapLow_regs s).andThen (snapLatch_afterLow s)

theorem snapLatch_only (s : State) : LatchOnly s (snapLatch s) :=
  (snapLow_only s).trans ((snapMid_only _).trans ((snapField_only _).trans ((snapHigh_only _).trans (slkSnap_only _))))

section
variable {s : State} (hs : RegsWf s) {a : Nat} {f : State → Word}
include hs

theorem snapLatch_low (hp : (a, f) ∈ lowLatches) : getReg (snapLatch s) a = f s := by
  have hapart : ∀ a ∈ latchRegs lowLatches, a ∉ afterLow := by decide +kernel
  rw [(snapLatch_afterLow s (snapLow_regs s hs).1).2 _ (hapart _ (List.mem_map_of_mem hp)), snapLow_eq]
  exact latchAll_reads hs (by decide) hp

theorem snapLatch_mid (hp : (a, f) ∈ midLatches) : getReg (snapLatch s) a = f (snapLow s) := by
  have hlow := (snapLow_regs s hs).1
  have hapart : ∀ a ∈ latchRegs midLatches, a ∉ afterMid := by decide +kernel
  rw [(snapLatch_afterMid s (snapMid_regs _ hlow).1).2 _ (hapart _ (List.mem_map_of_mem hp)), snapMid_eq]
  exact latchAll_reads hlow (by decide) hp

theorem snapLatch_meters : getReg (snapLatch s) Reg.MTR_SNAP_STAT = mtrStat (snapMid (snapLow s)) := by
  have hmid := (snapMid_regs _ (snapLow_regs s hs).1).1
  have hapart : Reg.MTR_SNAP_STAT ∉ afterField := by decide
  rw [(snapLatch_afterField s (snapField_regs _ hmid).1).2 _ hapart, snapField_eq, getReg_setReg, if_pos rfl]
  exact (latchAll_regs _ fieldLatches _ hmid).1

theorem snapLatch_high (hp : (a, f) ∈ highLatches) : getReg (snapLatch s) a = f (snapField (snapMid (snapLow s))) := by
  have hfield := (snapField_regs _ (snapMid_regs _ (snapLow_regs s hs).1).1).1
  have hapart : ∀ a ∈ latchRegs highLatches, a ∉ slkSnapRegs := by decide
  have hslk := slkSnap_regs (snapHigh (snapField (snapMid (snapLow s)))) (snapHigh_regs _ hfield).1
  rw [snapLatch, hslk.2 _ (hapart _ (List.mem_map_of_mem hp)), snapHigh_eq]
  exact latchAll_reads hfield (by decide) hp

end

/-- What the snapshot registers of the blocks show (R543). -/
def snapViews : List Latch :=
  [(Reg.PWR_SNAP_TICK_LO, fun s => BitVec.ofNat 32 s.pwr.tick), (Reg.PWR_SNAP_STAT, pwrStat),
    (Reg.JNL_SNAP_SEQ_LO, fun s => BitVec.ofNat 32 s.jnl.seq), (Reg.HYD_SNAP_STAT, (getReg · Reg.HYD_STAT)),
    (Reg.OPT_SNAP_STAT, optStat), (Reg.CE_SNAP_STAT, ceStat), (Reg.MTR_SNAP_STAT, mtrStat), (Reg.RED_SNAP_STAT, redStat),
    (Reg.MGT_SNAP_CAL, fun s => BitVec.ofNat 32 s.mgt.cal.seconds), (Reg.KEY_SNAP_CTR, fun s => BitVec.ofNat 32 s.key.ctr),
    (Reg.HIF_SNAP_SEQ, fun s => BitVec.ofNat 32 (s.hif.seq % 2 ^ 16))]

/-- The registers that those views read. -/
abbrev viewedRegs : List Nat := [Reg.DEV_CAUSE, Reg.HYD_STAT, Reg.OPT_STAT, Reg.MTR_LOG]

theorem LatchOnly.views {s t : State} (h : LatchOnly s t) (hr : ∀ a ∈ viewedRegs, getReg t a = getReg s a) :
    ∀ p ∈ snapViews, p.2 t = p.2 s := by
  obtain ⟨hpwr, hjnl, hmgt, hkey, hhif⟩ := h.blocks
  simp only [List.forall_mem_cons, List.not_mem_nil, false_imp_iff, implies_true, and_true] at hr
  obtain ⟨hcause, hhyd, hopt, hlog⟩ := hr
  simp only [snapViews, List.forall_mem_cons, List.not_mem_nil, false_imp_iff, implies_true, and_true, hpwr, hjnl, hmgt, hkey,
    hhif, true_and]
  exact ⟨h.pwrStat, hhyd, h.optStat hopt, h.ceStat hcause, h.mtrStat hlog, h.redStat hcause⟩

/-- The part that latches each of them. -/
theorem snapViews_latched : ∀ p ∈ snapViews, p ∈ lowLatches ∨ p ∈ midLatches ∨ p = (Reg.MTR_SNAP_STAT, mtrStat) ∨
    p ∈ highLatches := by
  simp [snapViews, lowLatches, midLatches, highLatches]

theorem snapLatch_shows {s : State} (hs : RegsWf s) : ∀ p ∈ snapViews, getReg (snapLatch s) p.1 = p.2 s := by
  obtain ⟨hlow, hlowr⟩ := snapLow_regs s hs
  obtain ⟨hmid, hmidr⟩ := snapMid_regs _ hlow
  obtain ⟨-, hfieldr⟩ := snapField_regs _ hmid
  have hlow0 : ∀ a ∈ viewedRegs, a ∉ latchRegs lowLatches := by decide
  have hmid0 : ∀ a ∈ viewedRegs, a ∉ latchRegs midLatches := by decide
  have hfield0 : ∀ a ∈ viewedRegs, a ∉ fieldRegs := by decide +kernel
  have hlowv := (snapLow_only s).views fun a ha => hlowr a (hlow0 a ha)
  have hmidv := (snapMid_only (snapLow s)).views fun a ha => hmidr a (hmid0 a ha)
  have hfieldv := (snapField_only (snapMid (snapLow s))).views fun a ha => hfieldr a (hfield0 a ha)
  intro p hp
  obtain h | h | rfl | h := snapViews_latched p hp
  · exact snapLatch_low hs h
  · exact (snapLatch_mid hs h).trans (hlowv p hp)
  · exact (snapLatch_meters hs).trans ((hmidv _ hp).trans (hlowv _ hp))
  · exact (snapLatch_high hs h).trans ((hfieldv p hp).trans ((hmidv p hp).trans (hlowv p hp)))

theorem snapLatch_mgt (s : State) : (snapLatch s).mgt = s.mgt := by
  obtain ⟨-, -, hmgt, -⟩ := (snapLatch_only s).blocks
  exact hmgt

theorem getReg_incReg (a b : Nat) {s : State} (hs : RegsWf s) :
    getReg (incReg a s) b = if b = a then getReg s a + 1#32 else getReg s b := getReg_setReg a b _ s hs

/-! ### The strobe -/

/-- The strobe is taken. -/
def strobeClear (s : State) : State := { s with mgt := { s.mgt with snapDue := false } }

theorem getReg_strobeClear (s : State) (a : Nat) : getReg (strobeClear s) a = getReg s a := rfl

/-- The captures that wait for it are triggered (R274). -/
def strobeTaken (s : State) : State := capSnap (strobeClear s)

theorem strobeTaken_only (s : State) : LatchOnly (strobeClear s) (strobeTaken s) := capSnap_only _

theorem strobeTaken_due (s : State) : (strobeTaken s).mgt.snapDue = false := by
  obtain ⟨-, -, hmgt, -⟩ := (strobeTaken_only s).blocks
  exact congrArg MgtState.snapDue hmgt

theorem strobeTaken_regs (s : State) : RegsExcept capRegs s (strobeTaken s) :=
  (RegsExcept.of_regs (t := strobeClear s) rfl).trans (capSnap_regs _)

/-- No snapshot register shows the strobe itself. -/
theorem strobeClear_views (s : State) : ∀ p ∈ snapViews, p.2 (strobeClear s) = p.2 s := by
  simp only [snapViews, List.forall_mem_cons, List.not_mem_nil, false_imp_iff, implies_true, and_true]
  exact ⟨rfl, rfl, rfl, rfl, rfl, rfl, rfl, rfl, rfl, rfl, rfl⟩

theorem strobeTaken_views {s : State} (hs : RegsWf s) : ∀ p ∈ snapViews, p.2 (strobeTaken s) = p.2 s := by
  have hapart : ∀ a ∈ viewedRegs, a ∉ capRegs := by decide
  intro p hp
  refine ((strobeTaken_only s).views (fun a ha => ?_) p hp).trans (strobeClear_views s p hp)
  exact ((strobeTaken_regs s hs).2 a (hapart a ha)).trans (getReg_strobeClear s a).symm

/-- The state in which a strobe that is not held has latched. -/
theorem snapStrobe_eq_latched {s : State} (hd : s.mgt.snapDue = true) (hh : getBit s Reg.MGT_SNAP_CTL 2 = false) :
    snapStrobe s = incReg Reg.MGT_SNAP_SEQ (snapLatch (strobeTaken s)) := by
  unfold snapStrobe
  rw [if_pos hd, hh, if_neg Bool.false_ne_true]
  simp only [strobeTaken, strobeClear]

theorem snapStrobe_eq_missed {s : State} (hd : s.mgt.snapDue = true) (hh : getBit s Reg.MGT_SNAP_CTL 2 = true) :
    snapStrobe s = cause Reg.MGT_CAUSE 10 (incFld Reg.MGT_SNAP_MISS 15 0 (strobeTaken s)) := by
  unfold snapStrobe
  rw [if_pos hd, if_pos hh]
  simp only [strobeTaken, strobeClear]

section
variable {s : State} (hs : RegsWf s) (hd : s.mgt.snapDue = true)
include hs hd

/-- R543: a strobe that is not held latches every block's registers, and counts. -/
theorem snapStrobe_latches (hh : getBit s Reg.MGT_SNAP_CTL 2 = false) : (snapStrobe s).mgt.snapDue = false ∧
    getReg (snapStrobe s) Reg.MGT_SNAP_SEQ = getReg s Reg.MGT_SNAP_SEQ + 1#32 ∧
    ∀ p ∈ snapViews, getReg (snapStrobe s) p.1 = p.2 s := by
  obtain ⟨htaken, htakenr⟩ := strobeTaken_regs s hs
  obtain ⟨hlatch, hlatchr⟩ := snapLatch_regs _ htaken
  have hseq := (hlatchr Reg.MGT_SNAP_SEQ (by decide +kernel)).trans (htakenr _ (by decide))
  rw [snapStrobe_eq_latched hd hh]
  refine ⟨by rw [incReg_mgt, snapLatch_mgt, strobeTaken_due], by rw [getReg_incReg _ _ hlatch, if_pos rfl, hseq], ?_⟩
  have hapart : ∀ p ∈ snapViews, p.1 ≠ Reg.MGT_SNAP_SEQ := by decide
  intro p hp
  rw [getReg_incReg _ _ hlatch, if_neg (hapart p hp), snapLatch_shows htaken p hp, strobeTaken_views hs p hp]

/-- R545: a strobe that is held is counted missed. -/
theorem snapStrobe_misses (hh : getBit s Reg.MGT_SNAP_CTL 2 = true) : (snapStrobe s).mgt.snapDue = false ∧
    getReg (snapStrobe s) Reg.MGT_SNAP_SEQ = getReg s Reg.MGT_SNAP_SEQ ∧
    getReg (snapStrobe s) Reg.PWR_SNAP_TICK_LO = getReg s Reg.PWR_SNAP_TICK_LO ∧
    getFld (snapStrobe s) Reg.MGT_SNAP_MISS 15 0 = min 65535 (getFld s Reg.MGT_SNAP_MISS 15 0 + 1) ∧
    getBit (snapStrobe s) Reg.MGT_CAUSE 10 = true := by
  obtain ⟨htaken, htakenr⟩ := strobeTaken_regs s hs
  obtain ⟨hmiss, hmissr⟩ := incFld_regs Reg.MGT_SNAP_MISS 15 0 _ htaken
  obtain ⟨-, hcause⟩ := cause_regs Reg.MGT_CAUSE 10 _ hmiss
  rw [snapStrobe_eq_missed hd hh]
  refine ⟨?_, (hcause _ (by decide)).trans ((hmissr _ (by decide)).trans (htakenr _ (by decide))),
    (hcause _ (by decide)).trans ((hmissr _ (by decide)).trans (htakenr _ (by decide))), ?_,
    causeD_sets _ _ _ _ _ _ (by decide) (by decide) hmiss⟩
  · rw [cause, (causeD_recorderOnly ..).rest]
    exact strobeTaken_due s
  · rw [getFld_congr (hcause _ (by decide)), getFld_incFld _ _ _ htaken (by decide) (by decide),
      getFld_congr (htakenr _ (by decide))]
    simp only [satInc]
    split <;> omega

end

/-! ### Reads that latch -/

/-- R427: the sub-tick that PWR_TICK_HI shows is not behind the last one, and inside the tick. -/
theorem execTickLoRead_latches {s : State} (h : s.pwr.sub < 32) : ∃ u, s.pwr.sub ≤ u ∧ u < 32 ∧
    exec .tickLoRead s = .next (setReg Reg.PWR_TICK_HI (BitVec.ofNat 32 (s.pwr.tick / 2 ^ 32 % 2 ^ 16 + u * 2 ^ 16)) { s with
      free := s.free + 1
      pwr := { s.pwr with sub := u } }) := by
  have hpass := Nat.mod_lt (Config.freeWord s.free).toNat (show 0 < max 1 (31 + 1 - s.pwr.sub) by omega)
  let u := s.pwr.sub + (Config.freeWord s.free).toNat % max 1 (31 + 1 - s.pwr.sub)
  have hu : u < 32 := by omega
  refine ⟨u, Nat.le_add_right _ _, hu, ?_⟩
  change Host.Outcome.next (setReg Reg.PWR_TICK_HI (BitVec.ofNat 32 (s.pwr.tick / 2 ^ 32 % 2 ^ 16 + u % 32 * 2 ^ 16)) _) = _
  rw [Nat.mod_eq_of_lt hu]
  rfl

end Sys2Proof.Machine

/-- Settles O28: a strobe's registers are one list of words per part of the device; each latching read is one write. -/
theorem snapshotsAndLatchingReads : Obligations.SnapshotsAndLatchingReads := by
  constructor
  · intro s hs
    refine ⟨fun h => ?_, fun h => ?_, fun h => ?_, fun h => ?_, fun hp hc => ?_, fun hd => ?_, fun hd => ?_⟩
    · exact congrArg Host.Outcome.next (if_neg (by rw [h]; decide))
    · exact congrArg Host.Outcome.next (if_pos h)
    · exact if_pos h
    · exact if_neg (by rw [h]; decide)
    · exact if_pos ⟨hp, hc⟩
    · exact congrArg Host.Outcome.next (if_neg (by rw [hd]; decide))
    · cases hh : getBit s Reg.MGT_SNAP_CTL 2 with
      | false =>
        obtain ⟨hdue, hseq, hshown⟩ := snapStrobe_latches hs hd hh
        simp only [snapViews, List.forall_mem_cons, List.not_mem_nil, false_imp_iff, implies_true, and_true] at hshown
        exact ⟨snapStrobe s, rfl, hdue, fun _ => ⟨hseq, hshown⟩, fun h => Bool.noConfusion h⟩
      | true =>
        obtain ⟨hdue, hmissed⟩ := snapStrobe_misses hs hd hh
        exact ⟨snapStrobe s, rfl, hdue, fun h => Bool.noConfusion h, fun _ => hmissed⟩
  · intro n s c latch
    exact ⟨fun hn => if_pos hn, execTickLoRead_latches, fun hn => if_pos hn, rfl, rfl, rfl, rfl, fun hn => if_pos hn⟩
end

section
/-! ## Releases of tasks (R282, R284 to R287) -/

open Sys2Proof Sys2Proof.Machine
namespace Sys2Proof.Machine

/-- R286: an edge of the set kind between two truth values of an event reference. -/
def EventEdge (r : TaskRec) (old now : Option Bool) : Prop :=
  (old = some false ∧ now = some true ∧ (r.edge = 1 ∨ r.edge = 3)) ∨
    (old = some true ∧ now = some false ∧ (r.edge = 2 ∨ r.edge = 3))

theorem eventTruth_of {s : State} {ref : Nat} {w : DWord} (hw : refGet s ref = some w) (old : Option Bool) :
    eventTruth s ref old = if wordQ w = .bad then old else some (wordVal w != 0#32) := by simp [eventTruth, hw]

/-! ### The rows -/

section
variable {e k : Nat} {r : TaskRec} {s : State} (hr : (theTt s).task e k = some r) (hon : engRuns s e = true)
  (hl : ceLoaded (theTt s) e = true) (hev : (taskGet s e k).evalTick ≠ some s.pwr.tick)

theorem execTaskRelease_notDue (hr : (theTt s).task e k = some r) (hd : taskDue s r = false) :
    exec (.taskRelease e k) s = .next s := by
  change execTaskRelease e k s = _
  simp [execTaskRelease, hr, hd]

include hr hon hl hev

/-- R282, R284: a task that falls due, by its mode. -/
theorem execTaskRelease_due (hk : r.kind = 0) (hd : taskDue s r = true) :
    let y := { taskGet s e k with evalTick := some s.pwr.tick }
    ((taskGet s e k).mode = .idle → exec (.taskRelease e k) s = .next (taskRelease e k (taskSet e k y s))) ∧
    ((taskGet s e k).mode = .stopped → exec (.taskRelease e k) s = .next (taskSet e k y s)) ∧
    ((taskGet s e k).mode ≠ .idle ∧ (taskGet s e k).mode ≠ .stopped → exec (.taskRelease e k) s =
      .next (causeS Reg.CE_CAUSE 1 (taskId e k)
        (taskSet e k { y with overruns := satInc 16 (taskGet s e k).overruns } (taskSet e k y s)))) := by
  intro y
  change (_ → execTaskRelease e k s = _) ∧ (_ → execTaskRelease e k s = _) ∧ (_ → execTaskRelease e k s = _)
  refine ⟨fun hm => ?_, fun hm => ?_, fun hm => ?_⟩
  · simp [execTaskRelease, hr, hon, hl, hev, hk, hd, hm, y]
  · simp [execTaskRelease, hr, hon, hl, hev, hk, hd, hm, y]
  · obtain ⟨hi, hs⟩ := hm
    cases hmode : (taskGet s e k).mode with
    | idle => exact absurd hmode hi
    | stopped => exact absurd hmode hs
    | _ => simp [execTaskRelease, hr, hon, hl, hev, hk, hd, hmode, y]

/-- R286: an event reference shows no edge of the set kind. -/
theorem execEventTaskRelease_noEdge (hk : r.kind = 1) {now : Option Bool}
    (hnow : eventTruth s r.eventRef (taskGet s e k).truth = now) (hedge : ¬ EventEdge r (taskGet s e k).truth now) :
    exec (.eventTaskRelease e k) s = .next (taskSet e k { taskGet s e k with evalTick := some s.pwr.tick, truth := now } s) := by
  change execEventTaskRelease e k s = _
  unfold execEventTaskRelease
  rw [hr]
  dsimp only
  rw [if_neg (by simp [hon, hl, hev, hk]), hnow, if_pos]
  unfold EventEdge at hedge
  split
  · next h => simpa [h] using hedge
  · next h => simpa [h] using hedge
  · rfl

/-- R286, R287: an edge of the set kind, by the task's mode. -/
theorem execEventTaskRelease_edge (hk : r.kind = 1) {now : Option Bool}
    (hnow : eventTruth s r.eventRef (taskGet s e k).truth = now) (hedge : EventEdge r (taskGet s e k).truth now)
    {z : TaskSt} (hz : z = { taskGet s e k with evalTick := some s.pwr.tick, truth := now }) :
    ((taskGet s e k).mode = .stopped → exec (.eventTaskRelease e k) s = .next (taskSet e k z s)) ∧
    ((taskGet s e k).mode = .idle → exec (.eventTaskRelease e k) s = .next (taskRelease e k (taskSet e k z s))) ∧
    ((taskGet s e k).mode ≠ .idle ∧ (taskGet s e k).mode ≠ .stopped →
      ((taskGet s e k).pendingRel = false → exec (.eventTaskRelease e k) s =
        .next (taskSet e k { z with pendingRel := true } (taskSet e k z s))) ∧
      ((taskGet s e k).pendingRel = true → exec (.eventTaskRelease e k) s =
        .next (causeS Reg.CE_CAUSE 2 (taskId e k)
          (taskSet e k { z with lost := satInc 16 (taskGet s e k).lost } (taskSet e k z s))))) := by
  subst hz
  have hx : exec (.eventTaskRelease e k) s = execEventTaskRelease e k s := rfl
  rw [hx]
  unfold execEventTaskRelease
  rw [hr]
  dsimp only
  rw [if_neg (by simp [hon, hl, hev, hk]), hnow, if_neg]
  · refine ⟨fun hm => ?_, fun hm => ?_, fun hm => ?_⟩
    · simp [hm]
    · simp [hm]
    · obtain ⟨hi, hs⟩ := hm
      split
      · next h => exact absurd h hs
      · next h => exact absurd h hi
      · exact ⟨fun hp => by simp [hp], fun hp => by simp [hp]⟩
  · obtain ⟨h1, rfl, h3 | h3⟩ | ⟨h1, rfl, h3 | h3⟩ := hedge <;> simp [h1, h3]

end

/-! ### The task after a release -/

section
variable {e k : Nat} {s : State} (hw : TasksWf s) (he : e < s.ce.engines.length)
include hw he

theorem taskRelease_taskSet (t : TaskSt) : taskGet (taskRelease e k (taskSet e k t s)) e k =
    { t with mode := .released, relTick := s.pwr.tick, everReleased := true } := by
  rw [taskRelease, taskGet_taskSet_same (hw.taskSet he k t) (by simpa using he), taskGet_taskSet_same hw he]
  rfl

theorem taskGet_taskSet_twice (t1 t2 : TaskSt) : taskGet (taskSet e k t2 (taskSet e k t1 s)) e k = t2 :=
  taskGet_taskSet_same (hw.taskSet he k t1) (by simpa using he) k t2

/-- A release that is skipped or lost is counted in the task, and its cause set. -/
theorem taskCounted (hs : RegsWf s) (t1 t2 : TaskSt) {b : Nat} (hb : b < 32) (src : Nat) :
    taskGet (causeS Reg.CE_CAUSE b src (taskSet e k t2 (taskSet e k t1 s))) e k = t2 ∧
      getBit (causeS Reg.CE_CAUSE b src (taskSet e k t2 (taskSet e k t1 s))) Reg.CE_CAUSE b = true :=
  ⟨(taskGet_congr (causeS_ce ..) e k).trans (taskGet_taskSet_twice hw he t1 t2),
    causeS_sets src (s := taskSet e k t2 (taskSet e k t1 s)) hs hb (by decide)⟩

end

end Sys2Proof.Machine
end

section
/-! ## Dispatch and preemption (R282, R283, R288, R311) -/

open Sys2Proof Sys2Proof.Machine
namespace Sys2Proof.Machine

/-! ### The most urgent waiting task -/

/-- A fold that keeps the element of least rank ends at the element that all others exceed. -/
theorem foldl_least_of_some {α : Type} {rank : α → Nat} {f : Option α → α → Option α}
    (hf : ∀ b x, f (some b) x = if rank x < rank b then some x else some b) {r : α} (xs : List α) (b : α)
    (hr : r ∈ b :: xs) (hleast : ∀ q ∈ b :: xs, q ≠ r → rank r < rank q) : xs.foldl f (some b) = some r := by
  induction xs generalizing b with
  | nil => rw [List.mem_singleton.1 hr]; rfl
  | cons x xs ih =>
    rw [List.foldl_cons, hf]
    simp only [List.mem_cons] at hr hleast ih
    split
    · next hlt =>
      refine ih x ?_ fun q hq => hleast q (.inr hq)
      rcases hr with rfl | hr
      · by_contra hne
        exact absurd (hleast x (.inr (.inl rfl)) fun h => hne (.inl h.symm)) (Nat.lt_asymm hlt)
      · exact hr
    · next hge =>
      refine ih b ?_ fun q hq => hleast q (hq.imp_right .inr)
      rcases hr with rfl | rfl | hr
      · exact .inl rfl
      · by_contra hne
        exact absurd (hleast b (.inl rfl) fun h => hne (.inl h.symm)) hge
      · exact .inr hr

theorem foldl_least {α : Type} {rank : α → Nat} {f : Option α → α → Option α} (hnone : ∀ x, f none x = some x)
    (hf : ∀ b x, f (some b) x = if rank x < rank b then some x else some b) {r : α} {xs : List α} (hr : r ∈ xs)
    (hleast : ∀ q ∈ xs, q ≠ r → rank r < rank q) : xs.foldl f none = some r := by
  cases xs with
  | nil => cases hr
  | cons x xs =>
    rw [List.foldl_cons, hnone]
    exact foldl_least_of_some hf xs x hr hleast

theorem nextTask_of_least {s : State} {e : Nat} {r : TaskRec} (hr : r ∈ (theTt s).tasks) (he : r.engine = e)
    (hwaits : taskWaits (taskGet s e r.task) = true)
    (hleast : ∀ q ∈ (theTt s).tasks, q.engine = e → taskWaits (taskGet s e q.task) = true → q ≠ r → r.priority < q.priority) :
    nextTask s e = some r := by
  refine foldl_least (rank := TaskRec.priority) (fun _ => rfl) (fun _ _ => rfl) ?_ fun q hq hne => ?_
  · simp [hr, he, hwaits]
  · simp only [List.mem_filter, Bool.and_eq_true, beq_iff_eq] at hq
    obtain ⟨hmem, heng, hq⟩ := hq
    exact hleast q hmem heng hq hne

/-! ### The row -/

/-- The engine is given to task `r`; what it did last is no END any more (R297). -/
def engineGiven (e : Nat) (r : TaskRec) (s : State) : State :=
  ceSet e { ceGet s e with run := some r.task, atEnd := none } s

/-- The bank with which a task begins, after a copy-in of `n` entries (R288, R311). -/
def bankBegun (tt : Timetable) (r : TaskRec) (n : Nat) (t : TaskSt) : TaskSt :=
  { taskFresh tt r t with mode := .running, cycles := copyCycles n, releases := (t.releases + 1) % 2 ^ 32 }

/-- Task `r` takes its engine: it resumes where it was, or begins with its copy-in and a fresh bank. -/
def taskTakes (e : Nat) (r : TaskRec) (s : State) : State :=
  let t := taskGet s e r.task
  let n := (copyListMem (engineGiven e r s) e r.inList).length
  if t.mode = .preempted then taskSet e r.task { t with mode := .running } (engineGiven e r s)
  else copyIn e r (ceSpend e (copyCycles n) (taskSet e r.task (bankBegun (theTt s) r n t) (engineGiven e r s)))

theorem theTt_taskSet (e k : Nat) (t : TaskSt) (s : State) : theTt (taskSet e k t s) = theTt s := rfl

section
variable {e : Nat} {r : TaskRec} {s : State} (hon : engRuns s e = true) (hn : nextTask s e = some r)
include hon hn

theorem execTaskDispatch_free (hrun : (ceGet s e).run = none) : exec (.taskDispatch e) s = .next (taskTakes e r s) := by
  change execTaskDispatch e s = _
  simp [execTaskDispatch, taskTakes, engineGiven, bankBegun, hon, hn, hrun, runPriority, apply_ite Host.Outcome.next]

variable {k : Nat} {q : TaskRec} (hrun : (ceGet s e).run = some k) (hq : (theTt s).task e k = some q)
include hrun hq

theorem execTaskDispatch_preempts (hlt : r.priority < q.priority) :
    exec (.taskDispatch e) s = .next (taskTakes e r (taskSet e k { taskGet s e k with mode := .preempted } s)) := by
  change execTaskDispatch e s = _
  simp [execTaskDispatch, taskTakes, engineGiven, bankBegun, hon, hn, hrun, hq, runPriority, hlt,
    apply_ite Host.Outcome.next, theTt_taskSet]

theorem execTaskDispatch_waits (hge : q.priority ≤ r.priority) : exec (.taskDispatch e) s = .next s := by
  change execTaskDispatch e s = _
  simp [execTaskDispatch, hon, hn, hrun, hq, runPriority, Nat.not_lt.2 hge]

end

/-! ### What an access of a task's memory leaves of the engines -/

/-- Engine `f` but for its data memory. -/
def besideData (s : State) (f : Nat) : EngineSt := { ceGet s f with data := [] }

theorem besideData_parts (s : State) (f : Nat) : (besideData s f).run = (ceGet s f).run ∧
    (besideData s f).atEnd = (ceGet s f).atEnd ∧ ∀ j, (besideData s f).task j = taskGet s f j := ⟨rfl, rfl, fun _ => rfl⟩

theorem ceGet_dataWrite {e : Nat} {s : State} (he : e < s.ce.engines.length) (a : Nat) (bs : List Byte) (f : Nat) :
    ceGet (dataWrite e a bs s) f = if f = e then { ceGet s e with data := memWrite (ceGet s e).data a bs } else ceGet s f :=
  ceGet_ceSet he _ f

theorem ceSet_outside {e : Nat} {s : State} (he : ¬ e < s.ce.engines.length) (x : EngineSt) : ceSet e x s = s := by
  rw [ceSet, setNth, List.set_eq_of_length_le (Nat.not_lt.1 he)]

theorem besideData_dataWrite (e a : Nat) (bs : List Byte) (s : State) : besideData (dataWrite e a bs s) = besideData s := by
  funext f
  by_cases he : e < s.ce.engines.length
  · rw [besideData, ceGet_dataWrite he]
    split
    · next h => rw [h]; rfl
    · rfl
  · have hce : (dataWrite e a bs s).ce = (ceSet e { ceGet s e with data := memWrite (ceGet s e).data a bs } s).ce := rfl
    rw [ceSet_outside he] at hce
    rw [besideData, ceGet_congr hce]
    rfl

theorem besideData_copyIn (e : Nat) (r : TaskRec) (s : State) : besideData (copyIn e r s) = besideData s :=
  forL_keeps besideData _ _ _ fun _ _ => besideData_dataWrite ..

/-- R288: a copy-in leaves every bank and what the engine runs. -/
theorem copyIn_keeps (e : Nat) (r : TaskRec) (s : State) (f : Nat) : (ceGet (copyIn e r s) f).run = (ceGet s f).run ∧
    (ceGet (copyIn e r s) f).atEnd = (ceGet s f).atEnd ∧ ∀ j, taskGet (copyIn e r s) f j = taskGet s f j := by
  obtain ⟨hrun, hend, htask⟩ := besideData_parts (copyIn e r s) f
  obtain ⟨hrun', hend', htask'⟩ := besideData_parts s f
  rw [besideData_copyIn] at hrun hend htask
  exact ⟨hrun.symm.trans hrun', hend.symm.trans hend', fun j => (htask j).symm.trans (htask' j)⟩

theorem copyListMem_congr {s t : State} {e : Nat} (h : (ceGet t e).data = (ceGet s e).data) (off : Nat) :
    copyListMem t e off = copyListMem s e off := by simp only [copyListMem, dataRead, h]

/-! ### The engine after a dispatch -/

section
variable {e : Nat} {r : TaskRec} {s : State} (hw : TasksWf s) (he : e < s.ce.engines.length)

theorem ceSpend_keeps (n : Nat) (he : e < s.ce.engines.length) : (ceGet (ceSpend e n s) e).run = (ceGet s e).run ∧
    (ceGet (ceSpend e n s) e).atEnd = (ceGet s e).atEnd ∧ ∀ j, taskGet (ceSpend e n s) e j = taskGet s e j := by
  have h : ceGet (ceSpend e n s) e = { ceGet s e with hwCycles := (ceGet s e).hwCycles + n } :=
    (ceGet_ceSet he _ e).trans (if_pos rfl)
  refine ⟨by rw [h], by rw [h], fun j => ?_⟩
  rw [taskGet, h]
  rfl

include he

theorem engineGiven_gives : ceGet (engineGiven e r s) e = { ceGet s e with run := some r.task, atEnd := none } := by
  rw [engineGiven, ceGet_ceSet he, if_pos rfl]

theorem engineGiven_task (j : Nat) : taskGet (engineGiven e r s) e j = taskGet s e j := by
  rw [taskGet, engineGiven_gives he]
  rfl

theorem engineGiven_copyList (off : Nat) : copyListMem (engineGiven e r s) e off = copyListMem s e off :=
  copyListMem_congr (by rw [engineGiven_gives he]) off

include hw

/-- The bank of a task to which the engine is given is replaced. -/
theorem engineGiven_taskSet (t : TaskSt) :
    let u := taskSet e r.task t (engineGiven e r s)
    (ceGet u e).run = some r.task ∧ (ceGet u e).atEnd = none ∧ (ceGet u e).data = (ceGet s e).data ∧
      ∀ j, taskGet u e j = if j = r.task then t else taskGet s e j := by
  have hgw : TasksWf (engineGiven e r s) := hw.ceSet he (x := { ceGet s e with run := some r.task, atEnd := none }) (hw e)
  have hlen : e < (engineGiven e r s).ce.engines.length := by simpa [engineGiven] using he
  intro u
  have hu : ceGet u e = (ceGet (engineGiven e r s) e).setTask r.task t := (ceGet_taskSet hlen ..).trans (if_pos rfl)
  rw [hu, engineGiven_gives he]
  refine ⟨rfl, rfl, rfl, fun j => ?_⟩
  rw [taskGet_taskSet hgw hlen, engineGiven_task he]
  simp only [true_and]

theorem taskTakes_resumes (hm : (taskGet s e r.task).mode = .preempted) :
    (ceGet (taskTakes e r s) e).run = some r.task ∧ (ceGet (taskTakes e r s) e).atEnd = none ∧
    (ceGet (taskTakes e r s) e).data = (ceGet s e).data ∧ ∀ j, taskGet (taskTakes e r s) e j =
      if j = r.task then { taskGet s e r.task with mode := .running } else taskGet s e j := by
  rw [taskTakes, if_pos hm]
  exact engineGiven_taskSet hw he _

theorem taskTakes_begins (hm : (taskGet s e r.task).mode ≠ .preempted) :
    (ceGet (taskTakes e r s) e).run = some r.task ∧ (ceGet (taskTakes e r s) e).atEnd = none ∧
    ∀ j, taskGet (taskTakes e r s) e j = if j = r.task then
      bankBegun (theTt s) r (copyListMem s e r.inList).length (taskGet s e r.task) else taskGet s e j := by
  rw [taskTakes, if_neg hm, engineGiven_copyList he]
  generalize copyCycles (copyListMem s e r.inList).length = n
  generalize bankBegun (theTt s) r (copyListMem s e r.inList).length (taskGet s e r.task) = t
  obtain ⟨hrun, hend, -, htask⟩ := engineGiven_taskSet (r := r) hw he t
  have hlen : e < (taskSet e r.task t (engineGiven e r s)).ce.engines.length := by simpa [engineGiven] using he
  obtain ⟨hrun', hend', htask'⟩ := ceSpend_keeps n hlen
  obtain ⟨hrun'', hend'', htask''⟩ := copyIn_keeps e r (ceSpend e n (taskSet e r.task t (engineGiven e r s))) e
  exact ⟨hrun''.trans (hrun'.trans hrun), hend''.trans (hend'.trans hend),
    fun j => (htask'' j).trans ((htask' j).trans (htask j))⟩

end

/-- Task `r`, which waits in `s`, has its engine in `t`: it has resumed, or begun (R282, R283, R288, R311). -/
structure TaskTaken (e : Nat) (r : TaskRec) (s t : State) : Prop where
  run : (ceGet t e).run = some r.task
  atEnd : (ceGet t e).atEnd = none
  resumed : (taskGet s e r.task).mode = .preempted →
    taskGet t e r.task = { taskGet s e r.task with mode := .running } ∧ (ceGet t e).data = (ceGet s e).data
  begun : (taskGet s e r.task).mode = .released →
    taskGet t e r.task = bankBegun (theTt s) r (copyListMem s e r.inList).length (taskGet s e r.task)

section
variable {e : Nat} {r : TaskRec} {s : State} (hw : TasksWf s) (he : e < s.ce.engines.length)
include hw he

theorem taskTakes_taken : TaskTaken e r s (taskTakes e r s) := by
  by_cases hm : (taskGet s e r.task).mode = .preempted
  · obtain ⟨hrun, hend, hdata, htask⟩ := taskTakes_resumes hw he hm
    exact ⟨hrun, hend, fun _ => ⟨(htask _).trans (if_pos rfl), hdata⟩, fun h => TaskMode.noConfusion (h.symm.trans hm)⟩
  · obtain ⟨hrun, hend, htask⟩ := taskTakes_begins hw he hm
    exact ⟨hrun, hend, fun h => absurd h hm, fun _ => (htask _).trans (if_pos rfl)⟩

theorem taskTakes_others {k : Nat} (hk : k ≠ r.task) : taskGet (taskTakes e r s) e k = taskGet s e k := by
  by_cases hm : (taskGet s e r.task).mode = .preempted
  · obtain ⟨-, -, -, htask⟩ := taskTakes_resumes hw he hm
    exact (htask k).trans (if_neg hk)
  · obtain ⟨-, -, htask⟩ := taskTakes_begins hw he hm
    exact (htask k).trans (if_neg hk)

/-- R282: the task that loses the engine is preempted, and the other takes it. -/
theorem taskTakes_preempting {k : Nat} (hk : k ≠ r.task) (t : TaskSt) :
    TaskTaken e r s (taskTakes e r (taskSet e k t s)) ∧ taskGet (taskTakes e r (taskSet e k t s)) e k = t := by
  have hw' := hw.taskSet he k t
  have he' : e < (taskSet e k t s).ce.engines.length := by simpa using he
  have hx : taskGet (taskSet e k t s) e r.task = taskGet s e r.task :=
    (taskGet_taskSet hw he ..).trans (if_neg fun h => hk h.2.symm)
  have hdata : (ceGet (taskSet e k t s) e).data = (ceGet s e).data := by
    rw [ceGet_taskSet he, if_pos rfl]
    rfl
  obtain ⟨hrun, hend, hresumed, hbegun⟩ := taskTakes_taken (r := r) hw' he'
  rw [hx, hdata] at hresumed
  rw [hx, copyListMem_congr hdata, theTt_taskSet] at hbegun
  exact ⟨⟨hrun, hend, hresumed, hbegun⟩, (taskTakes_others hw' he' hk).trans (taskGet_taskSet_same hw he k t)⟩

end

end Sys2Proof.Machine

/-- Settles O51: a release by the mode that it finds, a dispatch by the task of least priority number. -/
theorem taskReleasesAndDispatch : Obligations.TaskReleasesAndDispatch := by
  constructor
  · intro e k r s hs he hr hon hl hev x y busy
    refine ⟨?_, fun hk hd => execTaskRelease_notDue hr hd, ?_⟩
    · intro hk hd
      obtain ⟨hidle, hstopped, hbusy⟩ := execTaskRelease_due hr hon hl hev hk hd
      by_cases hm : x.mode = .idle
      · exact ⟨_, hidle hm, fun _ => taskRelease_taskSet hs.tasks he y, fun h => TaskMode.noConfusion (h.symm.trans hm),
          fun h => absurd hm h.1⟩
      by_cases hm' : x.mode = .stopped
      · exact ⟨_, hstopped hm', fun h => absurd h hm, fun _ => taskGet_taskSet_same hs.tasks he k y, fun h => absurd hm' h.2⟩
      · exact ⟨_, hbusy ⟨hm, hm'⟩, fun h => absurd h hm, fun h => absurd h hm',
          fun _ => taskCounted hs.tasks he hs.regs _ _ (by decide) _⟩
    · intro hk w hw now z edge
      have hnow : eventTruth s r.eventRef x.truth = now := eventTruth_of hw x.truth
      by_cases hedge : EventEdge r x.truth now
      · obtain ⟨hstopped, hidle, hbusy⟩ := execEventTaskRelease_edge hr hon hl hev hk hnow hedge (z := z) rfl
        by_cases hm : x.mode = .idle
        · exact ⟨_, hidle hm, fun h => absurd h (by simp [hm, show edge from hedge]),
            fun _ _ => taskRelease_taskSet hs.tasks he z, fun _ h => absurd hm h.1, fun _ h => absurd hm h.1⟩
        by_cases hm' : x.mode = .stopped
        · exact ⟨_, hstopped hm', fun _ => taskGet_taskSet_same hs.tasks he k z, fun _ h => absurd h hm,
            fun _ h => absurd hm' h.2, fun _ h => absurd hm' h.2⟩
        obtain ⟨hpend, hlost⟩ := hbusy ⟨hm, hm'⟩
        by_cases hp : x.pendingRel = true
        · exact ⟨_, hlost hp, fun h => absurd h (by simp [hm', show edge from hedge]), fun _ h => absurd h hm,
            fun _ _ h => Bool.noConfusion (h.symm.trans hp),
            fun _ _ _ => taskCounted hs.tasks he hs.regs z _ (b := 2) (by decide) _⟩
        · exact ⟨_, hpend (Bool.eq_false_of_not_eq_true hp), fun h => absurd h (by simp [hm', show edge from hedge]),
            fun _ h => absurd h hm, fun _ _ _ => taskGet_taskSet_twice hs.tasks he z _, fun _ _ h => absurd h hp⟩
      · have hno : ¬ edge := hedge
        exact ⟨_, execEventTaskRelease_noEdge hr hon hl hev hk hnow hedge, fun _ => taskGet_taskSet_same hs.tasks he k z,
          fun h => absurd h hno, fun h => absurd h hno, fun h => absurd h hno⟩
  · intro e r s hs he hon hr hre hwaits hleast x taken
    have hn := nextTask_of_least hr hre hwaits hleast
    have htaken (t : State) (h : TaskTaken e r s t) : taken t := ⟨h.run, h.atEnd, h.resumed, h.begun⟩
    refine ⟨fun hrun => ⟨_, execTaskDispatch_free hon hn hrun, htaken _ (taskTakes_taken hs.tasks he)⟩,
      fun k q hrun hq hk => ⟨fun hlt => ?_, execTaskDispatch_waits hon hn hrun hq⟩⟩
    obtain ⟨htakes, hother⟩ := taskTakes_preempting hs.tasks he hk { taskGet s e k with mode := .preempted }
    exact ⟨_, execTaskDispatch_preempts hon hn hrun hq hlt, htaken _ htakes, hother⟩
end

section
/-! ## Retentive captures (R296, R297) -/

open Sys2Proof Sys2Proof.Machine
namespace Sys2Proof.Machine

/-! ### The request -/

/-- `t` differs from `s` in what the engines hold only. -/
structure EnginesOnly (s t : State) : Prop where
  rest : t = { s with ce := { s.ce with engines := t.ce.engines } }
  length : t.ce.engines.length = s.ce.engines.length

theorem EnginesOnly.refl (s : State) : EnginesOnly s s := ⟨rfl, rfl⟩

theorem EnginesOnly.trans {s t u : State} (h : EnginesOnly s t) (k : EnginesOnly t u) : EnginesOnly s u := by
  refine ⟨?_, k.length.trans h.length⟩
  rw [k.rest, h.rest]

theorem EnginesOnly.pwr {s t : State} (h : EnginesOnly s t) : t.pwr = s.pwr := by rw [h.rest]

theorem EnginesOnly.retTick {s t : State} (h : EnginesOnly s t) : t.ce.retTick = s.ce.retTick := by rw [h.rest]

theorem ceSet_enginesOnly (e : Nat) (x : EngineSt) (s : State) : EnginesOnly s (ceSet e x s) := ⟨rfl, ceSet_len s e x⟩

/-- An engine whose capture is requested in tick `t`; a request that waits stands (R296). -/
def retAsked (t : Nat) (x : EngineSt) : EngineSt := if x.retReq.isSome then x else { x with retReq := some t }

theorem retAsked_waiting {t : Nat} {x : EngineSt} (h : x.retReq ≠ none) : retAsked t x = x :=
  if_pos (Option.isSome_iff_ne_none.2 h)

theorem retAsked_free {t : Nat} {x : EngineSt} (h : x.retReq = none) : retAsked t x = { x with retReq := some t } :=
  if_neg (by simp [h])

theorem retAsked_twice (t : Nat) (x : EngineSt) : retAsked t (retAsked t x) = retAsked t x := by
  refine retAsked_waiting ?_
  by_cases h : x.retReq = none
  · simp [retAsked_free h]
  · rwa [retAsked_waiting h]

/-- The request of one area's capture. -/
def retAsk (r : Retentive) (s : State) : State :=
  let x := ceGet s r.engine
  if x.retReq.isSome then s else ceSet r.engine { x with retReq := some s.pwr.tick } s

theorem retRequest_eq {s : State} (h : s.dev.mode ≠ .standby) : retRequest s = forL (theTt s).retentive s retAsk := if_neg h

theorem retAsk_enginesOnly (r : Retentive) (s : State) : EnginesOnly s (retAsk r s) := by
  unfold retAsk
  dsimp only
  split
  · exact .refl s
  · exact ceSet_enginesOnly ..

theorem ceGet_retAsk {r : Retentive} {s : State} (hr : r.engine < s.ce.engines.length) (e : Nat) :
    ceGet (retAsk r s) e = if r.engine = e then retAsked s.pwr.tick (ceGet s e) else ceGet s e := by
  by_cases he : r.engine = e
  · subst he
    rw [if_pos rfl]
    unfold retAsk retAsked
    dsimp only
    split
    · rfl
    · rw [ceGet_ceSet hr, if_pos rfl]
  · rw [if_neg he]
    unfold retAsk
    dsimp only
    split
    · rfl
    · rw [ceGet_ceSet hr, if_neg (Ne.symm he)]

theorem forL_retAsk_enginesOnly (rs : List Retentive) (s : State) : EnginesOnly s (forL rs s retAsk) := by
  induction rs generalizing s with
  | nil => exact .refl s
  | cons r rs ih => exact (retAsk_enginesOnly r s).trans (ih _)

theorem ceGet_forL_retAsk (rs : List Retentive) {s : State} (hrs : ∀ r ∈ rs, r.engine < s.ce.engines.length) (e : Nat) :
    ceGet (forL rs s retAsk) e = if ∃ r ∈ rs, r.engine = e then retAsked s.pwr.tick (ceGet s e) else ceGet s e := by
  induction rs generalizing s with
  | nil => simp [forL]
  | cons r rs ih =>
    have hone := retAsk_enginesOnly r s
    have hr := hrs r List.mem_cons_self
    have hstep : forL (r :: rs) s retAsk = forL rs (retAsk r s) retAsk := rfl
    rw [hstep, ih (fun q hq => hone.length ▸ hrs q (List.mem_cons_of_mem _ hq)), hone.pwr, ceGet_retAsk hr]
    simp only [List.exists_mem_cons_iff]
    by_cases he : r.engine = e
    · by_cases hex : ∃ q ∈ rs, q.engine = e <;> simp [he, hex, retAsked_twice]
    · simp [he]

/-- R296: what a save requests: a capture of every engine with an area. -/
theorem retRequest_asks {s : State} (h : s.dev.mode ≠ .standby)
    (hrs : ∀ r ∈ (theTt s).retentive, r.engine < s.ce.engines.length) : EnginesOnly s (retRequest s) ∧
      ∀ e, ((∃ r ∈ (theTt s).retentive, r.engine = e) → (ceGet s e).retReq = none →
          ceGet (retRequest s) e = { ceGet s e with retReq := some s.pwr.tick }) ∧
        ((∀ r ∈ (theTt s).retentive, r.engine ≠ e) ∨ (ceGet s e).retReq ≠ none → ceGet (retRequest s) e = ceGet s e) := by
  rw [retRequest_eq h]
  refine ⟨forL_retAsk_enginesOnly .., fun e => ?_⟩
  rw [ceGet_forL_retAsk _ hrs]
  refine ⟨fun hex hfree => by rw [if_pos hex, retAsked_free hfree], fun hno => ?_⟩
  split
  · next hex =>
    obtain ⟨r, hr, hre⟩ := hex
    exact hno.elim (fun hall => absurd hre (hall r hr)) retAsked_waiting
  · rfl

/-! ### The capture -/

theorem ceIdle_iff (s : State) (e : Nat) :
    ceIdle s e = true ↔ (ceGet s e).run = none ∧ ∀ p ∈ (ceGet s e).tasks, taskWaits p.2 = false := by
  simp [ceIdle]

/-- R297: a capture takes the request, marks the engine's record as outstanding and shows whether it fell in mid-task. -/
theorem retCapture_captures {e : Nat} {s : State} (hs : RegsWf s) (he : e < s.ce.engines.length) (he8 : e < 8) {r : Retentive}
    (hr : r.engine = e) (mid : Bool) (owner : JOwner) :
    (ceGet (retCapture r mid owner s) e).retReq = none ∧ e ∈ (retCapture r mid owner s).ce.retLeft ∧
      getFld (retCapture r mid owner s) Reg.CE_RET_STAT (16 + e) (16 + e) = b2n mid := by
  subst hr
  let s1 := setFld Reg.CE_RET_STAT (16 + r.engine) (16 + r.engine) (b2n mid)
    (ceSet r.engine { ceGet s r.engine with retReq := none } s)
  have hj := jnlRequest_journalled { kind := 6, inst := r.engine, payload := retPayload r mid s, owner := owner }
    { s1 with ce := { s1.ce with retLeft := s1.ce.retLeft.filter (· != r.engine) ++ [r.engine] } }
  have hce : (retCapture r mid owner s).ce =
      { s1.ce with retLeft := s1.ce.retLeft.filter (· != r.engine) ++ [r.engine] } := (congrArg State.ce hj.rest :)
  have hget : ceGet (retCapture r mid owner s) r.engine = { ceGet s r.engine with retReq := none } := by
    have h1 : ceGet (retCapture r mid owner s) r.engine =
        ceGet (ceSet r.engine { ceGet s r.engine with retReq := none } s) r.engine := by
      simp only [ceGet, hce]
      rfl
    rw [h1, ceGet_ceSet he, if_pos rfl]
  refine ⟨by rw [hget], by rw [hce]; simp, ?_⟩
  have hreg : getReg (retCapture r mid owner s) Reg.CE_RET_STAT = getReg s1 Reg.CE_RET_STAT := hj.regs _ (by decide)
  have hfld := getFld_setFld Reg.CE_RET_STAT (16 + r.engine) (16 + r.engine) (b2n mid)
    (s := ceSet r.engine { ceGet s r.engine with retReq := none } s) hs (by omega) le_rfl
  rw [getFld_congr hreg, hfld]
  cases mid <;> simp [b2n]

/-- R297: the row, for an engine whose capture waits. -/
theorem execRetentiveCapture_waiting {e t0 : Nat} {r : Retentive} {s : State} (hreq : (ceGet s e).retReq = some t0)
    (hr : (theTt s).ret e = some r) (hsave : s.pwr.saving = false) :
    exec (.retentiveCapture e) s =
      if (ceGet s e).atEnd = some s.pwr.tick ∧ (theTt s).plan.headway ≤ s.pwr.tick - t0 then
        .next (retCapture r true (.retentive e) s)
      else if ceIdle s e then .next (retCapture r false (.retentive e) s) else .next s := by
  change execRetentiveCapture e s = _
  unfold execRetentiveCapture
  simp only [hsave, hreq, hr, Bool.false_eq_true, if_false]

end Sys2Proof.Machine
end

section
/-! ## Patches (R300, R302) -/

open Sys2Proof Sys2Proof.Machine
namespace Sys2Proof.Machine

theorem atBoundary_iff (t : TaskSt) : atBoundary t = true ↔ t.mode = .idle ∨ t.mode = .released ∨ t.mode = .stopped := by
  simp [atBoundary, or_assoc]

section
variable {e : Nat} {p : Patch} {s : State} (hp : (ceGet s e).patches = [p])
include hp

theorem execPatchApply_atBoundary (hb : atBoundary ((ceGet s e).task p.task) = true) :
    exec (.patchApply e) s = .next (patchWrite e p (ceSet e { ceGet s e with patches := [] } s)) := by
  change execPatchApply e s = _
  simp [execPatchApply, hp, hb]

theorem execPatchApply_within (hb : atBoundary ((ceGet s e).task p.task) = false) : exec (.patchApply e) s = .next s := by
  change execPatchApply e s = _
  simp [execPatchApply, hp, hb]

end

/-- The bytes of a patch in the memory that its space names. -/
def patchBytesWritten (e : Nat) (p : Patch) (s : State) : State :=
  if p.space = 1 then
    memHeal (ceBase e + (litStart (theTt s) e + p.addr)) p.bytes.length
      (ceSet e { ceGet s e with code := memWrite (ceGet s e).code (litStart (theTt s) e + p.addr) p.bytes } s)
  else dataWrite e p.addr p.bytes s

theorem patchWrite_eq (e : Nat) (p : Patch) (s : State) : patchWrite e p s = causeS Reg.CE_CAUSE 4 (taskId e p.task)
    (setFld Reg.CE_PATCH_CTL 23 20 0 (setFld Reg.CE_PATCH_CTL 19 18 2 (patchBytesWritten e p s))) := rfl

theorem patchBytesWritten_regs (e : Nat) (p : Patch) (s : State) : (patchBytesWritten e p s).regs = s.regs := by
  unfold patchBytesWritten
  split <;> rfl

theorem ceGet_patchBytesWritten {e : Nat} {s : State} (he : e < s.ce.engines.length) (p : Patch) :
    ceGet (patchBytesWritten e p s) e =
      if p.space = 1 then { ceGet s e with code := memWrite (ceGet s e).code (litStart (theTt s) e + p.addr) p.bytes }
      else { ceGet s e with data := memWrite (ceGet s e).data p.addr p.bytes } := by
  unfold patchBytesWritten
  split
  · exact (ceGet_ceSet he _ e).trans (if_pos rfl)
  · exact (ceGet_dataWrite he _ _ e).trans (if_pos rfl)

/-- R300: a written patch in the engine's memory, its status and its cause. -/
theorem patchWrite_writes {e : Nat} {s : State} (hs : RegsWf s) (p : Patch) :
    ceGet (patchWrite e p s) e = ceGet (patchBytesWritten e p s) e ∧ getFld (patchWrite e p s) Reg.CE_PATCH_CTL 19 18 = 2 ∧
      getBit (patchWrite e p s) Reg.CE_CAUSE 4 = true := by
  have hw : RegsWf (patchBytesWritten e p s) := by rw [RegsWf, patchBytesWritten_regs]; exact hs
  rw [patchWrite_eq]
  generalize patchBytesWritten e p s = t at hw
  have h1 := setFld_wf Reg.CE_PATCH_CTL 19 18 2 hw
  have h2 := setFld_wf Reg.CE_PATCH_CTL 23 20 0 h1
  refine ⟨ceGet_congr (causeS_ce ..) e, ?_, causeS_sets _ h2 (by decide) (by decide)⟩
  rw [getFld_congr ((causeS_regs Reg.CE_CAUSE 4 _ _ h2).2 Reg.CE_PATCH_CTL (by decide)),
    getFld_setFld_apart _ _ h1 (by decide) (by decide) (by decide) (by decide),
    getFld_setFld _ _ _ _ hw (by decide) (by decide)]
  rfl

end Sys2Proof.Machine

/-- Settles O52: the request by the list of areas, the capture by the row's three cases, the patch by its task's boundary. -/
theorem retentiveAndPatches : Obligations.RetentiveAndPatches := by
  refine ⟨?_, ?_, ?_⟩
  · intro s hmode hlen hrs asked
    rw [← hlen] at hrs
    constructor
    · obtain ⟨honly, hasked⟩ := retRequest_asks hmode hrs
      exact ⟨_, rfl, fun e _ => hasked e, honly.rest⟩
    · intro hst hper
      let s1 : State := { s with ce := { s.ce with retTick := s.pwr.tick } }
      obtain ⟨honly, hasked⟩ := retRequest_asks (s := s1) hmode hrs
      exact ⟨_, (if_pos ⟨hst, hper⟩ : execRetentiveSavePeriodic s = .next (retRequest s1)), fun e _ => hasked e,
        honly.retTick⟩
  · intro e t0 r s hs he he8 hreq hr hre hsave idle overdue
    have hrow := execRetentiveCapture_waiting hreq hr hsave
    have hcap (mid : Bool) := retCapture_captures hs he he8 hre mid (.retentive e)
    refine ⟨fun hi ho => ?_, fun ho => ?_, fun hi ho => ?_⟩
    · exact ⟨_, hrow.trans ((if_neg ho).trans (if_pos ((ceIdle_iff s e).2 hi))), hcap false⟩
    · exact ⟨_, hrow.trans (if_pos ho), hcap true⟩
    · exact hrow.trans ((if_neg ho).trans (if_neg fun h => hi ((ceIdle_iff s e).1 h)))
  · intro e p s hs he hp x
    refine ⟨fun hm => ?_, fun hm => ?_⟩
    · let s1 := ceSet e { ceGet s e with patches := [] } s
      have he1 : e < s1.ce.engines.length := by simpa [s1] using he
      have hx : ceGet s1 e = { ceGet s e with patches := [] } := (ceGet_ceSet he _ e).trans (if_pos rfl)
      obtain ⟨hget, hctl, hcause⟩ := patchWrite_writes (s := s1) hs p
      rw [ceGet_patchBytesWritten he1, hx] at hget
      refine ⟨_, execPatchApply_atBoundary hp ((atBoundary_iff _).2 hm), ?_, hctl, hcause, fun h1 => ?_, fun h1 => ?_⟩
      · rw [hget]
        split <;> rfl
      · rw [hget, if_pos h1]
        exact ⟨rfl, rfl⟩
      · rw [hget, if_neg h1]
        exact ⟨rfl, rfl⟩
    · refine execPatchApply_within hp ?_
      obtain hm | hm := hm <;> simp [atBoundary, show ((ceGet s e).task p.task).mode = _ from hm]
end

section
/-! ## Registers of a bank and the integer group (R310, R319, R320) -/

open Sys2Proof Sys2Proof.Machine
namespace Sys2Proof.Machine

/-! ### The bank -/

theorem setReg_of_pos (b : TaskSt) {i : Nat} (hi : 0 < i) (v : Word) : b.setReg i v = { b with w := setNth b.w i v } :=
  if_neg (by omega)

theorem setReg_zero (b : TaskSt) (v : Word) : b.setReg 0 v = b := if_pos rfl

theorem reg_of_pos (b : TaskSt) {i : Nat} (hi : 0 < i) : b.reg i = nth b.w i 0#32 := if_neg (by omega)

theorem reg_setReg_same {b : TaskSt} {i : Nat} (hi : 0 < i) (hb : i < b.w.length) (v : Word) : (b.setReg i v).reg i = v := by
  rw [setReg_of_pos b hi, reg_of_pos _ hi]
  exact nth_setNth_eq _ _ _ _ hb

theorem reg_setReg_ne {b : TaskSt} {i j : Nat} (hij : i ≠ j) (v : Word) : (b.setReg i v).reg j = b.reg j := by
  rcases Nat.eq_zero_or_pos i with rfl | hi
  · rw [setReg_zero]
  · rw [setReg_of_pos b hi]
    simp only [TaskSt.reg, nth_setNth_ne _ _ _ _ _ hij]

/-- Of a bank a register write touches the registers alone. -/
theorem setReg_rest (b : TaskSt) (i : Nat) (v : Word) :
    b.setReg i v = { b with w := (b.setReg i v).w } ∧ (b.setReg i v).w.length = b.w.length := by
  unfold TaskSt.setReg
  split
  · exact ⟨rfl, rfl⟩
  · exact ⟨rfl, List.length_set⟩

/-! ### Values of the integer group -/

theorem boolWord_slt (a b : Word) : boolWord (a.slt b) = if a.toInt < b.toInt then 1#32 else 0#32 := by
  simp [boolWord, BitVec.slt_iff_toInt_lt]

theorem boolWord_ult (a b : Word) : boolWord (a.ult b) = if a.toNat < b.toNat then 1#32 else 0#32 := by
  simp [boolWord, BitVec.ult_iff_lt, BitVec.lt_def]

theorem signedMin_eq (a b : Word) : (if b.slt a then b else a) = BitVec.ofInt 32 (min a.toInt b.toInt) := by
  split
  · next h => rw [min_eq_right (BitVec.slt_iff_toInt_lt.1 h).le, BitVec.ofInt_toInt]
  · next h => rw [min_eq_left (not_lt.1 (mt BitVec.slt_iff_toInt_lt.2 h)), BitVec.ofInt_toInt]

theorem signedMax_eq (a b : Word) : (if a.slt b then b else a) = BitVec.ofInt 32 (max a.toInt b.toInt) := by
  split
  · next h => rw [max_eq_right (BitVec.slt_iff_toInt_lt.1 h).le, BitVec.ofInt_toInt]
  · next h => rw [max_eq_left (not_lt.1 (mt BitVec.slt_iff_toInt_lt.2 h)), BitVec.ofInt_toInt]

theorem mul_eq_ofNat (a b : Word) : a * b = BitVec.ofNat 32 (a.toNat * b.toNat) := BitVec.eq_of_toNat_eq (by simp)

theorem sdiv_eq_ofInt (a b : Word) : a.sdiv b = BitVec.ofInt 32 (a.toInt.tdiv b.toInt) :=
  BitVec.eq_of_toInt_eq (by rw [BitVec.toInt_sdiv, BitVec.toInt_ofInt])

theorem udiv_eq_ofNat (a b : Word) : a / b = BitVec.ofNat 32 (a.toNat / b.toNat) := by
  refine BitVec.eq_of_toNat_eq ?_
  rw [BitVec.toNat_udiv, BitVec.toNat_ofNat, Nat.mod_eq_of_lt (lt_of_le_of_lt (Nat.div_le_self _ _) a.isLt)]

/-- A word with `n` leading zero bits lies between two powers of 2. -/
theorem leadZeros_eq {a : Word} {n : Nat} (hn : n ≤ 32) (hlt : a.toNat < 2 ^ (32 - n))
    (hle : n < 32 → 2 ^ (31 - n) ≤ a.toNat) : leadZeros a = n := by
  obtain rfl | hn := hn.eq_or_lt
  · have ha : a = 0#32 := BitVec.eq_of_toNat_eq (by simpa using hlt)
    rw [leadZeros, if_pos ha]
  · have hle := hle hn
    have ha : a.toNat ≠ 0 := fun h => by simp [h] at hle
    have hlog : Nat.log2 a.toNat = 31 - n :=
      (Nat.log2_eq_iff ha).2 ⟨hle, by rwa [show 31 - n + 1 = 32 - n by omega]⟩
    rw [leadZeros, if_neg (fun h => ha (by rw [h]; rfl)), hlog]
    omega

/-! ### Instructions that write one register -/

section
variable {e : Nat} {c : CeCtx} {s : State} (h : CeExecutes e c s) {i : Instr}
include h

theorem ceAlu_does {op func n : Nat} {f : Word → Word → Word} {v : Word} (hx : exec i s = .next (ceAlu op func n f e s))
    (hn : 0 < n) (hv : f c.ra c.rb = v) (hl : isR op func c.w = true) : CeDoes i c (c.t.setReg (iRd c.w) v) n s :=
  does_of1 hx h hl hn (by rw [← hv]; rfl)

theorem ceAlu1_does {op func n : Nat} {f : Word → Word} {v : Word} (hx : exec i s = .next (ceAlu1 op func n f e s))
    (hn : 0 < n) (hv : f c.ra = v) (hl : isR1 op func c.w = true) : CeDoes i c (c.t.setReg (iRd c.w) v) n s :=
  does_of1 hx h hl hn (by rw [← hv]; rfl)

theorem ceShift_does {func : Nat} {f : Word → Nat → Word} (hx : exec i s = .next (ceShift func f e s))
    (hl : isR 0x00 func c.w = true) : CeDoes i c (c.t.setReg (iRd c.w) (f c.ra (iRb c.w))) 1 s :=
  does_of1 hx h hl Nat.one_pos rfl

theorem ceImm_does {op : Nat} {f : Word → Word → Word} {v : Word} (hx : exec i s = .next (ceImm op f e s))
    (hv : f c.ra c.w = v) (hl : isOp op c.w = true) : CeDoes i c (c.t.setReg (iRd c.w) v) 1 s :=
  does_of1 hx h hl Nat.one_pos (by rw [← hv]; rfl)

theorem ceDivide_does {func : Nat} {f : Word → Word → Word} {v : Word} (hx : exec i s = .next (ceDivide func f e s))
    (hb : c.rb ≠ 0#32) (hv : f c.ra c.rb = v) (hl : isR 0x00 func c.w = true) :
    CeDoes i c (c.t.setReg (iRd c.w) v) 18 s :=
  does_of1 hx h hl (by decide) ((if_neg hb).trans (by rw [← hv]; rfl))

theorem ceDivide_traps {func : Nat} {f : Word → Word → Word} (hx : exec i s = .next (ceDivide func f e s))
    (hb : c.rb = 0#32) (hl : isR 0x00 func c.w = true) : CeTraps i c 0x06 s :=
  traps_of hx h hl (if_pos hb)

end

end Sys2Proof.Machine

/-- Settles O21: w0 takes nothing, and a write sets one place of the register list. -/
theorem registerBank : Obligations.RegisterBank := by
  intro b i j v
  obtain ⟨hrest, hlen⟩ := setReg_rest b i v
  refine ⟨rfl, setReg_zero b v, fun hb hi hi32 => ⟨reg_setReg_same hi (by omega) v, hlen.trans hb⟩,
    fun hij => reg_setReg_ne hij v, ?_, ?_⟩ <;> rw [hrest]

/-- Settles O13: each instruction retires with its value by the rule of its kind; a division traps on a zero divisor. -/
theorem integerGroup : Obligations.IntegerGroup := by
  constructor
  · intro e c s h a b
    refine ⟨?_, fun hb => ?_, fun hl n hn hlt hle => ceAlu1_does h rfl (by decide) (by rw [leadZeros_eq hn hlt hle]) hl⟩
    · simp only [List.forall_mem_cons, List.not_mem_nil, false_imp_iff, implies_true, and_true]
      exact ⟨ceAlu_does h rfl (by decide) rfl, ceAlu_does h rfl (by decide) rfl, ceAlu_does h rfl (by decide) rfl,
        ceAlu_does h rfl (by decide) rfl, ceAlu_does h rfl (by decide) rfl, ceAlu_does h rfl (by decide) rfl,
        ceAlu_does h rfl (by decide) rfl, ceAlu_does h rfl (by decide) rfl,
        ceAlu_does h rfl (by decide) (boolWord_slt a b), ceAlu_does h rfl (by decide) (boolWord_ult a b),
        ceAlu_does h rfl (by decide) (signedMin_eq a b), ceAlu_does h rfl (by decide) (signedMax_eq a b),
        ceAlu_does h rfl (by decide) (mul_eq_ofNat a b), ceAlu_does h rfl (by decide) rfl, ceAlu_does h rfl (by decide) rfl,
        ceShift_does h rfl, ceShift_does h rfl, ceShift_does h rfl⟩
    · simp only [List.forall_mem_cons, List.not_mem_nil, false_imp_iff, implies_true, and_true]
      exact ⟨ceDivide_does h rfl hb (sdiv_eq_ofInt a b), ceDivide_does h rfl hb (udiv_eq_ofNat a b),
        ceDivide_does h rfl hb (by rw [sdiv_eq_ofInt]), ceDivide_does h rfl hb (by rw [udiv_eq_ofNat])⟩
  · intro e c s h a x z
    refine ⟨fun hb => ?_, fun ha hb => ?_, ?_, fun hl => does_of1 rfl h hl Nat.one_pos rfl⟩
    · simp only [List.forall_mem_cons, List.not_mem_nil, false_imp_iff, implies_true, and_true]
      exact ⟨ceDivide_traps h rfl hb, ceDivide_traps h rfl hb, ceDivide_traps h rfl hb, ceDivide_traps h rfl hb⟩
    · have hne : c.rb ≠ 0#32 := by rw [hb]; decide
      have ha : c.ra = 0x80000000#32 := ha
      exact ⟨ceDivide_does h rfl hne (by rw [ha, hb]; decide), ceDivide_does h rfl hne (by rw [ha, hb]; decide)⟩
    · simp only [List.forall_mem_cons, List.not_mem_nil, false_imp_iff, implies_true, and_true]
      exact ⟨ceImm_does h rfl rfl, ceImm_does h rfl rfl, ceImm_does h rfl rfl, ceImm_does h rfl rfl,
        ceImm_does h rfl (boolWord_slt a x), ceImm_does h rfl (boolWord_ult a x)⟩
end

section
/-! ## The floating-point group (R321 to R323) -/

open Sys2Proof Sys2Proof.Machine
namespace Sys2Proof.Machine

/-- R323: the trap of a task whose fp_trap bit is set, on a non-finite result of finite operands. -/
def FpTraps (c : CeCtx) (ops : List Word) (v : Word) : Prop :=
  fpTrap c.tt c.e c.k = true ∧ f32IsFin v = false ∧ ∀ o ∈ ops, f32IsFin o = true

/-- The bank with the flags of a result added to the sticky ones and the result in rd. -/
def fpBank (c : CeCtx) (v : Word × FFlags) : TaskSt := { c.t with flags := c.t.flags ||| v.2.word.toNat }.setReg (iRd c.w) v.1

theorem fpTraps_iff (c : CeCtx) (ops : List Word) (v : Word) :
    FpTraps c ops v ↔ (true && fpTrap c.tt c.e c.k && !f32IsFin v && ops.all f32IsFin) = true := by
  simp [FpTraps, and_assoc]

theorem ceFloatOut_trap {c : CeCtx} {ops : List Word} {v : Word × FFlags} (s : State) (ht : FpTraps c ops v.1) :
    ceFloatOut c ops true v s = .trap 0x07 := if_pos ((fpTraps_iff ..).1 ht)

theorem ceFloatOut_done {c : CeCtx} {ops : List Word} {v : Word × FFlags} (s : State) (ht : ¬ FpTraps c ops v.1) :
    ceFloatOut c ops true v s = c.next (fpBank c v) s := if_neg (mt (fpTraps_iff ..).2 ht)

section
variable {e : Nat} {c : CeCtx} {s : State} (h : CeExecutes e c s) {i : Instr}
include h

/-- An instruction with a binary32 result traps, or retires with the result and its flags. -/
theorem ceFloat_laws {legal : Word → Bool} {n : Nat} {act : CeCtx → State → CeOut} {ops : List Word} {v : Word × FFlags}
    (hx : exec i s = .next (ceStep e legal (fun _ => n) act s)) (hn : 0 < n) (ha : act c s = ceFloatOut c ops true v s)
    (hl : legal c.w = true) :
    (FpTraps c ops v.1 → CeTraps i c 0x07 s) ∧ (¬ FpTraps c ops v.1 → CeDoes i c (fpBank c v) n s) :=
  ⟨fun ht => traps_of hx h hl (ha.trans (ceFloatOut_trap s ht)),
    fun ht => does_of1 hx h hl hn (ha.trans (ceFloatOut_done s ht))⟩

theorem ceFcvt_does {func n : Nat} {f : Word → Word × FFlags} (hx : exec i s = .next (ceFloat1 func n false f e s)) (hn : 0 < n)
    (hl : isR1 0x01 func c.w = true) : CeDoes i c (fpBank c (f c.ra)) n s :=
  does_of1 hx h hl hn rfl

theorem ceFcmp_does {func : Nat} {f : Word → Word → Bool} (hx : exec i s = .next (ceFcmp func f e s))
    (hl : isR 0x01 func c.w = true) :
    CeDoes i c (fpBank c (if f c.ra c.rb = true then 1#32 else 0#32, f32OpFlags [c.ra, c.rb])) 3 s :=
  does_of1 hx h hl (by decide) rfl

end

end Sys2Proof.Machine

/-- Settles O14: each instruction by the rule of its kind of result. -/
theorem floatingPointGroup : Obligations.FloatingPointGroup := by
  intro e c s h d a b out trap
  simp only [List.forall_mem_cons, List.not_mem_nil, false_imp_iff, implies_true, and_true]
  exact ⟨⟨ceFloat_laws h rfl (by decide) rfl, ceFloat_laws h rfl (by decide) rfl, ceFloat_laws h rfl (by decide) rfl,
      ceFloat_laws h rfl (by decide) rfl, ceFloat_laws h rfl (by decide) rfl, ceFloat_laws h rfl (by decide) rfl,
      ceFloat_laws h rfl (by decide) rfl, ceFloat_laws h rfl (by decide) rfl⟩,
    ⟨ceFloat_laws h rfl (by decide) rfl, ceFloat_laws h rfl (by decide) rfl, ceFloat_laws h rfl (by decide) rfl⟩,
    ⟨ceFcvt_does h rfl (by decide), ceFcvt_does h rfl (by decide)⟩,
    ceFcmp_does h rfl, ceFcmp_does h rfl, ceFcmp_does h rfl⟩
end

section
/-! ## Control transfers (R327) -/

open Sys2Proof Sys2Proof.Machine
namespace Sys2Proof.Machine

/-- A transfer's target is an instruction of the engine (R327). -/
def TargetOk (c : CeCtx) (e : Nat) (target : Word) : Prop :=
  target.toNat % 4 = 0 ∧ textStart c.tt e ≤ target.toNat ∧ target.toNat < textEnd c.tt e

/-- A taken transfer goes to its target, or traps. -/
def GoesTo (i : Instr) (e : Nat) (c : CeCtx) (b : TaskSt) (target : Word) (s : State) : Prop :=
  (TargetOk c e target → ∃ t, exec i s = .next t ∧ CeRetired c b target.toNat 2 s t) ∧ (¬ TargetOk c e target → CeTraps i c 0x04 s)

theorem jump_of_ok {c : CeCtx} {target : Word} (b : TaskSt) (s : State) (ht : TargetOk c c.e target) :
    c.jump b target s = .done b target.toNat s := by
  obtain ⟨h4, hlo, hhi⟩ := ht
  exact if_neg (by omega)

theorem jump_of_not_ok {c : CeCtx} {target : Word} (b : TaskSt) (s : State) (ht : ¬ TargetOk c c.e target) :
    c.jump b target s = .trap 0x04 := by
  refine if_pos ?_
  unfold TargetOk at ht
  omega

theorem bne_eq_decide (a b : Word) : (a != b) = decide (a ≠ b) := by simp [bne, beq_eq_decide]

theorem not_slt_eq (a b : Word) : (!a.slt b) = decide (b.toInt ≤ a.toInt) := by simp [BitVec.slt, ← decide_not]

theorem not_ult_eq (a b : Word) : (!a.ult b) = decide (b.toNat ≤ a.toNat) := by simp [BitVec.ult, ← decide_not]

theorem sext16_shl (w : Word) : sext16 w <<< 2 = (BitVec.ofNat 16 (iImm w)).signExtend 32 * 4#32 := by
  rw [BitVec.shiftLeft_eq_mul_twoPow]
  rfl

theorem sext26_shl (w : Word) : sext26 w <<< 2 = (BitVec.ofNat 26 (field w 25 0)).signExtend 32 * 4#32 := by
  rw [BitVec.shiftLeft_eq_mul_twoPow]
  rfl

section
variable {e : Nat} {c : CeCtx} {s : State} (h : CeExecutes e c s) {i : Instr}
include h

theorem ceJump_goes {legal : Word → Bool} {cyc : CeCtx → Nat} {act : CeCtx → State → CeOut} {b : TaskSt} {target : Word}
    (hx : exec i s = .next (ceStep e legal cyc act s)) (hl : legal c.w = true) (hn : cyc c = 2)
    (ha : act c s = c.jump b target s) : GoesTo i e c b target s := by
  obtain ⟨rfl, hrun, -⟩ := ceCtx_inv h.1
  refine ⟨fun ht => ⟨_, hx, ?_⟩, fun ht => traps_of hx h hl (ha.trans (jump_of_not_ok b s ht))⟩
  rw [ceStep_done h hl (ha.trans (jump_of_ok b s ht)), hn]
  exact commit_retired (by decide) (run_range hrun)

/-- A branch goes on, or to its target. -/
theorem ceBranch_laws {op : Nat} {f : Word → Word → Bool} {taken : Bool} (hx : exec i s = .next (ceBranch op f e s))
    (hf : f (c.t.reg (iRd c.w)) (c.t.reg (iRa c.w)) = taken) (hl : iOp c.w = op) :
    (taken = false → CeDoes i c c.t 1 s) ∧ (taken = true →
      GoesTo i e c c.t (BitVec.ofNat 32 c.t.pc + (BitVec.ofNat 16 (iImm c.w)).signExtend 32 * 4#32) s) := by
  have hf : branchTaken f c = taken := hf
  have hl : isOp op c.w = true := beq_iff_eq.2 hl
  refine ⟨fun ht => ?_, fun ht => ceJump_goes h hx hl ?_ ?_⟩
  · rw [ht] at hf
    have hd := does_of (b := c.t) hx h hl (by simp [hf]) (by simp [hf, CeCtx.next])
    rwa [hf] at hd
  · simp [hf, ht]
  · rw [← sext16_shl]
    exact if_pos (hf.trans ht)

end

end Sys2Proof.Machine

/-- Settles O16: every transfer is the jump to its target once it is taken. -/
theorem controlTransfers : Obligations.ControlTransfers := by
  intro e c s h x y pc goes
  refine ⟨?_, fun hl => ceJump_goes h rfl (beq_iff_eq.2 hl) rfl ?_, fun hl => ceJump_goes h rfl (beq_iff_eq.2 hl) rfl ?_⟩
  · simp only [List.forall_mem_cons, List.not_mem_nil, false_imp_iff, implies_true, and_true]
    exact ⟨ceBranch_laws h rfl rfl, ceBranch_laws h rfl (bne_eq_decide x y), ceBranch_laws h rfl rfl,
      ceBranch_laws h rfl (not_slt_eq x y), ceBranch_laws h rfl rfl, ceBranch_laws h rfl (not_ult_eq x y)⟩
  · rw [← sext26_shl, ← BitVec.ofNat_add]
  · rw [← BitVec.ofNat_add]
    rfl
end

section
/-! ## Data memory: loads, stores, literals, timers and edges (R294, R324 to R326, R331, R332) -/

open Sys2Proof Sys2Proof.Machine
namespace Sys2Proof.Machine

theorem length_smGetList {α : Type} (d : Nat → α) (m : List (Nat × α)) (k n : Nat) : (smGetList d m k n).length = n := by
  induction n generalizing k with
  | zero => rfl
  | succ n ih => rw [smGetList, List.length_cons, ih]

theorem length_dataRead (s : State) (e a n : Nat) : (dataRead s e a n).length = n := length_smGetList ..

theorem dataMend_of_clean {e a n : Nat} {s : State} (h : memClean s (ceBase e + 0x20000 + a) n = true) : dataMend e a n s = s :=
  memRead_clean h

theorem dataWrite_len (e a : Nat) (bs : List Byte) (s : State) :
    (dataWrite e a bs s).ce.engines.length = s.ce.engines.length := ceSet_len s e _

/-! ### The address of an access -/

/-- The address of a load or store. -/
def dataAddr (c : CeCtx) : Nat := (c.ra + (BitVec.ofNat 16 (iImm c.w)).signExtend 32).toNat

/-- Through w31 an access of `n` bytes stays in the task's stack (R325). -/
def StackOk (c : CeCtx) (n : Nat) : Prop :=
  iRa c.w = 31 → stackBase c.tt c.e c.k ≤ dataAddr c ∧ dataAddr c + n ≤ stackTop c.tt c.r

theorem offStack_iff (c : CeCtx) (n : Nat) : (iRa c.w = 31 ∧
    (!decide (stackBase c.tt c.e c.k ≤ dataAddr c ∧ dataAddr c + n ≤ stackTop c.tt c.r)) = true) ↔ ¬ StackOk c n := by
  rw [StackOk, Classical.not_imp, Bool.not_eq_true', decide_eq_false_iff_not]

section
variable {c : CeCtx} {n : Nat} {s : State}

theorem ceAddr_outside (ho : 0x20000 < dataAddr c + n) : ceAddr c n s = .error (.trap 0x03) := if_pos ho

theorem ceAddr_offStack (hi : dataAddr c + n ≤ 0x20000) (hs : ¬ StackOk c n) : ceAddr c n s = .error (.trap 0x05) :=
  (if_neg (not_lt.2 hi)).trans (if_pos ((offStack_iff c n).2 hs))

theorem ceAddr_clean (hi : dataAddr c + n ≤ 0x20000) (hs : StackOk c n)
    (hm : memClean s (ceBase c.e + 0x20000 + dataAddr c) n = true) : ceAddr c n s = .ok (dataAddr c) :=
  (if_neg (not_lt.2 hi)).trans ((if_neg fun hb => (offStack_iff c n).1 hb hs).trans
    (if_neg (ne_true_of_eq_false (memBad_clean hm))))

/-- A cell of `n` bytes lies at a multiple of 8 within data memory (R331, R332). -/
def CellOk (c : CeCtx) (n : Nat) : Prop := c.ra.toNat % 8 = 0 ∧ c.ra.toNat + n ≤ 0x20000

theorem ceCell_bad (hc : ¬ CellOk c n) : ceCell c n s = .error (.trap 0x0A) := by
  refine if_pos ?_
  unfold CellOk at hc
  omega

theorem ceCell_clean (hc : CellOk c n) (hm : memClean s (ceBase c.e + 0x20000 + c.ra.toNat) n = true) :
    ceCell c n s = .ok c.ra.toNat := by
  obtain ⟨h8, hi⟩ := hc
  exact (if_neg (by omega)).trans (if_neg (ne_true_of_eq_false (memBad_clean hm)))

end

/-! ### Accesses -/

/-- The two traps of an access of `n` bytes. -/
def AccessTraps (i : Instr) (c : CeCtx) (n : Nat) (s : State) : Prop :=
  (0x20000 < dataAddr c + n → CeTraps i c 0x03 s) ∧ (dataAddr c + n ≤ 0x20000 → ¬ StackOk c n → CeTraps i c 0x05 s)

/-- An instruction on a cell of `n` bytes traps where it is no cell, or retires with the cell written. -/
def CellLaws (i : Instr) (e : Nat) (c : CeCtx) (n cyc : Nat) (rd : Word) (bs : List Byte) (s : State) : Prop :=
  (¬ CellOk c n → CeTraps i c 0x0A s) ∧
  (CellOk c n → memClean s (ceBase e + 0x20000 + c.ra.toNat) n = true →
    CeWrites i c (c.t.setReg (iRd c.w) rd) cyc s (dataWrite e c.ra.toNat bs s))

section
variable {e : Nat} {c : CeCtx} {s : State} (h : CeExecutes e c s) {i : Instr} {legal : Word → Bool} {n : Nat}
include h

theorem access_traps {cyc : CeCtx → Nat} {act : CeCtx → State → CeOut} (hx : exec i s = .next (ceStep e legal cyc act s))
    (hl : legal c.w = true) (ha : ∀ f, ceAddr c n s = .error f → act c s = ceFaultOut f) : AccessTraps i c n s := by
  obtain ⟨rfl, -⟩ := ceCtx_inv h.1
  exact ⟨fun ho => traps_of hx h hl (ha _ (ceAddr_outside ho)),
    fun hi hs => traps_of hx h hl (ha _ (ceAddr_offStack hi hs))⟩

theorem ceLoad_traps {f : CeCtx → List Byte → TaskSt} (hx : exec i s = .next (ceLoad legal n f e s)) (hl : legal c.w = true) :
    AccessTraps i c n s := access_traps h hx hl fun f hf => by rw [hf]

theorem ceStore_traps {f : CeCtx → List Byte} (hx : exec i s = .next (ceStore legal n f e s)) (hl : legal c.w = true) :
    AccessTraps i c n s := access_traps h hx hl fun f hf => by rw [hf]

theorem ceLoad_laws {f : CeCtx → List Byte → TaskSt} {b : TaskSt} (hx : exec i s = .next (ceLoad legal n f e s))
    (hb : f c (dataRead s e (dataAddr c) n) = b) (hl : legal c.w = true) :
    (0x20000 < dataAddr c + n → CeTraps i c 0x03 s) ∧ (dataAddr c + n ≤ 0x20000 → ¬ StackOk c n → CeTraps i c 0x05 s) ∧
    (dataAddr c + n ≤ 0x20000 → StackOk c n → memClean s (ceBase e + 0x20000 + dataAddr c) n = true → CeDoes i c b 2 s) := by
  obtain ⟨h3, h5⟩ := ceLoad_traps h hx hl
  obtain ⟨rfl, -⟩ := ceCtx_inv h.1
  refine ⟨h3, h5, fun hi hs hm => does_of1 hx h hl (by decide) ?_⟩
  simp only [ceAddr_clean hi hs hm, dataMend_of_clean hm, hb]
  rfl

theorem ceStore_laws {f : CeCtx → List Byte} {bs : List Byte} (hx : exec i s = .next (ceStore legal n f e s)) (hb : f c = bs)
    (hl : legal c.w = true) :
    (0x20000 < dataAddr c + n → CeTraps i c 0x03 s) ∧ (dataAddr c + n ≤ 0x20000 → ¬ StackOk c n → CeTraps i c 0x05 s) ∧
    (dataAddr c + n ≤ 0x20000 → StackOk c n → memClean s (ceBase e + 0x20000 + dataAddr c) n = true →
      CeWrites i c c.t 1 s (dataWrite e (dataAddr c) bs s)) := by
  obtain ⟨h3, h5⟩ := ceStore_traps h hx hl
  obtain ⟨rfl, -⟩ := ceCtx_inv h.1
  refine ⟨h3, h5, fun hi hs hm => writes_of1 hx h hl (by decide) (dataWrite_len ..) ?_⟩
  simp only [ceAddr_clean hi hs hm, dataMend_of_clean hm, hb]
  rfl

/-- R326: a literal of 4 or 8 bytes. -/
theorem ceLiteral_laws {b : TaskSt} (hx : exec i s = .next (ceLiteral legal n e s)) (hl : legal c.w = true)
    (hb : (if n = 4 then c.t.setReg (iRd c.w) (BitVec.ofNat 32 (leNat (memBytes (ceGet s e).code (litStart c.tt e + n * iImm c.w) n)))
      else c.t.setPair (iRd c.w) (w32 (memBytes (ceGet s e).code (litStart c.tt e + n * iImm c.w) n) 0)
        (w32 (memBytes (ceGet s e).code (litStart c.tt e + n * iImm c.w) n) 4)) = b) :
    (litEnd c.tt e < litStart c.tt e + n * iImm c.w + n → CeTraps i c 0x09 s) ∧
    (litStart c.tt e + n * iImm c.w + n ≤ litEnd c.tt e → memClean s (ceBase e + (litStart c.tt e + n * iImm c.w)) n = true →
      CeDoes i c b 2 s) := by
  refine ⟨fun ho => traps_of hx h hl (if_pos ho), fun hi hm => does_of1 hx h hl (by decide) ?_⟩
  have hread : ceMemRead (ceBase e + (litStart c.tt e + n * iImm c.w)) n s = s := memRead_clean hm
  refine (if_neg (not_lt.2 hi)).trans ((if_neg (ne_true_of_eq_false (memBad_clean hm))).trans ?_)
  rw [hread, ← hb]
  exact (apply_ite (c.next · s) _ _ _).symm

theorem cell_laws {cyc : Nat} {act : CeCtx → State → CeOut} {rd : Word} {bs : List Byte}
    (hx : exec i s = .next (ceStep e legal (fun _ => cyc) act s)) (hl : legal c.w = true) (hn : 0 < cyc)
    (hbad : ∀ f, ceCell c n s = .error f → act c s = ceFaultOut f)
    (hok : ceCell c n s = .ok c.ra.toNat →
      act c s = c.next (c.t.setReg (iRd c.w) rd) (dataWrite e c.ra.toNat bs (dataMend e c.ra.toNat n s))) :
    CellLaws i e c n cyc rd bs s := by
  obtain ⟨rfl, -⟩ := ceCtx_inv h.1
  refine ⟨fun hc => traps_of hx h hl (hbad _ (ceCell_bad hc)),
    fun hc hm => writes_of1 hx h hl hn (dataWrite_len ..) ((hok (ceCell_clean hc hm)).trans ?_)⟩
  rw [dataMend_of_clean hm]
  rfl

/-- R294, R331: a timer instruction leaves the cell `y` that its rule makes of the present one. -/
theorem ceTimer_laws {func : Nat} {f : Bool → Nat → TimerCell → TimerCell} {y : TimerCell}
    (hx : exec i s = .next (ceTimer func f e s))
    (hy : { f (decide (c.rb ≠ 0#32)) ((c.t.relTick % 2 ^ 32 + 2 ^ 32 - (TimerCell.ofBytes (dataRead s e c.ra.toNat 16)).stamp) % 2 ^ 32)
      (TimerCell.ofBytes (dataRead s e c.ra.toNat 16)) with stamp := c.t.relTick % 2 ^ 32 } = y)
    (hl : isR 0x29 func c.w = true) : CellLaws i e c 16 8 (boolWord y.out) y.bytes s := by
  refine cell_laws h hx hl (by decide) (fun f hf => by rw [hf]) fun hok => ?_
  rw [hok, ← hy, bne_eq_decide]

theorem ceTrst_laws (hl : isR1 0x29 0x03 c.w = true) : CellLaws (.ceTrst e) e c 16 4 0#32
    (TimerCell.bytes ⟨(TimerCell.ofBytes (dataRead s e c.ra.toNat 16)).preset, 0, c.t.relTick % 2 ^ 32, false, false⟩) s :=
  cell_laws h rfl hl (by decide) (fun f hf => by rw [hf]) fun hok => by rw [hok]

/-- R332: an edge instruction reports by its rule where the cell has been evaluated. -/
theorem ceEdge_laws {func : Nat} {f : Bool → Bool → Bool} {rep : Bool} (hx : exec i s = .next (ceEdge func f e s))
    (hr : ((leNat (dataRead s e c.ra.toNat 8)).testBit 1 &&
      f ((leNat (dataRead s e c.ra.toNat 8)).testBit 0) (decide (c.rb ≠ 0#32))) = rep)
    (hl : isR 0x29 func c.w = true) :
    CellLaws i e c 8 3 (boolWord rep) (leBytes 8 (if decide (c.rb ≠ 0#32) = true then 3 else 2)) s := by
  refine cell_laws h hx hl (by decide) (fun f hf => by rw [hf]) fun hok => ?_
  rw [hok, ← hr, ← bne_eq_decide]
  cases c.rb != 0#32 <;> rfl

end

/-! ### Timer cells (R294, R331) -/

theorem timerOn_eq (inp : Bool) (dt : Nat) (m : TimerCell) (now : Nat) : { timerOn inp dt m with stamp := now } =
    (let el := if inp = true ∧ m.last = true then min (m.elapsed + dt) m.preset else 0; ⟨m.preset, el, now, inp, inp && decide (m.preset ≤ el)⟩ : TimerCell) := by
  simp [timerOn]

theorem timerOff_eq (inp : Bool) (dt : Nat) (m : TimerCell) (now : Nat) : { timerOff inp dt m with stamp := now } =
    (let el := if inp = false ∧ m.last = false then min (m.elapsed + dt) m.preset else 0; ⟨m.preset, el, now, inp, inp || decide (el < m.preset)⟩ : TimerCell) := by
  simp [timerOff]

theorem timerPulse_starts {inp : Bool} {m : TimerCell} (dt now : Nat) (hi : inp = true) (hl : m.last = false) (ho : m.out = false) :
    { timerPulse inp dt m with stamp := now } = (⟨m.preset, 0, now, inp, true⟩ : TimerCell) := by
  simp [timerPulse, hi, hl, ho]

theorem timerPulse_runs {m : TimerCell} (inp : Bool) (dt now : Nat) (ho : m.out = true) :
    { timerPulse inp dt m with stamp := now } = (⟨m.preset, min (m.elapsed + dt) m.preset, now, inp,
      decide (min (m.elapsed + dt) m.preset < m.preset)⟩ : TimerCell) := by
  simp [timerPulse, ho]

theorem timerPulse_rests {inp : Bool} {m : TimerCell} (dt now : Nat) (ho : m.out = false) (hi : inp = false ∨ m.last = true) :
    { timerPulse inp dt m with stamp := now } = (⟨m.preset, m.elapsed, now, inp, false⟩ : TimerCell) := by
  rcases hi with hi | hl
  · simp [timerPulse, ho, hi]
  · simp [timerPulse, ho, hl]

end Sys2Proof.Machine

/-- Settles O15: each access by the rule of its kind, the value it loads read off its bytes. -/
theorem loadsAndStores : Obligations.LoadsAndStores := by
  constructor
  · intro e c s h a stackOk bytes d
    have hop {op : Nat} (hl : iOp c.w = op) : isOp op c.w = true := beq_iff_eq.2 hl
    have hpair {op : Nat} (hl : iOp c.w = op) (hd : d % 2 = 0) : isOpPair op c.w = true := by
      simp only [isOpPair, hl, beq_self_eq_true, Bool.true_and]
      exact beq_iff_eq.2 hd
    simp only [List.forall_mem_cons, List.not_mem_nil, false_imp_iff, implies_true, and_true]
    refine ⟨⟨fun hl _ => ceLoad_laws h rfl ?_ (hop hl), fun hl _ => ceLoad_laws h rfl rfl (hop hl),
      fun hl _ => ceLoad_laws h rfl ?_ (hop hl), fun hl _ => ceLoad_laws h rfl rfl (hop hl),
      fun hl _ => ceLoad_laws h rfl rfl (hop hl), fun hl hd => ceLoad_laws h rfl rfl (hpair hl (hd trivial))⟩,
      fun hl _ => ceStore_laws h rfl rfl (hop hl), fun hl _ => ceStore_laws h rfl rfl (hop hl),
      fun hl _ => ceStore_laws h rfl rfl (hop hl), fun hl hd => ceStore_laws h rfl rfl (hpair hl (hd trivial))⟩
    · simp [loadExt, length_dataRead]
      rfl
    · simp [loadExt, length_dataRead]
      rfl
  · intro e c s h ha at4 at8 code
    refine ⟨fun hl => ceLiteral_laws h rfl (by simp [isOp0, hl, ha]) rfl,
      fun hl hd => ceLiteral_laws h rfl (by simp [isOp0, isOpPair, hl, ha, hd]) rfl⟩

/-- Settles O18: each instruction by the rule of its cell, the cell it leaves by the timer's own rule. -/
theorem timerAndEdgeInstructions : Obligations.TimerAndEdgeInstructions := by
  constructor
  · intro e c s h a m now dt inp ok grown does
    refine ⟨ceTimer_laws h rfl (timerOn_eq inp dt m now), ceTimer_laws h rfl (timerOff_eq inp dt m now), fun hl => ?_, ceTrst_laws h⟩
    exact ⟨fun hi hm ho => ceTimer_laws h rfl (timerPulse_starts dt now hi hm ho) hl,
      fun ho => ceTimer_laws h rfl (timerPulse_runs inp dt now ho) hl,
      fun ho hi => ceTimer_laws h rfl (timerPulse_rests dt now ho hi) hl⟩
  · intro e c s h a v seen last inp ok
    simp only [List.forall_mem_cons, List.not_mem_nil, false_imp_iff, implies_true, and_true]
    exact ⟨ceEdge_laws h rfl (by rw [Bool.and_assoc]), ceEdge_laws h rfl (by rw [Bool.and_assoc]), ceEdge_laws h rfl rfl⟩
end


section
/-! ## Where each command completes with its own effect

Every lemma names one command and what it answers when its condition holds; where only a part of the next state is named, the
frame of the functions that run after it says the rest. -/

open Sys2Proof Sys2Proof.Machine
namespace Sys2Proof.Machine

/-! ### Every instruction of an engine completes (R335 to R338)

A memory error under an access takes trap 0x0C in a state whose memory counters have moved; the bank that this trap leaves
stands there as a commit of it in no cycles. -/

theorem ceSet_ceSet (e : Nat) (x y : EngineSt) (s : State) : ceSet e x (ceSet e y s) = ceSet e x s := by
  simp [ceSet, setNth, List.set_set]

theorem ceSet_self {e : Nat} {s : State} (he : e < s.ce.engines.length) : ceSet e (ceGet s e) s = s := by
  have hself : s.ce.engines.set e (ceGet s e) = s.ce.engines := by
    rw [ceGet, nth, List.getElem?_eq_getElem he, Option.getD_some, List.set_getElem_self]
  rw [ceSet, setNth, hself]

/-- A state whose engine has just stored the bank `b` is a commit of `b`. -/
theorem eq_ceCommitBank {c : CeCtx} {x : EngineSt} {b : TaskSt} {s : State} (he : c.e < s.ce.engines.length)
    (hx : ceGet s c.e = x.setTask c.k b) (hend : x.atEnd = none) (hb : b.cycles = c.t.cycles) :
    s = ceCommitBank c b b.pc 0 (ceSet c.e x s) := by
  have hbank : ({ b with pc := b.pc, cycles := c.t.cycles + 0 } : TaskSt) = b := by rw [Nat.add_zero, ← hb]
  have hend' : ({ x.setTask c.k b with hwCycles := (x.setTask c.k b).hwCycles + 0, atEnd := none } : EngineSt) = x.setTask c.k b := by
    rw [← hend]
    rfl
  unfold ceCommitBank
  simp only [hbank, taskSet, ceGet_ceSet_eq _ _ _ he, ceSet_ceSet]
  rw [hend', ← hx, ceSet_self he]

theorem ceTrap_ce_eq {e k pc : Nat} (code : Nat) {r : TaskRec} {s : State} (hr : (theTt s).task e k = some r) :
    (ceTrap e k code pc s).ce = (trapActed r (trapRecorded e k code pc s)).ce := by
  by_cases hc : code = 0x0C
  · obtain ⟨rfl, rfl⟩ := task_rec hr
    unfold ceTrap
    rw [hr]
    simp only [if_pos hc, fatal_ce]
    rw [apply_ite State.ce, fatal_ce, ite_self]
    rfl
  · exact ceTrap_ce hr hc

/-- R292, R293: what is done with the task stores its bank, with the cycles as they were. -/
theorem trapActed_stores (r : TaskRec) (s : State) : ∃ (x : EngineSt) (b : TaskSt), x.atEnd = (ceGet s r.engine).atEnd ∧
    b.cycles = (taskGet s r.engine r.task).cycles ∧ (trapActed r s).ce = (ceSet r.engine (x.setTask r.task b) s).ce := by
  unfold trapActed
  split
  · refine ⟨_, _, ?_, ?_, (taskStop_outside r s).2⟩ <;> rfl
  · unfold releaseEnds
    refine ⟨_, _, ?_, ?_, rfl⟩
    · rfl
    · rw [apply_ite TaskSt.cycles]
      exact ite_self _

theorem ceTrap_commits {c : CeCtx} {code pc : Nat} {s : State} (hrun : (ceGet s c.e).run = some c.k)
    (hr : (theTt s).task c.e c.k = some c.r) (ht : c.t = taskGet s c.e c.k) :
    ∃ b pc' n u, ceTrap c.e c.k code pc s = ceCommitBank c b pc' n u := by
  have he := run_range hrun
  obtain ⟨hre, hrk⟩ := task_rec hr
  have hrec := trapRecorded_ce c.e c.k code pc s
  obtain ⟨x, b, hend, hcyc, hce⟩ := trapActed_stores c.r (trapRecorded c.e c.k code pc s)
  rw [hre] at hend
  rw [hre, hrk] at hcyc hce
  have hlen : c.e < (trapRecorded c.e c.k code pc s).ce.engines.length := by
    rw [hrec]
    simpa using he
  have hce := (ceTrap_ce_eq (pc := pc) code hr).trans hce
  refine ⟨b, b.pc, 0, _, eq_ceCommitBank (x := x) ?_ ?_ ?_ ?_⟩
  · rw [hce]
    simpa using hlen
  · rw [ceGet_congr hce, ceGet_ceSet_eq _ _ _ hlen]
  · rw [hend, ceGet_congr hrec, ceGet_ceSet_eq _ _ _ he]
  · rw [hcyc, taskGet_congr hrec, taskGet_ceSet he (x := { ceGet s c.e with atEnd := none }) rfl, ht]

theorem ceMemRead_worked (a n : Nat) (s : State) : Worked s (ceMemRead a n s) := memRead_worked _ (fun _ => .refl) a n s

theorem Worked.ce {s t : State} (h : Worked s t) : t.ce = s.ce := by rw [h.rest]

/-- An instruction retires or takes a trap. -/
def Completes (i : Instr) (e : Nat) (c : CeCtx) (s : State) : Prop :=
  (∃ b pc n u, exec i s = .next (ceCommitBank c b pc n u)) ∨ ∃ code, exec i s = .next (ceTrap e c.k code c.t.pc s)

theorem ceStep_memTrap {e a n : Nat} {c : CeCtx} {s : State} {legal : Word → Bool} {cyc : CeCtx → Nat}
    {act : CeCtx → State → CeOut} (h : CeExecutes e c s) (hl : legal c.w = true) (ha : act c s = .memTrap a n) :
    ceStep e legal cyc act s = ceTrap e c.k 0x0C c.t.pc (ceMemRead a n s) := by
  obtain ⟨h1, h2, h3, h4⟩ := h
  have hread : ceMemRead (ceBase e + c.t.pc) 4 s = s := memRead_clean h4
  simp [ceStep, h1, h2, h3, hread, memBad_clean h4, hl, ha]

/-- The row of an instruction that engine `e` steps where `legal` accepts the word. -/
def StepRow (e : Nat) (i : Instr) (legal : Word → Bool) (s : State) : Prop :=
  ∃ cyc act, exec i s = .next (ceStep e legal cyc act s)

theorem StepRow.completes {i : Instr} {e : Nat} {c : CeCtx} {s : State} {legal : Word → Bool} (hx : StepRow e i legal s)
    (h : CeExecutes e c s) (hl : legal c.w = true) : Completes i e c s := by
  obtain ⟨cyc, act, hx⟩ := hx
  obtain ⟨rfl, hrun, -, hr, ht, -⟩ := ceCtx_inv h.1
  cases ha : act c s with
  | trap code => exact .inr ⟨code, by rw [hx, ceStep_trap h hl ha]⟩
  | done b pc u => exact .inl ⟨b, pc, cyc c, u, by rw [hx, ceStep_done h hl ha]⟩
  | memTrap a n =>
    have hread := ceMemRead_worked a n s
    obtain ⟨b, pc, m, u, hcommit⟩ := ceTrap_commits (s := ceMemRead a n s) (code := 0x0C) (pc := c.t.pc) (by rwa [ceGet_congr hread.ce])
      (by rwa [theTt_congr hread.dev]) (by rw [ht, taskGet_congr hread.ce])
    exact .inl ⟨b, pc, m, u, by rw [hx, ceStep_memTrap h hl ha, hcommit]⟩

theorem execCeEnd_releases {e : Nat} {c : CeCtx} {s : State} (h : CeExecutes e c s) (hs : isS 0x1 c.w = true)
    (hl : legalWord c.w = true) (hb : endOverBudget c s = false) : exec (.ceEnd e) s = .next (endRelease c s) := by
  obtain ⟨hctx, htext, hbudget, hclean⟩ := h
  obtain ⟨rfl, -⟩ := ceCtx_inv hctx
  have hread : ceMemRead (ceBase c.e + c.t.pc) 4 s = s := memRead_clean hclean
  change execCeEnd c.e s = _
  simp [execCeEnd, hctx, htext, hbudget, hs, hl, hb, hread, memBad_clean hclean]

theorem illegalInstruction_traps {e : Nat} {c : CeCtx} {s : State} (h : CeExecutes e c s) (hl : legalWord c.w = false) :
    exec (.illegalInstruction e) s = .next (ceTrap e c.k 0x01 c.t.pc s) := by
  obtain ⟨rfl, -⟩ := ceCtx_inv h.1
  exact traps_of (legal := fun w => !legalWord w) rfl h (by rw [hl]; rfl) rfl

/-! ### Commands with a condition -/

section
variable {s : State}

theorem next_if_pos {c : Prop} [Decidable c] (t u : State) (h : c) :
    (.next (if c then t else u) : Result) = .next t := by rw [if_pos h]

theorem next_if_neg {c : Prop} [Decidable c] (t u : State) (h : ¬ c) :
    (.next (if c then t else u) : Result) = .next u := by rw [if_neg h]

theorem execFatalCauseSafe_idle (hd : s.dev.fatalDue = true) (hm : s.dev.mode = .run) (hc : (enterSafe s).dev.cmd = none) :
    exec .fatalCauseSafe s = .next (enterSafe s) := by
  refine (if_pos ⟨hd, hm⟩).trans ?_
  simp only [hc]

/-- What the loss of a PLL's lock does. -/
def pllLost : Pll → State → State
  | .sys, s => fatal 10 0 { s with pwr := { s.pwr with sysLock := false } }
  | .slv, s => fatal 10 0 { s with pwr := { s.pwr with slvLock := false } }
  | .ser, s => syncDown (cause Reg.PWR_CAUSE 4 { s with pwr := { s.pwr with serLock := false } })

theorem execPllUnlock_runs {pll : Pll} (h : pllRuns pll s = true) : exec (.pllUnlock pll) s = .next (pllLost pll s) := by
  refine (if_neg (by rw [h]; nofun)).trans ?_
  cases pll with
  | sys => rfl
  | slv => rfl
  | ser => rfl

theorem execPfwRecoverTimeout_boots (hs : s.pwr.saved = true) (hg : s.pwr.powerGood = true) (hm : s.dev.mode ≠ .boot) :
    exec .pfwRecoverTimeout s = .next (enterBoot .full false true s) := (if_pos ⟨hs, hg⟩).trans (if_neg hm)

theorem execLingerExpire_ends {d : Nat} (hs : domStays s d = false) (hb : domBusy d s = false) (hl : domLingers d s = false) :
    exec (.lingerExpire d) s = .next (domRequest d .work false (domRequest d .scheduled false s)) :=
  if_neg (by simp [hs, hb, hl])

theorem execHostCsNEarlyRise_fetched {k : Nat} (hr : s.hif.inResponse = true) (hl : s.hif.latched = []) :
    exec (.hostCsNEarlyRise (some k)) s =
      .next (incFld Reg.HIF_CNT2 31 16 { s with hif := { s.hif with inResponse := false, latched := [] } }) := by
  refine (if_pos hr).trans ?_
  rw [hl]
  rfl

theorem execPsLockoutExpire_write {n : Nat} (hn : n < 4) (hw : (psPart s n).writeLock = 0) :
    exec (.psLockoutExpire n true) s = .next (setPart n { psPart s n with writeLock := 0 } s) := if_pos ⟨hw, hn⟩

theorem execPsLockoutExpire_read {n : Nat} (hn : n < 4) (hr : (psPart s n).readLock = 0) :
    exec (.psLockoutExpire n false) s = .next (setPart n { psPart s n with readLock := 0 } s) := if_pos ⟨hr, hn⟩

/-- A page takes no burst in BOOT. -/
theorem mode_of_psReason {n : Nat} {wr : Bool} (h : psReason n wr s = 0) : s.dev.mode ≠ .boot := by
  intro hm
  simp [psReason, psStates, hwStates, hm] at h

theorem execPsWriteBurst_takes {a n : Nat} {data : List Byte} (hd : data ≠ []) (hp : s.ps.programming = false)
    (hs : s.pwr.saving = false) (ha : psPartOf a = some n) (hr : psReason n true s = 0) :
    exec (.psWriteBurst a data) s = .next (psBurst a data s) := by
  change execPsWriteBurst a data s = _
  simp [execPsWriteBurst, ha, hd, hp, hs, hr, mode_of_psReason hr]

theorem execTotalsSave_waits (hm : s.dev.mode ≠ .hold) :
    exec .totalsSave s = .next { s with mtr := { s.mtr with saveDue := some 1 } } := next_if_neg _ _ fun h => hm h.1

theorem execSlvSelftestDone_ends {pass : Bool} (hon : domOn s 5 = true) (ht : s.slv.selftest = 1) :
    exec (.slvSelftestDone pass) s = .next (if pass then
      { selftestArea s with slv := { (selftestArea s).slv with selftest := 2 } }
    else cause Reg.SLV_CAUSE 6 { selftestArea s with slv := { (selftestArea s).slv with selftest := 3 } }) := by
  refine (next_if_pos _ _ ⟨hon, ht⟩).trans ?_
  cases pass with
  | false => simp only [Bool.false_eq_true, if_false]
  | true => simp only [if_true]

theorem execWaveformWindow_reads {wins : List WaveIn} {b : Bool} (h15 : domOn s 15 = true) (h16 : domOn s 16 = true)
    (hm : hwStates s.dev.mode = true) (ha : s.red.aligning = false) :
    exec (.waveformWindow wins b) s = .next (forMeters (elecOne wins b) (forL wins s waveWords)) := by
  change execWaveformWindow wins b s = _
  simp [execWaveformWindow, h15, h16, hm, ha]

theorem execSyncResendTimeout_sends {n : Nat} {x : SyncTx} (h17 : domOn s 17 = true) (hs : s.red.sync = true)
    (hx : s.red.tx.find? (fun x => x.seq == n) = some x) : exec (.syncResendTimeout n) s =
      .next (incFld Reg.RED_LINK 15 0 (setRed { s.red with sent := some (x.seq, x.msg) } s)) := by
  change execSyncResendTimeout n s = _
  simp only [execSyncResendTimeout, hx]
  exact if_pos ⟨h17, hs⟩

theorem execClaimSample_enters (hm : s.dev.mode = .ready) (hc : s.red.claiming = true) (hp : (s.red.actIn && !preferred s) = false) :
    exec .claimSample s = .next (enterRun true true s) :=
  (if_pos ⟨hm, hc⟩).trans (if_neg (by rw [← Bool.and_eq_true, hp]; nofun))

theorem execInterlockConflict_fatal (hp : paired s = true) (ho : s.red.actOut = true) (hi : s.red.actIn = true)
    (hc : s.red.claiming = false) (hk : s.red.handKeep = false) (hm : s.dev.mode = .run) (hf : preferred s = true) :
    exec .interlockConflict s = .next (fatal 11 0 s) := by
  change execInterlockConflict s = _
  simp [execInterlockConflict, hp, ho, hi, hc, hk, hm, hf]

end

/-! ### Writes of the host port and mailbox commands -/

theorem wordRow_performs {a : Nat} {w : Word} {s : State} (hopen : hostOpen s = true) (hserved : served s a 4 = true)
    (hst : stages (hostTouch (neededDomains a 4) s) a = false)
    (hwr : writeReason a w (hostTouch (neededDomains a 4) s) = 0) :
    wordRow a w s = .next (performWord a w (hostTouch (neededDomains a 4) s)) := by
  rw [wordRow, if_neg (by simp [hopen]), if_pos hserved, hostWord_of_not_stages a w _ hst, if_pos hwr]

theorem execDomainForceOn_row {k : Nat} (b : Bool) (s : State) (hk : k < 17) :
    exec (.domainForceOn (k + 1) b) s = wordRow (Reg.PWR_DOM + 4 * k) (BitVec.ofNat 32 (16 * b2n b)) s :=
  if_pos (by simp [domOk]; omega)

section
variable {i : Instr} {code : Nat} {ok : State → Bool} {f : List Byte → State → State} {s : State}

theorem mbDo_runs (hx : exec i s = mbDo code ok f s) (hst : s.hif.mbState = 1) (hw : s.hif.mbWait = false) (hc : mbCode s = code)
    (hok : ok s = true) (_ : s.ps.programming = false) (_ : keyBusy s = false) : exec i s = .next (f (mbReq s) s) := by
  simp [hx, mbDo, mbIs, hst, hw, hc, hok]

theorem mbDo_durably_runs (hx : exec i s = mbDo code ok (fun r => unlessPage (durably (f r))) s) (hst : s.hif.mbState = 1)
    (hw : s.hif.mbWait = false) (hc : mbCode s = code) (hok : ok s = true) (hp : s.ps.programming = false)
    (hk : keyBusy s = false) : exec i s = .next (durably (f (mbReq s)) s) := by
  rw [mbDo_runs hx hst hw hc hok hp hk, unlessPage, hp, if_neg Bool.false_ne_true]

theorem keyDo_runs (hx : exec i s = keyDo code ok f s) (hst : s.hif.mbState = 1)
    (hw : s.hif.mbWait = false) (hc : mbCode s = code) (hok : ok s = true) (hp : s.ps.programming = false)
    (hk : keyBusy s = false) : exec i s = .next (f (mbReq s) s) := by
  rw [mbDo_runs hx hst hw hc hok hp hk, hk, if_neg Bool.false_ne_true]

end

/-! ### Supplies and resets -/

section
variable {s : State}

theorem bootDo_supplies (s : State) : (bootDo s).pwr.powerGood = s.pwr.powerGood ∧ (bootDo s).pwr.rstLow = s.pwr.rstLow := by
  unfold bootDo
  split
  · next k _ =>
    split
    · obtain h | ⟨x, h⟩ := bootRun_ctl k { s with dev := { s.dev with bootPending := none } }
      all_goals exact ⟨congrArg Ctl.good h, congrArg Ctl.rst h⟩
    · exact ⟨rfl, rfl⟩
  · exact ⟨rfl, rfl⟩

theorem execPowerGood_good (bist : BistReport) (b : Bool) (hg : s.pwr.powerGood = false) (hv : s.pwr.vao = true) :
    ∃ t, exec (.powerGood bist b) s = .next t ∧ t.pwr.powerGood = true :=
  ⟨_, if_neg (by simp [hg, hv]), (bootDo_supplies _).1⟩

theorem execRstNAssert_boot {n : Nat} (hn : 10000 ≤ n) (hl : s.pwr.rstLow = false) (hh : s.pwr.rstHeld = false)
    (hs : s.pwr.saving = false) : ∃ t, exec (.rstNAssert n) s = .next t ∧ t.pwr.rstLow = true ∧ t.dev.mode = .boot := by
  have hseen : rstSeen n s = (true, s) := (if_neg (by omega)).trans (if_pos hn)
  refine ⟨rstAct true (setReg Reg.PWR_RSTTIME (BitVec.ofNat 32 s.mgt.cal.seconds) s), ?_, rfl, mode_of_ctl (rstAct_ctl ..)⟩
  change execRstNAssert n s = _
  simp [execRstNAssert, hseen, hl, hh, hs]

theorem execRstNRelease_released (bist : BistReport) (hh : s.pwr.rstHeld = false) (hl : s.pwr.rstLow = true) :
    ∃ t, exec (.rstNRelease bist) s = .next t ∧ t.pwr.rstLow = false := by
  refine ⟨_, (if_neg ?_).trans (if_pos hl), (bootDo_supplies _).2⟩
  simp [hh]

theorem cause_recorderOnly (reg b : Nat) (s : State) : RecorderOnly s (cause reg b s) := causeD_recorderOnly ..

theorem RecorderOnly.cal {s t : State} (h : RecorderOnly s t) : t.mgt.cal = s.mgt.cal := by rw [h.rest]
theorem RecorderOnly.pwr {s t : State} (h : RecorderOnly s t) : t.pwr = s.pwr := by rw [h.rest]

theorem execXtalFail_falls (hr : s.pwr.rcClock = false) :
    ∃ t, exec .xtalFail s = .next t ∧ t.pwr.rcClock = true ∧ t.mgt.cal.valid = false := by
  have h := cause_recorderOnly Reg.PWR_CAUSE 2 { s with
    pwr := { s.pwr with xtalOk := false, rcClock := true }
    mgt := { s.mgt with cal := { s.mgt.cal with valid := false } } }
  exact ⟨_, if_neg (by simp [hr]), congrArg PwrState.rcClock h.pwr, congrArg CalState.valid h.cal⟩

theorem execPowerFailWarning_saves {n : Nat} (hn : getFld s Reg.PWR_PFW 5 0 * 1000 ≤ n) (hs : s.pwr.saving = false)
    (hd : s.pwr.saved = false) : ∃ t, exec (.powerFailWarning n) s = .next t ∧ t.dev.mode = s.dev.mode ∧ t.dev.bootPending = none := by
  have hseen : pfwSeen n s = true := decide_eq_true hn
  refine ⟨_, (if_neg (by simp [hseen])).trans (if_neg (by simp [hs, hd])), ?_⟩
  generalize ht : saveBegin _ = t
  have h : ctl t = { ctl s with boot := none } := by
    rw [← ht]
    simp [ctl_views, ctl_mk]
  exact ⟨mode_of_ctl h, congrArg Ctl.boot h⟩

theorem execWatchdogExpire_fatal (hg : s.pwr.powerGood = true) (hl : s.pwr.rstLow = false) (hm : s.dev.mode ≠ .boot) :
    exec .watchdogExpire s = .next (mbAbort (fatal 12 0 (cause Reg.MGT_CAUSE 0 s))) :=
  (if_neg (by simp [hg, hl])).trans (if_neg hm)

theorem execHostWritePerform_window {a w : Nat} {data : List Byte} (hp : s.hif.pending = some (a, data))
    (hr : hostRange a = some (.window w)) : exec .hostWritePerform s =
      .next (wordsPerform (burstWords a data) s.hif.pendStaged
        { s with hif := { s.hif with pending := none, pendStaged := [], seq := (s.hif.seq + 1) % 2 ^ 16 } }) := by
  change execHostWritePerform s = _
  simp only [execHostWritePerform, hp, hr]

theorem execRemaskDue_remasks {x : Nat} {rest : List Nat} (hx : s.key.round.filter (fun x => keyMaskable s x) = x :: rest)
    (hb : keyBusy s = false) (hm : s.dev.mode ≠ .boot) (hr : s.key.rngOk = true) :
    ∃ t u, exec .remaskDue s = .next t ∧ t = keyWrite x (keyEntry s x).ptr
      (xorBytes (slice (keyEntry s x).half 0x10 32) (keyRandom s).1 ++
        xorBytes (slice (keyEntry s x).half 0x30 32) (keyRandom s).1) true false [] u := by
  refine ⟨_, (keyRandom s).2, ?_, rfl⟩
  change execRemaskDue s = _
  simp [execRemaskDue, hx, hb, hm, hr]

/-! ### The calendar and the recorder -/

@[simp] theorem setCal_cal (c : CalState) (s : State) : (setCal c s).mgt.cal = c := Eq.refl _

@[simp] theorem leapEnd_cal (s : State) : (leapEnd s).mgt.cal = s.mgt.cal := (evRaise_recorderOnly ..).cal

/-- R536: the end of a leap second moves no slew. -/
theorem leapDo_cal (s : State) : (leapDo s).mgt.cal.leapDone = false ∧ (leapDo s).mgt.cal.slew = s.mgt.cal.slew ∧
    (leapDo s).mgt.cal.slewTick = s.mgt.cal.slewTick := by
  unfold leapDo
  dsimp only
  split <;> simp

/-- Moving the calendar, forwards or back, leaves the slew and its ticks. -/
def SameSlew (s t : State) : Prop := t.mgt.cal.slew = s.mgt.cal.slew ∧ t.mgt.cal.slewTick = s.mgt.cal.slewTick

theorem leapPending_slew (s : State) : SameSlew s (if s.mgt.cal.leapDone then leapDo s else s) := by
  by_cases h : s.mgt.cal.leapDone = true
  · rw [if_pos h]
    exact (leapDo_cal s).2
  · rw [if_neg h]
    exact ⟨rfl, rfl⟩

theorem calForward_slew (n : Nat) (s : State) : SameSlew s (calForward n s) := by
  unfold calForward
  extract_lets s0 c f s1
  have hc : c.slew = s.mgt.cal.slew ∧ c.slewTick = s.mgt.cal.slewTick := leapPending_slew s
  clear_value c
  simp only [SameSlew, apply_ite (fun u : State => u.mgt.cal.slew), apply_ite (fun u : State => u.mgt.cal.slewTick), s1,
    setCal_cal, leapEnd_cal, ite_self]
  exact hc

theorem calBack_slew (s : State) : SameSlew s (calBack s) := by
  unfold calBack
  dsimp only
  split
  · simp only [SameSlew, setCal_cal, and_self]
  · split <;> simp only [SameSlew, setCal_cal, and_self]

theorem execCalSlewStep_slews (h0 : s.mgt.cal.slew ≠ 0) (h32 : 32 ≤ s.mgt.cal.slewTick) :
    ∃ t, exec .calSlewStep s = .next t ∧ t.mgt.cal.slewTick = s.mgt.cal.slewTick - 32 ∧
      t.mgt.cal.slew = s.mgt.cal.slew - (if 0 < s.mgt.cal.slew then 1 else -1) := by
  refine ⟨_, if_pos ⟨h0, h32⟩, ?_⟩
  split
  · obtain ⟨hs, ht⟩ := calForward_slew 1 (setCal { s.mgt.cal with
      slew := s.mgt.cal.slew - 1, slewTick := s.mgt.cal.slewTick - 32 } s)
    exact ⟨ht, hs⟩
  · obtain ⟨hs, ht⟩ := calBack_slew (setCal { s.mgt.cal with
      slew := s.mgt.cal.slew - -1, slewTick := s.mgt.cal.slewTick - 32 } s)
    exact ⟨ht, hs⟩

theorem execPpsEdge_counts (us : Rat) (hp : getBit s Reg.MGT_CAL_PPS 0 = true) (hv : s.mgt.cal.valid = true) :
    ∃ t, exec (.ppsEdge us) s = .next t ∧ t.mgt.cal.ppsTicks = 0 := by
  change ∃ t, execPpsEdge us s = .next t ∧ _
  unfold execPpsEdge
  extract_lets c e s1 near good c1
  rw [if_pos ⟨hp, hv⟩]
  split
  · exact ⟨_, rfl, rfl⟩
  · exact ⟨_, rfl, congrArg CalState.ppsTicks (cause_recorderOnly ..).cal⟩

theorem evFlush_scanning (s : State) : (evFlush false s).mgt.evr.scanning = s.mgt.evr.scanning := by
  unfold evFlush
  split <;> rfl

theorem evStore_scanning (direct : Bool) (r : List Byte) (s : State) : (evStore direct r s).mgt.evr.scanning = s.mgt.evr.scanning := by
  unfold evStore
  split
  · rfl
  · dsimp only
    split
    · rfl
    · split
      · rfl
      · split
        · exact evFlush_scanning _
        · rfl

theorem execEvrScanDone_ends (h : s.mgt.evr.scanning = true) : ∃ t, exec .evrScanDone s = .next t ∧ t.mgt.evr.scanning = false :=
  ⟨_, if_pos h, (forL_keeps (fun u : State => u.mgt.evr.scanning) _ _ _ fun _ _ => evStore_scanning ..).trans rfl⟩

theorem execEvrBucketRefill_refills (h : s.pwr.tick % 1024 = 0) : ∃ t, exec .evrBucketRefill s = .next t ∧
    t.mgt.evr.buckets.map (fun x => x.code) = s.mgt.evr.buckets.map (fun x => x.code) ∧
    t.mgt.evr.overflow.tokens = min (600 * 3600) (s.mgt.evr.overflow.tokens + 600) := by
  refine ⟨_, if_pos h, ?_, rfl⟩
  simp only [setEvr, List.map_map]
  rfl

theorem execLeapSecond_ends (h : s.mgt.cal.leapDone = true) :
    ∃ t, exec .leapSecond s = .next t ∧ t.mgt.cal.leapDone = false :=
  ⟨_, next_if_pos _ _ h, (leapDo_cal s).1⟩

end

/-! ### Loops and tasks -/

section
variable {s : State}

theorem execTaskDispatch_resumes {e : Nat} {r : TaskRec} (hon : engRuns s e = true) (hrun : (ceGet s e).run = none)
    (hn : nextTask s e = some r) (hm : (taskGet s e r.task).mode = .preempted) : exec (.taskDispatch e) s =
      .next (taskSet e r.task { taskGet s e r.task with mode := .running } (ceSet e { ceGet s e with run := some r.task, atEnd := none } s)) :=
  (execTaskDispatch_free hon hn hrun).trans (congrArg _ (if_pos hm))

theorem execBudgetExpire_traps {e k : Nat} {r : TaskRec} (hon : engRuns s e = true) (hrun : (ceGet s e).run = some k)
    (hr : (theTt s).task e k = some r) (hb : overBudget r (taskGet s e k).cycles = true) :
    exec (.budgetExpire e) s = .next (ceTrap e k 0x0B (taskGet s e k).pc s) := by
  change execBudgetExpire e s = _
  simp [execBudgetExpire, hon, hrun, hr, hb]

theorem execRetentiveCapture_idle {e t0 : Nat} {a : Retentive} (hreq : (ceGet s e).retReq = some t0) (ha : (theTt s).ret e = some a)
    (hend : (ceGet s e).atEnd ≠ some s.pwr.tick) (hsave : s.pwr.saving = false) (hidle : ceIdle s e = true) :
    exec (.retentiveCapture e) s = .next (retCapture a false (.retentive e) s) :=
  (execRetentiveCapture_waiting hreq ha hsave).trans ((if_neg fun h => hend h.1).trans (if_pos hidle))

/-! ### Cars -/

theorem onCar_own {kind p : Nat} {f : List Byte} {c : Car} (act : Car → State → State) (hc : rxJudge s p f = .car c)
    (hg : c.guest = false) (hl : carLate s p = false) (hk : c.kind = kind) :
    onCar kind p f act s = .next (act c (ringJudge p c (carBack p c false s))) := by
  rw [onCar_onTime act hc hk hl, ringSeen, hg, if_neg Bool.false_ne_true]

/-- R113, R115, R141: a time car that came back on time leaves its round trip and what corrects the next time car. -/
def timeCarTaken (p n : Nat) (c : Car) (u : State) : State :=
  let v := setReg (Reg.SLK_LRT + 0x40 * p) (BitVec.ofNat 32 (n % 2 ^ 32))
    (maxFld (Reg.SLK_LRTMAX + 0x40 * p) 31 0 (n % 2 ^ 32) u)
  setLine p { lineSt v p with prev := (c.train, n % 2 ^ 32, u32 c.body 0x14), turnPos := c.hops % 512 } v

theorem execThroughCarArrive_forwards {p other : Nat} {f : List Byte} {v : Car} (time res : Int) (onward : Bool)
    (ho : thruOther s p = some other) (hf : thruForwards s p = true) (hlen : 64 ≤ f.length) (hok : frameOk f = true)
    (he : thruEther s p f = true) (hv : carOf (framePayload f) = some v) :
    exec (.throughCarArrive p f time res onward) s = .next (thruForward p other f v time res onward s) := by
  change execThroughCarArrive p f time res onward s = _
  simp [execThroughCarArrive, ho, hf, Nat.not_lt.2 hlen, hok, he, hv]

theorem execEpochAdvance_waits (hh : hwStates s.dev.mode = true) (hn : s.slk.epochWait = none)
    (hlt : (getReg s Reg.SLK_EPOCH).toNat < epochComputed s) :
    ∃ t, exec .epochAdvance s = .next t ∧ t.slk.epochWait = some (epochComputed s) := by
  obtain ⟨t, ht, hj⟩ := epochAdvance_higher hh hn hlt
  refine ⟨t, ht, ?_⟩
  rw [hj.rest]
  rfl

/-! ### The link poll in every state -/

/-- The poll of a used port writes its line; what it may record besides changes no line. -/
theorem portPoll_recorded (up : Nat) {p : Nat} {s : State} (hm : ((theTt s).line p).mode ≠ 0) :
    Recorded (setLine p (linePolled up p s) s) (portPoll up p s) := by
  unfold portPoll
  rw [if_neg hm]
  split
  · exact causeS_recorded ..
  · exact .refl _

/-- The links of the first `n` ports are read. -/
structure LinksRead (up n : Nat) (s t : State) : Prop where
  dev : t.dev = s.dev
  red : t.red = s.red
  count : t.slk.lines.length = s.slk.lines.length
  link : ∀ p < n, ((theTt s).line p).mode ≠ 0 → (lineSt t p).link = (gateOpen s && bit up p)

theorem LinksRead.step {up n : Nat} {s t : State} (h : LinksRead up n s t) (hn : n < s.slk.lines.length) :
    LinksRead up (n + 1) s (portPoll up n t) := by
  obtain ⟨hdev, hred, hcount, hlink⟩ := h
  have htt := theTt_congr hdev
  by_cases hm : ((theTt s).line n).mode = 0
  · rw [show portPoll up n t = t from if_pos (by rw [htt]; exact hm)]
    refine ⟨hdev, hred, hcount, fun p hp h0 => hlink p ?_ h0⟩
    have : p ≠ n := fun he => h0 (he ▸ hm)
    omega
  · have hrec := portPoll_recorded up (p := n) (s := t) (by rw [htt]; exact hm)
    refine ⟨hrec.dev.trans hdev, hrec.red.trans hred, by rw [hrec.slk, setLine_lines_length, hcount], fun p hp h0 => ?_⟩
    rw [hrec.line]
    by_cases hpn : p = n
    · rw [hpn, lineSt_setLine_same (by omega), ← gateOpen_congr hred]
      rfl
    · rw [lineSt_setLine_ne hpn]
      exact hlink p (by omega) h0

theorem linksRead (up n : Nat) {s : State} (hn : n ≤ s.slk.lines.length) : LinksRead up n s (forN n s (portPoll up)) := by
  induction n with
  | zero => exact ⟨rfl, rfl, rfl, fun p hp => absurd hp (Nat.not_lt_zero p)⟩
  | succ n ih =>
    rw [forN_succ]
    exact (ih (by omega)).step hn

theorem execPhyLinkPoll_link {up p : Nat} (ht : s.dev.tt.isSome = true) (hk : s.pwr.tick % 64 = 0) (hp : p < 8)
    (hlen : s.slk.lines.length = 8) (hm : ((theTt s).line p).mode ≠ 0) :
    ∃ t, exec (.phyLinkPoll up) s = .next t ∧ (lineSt t p).link = (gateOpen s && bit up p) :=
  ⟨_, phyLinkPoll_exec up ht hk, (linksRead up 8 hlen.ge).link p hp hm⟩

end

/-! ### Channels -/

section
variable {s : State} {c : Nat} {r : Channel} (hr : (theTt s).chan c = some r)
include hr

theorem execConversionDone_good {code : Nat} {v1 v2 x : Rat} {full exc : Bool} (hb : blind s r = false) (hon : domOn s 15 = true)
    (hm : modeSlots r.mode ≠ 0) (hn : scanNext s (c / 16) = some c)
    (hx : (convRead ((theTt s).platform (c / 16)) r v1 v2 full exc).val = some x)
    (hbad : (convRead ((theTt s).platform (c / 16)) r v1 v2 full exc).bad = false) :
    exec (.conversionDone c code v1 v2 full exc) s = .next
      (convGood r x (convRead ((theTt s).platform (c / 16)) r v1 v2 full exc).sec
        (setChan c { chanSt (scanStep (c / 16) (excReport (c / 16) exc s)) c with code := code % 2 ^ 24, last := f32OfRat x }
          (scanStep (c / 16) (excReport (c / 16) exc s)))) := by
  change execConversionDone c code v1 v2 full exc s = _
  simp only [execConversionDone, hr, hx, hbad, hb, Bool.or_self]
  exact if_neg (by simp [hon, hm, hn])

theorem execAcceptedEdge_first {b : Bool} {us : Nat} (hb : blind s r = false) (hon : domOn s 15 = true) (hm : r.mode = 7)
    (hl : (chanSt s c).level = none) : exec (.acceptedEdge c b us) s = .next
      (ciPrimary c (levelWord (b != bit r.p1 15) .good)
        (setChan c { chanSt s c with level := some (b != bit r.p1 15), highTick := s.pwr.tick } s)) := by
  change execAcceptedEdge c b us s = _
  simp only [execAcceptedEdge, hr, hl]
  exact if_neg (by simp [hon, hm, hb])

theorem execChatterExit_exits {us : Nat} (hb : blind s r = false) (hon : domOn s 15 = true) (hm : r.mode = 7)
    (hc : (chanSt s c).chatter = true) (hle : (edgesWithin r.p0 (instant s us) (chanSt s c).edges).length ≤ r.p1 % 256 / 2) :
    exec (.chatterExit c us) s = .next
      (ciPrimary c (levelWord ((chanSt s c).level.getD false) .good) (setChan c
        { chanSt s c with chatter := false, edges := edgesWithin r.p0 (instant s us) (chanSt s c).edges } s)) := by
  change execChatterExit c us s = _
  simp only [execChatterExit, hr]
  exact if_pos ⟨hon, hm, hc, by rw [hb]; rfl, hle⟩

theorem execStuckTimeout_sticks (hon : domOn s 15 = true) (hm : r.mode = 7) (hh : bits r.p1 13 8 ≠ 0)
    (hl : (chanSt s c).level = some true) (hs : (chanSt s c).stuck = false)
    (ht : bits r.p1 13 8 * 3600 * 1024 < s.pwr.tick - (chanSt s c).highTick) :
    exec (.stuckTimeout c) s = .next (causeS Reg.CHN_CAUSE 3 c (setChan c { chanSt s c with stuck := true } s)) := by
  change execStuckTimeout c s = _
  simp only [execStuckTimeout, hr]
  exact if_pos ⟨hon, hm, hh, hl, by rw [hs]; rfl, ht⟩

theorem execPwmPeriodStart_takes {v : Word} (hon : domOn s 15 = true) (hm : r.mode = 19) (hv : chnTarget s r = some v) :
    exec (.pwmPeriodStart c) s = .next (setChan c { chanSt s c with duty := chnApplied r v } s) := by
  change execPwmPeriodStart c s = _
  simp only [execPwmPeriodStart, hr, hv]
  exact if_neg (by simp [hon, hm])

theorem execTestPulse_first (hon : domOn s 15 = true) (hm : r.mode = 20) (hrun : s.dev.mode = .run)
    (hq : 0 < (chanSt s c).tpQueue) (hp : (chanSt s c).pulseTick = none) : exec (.testPulse c) s =
      .next (setChan c { chanSt s c with pulseTick := some s.pwr.tick, tpQueue := (chanSt s c).tpQueue - 1 } s) := by
  change execTestPulse c s = _
  simp only [execTestPulse, hr, hp]
  exact if_pos ⟨hon, hm, hrun, hq, trivial⟩

end

/-! ### The pair's link through STANDBY -/

theorem Worked.red {s t : State} (h : Worked s t) : t.red = s.red := by rw [h.rest]

theorem fabGrant_red (s : State) : (fabGrant s).red = s.red := by rw [(fabGrant_granted s).rest]

theorem redSend_sync (m : SyncMsg) (s : State) : (redSend m s).red.sync = s.red.sync := by
  unfold redSend
  split <;> rfl

theorem redStatus_sync (s : State) : (redStatus s).red.sync = s.red.sync := redSend_sync ..

theorem hydStop_red (s : State) : (hydStop s).red = s.red := (fabGrant_red _).trans (fabAbandon_worked 1 s).red

theorem alignStart_sync (s : State) : (alignStart s).red.sync = s.red.sync := by
  unfold alignStart
  extract_lets s0 o s1 r
  have h1 : r.sync = s.red.sync := congrArg RedState.sync ((hydStop_red _).trans (fabAbandon_worked 2 _).red)
  exact (redStatus_sync _).trans h1

theorem txLeave_red (s : State) : (txLeave s).red = s.red := by
  unfold txLeave
  split
  · exact cause_red ..
  · rfl

theorem imgPut_red (r i : Nat) (w : DWord) (s : State) : (imgPut r i w s).red = s.red := by
  unfold imgPut
  split <;> rfl

theorem ciPut_sync (i : Nat) (w : DWord) (s : State) : (ciPut i w s).red.sync = s.red.sync := by
  unfold ciPut
  split
  · rfl
  · split
    · rfl
    · rw [imgPut_red]

theorem ciBlind_sync (s : State) : (ciBlind s).red.sync = s.red.sync :=
  forL_keeps (fun u : State => u.red.sync) _ _ _ fun _ _ => (ciPut_sync ..).trans (ciPut_sync ..)

theorem setMode_sync (m : Mode) (s : State) : (setMode m s).red.sync = s.red.sync :=
  (redStatus_sync _).trans (congrArg RedState.sync (evRaise_recorded ..).red)

theorem wagonNew_red (s : State) : (wagonNew s).2.red = s.red := by
  unfold wagonNew
  dsimp only
  split <;> rfl

theorem ftrSeed_red (which : Element → Bool) (s : State) : (ftrSeed which s).red = s.red := by
  refine forL_keeps (fun u : State => u.red) _ _ _ fun e u => ?_
  have hnew := wagonNew_red (pipeSet e.element [] u)
  dsimp only
  split
  · next h => exact (congrArg (fun x => x.2.red) h).symm.trans hnew
  · next h => exact (congrArg (fun x => x.2.red) h).symm.trans hnew

theorem ftrEnterRun_red (s : State) : (ftrEnterRun s).red = s.red := ftrSeed_red _ _

theorem enterStandby_sync (aligned : Bool) (s : State) : (enterStandby aligned s).red.sync = s.red.sync := by
  unfold enterStandby
  extract_lets s1 d c r s2 s3 s4
  have h1 : s1.red.sync = s.red.sync := congrArg RedState.sync (txLeave_red s)
  have h2 : s2.red.sync = s.red.sync := h1
  have h3 : s3.red.sync = s.red.sync := (ciBlind_sync _).trans ((setMode_sync ..).trans h2)
  have h4 : s4.red.sync = s.red.sync := by
    simp only [s4]
    split
    · exact h3
    · rw [ftrEnterRun_red, h3]
  split
  · exact h3
  · exact (alignStart_sync _).trans h4

/-! ### The commands -/

section
variable {s : State}

theorem execSyncLinkUp_up (hon : domOn s 17 = true) (hp : paired s = true) (hs : s.red.sync = false) (hl : s.pwr.serLock = true) :
    ∃ t, exec .syncLinkUp s = .next t ∧ t.red.sync = true := by
  change ∃ t, execSyncLinkUp s = .next t ∧ _
  unfold execSyncLinkUp
  rw [if_neg (by simp [hon, hp, hs, hl])]
  extract_lets r s1 s2
  have h2 : s2.red.sync = true := redStatus_sync _
  split
  · split
    · refine ⟨_, rfl, ?_⟩
      split
      · exact (enterStandby_sync false s2).trans h2
      · exact h2
    · exact ⟨_, rfl, h2⟩
  · exact ⟨_, rfl, h2⟩

theorem execTakeover_runs {t0 : Nat} (hd : s.red.downTick = some t0) (hm : s.dev.mode = .standby) (hf : noFatal s = true)
    (hg : guardTicks s ≤ s.pwr.tick - t0) : ∃ t, exec .takeover s = .next t ∧ t.dev.mode = .run := by
  change ∃ t, execTakeover s = .next t ∧ _
  unfold execTakeover
  rw [hd]
  dsimp only
  rw [if_pos ⟨hm, hf, hg⟩]
  refine ⟨_, rfl, mode_of_ctl (c := { ctl s with mode := .run }) ?_⟩
  simp [ctl_views, ctl_mk]

theorem execProvingSwap_begins (hm : s.dev.mode = .run) (hp : paired s = true) (hd : s.red.swapDue = true) (hh : s.red.handover = false)
    (hday : s.red.swapDay = none) (hmin : s.mgt.cal.seconds / 60 % 1440 = (theTt s).redundancy.swapMinute) (hok : swapOk s = true) :
    exec .provingSwap s = .next (setRed { s.red with handover := true, handAck := false } s) := by
  refine (if_neg ?_).trans ((if_neg fun h => h.2 hmin).trans (if_pos hok))
  simp [hm, hp, hd, hh, hday]

theorem execSyncFrame_new {n : Nat} {msg : SyncMsg} (hon : domOn s 17 = true) (hp : paired s = true) (hs : s.red.sync = true)
    (hm : msg ≠ .ack) (hn : s.red.rxSeq ≠ some n) : exec (.syncFrame n msg) s =
      .next (syncReceive msg (setRed { s.red with sent := some (n, .ack), rxSeq := some n } s)) :=
  (if_neg (by simp [hon, hp, hs])).trans ((if_neg hm).trans (if_neg hn))

theorem handoverDone_actIn (s : State) : (handoverDone s).red.actIn = s.red.actIn := by
  change (cause Reg.RED_CAUSE 2 s).red.actIn = _
  rw [cause_red]

theorem execActInNChange_reads (b : Bool) : ∃ t, exec (.actInNChange b) s = .next t ∧ t.red.actIn = b := by
  change ∃ t, execActInNChange b s = .next t ∧ _
  unfold execActInNChange
  extract_lets s1
  split
  · exact ⟨_, rfl, by rw [cause_red]; rfl⟩
  · split
    · exact ⟨_, rfl, handoverDone_actIn _⟩
    · exact ⟨_, rfl, rfl⟩

theorem execMidnightArchive_ends {day : Nat} {recs : List (Nat × List Byte)} (h : s.mtr.archDue = some (day, recs)) :
    ∃ t, exec (.midnightArchive none []) s = .next t ∧ t.mtr.archDue = none := by
  change ∃ t, execMidnightArchive none [] s = .next t ∧ _
  unfold execMidnightArchive
  rw [h]
  refine ⟨_, rfl, ?_⟩
  split <;> rfl

theorem execCountedEdge_counts {n : Nat} (hm : hwStates s.dev.mode = true) : exec (.countedEdge n) s =
    .next (if (pulseEdge n s).2 = true then overrateMark (pcGet s n).channel (pulseEdge n s).1 else (pulseEdge n s).1) := by
  change execCountedEdge n s = _
  simp [execCountedEdge, hm, apply_ite Host.Outcome.next]

theorem execIntervalClose_closes {m : Nat} {r : Meter} (hr : meterRec (theTt s) m = some r) (hon : domOn s 16 = true)
    (hm : hwStates s.dev.mode = true) : exec (.intervalClose m) s = .next (ivlDue m r s) := by
  change execIntervalClose m s = _
  simp only [execIntervalClose, hr]
  exact if_pos ⟨hon, hm⟩

theorem execThermalSample_samples (hon : domOn s 16 = true) (hh : hwStates s.dev.mode = true)
    (hc : s.dev.mode = .standby → computes s = true) (ht : s.pwr.tick % 256 = 0) (hs : s.mtr.sampleTick ≠ some s.pwr.tick) :
    exec .thermalSample s =
      .next (totalsBoundary (forMeters thermalOne { s with mtr := { s.mtr with sampleTick := some s.pwr.tick } })) :=
  if_pos ⟨hon, hh, or_iff_not_imp_left.2 fun h => hc (not_not.1 h), ht, hs⟩

end

end Sys2Proof.Machine

/-- Settles O60: each row's guard is open under its conditions, and the state named is what its branch makes. -/
theorem commandsTakeEffect : Obligations.CommandsTakeEffect := by
  intro s
  refine ⟨?_, ?_, ?_, ?_, ?_, ?_, ?_, ?_, ?_, ?_⟩
  -- the commands that always act
  · intro rb
    simp only [List.forall_mem_cons, List.not_mem_nil, false_imp_iff, implies_true, and_true]
    exact ⟨rfl, rfl, rfl, rfl, rfl, rfl, rfl, rfl, rfl, rfl, rfl, rfl, rfl, rfl, rfl, rfl, rfl⟩
  -- those with a condition
  · intro d n g e a len c k u b data ecc cm wins
    simp only [List.forall_mem_cons, List.not_mem_nil, false_imp_iff, implies_true, and_true]
    refine ⟨fun h => if_pos h, next_if_pos _ _, fun ⟨ho, hh, hr, hp, ht⟩ => inputClose_exec ho hh hr hp ht, next_if_pos _ _,
      fun ⟨hw, hp, hn, ht, hb⟩ => estimateClose_exec hw hp hn ht hb,
      fun ⟨ho, hh, hr, hf, ht, hw⟩ => outputFreeze_exec ho hh hr hf ht hw, next_if_pos _ _, fun ⟨hd, hm, hc⟩ => execFatalCauseSafe_idle hd hm hc,
      fun _ => rfl, fun _ => rfl, fun _ => rfl, fun _ => rfl, fun _ => rfl, fun _ => rfl, fun _ => rfl,
      fun ⟨hk, hm, hd, hc, hw⟩ => backgroundSlotCheckDone_exec hk hm hd hc hw,
      fun ⟨hk, hc, hb, hx, hn⟩ => timetableCheckDone_exec hk hc hb hx hn,
      fun h => if_pos h, fun h => if_pos h, execPllUnlock_runs, execPllUnlock_runs, execPllUnlock_runs,
      fun ⟨hs, hg, hm⟩ => execPfwRecoverTimeout_boots hs hg hm, fun _ => rfl, fun _ => rfl, fun h => if_pos h, fun h => if_pos h,
      fun h => if_pos h, fun h => if_pos h.2, fun ⟨_, hs, hb, hl⟩ => execLingerExpire_ends hs hb hl,
      fun h => next_if_neg _ _ (ne_true_of_eq_false h.2), fun _ => rfl, fun _ => rfl, fun _ => rfl, fun _ => rfl, fun _ => rfl, fun _ => rfl,
      fun h => if_neg (mt List.contains_iff_mem.1 h), fun _ => rfl, fun ⟨hr, hl⟩ => execHostCsNEarlyRise_fetched hr hl,
      fun h => if_pos h, fun h => if_pos ⟨h.1, mt List.contains_iff_mem.1 h.2⟩,
      fun h => if_pos h, fun h => if_pos h, fun h => if_pos h, fun h => if_pos h, next_if_pos _ _,
      fun h => if_pos h, fun h => if_pos h, fun h => if_pos h,
      fun ⟨hn, hw⟩ => execPsLockoutExpire_write hn hw, fun ⟨hn, hr⟩ => execPsLockoutExpire_read hn hr,
      fun ⟨hd, hp, hs, ha, hr⟩ => execPsWriteBurst_takes hd hp hs ha hr, fun _ => rfl, fun h => if_pos h, fun h => if_pos h,
      fun h => if_pos h, fun h => if_pos h, fun h => if_pos h, fun _ => rfl, fun h => if_pos h, fun h => if_pos h, fun h => if_pos h,
      execTotalsSave_waits, fun h => if_pos h, fun ⟨hon, ht⟩ => execSlvSelftestDone_ends hon ht,
      fun ⟨hon, ht⟩ => execSlvSelftestDone_ends hon ht, fun h => if_pos h, fun h => if_pos h, fun h => if_pos h, fun h => if_pos h,
      fun ⟨h15, h16, hm, ha⟩ => execWaveformWindow_reads h15 h16 hm ha, fun ⟨h17, hs, hx⟩ => execSyncResendTimeout_sends h17 hs hx,
      fun h => if_pos (by simpa using h), fun h => if_pos (by simpa using h),
      fun ⟨hm, hc, hp⟩ => execClaimSample_enters hm hc hp, fun h => if_pos h,
      fun ⟨hp, ho, hi, hc, hk, hm, hf⟩ => execInterlockConflict_fatal hp ho hi hc hk hm hf⟩
  -- register writes of the host port
  · intro a w b c e k key p hopen hp t hcond hserved hst hwr
    have hrow : exec p.1 s = wordRow p.2.2.1 p.2.2.2 s := by
      clear hwr hst hserved t
      revert p
      simp only [List.forall_mem_cons, List.not_mem_nil, false_imp_iff, implies_true, and_true]
      exact ⟨fun h => if_pos h, fun _ => rfl, fun _ => rfl, fun _ => rfl, fun _ => rfl, fun _ => rfl, fun _ => rfl, fun _ => rfl,
        fun _ => rfl, fun _ => rfl, fun h => if_pos h, fun h => if_pos h, fun h => if_pos h, fun h => if_pos h,
        fun h => if_pos h, fun h => if_pos h, fun h => if_pos h, fun _ => rfl, fun _ => rfl, fun _ => rfl, fun _ => rfl,
        execDomainForceOn_row b s⟩
    exact hrow.trans (wordRow_performs hopen hserved hst hwr)
  -- mailbox commands
  · simp only [List.forall_mem_cons, List.not_mem_nil, false_imp_iff, implies_true, and_true]
    exact ⟨mbDo_runs (ok := fun s => s.dev.mode != .boot) rfl, mbDo_durably_runs rfl, mbDo_durably_runs rfl, mbDo_durably_runs rfl, mbDo_runs rfl,
      mbDo_runs rfl, mbDo_durably_runs rfl, mbDo_durably_runs rfl,
      mbDo_durably_runs (f := fun _ => fwClose) rfl, mbDo_runs rfl,
      mbDo_runs (ok := fun s => okFw s && s.mgt.trial) (f := fun _ => fwConfirm) rfl, mbDo_runs rfl, mbDo_runs rfl, mbDo_runs rfl, mbDo_runs rfl,
      mbDo_runs rfl, mbDo_runs rfl, keyDo_runs rfl, keyDo_runs rfl, keyDo_runs rfl, keyDo_runs rfl,
      keyDo_runs (ok := fun s => okNotBoot s && (s.dev.mode == .hold || s.dev.mode == .ready)) rfl, keyDo_runs rfl,
      keyDo_runs rfl, keyDo_runs rfl, keyDo_runs rfl, keyDo_runs rfl, keyDo_runs rfl, keyDo_runs rfl, keyDo_runs rfl,
      keyDo_runs rfl, keyDo_runs rfl, keyDo_runs (ok := fun s => okNotBoot s && (s.dev.mode == .hold || secFlag s 0)) rfl,
      keyDo_runs rfl, keyDo_runs rfl, keyDo_runs rfl⟩
  -- supplies, resets, calendar and recorder
  · intro es sc rs bist b n ts mv us
    obtain ⟨t, ht, -⟩ := exec_step (.tick es sc rs) s
    refine ⟨⟨t, ht, tick_count ht⟩, execPowerGood_good bist b, fun h => ⟨_, if_pos h, rfl⟩, execRstNAssert_boot,
      execRstNRelease_released bist, ⟨_, rfl, rfl, rfl⟩, execXtalFail_falls, execPowerFailWarning_saves, rfl, execWatchdogExpire_fatal,
      fun a data w => execHostWritePerform_window, fun ho hh hu => next_if_pos _ _ ⟨ho, hh, hu⟩, fun ho hh hu => next_if_pos _ _ ⟨ho, hh, hu⟩,
      fun x rest => execRemaskDue_remasks, execCalSlewStep_slews, execPpsEdge_counts us, execLeapSecond_ends,
      fun h0 h1 => ⟨_, if_pos ⟨h0, h1⟩, rfl⟩, execEvrBucketRefill_refills, fun h => ⟨_, if_pos h, rfl⟩, execEvrScanDone_ends⟩
  -- loops and tasks
  · intro e k x r lr
    exact ⟨execLoopSample_eq, fun hr hon hl hm hev => ⟨fun hk hd => (execTaskRelease_due hr hon hl hev hk hd).1 hm,
        fun hk he ho hnow => (execEventTaskRelease_edge hr hon hl hev hk (now := some true) (by rw [ho]; exact hnow)
          (.inl ⟨ho, rfl, .inr he⟩) rfl).2.1 hm⟩,
      execTaskDispatch_resumes, execBudgetExpire_traps, fun q => execPatchApply_atBoundary, fun t0 a => execRetentiveCapture_idle⟩
  -- trains and cars
  · intro p n f c time res onward
    exact ⟨joinTrainDepart_exec, rfl, fun hc hg hl => ⟨onCar_own (timeCarTaken p n) hc hg hl, onCar_own (fun _ s => s) hc hg hl,
        onCar_own (fun c s => forN c.slots s fun k s => inputSlot p c k s) hc hg hl,
        onCar_own (fun c s => forN 16 s fun k s => joinSlot p c k s) hc hg hl⟩,
      frameDiscard_bad, fun r => presenceStaleExpire_exec, execEpochAdvance_waits, execPhyLinkPoll_link,
      fun other v => execThroughCarArrive_forwards time res onward⟩
  -- channels
  · intro c us code r v1 v2 full exc b hr hb hon
    exact ⟨fun hm hn x hx hbad => execConversionDone_good hr hb hon hm hn hx hbad, execAcceptedEdge_first hr hb hon,
      execChatterExit_exits hr hb hon, execStuckTimeout_sticks hr hon, fun v => execPwmPeriodStart_takes hr hon, execTestPulse_first hr hon⟩
  -- meters and the pair
  · intro n m day recs r b msg
    exact ⟨execCountedEdge_counts, execThermalSample_samples, execIntervalClose_closes, execMidnightArchive_ends,
      execActInNChange_reads b, execSyncFrame_new, fun t0 => execTakeover_runs, execProvingSwap_begins, execSyncLinkUp_up⟩
  -- instructions of an engine
  · intro e c
    refine ⟨fun h => ?_, fun h hsys hlegal hb => ?_, fun h hl => ?_, fun hctx ht hb => ?_⟩
    · intro p hp hl
      have hrow : StepRow e p.1 p.2 s := by
        clear hl
        revert p
        simp only [List.forall_mem_cons, List.not_mem_nil, false_imp_iff, implies_true, and_true]
        and_intros
        all_goals exact ⟨_, _, rfl⟩
      exact hrow.completes h hl
    · exact execCeEnd_releases h hsys hlegal hb
    · exact illegalInstruction_traps h hl
    · exact (execFetchAtTextEnd_eq hctx ht).trans (by rw [hb]; rfl)

end


section
/-! ## Conversions of a single device (R339, R345, R346, R348) -/

open Sys2Proof Sys2Proof.Machine
namespace Sys2Proof.Machine

theorem chan_channel {t : Timetable} {c : Nat} {r : Channel} (h : t.chan c = some r) : r.channel = c := by
  simpa using List.find?_some h

/-! ### The words and channel states of a device outside a pair (R503, R504) -/

/-- Outside STANDBY and outside a pair the channel block writes the CI region at once; both stores are canonical. -/
structure SingleCi (s : State) : Prop where
  mode : s.dev.mode ≠ .standby
  single : paired s = false
  next : s.chn.ciNext = []
  ci : smWf (imgInit 2) s.img.ci = true
  chans : smWf (fun _ => ({} : ChanState)) s.chn.chans = true

/-- Of the CI words and the channel states, `t` differs from `s` in the word `w` and the state `x` of channel `c` alone. -/
structure ChanShows (c : Nat) (x : ChanState) (w : DWord) (s t : State) : Prop where
  word : imgGet t 2 c = w
  words : ∀ i, i ≠ c → imgGet t 2 i = imgGet s 2 i
  chan : chanSt t c = x
  chans : ∀ d, d ≠ c → chanSt t d = chanSt s d

theorem ChanShows.trans {c : Nat} {x y : ChanState} {w v : DWord} {s t u : State} (h : ChanShows c x w s t)
    (k : ChanShows c y v t u) : ChanShows c y v s u :=
  ⟨k.word, fun i hi => (k.words i hi).trans (h.words i hi), k.chan, fun d hd => (k.chans d hd).trans (h.chans d hd)⟩

theorem ciOwn_single {s : State} (h : SingleCi s) (i : Nat) : ciOwn s i = imgGet s 2 i := by
  rw [ciOwn, if_neg h.mode, h.next, List.find?_nil]

theorem ciPut_single {s : State} (h : SingleCi s) (i : Nat) (w : DWord) : ciPut i w s = imgPut 2 i w s := by
  rw [ciPut, if_neg h.mode, if_neg (by simp [h.single])]

/-- Beside the word itself a primary word touches what a record of CHN_CAUSE.bad touches (R362). -/
theorem ciPrimary_recorded {s : State} (h : SingleCi s) (c : Nat) (w : DWord) :
    Recorded (imgPut 2 c w s) (ciPrimary c w s) := by
  rw [ciPrimary, ciPut_single h]
  split
  · exact (incFld_recorded ..).trans (causeS_recorded ..)
  · exact .refl _

theorem imgGet_imgPut_ci {s : State} (h : SingleCi s) (c i : Nat) (w : DWord) :
    imgGet (imgPut 2 c w s) 2 i = if i = c then w else imgGet s 2 i := smGet_put _ _ _ _ _ h.ci

theorem chanSt_setChan {s : State} (h : SingleCi s) (c d : Nat) (x : ChanState) :
    chanSt (setChan c x s) d = if d = c then x else chanSt s d := smGet_put _ _ _ _ _ h.chans

theorem imgGet_ci_congr {s t : State} (h : t.img = s.img) (i : Nat) : imgGet t 2 i = imgGet s 2 i := by
  rw [imgGet, h, imgGet]

theorem chanSt_congr {s t : State} (h : t.chn = s.chn) (d : Nat) : chanSt t d = chanSt s d := by rw [chanSt, h, chanSt]

theorem Recorded.chn {s t : State} (h : Recorded s t) : t.chn = s.chn := by rw [h]

theorem SingleCi.setChan {s : State} (h : SingleCi s) (c : Nat) (x : ChanState) : SingleCi (setChan c x s) :=
  ⟨h.mode, h.single, h.next, h.ci, smPut_wf _ _ _ _ h.chans⟩

theorem SingleCi.recorded {s t : State} (h : SingleCi s) (ht : Recorded s t) : SingleCi t := by
  rw [ht]
  exact ⟨h.mode, h.single, h.next, h.ci, h.chans⟩

theorem SingleCi.scanStep {s : State} (h : SingleCi s) (p : Nat) : SingleCi (scanStep p s) :=
  ⟨h.mode, h.single, h.next, h.ci, h.chans⟩

/-- A channel takes a new state and a new primary word. -/
theorem ciPrimary_setChan_shows {s : State} (h : SingleCi s) (c : Nat) (x : ChanState) (w : DWord) :
    ChanShows c x w s (ciPrimary c w (setChan c x s)) := by
  have hrec := ciPrimary_recorded (h.setChan c x) c w
  generalize ciPrimary c w (setChan c x s) = t at hrec
  have hword (i : Nat) : imgGet t 2 i = if i = c then w else imgGet s 2 i := by
    rw [hrec]
    exact imgGet_imgPut_ci (h.setChan c x) c i w
  have hchan (d : Nat) : chanSt t d = if d = c then x else chanSt s d := by
    rw [hrec]
    exact chanSt_setChan h c d x
  exact ⟨(hword c).trans (if_pos rfl), fun i hi => (hword i).trans (if_neg hi), (hchan c).trans (if_pos rfl),
    fun d hd => (hchan d).trans (if_neg hd)⟩

/-! ### A conversion, good or failed (R339, R345, R346) -/

section
variable {r : Channel} (hm : r.mode = 1 ∨ r.mode = 2 ∨ r.mode = 6)
include hm

/-- A voltage, a current and a resistance have a reading even out of range. -/
theorem convRead_val (pf : Platform) (v1 v2 : Rat) (full exc : Bool) : ∃ x, (convRead pf r v1 v2 full exc).val = some x := by
  obtain h | h | h := hm <;> simp [convRead, h]

theorem convGood_shows {s : State} (h : SingleCi s) (x ohm : Rat) :
    let vals := (x :: (chanSt s r.channel).vals).take (avgCount r)
    ChanShows r.channel { chanSt s r.channel with vals := vals, secs := (ohm :: (chanSt s r.channel).secs).take (avgCount r) }
      (mkWord (f32OfRat (ratMean vals)) .good) s (convGood r x ohm s) := by
  intro vals
  have hrtd : ¬ (3 ≤ r.mode ∧ r.mode ≤ 5) := by omega
  have hgood : convGood r x ohm s = _ := if_neg hrtd
  exact hgood ▸ ciPrimary_setChan_shows h r.channel _ _

/-- The front end is on, so nothing but the flag decides about the hold value (R346, R512). -/
theorem convBad_shows {s : State} (h : SingleCi s) (hb : blind s r = false) :
    ChanShows r.channel { chanSt s r.channel with vals := [], secs := [] }
      (if bit r.flags 0 = true then mkWord r.hold .subst else mkWord (wordVal (imgGet s 2 r.channel)) .bad)
      s (convBad r s) := by
  have hrtd : ¬ (3 ≤ r.mode ∧ r.mode ≤ 5) := by omega
  simp only [convBad, hb, Bool.not_false, Bool.and_true, if_neg hrtd, ciOwn_single h]
  cases bit r.flags 0 <;> exact ciPrimary_setChan_shows h r.channel _ _

end

theorem rabs_eq_abs (x : Rat) : rabs x = |x| := by
  unfold rabs
  split
  · next hneg => exact (abs_of_neg hneg).symm
  · next hpos => exact (abs_of_nonneg (not_lt.1 hpos)).symm

/-- R339: the range of a voltage channel, in mV, fails above 105 % of its limit. -/
theorem convRead_voltage {r : Channel} (h : r.mode = 1) (pf : Platform) (v1 v2 : Rat) (full exc : Bool) :
    let rd := convRead pf r v1 v2 full exc
    let lim : Rat := if r.range = 0 then 2500 else if r.range = 1 then 625 else if r.range = 2 then 625 / 4 else 625 / 16
    rd.val = some v1 ∧ (rd.bad = true ↔ full = true ∨ exc = true ∨ lim * 105 / 100 < |v1| * 1000) := by
  intro rd lim
  have hlim : (if r.range = 0 then 5 / 2 else if r.range = 1 then 625 / 1000 else if r.range = 2 then 15625 / 100000
      else 390625 / 10000000 : Rat) = lim / 1000 := by
    simp only [lim]
    split_ifs <;> norm_num
  have hover : lim / 1000 * 105 / 100 < |v1| ↔ lim * 105 / 100 < |v1| * 1000 := by
    constructor <;> intro hl <;> linarith
  simp only [rd, convRead, if_pos h, hlim, rabs_eq_abs, Bool.or_eq_true, decide_eq_true_eq, hover, or_assoc, and_self]

theorem excReport_recorded (p : Nat) (exc : Bool) (s : State) : Recorded s (excReport p exc s) := by
  unfold excReport
  dsimp only
  split
  · exact (setBit_recorded ..).trans (causeS_recorded ..)
  · exact setBit_recorded ..

/-- What a conversion does before its reading is judged: the excitation's report, the scan, CHN_CRAW and CHN_CVAL. -/
def convNoted (c code : Nat) (x : Rat) (exc : Bool) (s : State) : State :=
  setChan c { chanSt (scanStep (c / 16) (excReport (c / 16) exc s)) c with code := code % 2 ^ 24, last := f32OfRat x }
    (scanStep (c / 16) (excReport (c / 16) exc s))

theorem convNoted_single {s : State} (h : SingleCi s) (c code : Nat) (x : Rat) (exc : Bool) :
    SingleCi (convNoted c code x exc s) :=
  ((h.recorded (excReport_recorded ..)).scanStep _).setChan _ _

theorem convNoted_blind (c code : Nat) (x : Rat) (exc : Bool) (s : State) (r : Channel) :
    blind (convNoted c code x exc s) r = blind s r := by
  have hred : (convNoted c code x exc s).red = s.red := (excReport_recorded (c / 16) exc s).red
  rw [blind, gateOpen_congr hred, blind]

theorem convNoted_shows {s : State} (h : SingleCi s) (c code : Nat) (x : Rat) (exc : Bool) :
    ChanShows c { chanSt s c with code := code % 2 ^ 24, last := f32OfRat x } (imgGet s 2 c) s (convNoted c code x exc s) := by
  have hrec := excReport_recorded (c / 16) exc s
  have himg (i : Nat) : imgGet (convNoted c code x exc s) 2 i = imgGet s 2 i :=
    imgGet_ci_congr (t := convNoted c code x exc s) hrec.img i
  have hold (d : Nat) : chanSt (scanStep (c / 16) (excReport (c / 16) exc s)) d = chanSt s d :=
    (chanSt_congr hrec.chn d :)
  have hchan (d : Nat) := chanSt_setChan ((h.recorded hrec).scanStep (c / 16)) c d
    { chanSt (scanStep (c / 16) (excReport (c / 16) exc s)) c with code := code % 2 ^ 24, last := f32OfRat x }
  simp only [hold] at hchan
  refine ⟨himg c, fun i _ => himg i, ?_, fun d hd => ?_⟩
  · rw [convNoted, hold, hchan, if_pos rfl]
  · rw [convNoted, hold, hchan, if_neg hd]

theorem execConversionDone_bad {s : State} {c code : Nat} {r : Channel} {v1 v2 x : Rat} {full exc : Bool}
    (hr : (theTt s).chan c = some r) (hon : domOn s 15 = true) (hm : modeSlots r.mode ≠ 0) (hn : scanNext s (c / 16) = some c)
    (hx : (convRead ((theTt s).platform (c / 16)) r v1 v2 full exc).val = some x)
    (hbad : (convRead ((theTt s).platform (c / 16)) r v1 v2 full exc).bad = true) :
    exec (.conversionDone c code v1 v2 full exc) s = .next (convBad r (convNoted c code x exc s)) := by
  change execConversionDone c code v1 v2 full exc s = _
  simp only [execConversionDone, hr, hx, hbad, Bool.true_or]
  exact if_neg (by simp [hon, hm, hn])

end Sys2Proof.Machine

/-- Settles O42: a conversion is noted, then judged: `convGood` or `convBad` sets one channel's state and primary word. -/
theorem conversions : Obligations.Conversions := by
  intro c code v full exc r s hr hm _ hred hmode hon hb hn hnext hci hch
  obtain rfl := chan_channel hr
  have hs : SingleCi s := ⟨hmode, by simp [paired, hred], hnext, hci, hch⟩
  have hslots : modeSlots r.mode ≠ 0 := by obtain h | h | h := hm <;> simp [modeSlots, h]
  intro rd x lim
  have hvolt := fun h => convRead_voltage (r := r) h ((theTt s).platform (r.channel / 16)) v 0 full exc
  obtain ⟨y, hy⟩ := convRead_val hm ((theTt s).platform (r.channel / 16)) v 0 full exc
  have hnoted := convNoted_shows hs r.channel code y exc
  have hu := convNoted_single hs r.channel code y exc
  cases hbad : rd.bad with
  | false =>
    have hshows := hnoted.trans (convGood_shows hm hu y rd.sec)
    rw [hnoted.chan] at hshows
    refine ⟨_, execConversionDone_good hr hb hon hslots hn hy hbad, hshows.words, hshows.chans, fun _ => ?_,
      fun h => absurd h (by simp), hbad ▸ hvolt⟩
    have hval : rd.val.getD 0 = y := by rw [hy, Option.getD_some]
    simp only [hval]
    exact ⟨hshows.word, congrArg ChanState.vals hshows.chan⟩
  | true =>
    have hshows := hnoted.trans (convBad_shows hm hu ((convNoted_blind ..).trans hb))
    rw [hnoted.word] at hshows
    exact ⟨_, execConversionDone_bad hr hon hslots hn hy hbad, hshows.words, hshows.chans, fun h => absurd h (by simp),
      fun _ => ⟨congrArg ChanState.vals hshows.chan, hshows.word⟩, hbad ▸ hvolt⟩
end


section
/-! ## Pulse counters, PWM periods and test pulses (R355, R360, R374, R396) -/

open Sys2Proof Sys2Proof.Machine
namespace Sys2Proof.Machine

/-! ### Counted edges (R355, R374) -/

theorem execCountedEdge_quiet {n : Nat} {s u : State} (h : pulseEdge n s = (u, false)) :
    exec (.countedEdge n) s = .next u := by
  change execCountedEdge n s = _
  simp only [execCountedEdge, h]
  exact if_neg fun hc => Bool.false_ne_true hc.1

/-- Without headways there is no open interval that an overrate could mark. -/
theorem execCountedEdge_halted {n : Nat} {b : Bool} {s u : State} (h : pulseEdge n s = (u, b))
    (hm : hwStates s.dev.mode = false) : exec (.countedEdge n) s = .next u := by
  change execCountedEdge n s = _
  simp only [execCountedEdge, h, hm]
  exact if_neg fun hc => Bool.false_ne_true hc.2

theorem pulseEdge_unseen {n : Nat} {s : State}
    (h : (pcGet s n).configured = false ∨ chanBlind s (pcGet s n).channel = true) : pulseEdge n s = (s, false) :=
  if_pos (by simpa using h)

section
variable {n : Nat} {s : State} (hc : (pcGet s n).configured = true) (hb : chanBlind s (pcGet s n).channel = false)
include hc hb

theorem pulseEdge_counts (hw : (pcGet s n).winOpen = false) : pulseEdge n s =
    (pcSet n { pcGet s n with
      winOpen := true, count := ((pcGet s n).count + 1) % 2 ^ 64, hwCount := (pcGet s n).hwCount + 1 } s, false) := by
  simp [pulseEdge, hc, hb, hw]

theorem pulseEdge_overrates (hw : (pcGet s n).winOpen = true) : pulseEdge n s =
    (causeS Reg.CHN_CAUSE 1 (pcGet s n).channel (setBit (Reg.CHN_PC_STAT + 0x10 * n) 16 true
      (incFld (Reg.CHN_PC_STAT + 0x10 * n) 15 0 (pcSet n { pcGet s n with hwOver := true } s))), true) := by
  simp [pulseEdge, hc, hb, hw]

end

theorem execFilterWindowEnd_closes {n : Nat} {s : State} (hw : (pcGet s n).winOpen = true) :
    exec (.filterWindowEnd n) s = .next (pcSet n { pcGet s n with winOpen := false } s) := if_pos hw

/-! ### PWM periods and test pulses (R360, R396) -/

theorem chnApplied_pwm {r : Channel} (hm : r.mode = 19) (v : Word) : chnApplied r v = max 0 (min 1 (f32RatD v)) := by
  rw [chnApplied, hm]
  rfl

section
variable {s : State} {c : Nat} {r : Channel} (hr : (theTt s).chan c = some r)
include hr

theorem execTestPulse_rested (hon : domOn s 15 = true) (hm : r.mode = 20) (hrun : s.dev.mode = .run)
    (hq : 0 < (chanSt s c).tpQueue)
    (hrest : ∀ t, (chanSt s c).pulseTick = some t → 2 * r.p1 * 1024 ≤ (s.pwr.tick - t) * 1000) : exec (.testPulse c) s =
      .next (setChan c { chanSt s c with pulseTick := some s.pwr.tick, tpQueue := (chanSt s c).tpQueue - 1 } s) := by
  cases hp : (chanSt s c).pulseTick with
  | none => exact execTestPulse_first hr hon hm hrun hq hp
  | some t =>
    change execTestPulse c s = _
    simp only [execTestPulse, hr, hp]
    exact if_pos ⟨hon, hm, hrun, hq, decide_eq_true (hrest t hp)⟩

theorem execTestPulse_empty (hq : (chanSt s c).tpQueue = 0) : exec (.testPulse c) s = .next s := by
  change execTestPulse c s = _
  simp only [execTestPulse, hr]
  exact if_neg fun h => by omega

end

end Sys2Proof.Machine

/-- Settles O44: an edge is unseen, counted or an overrate by `pulseEdge`; a pulse leaves its queue when it has rested. -/
theorem pulsesAndPwm : Obligations.PulsesAndPwm := by
  intro n c s x
  refine ⟨fun hc hb hw => execCountedEdge_quiet (pulseEdge_counts hc hb hw),
    fun hc hb hw hm => execCountedEdge_halted (pulseEdge_overrates hc hb hw) (by rw [hm]; rfl),
    fun h => execCountedEdge_quiet (pulseEdge_unseen h), execFilterWindowEnd_closes, fun r hr _ hon => ⟨fun hm v hv => ?_,
      fun hm hrun hq hrest => execTestPulse_rested hr hon hm hrun hq hrest, fun _ hq => execTestPulse_empty hr hq⟩⟩
  rw [execPwmPeriodStart_takes hr hon hm hv, chnApplied_pwm hm]
end


section
/-! ## Registers of a meter (R373) -/

open Sys2Proof Sys2Proof.Machine
namespace Sys2Proof.Machine

section
variable {i : Nat} {x : Rat} {m : MeterSt}

theorem addQty_units : (addQty i x m).2 = ⌊nth m.res i 0 + x⌋₊ :=
  Int.floor_toNat (nth m.res i 0 + x)

theorem addQty_reg (hi : i < m.regs.length) :
    nth (addQty i x m).1.regs i 0 = (nth m.regs i 0 + (addQty i x m).2) % 2 ^ 64 := nth_setNth_eq _ _ _ _ hi

theorem addQty_residue (hi : i < m.res.length) : nth (addQty i x m).1.res i 0 = nth m.res i 0 + x - (addQty i x m).2 :=
  nth_setNth_eq _ _ _ _ hi

theorem addQty_others {j : Nat} (hj : j ≠ i) :
    nth (addQty i x m).1.regs j 0 = nth m.regs j 0 ∧ nth (addQty i x m).1.res j 0 = nth m.res j 0 :=
  ⟨nth_setNth_ne _ _ _ _ _ hj.symm, nth_setNth_ne _ _ _ _ _ hj.symm⟩

end

end Sys2Proof.Machine

/-- Settles O45: the whole units are the floor of residue and quantity, and the residue keeps the rest. -/
theorem registersAccumulate : Obligations.RegistersAccumulate := by
  intro i x m hi hregs hres h0 p
  have hrest : nth p.1.res i 0 = nth m.res i 0 + x - p.2 := addQty_residue (by omega)
  have hlow : (p.2 : Rat) ≤ nth m.res i 0 + x := addQty_units ▸ Nat.floor_le h0
  have hhigh : nth m.res i 0 + x < p.2 + 1 := addQty_units ▸ Nat.lt_floor_add_one _
  refine ⟨?_, ?_, ?_, addQty_reg (by omega), fun j => addQty_others⟩
  · rw [hrest, add_sub_cancel]
  · rw [hrest]
    exact sub_nonneg.2 hlow
  · rw [hrest]
    exact sub_lt_iff_lt_add'.2 hhigh

end


section
/-! ## Metering intervals, samples and saves (R370, R377, R379, R380, R384) -/

open Sys2Proof Sys2Proof.Machine
namespace Sys2Proof.Machine

/-! ### The meters' states -/

theorem Recorded.mtr {s t : State} (h : Recorded s t) : t.mtr = s.mtr := by rw [h]

theorem meterGet_congr {s t : State} (h : t.mtr = s.mtr) (k : Nat) : meterGet t k = meterGet s k := by
  rw [meterGet, h, meterGet]

theorem meterGet_meterSet {s : State} (h : smWf (fun _ => ({} : MeterSt)) s.mtr.meters = true) (m k : Nat) (x : MeterSt) :
    meterGet (meterSet m x s) k = if k = m then x else meterGet s k := smGet_put _ _ _ _ _ h

/-! ### Intervals (R379, R380, R382) -/

/-- Meter `m` once its interval is closed at a boundary: the record heads the ring, the next interval starts at `start`. -/
def ivlClosed (m code start : Nat) (x : MeterSt) : MeterSt :=
  ivlOpen start 0 { x with ring := (ivlRecord m code x :: x.ring).take 96 }

/-- A close at a boundary adds no flag to the interval; beside its meter it only records a suspect interval (MTR_CAUSE). -/
theorem ivlClose_recorded {m : Nat} (code start : Nat) {s : State} (hv : s.mgt.cal.valid = true)
    (hx : (meterGet s m).configured = true) :
    Recorded (meterSet m (ivlClosed m code start (meterGet s m)) s) (ivlClose m code 0 start 0 s) := by
  rw [ivlClose, if_neg (by simp [hv, hx])]
  simp only [Nat.or_zero, Nat.zero_and, ne_eq, not_true_eq_false, if_false]
  split
  · exact (incFld_recorded ..).trans (causeS_recorded ..)
  · exact .refl _

theorem ivlDue_closes {m : Nat} {r : Meter} {s : State} (hv : s.mgt.cal.valid = true) (hx : (meterGet s m).configured = true)
    (hd : ((meterGet s m).ivlStart / ivlSeconds r.interval + 1) * ivlSeconds r.interval ≤ s.mgt.cal.seconds) :
    ivlDue m r s = ivlClose m r.interval 0 (s.mgt.cal.seconds / ivlSeconds r.interval * ivlSeconds r.interval) 0 s :=
  if_pos ⟨hv, hx, hd⟩

/-- The meters after an interval that falls due: `m` has closed it, the others are as before. -/
theorem ivlDue_meters {m : Nat} {r : Meter} {s : State} (hv : s.mgt.cal.valid = true) (hx : (meterGet s m).configured = true)
    (hd : ((meterGet s m).ivlStart / ivlSeconds r.interval + 1) * ivlSeconds r.interval ≤ s.mgt.cal.seconds)
    (hwf : smWf (fun _ => ({} : MeterSt)) s.mtr.meters = true) (k : Nat) : meterGet (ivlDue m r s) k = if k = m then
      ivlClosed m r.interval (s.mgt.cal.seconds / ivlSeconds r.interval * ivlSeconds r.interval) (meterGet s m)
      else meterGet s k := by
  rw [ivlDue_closes hv hx hd, meterGet_congr (ivlClose_recorded _ _ hv hx).mtr, meterGet_meterSet hwf]

/-! ### Samples and windows (R370, R375, R507) -/

section
variable {s : State}

theorem computes_aligning (hm : s.dev.mode = .standby) (ha : s.red.aligning = true) : computes s = false := by
  simp [computes, hm, ha]

theorem execThermalSample_waits (h : s.mtr.sampleTick = some s.pwr.tick ∨ domOn s 16 = false) :
    exec .thermalSample s = .next s := by
  refine if_neg fun ⟨hon, _, _, _, hfirst⟩ => ?_
  cases h with
  | inl htaken => exact hfirst htaken
  | inr hoff => exact Bool.false_ne_true (hoff.symm.trans hon)

theorem execThermalSample_aligning (hm : s.dev.mode = .standby) (ha : s.red.aligning = true) :
    exec .thermalSample s = .next s := by
  refine if_neg fun ⟨_, _, hc, _⟩ => ?_
  rw [computes_aligning hm ha] at hc
  exact hc.elim (· hm) nofun

theorem execWaveformWindow_aligning (wins : List WaveIn) (b : Bool) (hm : s.dev.mode = .standby) (ha : s.red.aligning = true) :
    exec (.waveformWindow wins b) s = .next s := by
  refine if_neg fun ⟨_, h⟩ => ?_
  rw [ha] at h
  exact h.elim (· hm) nofun

/-- A window is taken in every headway state; what an alignment stops it only stops in STANDBY. -/
theorem execWaveformWindow_takes (wins : List WaveIn) (b : Bool) (h15 : domOn s 15 = true) (h16 : domOn s 16 = true)
    (hm : hwStates s.dev.mode = true) (ha : s.dev.mode = .standby → s.red.aligning = false) :
    exec (.waveformWindow wins b) s = .next (forMeters (elecOne wins b) (forL wins s waveWords)) := by
  have hopen : s.dev.mode ≠ .standby ∨ (!s.red.aligning) = true :=
    or_iff_not_imp_left.2 fun h => by rw [ha (not_not.1 h)]; rfl
  change execWaveformWindow wins b s = _
  rw [execWaveformWindow, if_pos ⟨hm, hopen⟩]
  simp only [h15, h16, if_true]

/-! ### Saves (R384) -/

theorem execTotalsSave_due (h : s.dev.mode ≠ .hold ∨ s.mtr.started = false) :
    exec .totalsSave s = .next { s with mtr := { s.mtr with saveDue := some 1 } } := by
  refine next_if_neg _ _ fun ⟨hm, hs⟩ => ?_
  rw [hs] at h
  exact h.elim (· hm) nofun

theorem execTotalsSave_at_once (hm : s.dev.mode = .hold) (hs : s.mtr.started = true) :
    exec .totalsSave s = .next (totalsRequest 1 .totals s) := next_if_pos _ _ ⟨hm, hs⟩

end

end Sys2Proof.Machine
end


section
/-! ## The midnight archive, and O46 (R390, R391) -/

open Sys2Proof Sys2Proof.Machine
namespace Sys2Proof.Machine

/-! ### The die beside what is written -/

/-- Writing consecutive keys leaves every run of keys outside them. -/
theorem smGetList_putList_of_outside {α : Type} [DecidableEq α] (d : Nat → α) (m : List (Nat × α)) (k j n : Nat)
    (vs : List α) (hm : smWf d m = true) (h : j + n ≤ k ∨ k + vs.length ≤ j) :
    smGetList d (smPutList d m k vs) j n = smGetList d m j n := by
  induction n generalizing j with
  | zero => rfl
  | succ n ih => rw [smGetList, smGetList, smGet_putList_of_outside d m k j vs hm (by omega), ih (j + 1) (by omega)]

theorem archPos_aligned (src day : Nat) : 32 ∣ archPos src day := by
  unfold archPos
  split <;> omega

/-- Two archive records lie at one place or do not meet. -/
theorem archPos_apart {a b day : Nat} (h : archPos a day ≠ archPos b day) :
    archPos b day + 32 ≤ archPos a day ∨ archPos a day + 32 ≤ archPos b day := by
  have ha := archPos_aligned a day
  have hb := archPos_aligned b day
  omega

/-! ### The records of a run -/

/-- Record `p` is of the archive's size and is written when its turn comes. -/
def ArchWrites (fails : List Nat) (p : Nat × List Byte) : Prop := p.2.length = 32 ∧ p.1 ∉ fails

section
variable {day : Nat} {fails : List Nat} {p : Nat × List Byte}

theorem archWrite_eq (h : p.1 ∉ fails) (s : State) : archWrite day p fails s =
    { nvWrite (archPos p.1 day) p.2 s with red := (archWrite day p fails s).red } := by
  have hw : archWrite day p fails s = redStream (.record (archPos p.1 day) p.2) (nvWrite (archPos p.1 day) p.2 s) :=
    if_neg (mt List.contains_iff_mem.1 h)
  rw [hw]
  exact redStream_rest ..

theorem archWrite_nv (h : p.1 ∉ fails) (s : State) :
    (archWrite day p fails s).nv = (nvWrite (archPos p.1 day) p.2 s).nv := by rw [archWrite_eq h]

theorem archWrite_wf (h : p.1 ∉ fails) {s : State} (hw : NvWf s) : NvWf (archWrite day p fails s) := by
  rw [NvWf, archWrite_nv h]
  exact nvWrite_wf _ _ _ hw

theorem archWrite_reads (h : ArchWrites fails p) {s : State} (hw : NvWf s) :
    nvRead (archWrite day p fails s) (archPos p.1 day) 32 = p.2 := by
  obtain ⟨hlen, hok⟩ := h
  rw [nvRead, archWrite_nv hok, ← hlen]
  exact nvRead_nvWrite _ _ _ hw

theorem archWrite_keeps (h : ArchWrites fails p) {src : Nat} (hp : archPos p.1 day ≠ archPos src day) {s : State}
    (hw : NvWf s) : nvRead (archWrite day p fails s) (archPos src day) 32 = nvRead s (archPos src day) 32 := by
  obtain ⟨hlen, hok⟩ := h
  rw [nvRead, archWrite_nv hok]
  exact smGetList_putList_of_outside _ _ _ _ _ _ hw (by rw [hlen]; exact archPos_apart hp)

/-- The records of `recs` are written one after the other. -/
def archWritten (day : Nat) (fails : List Nat) (recs : List (Nat × List Byte)) (s : State) : State :=
  forL recs s (fun x s => archWrite day x fails s)

theorem archWritten_cons (p : Nat × List Byte) (recs : List (Nat × List Byte)) (s : State) :
    archWritten day fails (p :: recs) s = archWritten day fails recs (archWrite day p fails s) := rfl

theorem archWritten_regs {recs : List (Nat × List Byte)} (h : ∀ p ∈ recs, ArchWrites fails p) (s : State) :
    (archWritten day fails recs s).regs = s.regs := by
  induction recs generalizing s with
  | nil => rfl
  | cons p recs ih =>
    obtain ⟨hp, hrecs⟩ := List.forall_mem_cons.1 h
    rw [archWritten_cons, ih hrecs, archWrite_eq hp.2]
    rfl

theorem archWritten_keeps {recs : List (Nat × List Byte)} {src : Nat} (h : ∀ p ∈ recs, ArchWrites fails p)
    (hsrc : ∀ p ∈ recs, archPos p.1 day ≠ archPos src day) {s : State} (hw : NvWf s) :
    nvRead (archWritten day fails recs s) (archPos src day) 32 = nvRead s (archPos src day) 32 := by
  induction recs generalizing s with
  | nil => rfl
  | cons p recs ih =>
    obtain ⟨hp, hrecs⟩ := List.forall_mem_cons.1 h
    obtain ⟨hpos, hpos'⟩ := List.forall_mem_cons.1 hsrc
    rw [archWritten_cons, ih hrecs hpos' (archWrite_wf hp.2 hw), archWrite_keeps hp hpos hw]

/-- Every record of a run is at its place: what comes after the last record for a place lies elsewhere. -/
theorem archWritten_reads {recs : List (Nat × List Byte)} (h : ∀ p ∈ recs, ArchWrites fails p)
    (hpos : ∀ p ∈ recs, ∀ q ∈ recs, q ≠ p → archPos q.1 day ≠ archPos p.1 day) {s : State} (hw : NvWf s) :
    ∀ p ∈ recs, nvRead (archWritten day fails recs s) (archPos p.1 day) 32 = p.2 := by
  induction recs generalizing s with
  | nil => nofun
  | cons q recs ih =>
    obtain ⟨hq, hrecs⟩ := List.forall_mem_cons.1 h
    have htail := ih hrecs (fun p hp x hx => hpos p (.tail _ hp) x (.tail _ hx)) (archWrite_wf (day := day) hq.2 hw)
    intro p hp
    rw [archWritten_cons]
    by_cases hlater : p ∈ recs
    · exact htail p hlater
    · obtain rfl := (List.mem_cons.1 hp).resolve_right hlater
      rw [archWritten_keeps hrecs (fun x hx => hpos p hp x (.tail _ hx) (ne_of_mem_of_not_mem hx hlater))
        (archWrite_wf hq.2 hw), archWrite_reads hq hw]

/-- The state in which a whole run ends: MTR_ARCH shows its day. -/
def archEnded (day : Nat) (fails : List Nat) (recs : List (Nat × List Byte)) (s : State) : State :=
  let s1 := archWritten day fails recs s
  setFld Reg.MTR_ARCH 15 0 day { s1 with mtr := { s1.mtr with archDue := none } }

theorem execMidnightArchive_whole {recs : List (Nat × List Byte)} {s : State} (hd : s.mtr.archDue = some (day, recs))
    (h : ∀ p ∈ recs, ArchWrites fails p) :
    exec (.midnightArchive none fails) s = .next (archEnded day fails recs s) := by
  have hany : ¬ recs.any (fun x => fails.contains x.1) = true := by
    rw [List.any_eq_true]
    rintro ⟨p, hp, hf⟩
    exact (h p hp).2 (List.contains_iff_mem.1 hf)
  change execMidnightArchive none fails s = _
  simp only [execMidnightArchive, hd, if_neg hany]
  rfl

theorem execMidnightArchive_cut {recs : List (Nat × List Byte)} {n : Nat} {s : State} (hd : s.mtr.archDue = some (day, recs))
    (h : recs.take n = []) : exec (.midnightArchive (some n) fails) s =
      .next { s with mtr := { s.mtr with archDue := some (day, recs.drop n) } } := by
  change execMidnightArchive (some n) fails s = _
  simp only [execMidnightArchive, hd, h]
  rfl

end

end Sys2Proof.Machine

/-- Settles O46: the close is `ivlClosed` of one meter, each other row its guard's branch, the run its records one by one. -/
theorem meteringCommands : Obligations.MeteringCommands := by
  intro m wins secondEnd fails s x counting
  refine ⟨fun r hr hon hm hv hx hd hwf => ?_, execTotalsSave_due, execTotalsSave_at_once, fun hm hp => if_pos ⟨hm, hp⟩,
    execThermalSample_samples, execThermalSample_waits, execWaveformWindow_takes wins secondEnd,
    fun hm ha => ⟨execWaveformWindow_aligning wins secondEnd hm ha, execThermalSample_aligning hm ha⟩,
    fun day recs hd hnv hregs hrecs => ?_, fun day recs n => execMidnightArchive_cut⟩
  · have hmeters := ivlDue_meters hv hx hd hwf
    have hclosed := (hmeters m).trans (if_pos rfl)
    refine ⟨_, execIntervalClose_closes hr hon hm, ?_, ?_, ?_, ?_, ?_, fun k hk => (hmeters k).trans (if_neg hk)⟩ <;>
      rw [hclosed] <;> rfl
  · have hwrites : ∀ p ∈ recs, ArchWrites fails p := fun p hp => ⟨(hrecs p hp).1, (hrecs p hp).2.1⟩
    refine ⟨_, execMidnightArchive_whole hd hwrites, rfl, getFld_setFld _ _ _ _ ?_ (by decide) (by decide),
      archWritten_reads hwrites (fun p hp => (hrecs p hp).2.2) hnv⟩
    exact (congrArg (smWf regReset) (archWritten_regs hwrites s)).trans hregs

end


section
/-! ## The mailbox: its protocol and its readers (R390, R392, R527, R528, R530, R538, R568, R595, R596) -/

open Sys2Proof Sys2Proof.Machine
namespace Sys2Proof.Machine

/-! ### A reply (R595 step 5) -/

theorem setDom_rest (d : Nat) (x : Domain) (s : State) : setDom d x s = { s with pwr := (setDom d x s).pwr } := by
  unfold setDom
  split <;> rfl

theorem domRequest_rest (d : Nat) (u : DomUser) (b : Bool) (s : State) :
    domRequest d u b s = { s with pwr := (domRequest d u b s).pwr } := by
  unfold domRequest setDom
  dsimp only
  split
  · by_cases hd : d = 0 <;> simp only [hd, if_true, if_false] <;> rfl
  · rfl

/-- The mailbox once its command is answered. -/
def mbReplied (res : Nat) (data : List Byte) (h : HifState) : HifState :=
  { h with
    mbState := 2, mbResult := res, mbReply := data.length, mbWait := false
    repBuf := smPutList (fun _ => 0) [] 0 data }

/-- The reply is there and its domain's demand is gone; HIF_CAUSE does not show it yet. -/
def mbAnswered (res : Nat) (data : List Byte) (s : State) : State :=
  domRequest 1 .mailbox false { s with hif := mbReplied res (data.take 4096) s.hif }

theorem mbAnswered_rest (res : Nat) (data : List Byte) (s : State) : mbAnswered res data s =
    { s with pwr := (mbAnswered res data s).pwr, hif := mbReplied res (data.take 4096) s.hif } := domRequest_rest ..

/-- Beside the mailbox a reply touches its domain's demand and what a record of HIF_CAUSE touches. -/
theorem mbReply_rest (res : Nat) (data : List Byte) (s : State) : mbReply res data s =
    { s with
      regs := (mbReply res data s).regs
      nv := (mbReply res data s).nv
      mgt := (mbReply res data s).mgt
      pwr := (mbAnswered res data s).pwr
      hif := mbReplied res (data.take 4096) s.hif } := by
  have h : Recorded (mbAnswered res data s) (mbReply res data s) := cause_recorded ..
  rw [Recorded, mbAnswered_rest] at h
  exact h

theorem mbReply_hif {data : List Byte} (hn : data.length ≤ 4096) (res : Nat) (s : State) :
    (mbReply res data s).hif = mbReplied res data s.hif := by
  rw [mbReply_rest, List.take_of_length_le hn]

/-- The bytes of a reply are in the reply buffer. -/
theorem mbReplied_bytes (res : Nat) (data : List Byte) (h : HifState) :
    smGetList (fun _ => 0#8) (mbReplied res data h).repBuf 0 data.length = data := smGetList_putList _ _ _ _ rfl

/-! ### The protocol of a command (R527, R528, R568, R595, R596) -/

/-- The row `i` runs command `code` as the mailbox protocol has it: only when the mailbox is busy with that command and it
does not wait, never in BOOT, and a key command only when no entry is being written. -/
structure MbRow (i : Instr) (code : Nat) (s : State) : Prop where
  idle : s.hif.mbState ≠ 1 ∨ s.hif.mbWait = true ∨ getFld s Reg.HIF_MB_CMD 7 0 ≠ code → exec i s = .next s
  boot : s.hif.mbState = 1 → s.hif.mbWait = false → getFld s Reg.HIF_MB_CMD 7 0 = code → s.dev.mode = .boot →
    exec i s = .next (mbReply 2 [] s)
  busy : 0x40 ≤ code → s.hif.mbState = 1 → s.hif.mbWait = false → getFld s Reg.HIF_MB_CMD 7 0 = code →
    s.dev.mode = .hold → s.mgt.recovery = false → keyBusy s = true → exec i s = .next (mbReply 1 [] s)

section
variable {i : Instr} {code : Nat} {ok : State → Bool} {f : List Byte → State → State} {s : State}

theorem mbIs_iff : mbIs code s = true ↔
    s.hif.mbState = 1 ∧ getFld s Reg.HIF_MB_CMD 7 0 = code ∧ s.hif.mbWait = false := by
  simp [mbIs, mbCode, and_assoc]

theorem mbDo_idle (h : s.hif.mbState ≠ 1 ∨ s.hif.mbWait = true ∨ getFld s Reg.HIF_MB_CMD 7 0 ≠ code) :
    mbDo code ok f s = .next s := by
  refine if_neg fun his => ?_
  obtain ⟨hst, hc, hw⟩ := mbIs_iff.1 his
  simp [hst, hc, hw] at h

theorem mbDo_refuses (his : mbIs code s = true) (hok : ok s = false) : mbDo code ok f s = .next (mbReply 2 [] s) := by
  rw [mbDo, if_pos his, hok, if_neg Bool.false_ne_true]

/-- A command that is no key command, whose condition shuts BOOT out. -/
theorem MbRow.of_mbDo (hx : exec i s = mbDo code ok f s) (hboot : s.dev.mode = .boot → ok s = false)
    (hcode : code < 0x40 := by decide) : MbRow i code s where
  idle h := hx.trans (mbDo_idle h)
  boot hst hw hc hm := hx.trans (mbDo_refuses (mbIs_iff.2 ⟨hst, hc, hw⟩) (hboot hm))
  busy h := absurd hcode (by omega)

/-- A key command, whose condition shuts BOOT out and holds in HOLD. -/
theorem MbRow.of_keyDo (hx : exec i s = keyDo code ok f s) (hboot : s.dev.mode = .boot → ok s = false)
    (hhold : s.dev.mode = .hold → s.mgt.recovery = false → ok s = true) : MbRow i code s where
  idle h := hx.trans (mbDo_idle h)
  boot hst hw hc hm := hx.trans (mbDo_refuses (mbIs_iff.2 ⟨hst, hc, hw⟩) (hboot hm))
  busy _ hst hw hc hm hr hk := by
    rw [hx, keyDo, mbDo, if_pos (mbIs_iff.2 ⟨hst, hc, hw⟩), if_pos (hhold hm hr), if_pos hk]

end

/-! ### What the commands' conditions say of BOOT and HOLD -/

section
variable {s : State}

theorem okNotBoot_boot (h : s.dev.mode = .boot) : okNotBoot s = false := by simp [okNotBoot, h]
theorem okRead_boot (h : s.dev.mode = .boot) : okRead s = false := by simp [okRead, okNotBoot_boot h]
theorem okTtWriter_boot (h : s.dev.mode = .boot) : okTtWriter s = false := by simp [okTtWriter, okRead_boot h]
theorem okTtOpen_boot (h : s.dev.mode = .boot) : okTtOpen s = false := by simp [okTtOpen, okRead_boot h]
theorem okFw_boot (h : s.dev.mode = .boot) : okFw s = false := by simp [okFw, h]
theorem okFwOpen_boot (h : s.dev.mode = .boot) : okFwOpen s = false := by simp [okFwOpen, okFw_boot h]
theorem okKeyChange_boot (h : s.dev.mode = .boot) : okKeyChange s = false := by simp [okKeyChange, okNotBoot_boot h]

theorem okNotBoot_iff : okNotBoot s = true ↔ s.dev.mode ≠ .boot ∧ s.mgt.recovery = false := by simp [okNotBoot]

theorem okNotBoot_hold (h : s.dev.mode = .hold) (hr : s.mgt.recovery = false) : okNotBoot s = true :=
  okNotBoot_iff.2 ⟨by simp [h], hr⟩

theorem okKeyChange_hold (h : s.dev.mode = .hold) (hr : s.mgt.recovery = false) : okKeyChange s = true := by
  simp [okKeyChange, okNotBoot_hold h hr, h]

/-! ### Key commands by their condition (R568) -/

variable {i : Instr} {code : Nat} {f : List Byte → State → State}

theorem MbRow.of_notBoot (hx : exec i s = keyDo code okNotBoot f s) : MbRow i code s :=
  .of_keyDo hx okNotBoot_boot okNotBoot_hold

theorem MbRow.of_keyChange (hx : exec i s = keyDo code okKeyChange f s) : MbRow i code s :=
  .of_keyDo hx okKeyChange_boot okKeyChange_hold

/-- EXPORT and ATTEST, which outside HOLD need a further condition `c`. -/
theorem MbRow.of_inHold {c : State → Bool}
    (hx : exec i s = keyDo code (fun s => okNotBoot s && (s.dev.mode == .hold || c s)) f s) : MbRow i code s :=
  .of_keyDo hx (fun h => by simp [okNotBoot_boot h]) fun h hr => by simp [okNotBoot_hold h hr, h]

end

/-! ### Readers of records (R390, R392, R530) -/

theorem mbDo_of_busy {code : Nat} {r : List Byte} {s : State} (h : MbBusy code r s) {ok : State → Bool}
    (f : List Byte → State → State) (hok : ok s = true) : mbDo code ok f s = .next (f r s) := by
  rw [mbDo, if_pos (mbIs_iff.2 ⟨h.busy, h.code, h.begins⟩), if_pos hok, h.request]

theorem countOk_iff {n : Nat} : countOk n = true ↔ 1 ≤ n ∧ n ≤ 127 := by simp [countOk]

theorem crcRecord_iff {b : List Byte} : crcRecord b = true ↔ u32 b 0x1C = (crc32c (b.take 0x1C)).toNat := beq_iff_eq

theorem archSourceOk_iff {x : Nat} : archSourceOk x = true ↔ x < 2048 ∨ (0x8000 ≤ x ∧ x < 0x8048) := by
  simp [archSourceOk]

/-- The log record of number `k`, where the die holds it whole (R392). -/
def logRecord (s : State) (k : Nat) : Option (List Byte) :=
  let b := nvRead s (logPos k) 32
  if k < 65536 ∧ u32 b 0x1C = (crc32c (b.take 0x1C)).toNat ∧ u32 b 0 = k then some b else none

/-- The archive record of a source and a day, where the die holds it whole (R390). -/
def dayRecord (s : State) (src d : Nat) : Option (List Byte) :=
  let b := nvRead s (archPos src d) 32
  if u32 b 0x1C = (crc32c (b.take 0x1C)).toNat ∧ u16 b 0 = src ∧ u16 b 2 = d then some b else none

section
variable {r : List Byte} {s : State}

theorem evrReadDo_eq (hl : r.length = 7) (hn : 1 ≤ u8 r 6) (hn' : u8 r 6 ≤ 127) :
    evrReadDo r s = recordReply ((List.range (u8 r 6)).map (fun i => evrRecord s (leNat (r.take 6) + i))) s :=
  if_neg (by simp [hl, countOk_iff.2 ⟨hn, hn'⟩])

theorem logReadDo_eq (hl : r.length = 5) (hn : 1 ≤ u8 r 4) (hn' : u8 r 4 ≤ 127) (hk : u32 r 0 < 65536) :
    logReadDo r s = recordReply ((List.range (u8 r 4)).map (fun i => logRecord s (u32 r 0 + i))) s := by
  refine (if_neg (by simp [hl, countOk_iff.2 ⟨hn, hn'⟩, hk])).trans ?_
  simp only [crcRecord_iff, logRecord]

theorem archReadDo_eq (hl : r.length = 5) (hn : 1 ≤ u8 r 4) (hn' : u8 r 4 ≤ 127)
    (hsrc : u16 r 0 < 2048 ∨ (0x8000 ≤ u16 r 0 ∧ u16 r 0 < 0x8048)) :
    archReadDo r s = recordReply ((List.range (u8 r 4)).map (fun i => dayRecord s (u16 r 0) (u16 r 2 + i))) s := by
  refine (if_neg (by simp [hl, countOk_iff.2 ⟨hn, hn'⟩, archSourceOk_iff.2 hsrc])).trans ?_
  simp only [crcRecord_iff, dayRecord]

theorem info_exec (h : MbBusy 0x01 r s) : exec .info s = .next (mbReply 0 (infoBytes s) s) :=
  mbDo_of_busy h (ok := fun s => s.dev.mode != .boot) infoDo (by simp [h.state])

theorem evrRead_exec (h : MbBusy 0x30 r s) (hr : s.mgt.recovery = false) : exec .evrRead s = .next (evrReadDo r s) :=
  mbDo_of_busy h evrReadDo (okNotBoot_iff.2 ⟨h.state, hr⟩)

theorem evrFlush_exec (h : MbTakes 0x31 r s) : exec .evrFlush s = .next (mbReply 0 [] (evFlush false s)) :=
  mbDo_of_takes h evrFlushDo (okRead_of_takes h)

theorem logRead_exec (h : MbTakes 0x32 r s) : exec .logRead s = .next (logReadDo r s) :=
  mbDo_of_takes h logReadDo (okRead_of_takes h)

theorem archRead_exec (h : MbTakes 0x33 r s) : exec .archRead s = .next (archReadDo r s) :=
  mbDo_of_takes h archReadDo (okRead_of_takes h)

theorem jnlRead_exec (h : MbTakes 0x34 r s) :
    exec .jnlRead s = .next (slotReader (fun k => 0x02800000 + k * 0x100000) 0x100000 16 r s) :=
  mbDo_of_takes h _ (okRead_of_takes h)

end

end Sys2Proof.Machine

/-- Settles O37: each row is `mbDo`, with `keyDo` inside for the key store; the readers answer what their request names. -/
theorem mailboxCommands : Obligations.MailboxCommands := by
  refine ⟨fun res data s => ⟨?_, fun hst hc => if_pos ⟨hst, mt List.contains_iff_mem.1 hc⟩, fun h => if_pos h,
    fun h => if_neg h, fun hn => ?_⟩, fun r s => ?_⟩
  · intro p hp
    have h : MbRow p.1 p.2 s := by
      revert p
      simp only [List.forall_mem_cons, List.not_mem_nil, false_imp_iff, implies_true, and_true]
      exact ⟨.of_mbDo (.refl (execInfo s)) fun h => by simp [h],
        .of_mbDo (.refl (execTtOpen s)) okTtWriter_boot, .of_mbDo (.refl (execTtWrite s)) okTtOpen_boot,
        .of_mbDo (.refl (execTtClose s)) okTtOpen_boot, .of_mbDo (.refl (execTtAbort s)) okTtOpen_boot,
        .of_mbDo (.refl (execTtRead s)) okRead_boot, .of_mbDo (.refl (execFwOpen s)) okFw_boot,
        .of_mbDo (.refl (execFwWrite s)) okFwOpen_boot, .of_mbDo (.refl (execFwClose s)) okFwOpen_boot,
        .of_mbDo (.refl (execFwActivate s)) okFw_boot, .of_mbDo (.refl (execFwConfirm s)) fun h => by simp [okFw_boot h],
        .of_mbDo (.refl (execFwRead s)) okFw_boot, .of_mbDo (.refl (execEvrRead s)) okNotBoot_boot,
        .of_mbDo (.refl (execEvrFlush s)) okRead_boot, .of_mbDo (.refl (execLogRead s)) okRead_boot,
        .of_mbDo (.refl (execArchRead s)) okRead_boot, .of_mbDo (.refl (execJnlRead s)) okRead_boot,
        .of_notBoot rfl, .of_keyChange rfl, .of_keyChange rfl, .of_keyChange rfl, .of_inHold (.refl (execKeyExport s)),
        .of_keyChange rfl, .of_notBoot rfl, .of_keyChange rfl, .of_keyChange rfl, .of_notBoot rfl, .of_notBoot rfl,
        .of_notBoot rfl, .of_notBoot rfl, .of_notBoot rfl, .of_keyChange rfl, .of_inHold (.refl (execAttest s)),
        .of_notBoot rfl, .of_notBoot rfl, .of_notBoot rfl⟩
    exact ⟨h.idle, h.boot, h.busy⟩
  · have hhif := mbReply_hif hn res s
    have hrest := mbReply_rest res data s
    refine ⟨by rw [hhif]; rfl, by rw [hhif]; rfl, by rw [hhif]; rfl, ?_, by rw [hrest], by rw [hrest], by rw [hrest]⟩
    rw [hhif]
    exact mbReplied_bytes ..
  · exact ⟨info_exec, fun h hr hl hn hn' => (evrRead_exec h hr).trans (congrArg _ (evrReadDo_eq hl hn hn')), evrFlush_exec,
      fun h hl hn hn' hk => (logRead_exec h).trans (congrArg _ (logReadDo_eq hl hn hn' hk)),
      fun h hl hn hn' hs => (archRead_exec h).trans (congrArg _ (archReadDo_eq hl hn hn' hs)),
      fun h hl hk hn hend => (jnlRead_exec h).trans (congrArg _ (slotReader_eq hl (by omega) hn hend))⟩

end


section
/-! ## STATUS and READ frames of the host port (R404, R412, R473, R580 to R587, R591, R597) -/

open Sys2Proof Sys2Proof.Machine
namespace Sys2Proof.Machine

/-! ### The status word and the busy port (R404, R583, R591) -/

theorem portBusy_iff (s : State) : portBusy s = true ↔ s.dev.mode = .boot ∨ (dom s 1).st ≠ .on := by
  simp [portBusy, domOn]

theorem portBusy_eq_false {s : State} (hm : s.dev.mode ≠ .boot) (hc : (dom s 1).st = .on) : portBusy s = false := by
  rw [← Bool.not_eq_true, portBusy_iff]
  exact not_or.2 ⟨hm, not_not.2 hc⟩

/-- The status word of a frame that is not refused (R583). -/
theorem statusWord_of_no_reason (c : HostCode) (s : State) : statusWord c 0 s =
    c.num + 2 ^ 8 * modeCode s.dev.mode + bitAt 11 (intN s) + 2 ^ 16 * (s.hif.seq % 2 ^ 16) := rfl

/-- R583: the status word shows the device's state, the registers of the interrupt and the frame's number. -/
theorem statusWord_congr {s t : State} (hr : t.regs = s.regs) (hd : t.dev = s.dev) (hh : t.hif = s.hif) (c : HostCode)
    (reason : Nat) : statusWord c reason t = statusWord c reason s := by
  have hreg : ∀ a, getReg t a = getReg s a := fun a => by rw [getReg, hr, getReg]
  have hn : intN t = intN s := by simp only [intN, intSummary, getBit, hreg, hd]
  rw [statusWord, statusWord, hn, hd, hh]

/-! ### STATUS -/

/-- What a STATUS frame answers with a code. -/
def statusAnswer (c : HostCode) (s t : State) : State :=
  respond (beBytes 4 (statusWord c 0 s) ++
    beBytes 4 (if s.dev.mode = .boot ∨ (dom s 1).st ≠ .on then 0 else (intSummary s).toNat)) t

section
variable {cmd : Byte} {crc : Nat} {s : State}

theorem hostStatus_eq (hp : s.pwr.powerGood = true) : hostStatus cmd crc s =
    if portBusy s then statusAnswer .busy s (incFld Reg.HIF_CNT 31 16 s)
    else if crc = (crc16 [cmd]).toNat then statusAnswer .done s s
    else statusAnswer .crc s (cause Reg.HIF_CAUSE 0 (incFld Reg.HIF_CNT 15 0 s)) := by
  have hsum : (if portBusy s then 0#32 else intSummary s).toNat =
      if s.dev.mode = .boot ∨ (dom s 1).st ≠ .on then 0 else (intSummary s).toNat := by
    simp only [portBusy_iff]
    split <;> rfl
  simp only [hostStatus, hsum, hp]
  rfl

theorem hostStatus_busy (hp : s.pwr.powerGood = true) (hb : s.dev.mode = .boot ∨ (dom s 1).st ≠ .on) :
    hostStatus cmd crc s = statusAnswer .busy s (incFld Reg.HIF_CNT 31 16 s) := by
  rw [hostStatus_eq hp, if_pos ((portBusy_iff s).2 hb)]

theorem hostStatus_good (hp : s.pwr.powerGood = true) (hm : s.dev.mode ≠ .boot) (hc : (dom s 1).st = .on)
    (hcrc : crc = (crc16 [cmd]).toNat) : hostStatus cmd crc s = statusAnswer .done s s := by
  rw [hostStatus_eq hp, portBusy_eq_false hm hc, if_neg Bool.false_ne_true, if_pos hcrc]

theorem hostStatus_badCrc (hp : s.pwr.powerGood = true) (hm : s.dev.mode ≠ .boot) (hc : (dom s 1).st = .on)
    (hcrc : crc ≠ (crc16 [cmd]).toNat) :
    hostStatus cmd crc s = statusAnswer .crc s (cause Reg.HIF_CAUSE 0 (incFld Reg.HIF_CNT 15 0 s)) := by
  rw [hostStatus_eq hp, portBusy_eq_false hm hc, if_neg Bool.false_ne_true, if_neg hcrc]

end

/-! ### READ -/

/-- R412: raising the host's demand changes power only. -/
theorem raiseHost_rest (ds : List Nat) (s : State) : raiseHost ds s = { s with pwr := (raiseHost ds s).pwr } := by
  let rest (t : State) : State := { t with pwr := s.pwr }
  have htouch : rest (hostTouch ds s) = rest s := forL_keeps rest ds s _ fun d t => by
    simp only [rest]
    rw [setDom_rest]
  have hraise : rest (raiseHost ds s) = rest s := (forL_keeps rest ds _ _ fun d t => by
    split
    · rfl
    · simp only [rest]
      rw [domRequest_rest]).trans htouch
  exact congrArg (fun t : State => { t with pwr := (raiseHost ds s).pwr }) hraise

/-- R584: a READ's response without data, the effect of its code apart. -/
def readBlank (c : HostCode) (n : Nat) (s t : State) : State :=
  respond (beBytes 4 (statusWord c 0 s) ++ List.replicate n 0#8 ++ beBytes 4 (2 ^ 16 * c.num)) t

theorem readNone_eq (c : HostCode) (a n : Nat) (s : State) :
    readNone c 0 a n s = readBlank c n s (codeEffect c 0 a false s) := by
  simp only [readNone, readBlank, endWord, Nat.mul_zero, Nat.add_zero, Nat.zero_add]

/-- The CRC of a READ request is right (R581). -/
abbrev readCrcOk (cmd : Byte) (a n crc : Nat) : Prop := crc = (crc16 (cmd :: (beBytes 4 a ++ beBytes 2 n))).toNat

section
variable {cmd : Byte} {a n crc : Nat} {ecc : Option Nat} {s : State}

/-- A READ that is answered before its address is looked at. -/
theorem hostRead_of_code (hp : s.pwr.powerGood = true) (ha : a < 2 ^ 32) (hn : n < 2 ^ 16) {c : HostCode}
    (hc : frameCode (crc == requestCrc cmd (requestHead a n)) n s = some c) :
    hostRead cmd a n crc ecc s = readNone c 0 a n (portRaise a n s) := by
  simp only [hostRead, Nat.mod_eq_of_lt ha, Nat.mod_eq_of_lt hn, hp, hc]
  rfl

/-- A busy port answers whatever the request holds. -/
theorem frameCode_busyPort (ok : Bool) (hb : portBusy s = true) : frameCode ok n s = some .busy := if_pos hb

/-- A good CRC leaves what the length and the device's work say of the frame. -/
theorem frameCode_goodCrc (hm : s.dev.mode ≠ .boot) (hc : (dom s 1).st = .on) (hcrc : readCrcOk cmd a n crc) :
    frameCode (crc == requestCrc cmd (requestHead a n)) n s =
      if n = 0 ∨ 4096 < n then some .length else if s.pwr.saving ∨ s.hif.pending.isSome then some .busy else none := by
  have hgood : (crc == requestCrc cmd (requestHead a n)) = true := beq_iff_eq.2 hcrc
  simp only [frameCode, portBusy_eq_false hm hc, hgood]
  rfl

section
variable (hp : s.pwr.powerGood = true) (ha : a < 2 ^ 32) (hn : n < 2 ^ 16)
include hp ha hn

theorem hostRead_boot (hm : s.dev.mode = .boot) :
    hostRead cmd a n crc ecc s = readBlank .busy n s (incFld Reg.HIF_CNT 31 16 s) := by
  have hraise : portRaise a n s = s := if_neg fun h => h.1 hm
  rw [hostRead_of_code hp ha hn (frameCode_busyPort _ ((portBusy_iff s).2 (.inl hm))), hraise, readNone_eq]
  rfl

/-- While CORE is not ON the demand of the domains that the access needs is raised (R412). -/
theorem hostRead_coreOff (hm : s.dev.mode ≠ .boot) (hc : (dom s 1).st ≠ .on) (hplace : placeReason a n = 0) :
    hostRead cmd a n crc ecc s = readBlank .busy n s (incFld Reg.HIF_CNT 31 16 (raiseHost (neededDomains a n) s)) := by
  have hraise : portRaise a n s = raiseHost (neededDomains a n) s := by
    rw [portRaise, if_pos ⟨hm, by simpa [domOn] using hc⟩, if_pos hplace]
  rw [hostRead_of_code hp ha hn (frameCode_busyPort _ ((portBusy_iff s).2 (.inr hc))), hraise, readNone_eq, readBlank,
    statusWord_congr (s := s) (by rw [raiseHost_rest]) (by rw [raiseHost_rest]) (by rw [raiseHost_rest])]
  rfl

/-- A port that is not busy raises no demand for a frame that it answers at once. -/
theorem hostRead_blank (hc : (dom s 1).st = .on) {c : HostCode}
    (h : frameCode (crc == requestCrc cmd (requestHead a n)) n s = some c) :
    hostRead cmd a n crc ecc s = readBlank c n s (codeEffect c 0 a false s) := by
  have hraise : portRaise a n s = s := if_neg fun h => by simp [domOn, hc] at h
  rw [hostRead_of_code hp ha hn h, hraise, readNone_eq]

section
variable (hm : s.dev.mode ≠ .boot) (hc : (dom s 1).st = .on)
include hm hc

theorem hostRead_badCrc (hcrc : ¬ readCrcOk cmd a n crc) :
    hostRead cmd a n crc ecc s = readBlank .crc n s (cause Reg.HIF_CAUSE 0 (incFld Reg.HIF_CNT 15 0 s)) := by
  have hbad : (crc == requestCrc cmd (requestHead a n)) = false := beq_eq_false_iff_ne.2 hcrc
  refine hostRead_blank hp ha hn hc ?_
  simp [frameCode, portBusy_eq_false hm hc, hbad]

variable (hcrc : readCrcOk cmd a n crc)
include hcrc

theorem hostRead_length (hl : n = 0 ∨ 4096 < n) : hostRead cmd a n crc ecc s = readBlank .length n s s :=
  hostRead_blank hp ha hn hc (by rw [frameCode_goodCrc hm hc hcrc, if_pos hl])

theorem hostRead_busy (h0 : 0 < n) (h4 : n ≤ 4096) (hb : s.pwr.saving = true ∨ s.hif.pending.isSome = true) :
    hostRead cmd a n crc ecc s = readBlank .busy n s (incFld Reg.HIF_CNT 31 16 s) :=
  hostRead_blank hp ha hn hc (by rw [frameCode_goodCrc hm hc hcrc, if_neg (by omega), if_pos hb])

/-- R584, R586: a READ of a register window is its words, read one after the other. -/
theorem hostRead_window (h0 : 0 < n) (h4 : n ≤ 4096) (hsave : s.pwr.saving = false) (hpend : s.hif.pending = none)
    {v : State} {b : Nat} (hacc : accessCode false a n s = (none, v)) (hr : hostRange a = some (.window b)) :
    hostRead cmd a n crc ecc s = readDone (.window b) a n ecc v := by
  have hfree : ¬ (s.pwr.saving = true ∨ s.hif.pending.isSome = true) := by simp [hsave, hpend]
  have hnone := frameCode_goodCrc hm hc hcrc
  rw [if_neg (by omega), if_neg hfree] at hnone
  simp only [hostRead, Nat.mod_eq_of_lt ha, Nat.mod_eq_of_lt hn, hp, hnone, hacc, hr]
  rfl

end
end
end

theorem leBytes_length (n v : Nat) : (leBytes n v).length = n := by
  induction n generalizing v with
  | zero => rfl
  | succ n ih => rw [leBytes, List.length_cons, ih]

/-- A burst of register words is four bytes for each word. -/
theorem wordsRead_length (a n : Nat) (s : State) : (wordsRead a n s).1.length = 4 * n := by
  induction n with
  | zero => rfl
  | succ n ih =>
    simp only [wordsRead, List.length_append, ih, wordBytes, leBytes_length]
    omega

end Sys2Proof.Machine

/-- Settles O34: STATUS by the port and its CRC; a READ by its frame, then by its place, then word by word. -/
theorem statusAndReadFrames : Obligations.StatusAndReadFrames := by
  refine ⟨fun crc s hp => ?_, fun a n crc s hp ha hn => ?_⟩
  · dsimp only
    intro p hmem
    have hexec : exec p.1 s = .next (hostStatus p.2 crc s) := by
      revert p
      exact List.forall_mem_cons.2 ⟨rfl, List.forall_mem_singleton.2 rfl⟩
    rw [hexec]
    exact ⟨fun h => congrArg _ (hostStatus_busy hp h), fun hm hc h => congrArg _ (hostStatus_good hp hm hc h),
      fun hm hc h => congrArg _ (hostStatus_badCrc hp hm hc h)⟩
  · dsimp only
    intro p hmem
    have hexec : exec p.1 s = .next (hostRead p.2 a n crc none s) := by
      revert p
      exact List.forall_mem_cons.2 ⟨rfl, List.forall_mem_singleton.2 rfl⟩
    rw [hexec]
    refine ⟨fun hm => congrArg _ (hostRead_boot hp ha hn hm),
      fun hm hc hplace => congrArg _ (hostRead_coreOff hp ha hn hm hc hplace),
      fun hm hc hbad => congrArg _ (hostRead_badCrc hp ha hn hm hc hbad),
      fun hm hc hgood hl => congrArg _ (hostRead_length hp ha hn hm hc hgood hl),
      fun hm hc hgood h0 h4 hb => congrArg _ (hostRead_busy hp ha hn hm hc hgood h0 h4 hb),
      fun hm hc hgood h0 h4 hsave hpend v b hacc hr => ?_⟩
    exact ⟨_, _, _, rfl, congrArg _ (hostRead_window hp ha hn hm hc hgood h0 h4 hsave hpend hacc hr),
      wordsRead_length a (n / 4) v⟩
end


section
/-! ## The commit boundary (R422, R461, R462, R465) -/

open Sys2Proof Sys2Proof.Machine
namespace Sys2Proof.Machine

/-- R461: what makes a commit due at a boundary, condition by condition (R422, R465). -/
theorem txDue_iff (s : State) : txDue s = true ↔ s.tx.st = 4 ∧ s.tx.shadowTick + 2 ≤ s.pwr.tick ∧
    (s.tx.prompt = true ∨ s.dev.hwDue = true) ∧ hwStates s.dev.mode = true ∧ workHalted s = false := by
  simp [txDue, commitDue, and_assoc]

theorem Recorded.tx {s t : State} (h : Recorded s t) : t.tx = s.tx := by rw [h]

/-- A transaction that is committed, with the headway that JNL_TX_BOUND shows (R461). -/
def txCommitted (bound : Nat) (x : TxState) : TxState :=
  { x with
    st := 0, entries := [], stagedSlot := none, stagedTt := none, prompt := false
    result := 1, reason := 0, failEntry := 0, bound := bound % 2 ^ 32 }

theorem txApply_tx (bound : Nat) (s : State) : ∃ x, (txApply bound s).tx = txCommitted bound x := by
  unfold txApply
  extract_lets s0 s1 s2 s3 s4
  have h : s4.tx = (txEnd 1 0 0 s3).tx := (cause_recorded Reg.JNL_CAUSE 8 (txEnd 1 0 0 s3)).tx
  exact ⟨s3.tx, congrArg (fun x : TxState => { x with bound := bound % 2 ^ 32 }) h⟩

theorem txApply_mode (bound : Nat) (s : State) : (txApply bound s).dev.mode = s.dev.mode := by
  obtain ⟨x, hx⟩ := txApply_ctl bound s
  exact mode_of_ctl hx

end Sys2Proof.Machine

/-- Settles O30: a boundary applies what is staged when `txDue` holds, and the transaction is then `txCommitted`. -/
theorem commitBoundary : Obligations.CommitBoundary := by
  intro s due
  refine ⟨fun hdue => ?_, fun hno => congrArg _ (if_neg (mt (txDue_iff s).1 hno))⟩
  obtain ⟨x, hx⟩ := txApply_tx (s.dev.headway + b2n s.dev.hwDue) s
  have happly : txBoundary s = txApply (s.dev.headway + b2n s.dev.hwDue) s := if_pos ((txDue_iff s).2 hdue)
  refine ⟨_, congrArg Host.Outcome.next happly, ?_⟩
  rw [hx]
  exact ⟨rfl, rfl, rfl, rfl, rfl, rfl, rfl, txApply_mode _ s⟩
end


section
/-! ## Clock faults, the watchdog and health samples (R407, R408, R427, R526, R531) -/

open Sys2Proof Sys2Proof.Machine
namespace Sys2Proof.Machine

/-! ### A fatal cause, the mailbox and the recorder -/

theorem Recorded.pwr {s t : State} (h : Recorded s t) : t.pwr = s.pwr := by rw [h]

theorem Recorded.hif {s t : State} (h : Recorded s t) : t.hif = s.hif := by rw [h]

theorem fatal_pwr (b src : Nat) (s : State) : (fatal b src s).pwr = s.pwr := by
  have h : (fatalRecorded b src s).pwr = s.pwr := by rw [(fatalRecorded_recorderOnly b src s).rest]
  obtain ⟨-, hf, -⟩ | ⟨-, hf⟩ := fatal_cases b src s <;> rw [hf] <;> exact h

theorem fatal_hif (b src : Nat) (s : State) : (fatal b src s).hif = s.hif := by
  have h : (fatalRecorded b src s).hif = s.hif := by rw [(fatalRecorded_recorderOnly b src s).rest]
  obtain ⟨-, hf, -⟩ | ⟨-, hf⟩ := fatal_cases b src s <;> rw [hf] <;> exact h

theorem fatal_due (b src : Nat) {s : State} (hm : s.dev.mode = .run) : (fatal b src s).dev.fatalDue = true := by
  obtain ⟨-, -, h⟩ | ⟨hno, -⟩ := fatal_cases b src s
  · exact h
  · exact absurd hm hno

/-- The watchdog ends the mailbox's command beside the device's state. -/
theorem mbAbort_dev (s : State) : (mbAbort s).dev = s.dev := by
  unfold mbAbort
  split
  · rw [(cause_recorded ..).dev, domRequest_rest]
  · rfl

/-- R596: a command in progress is answered with result 6. -/
theorem mbAbort_busy {s : State} (h : s.hif.mbState = 1) : (mbAbort s).hif.mbState = 2 ∧ (mbAbort s).hif.mbResult = 6 := by
  rw [mbAbort, if_pos h, (cause_recorded ..).hif, domRequest_rest]
  exact ⟨rfl, rfl⟩

theorem evProgram_mgt (s : State) :
    (evProgram s).mgt = { s.mgt with evr := { s.mgt.evr with queue := [] } } := by
  have h : (forL s.mgt.evr.queue s evWrite).mgt = s.mgt := forL_keeps State.mgt _ s _ fun _ _ => rfl
  simp only [evProgram, h]

theorem evDrain_dev (s : State) : (evDrain s).dev = s.dev :=
  ((evFlush_recorded false s).trans (evProgram_recorded _)).dev

/-- R540: once the ring is known, nothing is buffered or on its way after the flush before BOOT. -/
theorem evDrain_empty {s : State} (h : s.mgt.evr.ready = true) :
    (evDrain s).mgt.evr.buffer = [] ∧ (evDrain s).mgt.evr.queue = [] := by
  rw [evDrain, evProgram_mgt]
  exact ⟨evFlush_buffer s h, rfl⟩

/-! ### PLLs (R408) -/

theorem pllRuns_iff (p : Pll) (s : State) :
    pllRuns p s = true ↔ ∃ d ∈ pllDoms p, (dom s d).st = .starting ∨ (dom s d).st = .on := by
  simp [pllRuns]

theorem syncDown_pwr (s : State) : (syncDown s).pwr = s.pwr := by
  unfold syncDown
  split
  · exact (cause_recorded ..).pwr
  · rfl

theorem syncDown_sync (s : State) : (syncDown s).red.sync = false := by
  unfold syncDown
  split
  · exact congrArg RedState.sync (cause_recorded ..).red
  · next h => exact Bool.not_eq_true _ ▸ h

/-- What the lock of a running PLL and what depends on it are after it is lost. -/
structure Unlocked (p : Pll) (s t : State) : Prop where
  mode : t.dev.mode = s.dev.mode
  sys : p = .sys → t.pwr = { s.pwr with sysLock := false } ∧ (s.dev.mode = .run → t.dev.fatalDue = true)
  slv : p = .slv → t.pwr = { s.pwr with slvLock := false } ∧ (s.dev.mode = .run → t.dev.fatalDue = true)
  ser : p = .ser → t.pwr = { s.pwr with serLock := false } ∧ t.red.sync = false

theorem pllUnlock_running {p : Pll} {s : State} (h : ∃ d ∈ pllDoms p, (dom s d).st = .starting ∨ (dom s d).st = .on) :
    ∃ t, exec (.pllUnlock p) s = .next t ∧ Unlocked p s t := by
  have hruns : ¬ (!pllRuns p s) = true := by simp [(pllRuns_iff p s).2 h]
  cases p with
  | sys => exact ⟨_, if_neg hruns, mode_of_ctl (fatal_ctl ..), fun _ => ⟨fatal_pwr .., fun hm => fatal_due 10 0 hm⟩, nofun, nofun⟩
  | slv => exact ⟨_, if_neg hruns, mode_of_ctl (fatal_ctl ..), nofun, fun _ => ⟨fatal_pwr .., fun hm => fatal_due 10 0 hm⟩, nofun⟩
  | ser =>
    refine ⟨_, if_neg hruns, ?_, nofun, nofun, fun _ => ⟨?_, syncDown_sync _⟩⟩
    · exact mode_of_ctl (s := syncDown _) ((syncDown_ctl _).trans (cause_ctl ..))
    · rw [syncDown_pwr, (cause_recorded ..).pwr]

/-! ### The watchdog (R526) -/

section
variable {s : State} (hp : s.pwr.powerGood = true) (hr : s.pwr.rstLow = false)
include hp hr

theorem watchdog_boot (hm : s.dev.mode = .boot) : ∃ t, exec .watchdogExpire s = .next t ∧
    t.dev = { s.dev with bootPending := some .full } ∧
    (s.mgt.evr.ready = true → t.mgt.evr.buffer = [] ∧ t.mgt.evr.queue = []) := by
  have hopen : ¬ ((!s.pwr.powerGood) = true ∨ s.pwr.rstLow = true) := by simp [hp, hr]
  have hx : exec .watchdogExpire s = execWatchdogExpire s := rfl
  rw [hx, execWatchdogExpire, if_neg hopen, if_pos hm]
  refine ⟨_, rfl, ?_, fun hready => evDrain_empty ((causeD_recorderOnly ..).ready.trans hready)⟩
  rw [evDrain_dev, (cause_recorded ..).dev]

theorem watchdog_run (hm : s.dev.mode = .run) : ∃ t, exec .watchdogExpire s = .next t ∧ t.dev.fatalDue = true ∧
    t.dev.mode = .run ∧ (s.hif.mbState = 1 → t.hif.mbState = 2 ∧ t.hif.mbResult = 6) := by
  have hopen : ¬ ((!s.pwr.powerGood) = true ∨ s.pwr.rstLow = true) := by simp [hp, hr]
  have hcause : (cause Reg.MGT_CAUSE 0 s).dev.mode = .run := (mode_of_ctl (cause_ctl ..)).trans hm
  have hx : exec .watchdogExpire s = execWatchdogExpire s := rfl
  rw [hx, execWatchdogExpire, if_neg hopen, if_neg (by rw [hm]; decide)]
  refine ⟨_, rfl, ?_, ?_, fun hmb => mbAbort_busy ?_⟩
  · rw [mbAbort_dev]
    exact fatal_due 12 0 hcause
  · rw [mbAbort_dev]
    exact (mode_of_ctl (fatal_ctl ..)).trans hcause
  · rw [fatal_hif, (cause_recorded ..).hif, hmb]

end

/-! ### Loops over the readings of a sample -/

/-- A loop over a list with places is a loop over the places. -/
theorem forL_zipIdx {α σ : Type} (d : α) (xs : List α) (s : σ) (f : Nat → α → σ → σ) :
    forL xs.zipIdx s (fun x s => f x.2 x.1 s) = forN xs.length s (fun k s => f k (nth xs k d) s) := by
  have h : xs.zipIdx = (List.range xs.length).map (fun k => (nth xs k d, k)) := by
    apply List.ext_getElem
    · simp
    · intro i h1 h2
      have hi : i < xs.length := by simpa using h1
      simp [nth, hi]
  rw [forL, forN, h, List.foldl_map]

/-- What every round of a loop keeps holds after it. -/
theorem forN_invariant {σ : Type} {I : σ → Prop} (n : Nat) (s : σ) (f : Nat → σ → σ) (hs : I s)
    (hf : ∀ j < n, ∀ t, I t → I (f j t)) : I (forN n s f) := by
  induction n with
  | zero => exact hs
  | succ n ih =>
    rw [forN_succ]
    exact hf n (by omega) _ (ih fun j hj => hf j (by omega))

/-- What round `k` of a loop brings about and the other rounds keep holds after it. -/
theorem forN_established {σ : Type} {I Q : σ → Prop} {n k : Nat} (hk : k < n) (s : σ) (f : Nat → σ → σ) (hs : I s)
    (hf : ∀ j < n, ∀ t, I t → I (f j t)) (hest : ∀ t, I t → Q (f k t))
    (hkeep : ∀ j < n, j ≠ k → ∀ t, I t → Q t → Q (f j t)) : Q (forN n s f) := by
  have hI : ∀ m ≤ n, I (forN m s f) := fun m hm => forN_invariant m s f hs fun j hj => hf j (by omega)
  have hQ : ∀ m ≤ n, k < m → Q (forN m s f) := by
    intro m
    induction m with
    | zero => omega
    | succ m ih =>
      intro hm hlt
      rw [forN_succ]
      by_cases hmk : m = k
      · subst hmk
        exact hest _ (hI m (by omega))
      · exact hkeep m (by omega) hmk _ (hI m (by omega)) (ih (by omega) (by omega))
  exact hQ n (le_refl n) hk

/-! ### One reading (R531) -/

/-- `t` is `s` with causes of MGT_CAUSE set: its other registers but the recorder's are as they were, and so is power. -/
structure Marked (s t : State) : Prop where
  regs : RegsExcept evRegs s t
  bits : RegsWf s → ∀ j < 32, getBit s Reg.MGT_CAUSE j = true → getBit t Reg.MGT_CAUSE j = true
  pwr : t.pwr = s.pwr

theorem Marked.refl (s : State) : Marked s s := ⟨.refl _ s, fun _ _ _ h => h, rfl⟩

theorem Marked.trans {s t u : State} (h : Marked s t) (k : Marked t u) : Marked s u :=
  ⟨h.regs.trans k.regs, fun hw j hj hb => k.bits (h.regs hw).1 j hj (h.bits hw j hj hb), k.pwr.trans h.pwr⟩

/-- The management block's own fields are no register. -/
theorem Marked.mgt {s t : State} (h : Marked s t) (m : MgtState) : Marked s { t with mgt := m } := ⟨h.regs, h.bits, h.pwr⟩

theorem cause_marked {b : Nat} (hb : b < 32) (s : State) : Marked s (cause Reg.MGT_CAUSE b s) where
  regs := (causeD_regs Reg.MGT_CAUSE b 0 0 0 s).mono (by simp)
  bits hw j hj h := by
    have hset := setBit_sets Reg.MGT_CAUSE b j s hb hj hw h
    unfold cause causeD
    dsimp only
    split
    · exact hset
    · split <;> exact evRaise_sets _ _ _ _ _ j hj (setReg_wf _ _ _ hw) hset
  pwr := (cause_recorded ..).pwr

/-- A reading has register `a` to itself. -/
structure HealthReading (a : Nat) (s t : State) : Prop where
  regs : RegsExcept (a :: evRegs) s t
  bits : RegsWf s → ∀ j < 32, getBit s Reg.MGT_CAUSE j = true → getBit t Reg.MGT_CAUSE j = true

/-- A reading writes its register and then sets causes. -/
theorem HealthReading.of_marked {a : Nat} {s t u : State} (ha : a ≠ Reg.MGT_CAUSE) (h : RegsExcept [a] s t) (k : Marked t u) :
    HealthReading a s u where
  regs := (h.mono (by simp)).trans (k.regs.mono (by simp))
  bits hw j hj hb := k.bits (h hw).1 j hj ((getBit_congr ((h hw).2 _ (by simpa using Ne.symm ha)) j).trans hb)

/-- The state of a temperature reading but for the alarm. -/
def tempWarned (k : Nat) (t : Word) (s : State) : State :=
  let s1 := setReg (Reg.MGT_TEMP + 4 * k) t s
  let high := nth s.mgt.tempHigh k false
  if !high && decide (f32RatD (getReg s Reg.MGT_TLIM) ≤ f32RatD t) then
    cause Reg.MGT_CAUSE 3 { s1 with mgt := { s1.mgt with tempHigh := setNth s1.mgt.tempHigh k true } }
  else if high && decide (f32RatD t ≤ f32RatD (getReg s Reg.MGT_TLIM) - 5) then
    { s1 with mgt := { s1.mgt with tempHigh := setNth s1.mgt.tempHigh k false } }
  else s1

theorem healthTemp_eq (k : Nat) (t : Word) (s : State) : healthTemp k t s =
    if 110 ≤ f32RatD t then cause Reg.MGT_CAUSE 4 (tempWarned k t s) else tempWarned k t s := rfl

theorem tempWarned_marked (k : Nat) (t : Word) (s : State) :
    Marked (setReg (Reg.MGT_TEMP + 4 * k) t s) (tempWarned k t s) := by
  unfold tempWarned
  extract_lets s1 high
  split
  · exact ((Marked.refl s1).mgt _).trans (cause_marked (by decide) _)
  · split
    · exact (Marked.refl s1).mgt _
    · exact .refl s1

theorem healthTemp_marked (k : Nat) (t : Word) (s : State) :
    Marked (setReg (Reg.MGT_TEMP + 4 * k) t s) (healthTemp k t s) := by
  rw [healthTemp_eq]
  split
  · exact (tempWarned_marked k t s).trans (cause_marked (by decide) _)
  · exact tempWarned_marked k t s

/-- The state of a rail reading but for the cause: VBAT's rail also has its status bit (R427). -/
def railShown (r mv : Nat) (s : State) : State :=
  let s1 := setFld (Reg.MGT_VOLT + 4 * r) 15 0 mv s
  if r = 3 then
    { s1 with pwr := { s1.pwr with vbatOk := decide ((railRange r).1 ≤ (mv : Rat) ∧ (mv : Rat) ≤ (railRange r).2) } }
  else s1

/-- R531: a rail stands within 1 % of an end of its range, or beyond it. -/
def railAtEnd (r mv : Nat) : Prop := (mv : Rat) ≤ (railRange r).1 * 101 / 100 ∨ (railRange r).2 * 99 / 100 ≤ (mv : Rat)

/-- The readings as rational numbers. -/
theorem nth_cast (mv : List Nat) (r : Nat) :
    nth (mv >>= fun a : Nat => (pure (a : Rat) : List Rat)) r 0 = ((nth mv r 0 : Nat) : Rat) := by
  have h : (mv >>= fun a : Nat => (pure (a : Rat) : List Rat)) = mv.map fun a : Nat => (a : Rat) :=
    List.flatMap_pure_eq_map ..
  rw [h, nth, nth, List.getElem?_map]
  cases mv[r]? <;> simp

theorem healthRail_of_atEnd {r mv : Nat} (h : railAtEnd r mv) (s : State) :
    healthRail r mv s = cause Reg.MGT_CAUSE 5 (railShown r mv s) := if_pos h

theorem healthRail_of_not_atEnd {r mv : Nat} (h : ¬ railAtEnd r mv) (s : State) : healthRail r mv s = railShown r mv s :=
  if_neg h

theorem healthRail_marked (r mv : Nat) (s : State) : Marked (railShown r mv s) (healthRail r mv s) := by
  by_cases h : railAtEnd r mv
  · rw [healthRail_of_atEnd h]
    exact cause_marked (by decide) _
  · rw [healthRail_of_not_atEnd h]
    exact .refl _

theorem railShown_regs (r mv : Nat) (s : State) :
    (railShown r mv s).regs = (setFld (Reg.MGT_VOLT + 4 * r) 15 0 mv s).regs := by
  unfold railShown
  split <;> rfl

theorem healthTemp_reading {k : Nat} (hk : k < 4) (v : Word) (s : State) : HealthReading (Reg.MGT_TEMP + 4 * k) s (healthTemp k v s) :=
  .of_marked (by simp only [Reg.MGT_TEMP, Reg.MGT_CAUSE]; omega) (setReg_regs _ v s) (healthTemp_marked k v s)

theorem healthRail_reading {r : Nat} (hr : r < 7) (mv : Nat) (s : State) : HealthReading (Reg.MGT_VOLT + 4 * r) s (healthRail r mv s) :=
  .of_marked (by simp only [Reg.MGT_VOLT, Reg.MGT_CAUSE]; omega)
    ((setFld_regs (Reg.MGT_VOLT + 4 * r) 15 0 mv s).trans (.of_regs (railShown_regs r mv s))) (healthRail_marked r mv s)

section
variable {s : State} (hw : RegsWf s)
include hw

theorem cause_mgt_sets {b : Nat} (hb : b < 32) : getBit (cause Reg.MGT_CAUSE b s) Reg.MGT_CAUSE b = true :=
  causeD_sets Reg.MGT_CAUSE b 0 0 0 s hb (by decide) hw

theorem healthTemp_shows {k : Nat} (hk : k < 4) (v : Word) : getReg (healthTemp k v s) (Reg.MGT_TEMP + 4 * k) = v := by
  rw [((healthTemp_marked k v s).regs (setReg_wf _ _ _ hw)).2 _ (by simp [Reg.MGT_TEMP, Reg.MGT_CAUSE, Reg.MGT_EVR_CNT]; omega), getReg_setReg _ _ _ _ hw,
    if_pos rfl]

/-- R531: 110 °C is the alarm. -/
theorem healthTemp_alarm (k : Nat) {v : Word} (hv : 110 ≤ f32RatD v) : getBit (healthTemp k v s) Reg.MGT_CAUSE 4 = true := by
  rw [healthTemp_eq, if_pos hv]
  exact cause_mgt_sets ((tempWarned_marked k v s).regs (setReg_wf _ _ _ hw)).1 (by decide)

theorem railShown_wf (r mv : Nat) : RegsWf (railShown r mv s) := by
  rw [RegsWf, railShown_regs]
  exact setReg_wf _ _ _ hw

theorem healthRail_shows {r : Nat} (hr : r < 7) (mv : Nat) :
    getFld (healthRail r mv s) (Reg.MGT_VOLT + 4 * r) 15 0 = mv % 65536 := by
  have hreg : getReg (healthRail r mv s) (Reg.MGT_VOLT + 4 * r) =
      getReg (setFld (Reg.MGT_VOLT + 4 * r) 15 0 mv s) (Reg.MGT_VOLT + 4 * r) := by
    rw [((healthRail_marked r mv s).regs (railShown_wf hw r mv)).2 _ (by simp [Reg.MGT_VOLT, Reg.MGT_CAUSE, Reg.MGT_EVR_CNT]; omega), getReg, railShown_regs,
      getReg]
  rw [getFld, hreg]
  exact getFld_setFld _ 15 0 mv hw (by decide) (by decide)

theorem healthRail_volt {r mv : Nat} (h : railAtEnd r mv) : getBit (healthRail r mv s) Reg.MGT_CAUSE 5 = true := by
  rw [healthRail_of_atEnd h]
  exact cause_mgt_sets (railShown_wf hw r mv) (by decide)

end

/-- VBAT's rail alone sets the status bit. -/
theorem healthRail_pwr (r mv : Nat) (s : State) : (healthRail r mv s).pwr =
    if r = 3 then { s.pwr with vbatOk := decide (2000 ≤ mv ∧ mv ≤ 3600) } else s.pwr := by
  rw [(healthRail_marked r mv s).pwr, railShown]
  split
  · next h =>
    subst h
    have hrange : ((railRange 3).1 ≤ (mv : Rat) ∧ (mv : Rat) ≤ (railRange 3).2) ↔ 2000 ≤ mv ∧ mv ≤ 3600 := by
      simp only [railRange]
      norm_cast
    simp only [hrange]
    rfl
  · rfl

/-! ### A sample (R531) -/

/-- The temperatures of a sample, and its rails. -/
def tempsSampled (ts : List Word) (s : State) : State := forN 4 s (fun k s => healthTemp k (nth ts k 0#32) s)
def railsSampled (mv : List Nat) (s : State) : State := forN 7 s (fun r s => healthRail r (nth mv r 0) s)

theorem healthSample_exec {ts : List Word} {mv : List Nat} (ht : ts.length = 4) (hm : mv.length = 7) (s : State) :
    exec (.healthSample ts mv) s = .next (railsSampled mv (tempsSampled ts s)) := by
  have hx : exec (.healthSample ts mv) s = execHealthSample ts mv s := rfl
  have htake : ts.take 4 = ts ∧ mv.take 7 = mv := ⟨List.take_of_length_le ht.le, List.take_of_length_le hm.le⟩
  rw [hx, execHealthSample, htake.1, htake.2, forL_zipIdx 0#32 ts s healthTemp, forL_zipIdx 0 mv _ healthRail, ht, hm]
  rfl

section
variable {s : State} (hw : RegsWf s)
include hw

theorem tempsSampled_wf (ts : List Word) : RegsWf (tempsSampled ts s) :=
  forN_invariant 4 s _ hw fun k hk t ht => ((healthTemp_reading hk (nth ts k 0#32) t).regs ht).1

theorem railsSampled_wf (mv : List Nat) : RegsWf (railsSampled mv s) :=
  forN_invariant 7 s _ hw fun r hr t ht => ((healthRail_reading hr (nth mv r 0) t).regs ht).1

theorem tempsSampled_shows (ts : List Word) {k : Nat} (hk : k < 4) :
    getReg (tempsSampled ts s) (Reg.MGT_TEMP + 4 * k) = nth ts k 0#32 :=
  forN_established hk s _ hw (fun j hj t ht => ((healthTemp_reading hj (nth ts j 0#32) t).regs ht).1)
    (fun t ht => healthTemp_shows ht hk _)
    (fun j hj hne t ht h => (((healthTemp_reading hj (nth ts j 0#32) t).regs ht).2 _ (by
      simp [Reg.MGT_TEMP, Reg.MGT_CAUSE, Reg.MGT_EVR_CNT]
      omega)).trans h)

theorem tempsSampled_alarm (ts : List Word) {k : Nat} (hk : k < 4) (hv : 110 ≤ f32RatD (nth ts k 0#32)) :
    getBit (tempsSampled ts s) Reg.MGT_CAUSE 4 = true :=
  forN_established hk s _ hw (fun j hj t ht => ((healthTemp_reading hj (nth ts j 0#32) t).regs ht).1)
    (fun t ht => healthTemp_alarm ht k hv)
    (fun j hj _ t ht h => (healthTemp_reading hj (nth ts j 0#32) t).bits ht 4 (by decide) h)

/-- The rails leave every register that is neither theirs nor the recorder's. -/
theorem railsSampled_other (mv : List Nat) {a : Nat} (hev : a ∉ evRegs) (ha : ∀ r < 7, a ≠ Reg.MGT_VOLT + 4 * r) :
    getReg (railsSampled mv s) a = getReg s a := by
  refine (forN_invariant (I := fun t => RegsWf t ∧ getReg t a = getReg s a) 7 s _ ⟨hw, rfl⟩ fun r hr t ht => ?_).2
  obtain ⟨hwf, hregs⟩ := (healthRail_reading hr (nth mv r 0) t).regs ht.1
  exact ⟨hwf, (hregs a (List.mem_cons.not.2 (not_or.2 ⟨ha r hr, hev⟩))).trans ht.2⟩

theorem railsSampled_bit (mv : List Nat) {j : Nat} (hj : j < 32) (h : getBit s Reg.MGT_CAUSE j = true) :
    getBit (railsSampled mv s) Reg.MGT_CAUSE j = true := by
  refine (forN_invariant (I := fun t => RegsWf t ∧ getBit t Reg.MGT_CAUSE j = true) 7 s _ ⟨hw, h⟩ fun r hr t ht => ?_).2
  have hread := healthRail_reading hr (nth mv r 0) t
  exact ⟨(hread.regs ht.1).1, hread.bits ht.1 j hj ht.2⟩

theorem railsSampled_shows (mv : List Nat) {r : Nat} (hr : r < 7) :
    getFld (railsSampled mv s) (Reg.MGT_VOLT + 4 * r) 15 0 = nth mv r 0 % 65536 :=
  forN_established (Q := fun t => getFld t (Reg.MGT_VOLT + 4 * r) 15 0 = nth mv r 0 % 65536) hr s _ hw
    (fun j hj t ht => ((healthRail_reading hj (nth mv j 0) t).regs ht).1) (fun t ht => healthRail_shows ht hr _)
    (fun j hj hne t ht h => by
      have hreg := ((healthRail_reading hj (nth mv j 0) t).regs ht).2 (Reg.MGT_VOLT + 4 * r) (by
        simp [Reg.MGT_VOLT, Reg.MGT_CAUSE, Reg.MGT_EVR_CNT]
        omega)
      exact (congrArg (fun w => field w 15 0) hreg).trans h)

theorem railsSampled_volt (mv : List Nat) {r : Nat} (hr : r < 7) (h : railAtEnd r (nth mv r 0)) :
    getBit (railsSampled mv s) Reg.MGT_CAUSE 5 = true :=
  forN_established hr s _ hw (fun j hj t ht => ((healthRail_reading hj (nth mv j 0) t).regs ht).1)
    (fun t ht => healthRail_volt ht h)
    (fun j hj _ t ht h => (healthRail_reading hj (nth mv j 0) t).bits ht 5 (by decide) h)

end

theorem tempsSampled_pwr (ts : List Word) (s : State) : (tempsSampled ts s).pwr = s.pwr :=
  forN_invariant (I := fun t : State => t.pwr = s.pwr) 4 s _ rfl fun k _ t ht => (healthTemp_marked k _ t).pwr.trans ht

/-- Of power a sample changes the status bit of VBAT, and that rail alone sets it (R427). -/
theorem railsSampled_pwr (mv : List Nat) (s : State) : (railsSampled mv s).pwr =
    { s.pwr with vbatOk := decide (2000 ≤ nth mv 3 0 ∧ nth mv 3 0 ≤ 3600) } := by
  refine forN_established (I := fun t : State => { t.pwr with vbatOk := s.pwr.vbatOk } = s.pwr)
    (Q := fun t : State => t.pwr = { s.pwr with vbatOk := decide (2000 ≤ nth mv 3 0 ∧ nth mv 3 0 ≤ 3600) })
    (show 3 < 7 by decide) s _ rfl ?_ ?_ ?_
  · intro r _ t ht
    rw [healthRail_pwr]
    split
    · exact ht
    · exact ht
  · intro t ht
    rw [healthRail_pwr, if_pos rfl, ← ht]
  · intro r _ hne t _ h
    rw [healthRail_pwr, if_neg hne, h]

end Sys2Proof.Machine

/-- Settles O23: each clock event is its row's branch; a sample is eleven readings, each with a register of its own. -/
theorem clocksAndHealth : Obligations.ClocksAndHealth := by
  refine ⟨fun s => ⟨fun h => if_neg (by simp [h]), fun h => if_pos h, rfl, rfl, fun p hp => ?_,
    fun hp hr => ⟨watchdog_boot hp hr, watchdog_run hp hr⟩⟩, fun ts mv s hw ht hm => ?_⟩
  · obtain ⟨t, hx, h⟩ := pllUnlock_running hp
    exact ⟨t, hx, h.mode, h.sys, h.slv, h.ser⟩
  · have htw := tempsSampled_wf hw ts
    refine ⟨_, healthSample_exec ht hm s, railsSampled_wf htw mv, fun k hk => ?_, fun r hr => railsSampled_shows htw mv hr, ?_,
      fun k hk hv => railsSampled_bit htw mv (by decide) (tempsSampled_alarm hw ts hk hv),
      fun r hr hv => railsSampled_volt htw mv hr (by rwa [nth_cast] at hv)⟩
    · rw [railsSampled_other htw mv (by simp [Reg.MGT_TEMP, Reg.MGT_CAUSE, Reg.MGT_EVR_CNT]; omega)
        (by simp only [Reg.MGT_TEMP, Reg.MGT_VOLT]; omega), tempsSampled_shows hw ts hk]
    · rw [railsSampled_pwr, tempsSampled_pwr]
end


section
/-! ## The domain state table and the wake controller (R408 to R412) -/

open Sys2Proof Sys2Proof.Machine
namespace Sys2Proof.Machine

/-! ### A user's demand (chapter 12, R409) -/

@[simp] theorem setUser_st (x : Domain) (u : DomUser) (b : Bool) : (x.setUser u b).st = x.st := by cases u <;> rfl

@[simp] theorem setUser_starts (x : Domain) (u : DomUser) (b : Bool) : (x.setUser u b).starts = x.starts := by
  cases u <;> rfl

theorem setUser_demand (x : Domain) (u : DomUser) : (x.setUser u true).demand = true := by
  cases u <;> simp [Domain.setUser, Domain.demand]

/-! A rise of a domain's demand is an enable request, a fall a disable request, and nothing else changes its state (R409). -/

theorem request_same {x : Domain} {u : DomUser} {b : Bool} (h : (x.setUser u b).demand = x.demand) :
    x.request u b = x.setUser u b := by
  cases hx : x.demand <;> simp [Domain.request, h, hx]

theorem request_rise {x : Domain} {u : DomUser} {b : Bool} (hx : x.demand = false) (hy : (x.setUser u b).demand = true) :
    x.request u b = (x.setUser u b).enable := by
  simp [Domain.request, hx, hy]

theorem request_fall {x : Domain} {u : DomUser} {b : Bool} (hx : x.demand = true) (hy : (x.setUser u b).demand = false) :
    x.request u b = (x.setUser u b).disable := by
  simp [Domain.request, hx, hy]

theorem domOk_iff (d : Nat) : domOk d = true ↔ 1 ≤ d ∧ d ≤ 17 := by simp [domOk]

/-- The next state of the domain itself; the PLLs follow (R408). -/
def domGo (d : Nat) (s : State) (y : Domain) : State := pllStop (setDom d y s)

/-- What a change of one user's demand makes of domain `d`, as R409 to R411 have it. -/
def domNext (d : Nat) (u : DomUser) (b : Bool) (s : State) : Domain :=
  let y := (dom s d).setUser u b
  if !b && (dom s d).demand && !y.demand && domStays s d then { y with work := true } else (dom s d).request u b

theorem domRequest_eq {d : Nat} (hd : domOk d = true) (u : DomUser) (b : Bool) (s : State) :
    domRequest d u b s = domGo d s (domNext d u b s) := if_pos hd

theorem satInc_16 (n : Nat) : satInc 16 n = min 65535 (n + 1) := by
  unfold satInc
  split <;> omega

section
variable {d : Nat} {u : DomUser} {b : Bool} {s : State}

theorem domNext_of_not_falls (h : (dom s d).demand = false ∨ ((dom s d).setUser u b).demand = true) :
    domNext d u b s = (dom s d).request u b := by
  obtain h | h := h <;> simp [domNext, h]

theorem domNext_of_not_stays (hs : domStays s d = false) : domNext d u b s = (dom s d).request u b := by
  simp [domNext, hs]

theorem domNext_same (h : ((dom s d).setUser u b).demand = (dom s d).demand) :
    domNext d u b s = (dom s d).setUser u b := by
  rw [domNext_of_not_falls (by rw [h]; cases (dom s d).demand <;> simp), request_same h]

theorem domNext_rise (hx : (dom s d).demand = false) (hy : ((dom s d).setUser u b).demand = true) :
    domNext d u b s = ((dom s d).setUser u b).enable := by
  rw [domNext_of_not_falls (.inl hx), request_rise hx hy]

/-- R411: a domain that stays ON regardless keeps the demand of its work. -/
theorem domNext_stays (hx : (dom s d).demand = true) (hy : ((dom s d).setUser u b).demand = false)
    (hs : domStays s d = true) : domNext d u b s = { (dom s d).setUser u b with work := true } := by
  cases b with
  | true => exact absurd (setUser_demand (dom s d) u) (by simp [hy])
  | false => simp [domNext, hx, hy, hs]

theorem domNext_fall (hx : (dom s d).demand = true) (hy : ((dom s d).setUser u b).demand = false)
    (hs : domStays s d = false) : domNext d u b s = ((dom s d).setUser u b).disable := by
  rw [domNext_of_not_stays hs, request_fall hx hy]

end

/-! ### The table of R409, for one domain -/

section
variable {y : Domain}

theorem enable_off (h : y.st = .off) : y.enable = { y with st := .starting, starts := min 65535 (y.starts + 1) } := by
  rw [Domain.enable, h, Domain.start, satInc_16]

theorem enable_running (h : y.st = .starting ∨ y.st = .on) : y.enable = y := by
  obtain h | h := h <;> rw [Domain.enable, h]

theorem enable_stopping (h : y.st = .stopping) : y.enable = { y with restart := true } := by rw [Domain.enable, h]

theorem disable_idle (h : y.st = .off ∨ y.st = .starting) : y.disable = y := by
  obtain h | h := h <;> rw [Domain.disable, h]

theorem disable_on (h : y.st = .on) : y.disable = { y with st := .stopping } := by rw [Domain.disable, h]

theorem disable_stopping (h : y.st = .stopping) : y.disable = { y with restart := false } := by rw [Domain.disable, h]

theorem startDone_eq (h : y.st = .starting) : y.startDone = { y with st := if y.demand = true then .on else .stopping } := by
  rw [Domain.startDone, h]
  cases hd : y.demand <;> simp

theorem stopDone_ends (h : y.st = .stopping) (hr : y.restart = false) : y.stopDone = { y with st := .off } := by
  rw [Domain.stopDone, h]
  simp [hr]

theorem stopDone_restarts (h : y.st = .stopping) (hr : y.restart = true) :
    y.stopDone = { y with restart := false, st := .starting, starts := min 65535 (y.starts + 1) } := by
  rw [Domain.stopDone, h]
  simp [hr, Domain.start, satInc_16]

end

/-! ### The host's demand (R412) -/

/-- R412: host_linger has passed since the last host access to domain `d`. -/
abbrev Lingered (d : Nat) (s : State) : Prop :=
  getFld s Reg.PWR_CTL 23 16 * 1024 < (s.pwr.tick - (dom s d).hostTick + 1) * 1000

theorem hostLingers_iff {d : Nat} {s : State} (ht : (dom s d).hostTick ≤ s.pwr.tick) (h48 : s.pwr.tick < 2 ^ 48) :
    hostLingers s d = true ↔ ¬ Lingered d s := by
  have hpast : (s.pwr.tick + 2 ^ 48 - (dom s d).hostTick) % 2 ^ 48 = s.pwr.tick - (dom s d).hostTick := by omega
  simp only [hostLingers, hpast, decide_eq_true_eq, not_lt]

theorem hostLingerExpire_exec {d : Nat} {s : State} (hd : domOk d = true) (ht : (dom s d).hostTick ≤ s.pwr.tick)
    (h48 : s.pwr.tick < 2 ^ 48) (h : Lingered d s) :
    exec (.hostLingerExpire d) s = .next (domGo d s (domNext d .host false s)) := by
  have hno : ¬ hostLingers s d = true := fun hl => (hostLingers_iff ht h48).1 hl h
  rw [← domRequest_eq hd]
  exact congrArg Host.Outcome.next (if_neg hno)

theorem hostLingerExpire_lingers {d : Nat} {s : State} (ht : (dom s d).hostTick ≤ s.pwr.tick) (h48 : s.pwr.tick < 2 ^ 48)
    (h : ¬ Lingered d s) : exec (.hostLingerExpire d) s = .next s :=
  congrArg Host.Outcome.next (if_pos ((hostLingers_iff ht h48).2 h))

/-! ### The end of a demand whose work is done (R411) -/

theorem nth_length {α : Type} {xs : List α} {i : Nat} {d : α} (h : nth xs i d ≠ d) : i < xs.length := by
  by_contra hlen
  exact h (by rw [nth, List.getElem?_eq_none (by omega), Option.getD_none])

/-- A domain that is not OFF exists, and reads back as it was set. -/
theorem dom_setDom {d : Nat} {s : State} (h1 : 1 ≤ d) (h : (dom s d).st ≠ .off) (y : Domain) : dom (setDom d y s) d = y := by
  have hlen : d - 1 < s.pwr.doms.length := nth_length fun he => h (by rw [dom, he])
  rw [dom, setDom, if_neg (by omega)]
  exact nth_setNth_eq s.pwr.doms (d - 1) y {} hlen

theorem dom_setDom_ne {d e : Nat} {s : State} (h1 : 1 ≤ d) (he : 1 ≤ e) (hne : e ≠ d) (y : Domain) :
    dom (setDom d y s) e = dom s e := by
  rw [dom, setDom, if_neg (by omega)]
  exact nth_setNth_ne s.pwr.doms (d - 1) (e - 1) y {} (by omega)

theorem dom_domGo {d : Nat} {s : State} (h1 : 1 ≤ d) (h : (dom s d).st ≠ .off) (y : Domain) : dom (domGo d s y) d = y :=
  dom_setDom h1 h y

theorem domGo_rest (d : Nat) (s : State) (y : Domain) : domGo d s y = { s with pwr := (domGo d s y).pwr } := by
  rw [domGo, pllStop, setDom_rest]

/-- R411: whether a domain stays ON regardless is no matter of its own state. -/
theorem domStays_domGo {d : Nat} (h1 : 1 ≤ d) (s : State) (y : Domain) : domStays (domGo d s y) d = domStays s d := by
  have hdev : (domGo d s y).dev = s.dev := by rw [domGo_rest]
  have hslk : (domGo d s y).slk = s.slk := by rw [domGo_rest]
  unfold domStays
  rw [theTt_congr hdev, hdev, hslk]
  by_cases hd : d = 1
  · have hother (i : Nat) : dom (domGo d s y) (i + 2) = dom s (i + 2) := dom_setDom_ne h1 (by omega) (by omega) y
    simp only [hother]
  · simp only [hd, if_false]

/-- R408: a PLL keeps its lock while it runs. -/
theorem pllStop_eq (s : State) : pllStop s = { s with pwr := { s.pwr with
    sysLock := s.pwr.sysLock && pllRuns .sys s
    slvLock := s.pwr.slvLock && pllRuns .slv s
    serLock := s.pwr.serLock && pllRuns .ser s } } := by
  simp only [pllStop, pllRuns, Bool.or_comm]
theorem pllDoms_pos (p : Pll) : ∀ e ∈ pllDoms p, 1 ≤ e := by cases p <;> decide

/-- A PLL that runs with a domain in one state runs with it in another in which it is STARTING or ON if it was. -/
theorem pllRuns_setDom {d : Nat} {s : State} (h1 : 1 ≤ d) (h : (dom s d).st ≠ .off) {y z : Domain}
    (hyz : z.st = .starting ∨ z.st = .on → y.st = .starting ∨ y.st = .on) {p : Pll}
    (hz : pllRuns p (setDom d z s) = true) : pllRuns p (setDom d y s) = true := by
  obtain ⟨e, he, hst⟩ := (pllRuns_iff ..).1 hz
  refine (pllRuns_iff ..).2 ⟨e, he, ?_⟩
  by_cases hed : e = d
  · subst hed
    rw [dom_setDom h1 h] at hst ⊢
    exact hyz hst
  · have he1 : 1 ≤ e := pllDoms_pos p e he
    rw [dom_setDom_ne h1 he1 hed] at hst ⊢
    exact hst

/-- Of two changes of a domain the last one counts, unless the first one stops a PLL that the last one needs. -/
theorem domGo_domGo {d : Nat} {s : State} (h1 : 1 ≤ d) (h : (dom s d).st ≠ .off) {y z : Domain}
    (hyz : z.st = .starting ∨ z.st = .on → y.st = .starting ∨ y.st = .on) : domGo d (domGo d s y) z = domGo d s z := by
  have hd : d ≠ 0 := by omega
  have hset : setDom d z (domGo d s y) = { setDom d z s with pwr := { (setDom d z s).pwr with
      sysLock := s.pwr.sysLock && pllRuns .sys (setDom d y s)
      slvLock := s.pwr.slvLock && pllRuns .slv (setDom d y s)
      serLock := s.pwr.serLock && pllRuns .ser (setDom d y s) } } := by
    rw [domGo, pllStop_eq]
    simp only [setDom, hd, if_false, setNth, List.set_set]
  have hruns (p : Pll) : pllRuns p (setDom d z (domGo d s y)) = pllRuns p (setDom d z s) := by
    rw [hset]
    rfl
  have hlocks : (setDom d z s).pwr.sysLock = s.pwr.sysLock ∧ (setDom d z s).pwr.slvLock = s.pwr.slvLock ∧
      (setDom d z s).pwr.serLock = s.pwr.serLock := by
    simp only [setDom, hd, if_false, and_self]
  have hlock (p : Pll) (l : Bool) :
      (l && pllRuns p (setDom d y s) && pllRuns p (setDom d z s)) = (l && pllRuns p (setDom d z s)) := by
    cases hz : pllRuns p (setDom d z s)
    · simp
    · rw [pllRuns_setDom h1 h hyz hz, Bool.and_true]
  rw [show domGo d (domGo d s y) z = _ from pllStop_eq _, show domGo d s z = _ from pllStop_eq _]
  simp only [hruns, hlocks]
  simp only [hset, hlock]

/-- R411: a domain whose scheduled use and work have ended. -/
def lingerEnded (x : Domain) : Domain :=
  { x with
    scheduled := false
    work := false
    st := if x.host = true ∨ x.mailbox = true ∨ x.forceOn = true then .on else .stopping }

section
variable {x : Domain} (hon : x.st = .on)
include hon

/-- While another demand stands, the domain stays ON. -/
theorem request_lingerEnded_of_demand (h : x.host = true ∨ x.mailbox = true ∨ x.forceOn = true) :
    x.request .scheduled false = x.setUser .scheduled false ∧
    (x.request .scheduled false).request .work false = lingerEnded x := by
  have hd (y : Domain) (hy : y.host = x.host ∧ y.mailbox = x.mailbox ∧ y.forceOn = x.forceOn) : y.demand = true := by
    obtain ⟨h1, h2, h3⟩ := hy
    obtain h | h | h := h <;> simp [Domain.demand, h1, h2, h3, h]
  have h0 := hd x ⟨rfl, rfl, rfl⟩
  have h1 := hd (x.setUser .scheduled false) ⟨rfl, rfl, rfl⟩
  have h2 := hd ((x.setUser .scheduled false).setUser .work false) ⟨rfl, rfl, rfl⟩
  have hfirst : x.request .scheduled false = x.setUser .scheduled false := request_same (h1.trans h0.symm)
  refine ⟨hfirst, ?_⟩
  rw [hfirst, request_same (h2.trans h1.symm), lingerEnded, if_pos h, ← hon]
  rfl

/-- Without one the domain stops: with the demand of its work where it has that, else with that of its scheduled use. -/
theorem request_lingerEnded_of_none (huse : x.scheduled = true ∨ x.work = true)
    (h : ¬ (x.host = true ∨ x.mailbox = true ∨ x.forceOn = true)) :
    (x.request .scheduled false).request .work false = lingerEnded x := by
  simp only [not_or, Bool.not_eq_true] at h
  obtain ⟨hh, hm, hf⟩ := h
  have hend : lingerEnded x = { x with scheduled := false, work := false, st := .stopping } := by
    simp [lingerEnded, hh, hm, hf]
  rw [hend]
  cases hw : x.work with
  | true =>
    have hfirst : x.request .scheduled false = x.setUser .scheduled false :=
      request_same (by simp [Domain.demand, Domain.setUser, hw])
    rw [hfirst, request_fall (by simp [Domain.demand, Domain.setUser, hw]) (by simp [Domain.demand, Domain.setUser, hh, hm, hf]),
      disable_on (by simpa using hon)]
    rfl
  | false =>
    have hs : x.scheduled = true := huse.resolve_right (by simp [hw])
    have hfirst : x.request .scheduled false = { x.setUser .scheduled false with st := .stopping } := by
      rw [request_fall (by simp [Domain.demand, hs]) (by simp [Domain.demand, Domain.setUser, hw, hh, hm, hf]),
        disable_on (by simpa using hon)]
    rw [hfirst, request_same (by simp [Domain.demand, Domain.setUser, hw])]
    rfl

/-- The demand of the scheduled use and then that of the work: in between, no PLL stops that is needed after. -/
theorem request_lingerEnded (huse : x.scheduled = true ∨ x.work = true) :
    (x.request .scheduled false).request .work false = lingerEnded x ∧
    ((lingerEnded x).st = .starting ∨ (lingerEnded x).st = .on →
      (x.request .scheduled false).st = .starting ∨ (x.request .scheduled false).st = .on) := by
  by_cases h : x.host = true ∨ x.mailbox = true ∨ x.forceOn = true
  · obtain ⟨hfirst, hboth⟩ := request_lingerEnded_of_demand hon h
    refine ⟨hboth, fun _ => .inr ?_⟩
    rw [hfirst, setUser_st, hon]
  · refine ⟨request_lingerEnded_of_none hon huse h, fun hend => ?_⟩
    simp only [lingerEnded, if_neg h] at hend
    exact absurd hend (by decide)

end

theorem lingerExpire_ends {d : Nat} {s : State} (hd : domOk d = true) (hon : (dom s d).st = .on)
    (huse : (dom s d).scheduled = true ∨ (dom s d).work = true) (hstays : domStays s d = false) (hbusy : domBusy d s = false)
    (hnext : usedNext d s = false ∨ s.pwr.sub + getFld s Reg.PWR_CTL 11 8 < 32) :
    exec (.lingerExpire d) s = .next (domGo d s (lingerEnded (dom s d))) := by
  have h1 : 1 ≤ d := ((domOk_iff d).1 hd).1
  have hoff : (dom s d).st ≠ .off := by rw [hon]; decide
  have hlinger : domLingers d s = false := by
    rw [domLingers, Bool.and_eq_false_iff]
    exact hnext.imp_right fun h => decide_eq_false (by omega)
  have hno : ¬ (domStays s d = true ∨ domBusy d s = true ∨ domLingers d s = true) := by simp [hstays, hbusy, hlinger]
  have hfirst : domRequest d .scheduled false s = domGo d s ((dom s d).request .scheduled false) := by
    rw [domRequest_eq hd, domNext_of_not_stays hstays]
  obtain ⟨hreq, hruns⟩ := request_lingerEnded hon huse
  have hx : exec (.lingerExpire d) s = .next (domRequest d .work false (domRequest d .scheduled false s)) := if_neg hno
  rw [hx, hfirst, domRequest_eq hd, domNext_of_not_stays (by rw [domStays_domGo h1, hstays]), dom_domGo h1 hoff,
    hreq]
  exact congrArg _ (domGo_domGo h1 hoff hruns)

theorem lingerExpire_stays {d : Nat} {s : State} (h : domStays s d = true ∨ domBusy d s = true ∨
    (usedNext d s = true ∧ 32 ≤ s.pwr.sub + getFld s Reg.PWR_CTL 11 8)) : exec (.lingerExpire d) s = .next s := by
  have hyes : domStays s d = true ∨ domBusy d s = true ∨ domLingers d s = true := by
    simpa only [domLingers, Bool.and_eq_true, decide_eq_true_eq] using h
  exact if_pos hyes

/-! ### A start and a stop -/

section
variable {d : Nat} {s : State} (hd : domOk d = true)
include hd

theorem domainStartDone_exec (h : (dom s d).st = .starting) : exec (.domainStartDone d) s = .next (pllStop (setDom d
    { dom s d with st := if (dom s d).demand = true then .on else .stopping } (pllStarted d s))) := by
  rw [← startDone_eq h]
  exact if_pos ⟨hd, h⟩

theorem domainStartTimeout_exec (h : (dom s d).st = .starting) :
    exec (.domainStartTimeout d) s = .next (cause Reg.PWR_CAUSE 5 (domGo d s { dom s d with st := .off })) :=
  if_pos ⟨hd, h⟩

theorem domainStopDone_exec (h : (dom s d).st = .stopping) :
    exec (.domainStopDone d) s = .next (domGo d s (dom s d).stopDone) := if_pos ⟨hd, h⟩

/-- A change of demand makes the transition of R409's table. -/
theorem domRequest_exec (u : DomUser) : exec (.domainEnableRequest d u) s = .next (domGo d s (domNext d u true s)) ∧
    exec (.domainDisableRequest d u) s = .next (domGo d s (domNext d u false s)) :=
  ⟨congrArg _ (domRequest_eq hd u true s), congrArg _ (domRequest_eq hd u false s)⟩

end

end Sys2Proof.Machine

/-- Settles O22: a change of demand is `domNext` by R409's table; linger is two such changes, of which the last counts. -/
theorem domainStates : Obligations.DomainStates := by
  intro d s h1 h17
  have hd : domOk d = true := (domOk_iff d).2 ⟨h1, h17⟩
  dsimp only
  refine ⟨fun u p hp hlinger => ?_, fun hst => ⟨domainStartDone_exec hd hst, domainStartTimeout_exec hd hst⟩,
    fun hst => ⟨fun hr => ?_, fun hr => ?_⟩, fun hu hsub => if_pos ⟨hu, hsub⟩, fun hu => if_neg (by simp [hu]),
    fun hon huse hs hb hn => lingerExpire_ends hd hon huse hs hb hn, lingerExpire_stays,
    fun hl ht h48 => hostLingerExpire_lingers ht h48 hl⟩
  · have hexec : exec p.1 s = .next (domGo d s (domNext d p.2.1 p.2.2 s)) := by
      simp only [List.mem_cons, List.not_mem_nil, or_false] at hp
      obtain rfl | rfl | rfl := hp
      · exact (domRequest_exec hd u).1
      · exact (domRequest_exec hd u).2
      · obtain ⟨hl, ht, h48⟩ := hlinger rfl
        exact hostLingerExpire_exec hd ht h48 hl
    have hgo {z : Domain} (h : domNext d p.2.1 p.2.2 s = z) : exec p.1 s = .next (pllStop (setDom d z s)) := h ▸ hexec
    have hy : ((dom s d).setUser p.2.1 p.2.2).st = (dom s d).st := setUser_st ..
    have hn : ((dom s d).setUser p.2.1 p.2.2).starts = (dom s d).starts := setUser_starts ..
    refine ⟨fun h => hgo (domNext_same h), fun hx hy' => ⟨fun hst => ?_, fun hst => ?_, fun hst => ?_⟩,
      fun hx hy' hs => hgo (domNext_stays hx hy' hs), fun hx hy' hs => ⟨fun hst => ?_, fun hst => ?_, fun hst => ?_⟩⟩ <;>
    rw [← hy] at hst
    · rw [← hn]
      exact hgo ((domNext_rise hx hy').trans (enable_off hst))
    · exact hgo ((domNext_rise hx hy').trans (enable_running hst))
    · exact hgo ((domNext_rise hx hy').trans (enable_stopping hst))
    · exact hgo ((domNext_fall hx hy' hs).trans (disable_idle hst))
    · exact hgo ((domNext_fall hx hy' hs).trans (disable_on hst))
    · exact hgo ((domNext_fall hx hy' hs).trans (disable_stopping hst))
  · rw [domainStopDone_exec hd hst, stopDone_ends hst hr]
    rfl
  · rw [domainStopDone_exec hd hst, stopDone_restarts hst hr]
    rfl
end


section
/-! PAIR_ROLE through a boot (R493): only POWER_GOOD samples it, so every function that a boot calls leaves the sampled role as
it was. The view `roleOf` carries that through the boot's call tree, in the order of the definitions, up to `bootRun_role`. -/

open Sys2Proof Sys2Proof.Machine
namespace Sys2Proof.Machine

/-- PAIR_ROLE as it was sampled. -/
def roleOf (s : State) : Bool := s.red.roleB

@[simp] theorem role_views (s : State) : s.red.roleB = roleOf s := Eq.refl _

@[simp] theorem role_mk (a b c d) (dev : DevState) (pwr : PwrState) (e f g h i j k l m n) (red : RedState) (p q r t u v w) :
    roleOf (State.mk a b c d dev pwr e f g h i j k l m n red p q r t u v w) = red.roleB := Eq.refl _

theorem role_of_red {s t : State} (h : t.red = s.red) : roleOf t = roleOf s := congrArg RedState.roleB h

theorem Recorded.role {s t : State} (h : Recorded s t) : roleOf t = roleOf s := role_of_red h.red

theorem Journalled.role {s t : State} (h : Journalled s t) : roleOf t = roleOf s := role_of_red (by rw [h.rest])

theorem Worked.role {s t : State} (h : Worked s t) : roleOf t = roleOf s := role_of_red (by rw [h.rest])

theorem LatchOnly.role {s t : State} (h : LatchOnly s t) : roleOf t = roleOf s := role_of_red (by rw [h])

@[simp] theorem ite_role (c : Prop) [Decidable c] (a b : State) :
    roleOf (if c then a else b) = if c then roleOf a else roleOf b := by split <;> rfl

@[simp] theorem forL_role {α : Type} (xs : List α) (s : State) (f : α → State → State)
    (h : ∀ x t, roleOf (f x t) = roleOf t) : roleOf (forL xs s f) = roleOf s := forL_keeps roleOf xs s f h

@[simp] theorem forN_role (n : Nat) (s : State) (f : Nat → State → State)
    (h : ∀ x t, roleOf (f x t) = roleOf t) : roleOf (forN n s f) = roleOf s := forL_role (List.range n) s f h

/-! ### Memories, registers, the recorder and the sync link -/

@[simp] theorem memHeal_role (a n : Nat) (s : State) : roleOf (memHeal a n s) = roleOf s := Eq.refl _

@[simp] theorem setReg_role (a : Nat) (v : Word) (s : State) : roleOf (setReg a v s) = roleOf s := Eq.refl _

@[simp] theorem setFld_role (a hi lo v : Nat) (s : State) : roleOf (setFld a hi lo v s) = roleOf s := Eq.refl _

@[simp] theorem incFld_role (a hi lo : Nat) (s : State) : roleOf (incFld a hi lo s) = roleOf s := Eq.refl _

@[simp] theorem addFld_role (a hi lo n : Nat) (s : State) : roleOf (addFld a hi lo n s) = roleOf s := Eq.refl _

@[simp] theorem incReg_role (a : Nat) (s : State) : roleOf (incReg a s) = roleOf s := role_of_red (incReg_red ..)

@[simp] theorem fresh_role (s : State) : roleOf (fresh s).2 = roleOf s := Eq.refl _

@[simp] theorem nvWrite_role (off : Nat) (bs : List Byte) (s : State) : roleOf (nvWrite off bs s) = roleOf s := Eq.refl _

@[simp] theorem imgPut_role (r i : Nat) (w : DWord) (s : State) : roleOf (imgPut r i w s) = roleOf s :=
  role_of_red (imgPut_red ..)

@[simp] theorem evFlush_role (save : Bool) (s : State) : roleOf (evFlush save s) = roleOf s := (evFlush_recorded ..).role

@[simp] theorem evRaise_role (code source : Nat) (d0 d1 : Word) (s : State) :
    roleOf (evRaise code source d0 d1 s) = roleOf s := (evRaise_recorded ..).role

@[simp] theorem causeD_role (reg b src : Nat) (d0 d1 : Word) (s : State) : roleOf (causeD reg b src d0 d1 s) = roleOf s :=
  (causeD_recorded ..).role

@[simp] theorem cause_role (reg b : Nat) (s : State) : roleOf (cause reg b s) = roleOf s := (cause_recorded ..).role

@[simp] theorem causeS_role (reg b src : Nat) (s : State) : roleOf (causeS reg b src s) = roleOf s :=
  (causeS_recorded ..).role

@[simp] theorem redSend_role (m : SyncMsg) (s : State) : roleOf (redSend m s) = roleOf s := by
  simp [redSend]

@[simp] theorem redStream_role (m : SyncMsg) (s : State) : roleOf (redStream m s) = roleOf s := by simp [redStream]

@[simp] theorem redStatus_role (s : State) : roleOf (redStatus s) = roleOf s := by simp [redStatus]

/-! ### Channels -/

@[simp] theorem setChan_role (c : Nat) (x : ChanState) (s : State) : roleOf (setChan c x s) = roleOf s := Eq.refl _

@[simp] theorem scanRestart_role (p : Nat) (s : State) : roleOf (scanRestart p s) = roleOf s := Eq.refl _

@[simp] theorem pcSet_role (n : Nat) (x : PulseCtr) (s : State) : roleOf (pcSet n x s) = roleOf s := Eq.refl _

@[simp] theorem pcAssign_role (n : Nat) (r : Option Channel) (s : State) : roleOf (pcAssign n r s) = roleOf s := by
  unfold pcAssign
  dsimp only
  split <;> simp

@[simp] theorem pcPlace_role (t : Timetable) (s : State) : roleOf (pcPlace t s) = roleOf s := by simp [pcPlace]

@[simp] theorem ciForget_role (f : Nat → Bool) (s : State) : roleOf (ciForget f s) = roleOf s := by
  unfold ciForget
  dsimp only
  exact forL_keeps roleOf _ _ _ (fun _ _ => rfl)

@[simp] theorem ciImage_role (c : Nat) (w : DWord) (s : State) : roleOf (ciImage c w s) = roleOf s := by
  unfold ciImage
  dsimp only
  split <;> simp

@[simp] theorem chnPlace_role (old : Option Timetable) (t : Timetable) (s : State) : roleOf (chnPlace old t s) = roleOf s := by
  unfold chnPlace
  split <;> simp

/-! ### The journal writer -/

@[simp] theorem jnlPlace_role (r : JReq) (retries : Nat) (s : State) : roleOf (jnlPlace r retries s) = roleOf s :=
  (jnlPlace_journalled ..).role

@[simp] theorem jnlRepair_role (s : State) : roleOf (jnlRepair s) = roleOf s := (jnlRepair_journalled ..).role

@[simp] theorem jnlCompactOn_role (s : State) : roleOf (jnlCompactOn s) = roleOf s := (jnlCompactOn_journalled ..).role

@[simp] theorem jnlKick_role (s : State) : roleOf (jnlKick s) = roleOf s := (jnlKick_journalled ..).role

@[simp] theorem jnlRequest_role (r : JReq) (s : State) : roleOf (jnlRequest r s) = roleOf s :=
  (jnlRequest_journalled ..).role

@[simp] theorem jnlCopyA_role (readback : Option (List Byte)) (s : State) : roleOf (jnlCopyA readback s).1 = roleOf s := by
  unfold jnlCopyA
  dsimp only
  repeat' split
  all_goals simp

@[simp] theorem jnlCopyB_role (readback : Option (List Byte)) (s : State) : roleOf (jnlCopyB readback s) = roleOf s := by
  unfold jnlCopyB
  split <;> simp

@[simp] theorem jnlWriteNow_role (kind inst : Nat) (payload : List Byte) (s : State) :
    roleOf (jnlWriteNow kind inst payload s) = roleOf s := by
  unfold jnlWriteNow
  dsimp only
  split <;> simp

@[simp] theorem jnlRecover_role (s : State) : roleOf (jnlRecover s) = roleOf s := by
  unfold jnlRecover
  split <;> simp

/-! ### Meters -/

@[simp] theorem meterSet_role (m : Nat) (x : MeterSt) (s : State) : roleOf (meterSet m x s) = roleOf s := Eq.refl _

@[simp] theorem meterUpd_role (m : Nat) (f : MeterSt → MeterSt) (s : State) : roleOf (meterUpd m f s) = roleOf s := Eq.refl _

@[simp] theorem forMeters_role (f : Nat → Meter → State → State) (s : State) (h : ∀ m r t, roleOf (f m r t) = roleOf t) :
    roleOf (forMeters f s) = roleOf s := by
  unfold forMeters
  refine forN_role _ _ _ fun m t => ?_
  split
  · exact h ..
  · rfl

@[simp] theorem mtrLog_role (kind meter detail : Nat) (data : List Byte) (s : State) :
    roleOf (mtrLog kind meter detail data s) = roleOf s := by simp [mtrLog]

@[simp] theorem mtrLogBoot_role (s : State) : roleOf (mtrLogBoot s) = roleOf s := by
  unfold mtrLogBoot
  dsimp only
  split <;> simp

@[simp] theorem tariffSelect_role (data : Word) (s : State) : roleOf (tariffSelect data s) = roleOf s :=
  role_of_red (tariffSelect_red ..)

@[simp] theorem tariffApply_role (d2 : Word) (s : State) : roleOf (tariffApply d2 s) = roleOf s := by
  simp [tariffApply]

@[simp] theorem dayofsApply_role (data : Word) (s : State) : roleOf (dayofsApply data s) = roleOf s := by simp [dayofsApply]

@[simp] theorem testPulseClear_role (s : State) : roleOf (testPulseClear s) = roleOf s := Eq.refl _

@[simp] theorem ivlClose_role (m code flags start newFlags : Nat) (s : State) :
    roleOf (ivlClose m code flags start newFlags s) = roleOf s := by simp [ivlClose]

@[simp] theorem totalsCapture_role (kind : Nat) (s : State) : roleOf (totalsCapture kind s).2 = roleOf s := Eq.refl _

@[simp] theorem totalsDone_role (ok : Bool) (s : State) : roleOf (totalsDone ok s) = roleOf s := by
  unfold totalsDone
  split <;> simp

@[simp] theorem totalsRequest_role (kind : Nat) (owner : JOwner) (s : State) :
    roleOf (totalsRequest kind owner s) = roleOf s := by simp [totalsRequest]

@[simp] theorem totalsCommand_role (s : State) : roleOf (totalsCommand s) = roleOf s := by
  unfold totalsCommand
  split <;> simp

@[simp] theorem logBound_role (m tSave tCut : Nat) (peak : Rat) (detail : Nat) (s : State) :
    roleOf (logBound m tSave tCut peak detail s) = roleOf s := by simp [logBound]

@[simp] theorem mtrPending_role (s : State) : roleOf (mtrPending s) = roleOf s := by simp [mtrPending]

@[simp] theorem mtrBound_role (m : Nat) (p : List Byte) (s : State) : roleOf (mtrBound m p s) = roleOf s := by
  unfold mtrBound
  dsimp only
  repeat' split
  all_goals simp

@[simp] theorem mtrMissed_role (m : Nat) (r : Meter) (b : List Byte) (s : State) : roleOf (mtrMissed m r b s) = roleOf s :=
  by
  unfold mtrMissed
  repeat' split
  all_goals simp

@[simp] theorem meterStart_role (p : Option (List Byte)) (m : Nat) (r : Meter) (s : State) :
    roleOf (meterStart p m r s) = roleOf s := by simp [meterStart]

@[simp] theorem mtrStart_role (s : State) : roleOf (mtrStart s) = roleOf s := by
  unfold mtrStart
  extract_lets p src s0 s1 s2 s3 seq
  have h0 : roleOf s0 = roleOf s := by simp [s0]
  have h1 : roleOf s1 = roleOf s0 := forN_role _ _ _ fun m t => by split <;> simp
  have h2 : roleOf s2 = roleOf s1 := by simp [s2]
  have h3 : roleOf s3 = roleOf s2 := by
    simp only [s3]
    clear_value p s2
    cases p with
    | none => rfl
    | some q =>
      dsimp only
      split
      · rfl
      · exact forN_role _ _ _ fun m t => by split <;> simp
  exact h3.trans (h2.trans (h1.trans h0))

@[simp] theorem mtrReady_role (s : State) : roleOf (mtrReady s) = roleOf s := by simp [mtrReady]

@[simp] theorem mtrCommit_role (old new : Timetable) (s : State) : roleOf (mtrCommit old new s) = roleOf s := by
  refine forN_role _ _ _ fun m t => ?_
  dsimp only
  repeat' split
  all_goals simp

@[simp] theorem mtrSelect_role (data : Word) (s : State) : roleOf (mtrSelect data s) = roleOf s :=
  role_of_red (mtrSelect_red ..)

@[simp] theorem mtrIvlSelect_role (data : Word) (s : State) : roleOf (mtrIvlSelect data s) = roleOf s :=
  role_of_red (mtrIvlSelect_red ..)

/-! ### Domains, the mailbox and keys -/

@[simp] theorem setDom_role (d : Nat) (x : Domain) (s : State) : roleOf (setDom d x s) = roleOf s := by
  simp [setDom]

@[simp] theorem pllStop_role (s : State) : roleOf (pllStop s) = roleOf s := Eq.refl _

@[simp] theorem domRequest_role (d : Nat) (u : DomUser) (b : Bool) (s : State) : roleOf (domRequest d u b s) = roleOf s := by
  simp [domRequest]

@[simp] theorem mbReply_role (result : Nat) (data : List Byte) (s : State) : roleOf (mbReply result data s) = roleOf s := by
  simp [mbReply]

@[simp] theorem mbLate_role (tag : Word) (result : Nat) (data : List Byte) (s : State) :
    roleOf (mbLate tag result data s) = roleOf s := by
  simp [mbLate]

@[simp] theorem setKey_role (k : KeyState) (s : State) : roleOf (setKey k s) = roleOf s := Eq.refl _

@[simp] theorem setKeyEntry_role (e : Nat) (x : KeyEntry) (s : State) : roleOf (setKeyEntry e x s) = roleOf s := Eq.refl _

@[simp] theorem maExtend_role (i : Nat) (v : List Byte) (s : State) : roleOf (maExtend i v s) = roleOf s := Eq.refl _

@[simp] theorem keyCounted_role (s : State) : roleOf (keyCounted s) = roleOf s := Eq.refl _

@[simp] theorem keyCount_role (s : State) : roleOf (keyCount s) = roleOf s := by simp [keyCount]

@[simp] theorem keyDurable_role (ok : Bool) (s : State) : roleOf (keyDurable ok s) = roleOf s := by
  unfold keyDurable
  split <;> simp

@[simp] theorem keyBootEntry_role (e : Nat) (s : State) : roleOf (keyBootEntry e s) = roleOf s := by
  unfold keyBootEntry
  dsimp only
  repeat' split
  all_goals simp

@[simp] theorem keyBoot_role (s : State) : roleOf (keyBoot s) = roleOf s := by simp [keyBoot]

@[simp] theorem keyClear_role (s : State) : roleOf (keyClear s) = roleOf s := Eq.refl _

/-! ### The station link and the archive -/

@[simp] theorem setSlk_role (k : SlkState) (s : State) : roleOf (setSlk k s) = roleOf s := Eq.refl _

@[simp] theorem setLine_role (p : Nat) (x : LineSt) (s : State) : roleOf (setLine p x s) = roleOf s :=
  role_of_red (setLine_red ..)

@[simp] theorem setStn_role (n : Nat) (x : StnSt) (s : State) : roleOf (setStn n x s) = roleOf s :=
  role_of_red (setStn_red ..)

@[simp] theorem stnState_role (n st : Nat) (s : State) : roleOf (stnState n st s) = roleOf s := Eq.refl _

@[simp] theorem stnBad_role (n : Nat) (s : State) : roleOf (stnBad n s) = roleOf s := by simp [stnBad]

@[simp] theorem slkDraw_role (old : Nat) (s : State) : roleOf (slkDraw old s).2 = roleOf s := by
  unfold slkDraw; split <;> rfl

@[simp] theorem lineStart_role (p : Nat) (s : State) : roleOf (lineStart p s) = roleOf s := by simp [lineStart]

@[simp] theorem slkReady_role (s : State) : roleOf (slkReady s) = roleOf s := Eq.refl _

@[simp] theorem slkPlace_role (s : State) : roleOf (slkPlace s) = roleOf s := Eq.refl _

@[simp] theorem stnLeave_role (r : Station) (s : State) : roleOf (stnLeave r s) = roleOf s := by
  unfold stnLeave
  simp

@[simp] theorem slkCommit_role (old : Timetable) (s : State) : roleOf (slkCommit old s) = roleOf s := by simp [slkCommit]

@[simp] theorem epochDurable_role (ok : Bool) (s : State) : roleOf (epochDurable ok s) = roleOf s := by
  unfold epochDurable
  split <;> simp

@[simp] theorem archReady_role (s : State) : roleOf (archReady s) = roleOf s := by
  unfold archReady
  split <;> simp

/-! ### The control engine and the loops -/

@[simp] theorem ceSet_role (e : Nat) (x : EngineSt) (s : State) : roleOf (ceSet e x s) = roleOf s := Eq.refl _

@[simp] theorem dataWrite_role (e a : Nat) (bs : List Byte) (s : State) : roleOf (dataWrite e a bs s) = roleOf s := Eq.refl _

@[simp] theorem retCapture_role (r : Retentive) (mid : Bool) (owner : JOwner) (s : State) :
    roleOf (retCapture r mid owner s) = roleOf s := by simp [retCapture]

@[simp] theorem retDone_role (e : Nat) (ok : Bool) (s : State) : roleOf (retDone e ok s) = roleOf s := by
  simp [retDone]

@[simp] theorem retInit_role (r : Retentive) (s : State) : roleOf (retInit r s) = roleOf s := by simp [retInit]

@[simp] theorem ceHalt_role (s : State) : roleOf (ceHalt s) = roleOf s := by simp [ceHalt]

@[simp] theorem ceReady_role (s : State) : roleOf (ceReady s) = roleOf s := by simp [ceReady]

@[simp] theorem cePlaceOne_role (t : Timetable) (e : Nat) (s : State) : roleOf (cePlaceOne t e s) = roleOf s := Eq.refl _

@[simp] theorem cePlace_role (t : Timetable) (s : State) : roleOf (cePlace t s) = roleOf s := by
  simp [cePlace]

@[simp] theorem ceRestart_role (old new : Timetable) (e : Nat) (s : State) : roleOf (ceRestart old new e s) = roleOf s := by
  unfold ceRestart
  repeat' split
  all_goals simp

@[simp] theorem ceCommit_role (old new : Timetable) (s : State) : roleOf (ceCommit old new s) = roleOf s := by
  simp [ceCommit]

@[simp] theorem patchEnter_role (staged masked : Bool) (s : State) : roleOf (patchEnter staged masked s) = roleOf s :=
  role_of_red (patchEnter_red ..)

@[simp] theorem loopSet_role (k : Nat) (x : LoopSt) (s : State) : roleOf (loopSet k x s) = roleOf s :=
  role_of_red (loopSet_red ..)

@[simp] theorem coefLoad_role (r : LoopRec) (s : State) : roleOf (coefLoad r s) = roleOf s := by simp [coefLoad]

@[simp] theorem injAbort_role (c : Nat) (s : State) : roleOf (injAbort c s) = roleOf s := role_of_red (injAbort_red ..)

@[simp] theorem injAbortLoop_role (k : Nat) (s : State) : roleOf (injAbortLoop k s) = roleOf s := by
  unfold injAbortLoop
  split <;> simp

@[simp] theorem capStop_role (c : Nat) (s : State) : roleOf (capStop c s) = roleOf s := role_of_red (capStop_red ..)

@[simp] theorem capSnap_role (s : State) : roleOf (capSnap s) = roleOf s := (capSnap_only ..).role

@[simp] theorem lpePlace_role (t : Timetable) (s : State) : roleOf (lpePlace t s) = roleOf s := by
  simp [lpePlace]

@[simp] theorem lpeLeaveRun_role (s : State) : roleOf (lpeLeaveRun s) = roleOf s := by simp [lpeLeaveRun]

@[simp] theorem loopChange_role (k : Nat) (s : State) : roleOf (loopChange k s) = roleOf s := by simp [loopChange]

@[simp] theorem loopClear_role (k : Nat) (s : State) : roleOf (loopClear k s) = roleOf s := by simp [loopClear]

@[simp] theorem lpeCommit_role (old new : Timetable) (s : State) : roleOf (lpeCommit old new s) = roleOf s := by
  refine forN_role _ _ _ fun k u => ?_
  dsimp only
  repeat' split
  all_goals simp

/-! ### Solvers, forecasts and the optimiser -/

@[simp] theorem fsPut_role (i : Nat) (ws : List Word) (s : State) : roleOf (fsPut i ws s) = roleOf s :=
  (fsPut_worked ..).role

@[simp] theorem fabAbandon_role (c : Nat) (s : State) : roleOf (fabAbandon c s) = roleOf s := (fabAbandon_worked ..).role

@[simp] theorem areaMove_role (s0 : State) (i j n : Nat) (s : State) : roleOf (areaMove s0 i j n s) = roleOf s := by
  simp [areaMove]

@[simp] theorem routePlace_role (old : Option Timetable) (t : Timetable) (s0 : State) (c k rg : Nat) (s : State) :
    roleOf (routePlace old t s0 c k rg s) = roleOf s := by
  unfold routePlace
  dsimp only
  split
  · refine (setReg_role ..).trans ?_
    repeat' split
    all_goals simp
  · simp

@[simp] theorem slvPlace_role (old : Option Timetable) (t : Timetable) (s : State) : roleOf (slvPlace old t s) = roleOf s :=
  by
  cases old <;> simp [slvPlace]

@[simp] theorem selftestStart_role (s : State) : roleOf (selftestStart s) = roleOf s := Eq.refl _

@[simp] theorem freeDuration_role (last mx : Nat) (s : State) : roleOf (freeDuration last mx s) = roleOf s :=
  (freeDuration_worked ..).role

@[simp] theorem hydCommit_role (old new : Timetable) (s : State) : roleOf (hydCommit old new s) = roleOf s := by
  simp [hydCommit]

@[simp] theorem hydStop_role (s : State) : roleOf (hydStop s) = roleOf s := role_of_red (hydStop_red ..)

@[simp] theorem pipeSet_role (e : Nat) (ws : List Wagon) (s : State) : roleOf (pipeSet e ws s) = roleOf s :=
  role_of_red (pipeSet_red ..)

@[simp] theorem ftrSeed_role (which : Element → Bool) (s : State) : roleOf (ftrSeed which s) = roleOf s :=
  role_of_red (ftrSeed_red ..)

@[simp] theorem ftrPlace_role (t : Timetable) (s : State) : roleOf (ftrPlace t s) = roleOf s := Eq.refl _

@[simp] theorem ftrCommit_role (old : Timetable) (s : State) : roleOf (ftrCommit old s) = roleOf s := by
  unfold ftrCommit
  extract_lets t same keep src s0 changed s1 s2
  have h1 : roleOf s1 = roleOf s := (forL_role _ _ _ fun e u => by dsimp only; split <;> simp).trans rfl
  have h2 : roleOf s2 = roleOf s := by simp only [s2]; split <;> simp [h1]
  split <;> simp [h2]

@[simp] theorem optEnd_role (outcome : Nat) (s : State) : roleOf (optEnd outcome s) = roleOf s := by
  simp [optEnd]

@[simp] theorem optAbandon_role (s : State) : roleOf (optAbandon s) = roleOf s := by simp [optAbandon]

@[simp] theorem optCommit_role (old : Timetable) (s : State) : roleOf (optCommit old s) = roleOf s := by
  simp [optCommit]

@[simp] theorem lpeEffect_role (a : Nat) (w : Word) (s : State) : roleOf (lpeEffect a w s) = roleOf s :=
  role_of_red (lpeEffect_red ..)

@[simp] theorem ceEffect_role (a : Nat) (w : Word) (s : State) : roleOf (ceEffect a w s) = roleOf s :=
  role_of_red (ceEffect_red ..)

@[simp] theorem mtrEffect_role (a : Nat) (w : Word) (s : State) : roleOf (mtrEffect a w s) = roleOf s := by
  simp [mtrEffect]

@[simp] theorem mgtEffect_role (a : Nat) (w : Word) (s : State) : roleOf (mgtEffect a w s) = roleOf s := by
  have hset : roleOf (after (execCalSet (field w 31 16) s) s) = roleOf s := by
    unfold execCalSet
    split <;> rfl
  have hinv : roleOf (after (execCalInvalidate (field w 31 16) s) s) = roleOf s := by
    unfold execCalInvalidate
    split <;> rfl
  have hsnap : roleOf (after (execSnapFire s) s) = roleOf s := by simp [execSnapFire, after, snapFire]
  simp [mgtEffect, hset, hinv, hsnap]

@[simp] theorem regEffect_role (a : Nat) (w : Word) (s : State) : roleOf (regEffect a w s) = roleOf s := by
  unfold regEffect
  repeat' split
  all_goals simp

/-! ### Parameters and through stations -/

@[simp] theorem applyReg_role (a : Nat) (w : Word) (s : State) : roleOf (applyReg a w s) = roleOf s := by
  unfold applyReg
  split <;> simp

@[simp] theorem applyEntry_role (a : Nat) (w : Word) (s : State) : roleOf (applyEntry a w s) = roleOf s := by
  unfold applyEntry
  split
  · split <;> simp
  · simp

@[simp] theorem bootBlockWrite_role (seq : Nat) (payload : List Byte) (s : State) :
    roleOf (bootBlockWrite seq payload s) = roleOf s := Eq.refl _

@[simp] theorem thruSetup_role (payload : List Byte) (s : State) : roleOf (thruSetup payload s) = roleOf s := Eq.refl _

@[simp] theorem thruDurable_role (s : State) : roleOf (thruDurable s) = roleOf s := by
  unfold thruDurable
  split <;> simp

@[simp] theorem thruBoot_role (powerUp : Bool) (s : State) : roleOf (thruBoot powerUp s) = roleOf s := by
  unfold thruBoot
  split <;> simp

@[simp] theorem thruRecover_role (s : State) : roleOf (thruRecover s) = roleOf s := by
  unfold thruRecover
  split <;> simp

@[simp] theorem thruPlace_role (t : Timetable) (s : State) : roleOf (thruPlace t s) = roleOf s := by simp [thruPlace]

@[simp] theorem thruCommit_role (t : Timetable) (s : State) : roleOf (thruCommit t s) = roleOf s := by simp [thruCommit]

@[simp] theorem setSlotRep_role (slot : Nat) (r : SlotReport) (s : State) : roleOf (setSlotRep slot r s) = roleOf s := by
  simp [setSlotRep]

@[simp] theorem slotReport_role (slot : Nat) (v : Verdict) (s : State) : roleOf (slotReport slot v s) = roleOf s := by
  simp [slotReport]

@[simp] theorem snapLatch_role (s : State) : roleOf (snapLatch s) = roleOf s := (snapLatch_only ..).role

@[simp] theorem snapStrobe_role (s : State) : roleOf (snapStrobe s) = roleOf s := by simp [snapStrobe]

/-! ### Transactions and the image -/

@[simp] theorem setTx_role (x : TxState) (s : State) : roleOf (setTx x s) = roleOf s := Eq.refl _

@[simp] theorem txEnd_role (result reason entry : Nat) (s : State) : roleOf (txEnd result reason entry s) = roleOf s :=
  Eq.refl _

@[simp] theorem txFail_role (reason entry : Nat) (s : State) : roleOf (txFail reason entry s) = roleOf s := by simp [txFail]

@[simp] theorem txDurable_role (ok : Bool) (s : State) : roleOf (txDurable ok s) = roleOf s := by
  unfold txDurable
  repeat' split
  all_goals simp

@[simp] theorem imgReset_role (r i : Nat) (s : State) : roleOf (imgReset r i s) = roleOf s := by
  unfold imgReset
  split <;> simp

@[simp] theorem tjErase_role (c : Nat) (s : State) : roleOf (tjErase c s) = roleOf s := by simp [tjErase]

@[simp] theorem tjUnused_role (steps c : Nat) (s : State) : roleOf (tjUnused steps c s) = roleOf s :=
  forN_role _ _ _ fun _ _ => rfl

@[simp] theorem tjSteps_role (a b c : Nat) (s : State) : roleOf (tjSteps a b c s) = roleOf s := by simp [tjSteps]

@[simp] theorem imgPlace_role (t : Timetable) (s : State) : roleOf (imgPlace t s) = roleOf s := by
  simp [imgPlace]

@[simp] theorem imgCommit_role (old new : Timetable) (s : State) : roleOf (imgCommit old new s) = roleOf s := by
  simp [imgCommit]

@[simp] theorem ttMeasure_role (t : Timetable) (s : State) : roleOf (ttMeasure t s) = roleOf s := Eq.refl _

@[simp] theorem fwVersions_role (s : State) : roleOf (fwVersions s) = roleOf s := Eq.refl _

@[simp] theorem fwPtrDurable_role (tag : Word) (ok : Bool) (s : State) : roleOf (fwPtrDurable tag ok s) = roleOf s := by
  unfold fwPtrDurable
  repeat' split
  all_goals simp

@[simp] theorem psBoot_role (s : State) : roleOf (psBoot s) = roleOf s := Eq.refl _

/-! ### The save and what a durable record starts -/

@[simp] theorem saveStep_role (n : Nat) (s : State) : roleOf (saveStep n s) = roleOf s := Eq.refl _

@[simp] theorem saveFinish_role (s : State) : roleOf (saveFinish s) = roleOf s := by simp [saveFinish]

@[simp] theorem saveSeal_role (s : State) : roleOf (saveSeal s) = roleOf s := by simp [saveSeal]

@[simp] theorem saveEvents_role (s : State) : roleOf (saveEvents s) = roleOf s := by simp [saveEvents]

@[simp] theorem saveRetentive_role (left : List Nat) (s : State) : roleOf (saveRetentive left s) = roleOf s := by
  unfold saveRetentive
  repeat' split
  all_goals simp

@[simp] theorem saveRetentives_role (s : State) : roleOf (saveRetentives s) = roleOf s := by
  unfold saveRetentives
  split <;> simp

@[simp] theorem saveTotals_role (s : State) : roleOf (saveTotals s) = roleOf s := by simp [saveTotals]

@[simp] theorem saveNext_role (s : State) : roleOf (saveNext s) = roleOf s := by
  unfold saveNext
  split <;> simp

@[simp] theorem loadDurable_role (ok : Bool) (s : State) : roleOf (loadDurable ok s) = roleOf s := by
  unfold loadDurable
  split <;> simp

@[simp] theorem jnlDone_role (o : JOwner) (ok : Bool) (s : State) : roleOf (jnlDone o ok s) = roleOf s := by
  unfold jnlDone
  repeat' split
  all_goals simp

@[simp] theorem jnlMirror_role (s : State) : roleOf (jnlMirror s) = roleOf s := by
  unfold jnlMirror
  split <;> simp

/-! ### Entering READY -/

@[simp] theorem clearCounters_role (s : State) : roleOf (clearCounters s) = roleOf s := by
  unfold clearCounters
  generalize readyCounters = cs
  dsimp only
  rw [role_mk, role_views]
  simp

@[simp] theorem pairIdle_role (s : State) : roleOf (pairIdle s) = roleOf s := Eq.refl _

@[simp] theorem stopWork_role (s : State) : roleOf (stopWork s) = roleOf s := by
  unfold stopWork
  split <;> simp

@[simp] theorem headwayReset_role (s : State) : roleOf (headwayReset s) = roleOf s := Eq.refl _

/-! ### The steps of a boot -/

@[simp] theorem bootRegs_role (s : State) : roleOf (bootRegs s) = roleOf s := Eq.refl _

@[simp] theorem bistReport_role (s : State) : roleOf (bistReport s) = roleOf s := by simp [bistReport]

@[simp] theorem bistRun_role (s : State) : roleOf (bistRun s) = roleOf s := by simp [bistRun]

@[simp] theorem fwPtrSet_role (p : Nat × Nat × Nat × Nat × Nat) (s : State) : roleOf (fwPtrSet p s) = roleOf s := by
  simp [fwPtrSet]

@[simp] theorem fwSelect_role (s : State) : roleOf (fwSelect s).2.2 = roleOf s := by
  unfold fwSelect
  repeat' split
  all_goals simp

@[simp] theorem fwStart_role (slot : Nat) (trial : Bool) (s : State) : roleOf (fwStart slot trial s) = roleOf s := by
  simp [fwStart]

@[simp] theorem fwBoot_role (s : State) : roleOf (fwBoot s) = roleOf s := by simp [fwBoot]

@[simp] theorem commitClose_role (s : State) : roleOf (commitClose s) = roleOf s := by simp [commitClose]

@[simp] theorem ptrRecover_role (s : State) : roleOf (ptrRecover s) = roleOf s := by
  unfold ptrRecover
  repeat' split
  all_goals simp

@[simp] theorem jnlAWritten_role (r : Option (List Byte)) (s : State) : roleOf (jnlAWritten r s) = roleOf s := by
  have h : roleOf (jnlCopyA r s).1 = roleOf s := jnlCopyA_role r s
  unfold jnlAWritten
  split
  · next heq =>
    rw [heq] at h
    rw [jnlDone_role]
    split
    · exact (jnlMirror_role _).trans h
    · exact h
  · next heq => rwa [heq] at h

@[simp] theorem jnlFinish_role (n : Nat) (s : State) : roleOf (jnlFinish n s) = roleOf s := by
  induction n generalizing s with
  | zero => rfl
  | succ n ih =>
    unfold jnlFinish
    split
    · rfl
    · rw [ih]
      split
      · exact jnlCopyB_role none s
      · exact jnlAWritten_role none s

@[simp] theorem slotsBackground_role (s : State) : roleOf (slotsBackground s) = roleOf s := by simp [slotsBackground]

@[simp] theorem setMode_role (m : Mode) (s : State) : roleOf (setMode m s) = roleOf s := by
  rw [setMode, redStatus_role, evRaise_role]
  rfl

@[simp] theorem enterReady_role (s : State) : roleOf (enterReady s) = roleOf s := by
  simp [enterReady]

@[simp] theorem ttCommit_role (new : Timetable) (slot : Nat) (s : State) :
    roleOf (ttCommit new slot s) = roleOf s := by
  simp [ttCommit]

@[simp] theorem bootCommon_role (s : State) : roleOf (bootCommon s) = roleOf s := by
  simp [bootCommon]

@[simp] theorem bootFull_role (s : State) : roleOf (bootFull s) = roleOf s := by
  simp [bootFull]

@[simp] theorem bootSequence_role (s : State) : roleOf (bootSequence s) = roleOf s := by
  simp [bootSequence]

@[simp] theorem bootHold_role (s : State) : roleOf (bootHold s) = roleOf s := by
  simp [bootHold]

@[simp] theorem ttPlace_role (t : Timetable) (slot : Nat) (s : State) : roleOf (ttPlace t slot s) = roleOf s := by
  simp [ttPlace]

@[simp] theorem sealRecover_role (known : Option Nat) (s : State) : roleOf (sealRecover known s) = roleOf s := by
  unfold sealRecover
  repeat' split
  all_goals simp

/-! ### A boot as a whole -/

theorem txApply_role (bound : Nat) (s : State) : roleOf (txApply bound s) = roleOf s := by
  unfold txApply
  dsimp only
  repeat' split
  all_goals simp

theorem commitRecover_role (s : State) : roleOf (commitRecover s).1 = roleOf s := by
  unfold commitRecover
  dsimp only
  repeat' split
  all_goals simp [txApply_role]

theorem txRecover_role (s : State) : roleOf (txRecover s).1 = roleOf s :=
  (sealRecover_role _ _).trans (commitRecover_role s)

theorem bootTimetable_role (s : State) : roleOf (bootTimetable s) = roleOf s := by
  unfold bootTimetable
  dsimp only
  repeat' split
  all_goals simp [role_views, role_mk, txRecover_role]

theorem bootRun_role (k : BootKind) (s : State) : roleOf (bootRun k s) = roleOf s := by
  cases k <;> simp [bootRun, bootTimetable_role]

end Sys2Proof.Machine
end


section
/-! ## RST_N, the supplies, VAO and power-fail warnings (R403, R406, R413, R416 to R419, R422, R423) -/

open Sys2Proof Sys2Proof.Machine
namespace Sys2Proof.Machine

/-! ### What a stop at once leaves alone -/

/-- A step that leaves the calendar, and the register file in canonical form. -/
structure KeepsTime (s t : State) : Prop where
  cal : t.mgt.cal = s.mgt.cal
  wf : RegsWf s → RegsWf t

theorem KeepsTime.refl (s : State) : KeepsTime s s := ⟨rfl, id⟩

theorem KeepsTime.of_eq {s t u : State} (h : KeepsTime s t) (hc : u.mgt.cal = t.mgt.cal) (hr : u.regs = t.regs) : KeepsTime s u :=
  ⟨hc.trans h.cal, fun hs => by rw [RegsWf, hr]; exact h.wf hs⟩

theorem KeepsTime.trans {s t u : State} (h : KeepsTime s t) (k : KeepsTime t u) : KeepsTime s u :=
  ⟨k.cal.trans h.cal, k.wf ∘ h.wf⟩

theorem nvWrite_keepsTime {s t : State} (h : KeepsTime s t) (off : Nat) (bs : List Byte) : KeepsTime s (nvWrite off bs t) :=
  h.of_eq rfl rfl

theorem nvWrites_keepsTime {s t : State} (h : KeepsTime s t) (page : List (Nat × List Byte)) :
    KeepsTime s (forL page t fun g s => nvWrite g.1 g.2 s) := by
  unfold forL
  induction page generalizing t with
  | nil => exact h
  | cons g page ih => exact ih (nvWrite_keepsTime h ..)

/-- Writes of the die that are cut short move the die and the free values alone. -/
theorem tornWrites_keepsTime (s : State) : KeepsTime s (tornWrites s) := by
  have h : KeepsTime s (fresh (fresh s).2).2 := (KeepsTime.refl s).of_eq rfl rfl
  unfold tornWrites
  dsimp only
  repeat' split
  all_goals grind [nvWrite_keepsTime, nvWrites_keepsTime, evWrite]

theorem unload_keepsTime (s : State) : KeepsTime s (unload s) := by
  have h (n : Nat) (t : State) (ht : KeepsTime s t) : KeepsTime s (forN n t fun k s =>
      setReg (Reg.SLK_ABS + 4 * k) 0 (setReg (Reg.SLK_PRES + 4 * k) 0 s)) :=
    forN_invariant n _ _ ht fun _ _ _ hu => ⟨hu.cal, fun hs => setReg_wf _ _ _ (setReg_wf _ _ _ (hu.wf hs))⟩
  unfold unload
  generalize 64 = n
  dsimp only
  generalize hu : forN n _ _ = u
  have hk : KeepsTime s u := by
    rw [← hu]
    refine h n _ ?_
    exact (KeepsTime.refl s).of_eq rfl rfl
  exact hk.of_eq rfl rfl

theorem crash_keepsTime (s : State) : KeepsTime s (crash s) := by
  have hunload := unload_keepsTime
  have h : KeepsTime s (evCut (tornWrites s)) := (tornWrites_keepsTime s).of_eq rfl rfl
  unfold crash
  generalize unload = f at hunload
  generalize evCut (tornWrites s) = u at h
  dsimp only
  generalize hv : f _ = v
  have hk : KeepsTime s v := by
    rw [← hv]
    refine .trans ?_ (hunload _)
    exact h.of_eq rfl rfl
  exact hk.of_eq rfl rfl

theorem psPerform_cal (a : Nat) (data : List Byte) (s : State) : (psPerform a data s).mgt.cal = s.mgt.cal := by
  unfold psPerform
  split
  · exact (cause_recorderOnly ..).cal
  · rfl

theorem psProgram_cal (s : State) : (psProgram s).mgt.cal = s.mgt.cal := by
  unfold psProgram
  split
  · exact (nvWrites_keepsTime (.refl s) s.ps.page).cal
  · rfl

theorem hostEnd_cal (s : State) : (hostEnd s).mgt.cal = s.mgt.cal := by
  unfold hostEnd
  split
  · rfl
  · dsimp only
    split
    · exact (psProgram_cal _).trans (psPerform_cal ..)
    · rfl

theorem rstAct_cal (low : Bool) (s : State) : (rstAct low s).mgt.cal = s.mgt.cal := by
  unfold rstAct
  dsimp only
  exact (crash_keepsTime (hostEnd s)).cal.trans (hostEnd_cal s)

theorem nth_replicate_self {α : Type} (n : Nat) (d : α) (i : Nat) : nth (List.replicate n d) i d = d := by
  unfold nth
  grind

/-- R416: a stop at once leaves no command and every switchable domain OFF. -/
theorem crash_idle (s : State) : (crash s).dev.cmd = none ∧ (crash s).pwr.doms = List.replicate 17 {} := by
  unfold crash
  generalize unload = f
  exact ⟨rfl, rfl⟩

theorem rstAct_idle (low : Bool) (s : State) : (rstAct low s).dev.cmd = none ∧ ∀ d, (dom (rstAct low s) d).st = .off := by
  obtain ⟨hc, hd⟩ := crash_idle (hostEnd s)
  unfold rstAct dom
  generalize crash (hostEnd s) = u at hc hd
  refine ⟨hc, fun d => ?_⟩
  rw [hd, nth_replicate_self]

/-! ### RST_N and the main supplies -/

theorem rstNAssert_short {n : Nat} (s : State) (h : n < 2000) : exec (.rstNAssert n) s = .next s := by
  have hseen : rstSeen n s = (false, s) := if_pos h
  change execRstNAssert n s = _
  simp [execRstNAssert, hseen]

section
variable {n : Nat} {s : State} (hn : 10000 ≤ n) (hl : s.pwr.rstLow = false) (hh : s.pwr.rstHeld = false ∨ s.pwr.rstGone = true)
include hn hl hh

/-- R416: a low from 10 µs on that finds the pin high counts, and PWR_RSTTIME takes the calendar time. -/
theorem rstNAssert_seen : exec (.rstNAssert n) s =
    let s1 := setReg Reg.PWR_RSTTIME (BitVec.ofNat 32 s.mgt.cal.seconds) s
    if s.pwr.saving then .next { s1 with pwr := { s.pwr with rstHeld := true, rstGone := false } } else .next (rstAct true s1) := by
  have hseen : rstSeen n s = (true, s) := (if_neg (by omega)).trans (if_pos hn)
  have hheld : s.pwr.rstHeld = true → s.pwr.rstGone = true := by grind
  change execRstNAssert n s = _
  unfold execRstNAssert
  rw [hseen]
  exact if_neg (by simpa [hl] using hheld)

theorem rstNAssert_acts (hs : s.pwr.saving = false) : ∃ t, exec (.rstNAssert n) s = .next t ∧ t.dev.mode = .boot ∧
    t.dev.bootPending = some .full ∧ t.dev.tt = none ∧ t.dev.cmd = none ∧ t.pwr.rstLow = true ∧
    (∀ d, 1 ≤ d → d ≤ 17 → (dom t d).st = .off) ∧ t.pwr.tick = s.pwr.tick ∧ t.mgt.cal = s.mgt.cal := by
  have h := rstAct_ctl true (setReg Reg.PWR_RSTTIME (BitVec.ofNat 32 s.mgt.cal.seconds) s)
  refine ⟨_, (rstNAssert_seen hn hl hh).trans (if_neg (by simp [hs])), mode_of_ctl h, congrArg Ctl.boot h, congrArg Ctl.tt h,
    (rstAct_idle ..).1, congrArg Ctl.rst h, fun d _ _ => (rstAct_idle ..).2 d, tick_of_ctl h, rstAct_cal ..⟩

end

/-- The boot that waits runs, and ends in READY or in HOLD. -/
theorem bootDo_runs {s : State} (hm : s.dev.mode = .boot) (hs : s.pwr.saving = false) (hr : s.pwr.rstLow = false)
    (hg : s.pwr.powerGood = true) (hb : s.dev.bootPending.isSome = true) :
    (bootDo s).dev.bootPending = none ∧ ((bootDo s).dev.mode = .ready ∨ (bootDo s).dev.mode = .hold) := by
  obtain ⟨k, hk⟩ := Option.isSome_iff_exists.1 hb
  have hdo : bootDo s = bootRun k { s with dev := { s.dev with bootPending := none } } := by
    unfold bootDo
    rw [hk]
    exact if_pos (by simp [hm, hs, hr, hg])
  rw [hdo]
  obtain h | ⟨x, h⟩ := bootRun_ctl k { s with dev := { s.dev with bootPending := none } }
  · exact ⟨congrArg Ctl.boot h, .inr (mode_of_ctl h)⟩
  · exact ⟨congrArg Ctl.boot h, .inl (mode_of_ctl h)⟩

/-- R493: PAIR_ROLE is not sampled by a boot. -/
theorem bootDo_role (s : State) : roleOf (bootDo s) = roleOf s := by
  unfold bootDo
  split
  · split
    · exact bootRun_role ..
    · rfl
  · rfl

theorem rstNRelease_boots {s : State} (b : BistReport) (hm : s.dev.mode = .boot) (hs : s.pwr.saving = false)
    (hh : s.pwr.rstHeld = false) (hl : s.pwr.rstLow = true) (hg : s.pwr.powerGood = true) (hb : s.dev.bootPending.isSome = true) :
    ∃ t, exec (.rstNRelease b) s = .next t ∧ t.pwr.rstLow = false ∧ t.dev.bootPending = none ∧
      (t.dev.mode = .ready ∨ t.dev.mode = .hold) := by
  refine ⟨_, (if_neg (by simp [hh])).trans (if_pos hl), (bootDo_supplies _).2, bootDo_runs hm hs rfl hg hb⟩

theorem powerGood_boots {s : State} (b : BistReport) (r : Bool) (hm : s.dev.mode = .boot) (hs : s.pwr.saving = false)
    (hg : s.pwr.powerGood = false) (hv : s.pwr.vao = true) (hl : s.pwr.rstLow = false) :
    ∃ t, exec (.powerGood b r) s = .next t ∧ t.pwr.powerGood = true ∧ t.red.roleB = r ∧ t.dev.bootPending = none ∧
      (t.dev.mode = .ready ∨ t.dev.mode = .hold) := by
  refine ⟨_, if_neg (by simp [hg, hv]), (bootDo_supplies _).1, bootDo_role _, bootDo_runs hm hs hl rfl rfl⟩

/-- R403, R413: while RST_N is low the boot waits. -/
theorem powerGood_waits {s : State} (b : BistReport) (r : Bool) (hg : s.pwr.powerGood = false) (hv : s.pwr.vao = true)
    (hl : s.pwr.rstLow = true) : exec (.powerGood b r) s = .next { s with
      pwr := { s.pwr with powerGood := true }
      mem := { s.mem with faults := b }
      red := { s.red with roleB := r }
      dev := { s.dev with bootPending := some .full } } := by
  refine (if_neg (by simp [hg, hv])).trans (congrArg Host.Outcome.next ?_)
  exact if_neg (by simp [hl])

theorem powerGoodLoss_stops {s : State} (hw : RegsWf s) (hg : s.pwr.powerGood = true) :
    ∃ t, exec .powerGoodLoss s = .next t ∧ t.pwr.powerGood = false ∧ t.dev.mode = .boot ∧ t.dev.tt = none ∧
      t.dev.bootPending = some .full ∧ getReg t Reg.PWR_CUT = BitVec.ofNat 32 s.mgt.cal.seconds ∧
      t.pwr.tick = s.pwr.tick ∧ t.mgt.cal = s.mgt.cal := by
  obtain ⟨hcal, hwf⟩ := crash_keepsTime s
  have h := crash_ctl s
  have hexec : exec .powerGoodLoss s =
      .next { powerLost (crash s) with slk := { (powerLost (crash s)).slk with thruOn := false, fwd := none } } := if_pos hg
  generalize crash s = u at hcal hwf h hexec
  refine ⟨_, hexec, rfl, mode_of_ctl h, congrArg Ctl.tt h, congrArg Ctl.boot h, ?_, tick_of_ctl h, hcal⟩
  have hcut := getReg_setReg Reg.PWR_CUT Reg.PWR_CUT (BitVec.ofNat 32 u.mgt.cal.seconds)
    { u with pwr := { u.pwr with powerGood := false } } (hwf hw)
  rw [if_pos rfl] at hcut
  exact hcut.trans (congrArg (fun c => BitVec.ofNat 32 c.seconds) hcal)

/-! ### VAO -/

/-- A number of units below 2^48 is its seconds and its fraction. -/
theorem calUnits_calOfUnits {u : Int} (h0 : 0 ≤ u) (h : u < 2 ^ 48) (valid : Bool) :
    calUnits { seconds := (calOfUnits u).1, frac := (calOfUnits u).2, valid } = u := by
  simp only [calUnits, calOfUnits]
  omega

/-- R406, R532: the calendar went on while VBAT held. -/
theorem calUnits_calHeld (c : CalState) (u : Nat) (h : calUnits c + u < 2 ^ 48) :
    calUnits (calHeld true u c) = calUnits c + u :=
  calUnits_calOfUnits (by simp only [calUnits]; omega) h _

theorem vaoRise_resets (held : Bool) (u : Nat) {s : State} (hg : s.pwr.powerGood = false) :
    ∃ t, exec (.vaoRise held u) s = .next t ∧ t.pwr.tick = 0 ∧ t.pwr.powerGood = false ∧ t.dev.mode = .boot ∧ t.nv = s.nv ∧
      t.pending = s.pending ∧ t.regs = [] ∧ (held = false → t.mgt.cal = {}) ∧
      (held = true → t.mgt.cal.valid = s.mgt.cal.valid ∧
        (calUnits s.mgt.cal + u < 2 ^ 48 → calUnits t.mgt.cal = calUnits s.mgt.cal + u)) := by
  have hs : (if s.pwr.powerGood then crash s else s) = s := if_neg (by simp [hg])
  refine ⟨_, rfl, rfl, rfl, rfl, ?_⟩
  rw [hs]
  refine ⟨rfl, rfl, rfl, ?_, ?_⟩
  · rintro rfl
    rfl
  · rintro rfl
    exact ⟨rfl, calUnits_calHeld _ u⟩

/-! ### Power-fail warnings -/

theorem powerFailWarning_short {n : Nat} {s : State} (h : n < getFld s Reg.PWR_PFW 5 0 * 1000) :
    exec (.powerFailWarning n) s = .next s :=
  if_pos (by simpa [pfwSeen] using h)

section
variable {n : Nat} {s : State} (h : getFld s Reg.PWR_PFW 5 0 * 1000 ≤ n)
include h

theorem pfwSeen_long : ¬ (!pfwSeen n s) = true := by simpa [pfwSeen] using h

theorem powerFailWarning_again (hs : s.pwr.saving = true ∨ s.pwr.saved = true) : exec (.powerFailWarning n) s =
    .next (cause Reg.PWR_CAUSE 0 { s with pwr := { s.pwr with pfwNow := true } }) :=
  (if_neg (pfwSeen_long h)).trans (if_pos hs)

theorem powerFailWarning_first (hs : s.pwr.saving = false) (hd : s.pwr.saved = false) :
    ∃ t, exec (.powerFailWarning n) s = .next t ∧ t.dev.mode = s.dev.mode ∧ t.pwr.tick = s.pwr.tick ∧ t.dev.bootPending = none := by
  obtain ⟨t, ht, hm, hb⟩ := execPowerFailWarning_saves h hs hd
  obtain ⟨u, hu, ⟨-, htick, -⟩, -⟩ := execPowerFailWarning_step n s
  obtain rfl : t = u := by simpa using ht.symm.trans hu
  exact ⟨t, ht, hm, htick, hb⟩

end

theorem pfwRecoverTimeout_resets {s : State} (hs : s.pwr.saved = true) (hg : s.pwr.powerGood = true) (hm : s.dev.mode ≠ .boot) :
    ∃ t, exec .pfwRecoverTimeout s = .next t ∧ t.dev.mode = .boot ∧ t.dev.bootPending = some .full ∧ t.dev.tt = none := by
  have h := enterBoot_ctl .full false true s
  exact ⟨_, (if_pos ⟨hs, hg⟩).trans (if_neg hm), mode_of_ctl h, congrArg Ctl.boot h, congrArg Ctl.tt h⟩

end Sys2Proof.Machine

/-- Settles O24, clause by clause: what a command decides (the pin, the filter, the supplies) picks the branch, and the laws of
`crash`, `bootRun` and `enterBoot` say what that branch leaves. -/
theorem suppliesResetsAndWarnings : Obligations.SuppliesResetsAndWarnings := by
  unfold Obligations.SuppliesResetsAndWarnings
  refine ⟨⟨fun ns s => ⟨rstNAssert_short s, fun hn hl hh => ⟨rstNAssert_acts hn hl hh, fun hs => ?_⟩⟩,
    fun b s => ⟨fun hh => if_pos hh, fun r hm hs => ⟨rstNRelease_boots b hm hs, powerGood_boots b r hm hs, powerGood_waits b r⟩⟩,
    fun s => powerGoodLoss_stops, fun held u s => vaoRise_resets held u⟩,
    fun ns s => ⟨powerFailWarning_short, fun h => ⟨powerFailWarning_again h, powerFailWarning_first h⟩, pfwRecoverTimeout_resets⟩⟩
  exact (rstNAssert_seen hn hl hh).trans (if_pos hs)
end


section
/-! ## Transaction commands, and O29 (R453, R458 to R460, R463, R465, R470) -/

open Sys2Proof Sys2Proof.Machine
namespace Sys2Proof.Machine

/-! ### The key, and the idle time (R458, R470) -/

theorem txKeyed_right {key : Nat} (f : State → State) (s : State) (h : key = 0xC0DE) :
    txKeyed key f s = .next (f (txTouch s)) := if_pos h

theorem txKeyed_wrong {key : Nat} (f : State → State) (s : State) (h : key ≠ 0xC0DE) :
    txKeyed key f s = .next (txCmd 2 (txTouch s)) := if_neg h

/-! ### BEGIN, ROLLBACK and the idle abort (R453, R458, R463) -/

/-- R453: a transaction opens. -/
def txOpened (s : State) : State := { s with tx := { s.tx with
  st := 1
  number := (s.tx.number + 1) % 2 ^ 32
  entries := []
  stagedSlot := none
  stagedTt := none
  prompt := false
  cmdStatus := 1
  idleTicks := 0 } }

section
variable {s : State}

theorem txBegin_opens (hm : s.dev.mode = .ready ∨ s.dev.mode = .run ∨ s.dev.mode = .safe) (h : s.tx.st = 0) :
    txBegin s = txOpened s := (if_pos hm).trans (if_neg (not_not_intro h))

theorem txBegin_busy (hm : s.dev.mode = .ready ∨ s.dev.mode = .run ∨ s.dev.mode = .safe) (h : s.tx.st ≠ 0) :
    txBegin s = txCmd 3 s := (if_pos hm).trans (if_pos h)

theorem txBegin_refused (hm : s.dev.mode = .boot ∨ s.dev.mode = .hold ∨ s.dev.mode = .standby) : txBegin s = txCmd 2 s := by
  refine if_neg ?_
  obtain h | h | h := hm <;> simp [h]

theorem txRollback_open (h : s.tx.st = 1) : txRollback s = txCmd 1 (txEnd 2 0 0 s) := if_pos h

theorem txRollback_refused (h : s.tx.st ≠ 1) : txRollback s = txCmd 2 s := if_neg h

theorem txIdle_aborts (h : s.tx.st = 1) (hi : txIdleTime s * 1024 ≤ s.tx.idleTicks) :
    txIdle s = cause Reg.JNL_CAUSE 4 (txEnd 3 0 0 s) := if_pos ⟨h, hi⟩

theorem txIdle_waits (h : s.tx.st ≠ 1 ∨ s.tx.idleTicks < txIdleTime s * 1024) : txIdle s = s := if_neg (by omega)

/-! ### COMMIT and COMMIT_PROMPT (R459, R460) -/

/-- R459: the validation of an open transaction begins. -/
def txValidating (prompt : Bool) (s : State) : State := setTx { s.tx with st := 2, prompt := prompt, cmdStatus := 1 } s

/-- R460 reason 6: a prompt commit needs the security policy's leave and no staged replacement. -/
def PromptGranted (prompt : Bool) (s : State) : Prop := prompt = true → secFlag s 2 = true ∧ s.tx.stagedSlot = none

theorem promptGranted_iff (prompt : Bool) (s : State) :
    PromptGranted prompt s ↔ ¬ (prompt = true ∧ ((!secFlag s 2) = true ∨ s.tx.stagedSlot.isSome = true)) := by
  simp [PromptGranted]

variable {prompt : Bool}

theorem txCommit_refused (h : s.tx.st ≠ 1) : txCommit prompt s = txCmd 2 s := if_pos h

section
variable (h : s.tx.st = 1)
include h

theorem txCommit_ungranted (hg : ¬ PromptGranted prompt s) : txCommit prompt s = txFail 6 0 (txValidating prompt s) :=
  (if_neg (not_not_intro h)).trans (if_pos (not_not.1 (mt (promptGranted_iff prompt s).2 hg)))

variable (hg : PromptGranted prompt s)
include hg

theorem txCommit_writerOpen (hw : s.dev.writer.isSome = true) : txCommit prompt s = txFail 2 0 (txValidating prompt s) :=
  (if_neg (not_not_intro h)).trans ((if_neg ((promptGranted_iff prompt s).1 hg)).trans (if_pos hw))

variable (hw : s.dev.writer = none)
include hw

theorem txCommit_staged {k : Nat} (hk : s.tx.stagedSlot = some k) :
    txCommit prompt s = slotUnchecked k true (txValidating prompt s) := by
  have hno : ¬ s.dev.writer.isSome = true := by simp [hw]
  refine (if_neg (not_not_intro h)).trans ((if_neg ((promptGranted_iff prompt s).1 hg)).trans ((if_neg hno).trans ?_))
  rw [hk]
  rfl

theorem txCommit_validates (hk : s.tx.stagedSlot = none) : txCommit prompt s = txValidate (txValidating prompt s) := by
  have hno : ¬ s.dev.writer.isSome = true := by simp [hw]
  refine (if_neg (not_not_intro h)).trans ((if_neg ((promptGranted_iff prompt s).1 hg)).trans ((if_neg hno).trans ?_))
  rw [hk]
  rfl

end

/-! ### The set of entries (R460) -/

section
variable (ht : s.tx.stagedTt = none)
include ht

/-- Without a staged timetable the entries alone decide. -/
theorem txValidate_refuses {i : Nat} (hi : s.tx.entries.findIdx? (entryRefused s (txFinal s)) = some i) :
    txValidate s = txFail 1 i s := by
  refine (if_neg (by simp [ht])).trans ?_
  simp only [hi]

theorem txValidate_passes (hp : ∀ e ∈ s.tx.entries, entryRefused s (txFinal s) e = false)
    (hm : ∀ e ∈ s.tx.entries, entryMetrological e = false) : txValidate s = txWrite s := by
  have hnone : s.tx.entries.findIdx? (entryRefused s (txFinal s)) = none := List.findIdx?_eq_none_iff.2 hp
  have hany : ¬ (s.tx.entries.any entryMetrological = true ∧ logFull s) := fun ⟨ha, _⟩ => by
    obtain ⟨e, he, hme⟩ := List.any_eq_true.1 ha
    simp [hm e he] at hme
  refine (if_neg (by simp [ht])).trans ?_
  simp only [hnone]
  exact if_neg hany

end

end

/-- The first entry that `p` picks is the one that the search finds. -/
theorem findIdx?_of_first {α : Type} {p : α → Bool} {xs : List α} {i : Nat} {x : α} (hx : xs[i]? = some x) (hp : p x = true)
    (hfirst : ∀ j < i, ∀ y, xs[j]? = some y → p y = false) : xs.findIdx? p = some i := by
  obtain ⟨hi, rfl⟩ := List.getElem?_eq_some_iff.1 hx
  refine List.findIdx?_eq_some_iff_getElem.2 ⟨hi, hp, fun j hj => ?_⟩
  simp [hfirst j hj _ (List.getElem?_eq_getElem (hj.trans hi))]

theorem entryMetrological_eq_false {e : Nat × Word} (h : e.1 ≠ Reg.MTR_TAR_D + 8 ∧ e.1 ≠ Reg.MTR_DAYOFS) :
    entryMetrological e = false := by
  simp [entryMetrological, h.1, h.2]

/-- The rows that end a transaction refuse where none is open. -/
theorem txRow_keyed {c : Instr} {key : Nat} (hc : c ∈ [Instr.commit key, .commitPrompt key, .rollback key]) (s : State) :
    ∃ f, exec c s = txKeyed key f s ∧ ∀ t : State, t.tx.st ≠ 1 → f t = txCmd 2 t := by
  simp only [List.mem_cons, List.not_mem_nil, or_false] at hc
  obtain rfl | rfl | rfl := hc
  · exact ⟨txCommit false, rfl, fun _ => txCommit_refused⟩
  · exact ⟨txCommit true, rfl, fun _ => txCommit_refused⟩
  · exact ⟨txRollback, rfl, fun _ => txRollback_refused⟩

/-- The two rows that commit, with the right key. -/
theorem commitRow_exec (prompt : Bool) (s : State) :
    exec (if prompt = true then .commitPrompt 0xC0DE else .commit 0xC0DE) s = .next (txCommit prompt (txTouch s)) := by
  cases prompt with
  | true => exact txKeyed_right _ s rfl
  | false => exact txKeyed_right _ s rfl

/-- R459 step 2: the record is that of the transaction as it is committed, its state no part of it. -/
theorem txWrite_eq (s : State) : txWrite s = jnlRequest
    { kind := 3, inst := 0, payload := commitPayload { s with tx := { s.tx with st := 3 } }, owner := .commit }
    { s with tx := { s.tx with st := 3 } } := rfl

end Sys2Proof.Machine

/-- Settles O29: each command is judged with its idle time restarted, and takes one branch of `txBegin`, `txRollback`,
`txCommit` or `txValidate`. -/
theorem transactionCommands : Obligations.TransactionCommands := by
  refine ⟨fun key s => ⟨fun hk hm h => ?_, fun hk hm h => ?_, fun hk hm => ?_, fun hk h => ?_, fun c hc h => ?_,
    fun hk => txKeyed_wrong _ s hk, fun h hi => congrArg _ (txIdle_aborts h hi), fun h => congrArg _ (txIdle_waits h)⟩,
    fun prompt s h => ?_⟩
  · exact (txKeyed_right _ s hk).trans (congrArg _ (txBegin_opens hm h))
  · exact (txKeyed_right _ s hk).trans (congrArg _ (txBegin_busy hm h))
  · exact (txKeyed_right _ s hk).trans (congrArg _ (txBegin_refused hm))
  · exact (txKeyed_right _ s hk).trans (congrArg _ (txRollback_open h))
  · obtain ⟨f, hrow, hf⟩ := txRow_keyed hc s
    rw [hrow]
    by_cases hk : key = 0xC0DE
    · exact (txKeyed_right f s hk).trans (congrArg _ (hf (txTouch s) (h.resolve_right (not_not_intro hk))))
    · exact txKeyed_wrong f s hk
  · intro c s1 failed granted
    have hrow := commitRow_exec prompt s
    refine ⟨fun hg => hrow.trans (congrArg _ (txCommit_ungranted (s := txTouch s) h hg)),
      fun hg hw => hrow.trans (congrArg _ (txCommit_writerOpen (s := txTouch s) h hg hw)),
      fun hg hw k hk => hrow.trans (congrArg _ (txCommit_staged (s := txTouch s) h hg hw hk)), fun hg hw hk ht => ?_⟩
    have hval : exec c s = .next (txValidate s1) := hrow.trans (congrArg _ (txCommit_validates (s := txTouch s) h hg hw hk))
    refine ⟨fun i e he hr hfirst => ?_, fun hp hm => ?_⟩
    · exact hval.trans (congrArg _ (txValidate_refuses (s := s1) ht (findIdx?_of_first he hr hfirst)))
    · exact hval.trans (congrArg _ ((txValidate_passes (s := s1) ht hp fun e he =>
        entryMetrological_eq_false (hm e he)).trans (txWrite_eq s1)))
end


section
/-! ## Parameter-store commands and pages, and O31 (R434, R437 to R439, R442) -/

open Sys2Proof Sys2Proof.Machine
namespace Sys2Proof.Machine

/-! ### Passwords and lockouts (R437, R438) -/

/-- R436, R437: a parameter-store command is heard. -/
def PsHeard (p key : Nat) (s : State) : Prop := key = 0xC0DE ∧ p < 4 ∧ hwStates s.dev.mode = true

/-- The lockout of one kind of access, its failures, and whether it is unlocked. -/
def Partition.lockOf (x : Partition) (wr : Bool) : Nat := if wr = true then x.writeLock else x.readLock
def Partition.failsOf (x : Partition) (wr : Bool) : Nat := if wr = true then x.writeFails else x.readFails
def Partition.openOf (x : Partition) (wr : Bool) : Bool := if wr = true then x.writeOpen else x.readOpen

section
variable {p key : Nat} {s : State} {wr : Bool}

theorem psKeyed_heard (f : State → State) (h : PsHeard p key s) : psKeyed p key f s = .next (f s) := if_pos h

theorem psKeyed_unheard (f : State → State) (h : ¬ PsHeard p key s) : psKeyed p key f s = .next (psDone 2 s) := if_neg h

theorem psUnlock_lockedOut (h : 0 < (psPart s p).lockOf wr) : psUnlock p wr s = psDone 3 s := if_pos h

theorem psUnlock_right (h : (psPart s p).lockOf wr = 0) (hc : psCheck p wr s.ps.key = psCheckOf s p wr) :
    psUnlock p wr s = psDone 1 (psStore p (setPart p ((psPart s p).put wr true 0 0) s)) :=
  (if_neg (by rw [← Partition.lockOf, h]; omega)).trans (if_pos hc)

theorem psUnlock_wrong (h : (psPart s p).lockOf wr = 0) (hc : psCheck p wr s.ps.key ≠ psCheckOf s p wr) :
    psUnlock p wr s = causeS Reg.JNL_CAUSE 9 p (psDone 3 (psStore p (setPart p
      ((psPart s p).put wr ((psPart s p).openOf wr) ((psPart s p).failsOf wr + 1)
        (psLockout s ((psPart s p).failsOf wr + 1))) s))) :=
  (if_neg (by rw [← Partition.lockOf, h]; omega)).trans (if_neg hc)

theorem psSet_open (h : (psPart s p).openOf wr = true) : psSet p wr s = psDone 1 (psStore p (setPart p
    (if wr = true then { psPart s p with writeCheck := psCheck p wr s.ps.key, readCheck := psCheckOf s p false }
      else { psPart s p with readCheck := psCheck p wr s.ps.key, writeCheck := psCheckOf s p true }) s)) := if_pos h

theorem psSet_closed (h : (psPart s p).openOf wr = false) : psSet p wr s = psDone 2 s :=
  if_neg (by rw [← Partition.openOf, h]; nofun)

/-- R438: the lockout after one more failure. -/
theorem psLockout_succ (n : Nat) (s : State) :
    psLockout s (n + 1) = min 86400 ((theTt s).security.lockoutBase * 2 ^ n) * 1024 := by
  rw [psLockout, Nat.add_sub_cancel]

end

/-! ### The die, byte by byte -/

/-- A byte of the die. -/
def nvByte (s : State) (x : Nat) : Byte := smGet nvDelivery s.nv x

theorem nvRead_byte (s : State) (x : Nat) : nvRead s x 1 = [nvByte s x] := rfl

theorem getElem?_nvRead {n i : Nat} (s : State) (off : Nat) (h : i < n) :
    (nvRead s off n)[i]? = some (nvByte s (off + i)) := by
  induction n generalizing off i with
  | zero => omega
  | succ n ih =>
    change (nvByte s off :: nvRead s (off + 1) n)[i]? = _
    cases i with
    | zero => rfl
    | succ i =>
      rw [List.getElem?_cons_succ, ih (off + 1) (by omega), Nat.add_right_comm, Nat.add_assoc]

/-- Bytes of the die that hold the elements of a list are read as that list. -/
theorem nvRead_eq_of_bytes {s : State} {off : Nat} {bs : List Byte}
    (h : ∀ i (hi : i < bs.length), nvByte s (off + i) = bs[i]) : nvRead s off bs.length = bs := by
  apply List.ext_getElem?
  intro i
  by_cases hi : i < bs.length
  · rw [getElem?_nvRead s off hi, h i hi, List.getElem?_eq_getElem hi]
  · have hlen : (nvRead s off bs.length).length = bs.length := length_smGetList ..
    rw [List.getElem?_eq_none (by omega), List.getElem?_eq_none (by omega)]

theorem nvByte_nvWrite_inside {off i : Nat} {bs : List Byte} {s : State} (h : NvWf s) (hi : i < bs.length) :
    nvByte (nvWrite off bs s) (off + i) = bs[i] := by
  have hread := congrArg (·[i]?) (nvRead_nvWrite off bs s h)
  simpa only [getElem?_nvRead _ off hi, List.getElem?_eq_getElem hi, Option.some.injEq] using hread

theorem nvByte_nvWrite_outside {off x : Nat} {bs : List Byte} {s : State} (h : NvWf s)
    (hx : x < off ∨ off + bs.length ≤ x) : nvByte (nvWrite off bs s) x = nvByte s x :=
  smGet_putList_of_outside _ _ _ _ _ h hx

/-- Byte `x` of the die lies in what a write puts there. -/
def Covers (x : Nat) (g : Nat × List Byte) : Prop := g.1 ≤ x ∧ x < g.1 + g.2.length

/-- Writes that put nothing but the bytes of `f` make a byte that of `f` where it already was, or where one of them covers
it, in whatever order they come. -/
theorem nvByte_nvWrites {f : Nat → Byte} {x : Nat} (page : List (Nat × List Byte)) (s : State) (hw : NvWf s)
    (hf : ∀ g ∈ page, ∀ i (hi : i < g.2.length), g.2[i] = f (g.1 + i))
    (hx : nvByte s x = f x ∨ ∃ g ∈ page, Covers x g) :
    nvByte (forL page s fun g s => nvWrite g.1 g.2 s) x = f x := by
  induction page generalizing s with
  | nil => simpa [forL] using hx
  | cons g page ih =>
    refine ih (nvWrite g.1 g.2 s) (nvWrite_wf _ _ s hw) (fun q hq => hf q (List.mem_cons_of_mem g hq)) ?_
    by_cases hc : Covers x g
    · obtain ⟨hlo, hhi⟩ := hc
      have hi : x - g.1 < g.2.length := by omega
      have hin := nvByte_nvWrite_inside (off := g.1) hw hi
      rw [hf g List.mem_cons_self _ hi, Nat.add_sub_cancel' hlo] at hin
      exact .inl hin
    · have hout : nvByte (nvWrite g.1 g.2 s) x = nvByte s x :=
        nvByte_nvWrite_outside hw (by unfold Covers at hc; omega)
      rw [hout]
      refine hx.imp id fun ⟨q, hq, hqc⟩ => ⟨q, ?_, hqc⟩
      exact (List.mem_cons.1 hq).resolve_left fun h => hc (h ▸ hqc)

/-! ### A burst in its page (R434, R439) -/

theorem find?_smInsert {α : Type} (m : List (Nat × α)) (k j : Nat) (v : α) :
    (smInsert m k v).find? (·.1 == j) = if k = j then some (k, v) else m.find? (·.1 == j) := by
  induction m with
  | nil =>
    grind [smInsert]
  | cons q m ih =>
    obtain ⟨k', v'⟩ := q
    unfold smInsert
    split
    · grind
    · split
      · grind
      · rw [List.find?_cons, ih]
        grind

/-- R439: what the page buffer holds at an offset after a burst that does not wrap. -/
theorem psBuffer_find? {a i j : Nat} {bs : List Byte} (acc : List (Nat × Byte)) (h : a % 256 + i + bs.length ≤ 256) :
    (psBuffer a i bs acc).find? (·.1 == j) =
      if hj : a % 256 + i ≤ j ∧ j < a % 256 + i + bs.length then some (j, bs[j - (a % 256 + i)])
      else acc.find? (·.1 == j) := by
  induction bs generalizing i acc with
  | nil =>
    rw [dif_neg (by simp)]
    rfl
  | cons b bs ih =>
    rw [List.length_cons] at h
    have hoff : psOffset a i = a % 256 + i := by unfold psOffset; omega
    rw [psBuffer, ih _ (by omega), find?_smInsert, hoff]
    grind


/-- R439: the page that an address of the store lies in, as an offset of the die. -/
def psPage (a : Nat) : Nat := (a - 0x08000000) / 256 * 256

/-- The die's bytes once a burst is programmed: those of the burst at its place, the others as they were. -/
def burstByte (a : Nat) (bs : List Byte) (s : State) (x : Nat) : Byte :=
  if hx : a - 0x08000000 ≤ x ∧ x < a - 0x08000000 + bs.length then bs[x - (a - 0x08000000)] else nvByte s x

/-- Granule `k` of the page with its new bytes. -/
def psGranule (a : Nat) (bs : List Byte) (s : State) (k : Nat) : Nat × List Byte :=
  (psPage a + 8 * k, (List.range 8).map fun j => burstByte a bs s (psPage a + 8 * k + j))

/-- The burst has touched granule `k` of its page. -/
def psTouched (a : Nat) (bs : List Byte) (k : Nat) : Bool := (psBuffer a 0 bs []).any fun y => y.1 / 8 == k

theorem psGranule_getElem (a : Nat) (bs : List Byte) (s : State) (k : Nat) {i : Nat} (hi : i < (psGranule a bs s k).2.length) :
    (psGranule a bs s k).2[i] = burstByte a bs s ((psGranule a bs s k).1 + i) := by
  simp only [psGranule, List.getElem_map, List.getElem_range]

theorem burstByte_of_outside {a : Nat} {bs : List Byte} {s : State} {x : Nat}
    (hx : x < a - 0x08000000 ∨ a - 0x08000000 + bs.length ≤ x) : burstByte a bs s x = nvByte s x := dif_neg (by omega)

theorem burstByte_of_inside (a : Nat) {bs : List Byte} (s : State) {i : Nat} (hi : i < bs.length) :
    burstByte a bs s (a - 0x08000000 + i) = bs[i] := by
  rw [burstByte, dif_pos (by omega)]
  simp only [Nat.add_sub_cancel_left]

section
variable {a : Nat} {bs : List Byte} (s : State) (ha : 0x08000000 ≤ a) (hl : a % 256 + bs.length ≤ 256)
include ha hl

/-- The page buffer holds the burst's byte of an offset, or none and the die's stays. -/
theorem psBuffer_burstByte (n : Nat) : burstByte a bs s (psPage a + n) =
    (((psBuffer a 0 bs []).find? (·.1 == n)).map (·.2)).getD (nvByte s (psPage a + n)) := by
  have hpage : psPage a + a % 256 = a - 0x08000000 := by unfold psPage; omega
  rw [psBuffer_find? [] hl, burstByte]
  by_cases hin : a % 256 + 0 ≤ n ∧ n < a % 256 + 0 + bs.length
  · have hix : psPage a + n - (a - 0x08000000) = n - (a % 256 + 0) := by omega
    rw [dif_pos hin, dif_pos (by omega)]
    simp only [hix, Option.map_some, Option.getD_some]
  · rw [dif_neg hin, dif_neg (by omega)]
    rfl

theorem psGranules_eq : psGranules a bs s = (List.range 32).filterMap fun i =>
    if psTouched a bs ((a % 256 / 8 + i) % 32) then some (psGranule a bs s ((a % 256 / 8 + i) % 32)) else none := by
  unfold psGranules
  extract_lets buf page first
  refine List.filterMap_congr fun i _ => ?_
  extract_lets k o
  refine ite_congr rfl (fun _ => ?_) fun _ => rfl
  refine congrArg (fun l => some (o, l)) (List.map_congr_left fun j _ => ?_)
  have hbuf := psBuffer_burstByte s ha hl (8 * k + j)
  rw [← Nat.add_assoc] at hbuf
  refine Eq.trans ?_ hbuf.symm
  split
  · next y hy => rw [hy]; rfl
  · next hy => rw [hy]; rfl

theorem mem_psGranules {g : Nat × List Byte} :
    g ∈ psGranules a bs s ↔ ∃ k < 32, psTouched a bs k = true ∧ g = psGranule a bs s k := by
  rw [psGranules_eq s ha hl, List.mem_filterMap]
  constructor
  · rintro ⟨i, -, hg⟩
    obtain ⟨ht, hg⟩ := Option.ite_none_right_eq_some.1 hg
    exact ⟨_, Nat.mod_lt _ (by decide), ht, (Option.some.inj hg).symm⟩
  · rintro ⟨k, hk, ht, rfl⟩
    have hi : (a % 256 / 8 + (k + 32 - a % 256 / 8) % 32) % 32 = k := by omega
    refine ⟨(k + 32 - a % 256 / 8) % 32, List.mem_range.2 (Nat.mod_lt _ (by decide)), ?_⟩
    rw [hi, if_pos ht]

theorem psGranules_covers {x : Nat} (hx : a - 0x08000000 ≤ x ∧ x < a - 0x08000000 + bs.length) :
    ∃ g ∈ psGranules a bs s, Covers x g := by
  have hpage : psPage a + a % 256 = a - 0x08000000 := by unfold psPage; omega
  obtain ⟨n, rfl⟩ : ∃ n, x = psPage a + n := ⟨x - psPage a, by omega⟩
  have hfind := psBuffer_find? (i := 0) (j := n) [] hl
  rw [dif_pos (by omega)] at hfind
  have htouched : psTouched a bs (n / 8) = true :=
    List.any_eq_true.2 ⟨_, List.mem_of_find?_eq_some hfind, by simp⟩
  refine ⟨_, (mem_psGranules s ha hl).2 ⟨n / 8, by omega, htouched, rfl⟩, ?_⟩
  simp only [Covers, psGranule, List.length_map, List.length_range]
  omega

end

/-! ### Programming the page (R439, R442) -/

theorem psBurst_page (a : Nat) (bs : List Byte) (s : State) : (psBurst a bs s).ps.page = psGranules a bs s := rfl

/-- The page is written, and nothing but the parameter store's state and its count follows. -/
theorem psProgram_programs {s : State} (h : s.ps.programming = true) (hr : RegsWf s) :
    (psProgram s).nv = (forL s.ps.page s fun g s => nvWrite g.1 g.2 s).nv ∧ (psProgram s).ps.programming = false ∧
      getFld (psProgram s) Reg.JNL_PS_CNT 15 0 = min 65535 (getFld s Reg.JNL_PS_CNT 15 0 + 1) := by
  rw [psProgram, if_pos h]
  extract_lets s1
  have hregs : s1.regs = s.regs := forL_keeps State.regs _ s _ fun _ _ => rfl
  have hwf : RegsWf (setPs { s1.ps with page := [], programming := false } s1) := by
    change smWf regReset s1.regs = true
    rwa [hregs]
  refine ⟨rfl, rfl, ?_⟩
  rw [getFld_incFld _ _ _ hwf (by decide) (by decide), satInc_16]
  simp only [getFld, getReg, setPs_regs, hregs]

theorem psPartOf_above {a p : Nat} (h : psPartOf a = some p) : 0x08000000 ≤ a := by
  obtain ⟨⟨hlo, -⟩, -⟩ := Option.ite_none_right_eq_some.1 h
  omega

/-- R439: once its page is programmed the die holds the burst, and is else as it was. -/
theorem nvByte_psProgram_psBurst {a : Nat} {bs : List Byte} {s : State} (ha : 0x08000000 ≤ a)
    (hl : a % 256 + bs.length ≤ 256) (hw : NvWf s) (hr : RegsWf s) (x : Nat) :
    nvByte (psProgram (psBurst a bs s)) x = burstByte a bs s x := by
  obtain ⟨hnv, -⟩ := psProgram_programs (s := psBurst a bs s) rfl hr
  rw [nvByte, hnv, ← nvByte]
  refine nvByte_nvWrites (f := burstByte a bs s) _ (psBurst a bs s) hw (fun g hg i hi => ?_) ?_
  · obtain ⟨k, -, -, rfl⟩ := (mem_psGranules s ha hl).1 hg
    exact psGranule_getElem a bs s k hi
  · by_cases hx : a - 0x08000000 ≤ x ∧ x < a - 0x08000000 + bs.length
    · exact .inr (psGranules_covers s ha hl hx)
    · exact .inl (burstByte_of_outside (by omega)).symm

section
variable {a p : Nat} {bs : List Byte} {s : State} (hp : psPartOf a = some p) (hne : bs ≠ [])
  (hprog : s.ps.programming = false) (hsave : s.pwr.saving = false)
include hp hne hprog hsave

theorem psWriteBurst_refused (hm : s.dev.mode ≠ .boot) (hr : psReason p true s ≠ 0) :
    exec (.psWriteBurst a bs) s = .next (psRefuse s) := by
  change execPsWriteBurst a bs s = _
  simp [execPsWriteBurst, hp, hne, hprog, hsave, hm, hr]

theorem psWriteBurst_programs (hr : psReason p true s = 0) (hw : NvWf s) (hregs : RegsWf s)
    (hl : a % 256 + bs.length ≤ 256) :
    ∃ t u, exec (.psWriteBurst a bs) s = .next t ∧ exec .psPageProgrammed t = .next u ∧ u.ps.programming = false ∧
      nvRead u (a - 0x08000000) bs.length = bs ∧
      (∀ b, b < a - 0x08000000 ∨ a - 0x08000000 + bs.length ≤ b → nvRead u b 1 = nvRead s b 1) ∧
      getFld u Reg.JNL_PS_CNT 15 0 = min 65535 (getFld s Reg.JNL_PS_CNT 15 0 + 1) := by
  have hbyte := nvByte_psProgram_psBurst (psPartOf_above hp) hl hw hregs
  obtain ⟨-, hidle, hcount⟩ := psProgram_programs (s := psBurst a bs s) rfl hregs
  refine ⟨_, _, execPsWriteBurst_takes hne hprog hsave hp hr, rfl, hidle, nvRead_eq_of_bytes fun i hi => ?_,
    fun b hb => ?_, hcount⟩
  · rw [hbyte, burstByte_of_inside a s hi]
  · rw [nvRead_byte, nvRead_byte, hbyte, burstByte_of_outside hb]

end

end Sys2Proof.Machine

/-- Settles O31: a command that is not heard, or one of the outcomes of `psUnlock`, `psLock` and `psSet`; a page programmed is
the bytes of `burstByte`. -/
theorem parameterStore : Obligations.ParameterStore := by
  refine ⟨fun p key wr s => ⟨fun hno c hc => ?_, fun hok hl => ?_, fun hok hl hr => ?_, fun hok hl hr => ?_, fun hok => ?_,
    fun hok ho => ?_, fun hok ho => ?_, fun hp hl => if_pos ⟨hl, hp⟩, fun hl => if_neg fun h => hl.ne' h.1, fun n => rfl⟩,
    fun a p bs s hp hne hprog hm hs => ⟨fun hr => ⟨execPsWriteBurst_takes hne hprog hs hp hr,
      psWriteBurst_programs hp hne hprog hs hr⟩, psWriteBurst_refused hp hne hprog hs hm⟩⟩
  · simp only [List.mem_cons, List.not_mem_nil, or_false] at hc
    obtain rfl | rfl | rfl := hc
    · exact psKeyed_unheard _ hno
    · exact psKeyed_unheard _ hno
    · exact psKeyed_unheard _ hno
  · exact (psKeyed_heard _ hok).trans (congrArg _ (psUnlock_lockedOut hl))
  · exact (psKeyed_heard _ hok).trans (congrArg _ (psUnlock_right hl hr))
  · refine (psKeyed_heard _ hok).trans (congrArg _ ?_)
    rw [psUnlock_wrong hl hr, psLockout_succ]
    rfl
  · exact psKeyed_heard _ hok
  · exact (psKeyed_heard _ hok).trans (congrArg _ (psSet_open ho))
  · exact (psKeyed_heard _ hok).trans (congrArg _ (psSet_closed ho))
end


section
/-! ## Journal copies, and O32 (R445, R446) -/

open Sys2Proof Sys2Proof.Machine
namespace Sys2Proof.Machine

/-! ### What a copy leaves in progress -/

/-- A list of the right length is not cut or padded. -/
theorem fit_of_length {α : Type} (d : α) {n : Nat} {xs : List α} (h : xs.length = n) : fit d n xs = xs := by
  subst h
  simp [fit]

/-- R422: without a reset that waits for a save, a copy's end starts none. -/
theorem rstAfterSave_of_not_held {s : State} (h : s.pwr.rstHeld = false) : rstAfterSave s = s := if_neg (by simp [h])

theorem redStream_jnl (m : SyncMsg) (s : State) : (redStream m s).jnl = s.jnl := by rw [redStream_rest]

theorem jnlMirror_rest (s : State) : jnlMirror s = { s with red := (jnlMirror s).red } := by
  unfold jnlMirror
  split
  · split
    · exact redStream_rest ..
    · rfl
  · rfl

/-- R451: with nothing to write, the journal writer rests. -/
theorem jnlKick_idle {s : State} (hs : s.pwr.saving = false) (hd : s.pwr.saved = false) (hq : s.jnl.queue = [])
    (hc : s.jnl.compacting = false) : jnlKick s = s := by
  unfold jnlKick
  split
  · rfl
  · split
    · rfl
    · simp [hs, hd, hq, hc]

/-- R444: opening a pair takes no number. -/
theorem jnlOpen_seq (s : State) : (jnlOpen s).jnl.seq = s.jnl.seq := by
  unfold jnlOpen
  extract_lets j k h s1 pairs start
  rfl

/-- R444, R446: a record that is given a place is in progress, not durable, under no number yet. -/
theorem jnlPlace_places (r : JReq) (n : Nat) (s : State) : (jnlPlace r n s).jnl.seq = s.jnl.seq ∧
    ∃ d, (jnlPlace r n s).jnl.cur = some d ∧ d.req.owner = r.owner ∧ d.durable = false ∧ d.retries = n := by
  unfold jnlPlace
  extract_lets r' bs k sp s1 j
  have hsp : sp.jnl.seq = s.jnl.seq := by
    unfold sp
    split
    · rfl
    · rfl
  have hs1 : s1.jnl.seq = s.jnl.seq := by
    unfold s1
    split
    · rfl
    · exact (jnlOpen_seq sp).trans hsp
  exact ⟨hs1, _, rfl, rfl, rfl, rfl⟩

/-! ### Copy A -/

/-- The state after copy A of `c` has been read back whole. -/
def copyADurable (c : JCur) (s : State) : State :=
  let s1 := nvWrite (segA c.pair + c.off) c.bytes s
  { s1 with jnl := { s1.jnl with
    seq := s1.jnl.seq + 1
    cur := some { c with durable := true, retries := 0 }
    live := jnlLive s1.jnl.live c.req.kind c.req.inst (s1.jnl.seq + 1) c.pair c.req.payload } }

section
variable {c : JCur} {s : State} (hc : s.jnl.cur = some c)
include hc

theorem jnlCopyA_whole (hd : c.durable = false) : jnlCopyA none s = (copyADurable c s, some (c.req.owner, true)) := by
  have hfit : fit 0#8 c.bytes.length ((none : Option (List Byte)).getD c.bytes) = c.bytes := fit_of_length _ rfl
  simp only [jnlCopyA, hc, hd, hfit, copyADurable]
  rfl

theorem jnlCopyA_again {back : List Byte} (hd : c.durable = false) (hl : back.length = c.bytes.length)
    (hb : back ≠ c.bytes) (hr : c.retries < 2) :
    jnlCopyA (some back) s = (jnlPlace c.req (c.retries + 1) (incFld Reg.JNL_CNT2 31 16
      { nvWrite (segA c.pair + c.off) back s with jnl := { s.jnl with cur := none } }), none) := by
  have hfit : fit 0#8 c.bytes.length ((some back).getD c.bytes) = back := fit_of_length _ hl
  simp only [jnlCopyA, hc, hd, hfit, if_neg hb, if_pos hr]
  rfl

theorem jnlAWritten_whole (hd : c.durable = false) (ho : c.req.owner = .done) :
    jnlAWritten none s = jnlMirror (copyADurable c s) := by
  rw [jnlAWritten, jnlCopyA_whole hc hd, ho]
  rfl

/-! ### Copy B -/

theorem jnlCopyB_whole (hd : c.durable = true) : jnlCopyB none s =
    jnlKick { nvWrite (segB c.pair + c.off) c.bytes s with jnl := { s.jnl with cur := none } } := by
  have hfit : fit 0#8 c.bytes.length ((none : Option (List Byte)).getD c.bytes) = c.bytes := fit_of_length _ rfl
  simp only [jnlCopyB, hc, hd, hfit]
  rfl

theorem jnlCopyB_again {back : List Byte} (hd : c.durable = true) (hl : back.length = c.bytes.length)
    (hb : back ≠ c.bytes) (hr : c.retries < 2) : jnlCopyB (some back) s =
    incFld Reg.JNL_CNT2 31 16 { nvWrite (segB c.pair + c.off) back s with jnl := { s.jnl with
      cur := some { c with retries := c.retries + 1 } } } := by
  have hfit : fit 0#8 c.bytes.length ((some back).getD c.bytes) = back := fit_of_length _ hl
  simp only [jnlCopyB, hc, hd, hfit, if_neg hb, if_pos hr]
  rfl

/-! ### The four rows of R445 and R446 -/

variable (hh : s.pwr.rstHeld = false)
include hh

theorem copyA_durable (hw : NvWf s) (hd : c.durable = false) (ho : c.req.owner = .done) :
    ∃ t, exec (.journalCopyAWritten none) s = .next t ∧
      nvRead t (segA c.pair + c.off) c.bytes.length = c.bytes ∧ t.jnl.seq = s.jnl.seq + 1 ∧
      t.jnl.cur = some { c with durable := true, retries := 0 } ∧
      (∀ o, o < segA c.pair + c.off ∨ segA c.pair + c.off + c.bytes.length ≤ o → nvRead t o 1 = nvRead s o 1) := by
  have hrest := jnlMirror_rest (copyADurable c s)
  have hexec : exec (.journalCopyAWritten none) s = .next (jnlMirror (copyADurable c s)) := by
    change (.next (rstAfterSave (jnlAWritten none s)) : Result) = _
    rw [jnlAWritten_whole hc hd ho, rstAfterSave_of_not_held]
    rw [hrest]
    exact hh
  refine ⟨_, hexec, ?_⟩
  rw [hrest]
  exact ⟨nvRead_nvWrite _ _ s hw, rfl, rfl, fun o => nvRead_nvWrite_of_outside _ o _ s hw⟩

theorem copyA_retries {back : List Byte} (hd : c.durable = false) (hl : back.length = c.bytes.length)
    (hb : back ≠ c.bytes) (hr : c.retries < 2) :
    ∃ t d, exec (.journalCopyAWritten (some back)) s = .next t ∧ t.jnl.seq = s.jnl.seq ∧ t.jnl.cur = some d ∧
      d.req.owner = c.req.owner ∧ d.durable = false ∧ d.retries = c.retries + 1 := by
  generalize hu : incFld Reg.JNL_CNT2 31 16 { nvWrite (segA c.pair + c.off) back s with jnl := { s.jnl with cur := none } } = u
  have hseq : u.jnl.seq = s.jnl.seq := by rw [← hu]; rfl
  have hheld : u.pwr.rstHeld = false := by rw [← hu]; exact hh
  have hexec : exec (.journalCopyAWritten (some back)) s = .next (jnlPlace c.req (c.retries + 1) u) := by
    change (.next (rstAfterSave (jnlAWritten (some back) s)) : Result) = _
    rw [jnlAWritten, jnlCopyA_again hc hd hl hb hr, hu, rstAfterSave_of_not_held]
    rw [(jnlPlace_journalled ..).rest]
    exact hheld
  obtain ⟨hs, d, hcur, hown, hdur, hret⟩ := jnlPlace_places c.req (c.retries + 1) u
  exact ⟨_, d, hexec, hs.trans hseq, hcur, hown, hdur, hret⟩

theorem copyB_done (hw : NvWf s) (hs : s.pwr.saving = false) (hsd : s.pwr.saved = false) (hd : c.durable = true)
    (hq : s.jnl.queue = []) (hcp : s.jnl.compacting = false) :
    ∃ t, exec (.journalCopyBWritten none) s = .next t ∧
      nvRead t (segB c.pair + c.off) c.bytes.length = c.bytes ∧ t.jnl.cur = none ∧ t.jnl.seq = s.jnl.seq ∧
      (∀ o, o < segB c.pair + c.off ∨ segB c.pair + c.off + c.bytes.length ≤ o → nvRead t o 1 = nvRead s o 1) := by
  have hexec : exec (.journalCopyBWritten none) s =
      .next { nvWrite (segB c.pair + c.off) c.bytes s with jnl := { s.jnl with cur := none } } := by
    change (.next (rstAfterSave (jnlCopyB none s)) : Result) = _
    rw [jnlCopyB_whole hc hd, jnlKick_idle, rstAfterSave_of_not_held]
    · exact hh
    · exact hs
    · exact hsd
    · exact hq
    · exact hcp
  exact ⟨_, hexec, nvRead_nvWrite _ _ s hw, rfl, rfl, fun o => nvRead_nvWrite_of_outside _ o _ s hw⟩

theorem copyB_retries {back : List Byte} (hw : NvWf s) (hd : c.durable = true) (hl : back.length = c.bytes.length)
    (hb : back ≠ c.bytes) (hr : c.retries < 2) :
    ∃ t, exec (.journalCopyBWritten (some back)) s = .next t ∧
      nvRead t (segB c.pair + c.off) c.bytes.length = back ∧
      t.jnl.cur = some { c with retries := c.retries + 1 } ∧ t.jnl.seq = s.jnl.seq := by
  have hexec : exec (.journalCopyBWritten (some back)) s =
      .next (incFld Reg.JNL_CNT2 31 16 { nvWrite (segB c.pair + c.off) back s with jnl := { s.jnl with
        cur := some { c with retries := c.retries + 1 } } }) := by
    change (.next (rstAfterSave (jnlCopyB (some back) s)) : Result) = _
    rw [jnlCopyB_again hc hd hl hb hr, rstAfterSave_of_not_held]
    exact hh
  exact ⟨_, hexec, hl ▸ nvRead_nvWrite _ _ s hw, rfl, rfl⟩

end

end Sys2Proof.Machine

/-- Settles O32: each copy is one write of the die, read back whole or written again. -/
theorem journalCopies : Obligations.JournalCopies := by
  intro back c s hc hw hh hs hsd hl a b
  exact ⟨fun hd ho => copyA_durable hc hh hw hd ho, fun hd hq hcp _ => copyB_done hc hh hw hs hsd hd hq hcp,
    fun hd hb hr => copyB_retries hc hh hw hd hl hb hr, fun hd hb hr => copyA_retries hc hh hd hl hb hr⟩
end


section
/-! ## Steps, answers, and the state at reset (R24, R406, R436, R623, R626) -/

open Sys2Proof Sys2Proof.Machine
namespace Sys2Proof.Machine

/-- At reset every sparse map is empty. -/
theorem canonical_reset : Canonical State.reset where
  regs := rfl
  nv := rfl
  tasks e := by
    have hce : ceGet State.reset e = {} := nth_replicate_self 8 ({} : EngineSt) e
    rw [hce]
    rfl
  loops := rfl
  stations := rfl
  through := rfl
  si := rfl
  so := rfl
  co := rfl
  ns := rfl

/-- In BOOT without a timetable the invariant of the device states holds. -/
theorem stateWf_reset : StateWf State.reset := (stateWf_iff _).2 (.of_boot rfl rfl)

/-- R404: at reset every domain is OFF, as a domain that nobody has touched. -/
theorem dom_reset (d : Nat) : dom State.reset d = {} := nth_replicate_self 17 ({} : Domain) (d - 1)

/-- R623: the part number stands in [27:12] of the identification code, whatever the revision. -/
theorem tapIdcode_part (s : State) : field (tapIdcode s) 27 12 = 0x7512 :=
  (field_setField_apart _ _ (by decide) (by decide) (by decide) (by decide)).trans
    (field_setField _ _ _ _ (by decide) (by decide))

/-- R623: the revision stands in [31:28]. -/
theorem tapIdcode_revision (s : State) : field (tapIdcode s) 31 28 = getFld s Reg.DEV_ID 19 16 % 16 :=
  field_setField _ _ _ _ (by decide) (by decide)

end Sys2Proof.Machine

/-- Settles O1: `step` takes the command that stands in front. -/
theorem stepPerformsFrontCommand : Obligations.StepPerformsFrontCommand := fun _ _ _ => rfl

/-- Settles O2: `exec_step` gives every command its next state and its queue. -/
theorem everyCommandAnswers : Obligations.EveryCommandAnswers := by
  refine ⟨fun s hq => ?_, fun c s => ?_⟩
  · rw [step, hq]
  · obtain ⟨t, ht, hstep⟩ := exec_step c s
    exact ⟨t, ht, hstep.pending⟩

/-- Settles O4: nothing has been written at reset, so each part is read off its default. -/
theorem resetState : Obligations.ResetState := by
  have hrevision : getFld State.reset Reg.DEV_ID 19 16 = 1 := by decide +kernel
  refine ⟨rfl, rfl, rfl, rfl, rfl, rfl, fun d _ _ => ?_, fun _ => rfl, fun _ => rfl, canonical_reset, stateWf_reset, rfl,
    tapIdcode_part _, ?_⟩
  · rw [dom_reset]
  · rw [tapIdcode_revision, hrevision]
end


section
/-! ## The check banks of a line: P, Q and rebuilding (R483, R484) -/

open Sys2Proof Sys2Proof.Machine
namespace Sys2Proof.Machine

/-! ### The field GF(2⁸) -/

theorem xor_cancel_left (a b : Byte) : a ^^^ (a ^^^ b) = b := by
  rw [← BitVec.xor_assoc, BitVec.xor_self, BitVec.zero_xor]

theorem xor_cancel_right (a b c : Byte) : (a ^^^ c) ^^^ (b ^^^ c) = a ^^^ b := by
  rw [BitVec.xor_comm b c, BitVec.xor_assoc, xor_cancel_left]

theorem gfDouble_xor (a b : Byte) : gfDouble (a ^^^ b) = gfDouble a ^^^ gfDouble b := by
  have hshift : (a ^^^ b) <<< 1 = a <<< 1 ^^^ b <<< 1 := BitVec.shiftLeft_xor_distrib ..
  simp only [gfDouble, BitVec.getLsbD_xor, hshift]
  cases a.getLsbD 7 <;> cases b.getLsbD 7
  · rfl
  · exact BitVec.xor_assoc ..
  · change a <<< 1 ^^^ b <<< 1 ^^^ 0x1D#8 = a <<< 1 ^^^ 0x1D#8 ^^^ b <<< 1
    ac_rfl
  · exact (xor_cancel_right ..).symm

theorem gfPow_xor (i : Nat) (a b : Byte) : gfPow i (a ^^^ b) = gfPow i a ^^^ gfPow i b := by
  induction i with
  | zero => rfl
  | succ i ih => rw [gfPow, ih, gfDouble_xor]; rfl

theorem gfPow_add (i j : Nat) (c : Byte) : gfPow (i + j) c = gfPow j (gfPow i c) := by
  induction j with
  | zero => rfl
  | succ j ih => exact congrArg gfDouble ih

theorem gfDouble_injective : Function.Injective gfDouble := by
  have h : ∀ c : Byte, gfDouble c = 0#8 → c = 0#8 := by decide +kernel
  intro a b hab
  have := h (a ^^^ b) (by rw [gfDouble_xor, hab, BitVec.xor_self])
  exact BitVec.xor_eq_zero_iff.1 this

theorem gfPow_injective (i : Nat) : Function.Injective (gfPow i) := by
  induction i with
  | zero => exact Function.injective_id
  | succ i ih => exact gfDouble_injective.comp ih

/-- g has an order above 15: no power up to g¹⁵ but 1 fixes a byte other than zero. -/
theorem gfPow_fixed : ∀ d < 16, d ≠ 0 → ∀ c : Byte, gfPow d c = c → c = 0#8 := by decide +kernel

/-- R484: two erased data words have two different factors, so P and Q tell them apart. -/
theorem gfPow_pair_injective {x y : Nat} (hx : x < 16) (hy : y < 16) (hxy : x ≠ y) :
    Function.Injective fun c => gfPow x c ^^^ gfPow y c := by
  have key {i j : Nat} (hj : j < 16) (hij : i < j) (c : Byte) (h : gfPow i c = gfPow j c) : c = 0#8 := by
    obtain ⟨d, rfl⟩ := Nat.exists_eq_add_of_lt hij
    rw [show i + d + 1 = (d + 1) + i by omega, gfPow_add] at h
    exact gfPow_fixed (d + 1) (by omega) (by omega) c (gfPow_injective i h).symm
  intro a b (hab : gfPow x a ^^^ gfPow y a = gfPow x b ^^^ gfPow y b)
  have hzero : gfPow x (a ^^^ b) = gfPow y (a ^^^ b) := by
    rw [gfPow_xor, gfPow_xor, ← BitVec.xor_eq_zero_iff]
    refine Eq.trans ?_ (BitVec.xor_eq_zero_iff.2 hab)
    ac_rfl
  rcases Nat.lt_or_gt_of_ne hxy with h | h
  · exact BitVec.xor_eq_zero_iff.1 (key hy h _ hzero)
  · exact BitVec.xor_eq_zero_iff.1 (key hx h _ hzero.symm)

theorem gfSolve_of_injective {f : Byte → Byte} (hf : Function.Injective f) (c : Byte) : gfSolve f (f c) = c := by
  have hmem : c ∈ (List.range 256).map (BitVec.ofNat 8) :=
    List.mem_map.2 ⟨c.toNat, List.mem_range.2 c.isLt, BitVec.ofNat_toNat ..⟩
  have hsome : (((List.range 256).map (BitVec.ofNat 8)).find? (fun x => f x == f c)).isSome = true :=
    List.find?_isSome.2 ⟨c, hmem, beq_self_eq_true _⟩
  obtain ⟨x, hx⟩ := Option.isSome_iff_exists.1 hsome
  have hfx : f x = f c := beq_iff_eq.1 (List.find?_some (p := fun x => f x == f c) hx)
  rw [gfSolve, hx]
  exact hf hfx

/-! ### P and Q as sums over the banks -/

/-- The sum over a lane, from bank `i`, of each byte under the map of its bank: P and Q of R483 are two of these. -/
def laneSum (f : Nat → Byte → Byte) (i : Nat) (ds : List Byte) : Byte :=
  match ds with
  | [] => 0#8
  | d :: ds => f i d ^^^ laneSum f (i + 1) ds

theorem laneP_eq_sum (i : Nat) (ds : List Byte) : laneP ds = laneSum (fun _ d => d) i ds := by
  induction ds generalizing i with
  | nil => rfl
  | cons d ds ih => exact congrArg (d ^^^ ·) (ih _)

theorem laneQFrom_eq_sum (i : Nat) (ds : List Byte) : laneQFrom i ds = laneSum gfPow i ds := by
  induction ds generalizing i with
  | nil => rfl
  | cons d ds ih => exact congrArg (gfPow i d ^^^ ·) (ih _)

/-- Another byte in one bank adds the map of the difference. -/
theorem laneSum_set {f : Nat → Byte → Byte} (hf : ∀ i a b, f i (a ^^^ b) = f i a ^^^ f i b) (i k : Nat) (new : Byte)
    (ds : List Byte) (hk : k < ds.length) :
    laneSum f i (ds.set k new) = laneSum f i ds ^^^ f (i + k) (nth ds k 0#8 ^^^ new) := by
  induction ds generalizing i k with
  | nil => exact absurd hk (by simp)
  | cons d ds ih =>
    cases k with
    | zero =>
      change f i new ^^^ laneSum f (i + 1) ds = f i d ^^^ laneSum f (i + 1) ds ^^^ f i (d ^^^ new)
      rw [hf, BitVec.xor_comm (f i d), BitVec.xor_assoc, xor_cancel_left, BitVec.xor_comm]
    | succ k =>
      have htail := ih (i + 1) k (Nat.lt_of_succ_lt_succ hk)
      change f i d ^^^ laneSum f (i + 1) (ds.set k new) = f i d ^^^ laneSum f (i + 1) ds ^^^ f (i + (k + 1)) (nth ds k 0#8 ^^^ new)
      rw [htail, BitVec.xor_assoc, Nat.add_right_comm, Nat.add_assoc]

theorem laneP_set {k : Nat} {ds : List Byte} (new : Byte) (hk : k < ds.length) :
    laneP (ds.set k new) = laneP ds ^^^ (nth ds k 0#8 ^^^ new) := by
  rw [laneP_eq_sum 0, laneP_eq_sum 0, laneSum_set (fun _ _ _ => rfl) 0 k new ds hk]

theorem laneQ_set {k : Nat} {ds : List Byte} (new : Byte) (hk : k < ds.length) :
    laneQ (ds.set k new) = laneQ ds ^^^ gfPow k (nth ds k 0#8 ^^^ new) := by
  rw [laneQ, laneQ, laneQFrom_eq_sum, laneQFrom_eq_sum, laneSum_set gfPow_xor 0 k new ds hk, Nat.zero_add]

/-- R483: a write keeps P and Q what they are of the lane's bytes. -/
theorem checkWrite_lane {k : Nat} {ds : List Byte} (new : Byte) (hk : k < ds.length) :
    checkWrite k (nth ds k 0#8) new (laneP ds, laneQ ds) = (laneP (setNth ds k new), laneQ (setNth ds k new)) := by
  rw [setNth, laneP_set new hk, laneQ_set new hk, checkWrite, BitVec.xor_assoc]

/-! ### Rebuilding a lane (R484) -/

/-- What is known of a lane: its bytes, the erased ones as zero. -/
def laneKept (banks : List Nat) (ds : List Byte) : List Byte :=
  (List.range ds.length).map (fun i => if banks.contains i then 0#8 else nth ds i 0#8)

/-- A lane with the bytes of some banks made zero. -/
def laneZeroed (es : List Nat) (ds : List Byte) : List Byte := es.foldl (fun l i => l.set i 0#8) ds

theorem getElem?_laneZeroed (es : List Nat) (ds : List Byte) (j : Nat) :
    (laneZeroed es ds)[j]? = if j ∈ es then ds[j]?.map (fun _ => 0#8) else ds[j]? := by
  induction es generalizing ds with
  | nil => rfl
  | cons e es ih =>
    rw [show laneZeroed (e :: es) ds = laneZeroed es (ds.set e 0#8) from rfl, ih]
    by_cases h : e = j
    · subst h
      rw [List.getElem?_set_self', if_pos List.mem_cons_self]
      cases ds[e]? <;> simp
    · simp [List.getElem?_set_ne h, Ne.symm h]

theorem mem_erasedData {banks : List Nat} {i : Nat} : i ∈ erasedData banks ↔ i < 16 ∧ i ∈ banks := by
  simp [erasedData]

theorem erasedData_nodup (banks : List Nat) : (erasedData banks).Nodup := List.nodup_range.filter _

theorem b2n_true : b2n true = 1 := rfl

theorem b2n_false : b2n false = 0 := rfl

theorem b2n_le_one (b : Bool) : b2n b ≤ 1 := by cases b <;> decide

/-- The number of a line's banks that are erased, P and Q among them. -/
def erasedCount (banks : List Nat) : Nat := ((List.range 18).filter (fun i => banks.contains i)).length

theorem erasedCount_eq (banks : List Nat) :
    erasedCount banks = (erasedData banks).length + b2n (banks.contains 16) + b2n (banks.contains 17) := by
  have single (i : Nat) : ([i].filter (fun i => banks.contains i)).length = b2n (banks.contains i) := by
    rw [List.filter_singleton]
    cases banks.contains i <;> rfl
  rw [erasedCount, List.range_succ, List.range_succ, List.filter_append, List.filter_append, List.length_append,
    List.length_append, single, single]
  rfl

section
variable {banks : List Nat} {ds held : List Byte} {p q : Byte} (hd : ds.length = 16) (hh : held.length = 16)
  (hkept : ∀ i < 16, i ∉ banks → nth held i 0#8 = nth ds i 0#8)
include hd hh hkept

/-- What is known of the lane is the lane with its erased bytes as zero. -/
theorem laneKept_eq : laneKept banks held = laneZeroed (erasedData banks) ds := by
  refine List.ext_getElem? fun j => ?_
  rw [getElem?_laneZeroed, laneKept, hh]
  by_cases hj : j < 16
  · have hds : ds[j]? = some (nth ds j 0#8) := by simp [nth, hd, hj]
    by_cases hb : j ∈ banks
    · simp [mem_erasedData, hj, hb, hds]
    · simp [mem_erasedData, hj, hb, hds, hkept j hj hb]
  · simp [mem_erasedData, hj, hd]

theorem laneRebuild_of_kept (he : erasedData banks = []) : laneRebuild banks held p q = some ds := by
  have hk : laneKept banks held = ds := (laneKept_eq hd hh hkept).trans (by rw [he]; rfl)
  rw [laneRebuild]
  simp only [he]
  exact congrArg some hk

section
variable {x : Nat} (he : erasedData banks = [x])
include he

theorem laneKept_one : x < ds.length ∧ laneKept banks held = ds.set x 0#8 :=
  ⟨hd ▸ (mem_erasedData.1 (he ▸ List.mem_singleton_self x)).1, (laneKept_eq hd hh hkept).trans (by rw [he]; rfl)⟩

/-- One erased data word comes back from P. -/
theorem laneRebuild_from_P (h16 : banks.contains 16 = false) (hp : p = laneP ds) :
    laneRebuild banks held p q = some ds := by
  obtain ⟨hx, hk⟩ := laneKept_one hd hh hkept he
  have hbyte : p ^^^ laneP (ds.set x 0#8) = nth ds x 0#8 := by
    rw [hp, laneP_set _ hx, BitVec.xor_zero, xor_cancel_left]
  have hres : laneRebuild banks held p q = some (setNth (laneKept banks held) x (p ^^^ laneP (laneKept banks held))) := by
    rw [laneRebuild]
    simp only [he, h16]
    rfl
  rw [hres, hk, hbyte]
  simp [setNth, nth, hx]

/-- With P erased too it comes back from Q. -/
theorem laneRebuild_from_Q (h16 : banks.contains 16 = true) (h17 : banks.contains 17 = false) (hq : q = laneQ ds) :
    laneRebuild banks held p q = some ds := by
  obtain ⟨hx, hk⟩ := laneKept_one hd hh hkept he
  have hbyte : gfSolve (gfPow x) (q ^^^ laneQ (ds.set x 0#8)) = nth ds x 0#8 := by
    rw [hq, laneQ_set _ hx, BitVec.xor_zero, xor_cancel_left, gfSolve_of_injective (gfPow_injective x)]
  have hres : laneRebuild banks held p q =
      some (setNth (laneKept banks held) x (gfSolve (gfPow x) (q ^^^ laneQ (laneKept banks held)))) := by
    rw [laneRebuild]
    simp only [he, h16, h17]
    rfl
  rw [hres, hk, hbyte]
  simp [setNth, nth, hx]

end

/-- Two erased data words come back from P and Q together. -/
theorem laneRebuild_two {x y : Nat} (he : erasedData banks = [x, y]) (h16 : banks.contains 16 = false)
    (h17 : banks.contains 17 = false) (hp : p = laneP ds) (hq : q = laneQ ds) : laneRebuild banks held p q = some ds := by
  have hx : x < 16 := (mem_erasedData.1 (he ▸ List.mem_cons_self)).1
  have hy : y < 16 := (mem_erasedData.1 (he ▸ List.mem_cons_of_mem x (List.mem_singleton_self y))).1
  have hxy : x ≠ y := by
    have hnd := erasedData_nodup banks
    rw [he] at hnd
    simpa using hnd
  have hk : laneKept banks held = (ds.set x 0#8).set y 0#8 := (laneKept_eq hd hh hkept).trans (by rw [he]; rfl)
  have hy0 : nth (ds.set x 0#8) y 0#8 = nth ds y 0#8 := nth_setNth_ne ds x y _ _ hxy
  have hP : p ^^^ laneP ((ds.set x 0#8).set y 0#8) = nth ds x 0#8 ^^^ nth ds y 0#8 := by
    rw [laneP_set _ (by simp [hd, hy]), laneP_set _ (by simp [hd, hx]), hy0, hp, BitVec.xor_zero, BitVec.xor_zero,
      BitVec.xor_assoc, xor_cancel_left]
  have hQ : q ^^^ laneQ ((ds.set x 0#8).set y 0#8) = gfPow x (nth ds x 0#8) ^^^ gfPow y (nth ds y 0#8) := by
    rw [laneQ_set _ (by simp [hd, hy]), laneQ_set _ (by simp [hd, hx]), hy0, hq, BitVec.xor_zero, BitVec.xor_zero,
      BitVec.xor_assoc, xor_cancel_left]
  have hdx : gfSolve (fun c => gfPow x c ^^^ gfPow y c) (gfPow x (nth ds x 0#8) ^^^ gfPow y (nth ds y 0#8) ^^^
      gfPow y (nth ds x 0#8 ^^^ nth ds y 0#8)) = nth ds x 0#8 := by
    rw [gfPow_xor, BitVec.xor_comm (gfPow y (nth ds x 0#8)), BitVec.xor_assoc, xor_cancel_left]
    exact gfSolve_of_injective (gfPow_pair_injective hx hy hxy) _
  have hres : laneRebuild banks held p q =
      let p1 := p ^^^ laneP (laneKept banks held)
      let dx := gfSolve (fun c => gfPow x c ^^^ gfPow y c) (q ^^^ laneQ (laneKept banks held) ^^^ gfPow y p1)
      some (setNth (setNth (laneKept banks held) x dx) y (p1 ^^^ dx)) := by
    rw [laneRebuild]
    simp only [he, h16, h17]
    rfl
  rw [hres, hk]
  have hlast : nth ds x 0#8 ^^^ nth ds y 0#8 ^^^ nth ds x 0#8 = nth ds y 0#8 := by
    rw [BitVec.xor_comm, xor_cancel_left]
  simp only [hP, hQ, hdx, hlast]
  refine congrArg some (List.ext_getElem? fun j => ?_)
  by_cases hjy : y = j
  · subst hjy
    simp [setNth, nth, hd, hy]
  · by_cases hjx : x = j
    · subst hjx
      rw [setNth, setNth, List.getElem?_set_ne hjy, List.getElem?_set_self (by simp [hd, hx])]
      simp [nth, hd, hx]
    · simp [setNth, List.getElem?_set_ne hjy, List.getElem?_set_ne hjx]

/-- R484: at most two erased words of a line are rebuilt. -/
theorem laneRebuild_few (hp : 16 ∉ banks → p = laneP ds) (hq : 17 ∉ banks → q = laneQ ds) (hn : erasedCount banks ≤ 2) :
    laneRebuild banks held p q = some ds := by
  have notMem {i : Nat} (h : banks.contains i = false) : i ∉ banks := fun hm => by simp [hm] at h
  rw [erasedCount_eq] at hn
  match he : erasedData banks, h16 : banks.contains 16, h17 : banks.contains 17 with
  | [], _, _ => exact laneRebuild_of_kept hd hh hkept he
  | [x], false, _ => exact laneRebuild_from_P hd hh hkept he h16 (hp (notMem h16))
  | [x], true, false => exact laneRebuild_from_Q hd hh hkept he h16 h17 (hq (notMem h17))
  | [x, y], false, false => exact laneRebuild_two hd hh hkept he h16 h17 (hp (notMem h16)) (hq (notMem h17))
  | [_], true, true | [_, _], true, _ | [_, _], false, true | _ :: _ :: _ :: _, _, _ =>
    simp only [he, h16, h17, List.length_cons, b2n_true] at hn
    omega

end

/-- R484: three erased words and more are lost. -/
theorem laneRebuild_many {banks : List Nat} {ds : List Byte} {p q : Byte} (hn : 2 < erasedCount banks) :
    laneRebuild banks ds p q = none := by
  have hP := b2n_le_one (banks.contains 16)
  have hQ := b2n_le_one (banks.contains 17)
  rw [erasedCount_eq] at hn
  match he : erasedData banks, h16 : banks.contains 16, h17 : banks.contains 17 with
  | [_], true, true | [_, _], true, _ | [_, _], false, true | _ :: _ :: _ :: _, _, _ =>
    rw [laneRebuild]
    simp only [he, h16, h17]
  | [], _, _ | [_], false, _ | [_], true, false | [_, _], false, false =>
    simp only [he, h16, h17, List.length_cons, List.length_nil, b2n_true, b2n_false] at hn hP hQ
    omega

/-- R484: whether a line can be rebuilt depends on the number of its erased words alone. -/
theorem rebuildable_iff (banks : List Nat) : rebuildable banks = true ↔ erasedCount banks ≤ 2 := by
  by_cases hn : erasedCount banks ≤ 2
  · have h := laneRebuild_few (banks := banks) (ds := List.replicate 16 0#8) (held := List.replicate 16 0#8) (p := 0#8)
      (q := 0#8) rfl rfl (fun _ _ _ => rfl) (fun _ => by decide) (fun _ => by decide) hn
    rw [rebuildable, h]
    simp [hn]
  · rw [rebuildable, laneRebuild_many (Nat.not_le.1 hn)]
    simp [hn]

/-- The banks of a line are eighteen, so its erased ones can be counted as they stand. -/
theorem erasedCount_of_nodup {banks : List Nat} (hb : ∀ b ∈ banks, b < 18) (hn : banks.Nodup) :
    erasedCount banks = banks.length := by
  refine List.Perm.length_eq ((List.perm_ext_iff_of_nodup (List.nodup_range.filter _) hn).2 fun b => ?_)
  simpa using hb b

end Sys2Proof.Machine
end


section
/-! ## Reads that meet memory errors, and O12 (R482, R484, R485, R490) -/

open Sys2Proof Sys2Proof.Machine
namespace Sys2Proof.Machine

theorem Recorded.mem {s t : State} (h : Recorded s t) : t.mem = s.mem := by rw [h]

/-! ### The three things that a read makes of a wrong word -/

section
variable (lost : Upset → State → State) {u : Upset} {s : State} (hu : u ∈ s.mem.upsets)
include hu

theorem memMeet_single (hd : u.double = false) :
    memMeet lost u s = memCorrected u.mem (memDrop (fun v => v == u) s) := by
  simp [memMeet, hu, hd]

theorem memMeet_rebuilds (hd : u.double = true) (hm : u.mem < 2) (hr : rebuildable (lineErasures u.mem u.line s) = true) :
    memMeet lost u s = memRebuilt u.mem (lineErasures u.mem u.line s).length
      (memBase u.mem + 128 * u.line + 8 * (erasedData (lineErasures u.mem u.line s)).getLastD 0)
      (memDrop (fun v => v.mem == u.mem && v.line == u.line && v.double) s) := by
  have hl : wordLost s u = false := by simp [wordLost, hr, hm]
  simp [memMeet, hu, hd, hl]

theorem memMeet_loses (hd : u.double = true) (hr : rebuildable (lineErasures u.mem u.line s) = false) (hb : u.bank < 16) :
    memMeet lost u s = lost u (memUncorrected u.mem (upsetAddr u) s) := by
  have hl : wordLost s u = true := by simp [wordLost, hr, hd]
  simp [memMeet, hu, hd, hl, hb]

end

/-! ### What is counted -/

/-- A 16-bit field that has counted up `n` times. -/
theorem getFld_incFlds {a hi lo : Nat} (h : hi < 32) (hw : hi = lo + 15) (n : Nat) {s : State} (hs : RegsWf s) :
    RegsWf (forN n s fun _ s => incFld a hi lo s) ∧
      getFld (forN n s fun _ s => incFld a hi lo s) a hi lo = min 65535 (getFld s a hi lo + n) := by
  have hbound : getFld s a hi lo < 2 ^ 16 := by
    have hlt : getFld s a hi lo < 2 ^ (hi + 1 - lo) := Nat.mod_lt _ (Nat.two_pow_pos _)
    rwa [show hi + 1 - lo = 16 by omega] at hlt
  induction n with
  | zero => exact ⟨hs, (Nat.min_eq_right (Nat.le_of_lt_succ hbound)).symm⟩
  | succ n ih =>
    obtain ⟨hwf, hcount⟩ := ih
    rw [forN_succ]
    refine ⟨setReg_wf _ _ _ hwf, ?_⟩
    rw [getFld_incFld a hi lo hwf h (by omega), show hi + 1 - lo = 16 by omega, satInc_16, hcount]
    omega

/-- The count registers of the memories are neither MEM_CAUSE nor the recorder's. -/
theorem memCnt_apart {k : Nat} (hk : k < 14) : Reg.MEM_M_CNT + 0x10 * k ∉ Reg.MEM_CAUSE :: evRegs := by
  simp only [evRegs, List.mem_cons, List.not_mem_nil, or_false, Reg.MEM_M_CNT, Reg.MEM_CAUSE, Reg.MGT_CAUSE,
    Reg.MGT_EVR_CNT]
  omega

/-- R490: a single-bit correction sets its cause and counts one. -/
theorem memCorrected_counts {k : Nat} (hk : k < 14) {s : State} (hs : RegsWf s) :
    getBit (memCorrected k s) Reg.MEM_CAUSE 0 = true ∧ (memCorrected k s).mem = s.mem ∧
      getFld (memCorrected k s) (Reg.MEM_M_CNT + 0x10 * k) 15 0 =
        min 65535 (getFld s (Reg.MEM_M_CNT + 0x10 * k) 15 0 + 1) := by
  have hinc : RegsWf (incFld (Reg.MEM_M_CNT + 0x10 * k) 15 0 s) := setReg_wf _ _ _ hs
  refine ⟨causeD_sets _ _ _ _ _ _ (by decide) (by decide) hinc, (cause_recorded ..).mem, ?_⟩
  rw [memCorrected, getFld_congr ((cause_regs _ _ _ hinc).2 _ (memCnt_apart hk)), getFld_incFld _ _ _ hs (by decide) (by decide)]
  exact satInc_16 _

/-- R490: the words that are rebuilt are counted. -/
theorem memRebuilt_counts {k : Nat} (hk : k < 14) (n a : Nat) {s : State} (hs : RegsWf s) :
    getBit (memRebuilt k n a s) Reg.MEM_CAUSE 1 = true ∧ (memRebuilt k n a s).mem = s.mem ∧
      getFld (memRebuilt k n a s) (Reg.MEM_M_CNT + 0x10 * k) 31 16 =
        min 65535 (getFld s (Reg.MEM_M_CNT + 0x10 * k) 31 16 + n) := by
  obtain ⟨hwf, hcount⟩ := getFld_incFlds (a := Reg.MEM_M_CNT + 0x10 * k) (hi := 31) (lo := 16) (by decide) rfl n hs
  have haddr : Reg.MEM_M_CNT + 0x10 * k ≠ Reg.MEM_M_ADDR + 0x10 * k := by
    simp only [Reg.MEM_M_CNT, Reg.MEM_M_ADDR]
    omega
  have hset := setReg_wf (Reg.MEM_M_ADDR + 0x10 * k) (BitVec.ofNat 32 a) _ hwf
  refine ⟨causeD_sets _ _ _ _ _ _ (by decide) (by decide) hset, (cause_recorded ..).mem.trans ?_, ?_⟩
  · exact forL_keeps State.mem _ s _ fun _ _ => rfl
  · rw [memRebuilt, getFld_congr ((cause_regs _ _ _ hset).2 _ (memCnt_apart hk)),
      getFld_congr ((getReg_setReg _ _ _ _ hwf).trans (if_neg haddr)), hcount]

theorem memUncorrected_sets (k a : Nat) {s : State} (hs : RegsWf s) : RegsWf (memUncorrected k a s) ∧
    getBit (memUncorrected k a s) Reg.MEM_CAUSE 2 = true ∧ (memUncorrected k a s).mem = s.mem := by
  have hset : RegsWf (setReg (Reg.MEM_M_ADDR + 0x10 * k) (BitVec.ofNat 32 a) (incFld (Reg.MEM_M_UNC + 0x10 * k) 15 0 s)) :=
    setReg_wf _ _ _ (setReg_wf _ _ _ hs)
  exact ⟨(cause_regs _ _ _ hset).1, causeD_sets _ _ _ _ _ _ (by decide) (by decide) hset, (cause_recorded ..).mem⟩

/-! ### What a lost word brings with it (R240, R485) -/

/-- `t` keeps the words of `s` that are wrong, and its MEM_CAUSE. -/
structure KeepsUpsets (s t : State) : Prop where
  mem : t.mem = s.mem
  regs : RegsWf s → RegsWf t ∧ getReg t Reg.MEM_CAUSE = getReg s Reg.MEM_CAUSE

namespace KeepsUpsets

theorem refl (s : State) : KeepsUpsets s s := ⟨rfl, fun h => ⟨h, rfl⟩⟩

theorem trans {s t u : State} (h : KeepsUpsets s t) (k : KeepsUpsets t u) : KeepsUpsets s u := by
  refine ⟨k.mem.trans h.mem, fun hs => ?_⟩
  obtain ⟨ht, he⟩ := h.regs hs
  obtain ⟨hu, he'⟩ := k.regs ht
  exact ⟨hu, he'.trans he⟩

theorem of_except {as : List Nat} {s t : State} (hm : t.mem = s.mem) (h : RegsExcept as s t) (ha : Reg.MEM_CAUSE ∉ as) :
    KeepsUpsets s t := ⟨hm, fun hs => ⟨(h hs).1, (h hs).2 _ ha⟩⟩

theorem forL {α : Type} (xs : List α) (s : State) (f : α → State → State) (h : ∀ x t, KeepsUpsets t (f x t)) :
    KeepsUpsets s (Machine.forL xs s f) := by
  unfold Machine.forL
  induction xs generalizing s with
  | nil => exact refl s
  | cons x xs ih => exact (h x s).trans (ih _)

theorem ite {c : Prop} [Decidable c] {s t u : State} (ht : KeepsUpsets s t) (hu : KeepsUpsets s u) :
    KeepsUpsets s (if c then t else u) := by
  split
  · exact ht
  · exact hu

end KeepsUpsets

theorem cause_keepsUpsets {reg : Nat} (b : Nat) (s : State) (h : reg ≠ Reg.MEM_CAUSE) : KeepsUpsets s (cause reg b s) :=
  .of_except (cause_recorded ..).mem (cause_regs reg b s) (by simp [h.symm])

/-- The registers of the solver fabric lie past those of the memories. -/
theorem routeBit_keepsUpsets {a : Nat} (i : Nat) (b : Bool) (s : State) (h : Reg.SLV_HROUTE ≤ a) :
    KeepsUpsets s (setBit a i b s) := by
  refine .of_except rfl (setBit_regs a i b s) ?_
  rw [List.mem_singleton]
  rintro rfl
  exact absurd h (by decide)

theorem entryLost_keepsUpsets (i : Nat) (s : State) : KeepsUpsets s (entryLost i s) := by
  have hr (k : Nat) : Reg.SLV_HROUTE ≤ Reg.SLV_OROUTE + 4 * k := by
    simp only [Reg.SLV_HROUTE, Reg.SLV_OROUTE]
    omega
  have hfab (c : Nat) (x : FabClient) (t : State) : KeepsUpsets t (fabSet c x t) := by
    unfold fabSet
    exact .ite ⟨rfl, fun h => ⟨h, rfl⟩⟩ ⟨rfl, fun h => ⟨h, rfl⟩⟩
  exact .ite (routeBit_keepsUpsets _ _ s le_rfl) (.ite (.forL _ _ _ fun k t => .ite (routeBit_keepsUpsets _ _ t (hr k)) (.refl t))
    (.ite (.ite (.refl s) (hfab ..)) (.refl s)))

/-- R240: a lost entry of the factor store leaves the word as it is. -/
theorem factorError_keepsUpsets (off : Nat) (s : State) : KeepsUpsets s (slvMemError false off s) :=
  .ite (.refl s) (((entryLost_keepsUpsets ..).trans (entryLost_keepsUpsets ..)).trans
    (.forL _ _ _ fun b t => cause_keepsUpsets b t (by decide)))

theorem fatal_keepsUpsets (b src : Nat) (s : State) : KeepsUpsets s (fatal b src s) := by
  refine .of_except ?_ (fatal_regs b src s) (by decide)
  have hrec : (fatalRecorded b src s).mem = s.mem := by rw [(fatalRecorded_recorderOnly b src s).rest]
  obtain ⟨-, h, -⟩ | ⟨-, h⟩ := fatal_cases b src s <;> rw [h, ← hrec]

theorem memLost_keepsUpsets {u : Upset} (h : u.mem < 2) (s : State) : KeepsUpsets s (memLost u s) := by
  obtain hm | hm : u.mem = 0 ∨ u.mem = 1 := by omega
  · simpa only [memLost, hm] using fatal_keepsUpsets 9 0 s
  · simpa only [memLost, hm] using factorError_keepsUpsets _ s

/-- R26, R485: a lost word of system SRAM is fatal. -/
theorem memLost_fatal {u : Upset} (h : u.mem = 0) {s : State} (hs : RegsWf s) :
    getBit (memLost u s) Reg.DEV_CAUSE 9 = true := by
  have hbit : getBit (fatal 9 0 s) Reg.DEV_CAUSE 9 = true := by
    simpa only [getBit, getReg, (fatal_recorded 9 0 s).1] using fatalRecorded_getBit 9 0 s hs (by decide)
  simpa only [memLost, h] using hbit

/-! ### The lines with check banks -/

section
variable {u : Upset} {s : State} (hm : u.mem < 2) (hd : u.double = true) (hu : u ∈ s.mem.upsets) (hs : RegsWf s)
  (hb : ∀ b ∈ lineErasures u.mem u.line s, b < 18) (hn : (lineErasures u.mem u.line s).Nodup)
include hm hd hu hs hb hn

theorem memMeet_few (h : (lineErasures u.mem u.line s).length ≤ 2) : let t := memMeet memLost u s
    getBit t Reg.MEM_CAUSE 1 = true ∧ lineErasures u.mem u.line t = [] ∧
      getFld t (Reg.MEM_M_CNT + 0x10 * u.mem) 31 16 =
        min 65535 (getFld s (Reg.MEM_M_CNT + 0x10 * u.mem) 31 16 + (lineErasures u.mem u.line s).length) := by
  intro t
  have hr := (rebuildable_iff _).2 ((erasedCount_of_nodup hb hn).le.trans h)
  have ht := memMeet_rebuilds memLost hu hd hm hr
  obtain ⟨hbit, hmem, hcount⟩ := memRebuilt_counts (k := u.mem) (by omega) (lineErasures u.mem u.line s).length
    (memBase u.mem + 128 * u.line + 8 * (erasedData (lineErasures u.mem u.line s)).getLastD 0)
    (s := memDrop (fun v => v.mem == u.mem && v.line == u.line && v.double) s) hs
  rw [← ht] at hbit hmem hcount
  refine ⟨hbit, ?_, hcount⟩
  rw [lineErasures, hmem]
  simp [memDrop, List.filter_filter]

theorem memMeet_many (h : 2 < (lineErasures u.mem u.line s).length) (hbank : u.bank < 16) : let t := memMeet memLost u s
    getBit t Reg.MEM_CAUSE 2 = true ∧ u ∈ t.mem.upsets ∧ (u.mem = 0 → getBit t Reg.DEV_CAUSE 9 = true) := by
  intro t
  have hr : rebuildable (lineErasures u.mem u.line s) = false := by
    rw [← Bool.not_eq_true, rebuildable_iff, erasedCount_of_nodup hb hn]
    exact Nat.not_le.2 h
  have ht : t = memLost u (memUncorrected u.mem (upsetAddr u) s) := memMeet_loses memLost hu hd hr hbank
  obtain ⟨hwf, hbit, hmem⟩ := memUncorrected_sets u.mem (upsetAddr u) hs
  have hkeep := memLost_keepsUpsets hm (memUncorrected u.mem (upsetAddr u) s)
  rw [ht]
  refine ⟨(getBit_congr (hkeep.regs hwf).2 2).trans hbit, ?_, fun h0 => memLost_fatal h0 hwf⟩
  rw [hkeep.mem, hmem]
  exact hu

end

end Sys2Proof.Machine

/-- Settles O12: P and Q are sums over the lane, from which two erased words come back; a read corrects, rebuilds or loses. -/
theorem checkBanks : Obligations.CheckBanks := by
  refine ⟨fun i new ds hi => checkWrite_lane new hi, fun banks ds held p q hd hh hk hp hq =>
      ⟨laneRebuild_few hd hh hk hp hq, laneRebuild_many⟩,
    fun u s hm hd hu hs => ?_, fun u s hm hd hu hs => ?_⟩
  · exact fun hb hn => ⟨memMeet_few hm hd hu hs hb hn, memMeet_many hm hd hu hs hb hn⟩
  · have hdrop : RegsWf (memDrop (fun v => v == u) s) := hs
    obtain ⟨hbit, hmem, hcount⟩ := memCorrected_counts hm hdrop
    rw [← memMeet_single memLost hu hd] at hbit hmem hcount
    refine ⟨hbit, ?_, hcount⟩
    rw [hmem]
    simp [memDrop]
end


section
/-! ## The firmware update path, and O39 (R522, R523, R525, R527 to R529) -/

open Sys2Proof Sys2Proof.Machine
namespace Sys2Proof.Machine

/-- The firmware writer on a slot, or on none. -/
def setFwWriter (o : Option Nat) (s : State) : State := { s with mgt := { s.mgt with fwWriter := o } }

section
variable {code : Nat} {r : List Byte} {s : State}

theorem okFw_of_takes (h : MbTakes code r s) : okFw s = true := by
  have hrun : mbRunOk s = true := (Bool.and_eq_true_iff.1 (okRead_of_takes h)).2
  simp [okFw, h.state, hrun]

theorem okFwOpen_of_takes (h : MbTakes code r s) (hw : s.mgt.fwWriter.isSome = true) : okFwOpen s = true := by
  simp [okFwOpen, okFw_of_takes h, hw]

/-! ### What the commands do -/

/-- A slot that may be opened loses its magic, and the writer is on it. -/
theorem fwOpen_eq (hl : r.length = 1) (hk : u8 r 0 ≤ 1) (hf : s.mgt.fwWriter = none) (hw : s.dev.writer = none)
    (hrun : s.mgt.fwRunning = false ∨ u8 r 0 ≠ s.mgt.fwSlot) : fwOpen r s = mbReply 0 [] (fwVersions
      (setFwWriter (some (u8 r 0)) (nvWrite (fwBase (u8 r 0)) (List.replicate 4 0#8) s))) := by
  have hargs : ¬ (r.length ≠ 1 ∨ 1 < u8 r 0) := by omega
  have hruns : ¬ (s.mgt.fwRunning = true ∧ u8 r 0 = s.mgt.fwSlot) := fun ⟨hr, he⟩ => hrun.elim (by simp [hr]) (absurd he)
  have hbusy : ¬ (s.mgt.fwWriter.isSome = true ∨ s.dev.writer.isSome = true) := by simp [hf, hw]
  simp only [fwOpen, if_neg hargs, if_neg hruns, if_neg hbusy, setFwWriter]

theorem fwWriteDo_eq (hspan : writeSpanOk 4194304 r = true) : fwWriteDo r s = mbReply 0 []
    (nvWrite (fwBase (s.mgt.fwWriter.getD 0) + u32 r 0) (withoutMagic (u32 r 0) (r.drop 4)) s) := by
  rw [fwWriteDo, if_pos hspan]

theorem fwClose_bad (hc : (fwCheck s (s.mgt.fwWriter.getD 0)).code ≠ 0) :
    fwClose s = mbReply 4 (leBytes 1 (fwCheck s (s.mgt.fwWriter.getD 0)).code) s := by
  simp only [fwClose, if_pos hc]

theorem fwClose_good (hc : (fwCheck s (s.mgt.fwWriter.getD 0)).code = 0) : fwClose s = mbReply 0 [0#8]
    (fwVersions (setFwWriter none (nvWrite (fwBase (s.mgt.fwWriter.getD 0)) fwMagic s))) := by
  simp only [fwClose, if_neg (not_not_intro hc), setFwWriter]

theorem fwActivate_good (hl : r.length = 1) (hk : u8 r 0 ≤ 1) (hg : fwGood s (u8 r 0) = true) :
    fwActivate r s = fwPtrWrite (u8 r 0, 1, (fwPtrNow s).2.2.1, 0, (fwPtrNow s).2.2.2.2) s :=
  if_neg (by simp [hl, hk, hg])

theorem fwActivate_bad (hg : fwGood s (u8 r 0) = false) : fwActivate r s = mbReply 3 [] s := if_pos (by simp [hg])

/-! ### The rows -/

theorem fwOpen_exec (h : MbTakes 0x20 r s) : exec .fwOpen s = .next (durably (fwOpen r) s) :=
  mbDo_durably_of_takes h fwOpen (okFw_of_takes h)

theorem fwWrite_exec (h : MbTakes 0x21 r s) (hw : s.mgt.fwWriter.isSome = true) :
    exec .fwWrite s = .next (durably (fwWriteDo r) s) := mbDo_durably_of_takes h fwWriteDo (okFwOpen_of_takes h hw)

theorem fwClose_exec (h : MbTakes 0x22 r s) (hw : s.mgt.fwWriter.isSome = true) :
    exec .fwClose s = .next (durably fwClose s) := mbDo_durably_of_takes h (fun _ => fwClose) (okFwOpen_of_takes h hw)

theorem fwActivate_exec (h : MbTakes 0x23 r s) : exec .fwActivate s = .next (fwActivate r s) :=
  mbDo_of_takes h fwActivate (okFw_of_takes h)

theorem fwConfirm_exec (h : MbTakes 0x24 r s) (ht : s.mgt.trial = true) : exec .fwConfirm s = .next (fwConfirm s) :=
  mbDo_of_takes h (ok := fun s => okFw s && s.mgt.trial) (fun _ => fwConfirm) (by simp [okFw_of_takes h, ht])

theorem fwConfirm_refused (h : MbTakes 0x24 r s) (ht : s.mgt.trial = false) :
    exec .fwConfirm s = .next (mbReply 2 [] s) :=
  mbDo_refuses (ok := fun s => okFw s && s.mgt.trial) (f := fun _ => fwConfirm) (mbIs_iff.2 ⟨h.busy, h.code, h.begins⟩) (by simp [ht])

theorem fwRead_exec (h : MbTakes 0x25 r s) : exec .fwRead s = .next (slotReader fwBase 4194304 2 r s) :=
  mbDo_of_takes h _ (okFw_of_takes h)

end

end Sys2Proof.Machine

/-- Settles O39: each row runs its command; what it writes is durable, or its write has failed. -/
theorem firmwareUpdate : Obligations.FirmwareUpdate := by
  intro r s u done k base p pointer
  refine ⟨fun h hl hk hf hw hrun => ?_, fun h hw h4 h8 hn hend => ?_, fun h hw => ⟨fun hc => ?_, fun hc => ?_⟩,
    fun h hl hk => ⟨fun hg => ?_, fun hg => ?_⟩, fun h => ⟨fun ht => ?_, fun ht => fwConfirm_refused h ht⟩,
    fun h hl hk hn hend => (fwRead_exec h).trans (congrArg _ (slotReader_eq hl (by omega) hn hend))⟩
  · refine (fwOpen_exec h).trans (congrArg _ ?_)
    exact durably_done (fwOpen_eq hl hk hf hw hrun) (fwOpen_eq (s := u) hl hk hf hw hrun)
  · have hspan := (writeSpanOk_iff 4194304 r).2 ⟨h4, h8, hn, hend⟩
    exact (fwWrite_exec h hw).trans (congrArg _ (durably_done (fwWriteDo_eq hspan) (fwWriteDo_eq (s := u) hspan)))
  · exact (fwClose_exec h hw).trans (congrArg _ (durably_error (by decide) (fwClose_bad hc)))
  · refine (fwClose_exec h hw).trans (congrArg _ ?_)
    exact durably_done (fwClose_good hc) (fwClose_good (s := u) hc)
  · exact (fwActivate_exec h).trans (congrArg _ (fwActivate_good hl hk hg))
  · exact (fwActivate_exec h).trans (congrArg _ (fwActivate_bad hg))
  · exact fwConfirm_exec h ht
end


section
/-! ## Key commands that write no entry, and O41 (R552, R554, R561 to R564, R566, R568, R570 to R572) -/

open Sys2Proof Sys2Proof.Machine
namespace Sys2Proof.Machine

/-! ### A key command that is taken (R568) -/

section
variable {code : Nat} {r : List Byte} {s : State}

theorem keyDo_of_takes (h : KeyTakes code r s) {ok : State → Bool} (f : List Byte → State → State) (hok : ok s = true) :
    keyDo code ok f s = .next (f r s) := by
  rw [keyDo, mbDo_of_busy h.toMbBusy _ hok, if_neg (by simp [h.free])]

theorem okNotBoot_of_keyTakes (h : KeyTakes code r s) : okNotBoot s = true := okNotBoot_iff.2 ⟨h.state, h.recovery⟩

theorem okKeyChange_of_takes (h : KeyTakes code r s) : okKeyChange s = true := by
  have hc : s.dev.mode = .hold ∨ s.dev.mode = .ready ∨ writeMaskBit s 14 = true := by
    simpa [writeMaskBit] using h.change
  simpa [okKeyChange, okNotBoot_of_keyTakes h, or_assoc] using hc

end

/-- R552, in the words of the statements. -/
theorem keyServes_iff {s : State} {e attr : Nat} : keyServes s e attr = true ↔
    e < 64 ∧ keyLoaded s e = true ∧ (keyEntry s e).ptr.attr = attr := by
  simp [keyServes, and_assoc]

/-! ### What the commands do -/

/-- A loaded entry shows itself. -/
theorem keyHidden_of_loaded {s : State} {e : Nat} (h : keyLoaded s e = true) : keyHidden s e = false := by
  simp only [keyLoaded, Bool.and_eq_true, Bool.not_eq_true'] at h
  exact h.2

section
variable {r : List Byte} {s : State}

theorem keyInfoDo_loaded (hl : r.length = 1) (he : u8 r 0 < 64) (hk : keyLoaded s (u8 r 0) = true) :
    let p := (keyEntry s (u8 r 0)).ptr
    keyInfoDo r s = mbReply 0 (leBytes 1 p.st ++ leBytes 1 p.type ++ leBytes 1 p.attr ++ leBytes 1 p.flags ++
      leBytes 1 p.mask ++ leBytes 4 p.gen ++ (aesCmac (keyEffective s (u8 r 0)) (List.replicate 16 0#8)).take 4 ++
      leBytes 4 p.maskTime) s := by
  intro p
  have hargs : ¬ (r.length ≠ 1 ∨ 0x48 < u8 r 0) := by omega
  have hkcv : keyKcv s (u8 r 0) = ((aesCmac (keyEffective s (u8 r 0)) (List.replicate 16 0#8)).take 4, s) :=
    if_pos ⟨he, hk⟩
  simp only [keyInfoDo, if_neg hargs, hkcv, keyHidden_of_loaded hk, Bool.false_eq_true, if_false]
  rfl

/-- R556: without the site mask a compatibility slot shows as empty, and its KCV is open. -/
theorem keyInfoDo_hidden (hl : r.length = 1) (hlo : 56 ≤ u8 r 0) (hhi : u8 r 0 ≤ 63) (hm : (keyEntry s 0x48).ptr.st = 0) :
    ∃ rest, keyInfoDo r s = mbReply 0 (0#8 :: rest) { s with free := s.free + 1 } := by
  have hargs : ¬ (r.length ≠ 1 ∨ 0x48 < u8 r 0) := by omega
  have hhid : keyHidden s (u8 r 0) = true := by simp [keyHidden, hlo, hhi, hm]
  have hload : keyLoaded s (u8 r 0) = false := by simp [keyLoaded, hhid]
  have hkcv : keyKcv s (u8 r 0) = (wordBytes (Config.freeWord s.free), { s with free := s.free + 1 }) :=
    if_neg (by simp [hload])
  simp only [keyInfoDo, if_neg hargs, hkcv, hhid, if_true]
  exact ⟨_, rfl⟩

theorem keyExportDo_eq (hl : r.length = 2) (he : u8 r 0 < 64) (hk : keyLoaded s (u8 r 0) = true)
    (hx : bit (keyEntry s (u8 r 0)).ptr.flags 0 = true) (hw : keyServes s (u8 r 1) 3 = true) : keyExportDo r s =
      mbReply 0 (aesWrap (keyEffective s (u8 r 1)) (keyBlobHead s (u8 r 0) ++ keyStored s (u8 r 0))) s := by
  have hok : ¬ ((!(decide (u8 r 0 < 64) && keyLoaded s (u8 r 0) && bit (keyEntry s (u8 r 0)).ptr.flags 0) ||
      !keyServes s (u8 r 1) 3) = true) := by simp [he, hk, hx, hw]
  simp only [keyExportDo, if_neg (not_not_intro hl), if_neg hok]

/-! ### Accumulators -/

/-- R561: an extension touches the accumulator, its count and the log, which holds at most 64 entries. -/
theorem maExtend_laws (i : Nat) (v : List Byte) (s : State) :
    (maExtend i v s).key.ma = s.key.ma.set i (sha384 (nth s.key.ma i [] ++ v)) ∧
      (maExtend i v s).key.entries = s.key.entries ∧
      (maExtend i v s).key.maLog.length = min (max 64 s.key.maLog.length) (s.key.maLog.length + 1) := by
  refine ⟨rfl, rfl, ?_⟩
  by_cases hfull : 64 ≤ s.key.maLog.length
  · simp only [maExtend, setKey_key, hfull, decide_true, if_true]
    omega
  · simp only [maExtend, setKey_key, hfull, decide_false, Bool.false_eq_true, if_false, List.length_append,
      List.length_singleton]
    omega

theorem maExtendDo_eq (hl : r.length = 49) (hlo : 5 ≤ u8 r 0) (hhi : u8 r 0 ≤ 7) (hma : s.key.ma.length = 8) :
    maExtendDo r s =
      mbReply 0 (sha384 (nth s.key.ma (u8 r 0) [] ++ r.drop 1)) (maExtend (u8 r 0) (r.drop 1) s) := by
  have hargs : ¬ (r.length ≠ 49 ∨ ¬ (5 ≤ u8 r 0 ∧ u8 r 0 ≤ 7)) := by omega
  have hnew : nth (maExtend (u8 r 0) (r.drop 1) s).key.ma (u8 r 0) [] = sha384 (nth s.key.ma (u8 r 0) [] ++ r.drop 1) :=
    nth_setNth_eq _ _ _ _ (by omega)
  simp only [maExtendDo, if_neg hargs, hnew]

theorem maLogDo_eq (hl : r.length = 2) (hlo : 1 ≤ u8 r 1) (hhi : u8 r 1 ≤ 63) : maLogDo r s =
    if s.key.maLog.length < u8 r 0 + u8 r 1 then mbReply 8 [] s
    else mbReply 0 (slice s.key.maLog (u8 r 0) (u8 r 1)).flatten s := if_neg (by omega)

/-! ### Encryption, station keys, statements and signers -/

theorem encryptDo_eq (hlen : 3 + u16 r 1 ≤ r.length) (haad : u16 r 1 ≤ 256) (hdata : r.length - 3 - u16 r 1 ≤ 3584)
    (hk : keyServes s (u8 r 0) 1 = true) (hrng : s.key.rngOk = true) :
    let iv := (keyRandom s).1.take 12
    let g := gcmEnc (keyEffective s (u8 r 0)) iv (slice r 3 (u16 r 1)) (r.drop (3 + u16 r 1))
    encryptDo r s = mbReply 0 (iv ++ g.1 ++ g.2) (keyRandom s).2 := by
  have hargs : ¬ (r.length < 3 + u16 r 1 ∨ 256 < u16 r 1 ∨ 3584 < r.length - 3 - u16 r 1) := by omega
  have hok : ¬ ((!keyServes s (u8 r 0) 1 || !s.key.rngOk) = true) := by simp [hk, hrng]
  simp only [encryptDo, if_neg hargs, if_neg hok]

/-- What DECRYPT makes of the request under the key of its slot. -/
def decrypted (r : List Byte) (s : State) : Option (List Byte) :=
  let n := u16 r 1
  let b := r.drop (3 + n)
  gcmDec (keyEffective s (u8 r 0)) (b.take 12) (slice r 3 n) (slice b 12 (b.length - 28)) (b.drop (b.length - 16))

theorem decryptDo_eq (hlen : 3 + u16 r 1 + 28 ≤ r.length) (haad : u16 r 1 ≤ 256)
    (hdata : r.length - (3 + u16 r 1) - 28 ≤ 3584) (hk : keyServes s (u8 r 0) 2 = true) : decryptDo r s =
      (decrypted r s).elim (mbReply 4 [] s) fun m => mbReply 0 m s := by
  have hargs : ¬ (r.length < 3 + u16 r 1 + 28 ∨ 256 < u16 r 1 ∨ 3584 < (r.drop (3 + u16 r 1)).length - 28) := by
    rw [List.length_drop]
    omega
  have hok : ¬ ((!keyServes s (u8 r 0) 2) = true) := by simp [hk]
  simp only [decryptDo, if_neg hargs, if_neg hok, decrypted]
  split <;> next h => rw [h]; rfl

theorem stationKeyDo_eq (hl : r.length = 5) (hst : u16 r 1 < 2048) (hp : u8 r 3 < 8) (hm : keyServes s (u8 r 0) 4 = true)
    (ht : (keyEntry s (u8 r 0)).ptr.type = 1) (hw : keyServes s (u8 r 4) 3 = true) : stationKeyDo r s =
      mbReply 0 (aesWrap (keyEffective s (u8 r 4)) ([0#8] ++ (List.range 4).map Config.ksHeader ++ List.replicate 3 0#8 ++
        stationKey (keyEffective s (u8 r 0)) (u16 r 1) (u8 r 3))) s := by
  have hargs : ¬ (r.length ≠ 5 ∨ 2048 ≤ u16 r 1 ∨ 8 ≤ u8 r 3) := by omega
  have hok : ¬ ((!keyServes s (u8 r 0) 4 || (keyEntry s (u8 r 0)).ptr.type != 1 || !keyServes s (u8 r 4) 3) = true) := by
    simp [hm, ht, hw]
  simp only [stationKeyDo, if_neg hargs, if_neg hok]

/-- The statement of R572 over a nonce, with the versions of the running image and of the other. -/
def attested (r : List Byte) (s : State) : List Byte :=
  attestStatement s r (if s.mgt.fwSlot = 0 then getReg s Reg.MGT_FW_VERB else getReg s Reg.MGT_FW_VERA)
    (if s.mgt.fwSlot = 0 then getReg s Reg.MGT_FW_VERA else getReg s Reg.MGT_FW_VERB)

theorem attestDo_eq (hl : r.length = 32) (hrng : s.key.rngOk = true) :
    let k1 := keyRandom s
    let k2 := keyRandom k1.2
    let sg := ecdsaSign (Config.identityKey % (ecN - 1) + 1) (beNat (k1.1 ++ k2.1)) (sha384 (attested r s))
    attestDo r s = mbReply 0 (attested r s ++ sg.1 ++ sg.2) k2.2 := by
  have hok : ¬ ((!s.key.rngOk) = true) := by simp [hrng]
  simp only [attestDo, if_neg (not_not_intro hl), if_neg hok, attested]

theorem signerInfoDo_eq (hl : r.length = 1) (he : u8 r 0 < 8) : signerInfoDo r s =
    (signer s (u8 r 0)).elim (mbReply 8 [] s) fun x => mbReply 0 (leBytes 1 x.1 ++ fit 0#8 97 x.2) s := by
  have hargs : ¬ (r.length ≠ 1 ∨ 8 ≤ u8 r 0) := by omega
  simp only [signerInfoDo, if_neg hargs]
  split <;> next h => rw [h]; rfl

/-! ### The rows -/

theorem keyInfo_exec (h : KeyTakes 0x40 r s) : exec .keyInfo s = .next (keyInfoDo r s) :=
  keyDo_of_takes h keyInfoDo (okNotBoot_of_keyTakes h)

theorem keyExport_exec (h : KeyTakes 0x44 r s) (hm : s.dev.mode = .hold ∨ s.dev.mode = .ready) :
    exec .keyExport s = .next (keyExportDo r s) :=
  keyDo_of_takes h (ok := fun s => okNotBoot s && (s.dev.mode == .hold || s.dev.mode == .ready)) keyExportDo
    (by simpa [okNotBoot_of_keyTakes h] using hm)

theorem maExtend_exec (h : KeyTakes 0x49 r s) : exec .maExtend s = .next (maExtendDo r s) :=
  keyDo_of_takes h maExtendDo (okNotBoot_of_keyTakes h)

theorem maRead_exec (h : KeyTakes 0x4A r s) : exec .maRead s = .next (maReadDo r s) :=
  keyDo_of_takes h maReadDo (okNotBoot_of_keyTakes h)

theorem maLog_exec (h : KeyTakes 0x4B r s) : exec .maLog s = .next (maLogDo r s) :=
  keyDo_of_takes h maLogDo (okNotBoot_of_keyTakes h)

theorem encrypt_exec (h : KeyTakes 0x4C r s) : exec .encrypt s = .next (encryptDo r s) :=
  keyDo_of_takes h encryptDo (okNotBoot_of_keyTakes h)

theorem decrypt_exec (h : KeyTakes 0x4D r s) : exec .decrypt s = .next (decryptDo r s) :=
  keyDo_of_takes h decryptDo (okNotBoot_of_keyTakes h)

theorem stationKey_exec (h : KeyTakes 0x4E r s) : exec .stationKey s = .next (stationKeyDo r s) :=
  keyDo_of_takes h stationKeyDo (okKeyChange_of_takes h)

theorem attest_exec (h : KeyTakes 0x50 r s) (hm : s.dev.mode = .hold) : exec .attest s = .next (attestDo r s) :=
  keyDo_of_takes h (ok := fun s => okNotBoot s && (s.dev.mode == .hold || secFlag s 0)) attestDo
    (by simp [okNotBoot_of_keyTakes h, hm])

theorem identity_exec (h : KeyTakes 0x51 r s) : exec .identity s = .next (identityDo r s) :=
  keyDo_of_takes h identityDo (okNotBoot_of_keyTakes h)

theorem signerInfo_exec (h : KeyTakes 0x53 r s) : exec .signerInfo s = .next (signerInfoDo r s) :=
  keyDo_of_takes h signerInfoDo (okNotBoot_of_keyTakes h)

end

end Sys2Proof.Machine

/-- Settles O41: each row runs its command on the request, in order for the slots that serve. -/
theorem keyServices : Obligations.KeyServices := by
  intro r s e rng serves n rnd
  have hserves {w attr : Nat} (h : serves w attr) : keyServes s w attr = true := keyServes_iff.2 h
  refine ⟨fun h hl he hk => (keyInfo_exec h).trans (congrArg _ (keyInfoDo_loaded hl he hk)), fun h hl hlo hhi hm => ?_,
    fun h hl hm he hk hx hw => (keyExport_exec h hm).trans (congrArg _ (keyExportDo_eq hl he hk hx (hserves hw))),
    fun h hl hlo hhi hma => ?_, fun h => maRead_exec h, fun h hl hlo hhi => ?_,
    fun h hlen haad hdata hk hrng => ?_, fun h hlen haad hdata hk => ?_,
    fun h hl hst hp hm ht hw => (stationKey_exec h).trans
      (congrArg _ (stationKeyDo_eq hl hst hp (hserves hm) ht (hserves hw))),
    fun h hl hrng hm => ?_, fun h => identity_exec h, fun h hl he => ?_⟩
  · obtain ⟨rest, hrest⟩ := keyInfoDo_hidden hl hlo hhi hm
    exact ⟨rest, (keyInfo_exec h).trans (congrArg _ hrest)⟩
  · exact ⟨_, (maExtend_exec h).trans (congrArg _ (maExtendDo_eq hl hlo hhi hma)), maExtend_laws ..⟩
  · have hlog := (maLog_exec h).trans (congrArg _ (maLogDo_eq hl hlo hhi))
    exact ⟨fun hin => hlog.trans (congrArg _ (if_neg (Nat.not_lt.2 hin))), fun hout => hlog.trans (congrArg _ (if_pos hout))⟩
  · exact (encrypt_exec h).trans (congrArg _ (encryptDo_eq hlen haad hdata (hserves hk) hrng))
  · have hdec := (decrypt_exec h).trans (congrArg _ (decryptDo_eq hlen haad hdata (hserves hk)))
    refine ⟨fun x (hx : decrypted r s = some x) => ?_, fun (hx : decrypted r s = none) => ?_⟩
    · rw [hdec, hx, Option.elim_some]
    · rw [hdec, hx, Option.elim_none]
  · refine ⟨attested r s, _, (attest_exec h hm).trans (congrArg _ ((attestDo_eq hl hrng).trans ?_)), rfl, rfl⟩
    rw [List.append_assoc]
    rfl
  · have hinfo := (signerInfo_exec h).trans (congrArg _ (signerInfoDo_eq hl he))
    refine ⟨fun x (hx : signer s (u8 r 0) = some x) => ?_, fun (hx : signer s (u8 r 0) = none) => ?_⟩
    · rw [hinfo, hx, Option.elim_some]
    · rw [hinfo, hx, Option.elim_none]
end


section
/-! ## Key commands that write an entry (R551, R552, R556, R565, R567 to R569) -/

open Sys2Proof Sys2Proof.Machine
namespace Sys2Proof.Machine

/-! ### What the commands do -/

section
variable {r : List Byte} {s : State}

theorem keyGenerateDo_eq (hl : r.length = 5) (ha : keyAttrsOk (u8 r 0) (u8 r 1) (u8 r 2) (u8 r 3) = true) :
    keyGenerateDo r s = if s.key.rngOk = true then
      keyLoad (u8 r 0) (u8 r 1) (u8 r 2) (u8 r 3) (u8 r 4) (keyRandom s).1 (keyNextGen s (u8 r 0)) (keyRandom s).2
    else mbReply 2 [] s := by
  have hargs : ¬ (r.length ≠ 5 ∨ ¬ keyAttrsOk (u8 r 0) (u8 r 1) (u8 r 2) (u8 r 3) = true) := by simp [hl, ha]
  simp only [keyGenerateDo, if_neg hargs]
  cases s.key.rngOk <;> rfl

section
variable (hl : r.length = 50) (he : u8 r 0 < 56)
include hl he

theorem keyImport_inOrder : ¬ (r.length ≠ 50 ∨ 56 ≤ u8 r 0) := by omega

theorem keyImportDo_refused (h : ¬ (keyServes s (u8 r 1) 3 = true ∧ s.key.rngOk = true)) :
    keyImportDo r s = mbReply 2 [] s := by
  have hno : (!keyServes s (u8 r 1) 3 || !s.key.rngOk) = true := by
    simpa only [Bool.or_eq_true, Bool.not_eq_true', not_and_or, Bool.not_eq_true] using h
  simp only [keyImportDo, if_neg (keyImport_inOrder hl he), if_pos hno]

variable (hw : keyServes s (u8 r 1) 3 = true) (hrng : s.key.rngOk = true)
include hw hrng

theorem keyImportDo_eq : keyImportDo r s =
    (aesUnwrap (keyEffective s (u8 r 1)) (r.drop 2)).elim (mbReply 4 [] (causeS Reg.KEY_CAUSE 3 (u8 r 0) s)) fun b =>
      if u8 b 4 ≠ u8 r 0 then mbReply 4 [] (causeS Reg.KEY_CAUSE 3 (u8 r 0) s)
      else if (!keyAttrsOk (u8 r 0) (u8 b 0) (u8 b 1) (u8 b 2)) = true then mbReply 3 [] s
      else keyLoad (u8 r 0) (u8 b 0) (u8 b 1) (u8 b 2) (u8 b 3) (b.drop 8) (keyNextGen s (u8 r 0)) s := by
  have hok : ¬ ((!keyServes s (u8 r 1) 3 || !s.key.rngOk) = true) := by simp [hw, hrng]
  simp only [keyImportDo, if_neg (keyImport_inOrder hl he), if_neg hok]
  cases aesUnwrap (keyEffective s (u8 r 1)) (r.drop 2) <;> rfl

end

theorem keyDeriveDo_eq (hl : r.length = 11 + u8 r 10) (hn : u8 r 10 ≤ 64) (he : u8 r 6 = u8 r 0)
    (ha : keyAttrsOk (u8 r 0) (u8 r 2) (u8 r 3) (u8 r 4) = true) (hk : keyServes s (u8 r 1) 4 = true)
    (hrng : s.key.rngOk = true) (hx : u8 r 4 = 0 ∨ bit (keyEntry s (u8 r 1)).ptr.flags 0 = true) : keyDeriveDo r s =
      keyLoad (u8 r 0) (u8 r 2) (u8 r 3) (u8 r 4) (u8 r 5) (hkdf384 [] (keyEffective s (u8 r 1)) (r.drop 11) 32)
        (keyNextGen s (u8 r 0)) s := by
  have hargs : ¬ (r.length ≠ 11 + u8 r 10 ∨ 64 < u8 r 10 ∨ u8 r 6 ≠ u8 r 0 ∨
      ¬ keyAttrsOk (u8 r 0) (u8 r 2) (u8 r 3) (u8 r 4) = true) := by simp [hl, hn, he, ha]
  have hok : ¬ ((!keyServes s (u8 r 1) 4 || !s.key.rngOk) = true) := by simp [hk, hrng]
  have hexp : ¬ ((!(decide (u8 r 4 = 0) || bit (keyEntry s (u8 r 1)).ptr.flags 0)) = true) := by
    simpa [or_iff_not_imp_left] using hx
  simp only [keyDeriveDo, if_neg hargs, if_neg hok, if_neg hexp]

theorem keyDestroyDo_eq (hl : r.length = 1) (he : u8 r 0 < 64 ∨ u8 r 0 = 0x48) : keyDestroyDo r s =
    if keyLoaded s (u8 r 0) = true then keyDestroy (u8 r 0) true s else mbReply 2 [] s := by
  have hargs : ¬ (r.length ≠ 1 ∨ (64 ≤ u8 r 0 ∧ u8 r 0 ≠ 0x48)) := by omega
  simp only [keyDestroyDo, if_neg hargs]
  cases keyLoaded s (u8 r 0) <;> rfl

/-- R558: a destroy asks for an empty pointer, and the mailbox waits for it. -/
theorem keyDestroy_laws (e : Nat) (s : State) : (keyDestroy e true s).key =
      { s.key with wr := some ⟨e, { (keyEntry s e).ptr with st := 0 }, false, true, true, [], getReg s Reg.HIF_MB_SEQ⟩ } ∧
    (keyDestroy e true s).hif = { s.hif with mbWait := true } ∧ (keyDestroy e true s).dev = s.dev := by
  unfold keyDestroy
  rw [(jnlRequest_journalled ..).rest]
  exact ⟨rfl, rfl, rfl⟩

section
variable (hl : r.length = 1) (hrng : s.key.rngOk = true)
include hl hrng

theorem keyRemaskDo_all (he : u8 r 0 = 0xFF) :
    keyRemaskDo r s = mbReply 0 [] (setKey { s.key with round := keyMaskables s } s) := by
  have hargs : ¬ (r.length ≠ 1 ∨ (u8 r 0 ≠ 0xFF ∧ ¬ (u8 r 0 < 56 ∨ u8 r 0 = 0x48))) := by omega
  have hok : ¬ ((!s.key.rngOk) = true) := by simp [hrng]
  simp only [keyRemaskDo, if_neg hargs, if_neg hok, if_pos he]

theorem keyRemaskDo_one (he : u8 r 0 < 56 ∨ u8 r 0 = 0x48) (hm : keyMaskable s (u8 r 0) = true) :
    keyRemaskDo r s = mbReply 0 [] (setKey { s.key with
      round := (keyMaskables s).filter (fun x => x == u8 r 0 || s.key.round.contains x) } s) := by
  have hargs : ¬ (r.length ≠ 1 ∨ (u8 r 0 ≠ 0xFF ∧ ¬ (u8 r 0 < 56 ∨ u8 r 0 = 0x48))) := by omega
  have hall : ¬ u8 r 0 = 0xFF := by omega
  have hok : ¬ ((!s.key.rngOk) = true) := by simp [hrng]
  have hone : ¬ ((!keyMaskable s (u8 r 0)) = true) := by simp [hm]
  simp only [keyRemaskDo, if_neg hargs, if_neg hok, if_neg hall, if_neg hone]

end

theorem compatMaskDo_eq (hl : r.length = 49) (hk : keyServes s (u8 r 0) 3 = true) (hrng : s.key.rngOk = true)
    {b : List Byte} (hb : aesUnwrap (keyEffective s (u8 r 0)) (r.drop 1) = some b) (ht : u8 b 0 = 2) :
    compatMaskDo r s = keyLoad 0x48 2 (u8 b 1) 0 0 (b.drop 8) [] s := by
  have hok : ¬ ((!keyServes s (u8 r 0) 3 || !s.key.rngOk) = true) := by simp [hk, hrng]
  simp only [compatMaskDo, if_neg (not_not_intro hl), if_neg hok, hb, if_neg (not_not_intro ht)]

theorem compatLoadDo_eq (hl : r.length = 37) (hlo : 56 ≤ u8 r 0) (hhi : u8 r 0 ≤ 63) (ha : u32 r 33 < 16)
    (h1 : 1 ≤ u32 r 33 % 8) (h4 : u32 r 33 % 8 ≤ 4) : compatLoadDo r s =
      keyWrite (u8 r 0) { type := u32 r 33 / 8, attr := u32 r 33 % 8 } (r.drop 1) false true (keyNextGen s (u8 r 0)) s :=
  if_neg (by omega)

theorem signerSetDo_empty (hl : r.length = 196) (hlo : 1 ≤ u8 r 0) (hhi : u8 r 0 ≤ 7) (h1 : 1 ≤ u8 r 1) (h3 : u8 r 1 ≤ 3)
    (hst : (keyEntry s (0x40 + u8 r 0)).ptr.st = 0) (hm : s.dev.mode = .hold)
    (hz : zeros (slice r 2 97) 0 97 = false) (hp : (ecPub (slice r 2 97)).isSome = true) : signerSetDo r s =
      keyWrite (0x40 + u8 r 0) { attr := u8 r 1 } (slice r 2 97) false true [] s := by
  have hargs : ¬ (r.length ≠ 196 ∨ u8 r 0 = 0 ∨ 7 < u8 r 0 ∨ 3 < u8 r 1 ∨
      (u8 r 1 = 0 ∧ ¬ zeros (slice r 2 97) 0 97 = true)) := by omega
  have hkey : ¬ ((zeros (slice r 2 97) 0 97 || (ecPub (slice r 2 97)).isNone) = true) := by
    simp [hz, Option.isSome_iff_ne_none.1 hp]
  simp only [signerSetDo, if_neg hargs, if_pos hst, if_neg (not_not_intro hm), if_neg hkey]

/-! ### The rows -/

theorem keyGenerate_exec (h : KeyTakes 0x41 r s) : exec .keyGenerate s = .next (keyGenerateDo r s) :=
  keyDo_of_takes h keyGenerateDo (okKeyChange_of_takes h)

theorem keyImport_exec (h : KeyTakes 0x42 r s) : exec .keyImport s = .next (keyImportDo r s) :=
  keyDo_of_takes h keyImportDo (okKeyChange_of_takes h)

theorem keyDerive_exec (h : KeyTakes 0x43 r s) : exec .keyDerive s = .next (keyDeriveDo r s) :=
  keyDo_of_takes h keyDeriveDo (okKeyChange_of_takes h)

theorem keyDestroy_exec (h : KeyTakes 0x45 r s) : exec .keyDestroy s = .next (keyDestroyDo r s) :=
  keyDo_of_takes h keyDestroyDo (okKeyChange_of_takes h)

theorem keyRemask_exec (h : KeyTakes 0x46 r s) : exec .keyRemask s = .next (keyRemaskDo r s) :=
  keyDo_of_takes h keyRemaskDo (okNotBoot_of_keyTakes h)

theorem compatMask_exec (h : KeyTakes 0x47 r s) : exec .compatMask s = .next (compatMaskDo r s) :=
  keyDo_of_takes h compatMaskDo (okKeyChange_of_takes h)

theorem compatLoad_exec (h : KeyTakes 0x48 r s) : exec .compatLoad s = .next (compatLoadDo r s) :=
  keyDo_of_takes h compatLoadDo (okKeyChange_of_takes h)

theorem signerSet_exec (h : KeyTakes 0x52 r s) : exec .signerSet s = .next (signerSetDo r s) :=
  keyDo_of_takes h signerSetDo (okNotBoot_of_keyTakes h)

end

end Sys2Proof.Machine
end


section
/-! ## Re-masking keeps the keys, and O40 (R554, R555, R558) -/

open Sys2Proof Sys2Proof.Machine
namespace Sys2Proof.Machine

/-! ### The bytes of a half (R554) -/

theorem slice_append_right {α : Type} (a b : List α) (o n : Nat) : slice (a ++ b) (a.length + o) n = slice b o n := by
  rw [slice, List.drop_append, List.drop_of_length_le (Nat.le_add_right ..), Nat.add_sub_cancel_left]
  rfl

theorem slice_append_left {α : Type} {a : List α} (b : List α) {o n : Nat} (h : o + n ≤ a.length) :
    slice (a ++ b) o n = slice a o n := by
  rw [slice, slice, List.drop_append_of_le_length (by omega), List.take_append_of_le_length (by rw [List.length_drop]; omega)]

theorem slice_length {α : Type} {a : List α} {o n : Nat} (h : o + n ≤ a.length) : (slice a o n).length = n := by
  rw [slice, List.length_take, List.length_drop]
  omega

theorem fit_length {α : Type} (d : α) (n : Nat) (xs : List α) : (fit d n xs).length = n := by
  rw [fit, List.length_append, List.length_take, List.length_replicate]
  omega

/-- What is written into a list that is long enough stands at its start. -/
theorem slice_fit {α : Type} (d : α) {xs : List α} {m o n : Nat} (hm : xs.length ≤ m) (h : o + n ≤ xs.length) :
    slice (fit d m xs) o n = slice xs o n := by
  rw [fit, List.take_of_length_le hm, slice_append_left _ h]

/-- R554: the body of a half begins at its offset 0x10, and a half has 128 bytes. -/
theorem keyHalf_body (e : Nat) (p : KeyPtr) (body : List Byte) {o n : Nat} (hb : body.length ≤ 104) (h : o + n ≤ body.length) :
    (keyHalf e p body).length = 128 ∧ slice (keyHalf e p body) (0x10 + o) n = slice body o n := by
  generalize hp : ascii ['D', 'X', 'K', 'H'] ++ leBytes 1 e ++ leBytes 1 p.type ++ leBytes 1 p.attr ++ leBytes 1 p.flags ++
    leBytes 1 p.mask ++ List.replicate 3 0#8 ++ leBytes 4 p.gen = pre
  have hlen : pre.length = 16 := by rw [← hp]; rfl
  have hhalf : keyHalf e p body = pre ++ (fit 0#8 104 body ++ (List.replicate 4 0#8 ++
      wordBytes (crc32c (pre ++ fit 0#8 104 body ++ List.replicate 4 0#8)))) := by
    rw [keyHalf, hp]
    simp only [List.append_assoc]
  refine ⟨?_, ?_⟩
  · rw [hhalf, List.length_append, List.length_append, List.length_append, hlen, fit_length, List.length_replicate, wordBytes,
      leBytes_length]
  · rw [hhalf, ← hlen, slice_append_right, slice_append_left _ (by rw [fit_length]; omega), slice_fit _ hb h]

/-! ### Shares under another mask (R554) -/

theorem xorBytes_length (a b : List Byte) : (xorBytes a b).length = min a.length b.length := List.length_zipWith

/-- The same mask on both shares leaves their exclusive-or. -/
theorem xorBytes_masked {a b r : List Byte} (ha : a.length = r.length) (hb : b.length = r.length) :
    xorBytes (xorBytes a r) (xorBytes b r) = xorBytes a b := by
  refine List.ext_getElem (by simp [xorBytes_length, ha, hb]) fun i h1 h2 => ?_
  simp only [xorBytes, List.getElem_zipWith]
  exact xor_cancel_right ..

theorem keyRandom_length (s : State) : (keyRandom s).1.length = 32 := by
  simp only [keyRandom, beBytes, List.length_reverse, leBytes_length]

/-! ### A write of an entry (R558) -/

/-- The half that is not in force. -/
def otherHalf (x : KeyEntry) : Nat := if x.ptr.half = 0 then 1 else 0

/-- An entry with the bytes of one half. -/
def KeyEntry.withHalf (h : Nat) (bs : List Byte) (x : KeyEntry) : KeyEntry :=
  if h = 0 then { x with half0 := bs } else { x with half1 := bs }

/-- The pointer that a write makes, without its CRC. -/
def writePtr (p : KeyPtr) (x : KeyEntry) (s : State) : KeyPtr :=
  { p with
    half := otherHalf x
    st := 1
    gen := (x.ptr.gen + 1) % 2 ^ 32
    maskTime := if s.mgt.cal.valid then s.mgt.cal.seconds else 0 }

/-- The write in progress that a re-mask makes of an entry. -/
def remaskWrite (e : Nat) (body : List Byte) (s : State) : KeyWrite :=
  let p := writePtr (keyEntry s e).ptr (keyEntry s e) s
  ⟨e, { p with crc := u32 (keyHalf e p body) 0x7C }, true, false, false, [], getReg s Reg.HIF_MB_SEQ⟩

/-- R558: a re-mask touches nothing of the key store but the half that is not in force, until its pointer is durable. -/
theorem keyWrite_remask_key (e : Nat) (body : List Byte) (s : State) :
    (keyWrite e (keyEntry s e).ptr body true false [] s).key = { s.key with
      entries := smPut (fun _ => {}) s.key.entries e ((keyEntry s e).withHalf (otherHalf (keyEntry s e))
        (keyHalf e (writePtr (keyEntry s e).ptr (keyEntry s e) s) body))
      wr := some (remaskWrite e body s) } := by
  unfold keyWrite
  rw [(jnlRequest_journalled ..).rest]
  rfl

/-- The half in force is as it was. -/
theorem withHalf_half (x : KeyEntry) (bs : List Byte) : (x.withHalf (otherHalf x) bs).half = x.half := by
  by_cases h : x.ptr.half = 0 <;> simp [KeyEntry.half, KeyEntry.withHalf, otherHalf, h]

/-- The entry once its pointer is durable: the new half in force, the other one zero. -/
def KeyEntry.switched (w : KeyWrite) (now : Nat) (x : KeyEntry) : KeyEntry :=
  if w.ptr.half = 0 then { x with ptr := w.ptr, half1 := [], damaged := false, maskTick := now }
  else { x with ptr := w.ptr, half0 := [], damaged := false, maskTick := now }

theorem switched_ptr (w : KeyWrite) (now : Nat) (x : KeyEntry) : (x.switched w now).ptr = w.ptr := by
  unfold KeyEntry.switched
  split <;> rfl

/-- The half in force is then the one that was written. -/
theorem switched_half (w : KeyWrite) (now : Nat) (bs : List Byte) (x : KeyEntry) (hw : w.ptr.half = otherHalf x) :
    ((x.withHalf (otherHalf x) bs).switched w now).half = fit 0#8 128 bs := by
  by_cases h : x.ptr.half = 0 <;> simp [KeyEntry.half, KeyEntry.withHalf, KeyEntry.switched, otherHalf, hw, h]

/-- R558 step 3 for a re-mask: its entry switches, and leaves the round. -/
theorem keyDurable_remask {w : KeyWrite} {t : State} (hw : t.key.wr = some w) (hr : w.remask = true)
    (hd : w.destroy = false) (hm : w.mailbox = false) : (keyDurable true t).key = { t.key with
      wr := none
      entries := smPut (fun _ => {}) t.key.entries w.entry ((keyEntry t w.entry).switched w t.pwr.tick)
      round := t.key.round.filter (· != w.entry) } := by
  simp only [keyDurable, hw, hr, hd, hm, if_true, Bool.false_eq_true, if_false]
  rfl

/-! ### The re-mask that is due (R555) -/

/-- The body that a re-mask writes: both shares under a fresh mask. -/
def remaskBody (e : Nat) (s : State) : List Byte :=
  xorBytes (slice (keyEntry s e).half 0x10 32) (keyRandom s).1 ++ xorBytes (slice (keyEntry s e).half 0x30 32) (keyRandom s).1

/-- The state in which the re-mask of entry `e` waits for its pointer. -/
def remasked (e : Nat) (s : State) : State :=
  keyWrite e (keyEntry s e).ptr (remaskBody e s) true false [] (keyRandom s).2

section
variable {e : Nat} {s : State}

theorem remaskDue_exec {rest : List Nat} (hr : s.key.round = e :: rest) (hm : keyMaskable s e = true) (hb : keyBusy s = false)
    (hs : s.dev.mode ≠ .boot) (hrng : s.key.rngOk = true) : exec .remaskDue s = .next (remasked e s) := by
  change execRemaskDue s = _
  have hfirst : (s.key.round.filter (fun e => keyMaskable s e)).head? = some e := by
    rw [hr, List.filter_cons_of_pos (by exact hm)]
    rfl
  have hgo : ¬ (keyBusy s = true ∨ s.dev.mode = .boot ∨ ¬ s.key.rngOk = true) := by simp [hb, hs, hrng]
  simp only [execRemaskDue, hfirst, Option.orElse_some, if_neg hgo]
  rfl

theorem half_length (x : KeyEntry) : x.half.length = 128 := fit_length ..

/-- A share under the mask is as long as the mask. -/
theorem maskedShare_length {o : Nat} (ho : o + 32 ≤ 128) :
    (xorBytes (slice (keyEntry s e).half o 32) (keyRandom s).1).length = 32 := by
  rw [xorBytes_length, slice_length (by rw [half_length]; exact ho), keyRandom_length, Nat.min_self]

theorem remaskBody_shares : (remaskBody e s).length = 64 ∧
    slice (remaskBody e s) 0 32 = xorBytes (slice (keyEntry s e).half 0x10 32) (keyRandom s).1 ∧
    slice (remaskBody e s) 32 32 = xorBytes (slice (keyEntry s e).half 0x30 32) (keyRandom s).1 := by
  have h1 := maskedShare_length (e := e) (s := s) (o := 0x10) (by decide)
  have h2 := maskedShare_length (e := e) (s := s) (o := 0x30) (by decide)
  refine ⟨by rw [remaskBody, List.length_append, h1, h2], ?_, ?_⟩
  · rw [remaskBody, slice_append_left _ (by rw [h1]), slice, List.drop_zero, List.take_of_length_le (by rw [h1])]
  · have h := slice_append_right (xorBytes (slice (keyEntry s e).half 0x10 32) (keyRandom s).1)
      (xorBytes (slice (keyEntry s e).half 0x30 32) (keyRandom s).1) 0 32
    rw [h1, Nat.add_zero] at h
    rw [remaskBody, h, slice, List.drop_zero, List.take_of_length_le (by rw [h2])]

/-- R554, R558: the re-mask's half holds the same native key. -/
theorem keyNative_remaskHalf (p : KeyPtr) {x : KeyEntry} (hx : x.half = fit 0#8 128 (keyHalf e p (remaskBody e s))) :
    keyNative x = keyNative (keyEntry s e) := by
  obtain ⟨hlen, hfst, hsnd⟩ := remaskBody_shares (e := e) (s := s)
  have hbody {o : Nat} (ho : o + 32 ≤ 64) := keyHalf_body e p (remaskBody e s) (o := o) (n := 32) (by omega) (by omega)
  obtain ⟨h128, h1⟩ := hbody (o := 0) (by decide)
  obtain ⟨-, h2⟩ := hbody (o := 32) (by decide)
  rw [Nat.add_zero, hfst] at h1
  rw [hsnd] at h2
  have hr := keyRandom_length s
  rw [keyNative, hx, slice_fit _ (by omega) (by omega), slice_fit _ (by omega) (by omega), h1, h2]
  refine xorBytes_masked ?_ ?_
  · rw [hr, slice_length (by rw [half_length]; decide)]
  · rw [hr, slice_length (by rw [half_length]; decide)]

/-- The half that a re-mask writes. -/
def remaskHalf (e : Nat) (s : State) : List Byte :=
  keyHalf e (writePtr (keyEntry s e).ptr (keyEntry s e) s) (remaskBody e s)

theorem remasked_key : (remasked e s).key = { s.key with
    entries := smPut (fun _ => {}) s.key.entries e ((keyEntry s e).withHalf (otherHalf (keyEntry s e)) (remaskHalf e s))
    wr := (remasked e s).key.wr } ∧
    ∃ w, (remasked e s).key.wr = some w ∧ w.entry = e ∧ w.ptr.half = otherHalf (keyEntry s e) ∧ w.remask = true ∧
      w.destroy = false ∧ w.mailbox = false := by
  have h : (remasked e s).key = _ := keyWrite_remask_key e (remaskBody e s) (keyRandom s).2
  exact ⟨by rw [h]; rfl, _, by rw [h], rfl, rfl, rfl, rfl, rfl⟩

section
variable (hwf : smWf (fun _ => ({} : KeyEntry)) s.key.entries = true)
include hwf

theorem keyEntry_remasked (f : Nat) : keyEntry (remasked e s) f =
    if f = e then (keyEntry s e).withHalf (otherHalf (keyEntry s e)) (remaskHalf e s) else keyEntry s f := by
  rw [keyEntry, remasked_key.1]
  exact smGet_put _ _ _ _ _ hwf

/-- R558: until its pointer is durable, every entry's half in force is as it was. -/
theorem remasked_half (f : Nat) : (keyEntry (remasked e s) f).half = (keyEntry s f).half := by
  rw [keyEntry_remasked hwf]
  split
  next h => rw [withHalf_half, h]
  next => rfl

theorem keyStored_remasked (f : Nat) : keyStored (remasked e s) f = keyStored s f := by
  simp only [keyStored, keyNative, remasked_half hwf]

/-- R558: the pointer of a re-mask is durable. -/
theorem remasked_durable : let u := keyDurable true (remasked e s)
    u.key.wr = none ∧ keyNative (keyEntry u e) = keyNative (keyEntry s e) ∧
      (keyEntry u e).ptr.half = otherHalf (keyEntry s e) ∧ e ∉ u.key.round ∧
      (∀ f, f ≠ e → keyEntry u f = keyEntry s f) := by
  obtain ⟨hkey, w, hw, hentry, hhalf, hremask, hdestroy, hmail⟩ := remasked_key (e := e) (s := s)
  have hu := keyDurable_remask hw hremask hdestroy hmail
  rw [hentry] at hu
  have hwf' : smWf (fun _ => ({} : KeyEntry)) (remasked e s).key.entries = true := by
    rw [hkey]
    exact smPut_wf _ _ _ _ hwf
  have hget (f : Nat) : keyEntry (keyDurable true (remasked e s)) f =
      if f = e then (keyEntry (remasked e s) e).switched w (remasked e s).pwr.tick else keyEntry (remasked e s) f := by
    rw [keyEntry, hu]
    exact smGet_put _ _ _ _ _ hwf'
  have hself := hget e
  rw [if_pos rfl, keyEntry_remasked hwf, if_pos rfl] at hself
  refine ⟨by rw [hu], ?_, ?_, ?_, fun f hf => ?_⟩
  · rw [hself]
    exact keyNative_remaskHalf _ (switched_half w _ _ _ hhalf)
  · rw [hself, switched_ptr, hhalf]
  · simp [hu]
  · rw [hget, if_neg hf, keyEntry_remasked hwf, if_neg hf]

end

end

end Sys2Proof.Machine

/-- Settles O40: each row makes the write of its entry, and a re-mask puts both shares under one fresh mask, which their
exclusive-or does not see. -/
theorem keyWritesAndRemask : Obligations.KeyWritesAndRemask := by
  refine ⟨fun r s => ?_, fun e rest s hround hm hbusy hmode hrng hwf => ?_⟩
  · intro e gen rng serves
    have hserves {w attr : Nat} (h : serves w attr) : keyServes s w attr = true := keyServes_iff.2 h
    refine ⟨fun h hl ha => ?_, fun h hl he => ⟨fun hno => ?_, fun hw hrng => ?_⟩,
      fun h hl hn he ha hk hrng hx => (keyDerive_exec h).trans
        (congrArg _ (keyDeriveDo_eq hl hn he ha (hserves hk) hrng hx)),
      fun h hl he => ?_, fun h hl hrng => ⟨fun he => ?_, fun he hm => ?_⟩,
      fun h hl hk hrng b hb ht => (compatMask_exec h).trans (congrArg _ (compatMaskDo_eq hl (hserves hk) hrng hb ht)),
      fun h hl hlo hhi ha h1 h4 => (compatLoad_exec h).trans (congrArg _ (compatLoadDo_eq hl hlo hhi ha h1 h4)),
      fun h hl hlo hhi h1 h3 hst hm hz hp => (signerSet_exec h).trans
        (congrArg _ (signerSetDo_empty hl hlo hhi h1 h3 hst hm hz hp)), rfl, rfl⟩
    · have hgen := (keyGenerate_exec h).trans (congrArg _ (keyGenerateDo_eq hl ha))
      exact ⟨fun hrng => hgen.trans (congrArg _ (if_pos hrng)), fun hrng => hgen.trans (congrArg _ (if_neg hrng))⟩
    · exact (keyImport_exec h).trans (congrArg _ (keyImportDo_refused hl he fun hok => hno ⟨keyServes_iff.1 hok.1, hok.2⟩))
    · have himp := (keyImport_exec h).trans (congrArg _ (keyImportDo_eq hl he (hserves hw) hrng))
      refine ⟨fun hnone => ?_, fun b hb hself ha => ?_⟩
      · rw [himp, hnone, Option.elim_none]
      · rw [himp, hb, Option.elim_some, if_neg (not_not_intro hself), if_neg]
        · rfl
        · simpa using ha
    · have hdes := (keyDestroy_exec h).trans (congrArg _ (keyDestroyDo_eq hl he))
      refine ⟨fun hk => ⟨_, hdes.trans (congrArg _ (if_pos hk)), keyDestroy_laws e s⟩, fun hk => ?_⟩
      rw [hdes, if_neg (by simpa using hk)]
    · exact (keyRemask_exec h).trans (congrArg _ (keyRemaskDo_all hl hrng he))
    · exact (keyRemask_exec h).trans (congrArg _ (keyRemaskDo_one hl hrng he hm))
  · obtain ⟨-, w, hw, -⟩ := remasked_key (e := e) (s := s)
    exact ⟨remasked e s, remaskDue_exec hround hm hbusy hmode hrng, by rw [hw]; rfl, keyStored_remasked hwf,
      remasked_durable hwf⟩
end


section
/-! ## Waiting words of the host port, and O36 (R580, R587 to R589) -/

open Sys2Proof Sys2Proof.Machine
namespace Sys2Proof.Machine

section
variable {a : Nat} {w : Word} {s t : State}

/-- What a word answers in the state that takes it: performed, staged (a selector is performed too), or refused. -/
theorem hostWord_done_iff : hostWord a w s = (.done, t) ↔ stages s a = false ∧ writeReason a w s = 0 ∧ performWord a w s = t := by
  cases hs : stages s a
  · cases hr : writeReason a w s <;> simp [hostWord, hs, hr]
  · cases hr : writeReason a w s <;> simp only [hostWord, hs, hr] <;> grind

theorem hostWord_staged (h : hostWord a w s = (.staged, t)) :
    stages s a = true ∧ t = stage a w (if selectors.contains a then performWord a w s else s) := by
  cases hs : stages s a
  · cases hr : writeReason a w s <;> simp [hostWord, hs, hr] at h
  · cases hr : writeReason a w s <;> simp only [hostWord, hs, hr] at h <;> grind

theorem tx_open_of_stages (h : stages s a = true) : s.tx.st = 1 := by
  simp only [stages, Bool.and_eq_true, beq_iff_eq] at h
  exact h.1.1

/-- R587: one word that was answered DONE is performed. -/
theorem wordsWrite_done (h : hostWord a w s = (.done, t)) : wordsWrite [(a, w)] 0 true s = (1, false, none, t) := by
  rw [wordsWrite, h]
  rfl

theorem wordsPerform_done (h : hostWord a w s = (.done, t)) : wordsPerform [(a, w)] (wordsStaged [(a, w)] s) s = t := by
  have hst : wordsStaged [(a, w)] s = [false] := by
    rw [wordsStaged, h]
    rfl
  obtain ⟨-, -, hperf⟩ := hostWord_done_iff.1 h
  rw [hst]
  exact hperf

/-- R587: one word that was answered STAGED is staged, while its transaction is open. -/
theorem wordsPerform_staged (h : hostWord a w s = (.staged, t)) : wordsPerform [(a, w)] (wordsStaged [(a, w)] s) s = t := by
  have hst : wordsStaged [(a, w)] s = [true] := by
    rw [wordsStaged, h]
    rfl
  obtain ⟨hstages, rfl⟩ := hostWord_staged h
  rw [hst]
  exact if_pos (tx_open_of_stages hstages)

end

/-- R588: bytes for the request buffer are stored there. -/
theorem execHostWritePerform_request {a : Nat} {data : List Byte} {s : State} (hp : s.hif.pending = some (a, data))
    (hr : hostRange a = some .request) : exec .hostWritePerform s = .next (hostMemWrite .request a data
      { s with hif := { s.hif with pending := none, pendStaged := [], seq := (s.hif.seq + 1) % 2 ^ 16 } }) := by
  change execHostWritePerform s = _
  simp only [execHostWritePerform, hp, hr]

theorem execHostWritePerform_idle {s : State} (hp : s.hif.pending = none) : exec .hostWritePerform s = .next s := by
  change execHostWritePerform s = _
  simp only [execHostWritePerform, hp]

end Sys2Proof.Machine

/-- Settles O36: what waits is performed as it was answered. -/
theorem hostPortEvents : Obligations.HostPortEvents := by
  intro s
  refine ⟨fun a data b => execHostWritePerform_window, fun a data hp hr _ _ => ?_,
    fun a w rest h => ⟨wordsWrite_done h, wordsPerform_done h⟩, fun a w rest => wordsPerform_staged,
    execHostWritePerform_idle, fun cmd hcmd => if_neg fun h => hcmd (List.contains_iff_mem.1 h), rfl,
    fun k => execHostCsNEarlyRise_fetched⟩
  exact ⟨_, execHostWritePerform_request hp hr, rfl, rfl, rfl, rfl, smGetList_putList _ _ _ _⟩
end


section
/-! ## The event recorder, and O27 (R536 to R542, R548) -/

open Sys2Proof Sys2Proof.Machine
namespace Sys2Proof.Machine

/-! ### Records (R536) -/

theorem leNat_leBytes (n v : Nat) : leNat (leBytes n v) = v % 256 ^ n := by
  induction n generalizing v with
  | zero => exact (Nat.mod_one v).symm
  | succ n ih =>
    have hb : (BitVec.ofNat 8 (v % 256)).toNat = v % 256 := by
      rw [BitVec.toNat_ofNat]
      omega
    rw [leBytes, leNat, ih, hb, Nat.pow_succ', Nat.mod_mul]

section
variable (sec frac code seq source : Nat) (d0 d1 : Word) (flags supp : Nat)

theorem evBytes_length : (evBytes sec frac code seq source d0 d1 flags supp).length = 32 := by
  simp only [evBytes, wordBytes, List.length_append, leBytes_length, List.length_singleton]

theorem evBytes_seq (h : seq < 2 ^ 48) : leNat (slice (evBytes sec frac code seq source d0 d1 flags supp) 8 6) = seq := by
  have hs : slice (evBytes sec frac code seq source d0 d1 flags supp) 8 6 = leBytes 6 seq := rfl
  rw [hs, leNat_leBytes]
  exact Nat.mod_eq_of_lt h

/-- R536, R540: a record takes its number and its mode flag; nothing else of it changes. -/
theorem evRestamp_evBytes (q mode : Nat) (hf : flags < 256) :
    evRestamp (evBytes sec frac code seq source d0 d1 flags supp) q mode =
      evBytes sec frac code q source d0 d1 (flags ||| mode) supp := by
  have hfl : u8 (evBytes sec frac code seq source d0 d1 flags supp) 0x18 = flags := by
    have hs : slice (evBytes sec frac code seq source d0 d1 flags supp) 0x18 1 = leBytes 1 flags := rfl
    rw [u8, hs, leNat_leBytes]
    exact Nat.mod_eq_of_lt hf
  have hhead : slice (evBytes sec frac code seq source d0 d1 flags supp) 0 8 =
      leBytes 4 sec ++ leBytes 2 frac ++ leBytes 2 code := rfl
  have hdata : slice (evBytes sec frac code seq source d0 d1 flags supp) 0xE 10 =
      leBytes 2 source ++ wordBytes d0 ++ wordBytes d1 := rfl
  have hsupp : slice (evBytes sec frac code seq source d0 d1 flags supp) 0x19 2 = leBytes 1 supp ++ leBytes 1 0 := rfl
  simp only [evRestamp, hfl, hhead, hdata, hsupp]
  simp only [evBytes, List.append_assoc]

end

/-! ### Records in the die (R538, R539) -/

/-- Where a record lies in the die. -/
def recordPos (r : List Byte) : Nat := evPos (leNat (slice r 8 6))

theorem evPos_apart {a b : Nat} (h : evPos a ≠ evPos b) : evPos a + 32 ≤ evPos b ∨ evPos b + 32 ≤ evPos a := by
  unfold evPos at *
  omega

/-- Records of which no other lies at the same place are all read back, in whatever order they are written. -/
theorem nvRead_evWrites {r : List Byte} (hr : r.length = 32) (rs : List (List Byte)) (s : State) (hw : NvWf s)
    (hrs : ∀ q ∈ rs, q.length = 32 ∧ (q ≠ r → recordPos q ≠ recordPos r))
    (h : r ∈ rs ∨ nvRead s (recordPos r) 32 = r) : nvRead (forL rs s evWrite) (recordPos r) 32 = r := by
  induction rs generalizing s with
  | nil => exact h.resolve_left List.not_mem_nil
  | cons q rs ih =>
    obtain ⟨hlen, hne⟩ := hrs q List.mem_cons_self
    refine ih (evWrite q s) (nvWrite_wf _ _ s hw) (fun x hx => hrs x (List.mem_cons_of_mem q hx)) ?_
    by_cases hq : q = r
    · subst hq
      have hread := nvRead_nvWrite (recordPos q) q s hw
      rw [hlen] at hread
      exact .inr hread
    · refine h.imp (fun hm => (List.mem_cons.1 hm).resolve_left (Ne.symm hq)) fun hread => ?_
      have happart := evPos_apart (hne hq)
      exact (smGetList_putList_of_outside _ _ _ _ _ _ hw (by unfold recordPos; omega)).trans hread

/-- What the recorder programs of its queue is what it writes. -/
theorem nvRead_evProgram (s : State) (a n : Nat) : nvRead (evProgram s) a n = nvRead (forL s.mgt.evr.queue s evWrite) a n := rfl

/-! ### Storing a record (R539, R540) -/

section
variable {r : List Byte} {s : State} (h : s.mgt.evr.ready = true)
include h

theorem evStore_direct : evStore true r s = setEvr { s.mgt.evr with
    seq := (s.mgt.evr.seq + 1) % 2 ^ 48
    queue := s.mgt.evr.queue ++ [evRestamp r s.mgt.evr.seq 0] } s := by
  have hw : ¬ evWaits s = true := by simp [evWaits, h]
  rw [evStore, if_neg hw]
  rfl

theorem evStore_buffered (hn : s.mgt.evr.buffer.length < 3071) : evStore false r s = setEvr { s.mgt.evr with
    seq := (s.mgt.evr.seq + 1) % 2 ^ 48
    buffer := s.mgt.evr.buffer ++ [evRestamp r s.mgt.evr.seq 4] } s := by
  have hfull : ¬ 4096 ≤ s.mgt.evr.buffer.length := by omega
  have hflush : ¬ 3072 ≤ (s.mgt.evr.buffer ++ [evRestamp r s.mgt.evr.seq 4]).length := by
    rw [List.length_append, List.length_singleton]
    omega
  have hw : ¬ evWaits s = true := by simp [evWaits, h]
  simp only [evStore, if_neg hw, evNextSeq, Bool.false_eq_true, if_false, hfull, hflush]
  rfl

/-- R540: a flush puts the buffer behind what is on its way. -/
theorem evFlush_eq : evFlush false s = { s with mgt := { s.mgt with
    evr := { s.mgt.evr with
      queue := s.mgt.evr.queue ++ s.mgt.evr.buffer
      buffer := [] }
    flushTicks := 0 } } := by
  have hw : ¬ evWaits s = true := by simp [evWaits, h]
  rw [evFlush, if_neg hw]
  rfl

end

/-- Storing a record touches no bucket. -/
theorem evStore_buckets (direct : Bool) (r : List Byte) (s : State) :
    ((evStore direct r s).mgt.evr.buckets, (evStore direct r s).mgt.evr.overflow) = (s.mgt.evr.buckets, s.mgt.evr.overflow) := by
  have hflush (u : State) : ((evFlush false u).mgt.evr.buckets, (evFlush false u).mgt.evr.overflow) =
      (u.mgt.evr.buckets, u.mgt.evr.overflow) := by
    unfold evFlush
    split <;> rfl
  unfold evStore
  split
  · rfl
  · dsimp only
    split
    · rfl
    · split
      · rfl
      · split
        · exact hflush _
        · rfl

/-- Once the ring is known, no record waits for it. -/
theorem evStore_waiting (direct : Bool) (r : List Byte) {s : State} (h : s.mgt.evr.ready = true) :
    (evStore direct r s).mgt.evr.waiting = s.mgt.evr.waiting := by
  have hflush (u : State) : (evFlush false u).mgt.evr.waiting = u.mgt.evr.waiting := by
    unfold evFlush
    split <;> rfl
  simp only [evStore, evWaits, h, Bool.not_true, Bool.false_eq_true, if_false]
  split
  · rfl
  · split
    · rfl
    · split
      · exact hflush _
      · rfl

end Sys2Proof.Machine
end


section
/-! ## Raising an event, flushes, refills and summaries, and O27 -/

open Sys2Proof Sys2Proof.Machine
namespace Sys2Proof.Machine

/-! ### Raising an event (R536, R537, R541) -/

/-- R536: the flags of a record as it is made, before its mode flag. -/
def evFlags (s : State) (code : Nat) : Nat := b2n s.mgt.cal.leapNow + 2 * b2n (!s.mgt.cal.valid) + 16 * (evSeverity s code % 4)

/-- R539: a record of this code is written directly. -/
def evIsDirect (s : State) (code : Nat) : Prop := ((theTt s).eventClass code).mode = 0 ∨ code / 4096 = 12

/-- The buffered flag is clear in the flags as made. -/
theorem evFlags_lor (s : State) (code : Nat) : evFlags s code ||| 4 = evFlags s code + 4 := by
  have h1 : b2n s.mgt.cal.leapNow + 2 * b2n (!s.mgt.cal.valid) < 4 := by
    have h2 := b2n_le_one s.mgt.cal.leapNow
    have h3 := b2n_le_one !s.mgt.cal.valid
    omega
  have hdec : ∀ lo < 4, ∀ sev < 4, (lo + 16 * sev) ||| 4 = lo + 16 * sev + 4 := by decide
  exact hdec _ h1 _ (Nat.mod_lt _ (by decide))

theorem evFlags_lt (s : State) (code : Nat) : evFlags s code < 256 := by
  have h2 := b2n_le_one s.mgt.cal.leapNow
  have h3 := b2n_le_one !s.mgt.cal.valid
  unfold evFlags
  omega

section
variable (code source : Nat) (d0 d1 : Word) (n : Nat) {s : State} (h : s.mgt.evr.ready = true)
include h

theorem evRecord_direct (hd : evIsDirect s code) : evRecord code source d0 d1 0 n s = setEvr { s.mgt.evr with
    seq := (s.mgt.evr.seq + 1) % 2 ^ 48
    queue := s.mgt.evr.queue ++ [evBytes (stamp s).1 (stamp s).2 code s.mgt.evr.seq source d0 d1 (evFlags s code) (min 255 n)] } s := by
  have hdir : (((theTt s).eventClass code).mode == 0 || code / 4096 == 12) = true := by simpa [evIsDirect] using hd
  have hrec : evRecord code source d0 d1 0 n s = evStore true
      (evBytes (stamp s).1 (stamp s).2 code 0 source d0 d1 (evFlags s code) (min 255 n)) s := by
    rw [evRecord, hdir]
    rfl
  rw [hrec, evStore_direct h, evRestamp_evBytes _ _ _ _ _ _ _ _ _ _ _ (evFlags_lt s code), Nat.or_zero]

theorem evRecord_buffered (hd : ¬ evIsDirect s code) (hn : s.mgt.evr.buffer.length < 3071) :
    evRecord code source d0 d1 0 n s = setEvr { s.mgt.evr with
      seq := (s.mgt.evr.seq + 1) % 2 ^ 48
      buffer := s.mgt.evr.buffer ++
        [evBytes (stamp s).1 (stamp s).2 code s.mgt.evr.seq source d0 d1 (evFlags s code + 4) (min 255 n)] } s := by
  have hdir : (((theTt s).eventClass code).mode == 0 || code / 4096 == 12) = false := by
    simpa [evIsDirect, not_or] using hd
  have hrec : evRecord code source d0 d1 0 n s = evStore false
      (evBytes (stamp s).1 (stamp s).2 code 0 source d0 d1 (evFlags s code) (min 255 n)) s := by
    rw [evRecord, hdir]
    rfl
  rw [hrec, evStore_buffered h hn, evRestamp_evBytes _ _ _ _ _ _ _ _ _ _ _ (evFlags_lt s code), evFlags_lor]

end

section
variable {code source i : Nat} {s : State}
  (hi : s.mgt.evr.buckets.findIdx? (fun b => b.code == code && b.source == source) = some i) (d0 d1 : Word)
include hi

/-- R541: a bucket with 3,600 units spends them, and hands on how many it has suppressed. -/
theorem evRaise_rich (hb : 3600 ≤ (nth s.mgt.evr.buckets i {}).tokens) : evRaise code source d0 d1 s =
    evRecord code source d0 d1 0 (nth s.mgt.evr.buckets i {}).suppressed (setEvr { s.mgt.evr with
      buckets := s.mgt.evr.buckets.set i { nth s.mgt.evr.buckets i {} with
        tokens := (nth s.mgt.evr.buckets i {}).tokens - 3600
        suppressed := 0 } } s) := by
  have hix : evBucketIx s.mgt.evr.buckets code source = some i := hi
  simp only [evRaise, hix, bucketTry, if_pos hb]
  rfl

/-- R541: a poorer bucket counts the refusal. -/
theorem evRaise_poor (hb : (nth s.mgt.evr.buckets i {}).tokens < 3600) : evRaise code source d0 d1 s =
    incFld Reg.MGT_EVR_CNT 15 0 (setBit Reg.MGT_CAUSE 7 true (setEvr { s.mgt.evr with
      buckets := s.mgt.evr.buckets.set i { nth s.mgt.evr.buckets i {} with
        suppressed := (nth s.mgt.evr.buckets i {}).suppressed + 1 } } s)) := by
  have hix : evBucketIx s.mgt.evr.buckets code source = some i := hi
  simp only [evRaise, hix, bucketTry, if_neg (Nat.not_le.2 hb)]
  rfl

end

/-! ### A tick that writes one record (R539) -/

theorem evTick_quiet {t : State} (hg : t.pwr.powerGood = true) (hl : t.pwr.rstLow = false) (hc : t.jnl.cur = none)
    (hq : t.jnl.queue = []) : evTick t = evProgram t := if_pos (by simp [hg, hl, hc, hq])

theorem evTick_one {t : State} {r : List Byte} (hw : NvWf t) (hr : r.length = 32) (hqueue : t.mgt.evr.queue = [r])
    (hg : t.pwr.powerGood = true) (hl : t.pwr.rstLow = false) (hc : t.jnl.cur = none) (hq : t.jnl.queue = []) :
    nvRead (evTick t) (recordPos r) 32 = r ∧ (evTick t).mgt.evr.queue = [] ∧
      (∀ a, a < recordPos r ∨ recordPos r + 32 ≤ a → nvRead (evTick t) a 1 = nvRead t a 1) := by
  have hread (a n : Nat) : nvRead (evTick t) a n = nvRead (nvWrite (recordPos r) r t) a n := by
    rw [evTick_quiet hg hl hc hq, nvRead_evProgram, hqueue]
    rfl
  have hin := nvRead_nvWrite (recordPos r) r t hw
  rw [hr] at hin
  refine ⟨(hread _ _).trans hin, by rw [evTick_quiet hg hl hc hq]; rfl, fun a ha => (hread _ _).trans ?_⟩
  exact nvRead_nvWrite_of_outside _ _ _ _ hw (by rw [hr]; exact ha)

/-! ### Flushes (R540) -/

theorem nvRead_flushed {s : State} (hs : s.mgt.evr.ready = true) (hw : NvWf s) {r : List Byte} (hr : r.length = 32)
    (hmem : r ∈ s.mgt.evr.queue ++ s.mgt.evr.buffer)
    (hall : ∀ q ∈ s.mgt.evr.queue ++ s.mgt.evr.buffer, q.length = 32 ∧ (q ≠ r → recordPos q ≠ recordPos r)) :
    nvRead (evProgram (evFlush false s)) (recordPos r) 32 = r := by
  rw [nvRead_evProgram, evFlush_eq hs]
  exact nvRead_evWrites hr _ _ hw hall (.inl hmem)

/-! ### Summaries and the end of the ring scan (R541, R542) -/

theorem evSummary_recorderOnly (b : Bucket) (s : State) : RecorderOnly s (evSummary b s) := by
  unfold evSummary
  split
  · exact ⟨rfl, rfl⟩
  · exact evStore_recorderOnly ..

theorem evSummary_buckets (b : Bucket) (s : State) : (evSummary b s).mgt.evr.buckets = s.mgt.evr.buckets := by
  unfold evSummary
  split
  · rfl
  · exact congrArg Prod.fst (evStore_buckets ..)

/-- The summaries touch neither the buckets nor anything outside the recorder. -/
theorem evSummaries_keep (bs : List Bucket) (s : State) :
    (forL bs s evSummary).mgt.evr.buckets = s.mgt.evr.buckets ∧ (forL bs s evSummary).dev = s.dev ∧
      (forL bs s evSummary).pwr = s.pwr :=
  ⟨forL_keeps (fun t : State => t.mgt.evr.buckets) _ _ _ evSummary_buckets,
    forL_keeps State.dev _ _ _ fun b t => by rw [(evSummary_recorderOnly b t).rest],
    forL_keeps State.pwr _ _ _ fun b t => by rw [(evSummary_recorderOnly b t).rest]⟩

theorem execEvrSummary_exec {s : State} (h : (stamp s).1 % 3600 = 0) : ∃ t, exec .evrSummary s = .next t ∧
    (∀ b ∈ t.mgt.evr.buckets, b.suppressed = 0) ∧ t.mgt.evr.overflow.suppressed = 0 ∧
    t.mgt.evr.buckets.map (·.tokens) = s.mgt.evr.buckets.map (·.tokens) ∧ t.dev = s.dev ∧ t.pwr = s.pwr := by
  obtain ⟨hbuckets, hdev, hpwr⟩ := evSummaries_keep (s.mgt.evr.buckets ++ [s.mgt.evr.overflow]) s
  refine ⟨_, if_pos h, fun b hb => ?_, rfl, ?_, hdev, hpwr⟩
  · obtain ⟨c, -, rfl⟩ := List.mem_map.1 hb
    rfl
  · exact (List.map_map ..).trans (congrArg (List.map _) hbuckets)

/-- R542: the recorder once the head of the ring is known. -/
def scanned (s : State) : State := setEvr { s.mgt.evr with
  seq := (match evScan s with
    | some q => (q + 1) % 2 ^ 48
    | none => 0)
  ready := true
  scanning := false
  waiting := [] } s

/-- What waited is stored, direct records first. -/
theorem execEvrScanDone_eq {s : State} (h : s.mgt.evr.scanning = true) : exec .evrScanDone s = .next
    (forL (s.mgt.evr.waiting.filter (·.1) ++ s.mgt.evr.waiting.filter (fun x => !x.1)) (scanned s)
      fun x s => evStore x.1 x.2 s) := if_pos h

/-- Storing keeps a recorder that is ready, scans nothing and holds nothing back. -/
theorem forL_evStore_ready (xs : List (Bool × List Byte)) (s : State)
    (h : s.mgt.evr.ready = true ∧ s.mgt.evr.scanning = false ∧ s.mgt.evr.waiting = []) :
    let t := forL xs s fun x s => evStore x.1 x.2 s
    t.mgt.evr.ready = true ∧ t.mgt.evr.scanning = false ∧ t.mgt.evr.waiting = [] := by
  induction xs generalizing s with
  | nil => exact h
  | cons x xs ih =>
    obtain ⟨hready, hscan, hwait⟩ := h
    exact ih (evStore x.1 x.2 s) ⟨(evStore_recorderOnly ..).ready.trans hready, (evStore_scanning ..).trans hscan,
      (evStore_waiting _ _ hready).trans hwait⟩

theorem execEvrScanDone_idle {s : State} (h : s.mgt.evr.scanning = true) (hw : s.mgt.evr.waiting = []) :
    exec .evrScanDone s = .next (setEvr { s.mgt.evr with
      seq := (match evScan s with
        | some q => (q + 1) % 2 ^ 48
        | none => 0)
      ready := true
      scanning := false } s) := by
  simp only [execEvrScanDone_eq h, scanned, hw]
  rfl

end Sys2Proof.Machine

/-- Settles O27: a bucket's two outcomes, the store of a record by its mode, and writes that lie apart in the die. -/
theorem eventRecorder : Obligations.EventRecorder := by
  refine ⟨?_, fun s => ?_⟩
  · intro i code source d0 d1 s e b cls direct t0 severity flags t hnv _ _ hseq hready hi
    refine ⟨fun hb => ?_, evRaise_poor hi d0 d1⟩
    intro spent
    have hrich := evRaise_rich hi d0 d1 hb
    refine ⟨fun hd => ?_, fun hd hn => hrich.trans (evRecord_buffered code source d0 d1 _ hready hd hn)⟩
    intro r
    have ht : t = _ := hrich.trans (evRecord_direct code source d0 d1 _ hready hd)
    refine ⟨ht, fun hempty hg hl hc hq => ?_⟩
    have hpos : recordPos r = evPos e.seq := congrArg evPos (evBytes_seq _ _ _ _ _ _ _ _ _ hseq)
    have hqueue : t.mgt.evr.queue = [r] := by
      rw [ht]
      exact congrArg (· ++ [r]) hempty
    have hone := evTick_one (t := t) (r := r) (by rw [ht]; exact hnv) (evBytes_length ..) hqueue hg hl hc hq
    rw [hpos] at hone
    obtain ⟨hin, hgone, hout⟩ := hone
    exact ⟨hin, hgone, fun a ha => (hout a ha).trans (by rw [ht]; rfl)⟩
  · intro e all flushed up
    have hflush (hr : e.ready = true) : flushed (evFlush false s) := by
      refine ⟨evFlush_eq hr, fun hw hall => ⟨fun r hmem => ?_, rfl⟩⟩
      refine nvRead_flushed hr hw (hall r hmem).1 hmem fun q hq => ⟨(hall q hq).1, fun hne => (hall r hmem).2 q hq hne⟩
    refine ⟨fun hr => ⟨_, rfl, hflush hr⟩, fun hr hpos hle => ⟨evFlush false s, ?_, hflush hr⟩,
      fun hzero => if_neg (by omega), fun htick => if_pos htick, execEvrSummary_exec, execEvrScanDone_idle, fun hscan =>
      ⟨_, execEvrScanDone_eq hscan, forL_evStore_ready _ _ ⟨rfl, rfl, rfl⟩⟩⟩
    refine (if_pos ⟨hpos, hle⟩).trans ?_
    rw [evFlush_eq hr]
end


section
/-! ## The causes of the pair, through what a change of state does

A cause that is set stays set through everything that does not write its register, in whatever form the register file is:
`CausesStay` says it of RED_CAUSE (R518). It is proved here of the functions that the changes of state are made of. -/

open Sys2Proof Sys2Proof.Machine
namespace Sys2Proof.Machine

/-! ### Registers that differ from their reset value -/

/-- An entry that is found is found after another key has been erased. -/
theorem smGet_erase_found {α : Type} (d : Nat → α) (m : List (Nat × α)) {k j : Nat} (hkj : k ≠ j) (h : smGet d m j ≠ d j) :
    smGet d (smErase m k) j = smGet d m j := by
  induction m with
  | nil => rfl
  | cons p m ih =>
    obtain ⟨k', v'⟩ := p
    simp only [smGet] at h ⊢
    unfold smErase
    split
    · rfl
    · split
      · next _ hk =>
        subst hk
        rw [if_neg hkj] at h ⊢
        split at h
        · exact absurd rfl h
        · next hj => rw [if_neg hj]
      · simp only [smGet]
        split
        · rfl
        · next hj =>
          rw [if_neg hj] at h
          split at h
          · exact absurd rfl h
          · next hlt => rw [if_neg hlt, if_neg hlt, ih h]

/-- A register that differs from its reset value is left by a write of another. -/
theorem getReg_setReg_found {a b : Nat} (v : Word) {s : State} (hab : b ≠ a) (h : getReg s a ≠ regReset a) :
    getReg (setReg b v s) a = getReg s a := by
  unfold getReg setReg smPut
  split
  · exact smGet_erase_found _ _ hab h
  · exact smGet_insert_ne _ _ _ _ _ hab

/-! ### The causes stay -/

/-- Causes of the pair that are set are as they were. -/
structure CausesStay (s t : State) : Prop where
  stays : getReg s Reg.RED_CAUSE ≠ 0#32 → getReg t Reg.RED_CAUSE = getReg s Reg.RED_CAUSE

theorem redCause_reset : regReset Reg.RED_CAUSE = 0#32 := by decide +kernel

namespace CausesStay

theorem refl (s : State) : CausesStay s s := ⟨fun _ => rfl⟩

theorem of_regs {s t : State} (h : t.regs = s.regs) : CausesStay s t := ⟨fun _ => by rw [getReg, h, getReg]⟩

theorem trans {s t u : State} (h : CausesStay s t) (k : CausesStay t u) : CausesStay s u := ⟨fun hs =>
  have ht := h.stays hs
  (k.stays (by rwa [ht])).trans ht⟩

/-- What follows a step that does not touch the registers. -/
theorem after {s t u : State} (k : CausesStay t u) (h : t.regs = s.regs) : CausesStay s u := (of_regs h).trans k

theorem setReg {a : Nat} (ha : a ≠ Reg.RED_CAUSE) (v : Word) (s : State) : CausesStay s (setReg a v s) :=
  ⟨fun hs => getReg_setReg_found v ha (by rwa [redCause_reset])⟩

theorem setFld {a : Nat} (ha : a ≠ Reg.RED_CAUSE) (hi lo v : Nat) (s : State) : CausesStay s (setFld a hi lo v s) := setReg ha _ s

theorem forL {α : Type} (xs : List α) (s : State) (f : α → State → State) (h : ∀ x ∈ xs, ∀ t, CausesStay t (f x t)) :
    CausesStay s (forL xs s f) := by
  unfold Machine.forL
  induction xs generalizing s with
  | nil => exact refl s
  | cons x xs ih => exact (h x List.mem_cons_self s).trans (ih _ fun y hy => h y (List.mem_cons_of_mem x hy))

theorem forN (n : Nat) (s : State) (f : Nat → State → State) (h : ∀ k t, CausesStay t (f k t)) : CausesStay s (forN n s f) :=
  forL _ _ _ fun k _ => h k

theorem forMeters (f : Nat → Meter → State → State) (s : State) (h : ∀ m r t, CausesStay t (f m r t)) :
    CausesStay s (forMeters f s) := by
  refine forN _ _ _ fun m t => ?_
  split
  · exact h _ _ t
  · exact refl t

theorem ite {s t u : State} {c : Prop} [Decidable c] (ht : CausesStay s t) (hu : CausesStay s u) :
    CausesStay s (if c then t else u) := by
  split
  · exact ht
  · exact hu

/-- A cause that is set stays set. -/
theorem bit {s t : State} (h : CausesStay s t) {b : Nat} (hb : getBit s Reg.RED_CAUSE b = true) : getBit t Reg.RED_CAUSE b = true := by
  have hne : getReg s Reg.RED_CAUSE ≠ 0#32 := fun h0 => by simp [getBit, h0] at hb
  rw [getBit, h.stays hne]
  exact hb

end CausesStay

/-! ### The recorder and causes -/

theorem evStore_causes (direct : Bool) (r : List Byte) (s : State) : CausesStay s (evStore direct r s) := by
  unfold evStore
  split
  · exact .of_regs rfl
  · dsimp only
    split
    · exact .of_regs rfl
    · split
      · exact ((CausesStay.setFld (by decide) ..).trans (.setFld (by decide) ..)).after rfl
      · split
        · exact .of_regs ((evFlush_regs ..).trans rfl)
        · exact .of_regs rfl

theorem evRaise_causes (code source : Nat) (d0 d1 : Word) (s : State) : CausesStay s (evRaise code source d0 d1 s) := by
  unfold evRaise
  extract_lets e src done
  have hdone (o : Option Nat) (e' : EvrState) : CausesStay s (done o e') := by
    simp only [done]
    cases o with
    | some n => exact (evStore_causes ..).after rfl
    | none => exact ((CausesStay.setFld (by decide) ..).trans (.setFld (by decide) ..)).after rfl
  split
  · exact hdone _ _
  · split <;> exact hdone _ _

/-- A cause of another block. -/
theorem causeD_causes {reg : Nat} (hr : reg ≠ Reg.RED_CAUSE) (b src : Nat) (d0 d1 : Word) (s : State) :
    CausesStay s (causeD reg b src d0 d1 s) := by
  have hset : CausesStay s (setBit reg b true s) := .setFld hr ..
  unfold causeD
  dsimp only
  split
  · exact hset
  · split <;> exact hset.trans (evRaise_causes ..)

/-- A bit of the pair's causes is set, in whatever form the register file is. -/
theorem getReg_setBit_redCause {b : Nat} (hb : b < 32) (s : State) :
    getReg (setBit Reg.RED_CAUSE b true s) Reg.RED_CAUSE = setField (getReg s Reg.RED_CAUSE) b b 1 := by
  have hne : setField (getReg s Reg.RED_CAUSE) b b 1 ≠ regReset Reg.RED_CAUSE := fun h0 => by
    have hbit := setField_bit (getReg s Reg.RED_CAUSE) b b 1 b hb (le_refl b) hb
    rw [h0, redCause_reset] at hbit
    simp at hbit
  exact (congrArg (smGet regReset · Reg.RED_CAUSE) (if_neg hne)).trans (smGet_insert_eq ..)

/-- A cause of the pair is set, and those that are set stay. -/
theorem redCause_bits {b i : Nat} (hb : b < 32) {s : State} (h : i = b ∨ getBit s Reg.RED_CAUSE i = true) :
    getBit (cause Reg.RED_CAUSE b s) Reg.RED_CAUSE i = true := by
  have hi : i < 32 := h.elim (· ▸ hb) fun hbit => BitVec.lt_of_getLsbD hbit
  have hset : getBit (setBit Reg.RED_CAUSE b true s) Reg.RED_CAUSE i = true := by
    rw [getBit, getReg_setBit_redCause hb, setField_bit _ _ _ _ _ hb (le_refl b) hi]
    by_cases hib : i = b
    · subst hib
      simp
    · rw [if_neg (by omega)]
      exact h.resolve_left hib
  exact (evRaise_causes _ 0 0 0 _).bit hset

theorem redCause_sets {b : Nat} (hb : b < 32) (s : State) : getBit (cause Reg.RED_CAUSE b s) Reg.RED_CAUSE b = true :=
  redCause_bits hb (.inl rfl)

end Sys2Proof.Machine
end


section
/-! ## The causes of the pair through entries into READY, STANDBY and RUN -/

open Sys2Proof Sys2Proof.Machine
namespace Sys2Proof.Machine

/-- The pair is left alone: its state is as it was, and its causes stay. -/
structure PairApart (s t : State) : Prop extends CausesStay s t where
  red : t.red = s.red

namespace PairApart

theorem refl (s : State) : PairApart s s := ⟨.refl s, rfl⟩

theorem of_same {s t : State} (h : t.regs = s.regs) (hr : t.red = s.red) : PairApart s t := ⟨.of_regs h, hr⟩

theorem trans {s t u : State} (h : PairApart s t) (k : PairApart t u) : PairApart s u :=
  ⟨h.toCausesStay.trans k.toCausesStay, k.red.trans h.red⟩

/-- What follows a step that touches neither. -/
theorem after {s t u : State} (k : PairApart t u) (h : t.regs = s.regs) (hr : t.red = s.red) : PairApart s u := (of_same h hr).trans k

theorem setReg {a : Nat} (ha : a ≠ Reg.RED_CAUSE) (v : Word) (s : State) : PairApart s (setReg a v s) := ⟨.setReg ha v s, rfl⟩

theorem setFld {a : Nat} (ha : a ≠ Reg.RED_CAUSE) (hi lo v : Nat) (s : State) : PairApart s (setFld a hi lo v s) := setReg ha _ s

theorem causeD {reg : Nat} (hr : reg ≠ Reg.RED_CAUSE) (b src : Nat) (d0 d1 : Word) (s : State) :
    PairApart s (causeD reg b src d0 d1 s) := ⟨causeD_causes hr b src d0 d1 s, causeD_red ..⟩

theorem forL {α : Type} (xs : List α) (s : State) (f : α → State → State) (h : ∀ x ∈ xs, ∀ t, PairApart t (f x t)) :
    PairApart s (forL xs s f) := by
  unfold Machine.forL
  induction xs generalizing s with
  | nil => exact refl s
  | cons x xs ih => exact (h x List.mem_cons_self s).trans (ih _ fun y hy => h y (List.mem_cons_of_mem x hy))

theorem forN (n : Nat) (s : State) (f : Nat → State → State) (h : ∀ k t, PairApart t (f k t)) : PairApart s (forN n s f) :=
  forL _ _ _ fun k _ => h k

theorem ite {s t u : State} {c : Prop} [Decidable c] (ht : PairApart s t) (hu : PairApart s u) :
    PairApart s (if c then t else u) := by
  split
  · exact ht
  · exact hu

end PairApart

/-! ### Work that stops -/

theorem redSend_causes (m : SyncMsg) (s : State) : CausesStay s (redSend m s) := .ite (.of_regs rfl) (.refl s)

theorem redStatus_causes (s : State) : CausesStay s (redStatus s) := redSend_causes ..

theorem redStream_causes (m : SyncMsg) (s : State) : CausesStay s (redStream m s) := .ite (redSend_causes m s) (.refl s)

theorem fabGrant_apart (s : State) : PairApart s (fabGrant s) := .of_same (fabGrant_regs s) (fabGrant_red s)

theorem slvBank_apart (c k : Nat) (hk : k < 0x1000) : slvBank c + k ≠ Reg.RED_CAUSE := by
  unfold slvBank Reg.RED_CAUSE Reg.SLV_HYD_RES Reg.SLV_OPT_RES
  split <;> omega

theorem slvResult_apart (c res : Nat) (s : State) : PairApart s (slvResult c res s) := by
  unfold slvResult
  extract_lets b s1
  have h1 : PairApart s s1 := (PairApart.setFld (slvBank_apart c 0 (by decide)) ..).trans (.setFld (slvBank_apart c 0 (by decide)) ..)
  exact .ite (h1.trans ((PairApart.setFld (slvBank_apart c 0x1C (by decide)) ..).trans (.causeD (by decide) ..))) h1

theorem fabAbandon_apart (c : Nat) (s : State) : PairApart s (fabAbandon c s) := by
  refine .ite (.refl s) ?_
  have hset : PairApart s (fabSet c { fabGet s c with unit := .none, latched := false, memFail := false } s) :=
    .of_same (fabSet_regs ..) (by unfold fabSet; split <;> rfl)
  exact (hset.trans (slvResult_apart ..)).trans ((fabGrant_apart _).after rfl rfl)

theorem hydStop_apart (s : State) : PairApart s (hydStop s) :=
  (fabAbandon_apart 1 s).trans ((PairApart.setFld (by decide) ..).trans ((fabGrant_apart _).after rfl rfl))

theorem freeDuration_apart {last mx : Nat} (hl : last ≠ Reg.RED_CAUSE) (hm : mx ≠ Reg.RED_CAUSE) (s : State) :
    PairApart s (freeDuration last mx s) := by
  have h1 (t : State) (v : Word) : PairApart t (if (getReg t mx).toNat < v.toNat then setReg mx v t else t) :=
    .ite (.setReg hm ..) (.refl t)
  exact ((PairApart.setReg hl ..).trans (h1 ..)).after rfl rfl

theorem optEnd_apart (outcome : Nat) (s : State) : PairApart s (optEnd outcome s) := by
  refine .trans (t := setFld Reg.OPT_STAT 15 8 _ _) ?_ (.of_same rfl rfl)
  exact (freeDuration_apart (by decide) (by decide) s).trans ((PairApart.setReg (by decide) ..).trans
    ((PairApart.setReg (by decide) ..).trans ((PairApart.setFld (by decide) ..).trans ((PairApart.setFld (by decide) ..).trans
      (.setFld (by decide) ..)))))

theorem optAbandon_apart (s : State) : PairApart s (optAbandon s) := by
  unfold optAbandon
  extract_lets o s0
  have h0 : PairApart s s0 := .of_same rfl rfl
  exact .ite h0 (h0.trans ((fabAbandon_apart 2 s0).trans ((optEnd_apart ..).trans (.causeD (by decide) ..))))

/-- No register that steps by 32 or by 512 from one of these bases is the pair's. -/
theorem capStat_apart (c : Nat) : Reg.LPE_CAP_STAT + 0x20 * c ≠ Reg.RED_CAUSE := by
  unfold Reg.LPE_CAP_STAT Reg.RED_CAUSE
  omega

theorem injStat_apart (c : Nat) : Reg.LPE_INJ_STAT + 0x20 * c ≠ Reg.RED_CAUSE := by
  unfold Reg.LPE_INJ_STAT Reg.RED_CAUSE
  omega

theorem capStop_apart (c : Nat) (s : State) : PairApart s (capStop c s) :=
  .ite ((PairApart.setReg (capStat_apart c) ..).after rfl rfl) (.refl s)

theorem injAbort_apart (c : Nat) (s : State) : PairApart s (injAbort c s) := by
  refine .ite ?_ (.refl s)
  have hset : PairApart s (injSet c { nth s.lpe.inj c {} with running := false } s) :=
    ((PairApart.setFld (injStat_apart c) ..).trans (.setFld (injStat_apart c) ..)).after rfl rfl
  exact hset.trans (.causeD (by decide) ..)

theorem lpeLeaveRun_apart (s : State) : PairApart s (lpeLeaveRun s) :=
  .forN _ _ _ fun c t => (injAbort_apart c t).trans (capStop_apart c _)

theorem ceHalt_apart (s : State) : PairApart s (ceHalt s) := .forN _ _ _ fun _ _ => .of_same rfl rfl

theorem testPulseClear_apart (s : State) : PairApart s (testPulseClear s) := .of_same rfl rfl

theorem stopWork_apart (s : State) : PairApart s (stopWork s) := by
  have hall : PairApart s (hydStop (optAbandon (ceHalt (lpeLeaveRun (testPulseClear s))))) :=
    (((testPulseClear_apart s).trans (lpeLeaveRun_apart _)).trans (ceHalt_apart _)).trans ((optAbandon_apart _).trans (hydStop_apart _))
  unfold stopWork
  split
  · exact hall
  · exact hall
  · exact hydStop_apart s
  · exact .refl s
  · exact .refl s
  · exact .refl s

theorem setMode_causes (m : Mode) (s : State) : CausesStay s (setMode m s) :=
  ((evRaise_causes ..).trans (redStatus_causes _)).after rfl

/-! ### Metering that starts -/

theorem mtrLog_causes (kind meter detail : Nat) (data : List Byte) (s : State) : CausesStay s (mtrLog kind meter detail data s) := by
  unfold mtrLog
  extract_lets k sec body rec_ s1 s2
  have h1 : CausesStay s s1 := (redStream_causes ..).after rfl
  have h2 : CausesStay s s2 := h1.trans ((CausesStay.setFld (by decide) ..).trans (.setReg (by decide) ..))
  refine .ite (.refl s) (.ite ?_ (.ite (h2.trans (causeD_causes (by decide) ..)) h2))
  exact (CausesStay.setFld (by decide) ..).trans (causeD_causes (by decide) ..)

theorem logBound_causes (m tSave tCut : Nat) (peak : Rat) (detail : Nat) (s : State) :
    CausesStay s (logBound m tSave tCut peak detail s) :=
  (mtrLog_causes ..).trans ((CausesStay.setFld (a := Reg.MTR_CNT) (by decide) ..).trans
    (causeD_causes (reg := Reg.MTR_CAUSE) (by decide) ..))

theorem mtrPending_causes (s : State) : CausesStay s (mtrPending s) :=
  .ite ((CausesStay.forL _ _ _ fun _ _ _ => logBound_causes ..).after rfl) (.refl s)

theorem mtrMissed_causes (m : Nat) (r : Meter) (b : List Byte) (s : State) : CausesStay s (mtrMissed m r b s) := by
  refine .ite (.refl s) ?_
  split
  · exact .refl s
  · exact .ite (.refl s) (mtrLog_causes ..)

theorem meterStart_causes (p : Option (List Byte)) (m : Nat) (r : Meter) (s : State) : CausesStay s (meterStart p m r s) := by
  unfold meterStart
  extract_lets b conf same base x x' s1 s2
  have h1 : CausesStay s s1 := .of_regs rfl
  have h2 : CausesStay s s2 := .ite (h1.trans (mtrLog_causes ..)) (.ite (h1.trans (mtrLog_causes ..)) h1)
  exact .ite (h2.trans (mtrMissed_causes ..)) h2

theorem mtrBound_causes (m : Nat) (p : List Byte) (s : State) : CausesStay s (mtrBound m p s) := by
  refine .ite (.ite (.refl s) (logBound_causes ..)) ?_
  split
  · exact .ite (.refl s) (logBound_causes ..)
  · exact .ite (.refl s) ((mtrPending_causes _).after rfl)

theorem mtrStart_causes (s : State) : CausesStay s (mtrStart s) := by
  unfold mtrStart
  extract_lets p mtr s0 s1 s2 s3 seq
  have h1 : CausesStay s s1 := by
    refine (CausesStay.forN _ s0 _ fun m t => ?_).after rfl
    split
    · exact mtrLog_causes ..
    · exact .refl t
  have h2 : CausesStay s s2 := h1.trans (.forMeters (meterStart p) s1 (meterStart_causes p))
  have hbounds (q : List Byte) : CausesStay s2
      (forN 72 s2 fun m s => if bit (u8 (totalsBlockOf q m) 0x7C) 7 then mtrBound m q s else s) :=
    .forN _ _ _ fun m t => .ite (mtrBound_causes ..) (.refl t)
  have h3 : CausesStay s2 s3 := by
    clear_value s2 p
    cases p with
    | none => exact .refl s2
    | some q => exact .ite (.refl s2) (hbounds q)
  exact (h2.trans h3).trans (.of_regs rfl)

/-! ### Entry into READY -/

/-- No counter that an entry into READY clears is the pair's cause register. -/
theorem readyCounters_apart : ∀ c ∈ readyCounters, ∀ i < c.2.1, c.1 + c.2.2 * i ≠ Reg.RED_CAUSE := by decide +kernel

theorem clearCounters_causes (s : State) : CausesStay s (clearCounters s) := by
  unfold clearCounters
  extract_lets s1 s2 s3
  have h1 : CausesStay s s1 := by
    refine CausesStay.forL readyCounters s _ fun c hc t => ?_
    exact CausesStay.forL (List.range c.2.1) t _ fun i hi u =>
      .setReg (readyCounters_apart c hc i (List.mem_range.1 hi)) 0 u
  have h2 : CausesStay s1 s2 := by
    refine CausesStay.trans ?_ (.setFld (a := Reg.KEY_REMASK) (by decide) ..)
    refine CausesStay.forL (List.range 8) s1 _ fun e he t => .setFld (a := Reg.CE_E_LOAD + 0x200 * e) ?_ ..
    have he8 := List.mem_range.1 he
    unfold Reg.CE_E_LOAD Reg.RED_CAUSE
    omega
  exact (h1.trans h2).trans (.of_regs rfl)

theorem mtrReady_causes (s : State) : CausesStay s (mtrReady s) :=
  .ite (.forMeters _ _ fun _ _ _ => .of_regs rfl) (mtrStart_causes s)

theorem ceReady_causes (s : State) : CausesStay s (ceReady s) := .forN _ _ _ fun _ _ => .of_regs rfl

theorem archReady_causes (s : State) : CausesStay s (archReady s) := by
  unfold archReady
  split
  · exact .refl s
  · exact .of_regs rfl

theorem pairIdle_causes (s : State) : CausesStay s (pairIdle s) := .of_regs rfl

theorem headwayReset_causes (s : State) : CausesStay s (headwayReset s) := .of_regs rfl

theorem calSteady_causes (s : State) :
    CausesStay s (slkReady { s with mgt := { s.mgt with cal := { s.mgt.cal with stepped := false } } }) := .of_regs rfl

theorem enterReady_causes (s : State) : CausesStay s (enterReady s) := by
  have hidle := ((stopWork_apart s).toCausesStay.trans (pairIdle_causes _)).trans (headwayReset_causes _)
  have hmode := (hidle.trans (setMode_causes .ready _)).trans (clearCounters_causes _)
  exact (hmode.trans (calSteady_causes _)).trans
    ((ceReady_causes _).trans ((mtrReady_causes _).trans (archReady_causes _)))

/-! ### Entry into STANDBY -/

theorem setRed_causes (r : RedState) (s : State) : CausesStay s (setRed r s) := .of_regs rfl

theorem alignStart_causes (s : State) : CausesStay s (alignStart s) := by
  unfold alignStart
  extract_lets s0 o s1
  have h0 : CausesStay s s0 := .setFld (by decide) ..
  have hopt : CausesStay s0 { s0 with opt := { o with phase := .idle, due := false } } := .of_regs rfl
  have h1 : CausesStay s0 s1 := hopt.trans ((fabAbandon_apart 2 _).trans (hydStop_apart _)).toCausesStay
  exact (h0.trans h1).trans ((setRed_causes _ s1).trans (redStatus_causes _))

theorem txLeave_causes (s : State) : CausesStay s (txLeave s) :=
  .ite ((causeD_causes (reg := Reg.JNL_CAUSE) (by decide) ..).after rfl) (.refl s)

theorem ciPut_regs (i : Nat) (w : DWord) (s : State) : (ciPut i w s).regs = s.regs := by
  unfold ciPut
  split
  · rfl
  · split
    · rfl
    · exact imgPut_regs ..

theorem ciBlind_causes (s : State) : CausesStay s (ciBlind s) :=
  .of_regs (forL_keeps State.regs _ _ _ fun _ _ => (ciPut_regs ..).trans (ciPut_regs ..))

theorem wagonNew_regs (s : State) : (wagonNew s).2.regs = s.regs := by
  unfold wagonNew
  dsimp only
  split <;> rfl

theorem ftrSeed_regs (which : Element → Bool) (s : State) : (ftrSeed which s).regs = s.regs := by
  refine forL_keeps State.regs _ _ _ fun e u => ?_
  have hnew := wagonNew_regs (pipeSet e.element [] u)
  dsimp only
  split
  · next h => exact (congrArg (fun x => x.2.regs) h).symm.trans hnew
  · next h => exact (congrArg (fun x => x.2.regs) h).symm.trans hnew

theorem ftrEnterRun_apart (s : State) : PairApart s (ftrEnterRun s) := .of_same (ftrSeed_regs _ _) (ftrEnterRun_red s)

theorem enterStandby_causes (aligned : Bool) (s : State) : CausesStay s (enterStandby aligned s) := by
  unfold enterStandby
  extract_lets s1 d c r s2 s3 s4
  have h1 : CausesStay s s1 := (txLeave_causes s).trans (testPulseClear_apart _).toCausesStay
  have h3 : CausesStay s s3 := h1.trans (((setMode_causes .standby s2).trans (ciBlind_causes _)).after rfl)
  have h4 : CausesStay s s4 := h3.trans (.ite (.refl s3) (ftrEnterRun_apart s3).toCausesStay)
  exact .ite h3 (h4.trans ((alignStart_causes _).after rfl))

/-! ### Entry into RUN -/

theorem keyRandom_apart (s : State) : PairApart s (keyRandom s).2 := .of_same rfl rfl

theorem slkDraw_apart (old : Nat) (s : State) : PairApart s (slkDraw old s).2 := by
  unfold slkDraw
  split
  · exact keyRandom_apart s
  · exact .refl s

theorem lineStart_apart (p : Nat) (s : State) : PairApart s (lineStart p s) :=
  (slkDraw_apart (lineSt s p).next s).trans (.of_same rfl rfl)

theorem PairApart.image (x : Image) (s : State) : PairApart s { s with img := x } := .of_same rfl rfl

theorem stnBad_apart (n : Nat) (s : State) : PairApart s (stnBad n s) := .image _ s

end Sys2Proof.Machine
end


section
/-! ## Entry into RUN and into STANDBY: what becomes of the pair -/

open Sys2Proof Sys2Proof.Machine
namespace Sys2Proof.Machine

theorem theTt_of_ctl {s t : State} (h : (ctl t).tt = (ctl s).tt) : theTt t = theTt s := congrArg (fun o : Option Timetable => o.getD {}) h

/-! ### Blocks that begin afresh -/

theorem lagEnter_apart (s : State) : PairApart s (lagEnter s) := by
  refine .forL _ _ _ fun r _ t => ?_
  split
  · exact .ite (.refl t) (.of_same rfl rfl)
  · exact .refl t

theorem optEnterRun_apart (s : State) : PairApart s (optEnterRun s) := by
  unfold optEnterRun
  extract_lets t s1 o
  have h2 : PairApart s1 { s1 with opt := { o with
      first := true, due := false, ready := none, fallbackDue := false,
      kind := if t.mapOutputs.isEmpty then 0 else 4, planStep := absStep s, plan := defaultPlan t } } := .of_same rfl rfl
  exact ((lagEnter_apart s).trans h2).trans (.ite (.of_same rfl rfl) (.refl _))

theorem hydEnterRun_apart (s : State) : PairApart s (hydEnterRun s) := .of_same rfl rfl

theorem dataWrite_apart (e a : Nat) (bs : List Byte) (s : State) : PairApart s (dataWrite e a bs s) := .of_same rfl rfl

theorem retInit_apart (r : Retentive) (s : State) : PairApart s (retInit r s) :=
  (dataWrite_apart ..).trans ((PairApart.setFld (a := Reg.CE_RET_STAT) (by decide) ..).trans
    (.causeD (reg := Reg.CE_CAUSE) (by decide) ..))

theorem retRestore_apart (s : State) : PairApart s (retRestore s) := by
  refine .ite (.refl s) (.trans (.forL (theTt s).retentive s _ fun r _ t => ?_) (.of_same rfl rfl))
  dsimp only
  split
  · exact .ite ((dataWrite_apart ..).trans ((PairApart.setFld (a := Reg.CE_RET_STAT) (by decide) ..).trans
      (.setFld (a := Reg.CE_RET_STAT) (by decide) ..))) (retInit_apart r t)
  · exact retInit_apart r t

theorem dataReload_apart (e : Nat) (s : State) : PairApart s (dataReload e s) := by
  unfold dataReload
  dsimp only
  split <;> exact .of_same rfl rfl

theorem ceSet_apart (e : Nat) (x : EngineSt) (s : State) : PairApart s (ceSet e x s) := .of_same rfl rfl

theorem ceEnterRun_apart (s : State) : PairApart s (ceEnterRun s) := by
  unfold ceEnterRun
  extract_lets s1
  have h1 : PairApart s s1 := .forN 8 s _ fun e t => (dataReload_apart e t).trans (ceSet_apart e _ _)
  exact h1.trans (retRestore_apart s1)

theorem lpeEnterRun_apart (s : State) : PairApart s (lpeEnterRun s) := by
  have h0 : PairApart s { s with lpe := { s.lpe with tick := 0, next := 0 } } := .of_same rfl rfl
  exact h0.trans (.forL _ _ _ fun _ _ _ => .of_same rfl rfl)

theorem chnEnterRun_apart (s : State) : PairApart s (chnEnterRun s) :=
  .forL _ _ _ fun _ _ _ => .ite (.of_same rfl rfl) (.refl _)

/-- R515: the blocks that begin afresh on entry into RUN leave the pair alone. -/
theorem startAfresh_apart (s : State) :
    PairApart s (optEnterRun (ftrEnterRun (hydEnterRun (ceEnterRun (lpeEnterRun (chnEnterRun s)))))) :=
  (((chnEnterRun_apart s).trans (lpeEnterRun_apart _)).trans ((ceEnterRun_apart _).trans (hydEnterRun_apart _))).trans
    ((ftrEnterRun_apart _).trans (optEnterRun_apart _))

/-! ### What is sent, and the own view of the inputs -/

/-- The state of a pair but for what it sends and its own view of the inputs (R501, R503). -/
def SendsOnly (r q : RedState) : Prop := q = { r with priv := q.priv, tx := q.tx, txSeq := q.txSeq, sent := q.sent }

theorem SendsOnly.refl (r : RedState) : SendsOnly r r := rfl

theorem SendsOnly.of_eq {r q : RedState} (h : q = r) : SendsOnly r q := h ▸ rfl

theorem SendsOnly.trans {r q p : RedState} (h : SendsOnly r q) (k : SendsOnly q p) : SendsOnly r p := by
  unfold SendsOnly at *
  rw [k, h]

theorem SendsOnly.viewed (r : RedState) (v : List (Nat × DWord)) : SendsOnly r { r with priv := v } := rfl

theorem redSend_red (m : SyncMsg) (s : State) : SendsOnly s.red (redSend m s).red := by
  unfold redSend
  split <;> rfl

/-- What is sent touches nothing but the pair's state. -/
theorem redSend_rest (m : SyncMsg) (s : State) : redSend m s = { s with red := (redSend m s).red } := by
  unfold redSend
  split <;> rfl

theorem redStatus_red (s : State) : SendsOnly s.red (redStatus s).red := redSend_red ..

theorem setMode_red (m : Mode) (s : State) : SendsOnly s.red (setMode m s).red := by
  refine .trans (.of_eq ?_) (redStatus_red _)
  rw [(evRaise_recorded ..).red]

theorem ciPut_red (i : Nat) (w : DWord) (s : State) : SendsOnly s.red (ciPut i w s).red := by
  unfold ciPut
  split
  · rfl
  · split
    · rfl
    · exact .of_eq (imgPut_red ..)

theorem ciBlind_red (s : State) : SendsOnly s.red (ciBlind s).red := by
  unfold ciBlind forL
  generalize (theTt s).channels.filter needsDrive = rs
  induction rs generalizing s with
  | nil => exact .refl _
  | cons r rs ih => exact ((ciPut_red ..).trans (ciPut_red ..)).trans (ih _)

/-! ### A member that aligns (R507) -/

/-- What the beginning of an alignment makes of the pair's state. -/
def redAligning (r : RedState) : RedState := { r with
  aligning := true, lockstep := false, lockWhole := false, swept := false, engWait := [], optWait := false }

theorem SendsOnly.aligning {r q : RedState} (h : SendsOnly r q) : SendsOnly (redAligning r) (redAligning q) := by
  unfold SendsOnly redAligning
  rw [h]

theorem alignStart_red (s : State) : SendsOnly (redAligning s.red) (alignStart s).red := by
  unfold alignStart
  extract_lets s0 o s1 r
  have hr : s1.red = s.red := (hydStop_red _).trans (fabAbandon_worked 2 _).red
  refine .trans (.of_eq ?_) (redStatus_red _)
  rw [← hr]
  rfl

/-- R495: ACT_OUT_N is deasserted. -/
def redPassive (r : RedState) : RedState := { r with actOut := false }

theorem SendsOnly.passive {r q : RedState} (h : SendsOnly r q) : SendsOnly (redPassive r) (redPassive q) := by
  unfold SendsOnly redPassive
  rw [h]

/-- R496: what an entry into STANDBY makes of the pair's state before it aligns. -/
def redStandby (r : RedState) : RedState := { r with
  stepped := false, originGot := false, rx := [], rxSi := none, wantRun := false, waitSync := false, claiming := false,
  ownCrc := none, peerCrc := none, lockstep := false, lockWhole := false, aligning := false }

theorem enterStandby_red (s : State) :
    SendsOnly (redAligning (redPassive (redStandby s.red))) (enterStandby false s).red := by
  unfold enterStandby
  extract_lets s1 d c r s2 s3 s4
  have h1 : r = s.red := txLeave_red s
  have h2 : SendsOnly (redStandby s.red) s2.red := h1 ▸ .viewed (redStandby r) _
  have h3 : SendsOnly s2.red s3.red := (setMode_red .standby s2).trans (ciBlind_red _)
  have h4 : s4.red = s3.red := by
    simp only [s4]
    split
    · rfl
    · exact ftrEnterRun_red s3
  have h : SendsOnly (redStandby s.red) s4.red := h4 ▸ h2.trans h3
  clear_value s4
  rw [if_neg Bool.false_ne_true]
  exact h.passive.aligning.trans (alignStart_red _)

/-! ### Entry into RUN -/

/-- R496, R514: what an entry into RUN makes of the pair's state. -/
def redRunning (pair : Bool) (r : RedState) : RedState := { r with
  actOut := pair, claiming := false, wantRun := false, waitSync := false, handover := false, aligning := false,
  handAck := false, handKeep := false }

theorem SendsOnly.running {r q : RedState} (h : SendsOnly r q) (pair : Bool) :
    SendsOnly (redRunning pair r) (redRunning pair q) := by
  unfold SendsOnly redRunning
  rw [h]

theorem setMode_theTt (m : Mode) (s : State) : theTt (setMode m s) = theTt s := theTt_of_ctl (by rw [setMode_ctl])

theorem slkEnterRun_red (fromReady : Bool) (s : State) : (slkEnterRun fromReady s).red = s.red := by
  have hdraw (old : Nat) (u : State) : (slkDraw old u).2.red = u.red := (slkDraw_apart old u).red
  refine (forL_keeps State.red (headRoster (theTt s)) _ _ fun r u => ?_).trans
    ((forL_keeps State.red (headPorts (theTt s)) _ _ fun p u => (lineStart_apart p u).red).trans (hdraw _ s))
  split
  · exact (stnBad_apart ..).red.trans rfl
  · rfl

theorem enterRun_red (start ready : Bool) (s : State) : SendsOnly (redRunning (paired s) s.red) (enterRun start ready s).red := by
  unfold enterRun
  extract_lets s1 d r s2 s3
  have hp : paired s1 = paired s := congrArg (fun t : Timetable => t.redundancy.mode == 1) (setMode_theTt .run s)
  have h1 : SendsOnly s.red s1.red := setMode_red .run s
  have h3 : s3.red = s2.red := slkEnterRun_red ready s2
  have h2 : SendsOnly (redRunning (paired s) s.red) s2.red := hp ▸ h1.running (paired s1)
  refine h2.trans (.of_eq ?_)
  split
  · exact (startAfresh_apart s3).red.trans h3
  · exact h3

end Sys2Proof.Machine
end


section
/-! ## The interlock, and O57 (R495, R496, R498, R499, R514) -/

open Sys2Proof Sys2Proof.Machine
namespace Sys2Proof.Machine

/-! ### The pins (R495, R499, R514 step 4) -/

/-- R495, R511: what a level of ACT_IN_N makes of the pair's state. -/
def redPins (a : Bool) (s : State) : RedState := { s.red with
  actIn := a
  actInTick := if s.red.actIn = a then s.red.actInTick else s.pwr.tick + 1
  downTick := if !a && !s.red.sync then some (s.red.downTick.getD (s.pwr.tick + 1)) else none }

section
variable (a : Bool) (s : State)

theorem execActInNChange_eq : exec (.actInNChange a) s = .next (
    if a = false ∧ s.red.actIn = true ∧ paired s = true ∧ s.red.sync = true ∧ (s.red.peerMode = 3 ∨ s.red.peerMode = 5) then
      cause Reg.RED_CAUSE 8 { s with red := redPins a s }
    else if a = true ∧ s.red.handKeep = true then handoverDone { s with red := redPassive (redPins a s) }
    else { s with red := redPins a s }) := by
  change execActInNChange a s = _
  simp only [execActInNChange, Bool.not_eq_true']
  split
  · rfl
  · split <;> rfl

variable {a s}

/-- R511: since when the peer cannot be seen. -/
theorem redPins_downTick : (a = true ∨ s.red.sync = true → (redPins a s).downTick = none) ∧
    (a = false → s.red.sync = false → (redPins a s).downTick = some (s.red.downTick.getD (s.pwr.tick + 1))) := by
  refine ⟨fun h => if_neg ?_, fun ha hs => if_pos (by simp [ha, hs])⟩
  rcases h with h | h <;> simp [h]

end

/-- R514 step 4: the handover has ended. -/
def redHandedOver (tick : Nat) (r : RedState) : RedState := { r with
  handKeep := false, handover := false, handAck := false, swapTick := tick, swapDue := false, handCmd := false,
  cmdStatus := if r.handCmd then 2 else r.cmdStatus }

theorem handoverDone_laws (s : State) : (handoverDone s).red = redHandedOver s.pwr.tick s.red ∧
    getBit (handoverDone s) Reg.RED_CAUSE 2 = true ∧
    (RegsWf s → getReg (handoverDone s) Reg.RED_SWAP_LAST = BitVec.ofNat 32 s.mgt.cal.seconds) := by
  have hcause := redCause_sets (b := 2) (by decide) s
  have hlast : CausesStay (cause Reg.RED_CAUSE 2 s) (handoverDone s) := .trans (.setReg (by decide) ..) (setRed_causes ..)
  refine ⟨?_, hlast.bit hcause, fun hw => ?_⟩
  · unfold handoverDone
    extract_lets s1
    have hr : s1.red = s.red := cause_red ..
    have hp : s1.pwr = s.pwr := (cause_recorded ..).pwr
    change redHandedOver s1.pwr.tick s1.red = _
    rw [hr, hp]
  · obtain ⟨hw1, -⟩ := cause_regs Reg.RED_CAUSE 2 s hw
    exact (getReg_setReg _ _ _ _ hw1).trans (if_pos rfl)

/-! ### The claim (R496) -/

/-- R496 step 3: another member has claimed, and it is the preferred one. -/
def claimLost (s : State) : State := cause Reg.RED_CAUSE 9 (setRed { s.red with actOut := false, claiming := false } s)

theorem claimLost_red (s : State) : (claimLost s).red = { s.red with actOut := false, claiming := false } := cause_red ..

theorem claimSample_lost {s : State} (hm : s.dev.mode = .ready) (hc : s.red.claiming = true) (hi : s.red.actIn = true)
    (hp : preferred s = false) : exec .claimSample s = .next (passive (claimLost s)) :=
  (if_pos ⟨hm, hc⟩).trans (if_pos (by simp [hi, hp]))

/-- R496 step 1: without the link a passive member waits for it. -/
theorem passive_alone {s : State} (h : s.red.sync = false) :
    passive s = setRed { s.red with actOut := false, claiming := false, wantRun := false, waitSync := true } s :=
  if_neg (by simp [h])

theorem passive_same {s : State} (h : s.red.sync = true) (hd : s.red.peerDigest = (theTt s).digest) :
    passive s = enterStandby false s := (if_pos h).trans (if_pos hd)

/-- R505: a member with another digest does not enter STANDBY. -/
theorem passive_other {s : State} (h : s.red.sync = true) (hd : s.red.peerDigest ≠ (theTt s).digest) :
    passive s = cause Reg.RED_CAUSE 10
      (setRed { s.red with actOut := false, claiming := false, wantRun := false, waitSync := false } s) :=
  (if_pos h).trans (if_neg hd)

/-- The three ways of a member that turns passive. -/
theorem passive_ways (s : State) :
    passive s = setRed { s.red with actOut := false, claiming := false, wantRun := false, waitSync := true } s ∨
    passive s = enterStandby false s ∨ passive s = cause Reg.RED_CAUSE 10
      (setRed { s.red with actOut := false, claiming := false, wantRun := false, waitSync := false } s) := by
  cases h : s.red.sync
  · exact .inl (passive_alone h)
  · by_cases hd : s.red.peerDigest = (theTt s).digest
    · exact .inr (.inl (passive_same h hd))
    · exact .inr (.inr (passive_other h hd))

/-- A cause that is set stays set when the member turns passive. -/
theorem passive_keeps {s : State} {b : Nat} (hb : getBit s Reg.RED_CAUSE b = true) : getBit (passive s) Reg.RED_CAUSE b = true := by
  obtain h | h | h := passive_ways s
  · exact h ▸ (setRed_causes _ s).bit hb
  · exact h ▸ (enterStandby_causes false s).bit hb
  · exact h ▸ redCause_bits (by decide) (.inr ((setRed_causes _ s).bit hb))

/-- It has deasserted its pin, and claims no more. -/
theorem passive_red (s : State) : (passive s).red.actOut = false ∧ (passive s).red.claiming = false := by
  obtain h | h | h := passive_ways s
  · exact h ▸ ⟨rfl, rfl⟩
  · rw [h, enterStandby_red s]
    exact ⟨rfl, rfl⟩
  · rw [h, cause_red]
    exact ⟨rfl, rfl⟩

/-! ### Both members active (R498) -/

/-- R498: both members have asserted their pins, outside a claim and a handover. -/
def Conflict (s : State) : Prop :=
  paired s = true ∧ s.red.actOut = true ∧ s.red.actIn = true ∧ s.red.claiming = false ∧ s.red.handKeep = false

theorem interlockConflict_exec {s : State} (h : Conflict s) : exec .interlockConflict s = .next (
    let s1 := if s.dev.mode = .run then fatal 11 0 s else s
    if preferred s then s1 else { s1 with red := redPassive s1.red }) := by
  obtain ⟨hp, ho, hi, hc, hk⟩ := h
  refine (if_pos (by simp [hp, ho, hi, hc, hk])).trans ?_
  dsimp only
  split <;> rfl

/-- R26, R498: the fatal cause of a conflict in RUN. -/
theorem fatal_run {s : State} (b src : Nat) (hw : RegsWf s) (hb : b < 32) (hm : s.dev.mode = .run) :
    (fatal b src s).red = s.red ∧ (fatal b src s).dev.fatalDue = true ∧ getBit (fatal b src s) Reg.DEV_CAUSE b = true := by
  obtain ⟨-, hrest, hdue⟩ | ⟨hno, -⟩ := fatal_cases b src s
  · refine ⟨?_, hdue, ?_⟩
    · rw [hrest, (fatalRecorded_recorderOnly b src s).rest]
    · rw [hrest]
      exact fatalRecorded_getBit b src s hw hb
  · exact absurd hm hno

end Sys2Proof.Machine

/-- Settles O57: the branches of the pins, the claim and the conflict, and the causes that stay through what follows. -/
theorem interlock : Obligations.Interlock := by
  refine ⟨fun a s hw => ?_, fun s hw hm hc => ⟨fun h => ?_, fun hi hp => ?_⟩, fun s hw hp ho hi hc hk => ?_⟩
  · intro fault hands
    rw [execActInNChange_eq]
    obtain ⟨hup, hdown⟩ := redPins_downTick (a := a) (s := s)
    split
    next hf =>
      have hh : ¬ hands := fun h => Bool.false_ne_true (hf.1.symm.trans h.1)
      have hr : (cause Reg.RED_CAUSE 8 { s with red := redPins a s }).red = redPins a s := cause_red ..
      refine ⟨_, rfl, by rw [hr]; rfl, mode_of_ctl (cause_ctl ..), by rw [hr]; exact hup, by rw [hr]; exact hdown,
        fun _ => redCause_sets (by decide) _, fun h => absurd h hh, fun _ => by rw [hr]; rfl⟩
    next hf =>
      split
      next hh =>
        obtain ⟨hr, h2, hlast⟩ := handoverDone_laws { s with red := redPassive (redPins a s) }
        refine ⟨_, rfl, by rw [hr]; rfl, mode_of_ctl (handoverDone_ctl _), by rw [hr]; exact hup, by rw [hr]; exact hdown,
          fun h => absurd h hf, fun _ => ⟨by rw [hr]; rfl, by rw [hr]; rfl, h2, hlast hw⟩, fun h => absurd hh h⟩
      next hh => exact ⟨_, rfl, rfl, rfl, hup, hdown, fun h => absurd h hf, fun h => absurd h hh, fun _ => rfl⟩
  · have hrun : exec .claimSample s = .next (enterRun true true s) := (if_pos ⟨hm, hc⟩).trans (if_neg (by
      rcases h with h | h <;> simp [h]))
    refine ⟨_, hrun, mode_of_ctl (enterRun_ctl ..), ?_⟩
    rw [enterRun_red true true s]
    exact ⟨rfl, rfl⟩
  · obtain ⟨hout, hclaim⟩ := passive_red (claimLost s)
    have h9 : getBit (passive (claimLost s)) Reg.RED_CAUSE 9 = true := passive_keeps (redCause_sets (by decide) _)
    have hred := claimLost_red s
    have htt : theTt (claimLost s) = theTt s := theTt_of_ctl (by rw [claimLost, cause_ctl]; rfl)
    refine ⟨_, claimSample_lost hm hc hi hp, hout, hclaim, h9, fun hs => ?_, fun hs hd => ?_, fun hs hd => ?_⟩
    · rw [passive_alone (by rw [hred]; exact hs)]
      exact ⟨(mode_of_ctl (cause_ctl ..)).trans hm, rfl⟩
    · rw [passive_same (by rw [hred]; exact hs) (by rw [hred, htt]; exact hd)]
      refine ⟨mode_of_ctl (enterStandby_ctl ..), ?_⟩
      rw [enterStandby_red]
      rfl
    · rw [passive_other (by rw [hred]; exact hs) (by rw [hred, htt]; exact hd)]
      exact ⟨(mode_of_ctl (cause_ctl ..)).trans ((mode_of_ctl (cause_ctl ..)).trans hm), redCause_sets (by decide) _⟩
  · have hexec := interlockConflict_exec ⟨hp, ho, hi, hc, hk⟩
    by_cases hm : s.dev.mode = .run
    · obtain ⟨hred, hdue, h11⟩ := fatal_run 11 0 hw (by decide) hm
      have hmode : (fatal 11 0 s).dev.mode = s.dev.mode := mode_of_ctl (fatal_ctl ..)
      simp only [if_pos hm] at hexec
      refine ⟨_, hexec, ?_⟩
      cases preferred s
      · exact ⟨hmode, rfl, fun _ => ⟨hdue, h11⟩, fun h => absurd hm h⟩
      · exact ⟨hmode, (congrArg RedState.actOut hred).trans ho, fun _ => ⟨hdue, h11⟩, fun h => absurd hm h⟩
    · simp only [if_neg hm] at hexec
      refine ⟨_, hexec, ?_⟩
      cases preferred s
      · exact ⟨rfl, rfl, fun h => absurd h hm, fun _ => rfl⟩
      · exact ⟨rfl, ho, fun h => absurd h hm, fun _ => rfl⟩
end


section
/-! ## The sync link, and O58 (R496, R499 to R501, R505) -/

open Sys2Proof Sys2Proof.Machine
namespace Sys2Proof.Machine

/-! ### Frames (R500, R501) -/

section
variable {s : State} (hon : domOn s 17 = true) (hp : paired s = true) (hs : s.red.sync = true) (seq : Nat)
include hon hp hs

theorem syncFrame_open : ¬ (!domOn s 17 ∨ !paired s ∨ !s.red.sync) := by simp [hon, hp, hs]

/-- An acknowledgement ends the wait of the frame it names. -/
theorem syncFrame_ack : exec (.syncFrame seq .ack) s =
    .next { s with red := { s.red with tx := s.red.tx.filter (fun x => x.seq != seq) } } :=
  (if_neg (syncFrame_open hon hp hs)).trans (if_pos rfl)

/-- A frame sent again is acknowledged only. -/
theorem syncFrame_again {m : SyncMsg} (hm : m ≠ .ack) (hn : s.red.rxSeq = some seq) :
    exec (.syncFrame seq m) s = .next { s with red := { s.red with sent := some (seq, .ack) } } :=
  (if_neg (syncFrame_open hon hp hs)).trans ((if_neg hm).trans (if_pos hn))

end

/-- The state in which a new frame is received and acknowledged. -/
def frameTaken (seq : Nat) (s : State) : State := { s with red := { s.red with rxSeq := some seq, sent := some (seq, .ack) } }

/-- R502: what waits for the standby's tick. -/
def IsStream (m : SyncMsg) : Prop := (∃ ws, m = .ci ws) ∨ (∃ a w, m = .write a w) ∨ (∃ k x y, m = .meter k x y) ∨
  (∃ a b c d, m = .cadence a b c d) ∨ m = .tickEnd

theorem syncReceive_stream {m : SyncMsg} (hm : IsStream m) (s : State) : m ≠ .ack ∧
    syncReceive m s = if s.dev.mode = .standby then setRed { s.red with rx := s.red.rx ++ [m] } s else s := by
  obtain ⟨ws, rfl⟩ | ⟨a, w, rfl⟩ | ⟨k, x, y, rfl⟩ | ⟨a, b, c, d, rfl⟩ | rfl := hm <;>
    exact ⟨SyncMsg.noConfusion, rfl⟩

section
variable {mode : Nat} {fit : Bool} {digest : List Byte} {lock : Bool} {s : State}

/-- The pair's state with what a status frame says of the peer. -/
def redPeer (mode : Nat) (fit : Bool) (digest : List Byte) (lock : Bool) (r : RedState) : RedState :=
  { r with peerMode := mode, peerFit := fit, peerDigest := digest, peerLock := lock }

/-- R499: a status frame of a member that neither is in STANDBY nor waits is noted, with a fault if the pin contradicts it. -/
theorem syncReceive_status_noted (hm : s.dev.mode ≠ .standby) (hw : s.red.waitSync = false) :
    syncReceive (.status mode fit digest lock) s = wiringFault (setRed (redPeer mode fit digest lock s.red) s) :=
  (if_neg fun h => hm h.1).trans (if_neg fun h => Bool.false_ne_true (hw.symm.trans h.2.1))

/-- R505: the active member has another digest. -/
theorem syncReceive_status_differs (hm : s.dev.mode = .standby) (ha : mode = 3 ∨ mode = 5) (hd : digest ≠ (theTt s).digest) :
    syncReceive (.status mode fit digest lock) s =
      digestMismatch (wiringFault (setRed (redPeer mode fit digest lock s.red) s)) := if_pos ⟨hm, ha, hd⟩

end

/-- R505: a member whose digest differs is in READY, with the cause. -/
theorem digestMismatch_laws (s : State) : (digestMismatch s).dev.mode = .ready ∧ getBit (digestMismatch s) Reg.RED_CAUSE 10 = true :=
  ⟨mode_of_ctl (enterReady_ctl _), (enterReady_causes _).bit (redCause_sets (by decide) s)⟩

/-- R500: a frame that is not acknowledged in time is sent again. -/
theorem syncResend_exec {seq : Nat} {s : State} (hon : domOn s 17 = true) (hs : s.red.sync = true)
    (hx : ∃ x ∈ s.red.tx, x.seq = seq) : ∃ x ∈ s.red.tx, x.seq = seq ∧ exec (.syncResendTimeout seq) s =
      .next (incFld Reg.RED_LINK 15 0 { s with red := { s.red with sent := some (seq, x.msg) } }) := by
  obtain ⟨y, hy, hseq⟩ := hx
  obtain ⟨x, hfind⟩ := Option.isSome_iff_exists.1 (List.find?_isSome.2 ⟨y, hy, beq_iff_eq.2 hseq⟩ :
    (s.red.tx.find? (fun x => x.seq == seq)).isSome = true)
  have hxs : x.seq = seq := by simpa using List.find?_some hfind
  refine ⟨x, List.mem_of_find?_eq_some hfind, hxs, (execSyncResendTimeout_sends hon hs hfind).trans ?_⟩
  rw [hxs]
  rfl

/-! ### The link goes down and comes up (R500) -/

/-- R500: what the loss of the link makes of the pair's state. -/
def redCut (s : State) : RedState := { s.red with
  sync := false, lanes := 0, tx := [], peerFit := false, peerLock := false
  downTick := if !s.red.actIn then some (s.red.downTick.getD (s.pwr.tick + 1)) else none }

theorem syncDown_laws {s : State} (hw : RegsWf s) (hs : s.red.sync = true) : (syncDown s).red = redCut s ∧
    (syncDown s).dev = s.dev ∧ getBit (syncDown s) Reg.RED_CAUSE 6 = true ∧
    getFld (syncDown s) Reg.RED_LINK 31 16 = satInc 16 (getFld s Reg.RED_LINK 31 16) := by
  have hdown := (syncDown.eq_1 s).trans (if_pos hs)
  rw [hdown]
  generalize hv : setRed { s.red with sync := false, lanes := 0, tx := [], peerFit := false, peerLock := false } s = v
  have hrec := cause_recorded Reg.RED_CAUSE 6 (incFld Reg.RED_LINK 31 16 v)
  obtain ⟨-, hkeep⟩ := cause_regs Reg.RED_CAUSE 6 (incFld Reg.RED_LINK 31 16 v) (setReg_wf _ _ v (by rw [← hv]; exact hw))
  refine ⟨?_, ?_, redCause_sets (by decide) (incFld Reg.RED_LINK 31 16 v), ?_⟩
  · unfold redDown
    rw [hrec.red, hrec.pwr, ← hv]
    cases hi : s.red.actIn <;> simp [redCut, setRed, hi, incFld, setFld, setReg]
  · exact hrec.dev.trans (by rw [← hv]; rfl)
  · have hlink : getFld (cause Reg.RED_CAUSE 6 (incFld Reg.RED_LINK 31 16 v)) Reg.RED_LINK 31 16 =
        getFld (incFld Reg.RED_LINK 31 16 v) Reg.RED_LINK 31 16 := getFld_congr (hkeep _ (by decide)) 31 16
    refine hlink.trans ((getFld_incFld Reg.RED_LINK 31 16 (by rw [← hv]; exact hw) (by decide) (by decide)).trans ?_)
    rw [← hv]
    rfl

/-- R500, R496: the pair's state of a link that has come up, before what it begins. -/
def redLinked (s : State) : RedState := { s.red with
  sync := true
  lanes := (theTt s).redundancy.lanes
  rxSeq := none
  formed := true
  swapTick := if s.red.formed then s.red.swapTick else s.pwr.tick
  downTick := none }

/-- The link is up, and the peer is told. -/
def linkUp (s : State) : State := redStatus (setRed (redLinked s) s)

theorem linkUp_red (s : State) : SendsOnly (redLinked s) (linkUp s).red := redStatus_red _

theorem linkUp_dev (s : State) : (linkUp s).dev = s.dev := by
  rw [linkUp, redStatus, redSend_rest]
  rfl

/-- R496: what a member begins whose link has come up: one that waits in READY enters STANDBY beside an active member of its
own digest, and claims where there is none. -/
def linkUpBegins (v : State) : State :=
  if v.dev.mode = .ready ∧ v.red.waitSync = true then
    if v.red.actIn = true then
      if v.red.peerDigest = (theTt v).digest then enterStandby false v else v
    else setRed { v.red with waitSync := false, wantRun := true } v
  else v

theorem syncLinkUp_exec {s : State} (hon : domOn s 17 = true) (hp : paired s = true) (hs : s.red.sync = false)
    (hl : s.pwr.serLock = true) : exec .syncLinkUp s = .next (linkUpBegins (linkUp s)) := by
  have hlinked : redDown (setRed { s.red with
      sync := true, lanes := (theTt s).redundancy.lanes, rxSeq := none, formed := true,
      swapTick := if s.red.formed then s.red.swapTick else s.pwr.tick } s) = setRed (redLinked s) s := by
    simp [redDown, setRed, redLinked]
  refine (if_neg (by simp [hon, hp, hs, hl])).trans ?_
  dsimp only
  rw [hlinked, ← linkUp.eq_1]
  simp only [linkUpBegins, apply_ite Host.Outcome.next]

/-- Whatever it begins, the link stays up with its lanes. -/
theorem linkUpBegins_link (v : State) :
    (linkUpBegins v).red.sync = v.red.sync ∧ (linkUpBegins v).red.lanes = v.red.lanes := by
  have hst := enterStandby_red v
  unfold linkUpBegins
  split
  · split
    · split
      · rw [hst]
        exact ⟨rfl, rfl⟩
      · exact ⟨rfl, rfl⟩
    · exact ⟨rfl, rfl⟩
  · exact ⟨rfl, rfl⟩

end Sys2Proof.Machine

/-- Settles O58: what each frame does where it is taken, and the link's two edges. -/
theorem syncLink : Obligations.SyncLink := by
  intro s hw hon
  refine ⟨fun hp hs seq => ⟨syncFrame_ack hon hp hs seq, fun m hm hn => syncFrame_again hon hp hs seq hm hn, fun hn => ?_⟩,
    fun seq hs hx => syncResend_exec hon hs hx, fun hs => ?_, fun hs => congrArg _ (if_neg (by simp [hs])),
    fun hp hs hl => ?_, fun lane hlane hs h3 => ?_⟩
  · have hnew {m : SyncMsg} (hm : m ≠ .ack) : exec (.syncFrame seq m) s = .next (syncReceive m (frameTaken seq s)) :=
      execSyncFrame_new hon hp hs hm hn
    refine ⟨fun m hm => ?_, fun ws hm => (hnew SyncMsg.noConfusion).trans (congrArg _ (if_pos hm)),
      fun mode fit digest lock hm hwait => ?_, fun mode fit digest lock hm ha hd => ?_⟩
    · obtain ⟨hack, hrx⟩ := syncReceive_stream hm (frameTaken seq s)
      have hexec := (hnew hack).trans (congrArg _ hrx)
      exact ⟨fun hst => hexec.trans (congrArg _ (if_pos hst)), fun hst => hexec.trans (congrArg _ (if_neg hst))⟩
    · intro v
      have hexec := (hnew SyncMsg.noConfusion).trans
        (congrArg _ (syncReceive_status_noted (mode := mode) (fit := fit) (digest := digest) (lock := lock)
          (s := frameTaken seq s) hm hwait))
      refine ⟨fun h => hexec.trans (congrArg _ (if_neg ?_)), fun hin ha h8 => hexec.trans (congrArg _ (if_pos ?_))⟩
      · rintro ⟨hmode : mode = 3 ∨ mode = 5, hin : (!s.red.actIn) = true, -⟩
        rcases h with h | h
        · simp [h] at hin
        · omega
      · exact ⟨ha, congrArg not hin, congrArg not h8⟩
    · exact ⟨_, (hnew SyncMsg.noConfusion).trans (congrArg _ (syncReceive_status_differs hm ha hd)), digestMismatch_laws _⟩
  · obtain ⟨hred, hdev, h6, hcnt⟩ := syncDown_laws hw hs
    refine ⟨syncDown s, rfl, ?_⟩
    rw [hred]
    exact ⟨rfl, rfl, rfl, rfl, hdev, h6, hcnt⟩
  · obtain ⟨hsync, hlanes⟩ := linkUpBegins_link (linkUp s)
    have hred := linkUp_red s
    have hdev := linkUp_dev s
    have htt := theTt_congr hdev
    refine ⟨_, syncLinkUp_exec hon hp hs hl, hsync.trans (by rw [hred]; rfl), hlanes.trans (by rw [hred]; rfl), fun h => ?_,
      fun hm hwait hin => ⟨fun hd => ?_, fun hd => ?_⟩, fun hm hwait hin => ?_⟩
    · have hidle : ¬ ((linkUp s).dev.mode = .ready ∧ (linkUp s).red.waitSync = true) := by
        rw [hdev, hred]
        exact fun ⟨hm, hwait⟩ => h.elim (· hm) fun h => Bool.false_ne_true (h.symm.trans hwait)
      rw [linkUpBegins, if_neg hidle, hdev]
    all_goals
      have hwaits : (linkUp s).dev.mode = .ready ∧ (linkUp s).red.waitSync = true := by
        rw [hdev, hred]
        exact ⟨hm, hwait⟩
      have hpin : (linkUp s).red.actIn = s.red.actIn := by
        rw [hred]
        rfl
      have hdig : (linkUp s).red.peerDigest = s.red.peerDigest := by
        rw [hred]
        rfl
      rw [linkUpBegins, if_pos hwaits, hpin]
    · rw [if_pos hin, if_pos (by rw [hdig, htt]; exact hd)]
      refine ⟨mode_of_ctl (enterStandby_ctl ..), ?_⟩
      rw [enterStandby_red]
      exact ⟨rfl, rfl⟩
    · rw [if_pos hin, if_neg (by rw [hdig, htt]; exact hd)]
      exact ⟨hdev, hwaits.2⟩
    · rw [if_neg (by simp [hin])]
      exact ⟨hdev, rfl, rfl⟩
  · have hlanes : (3 - 2 ^ lane : Nat) = 2 - lane := by
      interval_cases lane <;> rfl
    refine ⟨_, if_pos ⟨hon, hs, h3, hlane⟩, ?_, redCause_sets (by decide) _⟩
    rw [cause_red, hlanes]
    rfl
end


section
/-! ## A standby younger than the schedule origin, and O59 (R18, R502)

A standby translates the active member's schedule origin to its own tick count modulo 2^48. One that has run for fewer
ticks than have passed since the origin gets an origin before its own tick 0, which wraps. -/

open Sys2Proof Sys2Proof.Machine
namespace Sys2Proof.Machine

theorem redStatus_dev (s : State) : (redStatus s).dev = s.dev := by rw [redStatus, redSend_rest]

theorem lockCheck_dev (s : State) : (lockCheck s).dev = s.dev := by
  unfold lockCheck
  split
  · exact redStatus_dev _
  · rfl

theorem maxFld_dev (a hi lo v : Nat) (s : State) : (maxFld a hi lo v s).dev = s.dev := by
  unfold maxFld
  split <;> rfl

/-- R502: the schedule of a standby's tick is the one that its messages give. -/
theorem standbyTick_dev {s : State} {ms rest : List SyncMsg} (h : rxTick s.red.rx = some (ms, rest)) :
    (standbyTick s).dev = (forL ms (setRed { s.red with rx := rest } s) applyStream).dev := by
  rw [standbyTick, h]
  exact (lockCheck_dev _).trans (maxFld_dev ..)

theorem standbyTickWork_exec {s : State} (hm : s.dev.mode = .standby) (hn : s.red.stepped = false) (hr : streamsReady s = true) :
    exec .standbyTickWork s = .next (standbyTick s) := if_pos ⟨hm, by rw [hn]; rfl, hr⟩

/-- A standby at its tick 1,024, whose active member's origin lies 2,000 ticks back. -/
def youngStandby : State := { State.reset with
  dev := { State.reset.dev with mode := .standby }
  pwr := { State.reset.pwr with tick := 1024 }
  red := { State.reset.red with rx := [.cadence 3 2000 0 0, .tickEnd] } }

theorem youngStandby_wf : RegsWf youngStandby := rfl

theorem youngStandby_ready : streamsReady youngStandby = true := by decide +kernel

/-- The origin wraps, where the difference of the two counts is 0. -/
theorem youngStandby_origin : (standbyTick youngStandby).dev.schedOrigin = 2 ^ 48 - 976 := by
  rw [standbyTick_dev (ms := [.cadence 3 2000 0 0]) (rest := []) rfl]
  rfl

end Sys2Proof.Machine

/-- Refutes O59: its first clause gives a standby's schedule origin as its tick less the ticks since the origin, in natural
numbers; the model wraps modulo 2^48, and for a standby younger than the origin the two differ. -/
theorem not_standbyTakeoverAndHandover : ¬ Obligations.StandbyTakeoverAndHandover := by
  intro h
  have hexec := standbyTickWork_exec (s := youngStandby) rfl rfl youngStandby_ready
  obtain ⟨t, ht, -, -, -, -, -, -, horigin⟩ :=
    (h.1 youngStandby youngStandby_wf).1 rfl rfl youngStandby_ready [] 3 2000 0 0 [] rfl List.not_mem_nil
  obtain rfl : standbyTick youngStandby = t := Host.Outcome.next.inj (hexec.symm.trans ht)
  exact absurd (youngStandby_origin.symm.trans horigin) (by decide)
end
